-- ==== Sys2Proof/Word.lean ====
section
/-! DEFINITION. Word.lean: the words the device moves and the types of the traffic that crosses its edges.
A byte and a 32-bit register word are bit vectors (the spec masks, shifts and XORs them); counts, times, indexes and
field values are `Nat` or `Int`. -/

namespace Sys2Proof

/-- One byte of an item, a frame or a memory. -/
abbrev Byte := BitVec 8

/-- One 32-bit register word, as a BAR0 access carries it (R14). -/
abbrev Word := BitVec 32

end Sys2Proof
end

