-- ==== Sys2Proof/Traffic.lean ====
section
/-! DEFINITION. Traffic.lean: the data that crosses the edges of the device: candidates from its ports, items, and
what it emits. Commands carry these as operands and the state keeps them. Bodies are lists of bytes in wire order. -/

namespace Sys2Proof

/-- The settings of an ingest port table entry (R43), as they were in force when a candidate opened (R41). -/
structure PortCfg where
  rxEn : Bool
  type : Nat
  stampPt : Nat
  chkReq : Bool
  laxHex : Bool
  laxEol : Bool
  passBad : Bool
  smax : Nat
  baudDiv : Nat
  parity : Nat
  stop2 : Bool
  data7 : Bool
  icto : Nat
  delayNs : Nat
  adjNs : Int
  diagFlow : Nat
  deriving DecidableEq, Repr

/-- What kind of front end delivered a candidate (R39, R53). -/
inductive CandSrc where
  | sentence | can | pgn | datagram | tongs | axis | host
  deriving DecidableEq, Repr

/-- A candidate: data a front end has committed, with its captures (R39, R55, R59). Instants are in 1/65 536 ns. -/
structure Cand where
  /-- Serial number of the candidate, given at its commit. -/
  id : Nat
  port : Nat
  src : CandSrc
  /-- Delivered whole by a leaf, to be framed by the anvil (R449). -/
  remote : Bool
  body : List Byte
  cfg : PortCfg
  first : Nat
  sent : Nat
  fin : Nat
  /-- Ingest (R21): the instant of H, and of the reference clock. -/
  ingest : Nat
  born : Nat
  timeOk : Bool
  dom : Nat
  /-- PATH_NS of the copy kept, in 1/256 ns (R60, R207). -/
  path256 : Nat
  /-- Words of its receive FIFO that the candidate holds (R323). -/
  words : Nat
  poison : Bool
  /-- Leaf and ISEQ of the ITEM_IN that carried it (R217); 0 for a local port. -/
  leaf : Nat
  iseq : Nat
  /-- Submitted PRIO, KEY, DEADLINE and KIND of a host submission, and its descriptor (R34, R389). -/
  host : List Nat
  deriving DecidableEq, Repr

/-- An item: the header of R27 but for LEN and HCHK, which follow from it, and its body. `stamp` is STAMP_S and STAMP_NS
as one count of nanoseconds. -/
structure Item where
  kind : Nat
  prio : Nat
  replayed : Bool
  consensus : Bool
  late : Bool
  poison : Bool
  flow : Nat
  port : Nat
  seq : Nat
  stamp : Nat
  key : Nat
  deadline : Nat
  dom : Nat
  axis : Nat
  body : List Byte
  deriving DecidableEq, Repr

/-- A record of the admission log (R249). -/
inductive LogRec where
  | admission (stx : Bool) (leaf hchk iseq flow handle : Nat)
  | stampX (dom stamp : Nat)
  | admitCopy (handle : Nat) (item : Item)
  | refuse (cause leaf iseq : Nat)
  | resolve (code queue handle : Nat)
  | place (queue handle after : Nat)
  | timer (kind port arg : Nat)
  | decide (outcome group selected valid live : Nat)
  | close (cause group liveAfter : Nat)
  | ctrl (kind index endNs endS : Nat)
  | commit (table index : Nat) (last : Bool) (words : List Nat)
  | delta (off size data : Nat) (atH : Option Nat)
  | mark (kind h : Nat)
  | qcopy (queue handle after : Nat) (item : Option Item)
  | unknown (rtype : Nat)
  deriving DecidableEq, Repr

/-- One member's contribution to an open round (R95, R96). `value` is what VAL_RULE read, if it read one. -/
structure Contrib where
  mem : Nat
  item : Item
  valid : Bool
  value : Option Int
  deriving DecidableEq, Repr

/-- The open round of a group: contributions in admission order, expiry as an instant of H, and once decided the
outcome, the selected member and the consensus item's SEQ. -/
structure Round where
  contribs : List Contrib
  exp : Nat
  outcome : Option Nat
  sel : Option Nat
  outSeq : Nat
  /-- On a standby in step: the contribution and expiry that open the next round once the log closes this one (R105). -/
  nxt : Option (Contrib × Nat)
  deriving DecidableEq, Repr

/-- What a queued status sentence reports (R142): the flow (none for the overflow entry), the SEQ numbers whose
dispositions it counts, THRU, and the counts. -/
structure StatTok where
  flow : Option Nat
  seqs : List Nat
  thru : Nat
  counts : List Nat
  deriving DecidableEq, Repr

/-- A ledger entry of a flow at a listener (R142): FROM, the highest SEQ resolved, and each disposition but SENT. -/
structure LedgEnt where
  flow : Nat
  frm : Nat
  top : Nat
  disp : List (Nat × Nat)
  queued : Bool
  deriving DecidableEq, Repr

/-- The ledger of a listener port (R142). -/
structure Ledger where
  ents : List LedgEnt
  ovfFlows : List Nat
  ovf : List Nat
  ovfQueued : Bool
  lastB : Option Nat
  deriving DecidableEq, Repr

/-- What a BULK frame carries to the joiner (R244, R261), in parts: the snapshot at P0 begins; register and table cells by
bit address; an open round; a ledger; the end of a NEWEST hold of a port and key; the numbering era and the next handle of
the pool; the snapshot is complete; an item fetched by leaf and ISEQ (R251); a QCOPY record. -/
inductive BulkPart where
  | start (p0 : Nat)
  | cells (l : List (Nat × Nat))
  | round (group : Nat) (r : Round)
  | ledger (port : Nat) (l : Ledger)
  | hold (port key endH : Nat)
  | numbering (era nextHandle : Nat)
  | finish
  | item (leaf iseq : Nat) (i : Item)
  | record (r : LogRec)
  deriving DecidableEq, Repr

/-- States of the framing machine of R46. -/
inductive FState where
  | hunt | tag | tagx | sent | cr
  deriving DecidableEq, Repr

/-- The framing machine with the length counts of R47. -/
structure Framer where
  st : FState
  /-- After a limit was exceeded: characters are discarded uncounted up to the next opening character (R47). -/
  skip : Bool
  body : Nat
  blk : Nat
  blks : Nat
  len : Nat
  deriving DecidableEq, Repr

/-- A candidate being received on a UART line. -/
structure OpenCand where
  bytes : List Byte
  cfg : PortCfg
  first : Nat
  firstDom : Nat
  sent : Nat
  sentDom : Nat
  deriving DecidableEq, Repr

/-- A packet of the Osvon ring (R202). -/
structure RingPkt where
  pt : Nat
  dmode : Nat
  wr : Bool
  rs : Bool
  hb : Bool
  src : Nat
  dst : Nat
  hops : Nat
  xf : Nat
  payload : List Byte
  deriving DecidableEq, Repr

/-- One record of a DISCOVER pass (R209): delays in 1/256 ns, residence in 1/16 ns. -/
structure DiscRec where
  id : Nat
  hub : Bool
  eUp : Bool
  wUp : Bool
  wrapped : Bool
  maj : Nat
  incarn : Nat
  eIn : Nat
  wIn : Nat
  resid : Nat
  verMin : Nat
  deriving DecidableEq, Repr

/-- One thing that leaves the device. -/
inductive Emission where
  /-- An MSI-X message: vector, address and data. -/
  | msix (vec addr data : Nat)
  /-- A write to host memory. -/
  | hostWrite (addr : Nat) (data : List Byte)
  /-- A read of host memory asked for: ring type (0 transmit, 1 receive), ring, descriptor. -/
  | hostRead (rx ring idx : Nat)
  /-- Unsupported Request or Completer Abort answered to the host for an access to BAR0. -/
  | hostUR (addr : Nat)
  /-- The completion of a 64-bit pop read. -/
  | popCpl (value : Nat)
  /-- Characters sent on a UART line; a break and its length in bit times. -/
  | uartTx (port : Nat) (data : List Byte)
  | uartBreak (port bits : Nat)
  /-- A whole link frame sent on a ring port (0 to 3) or Ngato lane (4, 5), from FT through LCRC. -/
  | lineTx (port : Nat) (bytes : List Byte)
  /-- A CAN frame (its record, R269) sent on a port; an Ethernet frame, without preamble and FCS, sent on a port. -/
  | canTx (port : Nat) (record : List Byte)
  | ethTx (port : Nat) (frame : List Byte)
  /-- A PPS output pulse: output, H at its leading edge, width in ns, whether that edge rises. -/
  | ppsPulse (out edge width : Nat) (rising : Bool)
  /-- A discrete line drives its ball to a level, or is released to high impedance, at an instant of H. -/
  | tongPin (line : Nat) (level : Option Bool) (h : Nat)
  /-- PWR_HOLD driven to a level. -/
  | pwrHold (level : Bool)
  deriving DecidableEq, Repr

end Sys2Proof
end

