-- ==== Sys2Proof/Syntax.lean ====
section
/-! DEFINITION. Syntax.lean: the commands of the device, one constructor for each row of spec/opcode_table.json, in the
table's order. Every command carries the instant `t` of the reference clock at which it happens, in units of
1/65 536 ns since power was first applied, and then the operands of its row. -/

namespace Sys2Proof

/-- The commands: host writes with a row of their own, and the events of the device's ports, links and timers. -/
inductive Instr where
  /-- REGISTER_WRITE (R7). A host write to a register field that has no row of its own, applied by its access type and refused as a whole under R9 or R10 when illegal or locked. -/
  | registerWrite (t : Nat) (addr : Nat) (wide : Bool) (value : BitVec 64)
  /-- PG_STAT_ERROR_CLEAR (R11). A W1C write of ERROR clears ERROR and the recorded error code. -/
  | pgStatErrorClear (t : Nat) (page : Nat)
  /-- PG_EVT_CLEAR (R383). A W1C write clears event bits; an event in the same clock keeps the bit set and requests a new message. -/
  | pgEvtClear (t : Nat) (page : Nat) (word : Word)
  /-- PG_EVT_EN_WRITE (R383). Enabling an event bit that is already set requests an MSI-X message or pushes a pop record. -/
  | pgEvtEnWrite (t : Nat) (page : Nat) (word : Word)
  /-- PAGE_LOCK (R377). A write of LOCK 1 locks an unlocked page and stores LKEY. -/
  | pageLock (t : Nat) (page key : Nat)
  /-- PAGE_UNLOCK (R377). A write of LOCK 0 with the stored key unlocks the page; a wrong key reports LOCKED. -/
  | pageUnlock (t : Nat) (page key : Nat)
  /-- ENABLE_WRITE (R376). A write of PG_CTRL ENABLE starts or stops a block as its chapter defines. -/
  | enableWrite (t : Nat) (page : Nat) (on : Bool)
  /-- SOFT_RESET (R417). PG_CTRL SRST resets one block while its neighbours run, completing or discarding its requests and replies and flushing its FIFOs. -/
  | softReset (t : Nat) (page sent stamp : Nat)
  /-- SOFT_RESET_DONE (R417). IN_RESET clears once the block is quiesced, and READY returns. -/
  | softResetDone (t : Nat) (page np late : Nat)
  /-- BLOCK_FREEZE (R313). PG_CTRL FREEZE holds a block, such as a tongs engine, with its state intact, or resumes it when cleared. -/
  | blockFreeze (t : Nat) (page : Nat) (on : Bool)
  /-- TEST_MODE (R367). PG_CTRL TEST_MODE puts a block in its test mode, with the strongbox entering or leaving state TEST. -/
  | testMode (t : Nat) (page : Nat) (on : Bool)
  /-- UNSUPPORTED_ACCESS (R379). A BAR0 access of wrong size or alignment completes with Unsupported Request, records UR_ADDR and raises UR. -/
  | unsupportedAccess (t : Nat) (addr : Nat)
  /-- HOLE_ACCESS (R379). A BAR0 access to an undefined offset reads 0 or is discarded, and records HOLE_ADDR. -/
  | holeAccess (t : Nat) (addr : Nat)
  /-- POISONED_WRITE (R373). A host write received with EP set is discarded, counted in POISONED_WR and reported through AER. -/
  | poisonedWrite (t : Nat)
  /-- POWER_ON (R404). Supplies first come within range with the always-on domain newly powered, and a device reset with cause POWER_ON follows. -/
  | powerOn (t : Nat)
  /-- RESET_PIN (R404). RESET_N held low for at least 10 µs resets the device with cause PIN. -/
  | resetPin (t : Nat)
  /-- SUPPLY_RESET (R432). A rail below its reset level for 2 µs resets the device with cause SUPPLY. -/
  | supplyReset (t : Nat)
  /-- DEVRST_ARM (R400). A write of 0x5253 to DEVRST_ARM arms a device reset for 1 ms; any other value disarms it. -/
  | devrstArm (t : Nat) (value : Nat)
  /-- DEVRST_ARM_EXPIRY (R400). 1 ms after arming, the device-reset arm lapses. -/
  | devrstArmExpiry (t : Nat)
  /-- DEVICE_SRST (R400). SRST of page 0x000 while armed resets the whole device; unarmed, it is refused. -/
  | deviceSrst (t : Nat)
  /-- RESET_RELEASE (R406). Reset is released, straps are sampled and the boot sequence starts. -/
  | resetRelease (t : Nat) (first wipe hold : Bool)
  /-- BOOT_STAGE_DONE (R406). A boot stage such as CLOCKS, STRONGBOX, ATTIC or MEMORY completes, and the boot moves to its next stage or holds. -/
  | bootStageDone (t : Nat) (hdrBad bodyBad : BitVec 16)
  /-- BOOT_GO (R406). A write of BOOT_GO releases a boot held at stage HELD. -/
  | bootGo (t : Nat)
  /-- CELLAR_CHANNEL_TRAINED (R332). A cellar channel completes training and its write-and-read test, going into or out of service. -/
  | cellarChannelTrained (t : Nat) (channel : Nat) (trained tested : Bool)
  /-- CELLAR_INIT_DONE (R407). Zeroing of cellar granules completes, making the whole log store, spill store and journal usable. -/
  | cellarInitDone (t : Nat)
  /-- WIPE_ARM (R414). A write of 0x5749 to WIPE_ARM arms a factory wipe for 1 ms. -/
  | wipeArm (t : Nat) (value : Nat)
  /-- WIPE_ARM_EXPIRY (R414). 1 ms after arming, the factory-wipe arm lapses. -/
  | wipeArmExpiry (t : Nat)
  /-- WIPE_GO (R414). WIPE_GO while armed zeroes every attic bank header and resets the device with cause FACTORY_WIPE. -/
  | wipeGo (t : Nat)
  /-- COMMIT (R411). PG_CTRL COMMIT on any page requests a device-wide attic commit, merged with any commit already waiting. -/
  | commit (t : Nat) (page : Nat)
  /-- COMMIT_TAKEN (R411). The commit point is taken, at once or 100 ms after the previous one, and the image writing begins. -/
  | commitTaken (t : Nat)
  /-- COMMIT_WRITTEN (R411). The image MARK is written, COMMIT clears on every page and COMMIT_DONE is raised. -/
  | commitWritten (t : Nat)
  /-- SLEEP (R415). A write of 0x534C to SLEEP starts sleep entry: wake settings cross over, admission stops and listener ports are flushed. -/
  | sleep (t : Nat) (value : Nat)
  /-- SLEEP_POWER_OFF (R415). Once the flushes end, the links go down and PWR_HOLD is driven low. -/
  | sleepPowerOff (t : Nat)
  /-- WAKE_N_INPUT (R416). WAKE_N low for 2 always-on clocks is latched as a wake cause. -/
  | wakeNInput (t : Nat)
  /-- WAKE_TIMER (R416). AO_TICKS reaches WAKE_AT, which is latched as a wake cause. -/
  | wakeTimer (t : Nat)
  /-- WAKE_POWER_UP (R416). After at least 50 ms off, PWR_HOLD rises and the device boots with cause WAKE. -/
  | wakePowerUp (t : Nat)
  /-- POWER_DOWN (R419). Setting a PD bit resets the domain's blocks and powers the domain down. -/
  | powerDown (t : Nat) (mask : Nat)
  /-- POWER_DOWN_DONE (R419). A domain finishes powering down and PD_DONE is raised. -/
  | powerDownDone (t : Nat) (domain : Nat)
  /-- POWER_UP (R419). Clearing a PD bit powers the domain up, and its blocks start as after SRST. -/
  | powerUp (t : Nat) (mask : Nat)
  /-- TEST_GO (R422). GO in a test slot requests an intrusive test, which starts at once or reads DEFERRED. -/
  | testGo (t : Nat) (slot : Nat) (word : Word)
  /-- TEST_START (R422). A deferred test starts at the first clock at which its condition holds. -/
  | testStart (t : Nat) (slot : Nat)
  /-- TEST_CANCEL (R422). CANCEL ends a DEFERRED or RUNNING test as CANCELLED. -/
  | testCancel (t : Nat) (slot checked errs : Nat)
  /-- TEST_ABORT (R422). A test whose condition ceases ends ABORTED within 10 µs. -/
  | testAbort (t : Nat) (slot checked errs : Nat)
  /-- TEST_DURATION_END (R424). A test reaches DURATION_MS and ends PASS or FAIL. -/
  | testDurationEnd (t : Nat) (slot checked errs : Nat)
  /-- TEST_ACK (R428). ACK returns an ended test slot to IDLE. -/
  | testAck (t : Nat) (slot : Nat)
  /-- TF_CLR (R428). A write of TF_CLR clears HEALTH TEST_FAIL. -/
  | tfClr (t : Nat)
  /-- LARDER_SCRUB_PASS (R421). The larder and ingest-pool scrub reads and checks its words on its LSCRUB_MS cycle. -/
  | larderScrubPass (t : Nat) (errs : Nat)
  /-- HOST_INTERFACE_RESET (R374). PERST, hot reset, link-down, FLR, D3hot or HOST SRST resets only the host interface: rings are disabled, slots go IDLE and MSI-X is reset. -/
  | hostInterfaceReset (t : Nat)
  /-- MSIX_HOLDOFF_END (R384). A vector's holdoff ends, and the merged message is sent. -/
  | msixHoldoffEnd (t : Nat) (vec : Nat)
  /-- MSIX_UNMASK (R384). Unmasking a vector sends one message when its PBA bit is set. -/
  | msixUnmask (t : Nat) (vec : Nat)
  /-- POP_READ (R394). A 64-bit read of the pop register pops one event record and copies it to its recovery slot. -/
  | popRead (t : Nat)
  /-- RING_ENABLE (R386). A write of a descriptor-ring register entry enables or disables a ring; clearing EN stops fetching. -/
  | ringEnable (t : Nat) (ring : Nat) (rx : Bool) (word : Word)
  /-- TX_RING_DOORBELL (R387). A TAIL write to a transmit ring hands descriptors to the Yileo for fetching. -/
  | txRingDoorbell (t : Nat) (ring tail : Nat)
  /-- RX_RING_DOORBELL (R387). A TAIL write to a receive ring hands free descriptors to the Yileo. -/
  | rxRingDoorbell (t : Nat) (ring tail : Nat)
  /-- DESCRIPTOR_FETCH_DONE (R389). A descriptor and its item header arrive, the header is checked and the body is fetched, or the descriptor completes with an error. -/
  | descriptorFetchDone (t : Nat) (rx : Bool) (ring idx : Nat) (raw hdr : List Byte)
  /-- BUFFER_FETCH_DONE (R389). A submitted item's body fetch completes, which is ingest of a host submission. -/
  | bufferFetchDone (t : Nat) (ring idx : Nat) (data : List Byte)
  /-- FETCH_ERROR (R387). A descriptor or buffer fetch fails or gets no completion in 10 ms: the descriptor completes FETCH_ERR and the ring stops. -/
  | fetchError (t : Nat) (rx : Bool) (ring idx : Nat)
  /-- RAW_FRAME_SENT (R390). A raw transmit frame leaves or fails, and its descriptor is written with RSTATUS and an egress stamp. -/
  | rawFrameSent (t : Nat) (ring idx ago : Nat)
  /-- RA_GO (R397). GO on an IDLE remote access slot issues an RD_REQ or WR_REQ to a leaf, or completes it at once. -/
  | raGo (t : Nat) (slot : Nat) (word : Word)
  /-- RA_ACK (R397). ACK returns a DONE remote access slot to IDLE. -/
  | raAck (t : Nat) (slot : Nat)
  /-- UART_CHARACTER (R46). A UART character completes at its last stop bit and is run through the framing state machine and the length limits. -/
  | uartCharacter (t : Nat) (port : Nat) (data : Byte) (badParity badStop allLow : Bool)
  /-- ICTO_TIMEOUT (R45). ICTO bit times pass inside a candidate without a start edge, and the candidate is rewound. -/
  | ictoTimeout (t : Nat) (port : Nat)
  /-- SILENCE_TIMEOUT (R45). No start edge for SILENT_MS sets SILENT and counts an entry into silence. -/
  | silenceTimeout (t : Nat) (port : Nat)
  /-- INGEST_PORT_COMMIT (R42). A write of word 0x00 of an ingest port table entry checks and commits the entry with its held words. -/
  | ingestPortCommit (t : Nat) (port : Nat) (word : Word)
  /-- SEND_BREAK (R403). A write of SEND_BREAK holds the UART line low for the given bit times after the current character. -/
  | sendBreak (t : Nat) (port bits : Nat)
  /-- BREAK_END (R403). A sent break ends, and BREAK_END is raised. -/
  | breakEnd (t : Nat) (port : Nat)
  /-- DE_HOLD_END (R403). DE_HOLD bit times after the last stop bit, the RS-485 driver enable is deasserted. -/
  | deHoldEnd (t : Nat) (port : Nat)
  /-- DISPATCH (R40). The dispatcher hands a committed candidate to an idle anvil, which validates it, builds the header, looks up the flow and evaluates the rules. -/
  | dispatch (t : Nat) (anvil port : Nat)
  /-- GOLDEN_ITEM (R64). An idle anvil runs a golden item each GOLD_PERIOD, and on failure leaves dispatch with GOLD_FAILED set. -/
  | goldenItem (t : Nat) (anvil : Nat) (pass : Bool)
  /-- GOLD_FAILED_CLEAR (R63). Writing 1 to GOLD_FAILED returns the anvil to dispatch if ENABLE is 1. -/
  | goldFailedClear (t : Nat) (anvil : Nat)
  /-- ADMIT (R22). The active hub admits an item when the log has room: it assigns SEQ, writes larder cells, logs the record and enqueues references. -/
  | admitItem (t : Nat) (src : Nat)
  /-- ROUND_EXPIRY (R97). A concord round's window expires: it is decided if still undecided and closed. -/
  | roundExpiry (t : Nat) (group : Nat)
  /-- FORCE_OUT (R100). CONC_CTRL FORCE_OUT forces a concord member OUT at once and zeroes its runs. -/
  | forceOut (t : Nat) (group member : Nat) (both : Bool)
  /-- FORCE_IN (R100). CONC_CTRL FORCE_IN forces a concord member LIVE at once and zeroes its runs. -/
  | forceIn (t : Nat) (group member : Nat) (both : Bool)
  /-- FL_COMMIT (R86). FL_COMMIT commits one flow entry at an admission position, or refuses it. -/
  | flCommit (t : Nat) (index : Nat)
  /-- RL_COMMIT (R91). RL_COMMIT commits one rule entry, incrementing its GEN. -/
  | rlCommit (t : Nat) (index : Nat)
  /-- GC_COMMIT (R106). GC_COMMIT commits one concord group entry. -/
  | gcCommit (t : Nat) (index : Nat)
  /-- SB_COMMIT (R114). SB_COMMIT commits one subscription entry with the pending list entries in its range. -/
  | sbCommit (t : Nat) (index : Nat)
  /-- MG_COMMIT (R230). MG_COMMIT commits one ring multicast group entry and starts installing its members on the leaves. -/
  | mgCommit (t : Nat) (index : Nat)
  /-- FLOW_SHADOW_SWAP (R86). SHADOW_SWAP on page 0x090 commits every pending flow, rule, group, subscription, list and multicast entry together. -/
  | flowShadowSwap (t : Nat)
  /-- RULE_SHADOW_SWAP (R86). SHADOW_SWAP on page 0x091 commits every pending rule entry. -/
  | ruleShadowSwap (t : Nat)
  /-- CONC_SHADOW_SWAP (R106). SHADOW_SWAP on page 0x092 commits every pending concord group entry. -/
  | concShadowSwap (t : Nat)
  /-- BELL_SHADOW_SWAP (R114). SHADOW_SWAP on page 0x0A1 commits every pending subscription and listener list entry. -/
  | bellShadowSwap (t : Nat)
  /-- RING_SHADOW_SWAP (R230). SHADOW_SWAP on page 0x014 commits every pending multicast group and member list entry. -/
  | ringShadowSwap (t : Nat)
  /-- TABLE_SWAP_DONE (R86). A batch swap completes, SHADOW_SWAP clears, held writes apply and COMMIT_DONE is raised. -/
  | tableSwapDone (t : Nat) (page : Nat)
  /-- QUAR_RELEASE (R90). QUAR_CTRL RELEASE ends the quarantine of a flow or port at once. -/
  | quarRelease (t : Nat) (port both : Bool) (index : Nat)
  /-- QUAR_ENTER (R90). QUAR_CTRL ENTER starts a quarantine with no end on a flow or port. -/
  | quarEnter (t : Nat) (port both : Bool) (index : Nat)
  /-- RELEASE (R124). A listener port's shaper grants a release and the bellows choose, resolve and hand over the next eligible reference. -/
  | release (t : Nat) (port : Nat) (more : List Nat)
  /-- ITEM_TRANSMITTED (R127). An item finishes on the listener's line, ending wire pacing for the next grant. -/
  | itemTransmitted (t : Nat) (port stamp : Nat)
  /-- ALIGNED_RELEASE_TIME (R131). An ALIGNED reference reaches its instant less lead and becomes due for release. -/
  | alignedReleaseTime (t : Nat)
  /-- NEWEST_HOLD_END (R132). A NEWEST hold for a key at a listener ends, and the held reference becomes eligible. -/
  | newestHoldEnd (t : Nat) (port key : Nat)
  /-- DEADLINE_EXPIRY (R134). An item reaches its DEADLINE expiry, and its queued references are resolved REFUSED_DEADLINE. -/
  | deadlineExpiry (t : Nat) (handle : Nat)
  /-- CLASS_BOUND_EXPIRY (R136). A class 0 to 3 reference reaches 1 ms internal age and is resolved by its class policy. -/
  | classBoundExpiry (t : Nat) (queue handle : Nat)
  /-- STATUS_BOUNDARY (R142). H reaches a status boundary, and ledger entries with counts are queued as status sentences. -/
  | statusBoundary (t : Nat) (port : Nat)
  /-- LISTENER_PORT_COMMIT (R126). A write of word 0x00 of a listener port table entry checks and commits its shaping and insertion settings. -/
  | listenerPortCommit (t : Nat) (port : Nat) (word : Word)
  /-- QFLUSH (R139). QFLUSH, or TX_EN going to 0, resolves every queued reference of the port REFUSED_FULL after the item in release. -/
  | qflush (t : Nat) (port : Nat)
  /-- QFLUSH_COMPLETE (R139). The item in release finishes, the flush completes and FLUSHING clears. -/
  | qflushComplete (t : Nat) (port : Nat)
  /-- QLIM_WRITE (R117). A write of QLIM sets the queue limit from the next reference, and backpressure is judged afresh. -/
  | qlimWrite (t : Nat) (queue : Nat) (word : Word)
  /-- SPILL_WRITE_DONE (R120). A spill write to the cellar completes, and the item's larder cells are freed. -/
  | spillWriteDone (t : Nat) (handle : Nat)
  /-- SPILL_FETCH_DONE (R121). A spill fetch completes, the item returns to larder cells and the spill copy is freed. -/
  | spillFetchDone (t : Nat) (handle err addr : Nat)
  /-- JOURNAL_WRITE_DONE (R338). The cellar acknowledges a journal record's last word, and the item's cells may then be freed. -/
  | journalWriteDone (t : Nat) (handle : Nat)
  /-- JOURNAL_BLOCK_CLOSE (R338). A journal block closes at CLOSE_MS or when full, and is sealed and its header written. -/
  | journalBlockClose (t : Nat)
  /-- JOURNAL_FREEZE (R339). FREEZE or an enabled trigger takes a freeze window or extends a collecting one. -/
  | journalFreeze (t : Nat)
  /-- FREEZE_POST_END (R339). POST_S after the trigger, the window becomes FROZEN and FROZEN is raised. -/
  | freezePostEnd (t : Nat) (window : Nat)
  /-- UNFREEZE (R339). UNFREEZE returns a frozen window to free. -/
  | unfreeze (t : Nat) (window : Nat)
  /-- MS_UPDATE (R155). At each millisecond of H, domain offsets advance, the domain is selected, steering is set and any latched step is applied. -/
  | msUpdate (t : Nat)
  /-- PPS_INPUT_EDGE (R165). A PPS input edge is captured, filtered and accepted, giving a domain sample. -/
  | ppsInputEdge (t : Nat) (input : Nat) (rising short : Bool)
  /-- PPS_MISS (R165). 1.5 s pass without an accepted PPS edge, and PPS_MISS is counted. -/
  | ppsMiss (t : Nat) (input : Nat)
  /-- SMP_GO (R159). A HOST sample is applied to a domain, or discarded as stale. -/
  | smpGo (t : Nat) (domain : Nat)
  /-- DOMAIN_MISS_TIMEOUT (R157). MISS_MS without a sample moves a domain to UNLOCKED or HOLDOVER. -/
  | domainMissTimeout (t : Nat) (domain : Nat)
  /-- DRESET (R157). DRESET puts a domain in UNLOCKED. -/
  | dreset (t : Nat) (domain : Nat)
  /-- SET_GO (R160). SET_GO sets H to SET_S and SET_NS, makes H_VALID 1 and raises SET. -/
  | setGo (t : Nat)
  /-- STEP_GO (R161). STEP_GO latches a step of H for the next millisecond update. -/
  | stepGo (t : Nat)
  /-- TIME_CAP (R184). CAP on the TIME page latches H, SEL_DOM and both offsets in one cycle. -/
  | timeCap (t : Nat)
  /-- LEAP (R167). H reaches LEAP_S, LEAP_OFS is copied to UTC_OFS, LEAP_V clears and LEAP is raised. -/
  | leap (t : Nat)
  /-- PPS_OUTPUT_PULSE (R166). A PPS output source reaches a multiple of PERIOD_NS and a gated pulse is driven. -/
  | ppsOutputPulse (t : Nat) (output target : Nat)
  /-- TIME_SYNC_SEND (R178). Every SYNC_US the active hub sends a TIME_SYNC on each ring port. -/
  | timeSyncSend (t : Nat)
  /-- AXIS_STATE_SEND (R179). Every TX_US the active hub sends an AXIS_STATE for an axis on each ring port. -/
  | axisStateSend (t : Nat) (axis : Nat)
  /-- ENCODER_COUNT (R168). An accepted encoder edge changes an axis count, or counts QERR. -/
  | encoderCount (t : Nat) (encoder : Nat) (a b : Bool)
  /-- ENCODER_INDEX (R170). An index homes the axis or is checked against its reference, with optional correction. -/
  | encoderIndex (t : Nat) (encoder : Nat)
  /-- AXIS_STILL (R172). STILL_MS without a count stops an axis, with velocity 0 and STOPPED and HOLD set. -/
  | axisStill (t : Nat) (axis : Nat)
  /-- AXIS_EDGES (R173). An AXIS_EDGES message from a leaf feeds a remote axis model, or is counted lost. -/
  | axisEdges (t : Nat)
  /-- AXIS_CONFIG_COMMIT (R186). A write of axis word +0x00 commits the axis settings and restarts its model. -/
  | axisConfigCommit (t : Nat) (axis : Nat) (word : Word)
  /-- AXIS_CAP (R186). CAP on the AXIS page latches every count, position and velocity at one H. -/
  | axisCap (t : Nat)
  /-- SLOT_WRITE (R177). A write of word 0x00 of an event slot arms or disarms it with its held target and period. -/
  | slotWrite (t : Nat) (slot : Nat) (word : Word) (race : Bool)
  /-- SLOT_FIRE (R174). An armed slot's axis reaches its target: event lines, host events and the slot status are updated, and the target advances. -/
  | slotFire (t : Nat) (slot : Nat) (jump : Bool)
  /-- SIGNAL_DETECT (R193). A ring, Ngato or Ethernet lane detects signal and starts training. -/
  | signalDetect (t : Nat) (lane : Nat)
  /-- BLOCK_LOCK_TIMEOUT (R193). 2 ms without block lock changes the rate and repeats training. -/
  | blockLockTimeout (t : Nat) (port : Nat)
  /-- TRAIN_SEND (R193). TRAIN frames are sent every 10 µs during training. -/
  | trainSend (t : Nat) (port bad : Nat)
  /-- TRAIN_FRAME (R193). A received TRAIN frame is checked, with version agreement, rate fallback or refusal. -/
  | trainFrame (t : Nat) (port : Nat) (crcGood : Bool) (major low minor build : Nat) (credits : List Nat)
  /-- HELLO_SEND (R208). HELLO frames are sent every 1 ms on each UP hop. -/
  | helloSend (t : Nat) (port : Nat)
  /-- HELLO_FRAME (R208). A received HELLO frame is checked for ring, side and ID, and brings the hop to LINK_UP or REFUSED. -/
  | helloFrame (t : Nat) (port node : Nat) (hub : Bool) (ring side rtt : Nat)
  /-- LOSS_OF_LOCK (R198). Loss of lock or signal for 1 µs declares LINK_DOWN on a port or lane, which then retrains. -/
  | lossOfLock (t : Nat) (lane : Nat) (signal : Bool)
  /-- ADMIN_DOWN (R198). A write of ADMIN_DOWN holds the ring port down. -/
  | adminDown (t : Nat) (port : Nat) (on : Bool)
  /-- RETRAIN (R198). RETRAIN declares LINK_DOWN and then trains the port again. -/
  | retrain (t : Nat) (port : Nat)
  /-- DATA_FRAME (R197). A received DATA frame is accepted in order and acknowledged, answered with a NAK, or dropped as a duplicate. -/
  | dataFrame (t : Nat) (port ft vc lseq fate : Nat) (body : List Byte)
  /-- ACK_FRAME (R196). An ACK acknowledges every frame up to its LSEQ and frees replay buffer space. -/
  | ackFrame (t : Nat) (port lseq : Nat)
  /-- NAK_FRAME (R196). A NAK acknowledges up to its LSEQ and resends every unacknowledged frame after it. -/
  | nakFrame (t : Nat) (port lseq : Nat)
  /-- REPLAY_TIMEOUT (R198). REPLAY_US without acknowledgement progress resends from the oldest unacknowledged frame. -/
  | replayTimeout (t : Nat) (port : Nat)
  /-- CREDIT_FRAME (R199). A CREDIT frame updates the peer's cumulative credits per channel. -/
  | creditFrame (t : Nat) (port cpl req item : Nat)
  /-- CREDIT_SEND (R199). Freed credits are returned in a CREDIT frame after 8 are freed, or every 10 µs. -/
  | creditSend (t : Nat) (port : Nat)
  /-- PROBE_SEND (R206). A PROBE is sent every 1 ms on each UP port. -/
  | probeSend (t : Nat) (port : Nat)
  /-- PROBE_FRAME (R206). A PROBE is answered, or its reply updates HOP_NS. -/
  | probeFrame (t : Nat) (port number : Nat) (reply : Bool) (t1 t2 t3 : Nat)
  /-- PACKET_RECEIVE (R204). A ring packet decrements HOPS, is copied if this node is a destination, and is stripped or forwarded. -/
  | packetReceive (t : Nat) (port vc resid : Nat) (foreign : Bool)
  /-- ITEM_IN (R218). An ITEM_IN copy is kept and passed to its port FIFO, or dropped as a duplicate, old or unmapped copy. -/
  | itemIn (t : Nat)
  /-- ISEQ_TIMEOUT (R218). An ISEQ still unseen 100 µs after a higher one is counted ISEQ_LOST. -/
  | iseqTimeout (t : Nat)
  /-- LINK_DOWN_SIG (R209). A LINK_DOWN SIG taken by a hub triggers a DISCOVER pass. -/
  | linkDownSig (t : Nat)
  /-- LINK_UP_SIG (R209). A LINK_UP SIG taken by a hub triggers a DISCOVER pass. -/
  | linkUpSig (t : Nat)
  /-- LEAF_RESET (R236). A leaf reset learnt from a SIG or a new INCARN completes its tags, opens a new ISEQ window and rewrites its settings. -/
  | leafReset (t : Nat)
  /-- INTERRUPT_SIG (R228). An INTERRUPT SIG raises LEAF_INT and records its node and cause. -/
  | interruptSig (t : Nat)
  /-- LINE_COUNTS_SIG (R216). A LINE_COUNTS SIG adds the leaf's increments to the port's ingest counters. -/
  | lineCountsSig (t : Nat)
  /-- SIG_HOLD_TIMEOUT (R228). A leaf SIG waiting for lower ISEQs is acted on 100 µs after it arrived. -/
  | sigHoldTimeout (t : Nat)
  /-- HUB_BEAT_SEND (R232). Every 250 µs the hub sends a HUB_BEAT in every ring direction. -/
  | hubBeatSend (t : Nat)
  /-- HUB_BEAT_RX (R245). A HUB_BEAT from the twin marks its ring path seen and may seal a lower-token active hub. -/
  | hubBeatRx (t : Nat)
  /-- BEAT_ACK_RX (R257). A BEAT_ACK from a leaf counts toward K and may reveal a higher token. -/
  | beatAckRx (t : Nat)
  /-- DISCOVER_SEND (R209). A DISCOVER pass is sent on each ring every TOPO_MS or after a link change. -/
  | discoverSend (t : Nat)
  /-- DISCOVER_RETURN (R209). A returned DISCOVER pass rebuilds the node table, admissions, delays and routes. -/
  | discoverReturn (t : Nat)
  /-- DISCOVER_TIMEOUT (R209). A pass not returned within 1 ms is sent again and counted in TOPO_LOST. -/
  | discoverTimeout (t : Nat)
  /-- TOPO_GO (R239). TOPO_GO sends a DISCOVER pass now. -/
  | topoGo (t : Nat)
  /-- RD_REQ_RX (R226). An RD_REQ from an admitted leaf is served from BAR0 and answered with a CPL. -/
  | rdReqRx (t : Nat)
  /-- WR_REQ_RX (R226). A WR_REQ from a leaf is answered ERROR and counted. -/
  | wrReqRx (t : Nat)
  /-- CPL_RX (R224). A completion frees its tag and completes its originator, or is dropped as stale. -/
  | cplRx (t : Nat)
  /-- CPL_TIMEOUT (R224). A request without completion after CPL_TO_US completes with TIMEOUT. -/
  | cplTimeout (t : Nat)
  /-- PORT_MAP_WRITE (R215). A write of word 0x00 of a port map entry is checked and maps a remote port to a leaf. -/
  | portMapWrite (t : Nat) (port : Nat) (word : Word)
  /-- MBANK_SWITCH (R231). Once every member write has completed, MBANK inverts, the old bank is cleared and SWITCHING ends. -/
  | mbankSwitch (t : Nat) (group : Nat)
  /-- BEAT_SEND (R245). Every 250 µs the hub sends a BEAT on both Ngato lanes. -/
  | beatSend (t : Nat)
  /-- BEAT_RX (R246). A BEAT from the twin marks the twin link path seen and updates the peer's role, health and JOIN. -/
  | beatRx (t : Nat) (role tstate : Nat) (join : Bool) (epoch health lpos : Nat)
  /-- PATH_TIMEOUT (R245). No beat for PATH_TO_US loses a path, and losing all three invokes the quorum rule. -/
  | pathTimeout (t : Nat) (path : Nat)
  /-- ROLE_DECISION (R247). After 20 ms listening, and every 1 ms after, a STARTING hub takes STANDBY, ACTIVE or stays. -/
  | roleDecision (t : Nat)
  /-- QUORUM_CHECK (R257). With all paths lost, the quorum test runs every 250 µs, keeping the role or sealing. -/
  | quorumCheck (t : Nat)
  /-- LOG_FRAME (R249). The standby applies the records of a LOG frame in LPOS order. -/
  | logFrame (t : Nat) (lane lseq : Nat) (good : Bool) (firstLpos : Nat) (recs : List LogRec)
  /-- LACK_FRAME (R248). A LACK advances LPOS_ACK and opens the release gate for covered items. -/
  | lackFrame (t : Nat) (lpos : Nat)
  /-- LOG_TIMEOUT (R250). LPOS_ACK stalls for LOG_TO_US, and the active hub leaves step and releases without the gate. -/
  | logTimeout (t : Nat)
  /-- FETCH_TIMEOUT (R251). The standby lacks an ADMIT's ITEM_IN copy 100 µs after the record and sends a FETCH. -/
  | fetchTimeout (t : Nat)
  /-- FETCH_FRAME (R251). The active hub answers a FETCH with the item in a BULK frame. -/
  | fetchFrame (t : Nat) (leaf iseq lpos : Nat)
  /-- BULK_FRAME (R261). A BULK frame delivers resync state, a fetched item or QCOPY records to the standby. -/
  | bulkFrame (t : Nat) (lane lseq : Nat) (good : Bool) (parts : List BulkPart)
  /-- DRAIN_TIMEOUT (R261). DRAIN_MS passes in resync, and the remaining pre-P0 references are sent as QCOPY. -/
  | drainTimeout (t : Nat)
  /-- LOCAL_HOLD_EXPIRY (R252). A standby's held local candidate unmatched for 2 ms is discarded and counted. -/
  | localHoldExpiry (t : Nat) (port : Nat)
  /-- TIME_XFER_SEND (R262). Each hub sends a TIME_XFER every 1 ms. -/
  | timeXferSend (t : Nat)
  /-- TIME_XFER (R262). A TIME_XFER exchange gives the standby its offset from the active hub's H for steering. -/
  | timeXfer (t : Nat) (reply : Bool) (t1 t2 t3 dom : Nat)
  /-- HEALTH_FAULT (R254). A RELQ_MASK health bit sets on an active hub in step: it relinquishes, or raises RELQ_BLOCKED. -/
  | healthFault (t : Nat) (bit : Nat) (on : Bool)
  /-- RELINQUISH (R254). A RELINQUISH frame or ROLE 0 beat from the active hub starts the standby's takeover. -/
  | relinquish (t : Nat) (lpos : Nat)
  /-- TAKEOVER (R255). The standby stops applying the log, takes its token, resumes timers and starts releasing. -/
  | takeover (t : Nat)
  /-- BUS_HOLD_END (R259). The shared-bus hold of a newly active hub ends, and its CAN, UART and tongs drivers take up their duties. -/
  | busHoldEnd (t : Nat)
  /-- SEAL (R264). SEAL seals the hub now, or relinquishes if it is active in step. -/
  | seal (t : Nat) (others : Bool)
  /-- REJOIN (R260). REJOIN makes a sealed hub STANDBY and starts resync. -/
  | rejoin (t : Nat) (others : Bool)
  /-- FORCE_ACTIVE (R260). FORCE_ACTIVE makes a STARTING or SEALED hub active at once. -/
  | forceActive (t : Nat) (others : Bool)
  /-- HANDOVER (R263). HANDOVER on an active hub in step stops releasing and waits for the log to be acknowledged. -/
  | handover (t : Nat) (others : Bool)
  /-- HANDOVER_DRAINED (R263). LPOS_ACK covers the last record; MARK HANDOVER is sent and the hub becomes STANDBY. -/
  | handoverDrained (t : Nat)
  /-- CAN_FRAME_RX (R269). A CAN frame is received and becomes a candidate or feeds reassembly and address claiming, or is rewound on error. -/
  | canFrameRx (t : Nat) (controller ago cause : Nat) (record : List Byte)
  /-- CAN_FRAME_TX_DONE (R271). A CAN frame completes on the bus, with a transmit stamp and direct-queue result. -/
  | canFrameTxDone (t : Nat) (controller : Nat)
  /-- CAN_ATTEMPT_LOST (R273). A CAN attempt loses arbitration or meets an error, and is retried, cancelled or aborted. -/
  | canAttemptLost (t : Nat) (controller cause : Nat)
  /-- CAN_SUBMIT (R272). SUBMIT offers an IDLE direct-queue entry for transmission. -/
  | canSubmit (t : Nat) (controller entry : Nat) (word : Word)
  /-- CAN_CANCEL (R273). CANCEL on a PENDING direct entry cancels it, or reports TOO_LATE. -/
  | canCancel (t : Nat) (controller entry : Nat)
  /-- CAN_ACK (R272). ACK returns a DONE direct entry to IDLE. -/
  | canAck (t : Nat) (controller entry : Nat)
  /-- CAN_CONFIG_COMMIT (R267). A write of word 0x040 commits mode and bit timing after the frame in progress. -/
  | canConfigCommit (t : Nat) (controller : Nat) (word : Word)
  /-- CAN_INTEGRATION (R266). 11 recessive bits after activation, the end of a hold, a setting change or wake let the controller take its programmed mode. -/
  | canIntegration (t : Nat) (controller : Nat)
  /-- CAN_RECOVER (R268). RECOVER leaves bus-off now. -/
  | canRecover (t : Nat) (controller : Nat)
  /-- BUS_OFF_RECOVERY (R268). With BO_AUTO 1, 128 occurrences of 11 recessive bits end bus-off. -/
  | busOffRecovery (t : Nat) (controller : Nat)
  /-- VN_ENABLE (R280). Setting VN_EN starts an address claim, and clearing it stops use of the address. -/
  | vnEnable (t : Nat) (controller node : Nat) (word : Word)
  /-- ADDR_CLAIM_TIMEOUT (R280). 250 ms without losing a claim makes the virtual node CLAIMED. -/
  | addrClaimTimeout (t : Nat) (controller node : Nat)
  /-- FP_TIMEOUT (R277). FP_TO_MS without a frame discards a fast-packet session. -/
  | fpTimeout (t : Nat)
  /-- TP_TIMEOUT (R277). An ISO 11783-3 transport timeout discards a session. -/
  | tpTimeout (t : Nat)
  /-- BAM_GAP (R279). BAM_GAP_MS passes, and the next BAM packet is sent. -/
  | bamGap (t : Nat) (controller : Nat)
  /-- CAN_SLEEP_ENTRY (R282). MODE 6 takes effect after the frame in progress, and CANn_STB is asserted. -/
  | canSleepEntry (t : Nat) (controller : Nat)
  /-- CAN_WAKE (R282). A dominant phase or wake frame wakes a sleeping controller and writes MODE 1. -/
  | canWake (t : Nat) (controller low ago : Nat) (record : List Byte)
  /-- ETH_FRAME_RX (R285). A received Ethernet frame is checked and sent to the host raw path, to datagram ingest or dropped. -/
  | ethFrameRx (t : Nat) (port ago : Nat) (fcsGood : Bool) (frame : List Byte)
  /-- ETH_LINK_UP (R284). An Ethernet port's link comes up. -/
  | ethLinkUp (t : Nat) (port speed : Nat)
  /-- ETH_LINK_DOWN (R284). An Ethernet port's link goes down and it grants no release. -/
  | ethLinkDown (t : Nat) (port : Nat)
  /-- GROUP_JOIN (R287). A change of RX_GRP joins or leaves groups and sends IGMP reports. -/
  | groupJoin (t : Nat) (port : Nat) (groups : Word)
  /-- GO (R303). The tongs GO instruction jumps to TARGET when its condition holds. -/
  | tongGo (t : Nat) (engine : Nat) (lines : BitVec 64)
  /-- AWAIT (R310). The tongs AWAIT instruction begins waiting on a line, slot, flag or timer. -/
  | tongAwait (t : Nat) (engine : Nat) (lines : BitVec 64)
  /-- AWAIT_DONE (R310). An AWAIT's condition holds, and it completes, with a stamp mark or fine timing. -/
  | tongAwaitDone (t : Nat) (engine : Nat) (lines : BitVec 64) (ago : Nat)
  /-- PINS (R306). The tongs PINS instruction writes window line levels or directions, with an optional stamp mark. -/
  | tongPins (t : Nat) (engine : Nat)
  /-- LOAD (R302). The tongs LOAD instruction loads an immediate into a working register. -/
  | tongLoad (t : Nat) (engine : Nat)
  /-- ALU (R302). The tongs ALU instruction operates on a working register or ST. -/
  | tongAlu (t : Nat) (engine : Nat)
  /-- TIMER (R303). The tongs TIMER instruction loads TMR. -/
  | tongTimer (t : Nat) (engine : Nat)
  /-- SHIFT (R304). The tongs SHIFT instruction moves bits between lines, SR and registers. -/
  | tongShift (t : Nat) (engine : Nat) (lines : BitVec 64)
  /-- FETCH (R304). The tongs FETCH instruction takes the next transmit word into a register or SR. -/
  | tongFetch (t : Nat) (engine : Nat)
  /-- STORE (R308). The tongs STORE instruction writes a word to the receive FIFO, opening or committing a candidate. -/
  | tongStore (t : Nat) (engine : Nat)
  /-- STALL_END (R300). A blocking FETCH or STORE stalled on its FIFO completes when data or room arrives. -/
  | stallEnd (t : Nat) (engine : Nat)
  /-- LUT (R302). The tongs LUT instruction looks up the table and writes ST, lines or a register. -/
  | tongLut (t : Nat) (engine : Nat) (lines : BitVec 64)
  /-- FLAG (R312). The tongs FLAG instruction sets or clears a shared flag or raises HOST. -/
  | tongFlag (t : Nat) (engine : Nat)
  /-- ENGINE_ENABLE (R313). Setting ENABLE starts a tongs engine at ENTRY with cleared state. -/
  | engineEnable (t : Nat) (engine : Nat)
  /-- ENGINE_DISABLE (R313). Clearing ENABLE stops the engine, rewinding its candidate and discarding SR and transmit words. -/
  | engineDisable (t : Nat) (engine : Nat)
  /-- GRP_EN_SET (R314). GRP_EN_SET enables every masked engine in one clock. -/
  | grpEnSet (t : Nat) (mask : BitVec 16)
  /-- GRP_EN_CLR (R314). GRP_EN_CLR disables every masked engine in one clock. -/
  | grpEnClr (t : Nat) (mask : BitVec 16)
  /-- GRP_CLKRST (R314). GRP_CLKRST restarts the dividers of every masked enabled engine in one clock. -/
  | grpClkrst (t : Nat) (mask : BitVec 16)
  /-- TONG_SHADOW_SWAP (R317). SHADOW_SWAP on page 0x070 switches LIVE_BANK, and waiting engines move at their boundaries. -/
  | tongShadowSwap (t : Nat)
  /-- ENGINE_BANK_MOVE (R317). An engine reaches a boundary and moves to the new bank at its PROG_NEXT entry. -/
  | engineBankMove (t : Nat) (engine : Nat)
  /-- SWAP_TIMEOUT (R317). SWAP_TO_US passes with AUTO_FORCE 1, and engines still waiting are forced. -/
  | swapTimeout (t : Nat)
  /-- FORCE (R318). FORCE forces every engine still waiting to move, aborting shifts and rewinding candidates. -/
  | tongForce (t : Nat)
  /-- RX_FLUSH (R327). RX_FLUSH immediately discards a receive FIFO's open and unheld committed candidates. -/
  | rxFlush (t : Nat) (port : Nat)
  /-- TX_FLUSH (R327). TX_FLUSH immediately discards every transmit FIFO word and cuts the item on the line. -/
  | txFlush (t : Nat) (port sent stamp : Nat)
  /-- CHANNEL_OOS (R332). A write of OOS0 or OOS1 takes a cellar channel out of service until reset. -/
  | channelOos (t : Nat) (channel : Nat)
  /-- UE_LIMIT_EXCEEDED (R332). More than UE_LIMIT uncorrectable words in one second take a cellar channel out of service. -/
  | ueLimitExceeded (t : Nat) (channel : Nat)
  /-- CELLAR_SCRUB (R335). The scrubber corrects words and retires granules on its SCRUB_H cycle. -/
  | cellarScrub (t : Nat) (addr ce ceAddr ue ueAddr : Nat) (last : Bool)
  /-- BAR2_WRITE (R341). A host write through BAR2 is stored in the host region, or refused and counted. -/
  | bar2Write (t : Nat) (offset : Nat) (data : List Byte)
  /-- LOAD_CLEAR (R360). The LOAD_CLEAR command loads a clear key from STAGE into a slot. -/
  | loadClear (t : Nat)
  /-- DERIVE (R357). The DERIVE command derives a key by HKDF into a slot from a DERIVE parent. -/
  | derive (t : Nat)
  /-- REVOKE (R352). The REVOKE command revokes a slot and orphans its descendants. -/
  | revoke (t : Nat)
  /-- ERASE (R352). The ERASE command returns a slot to EMPTY. -/
  | erase (t : Nat)
  /-- NEW_ROOT (R349). The NEW_ROOT command generates the store root in slot 0. -/
  | newRoot (t : Nat)
  /-- APPLY_UPDATE (R359). The APPLY_UPDATE command checks an authenticated update message and applies its commands in one MRAM commit. -/
  | applyUpdate (t : Nat)
  /-- ATTEST (R361). The ATTEST command signs a statement with the identity key over the host's nonce. -/
  | attest (t : Nat)
  /-- VERIFY_IMAGE (R362). The VERIFY_IMAGE command verifies a configuration image in the cellar host region. -/
  | verifyImage (t : Nat) (advance : Bool)
  /-- COMMAND_DONE (R354). A strongbox command ends, releasing its output with OP_STATUS and raising OP_DONE. -/
  | commandDone (t : Nat)
  /-- TAMPER_ALARM (R369). An enabled tamper alarm revokes the root, aborts a command, zeroes buffers and raises TAMPER. -/
  | tamperAlarm (t : Nat) (source : Nat)
  /-- TAMP_ARM (R368). TAMP_ARM sets TAMP_EN bits. -/
  | tampArm (t : Nat) (mask : Nat)
  /-- TAMP_CLR (R368). TAMP_CLR clears TAMP_LATCH in SERVICE while CLEAR_LOCK is 0. -/
  | tampClr (t : Nat)
  /-- CLEAR_LOCK (R360). Setting CLEAR_LOCK forbids clear key loads and NEW_ROOT until reset. -/
  | clearLock (t : Nat)
  /-- SNAP (R65). SNAP copies a page's counters to their snapshots. -/
  | snap (t : Nat) (page : Nat) (clear : Bool)
  /-- CLEAR (R65). CLEAR clears a page's counters, after SNAP if both are written. -/
  | clear (t : Nat) (page : Nat)
  /-- PSNAP (R63). PSNAP copies one port's or every port's ingest counters to their snapshots. -/
  | psnap (t : Nat) (port : Nat) (all clear : Bool)
  /-- PCLEAR (R63). PCLEAR clears one port's or every port's ingest counters. -/
  | pclear (t : Nat) (port : Nat) (all : Bool)
  /-- FSNAP (R90). FSNAP snapshots one flow's or every flow's counters on the FLOW or RULE page. -/
  | fsnap (t : Nat) (rule : Bool) (index : Nat) (all clear : Bool)
  /-- FCLEAR (R90). FCLEAR clears one flow's or every flow's counters. -/
  | fclear (t : Nat) (rule : Bool) (index : Nat) (all : Bool)
  /-- GSNAP (R111). GSNAP snapshots one group's or every group's concord counters. -/
  | gsnap (t : Nat) (group : Nat) (all clear : Bool)
  /-- GCLEAR (R111). GCLEAR clears one group's or every group's concord counters. -/
  | gclear (t : Nat) (group : Nat) (all : Bool)
  /-- QSNAP (R152). QSNAP snapshots a queue's counters. -/
  | qsnap (t : Nat) (queue : Nat) (all clear : Bool)
  /-- QCLEAR (R152). QCLEAR clears a queue's counters and DEPTH_HW. -/
  | qclear (t : Nat) (queue : Nat) (all : Bool)
  /-- DISPOSITION_FSNAP (R152). FSNAP on the BELL page snapshots a flow's disposition counters. -/
  | dispositionFsnap (t : Nat) (flow : Nat) (all clear : Bool)
  /-- DISPOSITION_FCLEAR (R152). FCLEAR on the BELL page clears a flow's disposition counters. -/
  | dispositionFclear (t : Nat) (flow : Nat) (all : Bool)
  /-- FIFO_FSNAP (R329). FSNAP in the FIFO window snapshots a port's FIFO counters. -/
  | fifoFsnap (t : Nat) (port : Nat) (clear : Bool)
  /-- FIFO_FCLEAR (R329). FCLEAR in the FIFO window clears a port's FIFO counters. -/
  | fifoFclear (t : Nat) (port : Nat)
  /-- FRAME_FSNAP (R293). FSNAP on CAN page register 0x0A4 snapshots a port's frame counters. -/
  | frameFsnap (t : Nat) (port : Nat) (all clear : Bool)
  /-- FRAME_FCLEAR (R293). FCLEAR on CAN page register 0x0A4 clears a port's frame counters. -/
  | frameFclear (t : Nat) (port : Nat) (all : Bool)
  /-- UART_START_EDGE (R45). The UART receiver declares a start edge, capturing the stamp time, ending any silence and stopping the inter-character timeout. -/
  | uartStartEdge (t : Nat) (port : Nat)
  /-- LINE_GOES_HIGH (R45). After a break, the UART receive line goes high again, BREAK_NOW clears and the receiver resumes hunting for start edges. -/
  | lineGoesHigh (t : Nat) (port : Nat)
  /-- BLOCK_LOCK (R193). A ring or Ngato receiver reaches 64 consecutive valid sync headers, gains block lock and the hop begins sending TRAIN frames. -/
  | blockLock (t : Nat) (port : Nat)
  /-- CHECKER_LOCK (R424). A link pattern checker locks after 64 consecutive correct bits and starts counting BITS and ERRS. -/
  | checkerLock (t : Nat) (slot : Nat)
  /-- CHECKER_LOCK_LOST (R424). A locked pattern checker sees 32 of 64 consecutive bits wrong, loses lock and the test ends FAIL. -/
  | checkerLockLost (t : Nat) (slot checked errs : Nat)
  /-- SUPPLY_WARNING (R429). A supply rail crosses its warning level, changing SUP_WARNB, HEALTH SUPPLY, and raising SUP_WARN and counting SUP_WARNS. -/
  | supplyWarning (t : Nat) (rail : Nat) (low : Bool)
  /-- BANK_OUT_OF_RANGE (R435). An I/O bank's VDDIO leaves the recommended range of its detected mode, so its outputs go to high impedance and SUP_OK bit 5 clears until reset. -/
  | bankOutOfRange (t : Nat) (bank : Nat)
  /-- CAN_WAKE_IN_SLEEP (R283). During device sleep, CANn_RXD low for 2 always-on clocks is latched by the always-on domain as a CAN wake cause. -/
  | canWakeInSleep (t : Nat) (controller : Nat)
  /-- JTAG_INSTRUCTION (R441). A JTAG instruction such as EXTEST, CLAMP or HIGHZ is loaded, taking the balls from the blocks until another instruction is loaded. -/
  | jtagInstruction (t : Nat) (instr : Nat)
  /-- DELTA_AT_H (R249). H reaches the instant carried by an event-slot DELTA, the write H plus 50 µs, and the slot write takes effect on both hubs. -/
  | deltaAtH (t : Nat)
  /-- ATTEMPT_START (R273). A CAN controller starts the SOF bit of a transmit attempt, committing the frame: ATTEMPTS counts, and a later cancel reports TOO_LATE. -/
  | attemptStart (t : Nat) (controller : Nat)
  /-- ALIGNED_FETCH (R121). An ALIGNED reference to a spilled item comes within 100 µs of its release time, and the item is fetched back from the cellar. -/
  | alignedFetch (t : Nat) (port : Nat)
  deriving DecidableEq, Repr

end Sys2Proof
end

