-- ==== Sys2Proof/Decode.lean ====
section
/-! DEFINITION. Decode.lean: the commands that words spell. spec/opcode_table.json gives no row any bits: commands
reach this block as host accesses and events, never as words of a program. -/

namespace Sys2Proof

/-- The command that a word spells by the table's bits: none, as the table gives no row bits. -/
def decodeTableWord (_nbits _w : Nat) : Option Instr := none

end Sys2Proof
end

