-- ==== Sys2Proof/Config.lean ====
section
/-! DEFINITION. Config.lean: the free values. Each constant is opaque: nothing can evaluate it, so a claim about it
holds whatever the hardware's value is. The assumption log says for each where the spec leaves the value open. -/

namespace Sys2Proof.Config

/-- Free value number `n` of a run: the state's counter picks the next one. -/
opaque freeValue (n : Nat) : Nat

/-- Bus Master Enable and the function's power state, as the host's configuration writes leave them at an instant of
the reference clock: true while the function may write to host memory (R373). -/
opaque busMaster (clk : Nat) : Bool

/-- MSI-X enabled in the configuration header at an instant (R371). -/
opaque msixEnabled (clk : Nat) : Bool

/-- Whether an inexact quotient is rounded up where the spec states no rounding. -/
opaque roundsUp (num den : Nat) : Bool

/-- Distance of R81 in mm for differences of latitude and longitude and the sum of the latitudes, all in units of
10^-4 minutes, when the longitudes differ: the cosine's precision is the implementation's. -/
opaque posDist (dlat dlon latSum : Int) : Nat

/-- Duration of a CAN frame of a given record on its line, in 1/65 536 ns, for the W of R60: stuff bits and the bit
rate of a remote bus are not the hub's to know. -/
opaque canDuration (record : List Byte) : Nat

/-- Nominal bit time of the CAN bus of a remote listener port, in 1/65 536 ns: its bit timing is the leaf's own. -/
opaque remoteCanBit (port : Nat) : Nat

/-- Minor version of the ring protocol that this hub speaks, and its incarnation number of R208 at a BOOT count. -/
opaque ringMinor : Nat
/-- Residence time of this hub as its discovery record reports it, in 1/16 ns. -/
opaque hubResid : Nat
opaque incarn (boot : Nat) : Nat

/-- The cause byte of a LINK_DOWN SIG: R227 gives it no coding. Numbers 0 to 4: replay, loss of lock or signal,
ADMIN_DOWN, RETRAIN, SRST. -/
opaque linkCause (why : Nat) : Nat

/-- The 16 bytes of a TRAIN and of a HELLO body: R193 and R208 name their fields and give them no places. -/
opaque trainBody (fields : List Nat) : List Byte
opaque helloBody (fields : List Nat) : List Byte

/-- The body of a BULK frame with a resync snapshot taken at an instant, and with a fetched item: no layout is given
(R244). -/
opaque bulkBody (clk : Nat) : List Byte
opaque bulkItem (item : List Byte) : List Byte

/-! ### Values fused or generated, and the standard algorithms the strongbox and MACsec name

Their results are fixed by other standards, not by the spec. -/

/-- DEV_UID, the device KEK, the transport key pair and AUTH_PKH0, as fused (R348). -/
opaque devUid : List Byte
opaque transPriv : List Byte
opaque transPub : List Byte
opaque authPkh0 : List Byte

/-- SHA-384, HMAC-SHA-384 and HKDF-SHA-384. -/
opaque sha384 (msg : List Byte) : List Byte
opaque hmac384 (key msg : List Byte) : List Byte
opaque hkdf384 (ikm salt info : List Byte) (len : Nat) : List Byte

/-- AES-GCM: ciphertext followed by its 16-byte tag, and the plaintext if the tag verifies. -/
opaque gcmSeal (key iv aad plain : List Byte) : List Byte
opaque gcmOpen (key iv aad sealed : List Byte) : Option (List Byte)

/-- ECDSA and ECDH over P-384. -/
opaque ecdsaSign (priv msg : List Byte) : List Byte
opaque ecdsaVerify (pub msg sig : List Byte) : Bool
opaque ecdh (priv pub : List Byte) : List Byte
opaque pubOf (priv : List Byte) : List Byte

/-- Output number `n` of the random number generator. -/
opaque randomKey (n : Nat) : List Byte

/-- The build, minor and major version that PG_VER of a page reports, as its 32-bit word (R375). -/
opaque pageVersion (page : Nat) : Nat

/-- A word of BAR0 that shows what the hardware measures or does beside what the spec states, at an instant: the PCIe
link's state (R401), QUIESCED (R376), TDC_MEAS, and the view of larder cells (R342). -/
opaque liveWord (addr clk : Nat) : Nat

/-- Whether a slot's stored record passes its GCM integrity check at an instant (R350). -/
opaque slotIntact (slot clk : Nat) : Bool

end Sys2Proof.Config
end

