-- ==== Sys2Proof/Machine/Bits.lean ====
section
/-! DEFINITION. Machine/Bits.lean: byte order, check codes and small tables. -/

namespace Sys2Proof.Machine

/-- `n` bytes of a value, least significant first (R6). -/
def leBytes : Nat → Nat → List Byte
  | 0, _ => []
  | n + 1, v => BitVec.ofNat 8 v :: leBytes n (v / 256)

/-- `n` bytes of a value, most significant first (ring and Ngato order, R6). -/
def beBytes (n v : Nat) : List Byte := (leBytes n v).reverse

/-- The value of bytes, least significant first. -/
def leVal : List Byte → Nat
  | [] => 0
  | b :: l => b.toNat + 256 * leVal l

/-- The value of bytes, most significant first. -/
def beVal (l : List Byte) : Nat := leVal l.reverse

/-- `n` bytes from offset `o`. -/
def slice (l : List Byte) (o n : Nat) : List Byte := (l.drop o).take n

/-- Field of a byte list, least significant byte first; absent bytes count as 0. -/
def leAt (l : List Byte) (o n : Nat) : Nat := leVal (slice l o n)

/-- Field of a byte list, most significant byte first. -/
def beAt (l : List Byte) (o n : Nat) : Nat := beVal (slice l o n)

/-- Bits `hi` to `lo` of a value. -/
def bits (v hi lo : Nat) : Nat := v / 2 ^ lo % 2 ^ (hi - lo + 1)

/-- One step of CRC-8, x^8 + x^2 + x + 1, over one bit (R33). -/
def crc8Bit (c : BitVec 8) : BitVec 8 := if c.msb then (c <<< 1) ^^^ 0x07#8 else c <<< 1

/-- CRC-8 of R33: initial value 0, no reflection, no final XOR. -/
def crc8 (l : List Byte) : BitVec 8 :=
  l.foldl (fun c b => crc8Bit (crc8Bit (crc8Bit (crc8Bit (crc8Bit (crc8Bit (crc8Bit (crc8Bit (c ^^^ b))))))))) 0#8

/-- One reflected step of the CRC-32 of IEEE 802.3. -/
def crc32Bit (c : BitVec 32) : BitVec 32 :=
  if c.getLsbD 0 then (c >>> 1) ^^^ 0xEDB88320#32 else c >>> 1

/-- CRC-32 of IEEE 802.3. -/
def crc32 (l : List Byte) : BitVec 32 :=
  (l.foldl (fun c b => crc32Bit (crc32Bit (crc32Bit (crc32Bit (crc32Bit (crc32Bit (crc32Bit (crc32Bit
    (c ^^^ b.setWidth 32))))))))) 0xFFFFFFFF#32) ^^^ 0xFFFFFFFF#32

/-- Exclusive OR of bytes: sentence and TAG block checksums (R49). -/
def xorBytes (l : List Byte) : Byte := l.foldl (· ^^^ ·) 0#8

/-- A quotient whose rounding the spec leaves open: exact if it divides, else one of the two neighbours. -/
def roundDiv (a b : Nat) : Nat := if a % b = 0 then a / b else a / b + (Config.roundsUp a b).toNat

/-- The same for a signed numerator. -/
def roundI (a : Int) (b : Nat) : Int :=
  if a % b = 0 then a / b else a / b + (Config.roundsUp a.natAbs b).toNat

/-- The value under a key of a small table. -/
def tabGet? {α : Type} : List (Nat × α) → Nat → Option α
  | [], _ => none
  | (k, v) :: l, a => if k = a then some v else tabGet? l a

/-- Remove a key. -/
def tabDel {α : Type} (l : List (Nat × α)) (k : Nat) : List (Nat × α) := l.filter (fun c => !(c.1 == k))

/-- Insert an entry before the first larger key. -/
def tabIns {α : Type} (k : Nat) (v : α) : List (Nat × α) → List (Nat × α)
  | [] => [(k, v)]
  | (k', v') :: l => if k < k' then (k, v) :: (k', v') :: l else (k', v') :: tabIns k v l

/-- Set the value under a key; keys stay in rising order. -/
def tabPut {α : Type} (l : List (Nat × α)) (k : Nat) (v : α) : List (Nat × α) := tabIns k v (tabDel l k)

/-- Insert a number into a rising list without repeats. -/
def insertNat (n : Nat) : List Nat → List Nat
  | [] => [n]
  | m :: l => if n < m then n :: m :: l else if n = m then m :: l else m :: insertNat n l

/-- ASCII of a character. -/
def chr (c : Char) : Byte := BitVec.ofNat 8 c.toNat

/-- ASCII of a text. -/
def ascii (s : String) : List Byte := s.toList.map chr

/-- The decimal value of ASCII digits. -/
def decVal (l : List Byte) : Nat := l.foldl (fun a b => 10 * a + (b.toNat - 48)) 0

def isDigit (b : Byte) : Bool := 48 ≤ b.toNat && b.toNat ≤ 57
def isUpper (b : Byte) : Bool := 65 ≤ b.toNat && b.toNat ≤ 90
def isLower (b : Byte) : Bool := 97 ≤ b.toNat && b.toNat ≤ 122
def isUpperNum (b : Byte) : Bool := isDigit b || isUpper b

/-- The value of a hexadecimal digit, upper case, or either case with `lax`. -/
def hexVal (lax : Bool) (b : Byte) : Option Nat :=
  if isDigit b then some (b.toNat - 48)
  else if 65 ≤ b.toNat && b.toNat ≤ 70 then some (b.toNat - 55)
  else if lax && 97 ≤ b.toNat && b.toNat ≤ 102 then some (b.toNat - 87)
  else none

/-- Split at every occurrence of a byte. -/
def splitB (c : Byte) : List Byte → List (List Byte)
  | [] => [[]]
  | b :: l =>
    if b = c then [] :: splitB c l
    else match splitB c l with
      | [] => [[b]]
      | h :: t => (b :: h) :: t

/-- The bytes before the first occurrence of a byte, and those after it, if it occurs. -/
def cutB (c : Byte) : List Byte → List Byte × Option (List Byte)
  | [] => ([], none)
  | b :: l => if b = c then ([], some l) else let r := cutB c l; (b :: r.1, r.2)

/-- Decimal digits of a number. -/
def decDigits (n : Nat) : List Byte := ascii (toString n)

end Sys2Proof.Machine
end

