-- ==== Sys2Proof/Machine/Fields.lean ====
section
/-! DEFINITION. Machine/Fields.lean: how the register map is written down. A `Fld` is one field of a page or table
entry; a `Row` is one row of a register table of the spec, with its access type (R7) and its legal values (R9). -/

namespace Sys2Proof.Machine

/-- A register field: byte offset of its first word in the page or entry, lowest bit, width in bits (a field wider
than its word runs on into the next word), and the value it holds after reset in the factory-inert state (R409). -/
structure Fld where
  off : Nat
  lo : Nat
  width : Nat
  rst : Nat
  deriving DecidableEq, Repr

/-- The access types of R7. -/
inductive Acc where
  | rw | ro | wo | w1c | w1s | rwa
  deriving DecidableEq, Repr

/-- Which values of a field are legal (R9): any, a range, 0 or a range, a signed range. -/
inductive Legal where
  | any
  | range (lo hi : Nat)
  | zeroOr (lo hi : Nat)
  | signed (lo hi : Int)
  deriving DecidableEq, Repr

/-- One row of a register table: `cnt` copies of the field, `stride` bytes apart, each of `inner` consecutive words. -/
structure Row where
  acc : Acc
  fld : Fld
  cnt : Nat
  stride : Nat
  inner : Nat
  legal : Legal
  deriving DecidableEq, Repr

/-- A register page or a table window of BAR0: `cnt` entries `step` bytes apart from `base`. A live copy (R86) is read
only whatever its rows say. -/
structure Region where
  base : Nat
  cnt : Nat
  step : Nat
  ro : Bool
  rows : List Row
  deriving DecidableEq, Repr

/-- Copy `i` of a repeated field, `stride` bytes apart. -/
def Fld.at (f : Fld) (i stride : Nat) : Fld := { f with off := f.off + i * stride }

end Sys2Proof.Machine
end

