-- ==== Sys2Proof/Machine/RegMap.lean ====
section
/-! DEFINITION. Machine/RegMap.lean: the register map of BAR0, transcribed from the register tables of the spec
(chapters 2 to 14): one constant per field (offset in its page or entry, lowest bit, width, value after reset), one
constant per page counter, and the rows of every page and table window with each field's access type and legal
values. A field constant is relative to its page or entry; the base of each is in Machine/Fields.lean. -/
namespace Sys2Proof.Machine


/-! ingest: R43, spec/02_ingest.md. -/

abbrev INGEST_RX_EN : Fld := ⟨0x0, 0, 1, 0⟩
abbrev INGEST_TYPE : Fld := ⟨0x0, 1, 3, 0⟩
abbrev INGEST_STAMP_PT : Fld := ⟨0x0, 4, 2, 0⟩
abbrev INGEST_CHK_REQ : Fld := ⟨0x0, 6, 1, 1⟩
abbrev INGEST_LAX_HEX : Fld := ⟨0x0, 7, 1, 0⟩
abbrev INGEST_LAX_EOL : Fld := ⟨0x0, 8, 1, 0⟩
abbrev INGEST_LONG : Fld := ⟨0x0, 9, 1, 0⟩
abbrev INGEST_PASS_BAD : Fld := ⟨0x0, 10, 1, 0⟩
abbrev INGEST_SMAX : Fld := ⟨0x0, 16, 11, 82⟩
abbrev INGEST_BAUD_DIV : Fld := ⟨0x4, 0, 24, 0⟩
abbrev INGEST_PARITY : Fld := ⟨0x4, 24, 2, 0⟩
abbrev INGEST_STOP2 : Fld := ⟨0x4, 26, 1, 0⟩
abbrev INGEST_DATA7 : Fld := ⟨0x4, 27, 1, 0⟩
abbrev INGEST_ICTO : Fld := ⟨0x8, 0, 16, 1920⟩
abbrev INGEST_SILENT_MS : Fld := ⟨0x8, 16, 16, 0⟩
abbrev INGEST_DELAY_NS : Fld := ⟨0xC, 0, 16, 0⟩
abbrev INGEST_ADJ_NS : Fld := ⟨0xC, 16, 16, 0⟩
abbrev INGEST_DIAG_FLOW : Fld := ⟨0x10, 0, 14, 0⟩
abbrev INGEST_SILENT : Fld := ⟨0x1C, 0, 1, 0⟩
abbrev INGEST_IN_CAND : Fld := ⟨0x1C, 1, 1, 0⟩
abbrev INGEST_BREAK_NOW : Fld := ⟨0x1C, 2, 1, 0⟩

/-! ANV: R63, spec/02_ingest.md. -/

abbrev ANV_BUSY : Fld := ⟨0x40, 0, 1, 0⟩
abbrev ANV_IN_DISPATCH : Fld := ⟨0x40, 1, 1, 0⟩
abbrev ANV_GOLD_FAILED : Fld := ⟨0x40, 2, 1, 0⟩
abbrev ANV_CUR_PORT : Fld := ⟨0x40, 16, 11, 0⟩
abbrev ANV_GOLD_PERIOD : Fld := ⟨0x44, 0, 16, 1000⟩
abbrev ANV_SNAP : Fld := ⟨0x48, 0, 1, 0⟩
abbrev ANV_CLEAR : Fld := ⟨0x48, 1, 1, 0⟩

/-! ANV0: R63, spec/02_ingest.md. -/

abbrev ANV_PROP_MNEM : Fld := ⟨0x100, 0, 24, 0⟩
abbrev ANV_VALID : Fld := ⟨0x100, 31, 1, 0⟩
abbrev ANV_ENC_FMT : Fld := ⟨0x140, 0, 24, 0⟩
abbrev ANV_PAYLOAD_FLD : Fld := ⟨0x140, 24, 4, 0⟩
abbrev ANV_FILL_FLD : Fld := ⟨0x140, 28, 4, 0⟩
abbrev ANV_PORT : Fld := ⟨0x160, 0, 11, 0⟩
abbrev ANV_PSNAP : Fld := ⟨0x160, 16, 1, 0⟩
abbrev ANV_PCLEAR : Fld := ⟨0x160, 17, 1, 0⟩
abbrev ANV_ALL : Fld := ⟨0x160, 18, 1, 0⟩
abbrev ANV_LEAF_FWD_NS : Fld := ⟨0x164, 0, 16, 2000⟩

/-! flow: R72, spec/03_flows_and_rules.md. -/

abbrev FL_VALID : Fld := ⟨0x0, 0, 1, 0⟩
abbrev FL_KTYPE : Fld := ⟨0x0, 1, 3, 0⟩
abbrev FL_W_PORT : Fld := ⟨0x0, 4, 1, 0⟩
abbrev FL_W_TALK : Fld := ⟨0x0, 5, 1, 0⟩
abbrev FL_W_FMT : Fld := ⟨0x0, 6, 1, 0⟩
abbrev FL_CHILD : Fld := ⟨0x0, 7, 1, 0⟩
abbrev FL_PRIO : Fld := ⟨0x0, 8, 3, 0⟩
abbrev FL_NOLOOK : Fld := ⟨0x0, 11, 1, 0⟩
abbrev FL_PORT : Fld := ⟨0x0, 16, 11, 0⟩
abbrev FL_PARENT : Fld := ⟨0x4, 0, 14, 0⟩
abbrev FL_DISC_FLD : Fld := ⟨0x4, 16, 8, 0⟩
abbrev FL_TALK : Fld := ⟨0x8, 0, 64, 0⟩
abbrev FL_FMT : Fld := ⟨0x10, 0, 64, 0⟩
abbrev FL_RULE_BASE : Fld := ⟨0x18, 0, 11, 0⟩
abbrev FL_RULE_CNT : Fld := ⟨0x18, 11, 5, 0⟩
abbrev FL_MARK_FLOW : Fld := ⟨0x18, 16, 14, 0⟩
abbrev FL_QUAR_DIVERT : Fld := ⟨0x18, 30, 1, 0⟩
abbrev FL_REL_MODE : Fld := ⟨0x20, 0, 2, 0⟩
abbrev FL_DEADLINE : Fld := ⟨0x20, 16, 16, 0⟩
abbrev FL_KEY_CFG : Fld := ⟨0x24, 0, 32, 0⟩
abbrev FL_ALIGN_OFS : Fld := ⟨0x28, 0, 24, 0⟩
abbrev FL_CONC_EN : Fld := ⟨0x2C, 0, 1, 0⟩
abbrev FL_CONC_MEMBER : Fld := ⟨0x2C, 1, 2, 0⟩
abbrev FL_CONC_GROUP : Fld := ⟨0x2C, 16, 9, 0⟩
abbrev FL_PENDING : Fld := ⟨0x3C, 0, 1, 0⟩
abbrev FL_ORPHAN : Fld := ⟨0x3C, 1, 1, 0⟩

/-! fstate: R74, spec/03_flows_and_rules.md. -/

abbrev FSTATE_NEXT_SEQ : Fld := ⟨0x0, 0, 32, 0⟩
abbrev FSTATE_SLOT0_V : Fld := ⟨0x4, 0, 1, 0⟩
abbrev FSTATE_SLOT1_V : Fld := ⟨0x4, 1, 1, 0⟩
abbrev FSTATE_LAST_V : Fld := ⟨0x4, 2, 1, 0⟩
abbrev FSTATE_QUAR : Fld := ⟨0x4, 3, 1, 0⟩
abbrev FSTATE_FRUN0 : Fld := ⟨0x4, 8, 4, 0⟩
abbrev FSTATE_FRUN1 : Fld := ⟨0x4, 12, 4, 0⟩
abbrev FSTATE_LAST_S : Fld := ⟨0x8, 0, 64, 0⟩
abbrev FSTATE_LAST_NS : Fld := ⟨0x10, 0, 32, 0⟩
abbrev FSTATE_QEND_NS : Fld := ⟨0x14, 0, 32, 0⟩
abbrev FSTATE_QEND_S : Fld := ⟨0x18, 0, 64, 0⟩
abbrev FSTATE_SLOT0_TAG : Fld := ⟨0x20, 0, 27, 0⟩
abbrev FSTATE_SLOT1_TAG : Fld := ⟨0x24, 0, 27, 0⟩
abbrev FSTATE_SLOT0 : Fld := ⟨0x30, 0, 64, 0⟩
abbrev FSTATE_SLOT1 : Fld := ⟨0x38, 0, 64, 0⟩

/-! rule: R76, spec/03_flows_and_rules.md. -/

abbrev RL_OP : Fld := ⟨0x0, 0, 5, 0⟩
abbrev RL_ACTION : Fld := ⟨0x0, 5, 3, 0⟩
abbrev RL_NEG : Fld := ⟨0x0, 8, 1, 0⟩
abbrev RL_EMPTY_FAIL : Fld := ⟨0x0, 9, 1, 0⟩
abbrev RL_NEXT : Fld := ⟨0x0, 10, 2, 0⟩
abbrev RL_FORMAT : Fld := ⟨0x0, 12, 4, 0⟩
abbrev RL_FIELD : Fld := ⟨0x0, 16, 8, 0⟩
abbrev RL_FIELD2 : Fld := ⟨0x0, 24, 8, 0⟩
abbrev RL_SCALE : Fld := ⟨0x4, 0, 4, 0⟩
abbrev RL_WIDTH : Fld := ⟨0x4, 4, 2, 0⟩
abbrev RL_NA : Fld := ⟨0x4, 6, 1, 0⟩
abbrev RL_SLOT : Fld := ⟨0x4, 7, 1, 0⟩
abbrev RL_WRAP : Fld := ⟨0x4, 8, 1, 0⟩
abbrev RL_QSCOPE : Fld := ⟨0x4, 9, 1, 0⟩
abbrev RL_N_ACCEPT : Fld := ⟨0x4, 12, 4, 0⟩
abbrev RL_UNIT : Fld := ⟨0x4, 16, 8, 0⟩
abbrev RL_A : Fld := ⟨0x8, 0, 64, 0⟩
abbrev RL_B : Fld := ⟨0x10, 0, 64, 0⟩
abbrev RL_QUAR_MS : Fld := ⟨0x18, 0, 16, 0⟩
abbrev RL_GEN : Fld := ⟨0x1C, 0, 16, 0⟩
abbrev RL_PENDING : Fld := ⟨0x1C, 16, 1, 0⟩

/-! FLOW: R90, spec/03_flows_and_rules.md. -/

abbrev FLOW_INDEX : Fld := ⟨0x40, 0, 14, 0⟩
abbrev FLOW_GO : Fld := ⟨0x40, 31, 1, 0⟩
abbrev FLOW_ERR_INDEX : Fld := ⟨0x44, 0, 14, 0⟩
abbrev FLOW_DUP_OF : Fld := ⟨0x44, 16, 14, 0⟩
abbrev FLOW_DUP : Fld := ⟨0x44, 30, 1, 0⟩
abbrev FLOW_ERR_V : Fld := ⟨0x44, 31, 1, 0⟩
abbrev FLOW_Q_INDEX : Fld := ⟨0x48, 0, 14, 0⟩
abbrev FLOW_RELEASE : Fld := ⟨0x48, 16, 1, 0⟩
abbrev FLOW_ENTER : Fld := ⟨0x48, 17, 1, 0⟩
abbrev FLOW_Q_PORT : Fld := ⟨0x48, 18, 1, 0⟩
abbrev FLOW_NOMATCH_LAST : Fld := ⟨0x4C, 0, 11, 0⟩
abbrev FLOW_QUAR_LAST : Fld := ⟨0x4C, 16, 14, 0⟩
abbrev FLOW_QUAR_LAST_PORT : Fld := ⟨0x4C, 30, 1, 0⟩
abbrev FLOW_F_INDEX : Fld := ⟨0x50, 0, 14, 0⟩
abbrev FLOW_FSNAP : Fld := ⟨0x50, 16, 1, 0⟩
abbrev FLOW_FCLEAR : Fld := ⟨0x50, 17, 1, 0⟩
abbrev FLOW_FALL : Fld := ⟨0x50, 18, 1, 0⟩
abbrev FLOW_SNAP : Fld := ⟨0x50, 20, 1, 0⟩
abbrev FLOW_CLEAR : Fld := ⟨0x50, 21, 1, 0⟩

/-! group: R94, spec/04_concord.md. -/

abbrev GROUP_VALID : Fld := ⟨0x0, 0, 1, 0⟩
abbrev GROUP_METHOD : Fld := ⟨0x0, 1, 3, 0⟩
abbrev GROUP_PROV : Fld := ⟨0x0, 4, 2, 0⟩
abbrev GROUP_STAT_MODE : Fld := ⟨0x0, 6, 2, 0⟩
abbrev GROUP_MIN_VALID : Fld := ⟨0x0, 8, 3, 0⟩
abbrev GROUP_OUT_FLOW : Fld := ⟨0x0, 16, 14, 0⟩
abbrev GROUP_STAT_FLOW : Fld := ⟨0x4, 0, 14, 0⟩
abbrev GROUP_VAL_RULE : Fld := ⟨0x4, 16, 11, 0⟩
abbrev GROUP_WIN_US : Fld := ⟨0x8, 0, 24, 0⟩
abbrev GROUP_MISS_N : Fld := ⟨0xC, 0, 4, 0⟩
abbrev GROUP_READMIT_N : Fld := ⟨0xC, 4, 4, 0⟩
abbrev GROUP_REWRITE_TALK : Fld := ⟨0xC, 16, 16, 0⟩
abbrev GROUP_TOL : Fld := ⟨0x10, 0, 64, 0⟩
abbrev GROUP_GEN : Fld := ⟨0x1C, 0, 16, 0⟩
abbrev GROUP_PENDING : Fld := ⟨0x1C, 16, 1, 0⟩

/-! gstate: R110, spec/04_concord.md. -/

abbrev GSTATE_OPEN : Fld := ⟨0x0, 0, 1, 0⟩
abbrev GSTATE_DECIDED : Fld := ⟨0x0, 1, 1, 0⟩
abbrev GSTATE_LIVE : Fld := ⟨0x0, 4, 4, 0⟩
abbrev GSTATE_CONTRIB : Fld := ⟨0x0, 8, 4, 0⟩
abbrev GSTATE_VALIDM : Fld := ⟨0x0, 12, 4, 0⟩
abbrev GSTATE_OUTCOME : Fld := ⟨0x0, 16, 8, 0⟩
abbrev GSTATE_ROUND : Fld := ⟨0x4, 0, 32, 0⟩
abbrev GSTATE_REF_S : Fld := ⟨0x8, 0, 64, 0⟩
abbrev GSTATE_REF_NS : Fld := ⟨0x10, 0, 32, 0⟩
abbrev GSTATE_EXP_NS : Fld := ⟨0x14, 0, 32, 0⟩
abbrev GSTATE_EXP_S : Fld := ⟨0x18, 0, 64, 0⟩
abbrev GSTATE_RUNS : Fld := ⟨0x20, 0, 32, 0⟩

/-! CONC: R111, spec/04_concord.md. -/

abbrev CONC_INDEX : Fld := ⟨0x40, 0, 9, 0⟩
abbrev CONC_GO : Fld := ⟨0x40, 31, 1, 0⟩
abbrev CONC_ERR_INDEX : Fld := ⟨0x44, 0, 9, 0⟩
abbrev CONC_ERR_V : Fld := ⟨0x44, 31, 1, 0⟩
abbrev CONC_G_INDEX : Fld := ⟨0x48, 0, 9, 0⟩
abbrev CONC_MEMBER : Fld := ⟨0x48, 16, 2, 0⟩
abbrev CONC_FORCE_OUT : Fld := ⟨0x48, 20, 1, 0⟩
abbrev CONC_FORCE_IN : Fld := ⟨0x48, 21, 1, 0⟩
abbrev CONC_CLASH_WIN_MS : Fld := ⟨0x4C, 0, 16, 0⟩
abbrev CONC_C_INDEX : Fld := ⟨0x50, 0, 9, 0⟩
abbrev CONC_GSNAP : Fld := ⟨0x50, 16, 1, 0⟩
abbrev CONC_GCLEAR : Fld := ⟨0x50, 17, 1, 0⟩
abbrev CONC_GALL : Fld := ⟨0x50, 18, 1, 0⟩
abbrev CONC_SNAP : Fld := ⟨0x50, 20, 1, 0⟩
abbrev CONC_CLEAR : Fld := ⟨0x50, 21, 1, 0⟩
abbrev CONC_CLASH_A : Fld := ⟨0x54, 0, 14, 0⟩
abbrev CONC_CLASH_B : Fld := ⟨0x54, 16, 14, 0⟩
abbrev CONC_EVT_LAST : Fld := ⟨0x58, 0, 9, 0⟩
abbrev CONC_EVT_MEMBER : Fld := ⟨0x58, 16, 2, 0⟩

/-! sub: R112, spec/05_delivery.md. -/

abbrev SUB_VALID : Fld := ⟨0x0, 0, 1, 0⟩
abbrev SUB_MG_V : Fld := ⟨0x0, 1, 1, 0⟩
abbrev SUB_LIST_CNT : Fld := ⟨0x0, 16, 12, 0⟩
abbrev SUB_LIST_BASE : Fld := ⟨0x4, 0, 16, 0⟩
abbrev SUB_MGROUP : Fld := ⟨0x4, 16, 12, 0⟩
abbrev SUB_GEN : Fld := ⟨0xC, 0, 16, 0⟩
abbrev SUB_PENDING : Fld := ⟨0xC, 16, 1, 0⟩

/-! queue: R117, spec/05_delivery.md. -/

abbrev QUEUE_QLIM : Fld := ⟨0x0, 0, 16, 64⟩
abbrev QUEUE_DEPTH : Fld := ⟨0x4, 0, 19, 0⟩
abbrev QUEUE_DEPTH_HW : Fld := ⟨0x8, 0, 19, 0⟩
abbrev QUEUE_SPILLED : Fld := ⟨0xC, 0, 19, 0⟩
abbrev QUEUE_BP : Fld := ⟨0xC, 29, 1, 0⟩
abbrev QUEUE_AT_LIMIT : Fld := ⟨0xC, 30, 1, 0⟩

/-! lport: R126, spec/05_delivery.md. -/

abbrev LPORT_TX_EN : Fld := ⟨0x0, 0, 1, 0⟩
abbrev LPORT_RATE_AUTO : Fld := ⟨0x0, 1, 1, 0⟩
abbrev LPORT_STRIP : Fld := ⟨0x0, 2, 1, 0⟩
abbrev LPORT_INS_C : Fld := ⟨0x0, 3, 1, 0⟩
abbrev LPORT_INS_S : Fld := ⟨0x0, 4, 1, 0⟩
abbrev LPORT_INS_N : Fld := ⟨0x0, 5, 1, 0⟩
abbrev LPORT_STAT_EN : Fld := ⟨0x0, 6, 1, 0⟩
abbrev LPORT_QFLUSH : Fld := ⟨0x0, 7, 1, 0⟩
abbrev LPORT_STAT_CLASS : Fld := ⟨0x0, 8, 3, 0⟩
abbrev LPORT_STAT_PERIOD_S : Fld := ⟨0x0, 16, 8, 0⟩
abbrev LPORT_TX_ICG : Fld := ⟨0x0, 24, 8, 0⟩
abbrev LPORT_RATE : Fld := ⟨0x4, 0, 32, 0⟩
abbrev LPORT_BURST : Fld := ⟨0x8, 0, 16, 0⟩
abbrev LPORT_GAP_US : Fld := ⟨0x8, 16, 16, 0⟩
abbrev LPORT_TX_MAX : Fld := ⟨0xC, 0, 11, 82⟩
abbrev LPORT_NEWEST_MS : Fld := ⟨0xC, 16, 16, 0⟩
abbrev LPORT_TX_DELAY_NS : Fld := ⟨0x10, 0, 32, 0⟩
abbrev LPORT_SRC_NAME : Fld := ⟨0x20, 0, 32, 0⟩
abbrev LPORT_DEPTH_ALL : Fld := ⟨0x30, 0, 19, 0⟩
abbrev LPORT_TOKENS : Fld := ⟨0x34, 0, 32, 0⟩
abbrev LPORT_BP : Fld := ⟨0x38, 0, 8, 0⟩
abbrev LPORT_FLUSHING : Fld := ⟨0x38, 8, 1, 0⟩

/-! LARD: R151, spec/05_delivery.md. -/

abbrev LARD_CELLS_USED : Fld := ⟨0x40, 0, 16, 0⟩
abbrev LARD_SPILL_HI : Fld := ⟨0x44, 0, 16, 40960⟩
abbrev LARD_SPILL_LO : Fld := ⟨0x44, 16, 16, 36864⟩
abbrev LARD_RESERVE : Fld := ⟨0x48, 0, 16, 4096⟩
abbrev LARD_TALLY_USED : Fld := ⟨0x4C, 0, 19, 0⟩
abbrev LARD_SPILLING : Fld := ⟨0x50, 0, 1, 0⟩
abbrev LARD_SPILL_FULL : Fld := ⟨0x50, 1, 1, 0⟩
abbrev LARD_RESERVE_ACT : Fld := ⟨0x50, 2, 1, 0⟩
abbrev LARD_FETCH_AHEAD : Fld := ⟨0x54, 0, 4, 4⟩
abbrev LARD_SNAP : Fld := ⟨0x58, 0, 1, 0⟩
abbrev LARD_CLEAR : Fld := ⟨0x58, 1, 1, 0⟩

/-! BELL: R152, spec/05_delivery.md. -/

abbrev BELL_POLICY : Fld := ⟨0x40, 0, 2, 0⟩
abbrev BELL_LATE_PCT : Fld := ⟨0x40, 8, 7, 0⟩
abbrev BELL_BP_EN : Fld := ⟨0x40, 16, 1, 0⟩
abbrev BELL_STAT_MNEM : Fld := ⟨0x60, 0, 24, 0⟩
abbrev BELL_STAT_MV : Fld := ⟨0x60, 31, 1, 0⟩
abbrev BELL_INDEX : Fld := ⟨0x64, 0, 14, 0⟩
abbrev BELL_GO : Fld := ⟨0x64, 31, 1, 0⟩
abbrev BELL_ERR_INDEX : Fld := ⟨0x68, 0, 14, 0⟩
abbrev BELL_ERR_V : Fld := ⟨0x68, 31, 1, 0⟩
abbrev BELL_C_INDEX : Fld := ⟨0x6C, 0, 14, 0⟩
abbrev BELL_QSNAP : Fld := ⟨0x6C, 16, 1, 0⟩
abbrev BELL_QCLEAR : Fld := ⟨0x6C, 17, 1, 0⟩
abbrev BELL_FSNAP : Fld := ⟨0x6C, 18, 1, 0⟩
abbrev BELL_FCLEAR : Fld := ⟨0x6C, 19, 1, 0⟩
abbrev BELL_ALL : Fld := ⟨0x6C, 20, 1, 0⟩
abbrev BELL_SNAP : Fld := ⟨0x6C, 21, 1, 0⟩
abbrev BELL_CLEAR : Fld := ⟨0x6C, 22, 1, 0⟩
abbrev BELL_BP_LAST_PORT : Fld := ⟨0x70, 0, 11, 0⟩
abbrev BELL_BP_LAST_CLASS : Fld := ⟨0x70, 12, 3, 0⟩
abbrev BELL_BP_LAST_ON : Fld := ⟨0x70, 15, 1, 0⟩
abbrev BELL_KEYIDX_USED : Fld := ⟨0x74, 0, 17, 0⟩

/-! TIME: R184, spec/06_time_and_axes.md. -/

abbrev TIME_H_VALID : Fld := ⟨0x40, 0, 1, 0⟩
abbrev TIME_H_SRC : Fld := ⟨0x40, 1, 1, 0⟩
abbrev TIME_SEL_DOM : Fld := ⟨0x40, 2, 1, 0⟩
abbrev TIME_SLEWING : Fld := ⟨0x40, 3, 1, 0⟩
abbrev TIME_STATE_A : Fld := ⟨0x40, 4, 3, 0⟩
abbrev TIME_STATE_B : Fld := ⟨0x40, 8, 3, 0⟩
abbrev TIME_STEP_PEND : Fld := ⟨0x40, 11, 1, 0⟩
abbrev TIME_SEL_MODE : Fld := ⟨0x44, 0, 3, 2⟩
abbrev TIME_REVERT : Fld := ⟨0x44, 3, 1, 0⟩
abbrev TIME_REVERT_S : Fld := ⟨0x44, 8, 8, 60⟩
abbrev TIME_SET_GO : Fld := ⟨0x44, 16, 1, 0⟩
abbrev TIME_STEP_GO : Fld := ⟨0x44, 17, 1, 0⟩
abbrev TIME_CAP : Fld := ⟨0x44, 18, 1, 0⟩
abbrev TIME_SNAP : Fld := ⟨0x44, 20, 1, 0⟩
abbrev TIME_CLEAR : Fld := ⟨0x44, 21, 1, 0⟩
abbrev TIME_SLEW_PPB : Fld := ⟨0x48, 0, 17, 10000⟩
abbrev TIME_SWITCH_MAX_NS : Fld := ⟨0x4C, 0, 32, 10000⟩
abbrev TIME_SYNC_US : Fld := ⟨0x50, 0, 14, 1000⟩
abbrev TIME_SET_S : Fld := ⟨0x58, 0, 64, 0⟩
abbrev TIME_SET_NS : Fld := ⟨0x60, 0, 30, 0⟩
abbrev TIME_STEP_S : Fld := ⟨0x68, 0, 64, 0⟩
abbrev TIME_STEP_NS : Fld := ⟨0x70, 0, 32, 0⟩
abbrev TIME_UTC_OFS : Fld := ⟨0x74, 0, 16, 0⟩
abbrev TIME_UTC_V : Fld := ⟨0x74, 16, 1, 0⟩
abbrev TIME_LEAP_V : Fld := ⟨0x74, 17, 1, 0⟩
abbrev TIME_LEAP_OFS : Fld := ⟨0x78, 0, 16, 0⟩
abbrev TIME_LEAP_S : Fld := ⟨0x80, 0, 64, 0⟩
abbrev TIME_DOM_SRC : Fld := ⟨0x100, 0, 3, 0⟩
abbrev TIME_DOM_TC : Fld := ⟨0x100, 4, 3, 3⟩
abbrev TIME_DOM_DRESET : Fld := ⟨0x100, 7, 1, 0⟩
abbrev TIME_DOM_MISS_MS : Fld := ⟨0x100, 16, 16, 3000⟩
abbrev TIME_DOM_LOCK_NS : Fld := ⟨0x104, 0, 20, 1000⟩
abbrev TIME_DOM_ALARM_NS : Fld := ⟨0x108, 0, 24, 100000⟩
abbrev TIME_DOM_NEXT_V : Fld := ⟨0x10C, 0, 1, 0⟩
abbrev TIME_DOM_NEXT_S : Fld := ⟨0x110, 0, 64, 0⟩
abbrev TIME_DOM_SMP_S : Fld := ⟨0x118, 0, 64, 0⟩
abbrev TIME_DOM_SMP_NS : Fld := ⟨0x120, 0, 30, 0⟩
abbrev TIME_DOM_SMP_OFS : Fld := ⟨0x124, 0, 32, 0⟩
abbrev TIME_DOM_SMP_FRAC : Fld := ⟨0x128, 0, 16, 0⟩
abbrev TIME_DOM_SMP_GO : Fld := ⟨0x128, 31, 1, 0⟩
abbrev TIME_DOM_OFS : Fld := ⟨0x130, 0, 64, 0⟩
abbrev TIME_DOM_RATE : Fld := ⟨0x138, 0, 32, 0⟩
abbrev TIME_PPSI_EN : Fld := ⟨0x180, 0, 1, 0⟩
abbrev TIME_PPSI_FALL : Fld := ⟨0x180, 1, 1, 0⟩
abbrev TIME_PPSI_CABLE_NS : Fld := ⟨0x184, 0, 20, 0⟩
abbrev TIME_PPSI_LAST_S : Fld := ⟨0x188, 0, 64, 0⟩
abbrev TIME_PPSI_LAST_NS : Fld := ⟨0x190, 0, 32, 0⟩
abbrev TIME_PPSI_LAST_FRAC : Fld := ⟨0x194, 0, 16, 0⟩
abbrev TIME_PPSO_EN : Fld := ⟨0x1C0, 0, 1, 0⟩
abbrev TIME_PPSO_POL : Fld := ⟨0x1C0, 1, 1, 0⟩
abbrev TIME_PPSO_SRC : Fld := ⟨0x1C0, 2, 2, 0⟩
abbrev TIME_PPSO_GATE : Fld := ⟨0x1C0, 4, 2, 0⟩
abbrev TIME_PPSO_PERIOD_NS : Fld := ⟨0x1C4, 0, 30, 1000000000⟩
abbrev TIME_PPSO_WIDTH_NS : Fld := ⟨0x1C8, 0, 30, 100000⟩
abbrev TIME_PPSO_ADV_NS : Fld := ⟨0x1CC, 0, 32, 0⟩
abbrev TIME_ETH_ASYM : Fld := ⟨0x200, 0, 32, 0⟩
abbrev TIME_HOP_ASYM : Fld := ⟨0x208, 0, 32, 0⟩
abbrev TIME_CAP_S : Fld := ⟨0x240, 0, 64, 0⟩
abbrev TIME_CAP_NS : Fld := ⟨0x248, 0, 32, 0⟩
abbrev TIME_CAP_FRAC : Fld := ⟨0x24C, 0, 16, 0⟩
abbrev TIME_CAP_DOM : Fld := ⟨0x24C, 16, 1, 0⟩
abbrev TIME_CAP_OFS_A : Fld := ⟨0x250, 0, 64, 0⟩
abbrev TIME_CAP_OFS_B : Fld := ⟨0x258, 0, 64, 0⟩

/-! AXIS: R186, spec/06_time_and_axes.md. -/

abbrev AXIS_CAP : Fld := ⟨0x40, 0, 1, 0⟩
abbrev AXIS_SNAP : Fld := ⟨0x40, 1, 1, 0⟩
abbrev AXIS_CLEAR : Fld := ⟨0x40, 2, 1, 0⟩
abbrev AXIS_CAP_S : Fld := ⟨0x48, 0, 64, 0⟩
abbrev AXIS_CAP_NS : Fld := ⟨0x50, 0, 32, 0⟩
abbrev AXIS_ENC_MODE : Fld := ⟨0x100, 0, 3, 0⟩
abbrev AXIS_ENC_INV : Fld := ⟨0x100, 3, 1, 0⟩
abbrev AXIS_ENC_Z_MODE : Fld := ⟨0x100, 4, 2, 0⟩
abbrev AXIS_ENC_Z_CORR : Fld := ⟨0x100, 6, 1, 0⟩
abbrev AXIS_ENC_FILT : Fld := ⟨0x100, 8, 8, 4⟩
abbrev AXIS_ENC_Z_TOL : Fld := ⟨0x100, 16, 8, 0⟩
abbrev AXIS_ENC_HOMED : Fld := ⟨0x104, 0, 1, 0⟩
abbrev AXIS_ENC_ERR : Fld := ⟨0x104, 1, 1, 0⟩
abbrev AXIS_ENC_CAP_COUNT : Fld := ⟨0x108, 0, 64, 0⟩
abbrev AXIS_AX_SRC : Fld := ⟨0x200, 0, 2, 0⟩
abbrev AXIS_AX_ENC : Fld := ⟨0x200, 2, 3, 0⟩
abbrev AXIS_AX_LEAF : Fld := ⟨0x200, 8, 8, 0⟩
abbrev AXIS_AX_VEL_N : Fld := ⟨0x200, 16, 4, 2⟩
abbrev AXIS_AX_CLAMP_CNT : Fld := ⟨0x200, 20, 8, 1⟩
abbrev AXIS_AX_COUNTS : Fld := ⟨0x204, 0, 24, 0⟩
abbrev AXIS_AX_EDGE_DEC : Fld := ⟨0x204, 24, 8, 0⟩
abbrev AXIS_AX_STILL_MS : Fld := ⟨0x208, 0, 16, 100⟩
abbrev AXIS_AX_TX_US : Fld := ⟨0x208, 16, 16, 0⟩
abbrev AXIS_AX_ZERO_OFS : Fld := ⟨0x210, 0, 64, 0⟩
abbrev AXIS_AX_STATE : Fld := ⟨0x218, 0, 5, 0⟩
abbrev AXIS_AX_CAP_POS : Fld := ⟨0x220, 0, 64, 0⟩
abbrev AXIS_AX_CAP_VEL : Fld := ⟨0x228, 0, 64, 0⟩

/-! slot: R187, spec/06_time_and_axes.md. -/

abbrev SLOT_ARM : Fld := ⟨0x0, 0, 1, 0⟩
abbrev SLOT_AXIS : Fld := ⟨0x0, 1, 4, 0⟩
abbrev SLOT_DIR : Fld := ⟨0x0, 5, 2, 0⟩
abbrev SLOT_LATE_SKIP : Fld := ⟨0x0, 7, 1, 0⟩
abbrev SLOT_TO_TONGS : Fld := ⟨0x0, 8, 1, 0⟩
abbrev SLOT_TO_HOST : Fld := ⟨0x0, 9, 1, 0⟩
abbrev SLOT_COUNT : Fld := ⟨0x0, 16, 16, 0⟩
abbrev SLOT_TARGET : Fld := ⟨0x8, 0, 64, 0⟩
abbrev SLOT_PERIOD : Fld := ⟨0x10, 0, 64, 0⟩
abbrev SLOT_ARMED : Fld := ⟨0x18, 0, 1, 0⟩
abbrev SLOT_LEFT : Fld := ⟨0x18, 16, 16, 0⟩

/-! slotStat: R187, spec/06_time_and_axes.md. -/

abbrev SLOTSTAT_LAST_S : Fld := ⟨0x0, 0, 64, 0⟩
abbrev SLOTSTAT_LAST_NS : Fld := ⟨0x8, 0, 32, 0⟩
abbrev SLOTSTAT_FIRES : Fld := ⟨0xC, 0, 32, 0⟩
abbrev SLOTSTAT_LAST_POS : Fld := ⟨0x10, 0, 64, 0⟩
abbrev SLOTSTAT_MISSED : Fld := ⟨0x18, 0, 32, 0⟩

/-! portmap: R215, spec/07_osvon_ring.md. -/

abbrev PORTMAP_VALID : Fld := ⟨0x0, 0, 1, 0⟩
abbrev PORTMAP_LEAF : Fld := ⟨0x0, 8, 8, 0⟩
abbrev PORTMAP_LPORT : Fld := ⟨0x0, 16, 8, 0⟩
abbrev PORTMAP_CFG_OK : Fld := ⟨0x4, 0, 1, 0⟩
abbrev PORTMAP_CFG_FAIL : Fld := ⟨0x4, 1, 1, 0⟩
abbrev PORTMAP_REACH_A : Fld := ⟨0x4, 2, 1, 0⟩
abbrev PORTMAP_REACH_B : Fld := ⟨0x4, 3, 1, 0⟩

/-! mgroup: R230, spec/07_osvon_ring.md. -/

abbrev MGROUP_VALID : Fld := ⟨0x0, 0, 1, 0⟩
abbrev MGROUP_BASE : Fld := ⟨0x0, 16, 15, 0⟩
abbrev MGROUP_CNT : Fld := ⟨0x4, 0, 11, 0⟩
abbrev MGROUP_GEN : Fld := ⟨0x8, 0, 16, 0⟩
abbrev MGROUP_PENDING : Fld := ⟨0x8, 16, 1, 0⟩
abbrev MGROUP_MBANK : Fld := ⟨0x8, 17, 1, 0⟩
abbrev MGROUP_SWITCHING : Fld := ⟨0x8, 18, 1, 0⟩

/-! RINGP: R238, spec/07_osvon_ring.md. -/

abbrev RINGP_LSTATE : Fld := ⟨0x40, 0, 2, 0⟩
abbrev RINGP_RATE : Fld := ⟨0x40, 2, 1, 0⟩
abbrev RINGP_CAUSE : Fld := ⟨0x40, 4, 4, 0⟩
abbrev RINGP_VER_MAJ : Fld := ⟨0x40, 8, 4, 0⟩
abbrev RINGP_VER_MIN : Fld := ⟨0x40, 12, 4, 0⟩
abbrev RINGP_PEER_ID : Fld := ⟨0x40, 16, 8, 0⟩
abbrev RINGP_RATE_CTL : Fld := ⟨0x44, 0, 2, 0⟩
abbrev RINGP_ADMIN_DOWN : Fld := ⟨0x44, 2, 1, 0⟩
abbrev RINGP_RETRAIN : Fld := ⟨0x44, 3, 1, 0⟩
abbrev RINGP_SNAP : Fld := ⟨0x44, 4, 1, 0⟩
abbrev RINGP_CLEAR : Fld := ⟨0x44, 5, 1, 0⟩
abbrev RINGP_HOP_NS : Fld := ⟨0x48, 0, 32, 0⟩
abbrev RINGP_RTT_NS : Fld := ⟨0x4C, 0, 32, 0⟩
abbrev RINGP_REPLAY_US : Fld := ⟨0x50, 0, 16, 0⟩
abbrev RINGP_TX_LSEQ : Fld := ⟨0x54, 0, 16, 0⟩
abbrev RINGP_ACK_LSEQ : Fld := ⟨0x54, 16, 16, 0⟩
abbrev RINGP_REPLAY_BYTES : Fld := ⟨0x58, 0, 18, 0⟩
abbrev RINGP_CR_ITEM : Fld := ⟨0x5C, 0, 16, 0⟩
abbrev RINGP_CR_REQ : Fld := ⟨0x60, 0, 16, 0⟩
abbrev RINGP_CR_CPL : Fld := ⟨0x60, 16, 16, 0⟩

/-! RING: R239, spec/07_osvon_ring.md. -/

abbrev RING_EPOCH : Fld := ⟨0x40, 0, 32, 0⟩
abbrev RING_EPOCH_OTHER : Fld := ⟨0x44, 0, 32, 0⟩
abbrev RING_WRAP_A : Fld := ⟨0x48, 0, 1, 0⟩
abbrev RING_WRAP_B : Fld := ⟨0x48, 1, 1, 0⟩
abbrev RING_LEAVES_A : Fld := ⟨0x48, 8, 8, 0⟩
abbrev RING_LEAVES_B : Fld := ⟨0x48, 16, 8, 0⟩
abbrev RING_TOPO_MS : Fld := ⟨0x4C, 0, 16, 100⟩
abbrev RING_CPL_TO_US : Fld := ⟨0x50, 0, 17, 1000⟩
abbrev RING_TAGS_USED : Fld := ⟨0x54, 0, 11, 0⟩
abbrev RING_INDEX : Fld := ⟨0x58, 0, 12, 0⟩
abbrev RING_GO : Fld := ⟨0x58, 31, 1, 0⟩
abbrev RING_ERR_INDEX : Fld := ⟨0x5C, 0, 12, 0⟩
abbrev RING_ERR_V : Fld := ⟨0x5C, 31, 1, 0⟩
abbrev RING_SIG_NODE : Fld := ⟨0x60, 0, 8, 0⟩
abbrev RING_SIG_TYPE : Fld := ⟨0x60, 8, 8, 0⟩
abbrev RING_SIG_CAUSE : Fld := ⟨0x60, 16, 16, 0⟩
abbrev RING_SNAP : Fld := ⟨0x64, 0, 1, 0⟩
abbrev RING_CLEAR : Fld := ⟨0x64, 1, 1, 0⟩
abbrev RING_TOPO_GO : Fld := ⟨0x64, 2, 1, 0⟩
abbrev RING_ERA : Fld := ⟨0x68, 0, 32, 0⟩

/-! node: R240, spec/07_osvon_ring.md. -/

abbrev NODE_ADM_A : Fld := ⟨0x0, 0, 1, 0⟩
abbrev NODE_ADM_B : Fld := ⟨0x0, 1, 1, 0⟩
abbrev NODE_SINGLE : Fld := ⟨0x0, 2, 1, 0⟩
abbrev NODE_DUP_ID : Fld := ⟨0x0, 3, 1, 0⟩
abbrev NODE_READY : Fld := ⟨0x0, 4, 1, 0⟩
abbrev NODE_HUB : Fld := ⟨0x0, 5, 1, 0⟩
abbrev NODE_LOST : Fld := ⟨0x0, 6, 1, 0⟩
abbrev NODE_VER_MAJ : Fld := ⟨0x0, 8, 4, 0⟩
abbrev NODE_VER_MIN : Fld := ⟨0x0, 12, 4, 0⟩
abbrev NODE_INCARN : Fld := ⟨0x0, 16, 16, 0⟩
abbrev NODE_POS_A : Fld := ⟨0x4, 0, 8, 0⟩
abbrev NODE_POS_B : Fld := ⟨0x4, 8, 8, 0⟩
abbrev NODE_IN_DIR_A : Fld := ⟨0x4, 16, 1, 0⟩
abbrev NODE_IN_DIR_B : Fld := ⟨0x4, 17, 1, 0⟩
abbrev NODE_TIME_RING : Fld := ⟨0x4, 18, 1, 0⟩
abbrev NODE_TIME_DIR : Fld := ⟨0x4, 19, 1, 0⟩
abbrev NODE_IN_NS_A : Fld := ⟨0x8, 0, 32, 0⟩
abbrev NODE_IN_NS_B : Fld := ⟨0xC, 0, 32, 0⟩
abbrev NODE_OUT_NS_A : Fld := ⟨0x10, 0, 32, 0⟩
abbrev NODE_OUT_NS_B : Fld := ⟨0x14, 0, 32, 0⟩
abbrev NODE_LINK_NS : Fld := ⟨0x18, 0, 32, 0⟩
abbrev NODE_RESID : Fld := ⟨0x1C, 0, 16, 0⟩

/-! TWIN: R264, spec/08_ngato_twin.md. -/

abbrev TWIN_ROLE : Fld := ⟨0x40, 0, 2, 0⟩
abbrev TWIN_TSTATE : Fld := ⟨0x40, 2, 3, 0⟩
abbrev TWIN_FIRST : Fld := ⟨0x40, 5, 1, 0⟩
abbrev TWIN_HOLD_BUS : Fld := ⟨0x40, 6, 1, 0⟩
abbrev TWIN_PATHS : Fld := ⟨0x40, 8, 3, 0⟩
abbrev TWIN_LANES : Fld := ⟨0x40, 12, 2, 0⟩
abbrev TWIN_PEER_ROLE : Fld := ⟨0x40, 16, 2, 0⟩
abbrev TWIN_HEALTH : Fld := ⟨0x44, 0, 12, 0⟩
abbrev TWIN_PEER_HEALTH : Fld := ⟨0x48, 0, 12, 0⟩
abbrev TWIN_PEER_MAJ : Fld := ⟨0x4C, 0, 8, 0⟩
abbrev TWIN_PEER_MIN : Fld := ⟨0x4C, 8, 8, 0⟩
abbrev TWIN_PEER_BUILD : Fld := ⟨0x4C, 16, 16, 0⟩
abbrev TWIN_LPOS_TX : Fld := ⟨0x50, 0, 64, 0⟩
abbrev TWIN_LPOS_ACK : Fld := ⟨0x58, 0, 64, 0⟩
abbrev TWIN_LOG_LAG_US : Fld := ⟨0x60, 0, 16, 0⟩
abbrev TWIN_ACK_LEAVES : Fld := ⟨0x64, 0, 8, 0⟩
abbrev TWIN_EXPECT_LEAVES : Fld := ⟨0x64, 8, 8, 0⟩
abbrev TWIN_HANDOVER : Fld := ⟨0x68, 0, 1, 0⟩
abbrev TWIN_REJOIN : Fld := ⟨0x68, 1, 1, 0⟩
abbrev TWIN_SEAL : Fld := ⟨0x68, 2, 1, 0⟩
abbrev TWIN_FORCE_ACTIVE : Fld := ⟨0x68, 3, 1, 0⟩
abbrev TWIN_SNAP : Fld := ⟨0x68, 4, 1, 0⟩
abbrev TWIN_CLEAR : Fld := ⟨0x68, 5, 1, 0⟩
abbrev TWIN_PATH_TO_US : Fld := ⟨0x6C, 0, 10, 600⟩
abbrev TWIN_LOG_TO_US : Fld := ⟨0x6C, 16, 10, 300⟩
abbrev TWIN_DRAIN_MS : Fld := ⟨0x70, 0, 16, 2000⟩
abbrev TWIN_AUTO_REJOIN : Fld := ⟨0x70, 16, 1, 1⟩
abbrev TWIN_RELQ_MASK : Fld := ⟨0x74, 0, 12, 15⟩
abbrev TWIN_NGATO_ASYM : Fld := ⟨0x78, 0, 32, 0⟩
abbrev TWIN_TKO_CAUSE : Fld := ⟨0x7C, 0, 4, 0⟩
abbrev TWIN_SEAL_CAUSE : Fld := ⟨0x7C, 4, 4, 0⟩
abbrev TWIN_TKO_LPOS : Fld := ⟨0x80, 0, 64, 0⟩
abbrev TWIN_TKO_S : Fld := ⟨0x88, 0, 64, 0⟩
abbrev TWIN_TKO_NS : Fld := ⟨0x90, 0, 32, 0⟩

/-! CAN: R272, spec/09_can_and_ethernet.md. -/

abbrev CAN_Q_SUBMIT : Fld := ⟨0x200, 0, 1, 0⟩
abbrev CAN_Q_CANCEL : Fld := ⟨0x200, 1, 1, 0⟩
abbrev CAN_Q_ACK : Fld := ⟨0x200, 2, 1, 0⟩
abbrev CAN_Q_ONESHOT : Fld := ⟨0x200, 3, 1, 0⟩
abbrev CAN_Q_FDF : Fld := ⟨0x200, 4, 1, 0⟩
abbrev CAN_Q_BRS : Fld := ⟨0x200, 5, 1, 0⟩
abbrev CAN_Q_RTR : Fld := ⟨0x200, 6, 1, 0⟩
abbrev CAN_Q_IDE : Fld := ⟨0x200, 7, 1, 0⟩
abbrev CAN_Q_DLC : Fld := ⟨0x200, 8, 4, 0⟩
abbrev CAN_Q_STATE : Fld := ⟨0x204, 0, 2, 0⟩
abbrev CAN_Q_RESULT : Fld := ⟨0x204, 4, 2, 0⟩
abbrev CAN_Q_CRES : Fld := ⟨0x204, 6, 2, 0⟩
abbrev CAN_Q_ATTEMPTS : Fld := ⟨0x204, 8, 8, 0⟩
abbrev CAN_Q_ID : Fld := ⟨0x208, 0, 29, 0⟩
abbrev CAN_Q_TX_S : Fld := ⟨0x210, 0, 64, 0⟩
abbrev CAN_Q_TX_NS : Fld := ⟨0x218, 0, 32, 0⟩
abbrev CAN_Q_DATA : Fld := ⟨0x220, 0, 32, 0⟩

/-! CAN: R294, spec/09_can_and_ethernet.md. -/

abbrev CAN_MODE : Fld := ⟨0x40, 0, 3, 0⟩
abbrev CAN_FD_EN : Fld := ⟨0x40, 3, 1, 0⟩
abbrev CAN_PROT_EXC : Fld := ⟨0x40, 4, 1, 0⟩
abbrev CAN_BO_AUTO : Fld := ⟨0x40, 5, 1, 1⟩
abbrev CAN_SNOOP : Fld := ⟨0x40, 6, 1, 0⟩
abbrev CAN_TDC_EN : Fld := ⟨0x40, 7, 1, 0⟩
abbrev CAN_RECOVER : Fld := ⟨0x40, 8, 1, 0⟩
abbrev CAN_WAKE_MODE : Fld := ⟨0x40, 9, 2, 0⟩
abbrev CAN_NBRP : Fld := ⟨0x44, 0, 10, 0⟩
abbrev CAN_NTSEG1 : Fld := ⟨0x44, 16, 9, 0⟩
abbrev CAN_NTSEG2 : Fld := ⟨0x48, 0, 8, 0⟩
abbrev CAN_NSJW : Fld := ⟨0x48, 16, 8, 0⟩
abbrev CAN_DBRP : Fld := ⟨0x4C, 0, 5, 0⟩
abbrev CAN_DTSEG1 : Fld := ⟨0x4C, 8, 6, 0⟩
abbrev CAN_DTSEG2 : Fld := ⟨0x4C, 16, 5, 0⟩
abbrev CAN_DSJW : Fld := ⟨0x4C, 24, 5, 0⟩
abbrev CAN_TDCO : Fld := ⟨0x50, 0, 8, 0⟩
abbrev CAN_TDC_MEAS : Fld := ⟨0x50, 16, 16, 0⟩
abbrev CAN_ESTATE : Fld := ⟨0x54, 0, 2, 0⟩
abbrev CAN_EFF_MON : Fld := ⟨0x54, 2, 1, 0⟩
abbrev CAN_ASLEEP : Fld := ⟨0x54, 3, 1, 0⟩
abbrev CAN_TEC : Fld := ⟨0x54, 8, 8, 0⟩
abbrev CAN_REC : Fld := ⟨0x54, 16, 8, 0⟩
abbrev CAN_WUF_ID : Fld := ⟨0x58, 0, 29, 0⟩
abbrev CAN_WUF_IDE : Fld := ⟨0x58, 29, 1, 0⟩
abbrev CAN_WUF_MASK : Fld := ⟨0x5C, 0, 29, 0⟩
abbrev CAN_WUF_DLC : Fld := ⟨0x60, 0, 4, 0⟩
abbrev CAN_WAKE_FILT_US : Fld := ⟨0x60, 8, 8, 5⟩
abbrev CAN_WUF_DATA : Fld := ⟨0x68, 0, 64, 0⟩
abbrev CAN_TX_VN : Fld := ⟨0x70, 0, 3, 0⟩
abbrev CAN_SA_REPL : Fld := ⟨0x70, 3, 1, 0⟩
abbrev CAN_CLASH_ID : Fld := ⟨0x74, 0, 29, 0⟩
abbrev CAN_SNAP : Fld := ⟨0x78, 0, 1, 0⟩
abbrev CAN_CLEAR : Fld := ⟨0x78, 1, 1, 0⟩

/-! CAN0: R294, spec/09_can_and_ethernet.md. -/

abbrev CAN_FP_TO_MS : Fld := ⟨0xA0, 0, 16, 750⟩
abbrev CAN_BAM_GAP_MS : Fld := ⟨0xA0, 16, 8, 50⟩
abbrev CAN_FPORT : Fld := ⟨0xA4, 0, 11, 0⟩
abbrev CAN_FSNAP : Fld := ⟨0xA4, 16, 1, 0⟩
abbrev CAN_FCLEAR : Fld := ⟨0xA4, 17, 1, 0⟩
abbrev CAN_FALL : Fld := ⟨0xA4, 18, 1, 0⟩

/-! CAN: R294, spec/09_can_and_ethernet.md. -/

abbrev CAN_NAME : Fld := ⟨0x100, 0, 64, 0⟩
abbrev CAN_PREF_SA : Fld := ⟨0x108, 0, 8, 0⟩
abbrev CAN_VN_EN : Fld := ⟨0x108, 8, 1, 0⟩
abbrev CAN_CUR_SA : Fld := ⟨0x108, 16, 8, 254⟩
abbrev CAN_VSTATE : Fld := ⟨0x108, 24, 2, 0⟩

/-! CAN0: R294, spec/09_can_and_ethernet.md. -/

abbrev CAN_FP_PGN : Fld := ⟨0x180, 0, 18, 0⟩
abbrev CAN_FP_V : Fld := ⟨0x180, 31, 1, 0⟩

/-! ETH: R296, spec/09_can_and_ethernet.md. -/

abbrev ETH_MODE : Fld := ⟨0x40, 0, 2, 0⟩
abbrev ETH_AN_EN : Fld := ⟨0x40, 2, 1, 0⟩
abbrev ETH_PAUSE_RX : Fld := ⟨0x40, 3, 1, 0⟩
abbrev ETH_VLAN_EN : Fld := ⟨0x40, 4, 1, 0⟩
abbrev ETH_MACSEC_EN : Fld := ⟨0x40, 5, 1, 0⟩
abbrev ETH_RAW_OTHER : Fld := ⟨0x40, 6, 1, 0⟩
abbrev ETH_REQ_S : Fld := ⟨0x40, 7, 1, 0⟩
abbrev ETH_IGMP_EN : Fld := ⟨0x40, 8, 1, 0⟩
abbrev ETH_LINK : Fld := ⟨0x44, 0, 1, 0⟩
abbrev ETH_SPEED : Fld := ⟨0x44, 1, 2, 0⟩
abbrev ETH_AN_DONE : Fld := ⟨0x44, 3, 1, 0⟩
abbrev ETH_MAC_ADDR : Fld := ⟨0x48, 0, 48, 0⟩
abbrev ETH_IP_ADDR : Fld := ⟨0x50, 0, 32, 0⟩
abbrev ETH_TTL : Fld := ⟨0x54, 0, 8, 1⟩
abbrev ETH_DSCP : Fld := ⟨0x54, 8, 6, 0⟩
abbrev ETH_UDP_SRC : Fld := ⟨0x54, 16, 16, 0⟩
abbrev ETH_MAX_FRAME : Fld := ⟨0x58, 0, 14, 1518⟩
abbrev ETH_VLAN_ID : Fld := ⟨0x58, 16, 12, 0⟩
abbrev ETH_DG_PORT : Fld := ⟨0x5C, 0, 16, 0⟩
abbrev ETH_PHY_RX_NS : Fld := ⟨0x60, 0, 16, 0⟩
abbrev ETH_PHY_TX_NS : Fld := ⟨0x60, 16, 16, 0⟩
abbrev ETH_RX_GRP : Fld := ⟨0x64, 0, 32, 0⟩
abbrev ETH_DEF_GRP : Fld := ⟨0x68, 0, 5, 0⟩
abbrev ETH_SNAP : Fld := ⟨0x6C, 0, 1, 0⟩
abbrev ETH_CLEAR : Fld := ⟨0x6C, 1, 1, 0⟩
abbrev ETH_CIPHER : Fld := ⟨0x80, 0, 2, 0⟩
abbrev ETH_VALIDATE : Fld := ⟨0x80, 2, 2, 0⟩
abbrev ETH_CONF : Fld := ⟨0x80, 4, 1, 0⟩
abbrev ETH_TX_AN : Fld := ⟨0x80, 5, 2, 0⟩
abbrev ETH_REPLAY_WIN : Fld := ⟨0x84, 0, 32, 0⟩
abbrev ETH_TX_SCI : Fld := ⟨0x88, 0, 64, 0⟩
abbrev ETH_TX_KEY : Fld := ⟨0x90, 0, 32, 0⟩
abbrev ETH_TX_PN : Fld := ⟨0x94, 0, 32, 0⟩
abbrev ETH_RX_SCI : Fld := ⟨0xC0, 0, 64, 0⟩
abbrev ETH_RX_KEY : Fld := ⟨0xC8, 0, 32, 0⟩
abbrev ETH_RX_V : Fld := ⟨0xCC, 31, 1, 0⟩
abbrev ETH_GNAME : Fld := ⟨0x200, 0, 32, 0⟩
abbrev ETH_GADDR : Fld := ⟨0x204, 0, 32, 0⟩
abbrev ETH_GPORT : Fld := ⟨0x208, 0, 16, 0⟩
abbrev ETH_GVALID : Fld := ⟨0x208, 31, 1, 0⟩
abbrev ETH_EFLOW : Fld := ⟨0x400, 0, 14, 0⟩
abbrev ETH_EMASK : Fld := ⟨0x400, 16, 14, 0⟩
abbrev ETH_EVALID : Fld := ⟨0x400, 31, 1, 0⟩
abbrev ETH_EGRP : Fld := ⟨0x404, 0, 5, 0⟩

/-! TONG: R319, spec/10_tongs.md. -/

abbrev TONG_DIV : Fld := ⟨0x40, 0, 32, 39321600⟩
abbrev TONG_PIN_BASE : Fld := ⟨0x44, 0, 6, 0⟩
abbrev TONG_PIN_CNT : Fld := ⟨0x44, 8, 6, 1⟩
abbrev TONG_SCLK_LINE : Fld := ⟨0x44, 16, 6, 0⟩
abbrev TONG_SDO_LINE : Fld := ⟨0x44, 24, 6, 0⟩
abbrev TONG_SDI_LINE : Fld := ⟨0x48, 0, 6, 0⟩
abbrev TONG_STBY_RUN : Fld := ⟨0x48, 24, 1, 0⟩
abbrev TONG_ENTRY : Fld := ⟨0x50, 0, 6, 0⟩
abbrev TONG_LO : Fld := ⟨0x50, 8, 6, 0⟩
abbrev TONG_HI : Fld := ⟨0x50, 16, 6, 63⟩
abbrev TONG_PROG_NEXT : Fld := ⟨0x54, 0, 22, 0⟩
abbrev TONG_TX_LIMIT : Fld := ⟨0x58, 0, 11, 1024⟩
abbrev TONG_SNAP : Fld := ⟨0x5C, 0, 1, 0⟩
abbrev TONG_CLEAR : Fld := ⟨0x5C, 1, 1, 0⟩
abbrev TONG_PC : Fld := ⟨0x60, 0, 6, 0⟩
abbrev TONG_BANK : Fld := ⟨0x60, 6, 1, 0⟩
abbrev TONG_STALL : Fld := ⟨0x60, 8, 3, 7⟩
abbrev TONG_SHIFTING : Fld := ⟨0x60, 11, 1, 0⟩
abbrev TONG_SR_CNT : Fld := ⟨0x60, 16, 7, 0⟩
abbrev TONG_LAST_OP : Fld := ⟨0x60, 28, 4, 0⟩
abbrev TONG_ST : Fld := ⟨0x64, 0, 8, 0⟩
abbrev TONG_FAULT : Fld := ⟨0x64, 8, 8, 0⟩
abbrev TONG_HELD : Fld := ⟨0x64, 16, 1, 0⟩
abbrev TONG_CAND_OPEN : Fld := ⟨0x64, 17, 1, 0⟩
abbrev TONG_LASTF : Fld := ⟨0x64, 18, 1, 0⟩
abbrev TONG_HOST_CODE : Fld := ⟨0x64, 24, 8, 0⟩
abbrev TONG_W0 : Fld := ⟨0x68, 0, 32, 0⟩
abbrev TONG_W1 : Fld := ⟨0x6C, 0, 32, 0⟩
abbrev TONG_W2 : Fld := ⟨0x70, 0, 32, 0⟩
abbrev TONG_W3 : Fld := ⟨0x74, 0, 32, 0⟩
abbrev TONG_TMR : Fld := ⟨0x78, 0, 32, 0⟩
abbrev TONG_TX_LVL : Fld := ⟨0x7C, 0, 11, 0⟩
abbrev TONG_RX_LVL : Fld := ⟨0x7C, 16, 11, 0⟩
abbrev TONG_LUT : Fld := ⟨0x400, 0, 32, 0⟩

/-! TONG0: R320, spec/10_tongs.md. -/

abbrev TONG_GRP_EN_SET : Fld := ⟨0x80, 0, 16, 0⟩
abbrev TONG_GRP_EN_CLR : Fld := ⟨0x84, 0, 16, 0⟩
abbrev TONG_GRP_CLKRST : Fld := ⟨0x88, 0, 16, 0⟩
abbrev TONG_GS_MASK : Fld := ⟨0x8C, 0, 16, 0⟩
abbrev TONG_GS_SLOT : Fld := ⟨0x8C, 16, 6, 0⟩
abbrev TONG_GS_ARM : Fld := ⟨0x8C, 31, 1, 0⟩
abbrev TONG_FLAGS : Fld := ⟨0x90, 0, 16, 0⟩
abbrev TONG_LN_OWNER : Fld := ⟨0x100, 0, 4, 0⟩
abbrev TONG_LN_OUT_OK : Fld := ⟨0x100, 4, 1, 0⟩
abbrev TONG_LN_INV_IN : Fld := ⟨0x100, 5, 1, 0⟩
abbrev TONG_LN_INV_OUT : Fld := ⟨0x100, 6, 1, 0⟩
abbrev TONG_LN_STBY_DRIVE : Fld := ⟨0x100, 7, 1, 0⟩
abbrev TONG_LN_FILT : Fld := ⟨0x100, 8, 8, 2⟩
abbrev TONG_LN_IN : Fld := ⟨0x100, 16, 1, 0⟩
abbrev TONG_LN_OUT : Fld := ⟨0x100, 17, 1, 0⟩
abbrev TONG_LN_DRIVING : Fld := ⟨0x100, 18, 1, 0⟩

/-! TONGS: R321, spec/10_tongs.md. -/

abbrev TONGS_LIVE_BANK : Fld := ⟨0x40, 0, 1, 0⟩
abbrev TONGS_WAITING : Fld := ⟨0x40, 16, 16, 0⟩
abbrev TONGS_FORCE : Fld := ⟨0x44, 0, 1, 0⟩
abbrev TONGS_SWAP_TO_US : Fld := ⟨0x48, 0, 16, 0⟩
abbrev TONGS_AUTO_FORCE : Fld := ⟨0x48, 16, 1, 0⟩
abbrev TONGS_SNAP : Fld := ⟨0x4C, 0, 1, 0⟩
abbrev TONGS_CLEAR : Fld := ⟨0x4C, 1, 1, 0⟩
abbrev TONGS_SHADOW : Fld := ⟨0x100, 0, 32, 0⟩
abbrev TONGS_LIVE : Fld := ⟨0x200, 0, 32, 0⟩

/-! fifo: R329, spec/11_buffers_and_cellar.md. -/

abbrev FIFO_RX_LEVEL : Fld := ⟨0x0, 0, 14, 0⟩
abbrev FIFO_RX_EMPTY : Fld := ⟨0x0, 16, 1, 1⟩
abbrev FIFO_RX_FULL : Fld := ⟨0x0, 17, 1, 0⟩
abbrev FIFO_RX_OVERRUN : Fld := ⟨0x0, 18, 1, 0⟩
abbrev FIFO_RX_UNDERRUN : Fld := ⟨0x0, 19, 1, 0⟩
abbrev FIFO_RX_PARERR : Fld := ⟨0x0, 20, 1, 0⟩
abbrev FIFO_RX_FLUSH : Fld := ⟨0x0, 24, 1, 0⟩
abbrev FIFO_RX_DEPTH : Fld := ⟨0x4, 0, 14, 0⟩
abbrev FIFO_TX_LEVEL : Fld := ⟨0x8, 0, 14, 0⟩
abbrev FIFO_TX_EMPTY : Fld := ⟨0x8, 16, 1, 1⟩
abbrev FIFO_TX_FULL : Fld := ⟨0x8, 17, 1, 0⟩
abbrev FIFO_TX_OVERRUN : Fld := ⟨0x8, 18, 1, 0⟩
abbrev FIFO_TX_UNDERRUN : Fld := ⟨0x8, 19, 1, 0⟩
abbrev FIFO_TX_PARERR : Fld := ⟨0x8, 20, 1, 0⟩
abbrev FIFO_TX_FLUSH : Fld := ⟨0x8, 24, 1, 0⟩
abbrev FIFO_TX_DEPTH : Fld := ⟨0xC, 0, 14, 0⟩
abbrev FIFO_FSNAP : Fld := ⟨0x10, 0, 1, 0⟩
abbrev FIFO_FCLEAR : Fld := ⟨0x10, 1, 1, 0⟩
abbrev FIFO_RX_FLUSHED : Fld := ⟨0x20, 0, 64, 0⟩
abbrev FIFO_TX_FLUSHED : Fld := ⟨0x28, 0, 64, 0⟩
abbrev FIFO_RX_FLUSHED_SNAP : Fld := ⟨0x30, 0, 64, 0⟩
abbrev FIFO_TX_FLUSHED_SNAP : Fld := ⟨0x38, 0, 64, 0⟩

/-! CELL: R344, spec/11_buffers_and_cellar.md. -/

abbrev CELL_PRESENT : Fld := ⟨0x40, 0, 1, 1⟩
abbrev CELL_DEV_W : Fld := ⟨0x40, 1, 2, 0⟩
abbrev CELL_DENS : Fld := ⟨0x40, 3, 2, 1⟩
abbrev CELL_RANKS2 : Fld := ⟨0x40, 5, 1, 0⟩
abbrev CELL_REG : Fld := ⟨0x40, 6, 1, 0⟩
abbrev CELL_REFRESH_2X : Fld := ⟨0x40, 7, 1, 0⟩
abbrev CELL_CH0_STATE : Fld := ⟨0x48, 0, 2, 0⟩
abbrev CELL_CH0_CAUSE : Fld := ⟨0x48, 4, 4, 0⟩
abbrev CELL_CH1_STATE : Fld := ⟨0x48, 8, 2, 0⟩
abbrev CELL_CH1_CAUSE : Fld := ⟨0x48, 12, 4, 0⟩
abbrev CELL_OOS0 : Fld := ⟨0x4C, 0, 1, 0⟩
abbrev CELL_OOS1 : Fld := ⟨0x4C, 1, 1, 0⟩
abbrev CELL_SPILL_SZ : Fld := ⟨0x50, 0, 10, 0⟩
abbrev CELL_HOST_SZ : Fld := ⟨0x50, 16, 10, 0⟩
abbrev CELL_CUR_SPILL : Fld := ⟨0x54, 0, 10, 0⟩
abbrev CELL_CUR_JRNL : Fld := ⟨0x54, 16, 10, 0⟩
abbrev CELL_MAP_ERR : Fld := ⟨0x54, 31, 1, 0⟩
abbrev CELL_SCRUB_H : Fld := ⟨0x58, 0, 8, 24⟩
abbrev CELL_CE_RETIRE : Fld := ⟨0x5C, 0, 8, 16⟩
abbrev CELL_UE_LIMIT : Fld := ⟨0x60, 0, 16, 64⟩
abbrev CELL_WIN_BASE : Fld := ⟨0x64, 0, 15, 0⟩
abbrev CELL_LVIEW_CELL : Fld := ⟨0x68, 0, 16, 0⟩
abbrev CELL_CE_ADDR : Fld := ⟨0x70, 0, 35, 0⟩
abbrev CELL_UE_ADDR : Fld := ⟨0x78, 0, 35, 0⟩
abbrev CELL_RETIRED0 : Fld := ⟨0x80, 0, 11, 0⟩
abbrev CELL_RETIRED1 : Fld := ⟨0x80, 16, 11, 0⟩
abbrev CELL_SNAP : Fld := ⟨0x84, 0, 1, 0⟩
abbrev CELL_CLEAR : Fld := ⟨0x84, 1, 1, 0⟩

/-! JRNL: R346, spec/11_buffers_and_cellar.md. -/

abbrev JRNL_SEAL_EN : Fld := ⟨0x40, 0, 1, 0⟩
abbrev JRNL_CLOSE_MS : Fld := ⟨0x40, 16, 10, 100⟩
abbrev JRNL_FREEZE : Fld := ⟨0x44, 0, 1, 0⟩
abbrev JRNL_UNF_W : Fld := ⟨0x44, 16, 2, 0⟩
abbrev JRNL_UNFREEZE : Fld := ⟨0x44, 31, 1, 0⟩
abbrev JRNL_TRIG_TAKEOVER : Fld := ⟨0x48, 0, 1, 0⟩
abbrev JRNL_TRIG_SEALED : Fld := ⟨0x48, 1, 1, 0⟩
abbrev JRNL_TRIG_DUAL : Fld := ⟨0x48, 2, 1, 0⟩
abbrev JRNL_TRIG_TAMPER : Fld := ⟨0x48, 3, 1, 0⟩
abbrev JRNL_PRE_S : Fld := ⟨0x4C, 0, 16, 600⟩
abbrev JRNL_POST_S : Fld := ⟨0x4C, 16, 16, 300⟩
abbrev JRNL_HEAD_B : Fld := ⟨0x50, 0, 64, 0⟩
abbrev JRNL_OLDEST_B : Fld := ⟨0x58, 0, 64, 0⟩
abbrev JRNL_JSEQ_NEXT : Fld := ⟨0x60, 0, 64, 0⟩
abbrev JRNL_JLOC_B : Fld := ⟨0x68, 0, 64, 0⟩
abbrev JRNL_JLOC_ADDR : Fld := ⟨0x70, 0, 35, 0⟩
abbrev JRNL_SNAP : Fld := ⟨0x78, 0, 1, 0⟩
abbrev JRNL_CLEAR : Fld := ⟨0x78, 1, 1, 0⟩
abbrev JRNL_W_STATE : Fld := ⟨0x100, 0, 2, 0⟩
abbrev JRNL_W_TRUNC : Fld := ⟨0x100, 2, 1, 0⟩
abbrev JRNL_W_CAUSE : Fld := ⟨0x100, 4, 4, 0⟩
abbrev JRNL_W_TRIG_NS : Fld := ⟨0x104, 0, 32, 0⟩
abbrev JRNL_W_TRIG_S : Fld := ⟨0x108, 0, 64, 0⟩
abbrev JRNL_W_FIRST_B : Fld := ⟨0x110, 0, 64, 0⟩
abbrev JRNL_W_LAST_B : Fld := ⟨0x118, 0, 64, 0⟩

/-! meta: R351, spec/12_strongbox.md. -/

abbrev META_STATE : Fld := ⟨0x0, 0, 2, 0⟩
abbrev META_ALG : Fld := ⟨0x0, 2, 3, 0⟩
abbrev META_PARENT : Fld := ⟨0x0, 8, 7, 0⟩
abbrev META_ENG : Fld := ⟨0x0, 16, 6, 0⟩
abbrev META_LEVEL : Fld := ⟨0x0, 24, 2, 0⟩
abbrev META_ORIGIN : Fld := ⟨0x0, 26, 2, 0⟩
abbrev META_CAUSE : Fld := ⟨0x0, 28, 3, 0⟩
abbrev META_GEN : Fld := ⟨0x4, 0, 16, 0⟩
abbrev META_KCV : Fld := ⟨0x8, 0, 32, 0⟩

/-! SBOX: R370, spec/12_strongbox.md. -/

abbrev SBOX_SB_STATE : Fld := ⟨0x40, 0, 3, 0⟩
abbrev SBOX_ROOT_OK : Fld := ⟨0x40, 4, 1, 0⟩
abbrev SBOX_CLEAR_LOCK : Fld := ⟨0x40, 5, 1, 0⟩
abbrev SBOX_ID_OK : Fld := ⟨0x40, 6, 1, 0⟩
abbrev SBOX_CMD : Fld := ⟨0x44, 0, 4, 0⟩
abbrev SBOX_ADV_CTR : Fld := ⟨0x44, 8, 1, 0⟩
abbrev SBOX_GO : Fld := ⟨0x44, 31, 1, 0⟩
abbrev SBOX_SLOT : Fld := ⟨0x48, 0, 7, 0⟩
abbrev SBOX_SRC_SLOT : Fld := ⟨0x48, 8, 7, 0⟩
abbrev SBOX_ALG : Fld := ⟨0x48, 16, 3, 0⟩
abbrev SBOX_ENG : Fld := ⟨0x48, 24, 6, 0⟩
abbrev SBOX_SALT_LEN : Fld := ⟨0x4C, 0, 6, 0⟩
abbrev SBOX_INFO_LEN : Fld := ⟨0x4C, 8, 6, 0⟩
abbrev SBOX_MSG_LEN : Fld := ⟨0x50, 0, 15, 0⟩
abbrev SBOX_OP_STATUS : Fld := ⟨0x54, 0, 4, 0⟩
abbrev SBOX_IMG_RESULT : Fld := ⟨0x54, 8, 4, 0⟩
abbrev SBOX_IMG_ADDR : Fld := ⟨0x58, 0, 35, 0⟩
abbrev SBOX_CFG_CTR : Fld := ⟨0x60, 0, 32, 0⟩
abbrev SBOX_UPD_CTR : Fld := ⟨0x64, 0, 32, 0⟩
abbrev SBOX_BOOT : Fld := ⟨0x68, 0, 32, 0⟩
abbrev SBOX_TAMPER_CNT : Fld := ⟨0x6C, 0, 32, 0⟩
abbrev SBOX_TAMP_EN : Fld := ⟨0x70, 0, 5, 28⟩
abbrev SBOX_TAMP_LATCH : Fld := ⟨0x70, 8, 5, 0⟩
abbrev SBOX_TAMP_ARM : Fld := ⟨0x74, 0, 5, 0⟩
abbrev SBOX_TAMP_CLR : Fld := ⟨0x74, 8, 1, 0⟩
abbrev SBOX_RA_CTL : Fld := ⟨0x78, 0, 1, 0⟩
abbrev SBOX_RA_ITEM : Fld := ⟨0x78, 1, 1, 0⟩
abbrev SBOX_RA_SLOT0 : Fld := ⟨0x78, 8, 7, 0⟩
abbrev SBOX_RA_SLOT1 : Fld := ⟨0x78, 16, 7, 0⟩
abbrev SBOX_RA_TX : Fld := ⟨0x78, 24, 1, 0⟩
abbrev SBOX_SEAL_SLOT : Fld := ⟨0x7C, 0, 7, 0⟩
abbrev SBOX_SEAL_V : Fld := ⟨0x7C, 7, 1, 0⟩
abbrev SBOX_SEAL_KEY_B : Fld := ⟨0x80, 0, 64, 0⟩
abbrev SBOX_SNAP : Fld := ⟨0x88, 0, 1, 0⟩
abbrev SBOX_CLEAR : Fld := ⟨0x88, 1, 1, 0⟩
abbrev SBOX_STAGE : Fld := ⟨0x100, 0, 32, 0⟩
abbrev SBOX_SALT : Fld := ⟨0x160, 0, 32, 0⟩
abbrev SBOX_INFO : Fld := ⟨0x190, 0, 32, 0⟩
abbrev SBOX_ID_PUB : Fld := ⟨0x200, 0, 32, 0⟩
abbrev SBOX_TRANS_PUB : Fld := ⟨0x260, 0, 32, 0⟩
abbrev SBOX_DEV_UID : Fld := ⟨0x2C0, 0, 32, 0⟩
abbrev SBOX_AUTH_PKH0 : Fld := ⟨0x2D0, 0, 32, 0⟩
abbrev SBOX_AUTH_PKH1 : Fld := ⟨0x300, 0, 32, 0⟩

/-! HDR: R375, spec/13_host_and_registers.md. -/

abbrev PG_INSTANCE : Fld := ⟨0x0, 0, 16, 0⟩
abbrev PG_TYPE : Fld := ⟨0x0, 16, 16, 0⟩
abbrev PG_BUILD : Fld := ⟨0x4, 0, 16, 0⟩
abbrev PG_MINOR : Fld := ⟨0x4, 16, 8, 0⟩
abbrev PG_MAJOR : Fld := ⟨0x4, 24, 8, 0⟩
abbrev PG_C_SHADOW : Fld := ⟨0x8, 0, 1, 0⟩
abbrev PG_C_FREEZE : Fld := ⟨0x8, 1, 1, 0⟩
abbrev PG_C_TEST : Fld := ⟨0x8, 2, 1, 0⟩
abbrev PG_C_CARRIED : Fld := ⟨0x8, 3, 1, 0⟩
abbrev PG_C_EVTS : Fld := ⟨0x8, 8, 5, 0⟩
abbrev PG_C_CNTS : Fld := ⟨0x8, 16, 16, 0⟩
abbrev PG_ENABLE : Fld := ⟨0xC, 0, 1, 0⟩
abbrev PG_SRST : Fld := ⟨0xC, 1, 1, 0⟩
abbrev PG_FREEZE : Fld := ⟨0xC, 2, 1, 0⟩
abbrev PG_SHADOW_SWAP : Fld := ⟨0xC, 3, 1, 0⟩
abbrev PG_TEST_MODE : Fld := ⟨0xC, 4, 1, 0⟩
abbrev PG_COMMIT : Fld := ⟨0xC, 8, 1, 0⟩
abbrev PG_READY : Fld := ⟨0x10, 0, 1, 0⟩
abbrev PG_IN_RESET : Fld := ⟨0x10, 1, 1, 0⟩
abbrev PG_QUIESCED : Fld := ⟨0x10, 2, 1, 0⟩
abbrev PG_ERROR : Fld := ⟨0x10, 3, 1, 0⟩
abbrev PG_ERR_CODE : Fld := ⟨0x10, 8, 8, 0⟩
abbrev PG_PG_EVT : Fld := ⟨0x14, 0, 32, 0⟩
abbrev PG_PG_EVT_EN : Fld := ⟨0x18, 0, 32, 0⟩
abbrev PG_VEC : Fld := ⟨0x1C, 0, 6, 0⟩
abbrev PG_MSG : Fld := ⟨0x1C, 8, 1, 0⟩
abbrev PG_POP : Fld := ⟨0x1C, 9, 1, 0⟩
abbrev PG_LOCK : Fld := ⟨0x20, 0, 1, 0⟩
abbrev PG_LKEY : Fld := ⟨0x20, 16, 16, 0⟩

/-! txring: R386, spec/13_host_and_registers.md. -/

abbrev TXRING_EN : Fld := ⟨0x0, 0, 1, 0⟩
abbrev TXRING_TYPE : Fld := ⟨0x0, 1, 1, 0⟩
abbrev TXRING_ETHP : Fld := ⟨0x0, 2, 1, 0⟩
abbrev TXRING_FULL_MODE : Fld := ⟨0x0, 3, 1, 0⟩
abbrev TXRING_LOG2_SIZE : Fld := ⟨0x0, 4, 4, 0⟩
abbrev TXRING_VEC : Fld := ⟨0x0, 8, 6, 0⟩
abbrev TXRING_BASE : Fld := ⟨0x8, 0, 64, 0⟩
abbrev TXRING_TAIL : Fld := ⟨0x10, 0, 15, 0⟩
abbrev TXRING_HEAD : Fld := ⟨0x14, 0, 15, 0⟩
abbrev TXRING_RUNNING : Fld := ⟨0x18, 0, 1, 0⟩
abbrev TXRING_FAULT : Fld := ⟨0x18, 1, 1, 0⟩
abbrev TXRING_HELD : Fld := ⟨0x18, 16, 12, 0⟩

/-! pop: R394, spec/13_host_and_registers.md. -/

abbrev POP_NS : Fld := ⟨0x0, 0, 32, 0⟩
abbrev POP_VALID : Fld := ⟨0x0, 32, 1, 0⟩
abbrev POP_OVF : Fld := ⟨0x0, 34, 1, 0⟩
abbrev POP_BIT : Fld := ⟨0x0, 35, 5, 0⟩
abbrev POP_PAGE : Fld := ⟨0x0, 40, 8, 0⟩
abbrev POP_PSEQ : Fld := ⟨0x0, 48, 16, 0⟩
abbrev POP_POP_LVL : Fld := ⟨0x8, 0, 9, 0⟩
abbrev POP_RECOV : Fld := ⟨0x100, 0, 64, 0⟩

/-! ra: R396, spec/13_host_and_registers.md. -/

abbrev RA_GO : Fld := ⟨0x0, 0, 1, 0⟩
abbrev RA_ACK : Fld := ⟨0x0, 1, 1, 0⟩
abbrev RA_WR : Fld := ⟨0x0, 2, 1, 0⟩
abbrev RA_IRQ : Fld := ⟨0x0, 3, 1, 0⟩
abbrev RA_NODE : Fld := ⟨0x0, 8, 8, 0⟩
abbrev RA_SIZE : Fld := ⟨0x0, 16, 7, 0⟩
abbrev RA_STATE : Fld := ⟨0x4, 0, 2, 0⟩
abbrev RA_STATUS : Fld := ⟨0x4, 8, 8, 0⟩
abbrev RA_TAG : Fld := ⟨0x4, 16, 10, 0⟩
abbrev RA_ADDR : Fld := ⟨0x8, 0, 64, 0⟩
abbrev RA_LAT_NS : Fld := ⟨0x10, 0, 32, 0⟩
abbrev RA_DATA : Fld := ⟨0x40, 0, 32, 0⟩

/-! SYS: R399, spec/13_host_and_registers.md. -/

abbrev SYS_STEPPING : Fld := ⟨0x40, 8, 8, 65⟩
abbrev SYS_DEVICE : Fld := ⟨0x40, 16, 16, 8264⟩
abbrev SYS_VENDOR : Fld := ⟨0x44, 0, 16, 8013⟩
abbrev SYS_FIRST : Fld := ⟨0x48, 0, 1, 0⟩
abbrev SYS_STRAPS : Fld := ⟨0x48, 1, 7, 0⟩
abbrev SYS_RST_CAUSE : Fld := ⟨0x4C, 0, 8, 1⟩
abbrev SYS_DEVRST_ARM : Fld := ⟨0x50, 0, 16, 0⟩
abbrev SYS_UP_S : Fld := ⟨0x60, 0, 64, 0⟩
abbrev SYS_EVT_SUM : Fld := ⟨0x80, 0, 32, 0⟩
abbrev SYS_ERR_SUM : Fld := ⟨0xA0, 0, 32, 0⟩
abbrev SYS_SNAP : Fld := ⟨0xC0, 0, 1, 0⟩
abbrev SYS_CLEAR : Fld := ⟨0xC0, 1, 1, 0⟩

/-! HOST: R401, spec/13_host_and_registers.md. -/

abbrev HOST_LINK_SPEED : Fld := ⟨0x40, 0, 2, 0⟩
abbrev HOST_LINK_WIDTH : Fld := ⟨0x40, 2, 3, 0⟩
abbrev HOST_BME : Fld := ⟨0x40, 8, 1, 0⟩
abbrev HOST_D3 : Fld := ⟨0x40, 9, 1, 0⟩
abbrev HOST_UR_ADDR : Fld := ⟨0x44, 0, 24, 0⟩
abbrev HOST_HOLE_ADDR : Fld := ⟨0x48, 0, 24, 0⟩
abbrev HOST_CLS_RING0 : Fld := ⟨0x50, 0, 32, 0⟩
abbrev HOST_CLS_RING1 : Fld := ⟨0x54, 0, 32, 0⟩
abbrev HOST_OUTSTANDING : Fld := ⟨0x58, 0, 13, 0⟩
abbrev HOST_SLOTS_BUSY : Fld := ⟨0x5C, 0, 5, 0⟩
abbrev HOST_SNAP : Fld := ⟨0x60, 0, 1, 0⟩
abbrev HOST_CLEAR : Fld := ⟨0x60, 1, 1, 0⟩
abbrev HOST_VEC_HOLDOFF_US : Fld := ⟨0x200, 0, 16, 0⟩
abbrev HOST_PBA : Fld := ⟨0x3F8, 0, 64, 0⟩
abbrev HOST_MSIX : Fld := ⟨0x400, 0, 32, 0⟩

/-! UART: R403, spec/13_host_and_registers.md. -/

abbrev UART_RXD : Fld := ⟨0x40, 0, 1, 0⟩
abbrev UART_TX_BUSY : Fld := ⟨0x40, 1, 1, 0⟩
abbrev UART_DE : Fld := ⟨0x40, 2, 1, 0⟩
abbrev UART_DE_MODE : Fld := ⟨0x44, 0, 2, 2⟩
abbrev UART_ECHO_SUP : Fld := ⟨0x44, 2, 1, 0⟩
abbrev UART_LOOP : Fld := ⟨0x44, 3, 1, 0⟩
abbrev UART_DE_HOLD : Fld := ⟨0x44, 8, 8, 0⟩
abbrev UART_SEND_BREAK : Fld := ⟨0x48, 0, 16, 0⟩
abbrev UART_SNAP : Fld := ⟨0x4C, 0, 1, 0⟩
abbrev UART_CLEAR : Fld := ⟨0x4C, 1, 1, 0⟩

/-! PWR: R426, spec/14_startup_and_test.md. -/

abbrev PWR_BOOT_STAGE : Fld := ⟨0x40, 0, 4, 0⟩
abbrev PWR_BOOT_MS : Fld := ⟨0x40, 16, 16, 0⟩
abbrev PWR_BOOT_GO : Fld := ⟨0x44, 0, 1, 0⟩
abbrev PWR_SUP_OK : Fld := ⟨0x48, 0, 6, 63⟩
abbrev PWR_SUP_WARNB : Fld := ⟨0x48, 8, 6, 0⟩
abbrev PWR_PD : Fld := ⟨0x4C, 0, 11, 0⟩
abbrev PWR_PD_STAT : Fld := ⟨0x50, 0, 11, 0⟩
abbrev PWR_WAKE_EN : Fld := ⟨0x54, 0, 11, 1⟩
abbrev PWR_WAKE_CAUSE : Fld := ⟨0x58, 0, 11, 0⟩
abbrev PWR_SLEEP : Fld := ⟨0x5C, 0, 16, 0⟩
abbrev PWR_AO_TICKS : Fld := ⟨0x60, 0, 48, 0⟩
abbrev PWR_WAKE_AT : Fld := ⟨0x68, 0, 48, 0⟩
abbrev PWR_BLK_LAST : Fld := ⟨0x70, 0, 8, 0⟩
abbrev PWR_SNAP : Fld := ⟨0x74, 0, 1, 0⟩
abbrev PWR_CLEAR : Fld := ⟨0x74, 1, 1, 0⟩

/-! ATTC: R427, spec/14_startup_and_test.md. -/

abbrev ATTC_STATE : Fld := ⟨0x40, 0, 2, 0⟩
abbrev ATTC_INERT_CAUSE : Fld := ⟨0x40, 4, 2, 0⟩
abbrev ATTC_BUSY : Fld := ⟨0x40, 8, 1, 0⟩
abbrev ATTC_GEN : Fld := ⟨0x48, 0, 64, 0⟩
abbrev ATTC_FIRST_BANK : Fld := ⟨0x50, 0, 4, 0⟩
abbrev ATTC_BANK_CNT : Fld := ⟨0x50, 8, 3, 0⟩
abbrev ATTC_IMG_BYTES : Fld := ⟨0x54, 0, 22, 0⟩
abbrev ATTC_CP_S : Fld := ⟨0x58, 0, 64, 0⟩
abbrev ATTC_CP_NS : Fld := ⟨0x60, 0, 32, 0⟩
abbrev ATTC_WIPE_ARM : Fld := ⟨0x64, 0, 16, 0⟩
abbrev ATTC_WIPE_GO : Fld := ⟨0x68, 0, 1, 0⟩
abbrev ATTC_SNAP : Fld := ⟨0x6C, 0, 1, 0⟩
abbrev ATTC_CLEAR : Fld := ⟨0x6C, 1, 1, 0⟩
abbrev ATTC_WEAR : Fld := ⟨0x100, 0, 64, 0⟩

/-! TEST: R428, spec/14_startup_and_test.md. -/

abbrev TEST_OOS : Fld := ⟨0x40, 0, 8, 0⟩
abbrev TEST_LSCRUB_MS : Fld := ⟨0x44, 0, 16, 1000⟩
abbrev TEST_TF_CLR : Fld := ⟨0x48, 0, 1, 0⟩
abbrev TEST_SNAP : Fld := ⟨0x4C, 0, 1, 0⟩
abbrev TEST_CLEAR : Fld := ⟨0x4C, 1, 1, 0⟩
abbrev TEST_CUST_PAT : Fld := ⟨0x50, 0, 64, 0⟩
abbrev TEST_SL_TID : Fld := ⟨0x100, 0, 4, 0⟩
abbrev TEST_SL_MODE : Fld := ⟨0x100, 4, 2, 0⟩
abbrev TEST_SL_PAT : Fld := ⟨0x100, 6, 2, 0⟩
abbrev TEST_SL_TARGET : Fld := ⟨0x100, 8, 6, 0⟩
abbrev TEST_SL_GO : Fld := ⟨0x100, 16, 1, 0⟩
abbrev TEST_SL_CANCEL : Fld := ⟨0x100, 17, 1, 0⟩
abbrev TEST_SL_ACK : Fld := ⟨0x100, 18, 1, 0⟩
abbrev TEST_SL_DURATION_MS : Fld := ⟨0x104, 0, 32, 0⟩
abbrev TEST_SL_RSTATE : Fld := ⟨0x108, 0, 3, 0⟩
abbrev TEST_SL_ERR_LIMIT : Fld := ⟨0x10C, 0, 32, 0⟩
abbrev TEST_SL_BITS : Fld := ⟨0x110, 0, 64, 0⟩
abbrev TEST_SL_ERRS : Fld := ⟨0x118, 0, 64, 0⟩

/-! RULE: R91, spec/03_flows_and_rules.md. -/

abbrev RULE_INDEX : Fld := ⟨0x40, 0, 11, 0⟩
abbrev RULE_GO : Fld := ⟨0x40, 31, 1, 0⟩
abbrev RULE_ERR_INDEX : Fld := ⟨0x44, 0, 11, 0⟩
abbrev RULE_ERR_V : Fld := ⟨0x44, 31, 1, 0⟩
abbrev RULE_F_INDEX : Fld := ⟨0x50, 0, 11, 0⟩
abbrev RULE_FSNAP : Fld := ⟨0x50, 16, 1, 0⟩
abbrev RULE_FCLEAR : Fld := ⟨0x50, 17, 1, 0⟩
abbrev RULE_FALL : Fld := ⟨0x50, 18, 1, 0⟩
abbrev RULE_SNAP : Fld := ⟨0x50, 20, 1, 0⟩
abbrev RULE_CLEAR : Fld := ⟨0x50, 21, 1, 0⟩

/-! Counters: 64 bits at page + 0x800 + 8·i (R65 and each page's counter table). -/

/-- R65: Headers built. -/
abbrev ANV_C_ITEMS_BUILT : Fld := ⟨0x800, 0, 64, 0⟩
/-- R65: Candidates refused by an anvil check. -/
abbrev ANV_C_CAND_REFUSED : Fld := ⟨0x808, 0, 64, 0⟩
/-- R65: Items discarded under R33. -/
abbrev ANV_C_HDR_DISCARD : Fld := ⟨0x810, 0, 64, 0⟩
/-- R65: Candidates re-run under R64. -/
abbrev ANV_C_REDISPATCH : Fld := ⟨0x818, 0, 64, 0⟩
/-- R65: Golden items run. -/
abbrev ANV_C_GOLD_RUN : Fld := ⟨0x820, 0, 64, 0⟩
/-- R65: Golden items failed. -/
abbrev ANV_C_GOLD_FAIL : Fld := ⟨0x828, 0, 64, 0⟩
/-- R65: Core clocks with BUSY set. -/
abbrev ANV_C_BUSY_CLOCKS : Fld := ⟨0x830, 0, 64, 0⟩
/-- R91: Lookups made. -/
abbrev FLOW_C_LOOKUPS : Fld := ⟨0x800, 0, 64, 0⟩
/-- R91: Candidates matching no entry. -/
abbrev FLOW_C_NO_FLOW : Fld := ⟨0x808, 0, 64, 0⟩
/-- R91: Branches with no matching child. -/
abbrev FLOW_C_BRANCH_MISS : Fld := ⟨0x810, 0, 64, 0⟩
/-- R91: Candidates evaluated again under R87. -/
abbrev FLOW_C_REEVAL : Fld := ⟨0x818, 0, 64, 0⟩
/-- R91: Commits applied. -/
abbrev FLOW_C_COMMITS : Fld := ⟨0x820, 0, 64, 0⟩
/-- R91: Commits refused. -/
abbrev FLOW_C_COMMIT_REFUSED : Fld := ⟨0x828, 0, 64, 0⟩
/-- R91: Diversions to an invalid MARK_FLOW. -/
abbrev FLOW_C_MARK_LOST : Fld := ⟨0x830, 0, 64, 0⟩
/-- R91: Standby outcomes overruled by the log. -/
abbrev FLOW_C_TWIN_DISAGREE : Fld := ⟨0x838, 0, 64, 0⟩
/-- R91: Rule evaluations. -/
abbrev RULE_C_EVALS : Fld := ⟨0x800, 0, 64, 0⟩
/-- R91: Rule failures. -/
abbrev RULE_C_FAILS : Fld := ⟨0x808, 0, 64, 0⟩
/-- R91: Fields that failed to parse. -/
abbrev RULE_C_PARSE : Fld := ⟨0x810, 0, 64, 0⟩
/-- R91: MIN_INTERVAL passes on a stamp more than 1 s back. -/
abbrev RULE_C_STAMP_BACK : Fld := ⟨0x818, 0, 64, 0⟩
/-- R91: Re-bases under N_ACCEPT. -/
abbrev RULE_C_REBASE : Fld := ⟨0x820, 0, 64, 0⟩
/-- R111: Clashes under R107. -/
abbrev CONC_C_XPORT_CLASH : Fld := ⟨0x800, 0, 64, 0⟩
/-- R111: Consensus items emitted without TAG provenance. -/
abbrev CONC_C_PROV_TRUNC : Fld := ⟨0x808, 0, 64, 0⟩
/-- R111: Consensus items refused before admission: OUT_FLOW not valid, or no larder cells (R101). -/
abbrev CONC_C_OUT_LOST : Fld := ⟨0x810, 0, 64, 0⟩
/-- R111: Status items refused before admission: STAT_FLOW not valid, or no larder cells (R104, R106). -/
abbrev CONC_C_STAT_LOST : Fld := ⟨0x818, 0, 64, 0⟩
/-- R111: Rounds ended under R106. -/
abbrev CONC_C_ABORTED : Fld := ⟨0x820, 0, 64, 0⟩
/-- R111: Standby decisions overruled by the log. -/
abbrev CONC_C_C_DISAGREE : Fld := ⟨0x828, 0, 64, 0⟩
/-- R151: Cells allocated. -/
abbrev LARD_C_CELLS_ALLOC : Fld := ⟨0x800, 0, 64, 0⟩
/-- R151: Items spilled. -/
abbrev LARD_C_SPILLED : Fld := ⟨0x808, 0, 64, 0⟩
/-- R151: Items fetched back. -/
abbrev LARD_C_FETCHED : Fld := ⟨0x810, 0, 64, 0⟩
/-- R151: Items refused with no free cell. -/
abbrev LARD_C_NOCELL : Fld := ⟨0x818, 0, 64, 0⟩
/-- R151: Class 4 to 7 items refused under RESERVE. -/
abbrev LARD_C_RESERVE_REFUSED : Fld := ⟨0x820, 0, 64, 0⟩
/-- R151: References refused with the tally empty. -/
abbrev LARD_C_NOTALLY : Fld := ⟨0x828, 0, 64, 0⟩
/-- R151: Larder words re-read under R33. -/
abbrev LARD_C_PARITY_REPLAY : Fld := ⟨0x830, 0, 64, 0⟩
/-- R151: Items released with POISON set from the larder. -/
abbrev LARD_C_POISONED : Fld := ⟨0x838, 0, 64, 0⟩
/-- R151: Items discarded under R33. -/
abbrev LARD_C_HDR_DISCARD : Fld := ⟨0x840, 0, 64, 0⟩
/-- R152: References released. -/
abbrev BELL_C_RELEASES : Fld := ⟨0x800, 0, 64, 0⟩
/-- R152: References resolved SENT_LATE. -/
abbrev BELL_C_SENT_LATE : Fld := ⟨0x808, 0, 64, 0⟩
/-- R152: References resolved COALESCED. -/
abbrev BELL_C_COALESCED : Fld := ⟨0x810, 0, 64, 0⟩
/-- R152: References resolved REFUSED_FULL. -/
abbrev BELL_C_REFUSED_FULL : Fld := ⟨0x818, 0, 64, 0⟩
/-- R152: References resolved REFUSED_DEADLINE. -/
abbrev BELL_C_REFUSED_DEADLINE : Fld := ⟨0x820, 0, 64, 0⟩
/-- R152: References resolved REFUSED_KEY. -/
abbrev BELL_C_REFUSED_KEY : Fld := ⟨0x828, 0, 64, 0⟩
/-- R152: References resolved REFUSED_SIZE. -/
abbrev BELL_C_REFUSED_SIZE : Fld := ⟨0x830, 0, 64, 0⟩
/-- R152: Of those, under R115. -/
abbrev BELL_C_KIND_REFUSED : Fld := ⟨0x838, 0, 64, 0⟩
/-- R152: Resolutions under R136. -/
abbrev BELL_C_BOUND_REFUSED : Fld := ⟨0x840, 0, 64, 0⟩
/-- R152: Items admitted without references. -/
abbrev BELL_C_NO_LISTENER : Fld := ⟨0x848, 0, 64, 0⟩
/-- R152: Multicast packets built. -/
abbrev BELL_C_MCAST_PKTS : Fld := ⟨0x850, 0, 64, 0⟩
/-- R152: Unicast packets built. -/
abbrev BELL_C_UCAST_PKTS : Fld := ⟨0x858, 0, 64, 0⟩
/-- R152: Listeners served by unicast under R147. -/
abbrev BELL_C_MCAST_MISS : Fld := ⟨0x860, 0, 64, 0⟩
/-- R152: Releases without insertion under R145. -/
abbrev BELL_C_TAG_SKIP : Fld := ⟨0x868, 0, 64, 0⟩
/-- R152: Status sentences released. -/
abbrev BELL_C_STATUS_SENT : Fld := ⟨0x870, 0, 64, 0⟩
/-- R152: Status sentences dropped. -/
abbrev BELL_C_STATUS_LOST : Fld := ⟨0x878, 0, 64, 0⟩
/-- R152: SIG BACKPRESSURE messages sent. -/
abbrev BELL_C_BP_SIG : Fld := ⟨0x880, 0, 64, 0⟩
/-- R152: References queued untracked under R132. -/
abbrev BELL_C_KEY_OVF : Fld := ⟨0x888, 0, 64, 0⟩
/-- R185: Changes of SEL_DOM. -/
abbrev TIME_C_SWITCHES : Fld := ⟨0x800, 0, 64, 0⟩
/-- R185: Steps under R161 and R162. -/
abbrev TIME_C_STEPS : Fld := ⟨0x808, 0, 64, 0⟩
/-- R185: Samples applied to domain A. -/
abbrev TIME_C_SMP_A : Fld := ⟨0x810, 0, 64, 0⟩
/-- R185: Samples applied to domain B. -/
abbrev TIME_C_SMP_B : Fld := ⟨0x818, 0, 64, 0⟩
/-- R185: Outliers of domain A. -/
abbrev TIME_C_OUTLIER_A : Fld := ⟨0x820, 0, 64, 0⟩
/-- R185: Outliers of domain B. -/
abbrev TIME_C_OUTLIER_B : Fld := ⟨0x828, 0, 64, 0⟩
/-- R185: HOST samples discarded. -/
abbrev TIME_C_STALE_SMP : Fld := ⟨0x830, 0, 64, 0⟩
/-- R185: Accepted edges, input 0. -/
abbrev TIME_C_PPS_EDGES0 : Fld := ⟨0x838, 0, 64, 0⟩
/-- R185: Accepted edges, input 1. -/
abbrev TIME_C_PPS_EDGES1 : Fld := ⟨0x840, 0, 64, 0⟩
/-- R185: Extra edges discarded. -/
abbrev TIME_C_PPS_EXTRA : Fld := ⟨0x848, 0, 64, 0⟩
/-- R185: Gaps without an edge. -/
abbrev TIME_C_PPS_MISS : Fld := ⟨0x850, 0, 64, 0⟩
/-- R185: TIME_SYNC messages sent. -/
abbrev TIME_C_SYNC_SENT : Fld := ⟨0x858, 0, 64, 0⟩
/-- R188: Quadrature errors. -/
abbrev AXIS_C_QERR : Fld := ⟨0x800, 0, 64, 0⟩
/-- R188: Index deviations above Z_TOL. -/
abbrev AXIS_C_IDX_ERR : Fld := ⟨0x808, 0, 64, 0⟩
/-- R188: AXIS_EDGES messages used. -/
abbrev AXIS_C_EDGE_MSGS : Fld := ⟨0x810, 0, 64, 0⟩
/-- R188: SEQ gaps and messages not used. -/
abbrev AXIS_C_EDGE_LOST : Fld := ⟨0x818, 0, 64, 0⟩
/-- R188: AXIS_STATE messages sent. -/
abbrev AXIS_C_STATE_SENT : Fld := ⟨0x820, 0, 64, 0⟩
/-- R188: Slot fires. -/
abbrev AXIS_C_EVT_FIRES : Fld := ⟨0x828, 0, 64, 0⟩
/-- R188: Late targets under R176. -/
abbrev AXIS_C_EVT_LATE : Fld := ⟨0x830, 0, 64, 0⟩
/-- R188: Targets passed over. -/
abbrev AXIS_C_EVT_MISSED : Fld := ⟨0x838, 0, 64, 0⟩
/-- R188: Writes meeting a fire. -/
abbrev AXIS_C_EVT_RACE : Fld := ⟨0x840, 0, 64, 0⟩
/-- R188: Fires in a jump. -/
abbrev AXIS_C_EVT_JUMP : Fld := ⟨0x848, 0, 64, 0⟩
/-- R188: KIND 7 blocks refused under R183. -/
abbrev AXIS_C_BLOCK_ERR : Fld := ⟨0x850, 0, 64, 0⟩
/-- R188: KIND 7 block sequence gaps. -/
abbrev AXIS_C_BLOCK_GAP : Fld := ⟨0x858, 0, 64, 0⟩
/-- R238: Frames sent. -/
abbrev RINGP_C_FRAMES_TX : Fld := ⟨0x800, 0, 64, 0⟩
/-- R238: Frames received with a good LCRC. -/
abbrev RINGP_C_FRAMES_RX : Fld := ⟨0x808, 0, 64, 0⟩
/-- R238: Frames failing LCRC. -/
abbrev RINGP_C_LCRC_ERR : Fld := ⟨0x810, 0, 64, 0⟩
/-- R238: Frames ended by a bad block. -/
abbrev RINGP_C_BLOCK_ERR : Fld := ⟨0x818, 0, 64, 0⟩
/-- R238: Frames discarded under R192. -/
abbrev RINGP_C_FT_ERR : Fld := ⟨0x820, 0, 64, 0⟩
/-- R238: NAKs sent. -/
abbrev RINGP_C_NAK_TX : Fld := ⟨0x828, 0, 64, 0⟩
/-- R238: NAKs received. -/
abbrev RINGP_C_NAK_RX : Fld := ⟨0x830, 0, 64, 0⟩
/-- R238: Replay timeouts. -/
abbrev RINGP_C_REPLAY_TO : Fld := ⟨0x838, 0, 64, 0⟩
/-- R238: Frames resent. -/
abbrev RINGP_C_REPLAYED : Fld := ⟨0x840, 0, 64, 0⟩
/-- R238: Duplicate frames. -/
abbrev RINGP_C_LSEQ_DUP : Fld := ⟨0x848, 0, 64, 0⟩
/-- R238: LINK_DOWN events. -/
abbrev RINGP_C_LINK_DOWNS : Fld := ⟨0x850, 0, 64, 0⟩
/-- R238: Fallbacks to 3.125 Gbaud. -/
abbrev RINGP_C_RATE_FALL : Fld := ⟨0x858, 0, 64, 0⟩
/-- R238: Core clocks with a frame waiting for credit. -/
abbrev RINGP_C_CREDIT_STALL : Fld := ⟨0x860, 0, 64, 0⟩
/-- R238: TIME frames dropped. -/
abbrev RINGP_C_TIME_DROP : Fld := ⟨0x868, 0, 64, 0⟩
/-- R238: Frames re-sent through a wrap. -/
abbrev RINGP_C_RESENT : Fld := ⟨0x870, 0, 64, 0⟩
/-- R239: ITEM_IN copies kept from ring A. -/
abbrev RING_C_KEPT_A : Fld := ⟨0x800, 0, 64, 0⟩
/-- R239: ITEM_IN copies kept from ring B. -/
abbrev RING_C_KEPT_B : Fld := ⟨0x808, 0, 64, 0⟩
/-- R239: Second copies dropped. -/
abbrev RING_C_DUP_COPY : Fld := ⟨0x810, 0, 64, 0⟩
/-- R239: Copies below the window. -/
abbrev RING_C_ISEQ_OLD : Fld := ⟨0x818, 0, 64, 0⟩
/-- R239: Numbers never received. -/
abbrev RING_C_ISEQ_LOST : Fld := ⟨0x820, 0, 64, 0⟩
/-- R239: Copies kept out of order. -/
abbrev RING_C_ISEQ_REORDER : Fld := ⟨0x828, 0, 64, 0⟩
/-- R239: Copies with no port map entry. -/
abbrev RING_C_UNMAPPED_IN : Fld := ⟨0x830, 0, 64, 0⟩
/-- R239: Packets from nodes not admitted. -/
abbrev RING_C_NOT_ADMITTED_DROP : Fld := ⟨0x838, 0, 64, 0⟩
/-- R239: Requests sent. -/
abbrev RING_C_REQ_ISSUED : Fld := ⟨0x840, 0, 64, 0⟩
/-- R239: Requests timed out. -/
abbrev RING_C_CPL_TIMEOUT : Fld := ⟨0x848, 0, 64, 0⟩
/-- R239: Completions dropped under R224. -/
abbrev RING_C_CPL_STALE : Fld := ⟨0x850, 0, 64, 0⟩
/-- R239: Completions with TARGET_RESET. -/
abbrev RING_C_TARGET_RESET_CPL : Fld := ⟨0x858, 0, 64, 0⟩
/-- R239: Writes refused by a leaf under R233. -/
abbrev RING_C_EPOCH_STALE : Fld := ⟨0x860, 0, 64, 0⟩
/-- R239: Packets stripped at HOPS 0. -/
abbrev RING_C_HOPS_EXPIRED : Fld := ⟨0x868, 0, 64, 0⟩
/-- R239: Packets dropped under R202 or R203. -/
abbrev RING_C_PT_ERR : Fld := ⟨0x870, 0, 64, 0⟩
/-- R239: DISCOVER passes completed. -/
abbrev RING_C_TOPO_PASSES : Fld := ⟨0x878, 0, 64, 0⟩
/-- R239: Passes sent again. -/
abbrev RING_C_TOPO_LOST : Fld := ⟨0x880, 0, 64, 0⟩
/-- R239: Leaf writes answered ERROR. -/
abbrev RING_C_LEAF_WR_REFUSED : Fld := ⟨0x888, 0, 64, 0⟩
/-- R239: Members not installed. -/
abbrev RING_C_MBANK_MISS : Fld := ⟨0x890, 0, 64, 0⟩
/-- R264: Takeovers by this hub. -/
abbrev TWIN_C_TAKEOVERS : Fld := ⟨0x800, 0, 64, 0⟩
/-- R264: Relinquishes by this hub. -/
abbrev TWIN_C_RELINQUISHES : Fld := ⟨0x808, 0, 64, 0⟩
/-- R264: Seals. -/
abbrev TWIN_C_SEALS : Fld := ⟨0x810, 0, 64, 0⟩
/-- R264: Resyncs completed. -/
abbrev TWIN_C_RESYNCS : Fld := ⟨0x818, 0, 64, 0⟩
/-- R264: Resyncs abandoned. -/
abbrev TWIN_C_RESYNC_FAIL : Fld := ⟨0x820, 0, 64, 0⟩
/-- R264: Log records sent. -/
abbrev TWIN_C_REC_TX : Fld := ⟨0x828, 0, 64, 0⟩
/-- R264: Log records applied. -/
abbrev TWIN_C_REC_RX : Fld := ⟨0x830, 0, 64, 0⟩
/-- R264: Departures from step under LOG_TO_US. -/
abbrev TWIN_C_LOG_STALLS : Fld := ⟨0x838, 0, 64, 0⟩
/-- R264: References released with REPLAYED set. -/
abbrev TWIN_C_REEMITTED : Fld := ⟨0x840, 0, 64, 0⟩
/-- R264: R249. -/
abbrev TWIN_C_HDR_MISMATCH : Fld := ⟨0x848, 0, 64, 0⟩
/-- R264: R251. -/
abbrev TWIN_C_MISS_FETCH : Fld := ⟨0x850, 0, 64, 0⟩
/-- R264: R252. -/
abbrev TWIN_C_LOCAL_UNMATCHED : Fld := ⟨0x858, 0, 64, 0⟩
/-- R264: Twin link path losses. -/
abbrev TWIN_C_PATH_LOSS_TWIN : Fld := ⟨0x860, 0, 64, 0⟩
/-- R264: Ring A path losses. -/
abbrev TWIN_C_PATH_LOSS_A : Fld := ⟨0x868, 0, 64, 0⟩
/-- R264: Ring B path losses. -/
abbrev TWIN_C_PATH_LOSS_B : Fld := ⟨0x870, 0, 64, 0⟩
/-- R264: Ngato lane losses. -/
abbrev TWIN_C_LANE_DOWNS : Fld := ⟨0x878, 0, 64, 0⟩
/-- R264: Seals under R258. -/
abbrev TWIN_C_DUAL_ACTIVE : Fld := ⟨0x880, 0, 64, 0⟩
/-- R264: Links refused for version. -/
abbrev TWIN_C_VER_REJECT : Fld := ⟨0x888, 0, 64, 0⟩
/-- R295: Frames received. -/
abbrev CAN_C_FRAMES_RX : Fld := ⟨0x800, 0, 64, 0⟩
/-- R295: Frames sent. -/
abbrev CAN_C_FRAMES_TX : Fld := ⟨0x808, 0, 64, 0⟩
/-- R295: Bit errors. -/
abbrev CAN_C_BIT_ERR : Fld := ⟨0x810, 0, 64, 0⟩
/-- R295: Stuff errors. -/
abbrev CAN_C_STUFF_ERR : Fld := ⟨0x818, 0, 64, 0⟩
/-- R295: Form errors. -/
abbrev CAN_C_FORM_ERR : Fld := ⟨0x820, 0, 64, 0⟩
/-- R295: CRC errors. -/
abbrev CAN_C_CRC_ERR : Fld := ⟨0x828, 0, 64, 0⟩
/-- R295: Acknowledgement errors. -/
abbrev CAN_C_ACK_ERR : Fld := ⟨0x830, 0, 64, 0⟩
/-- R295: Arbitrations lost. -/
abbrev CAN_C_ARB_LOST : Fld := ⟨0x838, 0, 64, 0⟩
/-- R295: Entries to bus-off. -/
abbrev CAN_C_BUS_OFFS : Fld := ⟨0x840, 0, 64, 0⟩
/-- R295: Protocol exceptions. -/
abbrev CAN_C_PROT_EXC : Fld := ⟨0x848, 0, 64, 0⟩
/-- R295: R275. -/
abbrev CAN_C_ID_CLASH : Fld := ⟨0x850, 0, 64, 0⟩
/-- R295: R275. -/
abbrev CAN_C_SA_CLASH : Fld := ⟨0x858, 0, 64, 0⟩
/-- R295: Claims lost. -/
abbrev CAN_C_ADDR_LOST : Fld := ⟨0x860, 0, 64, 0⟩
/-- R295: References refused under R271. -/
abbrev CAN_C_VN_UNCLAIMED : Fld := ⟨0x868, 0, 64, 0⟩
/-- R295: Transmit sessions aborted or timed out. -/
abbrev CAN_C_TP_TX_ABORT : Fld := ⟨0x870, 0, 64, 0⟩
/-- R295: Wakes. -/
abbrev CAN_C_WAKES : Fld := ⟨0x878, 0, 64, 0⟩
/-- R297: Frames received. -/
abbrev ETH_C_FRAMES_RX : Fld := ⟨0x800, 0, 64, 0⟩
/-- R297: Frames sent. -/
abbrev ETH_C_FRAMES_TX : Fld := ⟨0x808, 0, 64, 0⟩
/-- R297: Bad FCS. -/
abbrev ETH_C_FCS_ERR : Fld := ⟨0x810, 0, 64, 0⟩
/-- R297: Runts. -/
abbrev ETH_C_RUNT : Fld := ⟨0x818, 0, 64, 0⟩
/-- R297: Oversize frames. -/
abbrev ETH_C_OVERSIZE : Fld := ⟨0x820, 0, 64, 0⟩
/-- R297: PAUSE frames obeyed. -/
abbrev ETH_C_PAUSE_RX : Fld := ⟨0x828, 0, 64, 0⟩
/-- R297: Bad IPv4 headers. -/
abbrev ETH_C_IP_HDR_ERR : Fld := ⟨0x830, 0, 64, 0⟩
/-- R297: Frames dropped under R285. -/
abbrev ETH_C_NOT_FOR_US : Fld := ⟨0x838, 0, 64, 0⟩
/-- R297: MACsec ICV failures. -/
abbrev ETH_C_MS_ICV : Fld := ⟨0x840, 0, 64, 0⟩
/-- R297: MACsec replays. -/
abbrev ETH_C_MS_REPLAY : Fld := ⟨0x848, 0, 64, 0⟩
/-- R297: Unsecured frames, Strict dropped or Check accepted. -/
abbrev ETH_C_MS_UNSEC : Fld := ⟨0x850, 0, 64, 0⟩
/-- R297: Received frames under an unusable key. -/
abbrev ETH_C_KEY_DROP : Fld := ⟨0x858, 0, 64, 0⟩
/-- R297: R290. -/
abbrev ETH_C_TX_KEY_DROP : Fld := ⟨0x860, 0, 64, 0⟩
/-- R297: Event messages stamped on ingress. -/
abbrev ETH_C_PTP_RX_STAMPS : Fld := ⟨0x868, 0, 64, 0⟩
/-- R297: Event messages stamped on egress. -/
abbrev ETH_C_PTP_TX_STAMPS : Fld := ⟨0x870, 0, 64, 0⟩
/-- R297: R288. -/
abbrev ETH_C_RAW_DROP : Fld := ⟨0x878, 0, 64, 0⟩
/-- R297: IGMP reports sent. -/
abbrev ETH_C_IGMP_TX : Fld := ⟨0x880, 0, 64, 0⟩
/-- R319: Words fetched. -/
abbrev TONG_C_TX_WORDS : Fld := ⟨0x800, 0, 64, 0⟩
/-- R319: Words stored. -/
abbrev TONG_C_RX_WORDS : Fld := ⟨0x808, 0, 64, 0⟩
/-- R319: Candidates committed. -/
abbrev TONG_C_CANDS : Fld := ⟨0x810, 0, 64, 0⟩
/-- R319: Candidates rewound under R313 and R318. -/
abbrev TONG_C_CAND_REWOUND : Fld := ⟨0x818, 0, 64, 0⟩
/-- R319: R308. -/
abbrev TONG_C_RX_OVERRUN : Fld := ⟨0x820, 0, 64, 0⟩
/-- R319: R306. -/
abbrev TONG_C_PIN_DENIED : Fld := ⟨0x828, 0, 64, 0⟩
/-- R319: R311. -/
abbrev TONG_C_EVT_OVER : Fld := ⟨0x830, 0, 64, 0⟩
/-- R319: R311. -/
abbrev TONG_C_FINE_MISS : Fld := ⟨0x838, 0, 64, 0⟩
/-- R319: R318. -/
abbrev TONG_C_FORCED_SWAPS : Fld := ⟨0x840, 0, 64, 0⟩
/-- R319: Shift bits discarded. -/
abbrev TONG_C_BITS_LOST : Fld := ⟨0x848, 0, 64, 0⟩
/-- R319: Transmit words discarded. -/
abbrev TONG_C_TX_FLUSHED : Fld := ⟨0x850, 0, 64, 0⟩
/-- R319: Engine clocks stalled. -/
abbrev TONG_C_STALL_CLOCKS : Fld := ⟨0x858, 0, 64, 0⟩
/-- R321: Swaps completed. -/
abbrev TONGS_C_SWAPS : Fld := ⟨0x800, 0, 64, 0⟩
/-- R321: Engines forced. -/
abbrev TONGS_C_FORCED : Fld := ⟨0x808, 0, 64, 0⟩
/-- R345: Corrected words. -/
abbrev CELL_C_CE_WORDS : Fld := ⟨0x800, 0, 64, 0⟩
/-- R345: Uncorrectable words. -/
abbrev CELL_C_UE_WORDS : Fld := ⟨0x808, 0, 64, 0⟩
/-- R345: Complete scrub passes. -/
abbrev CELL_C_SCRUB_PASSES : Fld := ⟨0x810, 0, 64, 0⟩
/-- R345: Granules retired. -/
abbrev CELL_C_RETIRED : Fld := ⟨0x818, 0, 64, 0⟩
/-- R345: References resolved under R336. -/
abbrev CELL_C_CH_LOST : Fld := ⟨0x820, 0, 64, 0⟩
/-- R345: BAR2 writes outside the host region. -/
abbrev CELL_C_WIN_WR_REFUSED : Fld := ⟨0x828, 0, 64, 0⟩
/-- R345: Receive FIFO words poisoned under R326. -/
abbrev CELL_C_PARITY_RX : Fld := ⟨0x830, 0, 64, 0⟩
/-- R345: Transmit FIFO words failing under R326. -/
abbrev CELL_C_TX_PARITY : Fld := ⟨0x838, 0, 64, 0⟩
/-- R345: Bytes read from the cellar. -/
abbrev CELL_C_RD_BYTES : Fld := ⟨0x840, 0, 64, 0⟩
/-- R345: Bytes written to the cellar. -/
abbrev CELL_C_WR_BYTES : Fld := ⟨0x848, 0, 64, 0⟩
/-- R347: Records written. -/
abbrev JRNL_C_RECORDS : Fld := ⟨0x800, 0, 64, 0⟩
/-- R347: Blocks closed. -/
abbrev JRNL_C_BLOCKS : Fld := ⟨0x808, 0, 64, 0⟩
/-- R347: Bytes written, headers included. -/
abbrev JRNL_C_BYTES : Fld := ⟨0x810, 0, 64, 0⟩
/-- R347: Blocks overwritten. -/
abbrev JRNL_C_OVERWRITTEN : Fld := ⟨0x818, 0, 64, 0⟩
/-- R347: Windows taken. -/
abbrev JRNL_C_FREEZES : Fld := ⟨0x820, 0, 64, 0⟩
/-- R347: Triggers that extended a window. -/
abbrev JRNL_C_FREEZE_EXT : Fld := ⟨0x828, 0, 64, 0⟩
/-- R347: Triggers refused. -/
abbrev JRNL_C_FREEZE_REFUSED : Fld := ⟨0x830, 0, 64, 0⟩
/-- R347: Blocks closed unsealed. -/
abbrev JRNL_C_SEAL_SKIP : Fld := ⟨0x838, 0, 64, 0⟩
/-- R370: Commands started. -/
abbrev SBOX_C_OPS : Fld := ⟨0x800, 0, 64, 0⟩
/-- R370: Commands ended other than DONE. -/
abbrev SBOX_C_OP_FAIL : Fld := ⟨0x808, 0, 64, 0⟩
/-- R370: Commands aborted under R354. -/
abbrev SBOX_C_KEY_REVOKED_OPS : Fld := ⟨0x810, 0, 64, 0⟩
/-- R370: Update messages applied. -/
abbrev SBOX_C_UPD_ACCEPT : Fld := ⟨0x818, 0, 64, 0⟩
/-- R370: Update messages refused. -/
abbrev SBOX_C_UPD_REJECT : Fld := ⟨0x820, 0, 64, 0⟩
/-- R370: Statements signed. -/
abbrev SBOX_C_ATTESTS : Fld := ⟨0x828, 0, 64, 0⟩
/-- R370: R350. -/
abbrev SBOX_C_INTEG_FAIL : Fld := ⟨0x830, 0, 64, 0⟩
/-- R370: Alarms, including those while latched. -/
abbrev SBOX_C_TAMPER_ALARMS : Fld := ⟨0x838, 0, 64, 0⟩
/-- R370: Packets tagged. -/
abbrev SBOX_C_RA_TAGGED : Fld := ⟨0x840, 0, 64, 0⟩
/-- R370: R365. -/
abbrev SBOX_C_RA_NOKEY : Fld := ⟨0x848, 0, 64, 0⟩
/-- R370: R353. -/
abbrev SBOX_C_RA_KEY_DROP : Fld := ⟨0x850, 0, 64, 0⟩
/-- R400: Writes refused on any page. -/
abbrev SYS_C_ERR_WRITES : Fld := ⟨0x800, 0, 64, 0⟩
/-- R400: Of those, LOCKED. -/
abbrev SYS_C_LOCK_REFUSED : Fld := ⟨0x808, 0, 64, 0⟩
/-- R402: Descriptors fetched. -/
abbrev HOST_C_DESC_FETCHED : Fld := ⟨0x800, 0, 64, 0⟩
/-- R402: Items fetched from transmit item rings. -/
abbrev HOST_C_SUBMITTED : Fld := ⟨0x808, 0, 64, 0⟩
/-- R402: Fetches failed (R387). -/
abbrev HOST_C_FETCH_ERR : Fld := ⟨0x810, 0, 64, 0⟩
/-- R402: Write-back records written. -/
abbrev HOST_C_WB_WRITTEN : Fld := ⟨0x818, 0, 64, 0⟩
/-- R402: Write-backs not written (R374). -/
abbrev HOST_C_WB_LOST : Fld := ⟨0x820, 0, 64, 0⟩
/-- R402: Items and frames written to receive rings. -/
abbrev HOST_C_RX_WRITTEN : Fld := ⟨0x828, 0, 64, 0⟩
/-- R402: Releases that waited on a full ring. -/
abbrev HOST_C_RX_STALL : Fld := ⟨0x830, 0, 64, 0⟩
/-- R402: Items released to a full DROP ring. -/
abbrev HOST_C_RX_RING_DROP : Fld := ⟨0x838, 0, 64, 0⟩
/-- R402: Descriptors with BUF_ERR. -/
abbrev HOST_C_BUF_ERR : Fld := ⟨0x840, 0, 64, 0⟩
/-- R402: Messages sent. -/
abbrev HOST_C_MSIX_SENT : Fld := ⟨0x848, 0, 64, 0⟩
/-- R402: Host accesses completed with UR. -/
abbrev HOST_C_UR_CPL : Fld := ⟨0x850, 0, 64, 0⟩
/-- R402: Host accesses to holes. -/
abbrev HOST_C_HOLE_ACCESS : Fld := ⟨0x858, 0, 64, 0⟩
/-- R402: Writes received with EP. -/
abbrev HOST_C_POISONED_WR : Fld := ⟨0x860, 0, 64, 0⟩
/-- R402: Records popped. -/
abbrev HOST_C_POP_READS : Fld := ⟨0x868, 0, 64, 0⟩
/-- R402: Records lost to a full FIFO. -/
abbrev HOST_C_POP_LOST : Fld := ⟨0x870, 0, 64, 0⟩
/-- R402: Remote requests issued. -/
abbrev HOST_C_RA_ISSUED : Fld := ⟨0x878, 0, 64, 0⟩
/-- R402: Remote results discarded (R398). -/
abbrev HOST_C_RA_ORPHAN_CPL : Fld := ⟨0x880, 0, 64, 0⟩
/-- R402: Raw frames sent. -/
abbrev HOST_C_RAW_TX : Fld := ⟨0x888, 0, 64, 0⟩
/-- R403: Characters sent. -/
abbrev UART_C_TX_CHARS : Fld := ⟨0x800, 0, 64, 0⟩
/-- R403: Breaks sent. -/
abbrev UART_C_BREAKS_SENT : Fld := ⟨0x808, 0, 64, 0⟩
/-- R426: Soft resets under R417. -/
abbrev PWR_C_SRSTS : Fld := ⟨0x800, 0, 64, 0⟩
/-- R426: R417. -/
abbrev PWR_C_RST_NP_CPL : Fld := ⟨0x808, 0, 64, 0⟩
/-- R426: R417. -/
abbrev PWR_C_RST_POSTED_DROP : Fld := ⟨0x810, 0, 64, 0⟩
/-- R426: R417. -/
abbrev PWR_C_RST_LATE_CPL : Fld := ⟨0x818, 0, 64, 0⟩
/-- R426: Sleep entries. -/
abbrev PWR_C_SLEEPS : Fld := ⟨0x820, 0, 64, 0⟩
/-- R426: Wakes. -/
abbrev PWR_C_WAKES : Fld := ⟨0x828, 0, 64, 0⟩
/-- R426: Warning-level crossings. -/
abbrev PWR_C_SUP_WARNS : Fld := ⟨0x830, 0, 64, 0⟩
/-- R427: Images written. -/
abbrev ATTC_C_COMMITS : Fld := ⟨0x800, 0, 64, 0⟩
/-- R427: Requests merged (R411). -/
abbrev ATTC_C_COMMITS_MERGED : Fld := ⟨0x808, 0, 64, 0⟩
/-- R427: R413. -/
abbrev ATTC_C_REC_REFUSED : Fld := ⟨0x810, 0, 64, 0⟩
/-- R427: R413. -/
abbrev ATTC_C_REC_SKIPPED : Fld := ⟨0x818, 0, 64, 0⟩
/-- R427: Corrected MRAM words. -/
abbrev ATTC_C_ATTIC_CE : Fld := ⟨0x820, 0, 64, 0⟩

/-- Rows of ingest, part 0. -/
def rows_INGEST_0 : List Row := [
  ⟨.rwa, INGEST_RX_EN, 1, 0, 1, .any⟩,
  ⟨.rwa, INGEST_TYPE, 1, 0, 1, .range 0 5⟩,
  ⟨.rwa, INGEST_STAMP_PT, 1, 0, 1, .range 0 2⟩,
  ⟨.rwa, INGEST_CHK_REQ, 1, 0, 1, .any⟩,
  ⟨.rwa, INGEST_LAX_HEX, 1, 0, 1, .any⟩,
  ⟨.rwa, INGEST_LAX_EOL, 1, 0, 1, .any⟩,
  ⟨.rwa, INGEST_LONG, 1, 0, 1, .any⟩,
  ⟨.rwa, INGEST_PASS_BAD, 1, 0, 1, .any⟩,
  ⟨.rwa, INGEST_SMAX, 1, 0, 1, .any⟩,
  ⟨.rwa, INGEST_BAUD_DIV, 1, 0, 1, .range 10416 2000000⟩,
  ⟨.rwa, INGEST_PARITY, 1, 0, 1, .range 0 2⟩,
  ⟨.rwa, INGEST_STOP2, 1, 0, 1, .any⟩,
  ⟨.rwa, INGEST_DATA7, 1, 0, 1, .any⟩,
  ⟨.rwa, INGEST_ICTO, 1, 0, 1, .zeroOr 10 65535⟩,
  ⟨.rwa, INGEST_SILENT_MS, 1, 0, 1, .any⟩,
  ⟨.rwa, INGEST_DELAY_NS, 1, 0, 1, .any⟩,
  ⟨.rwa, INGEST_ADJ_NS, 1, 0, 1, .any⟩,
  ⟨.rwa, INGEST_DIAG_FLOW, 1, 0, 1, .any⟩,
  ⟨.ro, INGEST_SILENT, 1, 0, 1, .any⟩,
  ⟨.ro, INGEST_IN_CAND, 1, 0, 1, .any⟩,
  ⟨.ro, INGEST_BREAK_NOW, 1, 0, 1, .any⟩]
/-- Every field row of ingest. -/
def rows_INGEST : List Row := rows_INGEST_0

/-- Rows of ANV, part 0. -/
def rows_ANV_0 : List Row := [
  ⟨.ro, ANV_BUSY, 1, 0, 1, .any⟩,
  ⟨.ro, ANV_IN_DISPATCH, 1, 0, 1, .any⟩,
  ⟨.w1c, ANV_GOLD_FAILED, 1, 0, 1, .any⟩,
  ⟨.ro, ANV_CUR_PORT, 1, 0, 1, .any⟩,
  ⟨.rwa, ANV_GOLD_PERIOD, 1, 0, 1, .any⟩,
  ⟨.wo, ANV_SNAP, 1, 0, 1, .any⟩,
  ⟨.wo, ANV_CLEAR, 1, 0, 1, .any⟩]
/-- Every field row of ANV. -/
def rows_ANV : List Row := rows_ANV_0

/-- Rows of ANV0, part 0. -/
def rows_ANV0_0 : List Row := [
  ⟨.rwa, ANV_PROP_MNEM, 16, 4, 1, .any⟩,
  ⟨.rwa, ANV_VALID, 16, 4, 1, .any⟩,
  ⟨.rwa, ANV_ENC_FMT, 8, 4, 1, .any⟩,
  ⟨.rwa, ANV_PAYLOAD_FLD, 8, 4, 1, .any⟩,
  ⟨.rwa, ANV_FILL_FLD, 8, 4, 1, .any⟩,
  ⟨.wo, ANV_PORT, 1, 0, 1, .any⟩,
  ⟨.wo, ANV_PSNAP, 1, 0, 1, .any⟩,
  ⟨.wo, ANV_PCLEAR, 1, 0, 1, .any⟩,
  ⟨.wo, ANV_ALL, 1, 0, 1, .any⟩,
  ⟨.rwa, ANV_LEAF_FWD_NS, 1, 0, 1, .any⟩]
/-- Every field row of ANV0. -/
def rows_ANV0 : List Row := rows_ANV0_0

/-- Rows of flow, part 0. -/
def rows_FL_0 : List Row := [
  ⟨.rwa, FL_VALID, 1, 0, 1, .any⟩,
  ⟨.rwa, FL_KTYPE, 1, 0, 1, .any⟩,
  ⟨.rwa, FL_W_PORT, 1, 0, 1, .any⟩,
  ⟨.rwa, FL_W_TALK, 1, 0, 1, .any⟩,
  ⟨.rwa, FL_W_FMT, 1, 0, 1, .any⟩,
  ⟨.rwa, FL_CHILD, 1, 0, 1, .any⟩,
  ⟨.rwa, FL_PRIO, 1, 0, 1, .any⟩,
  ⟨.rwa, FL_NOLOOK, 1, 0, 1, .any⟩,
  ⟨.rwa, FL_PORT, 1, 0, 1, .any⟩,
  ⟨.rwa, FL_PARENT, 1, 0, 1, .any⟩,
  ⟨.rwa, FL_DISC_FLD, 1, 0, 1, .any⟩,
  ⟨.rwa, FL_TALK, 1, 0, 1, .any⟩,
  ⟨.rwa, FL_FMT, 1, 0, 1, .any⟩,
  ⟨.rwa, FL_RULE_BASE, 1, 0, 1, .any⟩,
  ⟨.rwa, FL_RULE_CNT, 1, 0, 1, .range 0 16⟩,
  ⟨.rwa, FL_MARK_FLOW, 1, 0, 1, .any⟩,
  ⟨.rwa, FL_QUAR_DIVERT, 1, 0, 1, .any⟩,
  ⟨.rwa, FL_REL_MODE, 1, 0, 1, .range 0 2⟩,
  ⟨.rwa, FL_DEADLINE, 1, 0, 1, .any⟩,
  ⟨.rwa, FL_KEY_CFG, 1, 0, 1, .any⟩,
  ⟨.rwa, FL_ALIGN_OFS, 1, 0, 1, .any⟩,
  ⟨.rwa, FL_CONC_EN, 1, 0, 1, .any⟩,
  ⟨.rwa, FL_CONC_MEMBER, 1, 0, 1, .any⟩,
  ⟨.rwa, FL_CONC_GROUP, 1, 0, 1, .any⟩,
  ⟨.ro, FL_PENDING, 1, 0, 1, .any⟩,
  ⟨.ro, FL_ORPHAN, 1, 0, 1, .any⟩]
/-- Every field row of flow. -/
def rows_FL : List Row := rows_FL_0

/-- Rows of fstate, part 0. -/
def rows_FSTATE_0 : List Row := [
  ⟨.ro, FSTATE_NEXT_SEQ, 1, 0, 1, .any⟩,
  ⟨.ro, FSTATE_SLOT0_V, 1, 0, 1, .any⟩,
  ⟨.ro, FSTATE_SLOT1_V, 1, 0, 1, .any⟩,
  ⟨.ro, FSTATE_LAST_V, 1, 0, 1, .any⟩,
  ⟨.ro, FSTATE_QUAR, 1, 0, 1, .any⟩,
  ⟨.ro, FSTATE_FRUN0, 1, 0, 1, .any⟩,
  ⟨.ro, FSTATE_FRUN1, 1, 0, 1, .any⟩,
  ⟨.ro, FSTATE_LAST_S, 1, 0, 1, .any⟩,
  ⟨.ro, FSTATE_LAST_NS, 1, 0, 1, .any⟩,
  ⟨.ro, FSTATE_QEND_NS, 1, 0, 1, .any⟩,
  ⟨.ro, FSTATE_QEND_S, 1, 0, 1, .any⟩,
  ⟨.ro, FSTATE_SLOT0_TAG, 1, 0, 1, .any⟩,
  ⟨.ro, FSTATE_SLOT1_TAG, 1, 0, 1, .any⟩,
  ⟨.ro, FSTATE_SLOT0, 1, 0, 1, .any⟩,
  ⟨.ro, FSTATE_SLOT1, 1, 0, 1, .any⟩]
/-- Every field row of fstate. -/
def rows_FSTATE : List Row := rows_FSTATE_0

/-- Rows of rule, part 0. -/
def rows_RL_0 : List Row := [
  ⟨.rwa, RL_OP, 1, 0, 1, .any⟩,
  ⟨.rwa, RL_ACTION, 1, 0, 1, .range 0 3⟩,
  ⟨.rwa, RL_NEG, 1, 0, 1, .any⟩,
  ⟨.rwa, RL_EMPTY_FAIL, 1, 0, 1, .any⟩,
  ⟨.rwa, RL_NEXT, 1, 0, 1, .range 0 2⟩,
  ⟨.rwa, RL_FORMAT, 1, 0, 1, .any⟩,
  ⟨.rwa, RL_FIELD, 1, 0, 1, .any⟩,
  ⟨.rwa, RL_FIELD2, 1, 0, 1, .any⟩,
  ⟨.rwa, RL_SCALE, 1, 0, 1, .range 0 9⟩,
  ⟨.rwa, RL_WIDTH, 1, 0, 1, .any⟩,
  ⟨.rwa, RL_NA, 1, 0, 1, .any⟩,
  ⟨.rwa, RL_SLOT, 1, 0, 1, .any⟩,
  ⟨.rwa, RL_WRAP, 1, 0, 1, .any⟩,
  ⟨.rwa, RL_QSCOPE, 1, 0, 1, .any⟩,
  ⟨.rwa, RL_N_ACCEPT, 1, 0, 1, .any⟩,
  ⟨.rwa, RL_UNIT, 1, 0, 1, .any⟩,
  ⟨.rwa, RL_A, 1, 0, 1, .any⟩,
  ⟨.rwa, RL_B, 1, 0, 1, .any⟩,
  ⟨.rwa, RL_QUAR_MS, 1, 0, 1, .any⟩,
  ⟨.ro, RL_GEN, 1, 0, 1, .any⟩,
  ⟨.ro, RL_PENDING, 1, 0, 1, .any⟩]
/-- Every field row of rule. -/
def rows_RL : List Row := rows_RL_0

/-- Rows of FLOW, part 0. -/
def rows_FLOW_0 : List Row := [
  ⟨.wo, FLOW_INDEX, 1, 0, 1, .any⟩,
  ⟨.wo, FLOW_GO, 1, 0, 1, .any⟩,
  ⟨.ro, FLOW_ERR_INDEX, 1, 0, 1, .any⟩,
  ⟨.ro, FLOW_DUP_OF, 1, 0, 1, .any⟩,
  ⟨.ro, FLOW_DUP, 1, 0, 1, .any⟩,
  ⟨.ro, FLOW_ERR_V, 1, 0, 1, .any⟩,
  ⟨.wo, FLOW_Q_INDEX, 1, 0, 1, .any⟩,
  ⟨.wo, FLOW_RELEASE, 1, 0, 1, .any⟩,
  ⟨.wo, FLOW_ENTER, 1, 0, 1, .any⟩,
  ⟨.wo, FLOW_Q_PORT, 1, 0, 1, .any⟩,
  ⟨.ro, FLOW_NOMATCH_LAST, 1, 0, 1, .any⟩,
  ⟨.ro, FLOW_QUAR_LAST, 1, 0, 1, .any⟩,
  ⟨.ro, FLOW_QUAR_LAST_PORT, 1, 0, 1, .any⟩,
  ⟨.wo, FLOW_F_INDEX, 1, 0, 1, .any⟩,
  ⟨.wo, FLOW_FSNAP, 1, 0, 1, .any⟩,
  ⟨.wo, FLOW_FCLEAR, 1, 0, 1, .any⟩,
  ⟨.wo, FLOW_FALL, 1, 0, 1, .any⟩,
  ⟨.wo, FLOW_SNAP, 1, 0, 1, .any⟩,
  ⟨.wo, FLOW_CLEAR, 1, 0, 1, .any⟩]
/-- Every field row of FLOW. -/
def rows_FLOW : List Row := rows_FLOW_0

/-- Rows of group, part 0. -/
def rows_GROUP_0 : List Row := [
  ⟨.rwa, GROUP_VALID, 1, 0, 1, .any⟩,
  ⟨.rwa, GROUP_METHOD, 1, 0, 1, .range 0 4⟩,
  ⟨.rwa, GROUP_PROV, 1, 0, 1, .any⟩,
  ⟨.rwa, GROUP_STAT_MODE, 1, 0, 1, .range 0 2⟩,
  ⟨.rwa, GROUP_MIN_VALID, 1, 0, 1, .any⟩,
  ⟨.rwa, GROUP_OUT_FLOW, 1, 0, 1, .any⟩,
  ⟨.rwa, GROUP_STAT_FLOW, 1, 0, 1, .any⟩,
  ⟨.rwa, GROUP_VAL_RULE, 1, 0, 1, .any⟩,
  ⟨.rwa, GROUP_WIN_US, 1, 0, 1, .any⟩,
  ⟨.rwa, GROUP_MISS_N, 1, 0, 1, .any⟩,
  ⟨.rwa, GROUP_READMIT_N, 1, 0, 1, .any⟩,
  ⟨.rwa, GROUP_REWRITE_TALK, 1, 0, 1, .any⟩,
  ⟨.rwa, GROUP_TOL, 1, 0, 1, .any⟩,
  ⟨.ro, GROUP_GEN, 1, 0, 1, .any⟩,
  ⟨.ro, GROUP_PENDING, 1, 0, 1, .any⟩]
/-- Every field row of group. -/
def rows_GROUP : List Row := rows_GROUP_0

/-- Rows of gstate, part 0. -/
def rows_GSTATE_0 : List Row := [
  ⟨.ro, GSTATE_OPEN, 1, 0, 1, .any⟩,
  ⟨.ro, GSTATE_DECIDED, 1, 0, 1, .any⟩,
  ⟨.ro, GSTATE_LIVE, 1, 0, 1, .any⟩,
  ⟨.ro, GSTATE_CONTRIB, 1, 0, 1, .any⟩,
  ⟨.ro, GSTATE_VALIDM, 1, 0, 1, .any⟩,
  ⟨.ro, GSTATE_OUTCOME, 1, 0, 1, .any⟩,
  ⟨.ro, GSTATE_ROUND, 1, 0, 1, .any⟩,
  ⟨.ro, GSTATE_REF_S, 1, 0, 1, .any⟩,
  ⟨.ro, GSTATE_REF_NS, 1, 0, 1, .any⟩,
  ⟨.ro, GSTATE_EXP_NS, 1, 0, 1, .any⟩,
  ⟨.ro, GSTATE_EXP_S, 1, 0, 1, .any⟩,
  ⟨.ro, GSTATE_RUNS, 1, 0, 1, .any⟩]
/-- Every field row of gstate. -/
def rows_GSTATE : List Row := rows_GSTATE_0

/-- Rows of CONC, part 0. -/
def rows_CONC_0 : List Row := [
  ⟨.wo, CONC_INDEX, 1, 0, 1, .any⟩,
  ⟨.wo, CONC_GO, 1, 0, 1, .any⟩,
  ⟨.ro, CONC_ERR_INDEX, 1, 0, 1, .any⟩,
  ⟨.ro, CONC_ERR_V, 1, 0, 1, .any⟩,
  ⟨.wo, CONC_G_INDEX, 1, 0, 1, .any⟩,
  ⟨.wo, CONC_MEMBER, 1, 0, 1, .any⟩,
  ⟨.wo, CONC_FORCE_OUT, 1, 0, 1, .any⟩,
  ⟨.wo, CONC_FORCE_IN, 1, 0, 1, .any⟩,
  ⟨.rwa, CONC_CLASH_WIN_MS, 1, 0, 1, .any⟩,
  ⟨.wo, CONC_C_INDEX, 1, 0, 1, .any⟩,
  ⟨.wo, CONC_GSNAP, 1, 0, 1, .any⟩,
  ⟨.wo, CONC_GCLEAR, 1, 0, 1, .any⟩,
  ⟨.wo, CONC_GALL, 1, 0, 1, .any⟩,
  ⟨.wo, CONC_SNAP, 1, 0, 1, .any⟩,
  ⟨.wo, CONC_CLEAR, 1, 0, 1, .any⟩,
  ⟨.ro, CONC_CLASH_A, 1, 0, 1, .any⟩,
  ⟨.ro, CONC_CLASH_B, 1, 0, 1, .any⟩,
  ⟨.ro, CONC_EVT_LAST, 1, 0, 1, .any⟩,
  ⟨.ro, CONC_EVT_MEMBER, 1, 0, 1, .any⟩]
/-- Every field row of CONC. -/
def rows_CONC : List Row := rows_CONC_0

/-- Rows of sub, part 0. -/
def rows_SUB_0 : List Row := [
  ⟨.rwa, SUB_VALID, 1, 0, 1, .any⟩,
  ⟨.rwa, SUB_MG_V, 1, 0, 1, .any⟩,
  ⟨.rwa, SUB_LIST_CNT, 1, 0, 1, .range 0 2048⟩,
  ⟨.rwa, SUB_LIST_BASE, 1, 0, 1, .any⟩,
  ⟨.rwa, SUB_MGROUP, 1, 0, 1, .any⟩,
  ⟨.ro, SUB_GEN, 1, 0, 1, .any⟩,
  ⟨.ro, SUB_PENDING, 1, 0, 1, .any⟩]
/-- Every field row of sub. -/
def rows_SUB : List Row := rows_SUB_0

/-- Rows of queue, part 0. -/
def rows_QUEUE_0 : List Row := [
  ⟨.rwa, QUEUE_QLIM, 1, 0, 1, .range 1 65535⟩,
  ⟨.ro, QUEUE_DEPTH, 1, 0, 1, .any⟩,
  ⟨.ro, QUEUE_DEPTH_HW, 1, 0, 1, .any⟩,
  ⟨.ro, QUEUE_SPILLED, 1, 0, 1, .any⟩,
  ⟨.ro, QUEUE_BP, 1, 0, 1, .any⟩,
  ⟨.ro, QUEUE_AT_LIMIT, 1, 0, 1, .any⟩]
/-- Every field row of queue. -/
def rows_QUEUE : List Row := rows_QUEUE_0

/-- Rows of lport, part 0. -/
def rows_LPORT_0 : List Row := [
  ⟨.rwa, LPORT_TX_EN, 1, 0, 1, .any⟩,
  ⟨.rwa, LPORT_RATE_AUTO, 1, 0, 1, .any⟩,
  ⟨.rwa, LPORT_STRIP, 1, 0, 1, .any⟩,
  ⟨.rwa, LPORT_INS_C, 1, 0, 1, .any⟩,
  ⟨.rwa, LPORT_INS_S, 1, 0, 1, .any⟩,
  ⟨.rwa, LPORT_INS_N, 1, 0, 1, .any⟩,
  ⟨.rwa, LPORT_STAT_EN, 1, 0, 1, .any⟩,
  ⟨.wo, LPORT_QFLUSH, 1, 0, 1, .any⟩,
  ⟨.rwa, LPORT_STAT_CLASS, 1, 0, 1, .any⟩,
  ⟨.rwa, LPORT_STAT_PERIOD_S, 1, 0, 1, .any⟩,
  ⟨.rwa, LPORT_TX_ICG, 1, 0, 1, .any⟩,
  ⟨.rwa, LPORT_RATE, 1, 0, 1, .zeroOr 100 1250000000⟩,
  ⟨.rwa, LPORT_BURST, 1, 0, 1, .any⟩,
  ⟨.rwa, LPORT_GAP_US, 1, 0, 1, .any⟩,
  ⟨.rwa, LPORT_TX_MAX, 1, 0, 1, .range 11 2040⟩,
  ⟨.rwa, LPORT_NEWEST_MS, 1, 0, 1, .any⟩,
  ⟨.rwa, LPORT_TX_DELAY_NS, 1, 0, 1, .range 0 1000000⟩,
  ⟨.rwa, LPORT_SRC_NAME, 4, 4, 1, .any⟩,
  ⟨.ro, LPORT_DEPTH_ALL, 1, 0, 1, .any⟩,
  ⟨.ro, LPORT_TOKENS, 1, 0, 1, .any⟩,
  ⟨.ro, LPORT_BP, 1, 0, 1, .any⟩,
  ⟨.ro, LPORT_FLUSHING, 1, 0, 1, .any⟩]
/-- Every field row of lport. -/
def rows_LPORT : List Row := rows_LPORT_0

/-- Rows of LARD, part 0. -/
def rows_LARD_0 : List Row := [
  ⟨.ro, LARD_CELLS_USED, 1, 0, 1, .any⟩,
  ⟨.rwa, LARD_SPILL_HI, 1, 0, 1, .any⟩,
  ⟨.rwa, LARD_SPILL_LO, 1, 0, 1, .any⟩,
  ⟨.rwa, LARD_RESERVE, 1, 0, 1, .any⟩,
  ⟨.ro, LARD_TALLY_USED, 1, 0, 1, .any⟩,
  ⟨.ro, LARD_SPILLING, 1, 0, 1, .any⟩,
  ⟨.ro, LARD_SPILL_FULL, 1, 0, 1, .any⟩,
  ⟨.ro, LARD_RESERVE_ACT, 1, 0, 1, .any⟩,
  ⟨.rwa, LARD_FETCH_AHEAD, 1, 0, 1, .range 1 15⟩,
  ⟨.wo, LARD_SNAP, 1, 0, 1, .any⟩,
  ⟨.wo, LARD_CLEAR, 1, 0, 1, .any⟩]
/-- Every field row of LARD. -/
def rows_LARD : List Row := rows_LARD_0

/-- Rows of BELL, part 0. -/
def rows_BELL_0 : List Row := [
  ⟨.rwa, BELL_POLICY, 8, 4, 1, .any⟩,
  ⟨.rwa, BELL_LATE_PCT, 8, 4, 1, .any⟩,
  ⟨.rwa, BELL_BP_EN, 8, 4, 1, .any⟩,
  ⟨.rwa, BELL_STAT_MNEM, 1, 0, 1, .any⟩,
  ⟨.rwa, BELL_STAT_MV, 1, 0, 1, .any⟩,
  ⟨.wo, BELL_INDEX, 1, 0, 1, .any⟩,
  ⟨.wo, BELL_GO, 1, 0, 1, .any⟩,
  ⟨.ro, BELL_ERR_INDEX, 1, 0, 1, .any⟩,
  ⟨.ro, BELL_ERR_V, 1, 0, 1, .any⟩,
  ⟨.wo, BELL_C_INDEX, 1, 0, 1, .any⟩,
  ⟨.wo, BELL_QSNAP, 1, 0, 1, .any⟩,
  ⟨.wo, BELL_QCLEAR, 1, 0, 1, .any⟩,
  ⟨.wo, BELL_FSNAP, 1, 0, 1, .any⟩,
  ⟨.wo, BELL_FCLEAR, 1, 0, 1, .any⟩,
  ⟨.wo, BELL_ALL, 1, 0, 1, .any⟩,
  ⟨.wo, BELL_SNAP, 1, 0, 1, .any⟩,
  ⟨.wo, BELL_CLEAR, 1, 0, 1, .any⟩,
  ⟨.ro, BELL_BP_LAST_PORT, 1, 0, 1, .any⟩,
  ⟨.ro, BELL_BP_LAST_CLASS, 1, 0, 1, .any⟩,
  ⟨.ro, BELL_BP_LAST_ON, 1, 0, 1, .any⟩,
  ⟨.ro, BELL_KEYIDX_USED, 1, 0, 1, .any⟩]
/-- Every field row of BELL. -/
def rows_BELL : List Row := rows_BELL_0

/-- Rows of TIME, part 0. -/
def rows_TIME_0 : List Row := [
  ⟨.ro, TIME_H_VALID, 1, 0, 1, .any⟩,
  ⟨.ro, TIME_H_SRC, 1, 0, 1, .any⟩,
  ⟨.ro, TIME_SEL_DOM, 1, 0, 1, .any⟩,
  ⟨.ro, TIME_SLEWING, 1, 0, 1, .any⟩,
  ⟨.ro, TIME_STATE_A, 1, 0, 1, .any⟩,
  ⟨.ro, TIME_STATE_B, 1, 0, 1, .any⟩,
  ⟨.ro, TIME_STEP_PEND, 1, 0, 1, .any⟩,
  ⟨.rwa, TIME_SEL_MODE, 1, 0, 1, .range 0 3⟩,
  ⟨.rwa, TIME_REVERT, 1, 0, 1, .any⟩,
  ⟨.rwa, TIME_REVERT_S, 1, 0, 1, .any⟩,
  ⟨.wo, TIME_SET_GO, 1, 0, 1, .any⟩,
  ⟨.wo, TIME_STEP_GO, 1, 0, 1, .any⟩,
  ⟨.wo, TIME_CAP, 1, 0, 1, .any⟩,
  ⟨.wo, TIME_SNAP, 1, 0, 1, .any⟩,
  ⟨.wo, TIME_CLEAR, 1, 0, 1, .any⟩,
  ⟨.rwa, TIME_SLEW_PPB, 1, 0, 1, .range 100 100000⟩,
  ⟨.rwa, TIME_SWITCH_MAX_NS, 1, 0, 1, .any⟩,
  ⟨.rwa, TIME_SYNC_US, 1, 0, 1, .range 125 10000⟩,
  ⟨.rw, TIME_SET_S, 1, 0, 1, .any⟩,
  ⟨.rw, TIME_SET_NS, 1, 0, 1, .range 0 999999999⟩,
  ⟨.rw, TIME_STEP_S, 1, 0, 1, .any⟩,
  ⟨.rw, TIME_STEP_NS, 1, 0, 1, .signed (-999999999) 999999999⟩,
  ⟨.rwa, TIME_UTC_OFS, 1, 0, 1, .range 0 1000⟩,
  ⟨.rwa, TIME_UTC_V, 1, 0, 1, .any⟩,
  ⟨.rwa, TIME_LEAP_V, 1, 0, 1, .any⟩,
  ⟨.rwa, TIME_LEAP_OFS, 1, 0, 1, .range 0 1000⟩,
  ⟨.rwa, TIME_LEAP_S, 1, 0, 1, .any⟩,
  ⟨.rwa, TIME_DOM_SRC, 2, 64, 1, .range 0 3⟩,
  ⟨.rwa, TIME_DOM_TC, 2, 64, 1, .any⟩,
  ⟨.wo, TIME_DOM_DRESET, 2, 64, 1, .any⟩,
  ⟨.rwa, TIME_DOM_MISS_MS, 2, 64, 1, .range 10 60000⟩,
  ⟨.rwa, TIME_DOM_LOCK_NS, 2, 64, 1, .range 1 1000000⟩,
  ⟨.rwa, TIME_DOM_ALARM_NS, 2, 64, 1, .range 2 10000000⟩,
  ⟨.w1s, TIME_DOM_NEXT_V, 2, 64, 1, .any⟩,
  ⟨.rw, TIME_DOM_NEXT_S, 2, 64, 1, .any⟩,
  ⟨.rw, TIME_DOM_SMP_S, 2, 64, 1, .any⟩,
  ⟨.rw, TIME_DOM_SMP_NS, 2, 64, 1, .range 0 999999999⟩,
  ⟨.rw, TIME_DOM_SMP_OFS, 2, 64, 1, .any⟩,
  ⟨.rw, TIME_DOM_SMP_FRAC, 2, 64, 1, .any⟩,
  ⟨.wo, TIME_DOM_SMP_GO, 2, 64, 1, .any⟩]
/-- Rows of TIME, part 1. -/
def rows_TIME_1 : List Row := [
  ⟨.ro, TIME_DOM_OFS, 2, 64, 1, .any⟩,
  ⟨.ro, TIME_DOM_RATE, 2, 64, 1, .any⟩,
  ⟨.rwa, TIME_PPSI_EN, 2, 32, 1, .any⟩,
  ⟨.rwa, TIME_PPSI_FALL, 2, 32, 1, .any⟩,
  ⟨.rwa, TIME_PPSI_CABLE_NS, 2, 32, 1, .range 0 1000000⟩,
  ⟨.ro, TIME_PPSI_LAST_S, 2, 32, 1, .any⟩,
  ⟨.ro, TIME_PPSI_LAST_NS, 2, 32, 1, .any⟩,
  ⟨.ro, TIME_PPSI_LAST_FRAC, 2, 32, 1, .any⟩,
  ⟨.rwa, TIME_PPSO_EN, 2, 32, 1, .any⟩,
  ⟨.rwa, TIME_PPSO_POL, 2, 32, 1, .any⟩,
  ⟨.rwa, TIME_PPSO_SRC, 2, 32, 1, .range 0 2⟩,
  ⟨.rwa, TIME_PPSO_GATE, 2, 32, 1, .range 0 2⟩,
  ⟨.rwa, TIME_PPSO_PERIOD_NS, 2, 32, 1, .range 1000 1000000000⟩,
  ⟨.rwa, TIME_PPSO_WIDTH_NS, 2, 32, 1, .any⟩,
  ⟨.rwa, TIME_PPSO_ADV_NS, 2, 32, 1, .signed (-1000000) 1000000⟩,
  ⟨.rwa, TIME_ETH_ASYM, 2, 4, 1, .signed (-1000000) 1000000⟩,
  ⟨.rwa, TIME_HOP_ASYM, 4, 4, 1, .signed (-100000) 100000⟩,
  ⟨.ro, TIME_CAP_S, 1, 0, 1, .any⟩,
  ⟨.ro, TIME_CAP_NS, 1, 0, 1, .any⟩,
  ⟨.ro, TIME_CAP_FRAC, 1, 0, 1, .any⟩,
  ⟨.ro, TIME_CAP_DOM, 1, 0, 1, .any⟩,
  ⟨.ro, TIME_CAP_OFS_A, 1, 0, 1, .any⟩,
  ⟨.ro, TIME_CAP_OFS_B, 1, 0, 1, .any⟩]
/-- Every field row of TIME. -/
def rows_TIME : List Row := rows_TIME_0 ++ rows_TIME_1

/-- Rows of AXIS, part 0. -/
def rows_AXIS_0 : List Row := [
  ⟨.wo, AXIS_CAP, 1, 0, 1, .any⟩,
  ⟨.wo, AXIS_SNAP, 1, 0, 1, .any⟩,
  ⟨.wo, AXIS_CLEAR, 1, 0, 1, .any⟩,
  ⟨.ro, AXIS_CAP_S, 1, 0, 1, .any⟩,
  ⟨.ro, AXIS_CAP_NS, 1, 0, 1, .any⟩,
  ⟨.rwa, AXIS_ENC_MODE, 8, 16, 1, .any⟩,
  ⟨.rwa, AXIS_ENC_INV, 8, 16, 1, .any⟩,
  ⟨.rwa, AXIS_ENC_Z_MODE, 8, 16, 1, .any⟩,
  ⟨.rwa, AXIS_ENC_Z_CORR, 8, 16, 1, .any⟩,
  ⟨.rwa, AXIS_ENC_FILT, 8, 16, 1, .any⟩,
  ⟨.rwa, AXIS_ENC_Z_TOL, 8, 16, 1, .any⟩,
  ⟨.ro, AXIS_ENC_HOMED, 8, 16, 1, .any⟩,
  ⟨.ro, AXIS_ENC_ERR, 8, 16, 1, .any⟩,
  ⟨.ro, AXIS_ENC_CAP_COUNT, 8, 16, 1, .any⟩,
  ⟨.rwa, AXIS_AX_SRC, 14, 64, 1, .range 0 2⟩,
  ⟨.rwa, AXIS_AX_ENC, 14, 64, 1, .any⟩,
  ⟨.rwa, AXIS_AX_LEAF, 14, 64, 1, .any⟩,
  ⟨.rwa, AXIS_AX_VEL_N, 14, 64, 1, .range 0 6⟩,
  ⟨.rwa, AXIS_AX_CLAMP_CNT, 14, 64, 1, .range 1 255⟩,
  ⟨.rwa, AXIS_AX_COUNTS, 14, 64, 1, .zeroOr 4 16777215⟩,
  ⟨.rwa, AXIS_AX_EDGE_DEC, 14, 64, 1, .any⟩,
  ⟨.rwa, AXIS_AX_STILL_MS, 14, 64, 1, .range 1 65535⟩,
  ⟨.rwa, AXIS_AX_TX_US, 14, 64, 1, .zeroOr 10 10000⟩,
  ⟨.rwa, AXIS_AX_ZERO_OFS, 14, 64, 1, .any⟩,
  ⟨.ro, AXIS_AX_STATE, 14, 64, 1, .any⟩,
  ⟨.ro, AXIS_AX_CAP_POS, 14, 64, 1, .any⟩,
  ⟨.ro, AXIS_AX_CAP_VEL, 14, 64, 1, .any⟩]
/-- Every field row of AXIS. -/
def rows_AXIS : List Row := rows_AXIS_0

/-- Rows of slot, part 0. -/
def rows_SLOT_0 : List Row := [
  ⟨.rw, SLOT_ARM, 1, 0, 1, .any⟩,
  ⟨.rw, SLOT_AXIS, 1, 0, 1, .any⟩,
  ⟨.rw, SLOT_DIR, 1, 0, 1, .range 0 2⟩,
  ⟨.rw, SLOT_LATE_SKIP, 1, 0, 1, .any⟩,
  ⟨.rw, SLOT_TO_TONGS, 1, 0, 1, .any⟩,
  ⟨.rw, SLOT_TO_HOST, 1, 0, 1, .any⟩,
  ⟨.rw, SLOT_COUNT, 1, 0, 1, .any⟩,
  ⟨.rw, SLOT_TARGET, 1, 0, 1, .any⟩,
  ⟨.rw, SLOT_PERIOD, 1, 0, 1, .any⟩,
  ⟨.ro, SLOT_ARMED, 1, 0, 1, .any⟩,
  ⟨.ro, SLOT_LEFT, 1, 0, 1, .any⟩]
/-- Every field row of slot. -/
def rows_SLOT : List Row := rows_SLOT_0

/-- Rows of slotStat, part 0. -/
def rows_SLOTSTAT_0 : List Row := [
  ⟨.ro, SLOTSTAT_LAST_S, 1, 0, 1, .any⟩,
  ⟨.ro, SLOTSTAT_LAST_NS, 1, 0, 1, .any⟩,
  ⟨.ro, SLOTSTAT_FIRES, 1, 0, 1, .any⟩,
  ⟨.ro, SLOTSTAT_LAST_POS, 1, 0, 1, .any⟩,
  ⟨.ro, SLOTSTAT_MISSED, 1, 0, 1, .any⟩]
/-- Every field row of slotStat. -/
def rows_SLOTSTAT : List Row := rows_SLOTSTAT_0

/-- Rows of portmap, part 0. -/
def rows_PORTMAP_0 : List Row := [
  ⟨.rwa, PORTMAP_VALID, 1, 0, 1, .any⟩,
  ⟨.rwa, PORTMAP_LEAF, 1, 0, 1, .any⟩,
  ⟨.rwa, PORTMAP_LPORT, 1, 0, 1, .any⟩,
  ⟨.ro, PORTMAP_CFG_OK, 1, 0, 1, .any⟩,
  ⟨.ro, PORTMAP_CFG_FAIL, 1, 0, 1, .any⟩,
  ⟨.ro, PORTMAP_REACH_A, 1, 0, 1, .any⟩,
  ⟨.ro, PORTMAP_REACH_B, 1, 0, 1, .any⟩]
/-- Every field row of portmap. -/
def rows_PORTMAP : List Row := rows_PORTMAP_0

/-- Rows of mgroup, part 0. -/
def rows_MGROUP_0 : List Row := [
  ⟨.rwa, MGROUP_VALID, 1, 0, 1, .any⟩,
  ⟨.rwa, MGROUP_BASE, 1, 0, 1, .any⟩,
  ⟨.rwa, MGROUP_CNT, 1, 0, 1, .range 0 1984⟩,
  ⟨.ro, MGROUP_GEN, 1, 0, 1, .any⟩,
  ⟨.ro, MGROUP_PENDING, 1, 0, 1, .any⟩,
  ⟨.ro, MGROUP_MBANK, 1, 0, 1, .any⟩,
  ⟨.ro, MGROUP_SWITCHING, 1, 0, 1, .any⟩]
/-- Every field row of mgroup. -/
def rows_MGROUP : List Row := rows_MGROUP_0

/-- Rows of RINGP, part 0. -/
def rows_RINGP_0 : List Row := [
  ⟨.ro, RINGP_LSTATE, 1, 0, 1, .any⟩,
  ⟨.ro, RINGP_RATE, 1, 0, 1, .any⟩,
  ⟨.ro, RINGP_CAUSE, 1, 0, 1, .any⟩,
  ⟨.ro, RINGP_VER_MAJ, 1, 0, 1, .any⟩,
  ⟨.ro, RINGP_VER_MIN, 1, 0, 1, .any⟩,
  ⟨.ro, RINGP_PEER_ID, 1, 0, 1, .any⟩,
  ⟨.rwa, RINGP_RATE_CTL, 1, 0, 1, .range 0 2⟩,
  ⟨.rwa, RINGP_ADMIN_DOWN, 1, 0, 1, .any⟩,
  ⟨.wo, RINGP_RETRAIN, 1, 0, 1, .any⟩,
  ⟨.wo, RINGP_SNAP, 1, 0, 1, .any⟩,
  ⟨.wo, RINGP_CLEAR, 1, 0, 1, .any⟩,
  ⟨.ro, RINGP_HOP_NS, 1, 0, 1, .any⟩,
  ⟨.ro, RINGP_RTT_NS, 1, 0, 1, .any⟩,
  ⟨.ro, RINGP_REPLAY_US, 1, 0, 1, .any⟩,
  ⟨.ro, RINGP_TX_LSEQ, 1, 0, 1, .any⟩,
  ⟨.ro, RINGP_ACK_LSEQ, 1, 0, 1, .any⟩,
  ⟨.ro, RINGP_REPLAY_BYTES, 1, 0, 1, .any⟩,
  ⟨.ro, RINGP_CR_ITEM, 1, 0, 1, .any⟩,
  ⟨.ro, RINGP_CR_REQ, 1, 0, 1, .any⟩,
  ⟨.ro, RINGP_CR_CPL, 1, 0, 1, .any⟩]
/-- Every field row of RINGP. -/
def rows_RINGP : List Row := rows_RINGP_0

/-- Rows of RING, part 0. -/
def rows_RING_0 : List Row := [
  ⟨.ro, RING_EPOCH, 1, 0, 1, .any⟩,
  ⟨.ro, RING_EPOCH_OTHER, 1, 0, 1, .any⟩,
  ⟨.ro, RING_WRAP_A, 1, 0, 1, .any⟩,
  ⟨.ro, RING_WRAP_B, 1, 0, 1, .any⟩,
  ⟨.ro, RING_LEAVES_A, 1, 0, 1, .any⟩,
  ⟨.ro, RING_LEAVES_B, 1, 0, 1, .any⟩,
  ⟨.rwa, RING_TOPO_MS, 1, 0, 1, .range 10 1000⟩,
  ⟨.rwa, RING_CPL_TO_US, 1, 0, 1, .range 50 100000⟩,
  ⟨.ro, RING_TAGS_USED, 1, 0, 1, .any⟩,
  ⟨.wo, RING_INDEX, 1, 0, 1, .any⟩,
  ⟨.wo, RING_GO, 1, 0, 1, .any⟩,
  ⟨.ro, RING_ERR_INDEX, 1, 0, 1, .any⟩,
  ⟨.ro, RING_ERR_V, 1, 0, 1, .any⟩,
  ⟨.ro, RING_SIG_NODE, 1, 0, 1, .any⟩,
  ⟨.ro, RING_SIG_TYPE, 1, 0, 1, .any⟩,
  ⟨.ro, RING_SIG_CAUSE, 1, 0, 1, .any⟩,
  ⟨.wo, RING_SNAP, 1, 0, 1, .any⟩,
  ⟨.wo, RING_CLEAR, 1, 0, 1, .any⟩,
  ⟨.wo, RING_TOPO_GO, 1, 0, 1, .any⟩,
  ⟨.ro, RING_ERA, 1, 0, 1, .any⟩]
/-- Every field row of RING. -/
def rows_RING : List Row := rows_RING_0

/-- Rows of node, part 0. -/
def rows_NODE_0 : List Row := [
  ⟨.ro, NODE_ADM_A, 1, 0, 1, .any⟩,
  ⟨.ro, NODE_ADM_B, 1, 0, 1, .any⟩,
  ⟨.ro, NODE_SINGLE, 1, 0, 1, .any⟩,
  ⟨.ro, NODE_DUP_ID, 1, 0, 1, .any⟩,
  ⟨.ro, NODE_READY, 1, 0, 1, .any⟩,
  ⟨.ro, NODE_HUB, 1, 0, 1, .any⟩,
  ⟨.ro, NODE_LOST, 1, 0, 1, .any⟩,
  ⟨.ro, NODE_VER_MAJ, 1, 0, 1, .any⟩,
  ⟨.ro, NODE_VER_MIN, 1, 0, 1, .any⟩,
  ⟨.ro, NODE_INCARN, 1, 0, 1, .any⟩,
  ⟨.ro, NODE_POS_A, 1, 0, 1, .any⟩,
  ⟨.ro, NODE_POS_B, 1, 0, 1, .any⟩,
  ⟨.ro, NODE_IN_DIR_A, 1, 0, 1, .any⟩,
  ⟨.ro, NODE_IN_DIR_B, 1, 0, 1, .any⟩,
  ⟨.ro, NODE_TIME_RING, 1, 0, 1, .any⟩,
  ⟨.ro, NODE_TIME_DIR, 1, 0, 1, .any⟩,
  ⟨.ro, NODE_IN_NS_A, 1, 0, 1, .any⟩,
  ⟨.ro, NODE_IN_NS_B, 1, 0, 1, .any⟩,
  ⟨.ro, NODE_OUT_NS_A, 1, 0, 1, .any⟩,
  ⟨.ro, NODE_OUT_NS_B, 1, 0, 1, .any⟩,
  ⟨.ro, NODE_LINK_NS, 1, 0, 1, .any⟩,
  ⟨.ro, NODE_RESID, 1, 0, 1, .any⟩]
/-- Every field row of node. -/
def rows_NODE : List Row := rows_NODE_0

/-- Rows of TWIN, part 0. -/
def rows_TWIN_0 : List Row := [
  ⟨.ro, TWIN_ROLE, 1, 0, 1, .any⟩,
  ⟨.ro, TWIN_TSTATE, 1, 0, 1, .any⟩,
  ⟨.ro, TWIN_FIRST, 1, 0, 1, .any⟩,
  ⟨.ro, TWIN_HOLD_BUS, 1, 0, 1, .any⟩,
  ⟨.ro, TWIN_PATHS, 1, 0, 1, .any⟩,
  ⟨.ro, TWIN_LANES, 1, 0, 1, .any⟩,
  ⟨.ro, TWIN_PEER_ROLE, 1, 0, 1, .any⟩,
  ⟨.ro, TWIN_HEALTH, 1, 0, 1, .any⟩,
  ⟨.ro, TWIN_PEER_HEALTH, 1, 0, 1, .any⟩,
  ⟨.ro, TWIN_PEER_MAJ, 1, 0, 1, .any⟩,
  ⟨.ro, TWIN_PEER_MIN, 1, 0, 1, .any⟩,
  ⟨.ro, TWIN_PEER_BUILD, 1, 0, 1, .any⟩,
  ⟨.ro, TWIN_LPOS_TX, 1, 0, 1, .any⟩,
  ⟨.ro, TWIN_LPOS_ACK, 1, 0, 1, .any⟩,
  ⟨.ro, TWIN_LOG_LAG_US, 1, 0, 1, .any⟩,
  ⟨.ro, TWIN_ACK_LEAVES, 1, 0, 1, .any⟩,
  ⟨.rwa, TWIN_EXPECT_LEAVES, 1, 0, 1, .range 0 250⟩,
  ⟨.wo, TWIN_HANDOVER, 1, 0, 1, .any⟩,
  ⟨.wo, TWIN_REJOIN, 1, 0, 1, .any⟩,
  ⟨.wo, TWIN_SEAL, 1, 0, 1, .any⟩,
  ⟨.wo, TWIN_FORCE_ACTIVE, 1, 0, 1, .any⟩,
  ⟨.wo, TWIN_SNAP, 1, 0, 1, .any⟩,
  ⟨.wo, TWIN_CLEAR, 1, 0, 1, .any⟩,
  ⟨.rwa, TWIN_PATH_TO_US, 1, 0, 1, .range 300 800⟩,
  ⟨.rwa, TWIN_LOG_TO_US, 1, 0, 1, .range 100 800⟩,
  ⟨.rwa, TWIN_DRAIN_MS, 1, 0, 1, .range 100 60000⟩,
  ⟨.rwa, TWIN_AUTO_REJOIN, 1, 0, 1, .any⟩,
  ⟨.rwa, TWIN_RELQ_MASK, 1, 0, 1, .any⟩,
  ⟨.rwa, TWIN_NGATO_ASYM, 1, 0, 1, .signed (-100000) 100000⟩,
  ⟨.ro, TWIN_TKO_CAUSE, 1, 0, 1, .any⟩,
  ⟨.ro, TWIN_SEAL_CAUSE, 1, 0, 1, .any⟩,
  ⟨.ro, TWIN_TKO_LPOS, 1, 0, 1, .any⟩,
  ⟨.ro, TWIN_TKO_S, 1, 0, 1, .any⟩,
  ⟨.ro, TWIN_TKO_NS, 1, 0, 1, .any⟩]
/-- Every field row of TWIN. -/
def rows_TWIN : List Row := rows_TWIN_0

/-- Rows of CAN, part 0. -/
def rows_CAN_0 : List Row := [
  ⟨.wo, CAN_Q_SUBMIT, 16, 96, 1, .any⟩,
  ⟨.wo, CAN_Q_CANCEL, 16, 96, 1, .any⟩,
  ⟨.wo, CAN_Q_ACK, 16, 96, 1, .any⟩,
  ⟨.rw, CAN_Q_ONESHOT, 16, 96, 1, .any⟩,
  ⟨.rw, CAN_Q_FDF, 16, 96, 1, .any⟩,
  ⟨.rw, CAN_Q_BRS, 16, 96, 1, .any⟩,
  ⟨.rw, CAN_Q_RTR, 16, 96, 1, .any⟩,
  ⟨.rw, CAN_Q_IDE, 16, 96, 1, .any⟩,
  ⟨.rw, CAN_Q_DLC, 16, 96, 1, .any⟩,
  ⟨.ro, CAN_Q_STATE, 16, 96, 1, .any⟩,
  ⟨.ro, CAN_Q_RESULT, 16, 96, 1, .any⟩,
  ⟨.ro, CAN_Q_CRES, 16, 96, 1, .any⟩,
  ⟨.ro, CAN_Q_ATTEMPTS, 16, 96, 1, .any⟩,
  ⟨.rw, CAN_Q_ID, 16, 96, 1, .any⟩,
  ⟨.ro, CAN_Q_TX_S, 16, 96, 1, .any⟩,
  ⟨.ro, CAN_Q_TX_NS, 16, 96, 1, .any⟩,
  ⟨.rw, CAN_Q_DATA, 16, 96, 16, .any⟩,
  ⟨.rwa, CAN_MODE, 1, 0, 1, .any⟩,
  ⟨.rwa, CAN_FD_EN, 1, 0, 1, .any⟩,
  ⟨.rwa, CAN_PROT_EXC, 1, 0, 1, .any⟩,
  ⟨.rwa, CAN_BO_AUTO, 1, 0, 1, .any⟩,
  ⟨.rwa, CAN_SNOOP, 1, 0, 1, .any⟩,
  ⟨.rwa, CAN_TDC_EN, 1, 0, 1, .any⟩,
  ⟨.wo, CAN_RECOVER, 1, 0, 1, .any⟩,
  ⟨.rwa, CAN_WAKE_MODE, 1, 0, 1, .range 0 2⟩,
  ⟨.rwa, CAN_NBRP, 1, 0, 1, .any⟩,
  ⟨.rwa, CAN_NTSEG1, 1, 0, 1, .any⟩,
  ⟨.rwa, CAN_NTSEG2, 1, 0, 1, .any⟩,
  ⟨.rwa, CAN_NSJW, 1, 0, 1, .any⟩,
  ⟨.rwa, CAN_DBRP, 1, 0, 1, .any⟩,
  ⟨.rwa, CAN_DTSEG1, 1, 0, 1, .any⟩,
  ⟨.rwa, CAN_DTSEG2, 1, 0, 1, .any⟩,
  ⟨.rwa, CAN_DSJW, 1, 0, 1, .any⟩,
  ⟨.rwa, CAN_TDCO, 1, 0, 1, .any⟩,
  ⟨.ro, CAN_TDC_MEAS, 1, 0, 1, .any⟩,
  ⟨.ro, CAN_ESTATE, 1, 0, 1, .any⟩,
  ⟨.ro, CAN_EFF_MON, 1, 0, 1, .any⟩,
  ⟨.ro, CAN_ASLEEP, 1, 0, 1, .any⟩,
  ⟨.ro, CAN_TEC, 1, 0, 1, .any⟩,
  ⟨.ro, CAN_REC, 1, 0, 1, .any⟩]
/-- Rows of CAN, part 1. -/
def rows_CAN_1 : List Row := [
  ⟨.rwa, CAN_WUF_ID, 1, 0, 1, .any⟩,
  ⟨.rwa, CAN_WUF_IDE, 1, 0, 1, .any⟩,
  ⟨.rwa, CAN_WUF_MASK, 1, 0, 1, .any⟩,
  ⟨.rwa, CAN_WUF_DLC, 1, 0, 1, .range 0 8⟩,
  ⟨.rwa, CAN_WAKE_FILT_US, 1, 0, 1, .any⟩,
  ⟨.rwa, CAN_WUF_DATA, 1, 0, 1, .any⟩,
  ⟨.rwa, CAN_TX_VN, 1, 0, 1, .any⟩,
  ⟨.rwa, CAN_SA_REPL, 1, 0, 1, .any⟩,
  ⟨.ro, CAN_CLASH_ID, 1, 0, 1, .any⟩,
  ⟨.wo, CAN_SNAP, 1, 0, 1, .any⟩,
  ⟨.wo, CAN_CLEAR, 1, 0, 1, .any⟩,
  ⟨.rwa, CAN_NAME, 8, 16, 1, .any⟩,
  ⟨.rwa, CAN_PREF_SA, 8, 16, 1, .range 0 253⟩,
  ⟨.rwa, CAN_VN_EN, 8, 16, 1, .any⟩,
  ⟨.ro, CAN_CUR_SA, 8, 16, 1, .any⟩,
  ⟨.ro, CAN_VSTATE, 8, 16, 1, .any⟩]
/-- Every field row of CAN. -/
def rows_CAN : List Row := rows_CAN_0 ++ rows_CAN_1

/-- Rows of CAN0, part 0. -/
def rows_CAN0_0 : List Row := [
  ⟨.rwa, CAN_FP_TO_MS, 1, 0, 1, .range 100 5000⟩,
  ⟨.rwa, CAN_BAM_GAP_MS, 1, 0, 1, .range 50 200⟩,
  ⟨.wo, CAN_FPORT, 1, 0, 1, .any⟩,
  ⟨.wo, CAN_FSNAP, 1, 0, 1, .any⟩,
  ⟨.wo, CAN_FCLEAR, 1, 0, 1, .any⟩,
  ⟨.wo, CAN_FALL, 1, 0, 1, .any⟩,
  ⟨.rwa, CAN_FP_PGN, 32, 4, 1, .any⟩,
  ⟨.rwa, CAN_FP_V, 32, 4, 1, .any⟩]
/-- Every field row of CAN0. -/
def rows_CAN0 : List Row := rows_CAN0_0

/-- Rows of ETH, part 0. -/
def rows_ETH_0 : List Row := [
  ⟨.rwa, ETH_MODE, 1, 0, 1, .any⟩,
  ⟨.rwa, ETH_AN_EN, 1, 0, 1, .any⟩,
  ⟨.rwa, ETH_PAUSE_RX, 1, 0, 1, .any⟩,
  ⟨.rwa, ETH_VLAN_EN, 1, 0, 1, .any⟩,
  ⟨.rwa, ETH_MACSEC_EN, 1, 0, 1, .any⟩,
  ⟨.rwa, ETH_RAW_OTHER, 1, 0, 1, .any⟩,
  ⟨.rwa, ETH_REQ_S, 1, 0, 1, .any⟩,
  ⟨.rwa, ETH_IGMP_EN, 1, 0, 1, .any⟩,
  ⟨.ro, ETH_LINK, 1, 0, 1, .any⟩,
  ⟨.ro, ETH_SPEED, 1, 0, 1, .any⟩,
  ⟨.ro, ETH_AN_DONE, 1, 0, 1, .any⟩,
  ⟨.rwa, ETH_MAC_ADDR, 1, 0, 1, .any⟩,
  ⟨.rwa, ETH_IP_ADDR, 1, 0, 1, .any⟩,
  ⟨.rwa, ETH_TTL, 1, 0, 1, .range 1 255⟩,
  ⟨.rwa, ETH_DSCP, 1, 0, 1, .any⟩,
  ⟨.rwa, ETH_UDP_SRC, 1, 0, 1, .any⟩,
  ⟨.rwa, ETH_MAX_FRAME, 1, 0, 1, .range 1518 9216⟩,
  ⟨.rwa, ETH_VLAN_ID, 1, 0, 1, .any⟩,
  ⟨.rwa, ETH_DG_PORT, 1, 0, 1, .any⟩,
  ⟨.rwa, ETH_PHY_RX_NS, 1, 0, 1, .any⟩,
  ⟨.rwa, ETH_PHY_TX_NS, 1, 0, 1, .any⟩,
  ⟨.rwa, ETH_RX_GRP, 1, 0, 1, .any⟩,
  ⟨.rwa, ETH_DEF_GRP, 1, 0, 1, .any⟩,
  ⟨.wo, ETH_SNAP, 1, 0, 1, .any⟩,
  ⟨.wo, ETH_CLEAR, 1, 0, 1, .any⟩,
  ⟨.rwa, ETH_CIPHER, 1, 0, 1, .range 0 1⟩,
  ⟨.rwa, ETH_VALIDATE, 1, 0, 1, .range 0 2⟩,
  ⟨.rwa, ETH_CONF, 1, 0, 1, .any⟩,
  ⟨.rwa, ETH_TX_AN, 1, 0, 1, .any⟩,
  ⟨.rwa, ETH_REPLAY_WIN, 1, 0, 1, .any⟩,
  ⟨.rwa, ETH_TX_SCI, 1, 0, 1, .any⟩,
  ⟨.rwa, ETH_TX_KEY, 1, 0, 1, .any⟩,
  ⟨.rw, ETH_TX_PN, 1, 0, 1, .any⟩,
  ⟨.rwa, ETH_RX_SCI, 8, 16, 1, .any⟩,
  ⟨.rwa, ETH_RX_KEY, 8, 16, 1, .any⟩,
  ⟨.rwa, ETH_RX_V, 8, 16, 1, .any⟩,
  ⟨.rwa, ETH_GNAME, 32, 16, 1, .any⟩,
  ⟨.rwa, ETH_GADDR, 32, 16, 1, .any⟩,
  ⟨.rwa, ETH_GPORT, 32, 16, 1, .any⟩,
  ⟨.rwa, ETH_GVALID, 32, 16, 1, .any⟩]
/-- Rows of ETH, part 1. -/
def rows_ETH_1 : List Row := [
  ⟨.rwa, ETH_EFLOW, 32, 8, 1, .any⟩,
  ⟨.rwa, ETH_EMASK, 32, 8, 1, .any⟩,
  ⟨.rwa, ETH_EVALID, 32, 8, 1, .any⟩,
  ⟨.rwa, ETH_EGRP, 32, 8, 1, .any⟩]
/-- Every field row of ETH. -/
def rows_ETH : List Row := rows_ETH_0 ++ rows_ETH_1

/-- Rows of TONG, part 0. -/
def rows_TONG_0 : List Row := [
  ⟨.rwa, TONG_DIV, 1, 0, 1, .range 65536 4294967295⟩,
  ⟨.rwa, TONG_PIN_BASE, 1, 0, 1, .any⟩,
  ⟨.rwa, TONG_PIN_CNT, 1, 0, 1, .range 1 32⟩,
  ⟨.rwa, TONG_SCLK_LINE, 1, 0, 1, .any⟩,
  ⟨.rwa, TONG_SDO_LINE, 1, 0, 1, .any⟩,
  ⟨.rwa, TONG_SDI_LINE, 1, 0, 1, .any⟩,
  ⟨.rwa, TONG_STBY_RUN, 1, 0, 1, .any⟩,
  ⟨.rwa, TONG_ENTRY, 1, 0, 1, .any⟩,
  ⟨.rwa, TONG_LO, 1, 0, 1, .any⟩,
  ⟨.rwa, TONG_HI, 1, 0, 1, .any⟩,
  ⟨.rwa, TONG_PROG_NEXT, 1, 0, 1, .any⟩,
  ⟨.rwa, TONG_TX_LIMIT, 1, 0, 1, .range 1 1024⟩,
  ⟨.wo, TONG_SNAP, 1, 0, 1, .any⟩,
  ⟨.wo, TONG_CLEAR, 1, 0, 1, .any⟩,
  ⟨.ro, TONG_PC, 1, 0, 1, .any⟩,
  ⟨.ro, TONG_BANK, 1, 0, 1, .any⟩,
  ⟨.ro, TONG_STALL, 1, 0, 1, .any⟩,
  ⟨.ro, TONG_SHIFTING, 1, 0, 1, .any⟩,
  ⟨.ro, TONG_SR_CNT, 1, 0, 1, .any⟩,
  ⟨.ro, TONG_LAST_OP, 1, 0, 1, .any⟩,
  ⟨.ro, TONG_ST, 1, 0, 1, .any⟩,
  ⟨.ro, TONG_FAULT, 1, 0, 1, .any⟩,
  ⟨.ro, TONG_HELD, 1, 0, 1, .any⟩,
  ⟨.ro, TONG_CAND_OPEN, 1, 0, 1, .any⟩,
  ⟨.ro, TONG_LASTF, 1, 0, 1, .any⟩,
  ⟨.ro, TONG_HOST_CODE, 1, 0, 1, .any⟩,
  ⟨.ro, TONG_W0, 1, 0, 1, .any⟩,
  ⟨.ro, TONG_W1, 1, 0, 1, .any⟩,
  ⟨.ro, TONG_W2, 1, 0, 1, .any⟩,
  ⟨.ro, TONG_W3, 1, 0, 1, .any⟩,
  ⟨.ro, TONG_TMR, 1, 0, 1, .any⟩,
  ⟨.ro, TONG_TX_LVL, 1, 0, 1, .any⟩,
  ⟨.ro, TONG_RX_LVL, 1, 0, 1, .any⟩,
  ⟨.rwa, TONG_LUT, 64, 4, 1, .any⟩]
/-- Every field row of TONG. -/
def rows_TONG : List Row := rows_TONG_0

/-- Rows of TONG0, part 0. -/
def rows_TONG0_0 : List Row := [
  ⟨.wo, TONG_GRP_EN_SET, 1, 0, 1, .any⟩,
  ⟨.wo, TONG_GRP_EN_CLR, 1, 0, 1, .any⟩,
  ⟨.wo, TONG_GRP_CLKRST, 1, 0, 1, .any⟩,
  ⟨.rw, TONG_GS_MASK, 1, 0, 1, .any⟩,
  ⟨.rw, TONG_GS_SLOT, 1, 0, 1, .any⟩,
  ⟨.rw, TONG_GS_ARM, 1, 0, 1, .any⟩,
  ⟨.rw, TONG_FLAGS, 1, 0, 1, .any⟩,
  ⟨.rwa, TONG_LN_OWNER, 64, 4, 1, .any⟩,
  ⟨.rwa, TONG_LN_OUT_OK, 64, 4, 1, .any⟩,
  ⟨.rwa, TONG_LN_INV_IN, 64, 4, 1, .any⟩,
  ⟨.rwa, TONG_LN_INV_OUT, 64, 4, 1, .any⟩,
  ⟨.rwa, TONG_LN_STBY_DRIVE, 64, 4, 1, .any⟩,
  ⟨.rwa, TONG_LN_FILT, 64, 4, 1, .any⟩,
  ⟨.ro, TONG_LN_IN, 64, 4, 1, .any⟩,
  ⟨.ro, TONG_LN_OUT, 64, 4, 1, .any⟩,
  ⟨.ro, TONG_LN_DRIVING, 64, 4, 1, .any⟩]
/-- Every field row of TONG0. -/
def rows_TONG0 : List Row := rows_TONG0_0

/-- Rows of TONGS, part 0. -/
def rows_TONGS_0 : List Row := [
  ⟨.ro, TONGS_LIVE_BANK, 1, 0, 1, .any⟩,
  ⟨.ro, TONGS_WAITING, 1, 0, 1, .any⟩,
  ⟨.wo, TONGS_FORCE, 1, 0, 1, .any⟩,
  ⟨.rwa, TONGS_SWAP_TO_US, 1, 0, 1, .any⟩,
  ⟨.rwa, TONGS_AUTO_FORCE, 1, 0, 1, .any⟩,
  ⟨.wo, TONGS_SNAP, 1, 0, 1, .any⟩,
  ⟨.wo, TONGS_CLEAR, 1, 0, 1, .any⟩,
  ⟨.rwa, TONGS_SHADOW, 64, 4, 1, .any⟩,
  ⟨.ro, TONGS_LIVE, 64, 4, 1, .any⟩]
/-- Every field row of TONGS. -/
def rows_TONGS : List Row := rows_TONGS_0

/-- Rows of fifo, part 0. -/
def rows_FIFO_0 : List Row := [
  ⟨.ro, FIFO_RX_LEVEL, 1, 0, 1, .any⟩,
  ⟨.ro, FIFO_RX_EMPTY, 1, 0, 1, .any⟩,
  ⟨.ro, FIFO_RX_FULL, 1, 0, 1, .any⟩,
  ⟨.w1c, FIFO_RX_OVERRUN, 1, 0, 1, .any⟩,
  ⟨.w1c, FIFO_RX_UNDERRUN, 1, 0, 1, .any⟩,
  ⟨.w1c, FIFO_RX_PARERR, 1, 0, 1, .any⟩,
  ⟨.wo, FIFO_RX_FLUSH, 1, 0, 1, .any⟩,
  ⟨.ro, FIFO_RX_DEPTH, 1, 0, 1, .any⟩,
  ⟨.ro, FIFO_TX_LEVEL, 1, 0, 1, .any⟩,
  ⟨.ro, FIFO_TX_EMPTY, 1, 0, 1, .any⟩,
  ⟨.ro, FIFO_TX_FULL, 1, 0, 1, .any⟩,
  ⟨.w1c, FIFO_TX_OVERRUN, 1, 0, 1, .any⟩,
  ⟨.w1c, FIFO_TX_UNDERRUN, 1, 0, 1, .any⟩,
  ⟨.w1c, FIFO_TX_PARERR, 1, 0, 1, .any⟩,
  ⟨.wo, FIFO_TX_FLUSH, 1, 0, 1, .any⟩,
  ⟨.ro, FIFO_TX_DEPTH, 1, 0, 1, .any⟩,
  ⟨.wo, FIFO_FSNAP, 1, 0, 1, .any⟩,
  ⟨.wo, FIFO_FCLEAR, 1, 0, 1, .any⟩,
  ⟨.ro, FIFO_RX_FLUSHED, 1, 0, 1, .any⟩,
  ⟨.ro, FIFO_TX_FLUSHED, 1, 0, 1, .any⟩,
  ⟨.ro, FIFO_RX_FLUSHED_SNAP, 1, 0, 1, .any⟩,
  ⟨.ro, FIFO_TX_FLUSHED_SNAP, 1, 0, 1, .any⟩]
/-- Every field row of fifo. -/
def rows_FIFO : List Row := rows_FIFO_0

/-- Rows of CELL, part 0. -/
def rows_CELL_0 : List Row := [
  ⟨.rwa, CELL_PRESENT, 2, 4, 1, .any⟩,
  ⟨.rwa, CELL_DEV_W, 2, 4, 1, .range 0 1⟩,
  ⟨.rwa, CELL_DENS, 2, 4, 1, .range 0 2⟩,
  ⟨.rwa, CELL_RANKS2, 2, 4, 1, .any⟩,
  ⟨.rwa, CELL_REG, 2, 4, 1, .any⟩,
  ⟨.rwa, CELL_REFRESH_2X, 2, 4, 1, .any⟩,
  ⟨.ro, CELL_CH0_STATE, 1, 0, 1, .any⟩,
  ⟨.ro, CELL_CH0_CAUSE, 1, 0, 1, .any⟩,
  ⟨.ro, CELL_CH1_STATE, 1, 0, 1, .any⟩,
  ⟨.ro, CELL_CH1_CAUSE, 1, 0, 1, .any⟩,
  ⟨.wo, CELL_OOS0, 1, 0, 1, .any⟩,
  ⟨.wo, CELL_OOS1, 1, 0, 1, .any⟩,
  ⟨.rwa, CELL_SPILL_SZ, 1, 0, 1, .any⟩,
  ⟨.rwa, CELL_HOST_SZ, 1, 0, 1, .any⟩,
  ⟨.ro, CELL_CUR_SPILL, 1, 0, 1, .any⟩,
  ⟨.ro, CELL_CUR_JRNL, 1, 0, 1, .any⟩,
  ⟨.ro, CELL_MAP_ERR, 1, 0, 1, .any⟩,
  ⟨.rwa, CELL_SCRUB_H, 1, 0, 1, .range 1 168⟩,
  ⟨.rwa, CELL_CE_RETIRE, 1, 0, 1, .range 1 255⟩,
  ⟨.rwa, CELL_UE_LIMIT, 1, 0, 1, .range 1 65535⟩,
  ⟨.rw, CELL_WIN_BASE, 1, 0, 1, .any⟩,
  ⟨.rw, CELL_LVIEW_CELL, 1, 0, 1, .range 0 48896⟩,
  ⟨.ro, CELL_CE_ADDR, 1, 0, 1, .any⟩,
  ⟨.ro, CELL_UE_ADDR, 1, 0, 1, .any⟩,
  ⟨.ro, CELL_RETIRED0, 1, 0, 1, .any⟩,
  ⟨.ro, CELL_RETIRED1, 1, 0, 1, .any⟩,
  ⟨.wo, CELL_SNAP, 1, 0, 1, .any⟩,
  ⟨.wo, CELL_CLEAR, 1, 0, 1, .any⟩]
/-- Every field row of CELL. -/
def rows_CELL : List Row := rows_CELL_0

/-- Rows of JRNL, part 0. -/
def rows_JRNL_0 : List Row := [
  ⟨.rwa, JRNL_SEAL_EN, 1, 0, 1, .any⟩,
  ⟨.rwa, JRNL_CLOSE_MS, 1, 0, 1, .range 1 1000⟩,
  ⟨.wo, JRNL_FREEZE, 1, 0, 1, .any⟩,
  ⟨.wo, JRNL_UNF_W, 1, 0, 1, .any⟩,
  ⟨.wo, JRNL_UNFREEZE, 1, 0, 1, .any⟩,
  ⟨.rwa, JRNL_TRIG_TAKEOVER, 1, 0, 1, .any⟩,
  ⟨.rwa, JRNL_TRIG_SEALED, 1, 0, 1, .any⟩,
  ⟨.rwa, JRNL_TRIG_DUAL, 1, 0, 1, .any⟩,
  ⟨.rwa, JRNL_TRIG_TAMPER, 1, 0, 1, .any⟩,
  ⟨.rwa, JRNL_PRE_S, 1, 0, 1, .range 1 3600⟩,
  ⟨.rwa, JRNL_POST_S, 1, 0, 1, .range 0 3600⟩,
  ⟨.ro, JRNL_HEAD_B, 1, 0, 1, .any⟩,
  ⟨.ro, JRNL_OLDEST_B, 1, 0, 1, .any⟩,
  ⟨.ro, JRNL_JSEQ_NEXT, 1, 0, 1, .any⟩,
  ⟨.rw, JRNL_JLOC_B, 1, 0, 1, .any⟩,
  ⟨.ro, JRNL_JLOC_ADDR, 1, 0, 1, .any⟩,
  ⟨.wo, JRNL_SNAP, 1, 0, 1, .any⟩,
  ⟨.wo, JRNL_CLEAR, 1, 0, 1, .any⟩,
  ⟨.ro, JRNL_W_STATE, 4, 32, 1, .any⟩,
  ⟨.ro, JRNL_W_TRUNC, 4, 32, 1, .any⟩,
  ⟨.ro, JRNL_W_CAUSE, 4, 32, 1, .any⟩,
  ⟨.ro, JRNL_W_TRIG_NS, 4, 32, 1, .any⟩,
  ⟨.ro, JRNL_W_TRIG_S, 4, 32, 1, .any⟩,
  ⟨.ro, JRNL_W_FIRST_B, 4, 32, 1, .any⟩,
  ⟨.ro, JRNL_W_LAST_B, 4, 32, 1, .any⟩]
/-- Every field row of JRNL. -/
def rows_JRNL : List Row := rows_JRNL_0

/-- Rows of meta, part 0. -/
def rows_META_0 : List Row := [
  ⟨.ro, META_STATE, 1, 0, 1, .any⟩,
  ⟨.ro, META_ALG, 1, 0, 1, .any⟩,
  ⟨.ro, META_PARENT, 1, 0, 1, .any⟩,
  ⟨.ro, META_ENG, 1, 0, 1, .any⟩,
  ⟨.ro, META_LEVEL, 1, 0, 1, .any⟩,
  ⟨.ro, META_ORIGIN, 1, 0, 1, .any⟩,
  ⟨.ro, META_CAUSE, 1, 0, 1, .any⟩,
  ⟨.ro, META_GEN, 1, 0, 1, .any⟩,
  ⟨.ro, META_KCV, 1, 0, 1, .any⟩]
/-- Every field row of meta. -/
def rows_META : List Row := rows_META_0

/-- Rows of SBOX, part 0. -/
def rows_SBOX_0 : List Row := [
  ⟨.ro, SBOX_SB_STATE, 1, 0, 1, .any⟩,
  ⟨.ro, SBOX_ROOT_OK, 1, 0, 1, .any⟩,
  ⟨.w1s, SBOX_CLEAR_LOCK, 1, 0, 1, .any⟩,
  ⟨.ro, SBOX_ID_OK, 1, 0, 1, .any⟩,
  ⟨.wo, SBOX_CMD, 1, 0, 1, .any⟩,
  ⟨.wo, SBOX_ADV_CTR, 1, 0, 1, .any⟩,
  ⟨.wo, SBOX_GO, 1, 0, 1, .any⟩,
  ⟨.rw, SBOX_SLOT, 1, 0, 1, .any⟩,
  ⟨.rw, SBOX_SRC_SLOT, 1, 0, 1, .any⟩,
  ⟨.rw, SBOX_ALG, 1, 0, 1, .any⟩,
  ⟨.rw, SBOX_ENG, 1, 0, 1, .any⟩,
  ⟨.rw, SBOX_SALT_LEN, 1, 0, 1, .any⟩,
  ⟨.rw, SBOX_INFO_LEN, 1, 0, 1, .any⟩,
  ⟨.rw, SBOX_MSG_LEN, 1, 0, 1, .any⟩,
  ⟨.ro, SBOX_OP_STATUS, 1, 0, 1, .any⟩,
  ⟨.ro, SBOX_IMG_RESULT, 1, 0, 1, .any⟩,
  ⟨.rw, SBOX_IMG_ADDR, 1, 0, 1, .any⟩,
  ⟨.ro, SBOX_CFG_CTR, 1, 0, 1, .any⟩,
  ⟨.ro, SBOX_UPD_CTR, 1, 0, 1, .any⟩,
  ⟨.ro, SBOX_BOOT, 1, 0, 1, .any⟩,
  ⟨.ro, SBOX_TAMPER_CNT, 1, 0, 1, .any⟩,
  ⟨.ro, SBOX_TAMP_EN, 1, 0, 1, .any⟩,
  ⟨.ro, SBOX_TAMP_LATCH, 1, 0, 1, .any⟩,
  ⟨.wo, SBOX_TAMP_ARM, 1, 0, 1, .any⟩,
  ⟨.wo, SBOX_TAMP_CLR, 1, 0, 1, .any⟩,
  ⟨.rwa, SBOX_RA_CTL, 1, 0, 1, .any⟩,
  ⟨.rwa, SBOX_RA_ITEM, 1, 0, 1, .any⟩,
  ⟨.rwa, SBOX_RA_SLOT0, 1, 0, 1, .any⟩,
  ⟨.rwa, SBOX_RA_SLOT1, 1, 0, 1, .any⟩,
  ⟨.rwa, SBOX_RA_TX, 1, 0, 1, .any⟩,
  ⟨.rwa, SBOX_SEAL_SLOT, 1, 0, 1, .any⟩,
  ⟨.rwa, SBOX_SEAL_V, 1, 0, 1, .any⟩,
  ⟨.ro, SBOX_SEAL_KEY_B, 1, 0, 1, .any⟩,
  ⟨.wo, SBOX_SNAP, 1, 0, 1, .any⟩,
  ⟨.wo, SBOX_CLEAR, 1, 0, 1, .any⟩,
  ⟨.wo, SBOX_STAGE, 24, 4, 1, .any⟩,
  ⟨.wo, SBOX_SALT, 12, 4, 1, .any⟩,
  ⟨.wo, SBOX_INFO, 12, 4, 1, .any⟩,
  ⟨.ro, SBOX_ID_PUB, 24, 4, 1, .any⟩,
  ⟨.ro, SBOX_TRANS_PUB, 24, 4, 1, .any⟩]
/-- Rows of SBOX, part 1. -/
def rows_SBOX_1 : List Row := [
  ⟨.ro, SBOX_DEV_UID, 4, 4, 1, .any⟩,
  ⟨.ro, SBOX_AUTH_PKH0, 12, 4, 1, .any⟩,
  ⟨.ro, SBOX_AUTH_PKH1, 12, 4, 1, .any⟩]
/-- Every field row of SBOX. -/
def rows_SBOX : List Row := rows_SBOX_0 ++ rows_SBOX_1

/-- Rows of HDR, part 0. -/
def rows_PG_0 : List Row := [
  ⟨.ro, PG_INSTANCE, 1, 0, 1, .any⟩,
  ⟨.ro, PG_TYPE, 1, 0, 1, .any⟩,
  ⟨.ro, PG_BUILD, 1, 0, 1, .any⟩,
  ⟨.ro, PG_MINOR, 1, 0, 1, .any⟩,
  ⟨.ro, PG_MAJOR, 1, 0, 1, .any⟩,
  ⟨.ro, PG_C_SHADOW, 1, 0, 1, .any⟩,
  ⟨.ro, PG_C_FREEZE, 1, 0, 1, .any⟩,
  ⟨.ro, PG_C_TEST, 1, 0, 1, .any⟩,
  ⟨.ro, PG_C_CARRIED, 1, 0, 1, .any⟩,
  ⟨.ro, PG_C_EVTS, 1, 0, 1, .any⟩,
  ⟨.ro, PG_C_CNTS, 1, 0, 1, .any⟩,
  ⟨.rwa, PG_ENABLE, 1, 0, 1, .any⟩,
  ⟨.wo, PG_SRST, 1, 0, 1, .any⟩,
  ⟨.rw, PG_FREEZE, 1, 0, 1, .any⟩,
  ⟨.w1s, PG_SHADOW_SWAP, 1, 0, 1, .any⟩,
  ⟨.rw, PG_TEST_MODE, 1, 0, 1, .any⟩,
  ⟨.w1s, PG_COMMIT, 1, 0, 1, .any⟩,
  ⟨.ro, PG_READY, 1, 0, 1, .any⟩,
  ⟨.ro, PG_IN_RESET, 1, 0, 1, .any⟩,
  ⟨.ro, PG_QUIESCED, 1, 0, 1, .any⟩,
  ⟨.w1c, PG_ERROR, 1, 0, 1, .any⟩,
  ⟨.ro, PG_ERR_CODE, 1, 0, 1, .any⟩,
  ⟨.w1c, PG_PG_EVT, 1, 0, 1, .any⟩,
  ⟨.rw, PG_PG_EVT_EN, 1, 0, 1, .any⟩,
  ⟨.rw, PG_VEC, 1, 0, 1, .any⟩,
  ⟨.rw, PG_MSG, 1, 0, 1, .any⟩,
  ⟨.rw, PG_POP, 1, 0, 1, .any⟩,
  ⟨.rw, PG_LOCK, 1, 0, 1, .any⟩,
  ⟨.wo, PG_LKEY, 1, 0, 1, .any⟩]
/-- Every field row of HDR. -/
def rows_PG : List Row := rows_PG_0

/-- Rows of txring, part 0. -/
def rows_TXRING_0 : List Row := [
  ⟨.rw, TXRING_EN, 1, 0, 1, .any⟩,
  ⟨.rw, TXRING_TYPE, 1, 0, 1, .any⟩,
  ⟨.rw, TXRING_ETHP, 1, 0, 1, .any⟩,
  ⟨.rw, TXRING_FULL_MODE, 1, 0, 1, .any⟩,
  ⟨.rw, TXRING_LOG2_SIZE, 1, 0, 1, .any⟩,
  ⟨.rw, TXRING_VEC, 1, 0, 1, .any⟩,
  ⟨.rw, TXRING_BASE, 1, 0, 1, .any⟩,
  ⟨.rw, TXRING_TAIL, 1, 0, 1, .any⟩,
  ⟨.ro, TXRING_HEAD, 1, 0, 1, .any⟩,
  ⟨.ro, TXRING_RUNNING, 1, 0, 1, .any⟩,
  ⟨.ro, TXRING_FAULT, 1, 0, 1, .any⟩,
  ⟨.ro, TXRING_HELD, 1, 0, 1, .any⟩]
/-- Every field row of txring. -/
def rows_TXRING : List Row := rows_TXRING_0

/-- Rows of pop, part 0. -/
def rows_POP_0 : List Row := [
  ⟨.ro, POP_NS, 1, 0, 1, .any⟩,
  ⟨.ro, POP_VALID, 1, 0, 1, .any⟩,
  ⟨.ro, POP_OVF, 1, 0, 1, .any⟩,
  ⟨.ro, POP_BIT, 1, 0, 1, .any⟩,
  ⟨.ro, POP_PAGE, 1, 0, 1, .any⟩,
  ⟨.ro, POP_PSEQ, 1, 0, 1, .any⟩,
  ⟨.ro, POP_POP_LVL, 1, 0, 1, .any⟩,
  ⟨.ro, POP_RECOV, 16, 8, 1, .any⟩]
/-- Every field row of pop. -/
def rows_POP : List Row := rows_POP_0

/-- Rows of ra, part 0. -/
def rows_RA_0 : List Row := [
  ⟨.wo, RA_GO, 1, 0, 1, .any⟩,
  ⟨.wo, RA_ACK, 1, 0, 1, .any⟩,
  ⟨.rw, RA_WR, 1, 0, 1, .any⟩,
  ⟨.rw, RA_IRQ, 1, 0, 1, .any⟩,
  ⟨.rw, RA_NODE, 1, 0, 1, .any⟩,
  ⟨.rw, RA_SIZE, 1, 0, 1, .any⟩,
  ⟨.ro, RA_STATE, 1, 0, 1, .any⟩,
  ⟨.ro, RA_STATUS, 1, 0, 1, .any⟩,
  ⟨.ro, RA_TAG, 1, 0, 1, .any⟩,
  ⟨.rw, RA_ADDR, 1, 0, 1, .any⟩,
  ⟨.ro, RA_LAT_NS, 1, 0, 1, .any⟩,
  ⟨.rw, RA_DATA, 16, 4, 1, .any⟩]
/-- Every field row of ra. -/
def rows_RA : List Row := rows_RA_0

/-- Rows of SYS, part 0. -/
def rows_SYS_0 : List Row := [
  ⟨.ro, SYS_STEPPING, 1, 0, 1, .any⟩,
  ⟨.ro, SYS_DEVICE, 1, 0, 1, .any⟩,
  ⟨.ro, SYS_VENDOR, 1, 0, 1, .any⟩,
  ⟨.ro, SYS_FIRST, 1, 0, 1, .any⟩,
  ⟨.ro, SYS_STRAPS, 1, 0, 1, .any⟩,
  ⟨.ro, SYS_RST_CAUSE, 1, 0, 1, .any⟩,
  ⟨.wo, SYS_DEVRST_ARM, 1, 0, 1, .any⟩,
  ⟨.ro, SYS_UP_S, 1, 0, 1, .any⟩,
  ⟨.ro, SYS_EVT_SUM, 8, 4, 1, .any⟩,
  ⟨.ro, SYS_ERR_SUM, 8, 4, 1, .any⟩,
  ⟨.wo, SYS_SNAP, 1, 0, 1, .any⟩,
  ⟨.wo, SYS_CLEAR, 1, 0, 1, .any⟩]
/-- Every field row of SYS. -/
def rows_SYS : List Row := rows_SYS_0

/-- Rows of HOST, part 0. -/
def rows_HOST_0 : List Row := [
  ⟨.ro, HOST_LINK_SPEED, 1, 0, 1, .any⟩,
  ⟨.ro, HOST_LINK_WIDTH, 1, 0, 1, .any⟩,
  ⟨.ro, HOST_BME, 1, 0, 1, .any⟩,
  ⟨.ro, HOST_D3, 1, 0, 1, .any⟩,
  ⟨.ro, HOST_UR_ADDR, 1, 0, 1, .any⟩,
  ⟨.ro, HOST_HOLE_ADDR, 1, 0, 1, .any⟩,
  ⟨.rwa, HOST_CLS_RING0, 1, 0, 1, .any⟩,
  ⟨.rwa, HOST_CLS_RING1, 1, 0, 1, .any⟩,
  ⟨.ro, HOST_OUTSTANDING, 1, 0, 1, .any⟩,
  ⟨.ro, HOST_SLOTS_BUSY, 1, 0, 1, .any⟩,
  ⟨.wo, HOST_SNAP, 1, 0, 1, .any⟩,
  ⟨.wo, HOST_CLEAR, 1, 0, 1, .any⟩,
  ⟨.rwa, HOST_VEC_HOLDOFF_US, 64, 4, 1, .any⟩,
  ⟨.ro, HOST_PBA, 1, 0, 1, .any⟩,
  ⟨.rw, HOST_MSIX, 256, 4, 1, .any⟩]
/-- Every field row of HOST. -/
def rows_HOST : List Row := rows_HOST_0

/-- Rows of UART, part 0. -/
def rows_UART_0 : List Row := [
  ⟨.ro, UART_RXD, 1, 0, 1, .any⟩,
  ⟨.ro, UART_TX_BUSY, 1, 0, 1, .any⟩,
  ⟨.ro, UART_DE, 1, 0, 1, .any⟩,
  ⟨.rwa, UART_DE_MODE, 1, 0, 1, .range 0 2⟩,
  ⟨.rwa, UART_ECHO_SUP, 1, 0, 1, .any⟩,
  ⟨.rwa, UART_LOOP, 1, 0, 1, .any⟩,
  ⟨.rwa, UART_DE_HOLD, 1, 0, 1, .any⟩,
  ⟨.wo, UART_SEND_BREAK, 1, 0, 1, .any⟩,
  ⟨.wo, UART_SNAP, 1, 0, 1, .any⟩,
  ⟨.wo, UART_CLEAR, 1, 0, 1, .any⟩]
/-- Every field row of UART. -/
def rows_UART : List Row := rows_UART_0

/-- Rows of PWR, part 0. -/
def rows_PWR_0 : List Row := [
  ⟨.ro, PWR_BOOT_STAGE, 1, 0, 1, .any⟩,
  ⟨.ro, PWR_BOOT_MS, 1, 0, 1, .any⟩,
  ⟨.wo, PWR_BOOT_GO, 1, 0, 1, .any⟩,
  ⟨.ro, PWR_SUP_OK, 1, 0, 1, .any⟩,
  ⟨.ro, PWR_SUP_WARNB, 1, 0, 1, .any⟩,
  ⟨.rwa, PWR_PD, 1, 0, 1, .any⟩,
  ⟨.ro, PWR_PD_STAT, 1, 0, 1, .any⟩,
  ⟨.rwa, PWR_WAKE_EN, 1, 0, 1, .any⟩,
  ⟨.ro, PWR_WAKE_CAUSE, 1, 0, 1, .any⟩,
  ⟨.wo, PWR_SLEEP, 1, 0, 1, .any⟩,
  ⟨.ro, PWR_AO_TICKS, 1, 0, 1, .any⟩,
  ⟨.rw, PWR_WAKE_AT, 1, 0, 1, .any⟩,
  ⟨.ro, PWR_BLK_LAST, 1, 0, 1, .any⟩,
  ⟨.wo, PWR_SNAP, 1, 0, 1, .any⟩,
  ⟨.wo, PWR_CLEAR, 1, 0, 1, .any⟩]
/-- Every field row of PWR. -/
def rows_PWR : List Row := rows_PWR_0

/-- Rows of ATTC, part 0. -/
def rows_ATTC_0 : List Row := [
  ⟨.ro, ATTC_STATE, 1, 0, 1, .any⟩,
  ⟨.ro, ATTC_INERT_CAUSE, 1, 0, 1, .any⟩,
  ⟨.ro, ATTC_BUSY, 1, 0, 1, .any⟩,
  ⟨.ro, ATTC_GEN, 1, 0, 1, .any⟩,
  ⟨.ro, ATTC_FIRST_BANK, 1, 0, 1, .any⟩,
  ⟨.ro, ATTC_BANK_CNT, 1, 0, 1, .any⟩,
  ⟨.ro, ATTC_IMG_BYTES, 1, 0, 1, .any⟩,
  ⟨.ro, ATTC_CP_S, 1, 0, 1, .any⟩,
  ⟨.ro, ATTC_CP_NS, 1, 0, 1, .any⟩,
  ⟨.wo, ATTC_WIPE_ARM, 1, 0, 1, .any⟩,
  ⟨.wo, ATTC_WIPE_GO, 1, 0, 1, .any⟩,
  ⟨.wo, ATTC_SNAP, 1, 0, 1, .any⟩,
  ⟨.wo, ATTC_CLEAR, 1, 0, 1, .any⟩,
  ⟨.ro, ATTC_WEAR, 16, 8, 1, .any⟩]
/-- Every field row of ATTC. -/
def rows_ATTC : List Row := rows_ATTC_0

/-- Rows of TEST, part 0. -/
def rows_TEST_0 : List Row := [
  ⟨.rw, TEST_OOS, 1, 0, 1, .any⟩,
  ⟨.rwa, TEST_LSCRUB_MS, 1, 0, 1, .range 100 60000⟩,
  ⟨.wo, TEST_TF_CLR, 1, 0, 1, .any⟩,
  ⟨.wo, TEST_SNAP, 1, 0, 1, .any⟩,
  ⟨.wo, TEST_CLEAR, 1, 0, 1, .any⟩,
  ⟨.rw, TEST_CUST_PAT, 1, 0, 1, .any⟩,
  ⟨.rw, TEST_SL_TID, 4, 32, 1, .any⟩,
  ⟨.rw, TEST_SL_MODE, 4, 32, 1, .any⟩,
  ⟨.rw, TEST_SL_PAT, 4, 32, 1, .any⟩,
  ⟨.rw, TEST_SL_TARGET, 4, 32, 1, .any⟩,
  ⟨.wo, TEST_SL_GO, 4, 32, 1, .any⟩,
  ⟨.wo, TEST_SL_CANCEL, 4, 32, 1, .any⟩,
  ⟨.wo, TEST_SL_ACK, 4, 32, 1, .any⟩,
  ⟨.rw, TEST_SL_DURATION_MS, 4, 32, 1, .any⟩,
  ⟨.ro, TEST_SL_RSTATE, 4, 32, 1, .any⟩,
  ⟨.rw, TEST_SL_ERR_LIMIT, 4, 32, 1, .any⟩,
  ⟨.ro, TEST_SL_BITS, 4, 32, 1, .any⟩,
  ⟨.ro, TEST_SL_ERRS, 4, 32, 1, .any⟩]
/-- Every field row of TEST. -/
def rows_TEST : List Row := rows_TEST_0

/-- Rows of RULE, part 0. -/
def rows_RULE_0 : List Row := [
  ⟨.wo, RULE_INDEX, 1, 0, 1, .any⟩,
  ⟨.wo, RULE_GO, 1, 0, 1, .any⟩,
  ⟨.ro, RULE_ERR_INDEX, 1, 0, 1, .any⟩,
  ⟨.ro, RULE_ERR_V, 1, 0, 1, .any⟩,
  ⟨.wo, RULE_F_INDEX, 1, 0, 1, .any⟩,
  ⟨.wo, RULE_FSNAP, 1, 0, 1, .any⟩,
  ⟨.wo, RULE_FCLEAR, 1, 0, 1, .any⟩,
  ⟨.wo, RULE_FALL, 1, 0, 1, .any⟩,
  ⟨.wo, RULE_SNAP, 1, 0, 1, .any⟩,
  ⟨.wo, RULE_CLEAR, 1, 0, 1, .any⟩]
/-- Every field row of RULE. -/
def rows_RULE : List Row := rows_RULE_0

end Sys2Proof.Machine
end

