-- ==== Sys2Proof/Machine/State.lean ====
section
/-! DEFINITION. Machine/State.lean: the state of the device as plain data, the reasons a step can stop, and the state
at power-on. Every software-visible register, table entry and counter of BAR0 has one home, the register file `regs`;
what the spec gives the device beyond its registers is in the sub-structures below. -/

namespace Sys2Proof.Machine

/-- Why a command faults. -/
inductive Fault where
  /-- A read of the cellar at an address beyond the space that R333 lays out: no such storage exists. Raised by no
  command of the table as it stands; safe. -/
  | noSuchStorage (addr : Nat)
  deriving DecidableEq, Repr

/-- Why a command is refused by the model. -/
inductive Refusal where
  /-- No meaning yet for the command of this mnemonic. Raised by an arm of Machine/Dispatch.lean; safe. -/
  | notModelled (mnemonic : String)
  deriving DecidableEq, Repr

/-- A record of the pop FIFO (R394). -/
structure PopRec where
  ns : Nat
  ovf : Bool
  bit : Nat
  page : Nat
  deriving DecidableEq, Repr

/-- The receive side of one port: FIFO pointers (R323), committed candidates, and for a UART the receiver (R45). -/
structure RxPort where
  wp : Nat
  cp : Nat
  rp : Nat
  fp : Nat
  cands : List Cand
  openC : Option OpenCand
  fr : Framer
  /-- H at the last declared start edge, and whether its character is still being received. -/
  edge : Nat
  edgeDom : Nat
  inChar : Bool
  /-- Reference-clock instants: the start of the silence timing (R45), the last centre sample of the last stop bit. -/
  silFrom : Nat
  stopAt : Nat
  deriving DecidableEq, Repr

/-- A receive side at reset: everything empty, hunting. -/
def RxPort.empty : RxPort := ⟨0, 0, 0, 0, [], none, ⟨.hunt, false, 0, 0, 0, 0⟩, 0, 0, false, 0, 0⟩

/-- What a time domain keeps beside its registers (R156 to R159): samples in tolerance in a row, outliers in a row,
whether the next sample sets OFS, H at the last sample used, the clock at the last sample and at LOCKED. -/
structure Dom where
  good : Nat
  outl : Nat
  setNext : Bool
  last : Option Nat
  heard : Nat
  lockAt : Nat
  deriving DecidableEq, Repr

/-- The reference clock and the time base. -/
structure TimeBase where
  /-- The reference clock: 1/65 536 ns since power was first applied. -/
  clk : Nat
  /-- The clock at the last reset release. -/
  relClk : Nat
  /-- H (R153), in 1/65 536 ns. -/
  h : Nat
  /-- Steering in force, in 10^-12 (R154). -/
  y : Int
  domA : Dom
  domB : Dom
  /-- DOM_FAR has been raised in the present episode (R156). -/
  far : Bool
  /-- A step latched by STEP_GO, in 1/65 536 ns (R161). -/
  step : Option Int
  /-- PPS inputs: the clock at the last accepted edge, and inputs whose present gap has been counted (R165). -/
  ppsAt : List (Nat × Nat)
  ppsGap : List Nat
  /-- PPS outputs that wait for the next whole second of their source (R166). -/
  ppsWait : List Nat
  /-- SEQ of the next TIME_SYNC of each ring port (R178). -/
  syncSeq : List (Nat × Nat)
  /-- Standby: what H has still to gain on the active hub's H (R162); T1 of its last TIME_XFER (R262). -/
  twinOfs : Int
  xferT1 : Nat
  deriving DecidableEq, Repr

/-- A domain with no model. -/
def Dom.fresh : Dom := ⟨0, 0, false, none, 0, 0⟩

/-- A time base just released from reset at an instant of the reference clock. -/
def TimeBase.fresh (clk : Nat) : TimeBase :=
  ⟨clk, clk, 0, 0, Dom.fresh, Dom.fresh, false, none, [], [], [], [], 0, 0⟩

/-- A local encoder (R168, R170): accepted levels, count, and the reference of Z_MODE 2. -/
structure Enc where
  a : Bool
  b : Bool
  cnt : Int
  ref : Option Int
  deriving DecidableEq, Repr

/-- An axis model (R169 to R173): the latest count, the counts used for velocity (newest first, each with its instant of
H), direction, standstill, error, HOMED of a remote encoder, and the clock at the latest count. -/
structure AxMod where
  cnt : Int
  hist : List (Int × Nat)
  rev : Bool
  stopped : Bool
  err : Bool
  homed : Bool
  countAt : Nat
  deriving DecidableEq, Repr

/-- Encoders, axis models, and the last SEQ of each leaf encoder (leaf × 8 + encoder). -/
structure Axes where
  encs : List (Nat × Enc)
  axes : List (Nat × AxMod)
  edgeSeq : List (Nat × Nat)
  deriving DecidableEq, Repr

/-- A descriptor of a transmit ring that the Yileo holds: its instant of submission and domain, its first 16 bytes once
fetched, its item header, and how far it is (0 descriptor asked for, 1 body asked for, 2 awaiting its completion). -/
structure TxDesc where
  ring : Nat
  idx : Nat
  sub : Nat
  dom : Nat
  raw : List Byte
  hdr : List Byte
  phase : Nat
  deriving DecidableEq, Repr

/-- A descriptor of a receive ring that the Yileo holds: free once `ready`. -/
structure RxDesc where
  ring : Nat
  idx : Nat
  addr : Nat
  len : Nat
  ready : Bool
  deriving DecidableEq, Repr

/-- The host interface. -/
structure HostIf where
  pop : List PopRec
  popLost : Bool
  pseq : Nat
  /-- Instant of each vector's last message, and the vectors whose merged message waits for a holdoff (R384). -/
  vecLast : List (Nat × Nat)
  vecWait : List Nat
  /-- Next descriptor to fetch of each ring (receive ring r as 64 + r), the doorbells behind it (index reached, H and
  domain), descriptors held, and those completed beyond HEAD. -/
  next : List (Nat × Nat)
  bells : List (Nat × List (Nat × Nat × Nat))
  txd : List TxDesc
  rxd : List RxDesc
  doneIdx : List (Nat × Nat)
  /-- Remote access slots: instant of issue of each PENDING slot (R396). -/
  raAt : List (Nat × Nat)
  deriving DecidableEq, Repr

/-- An anvil's candidate, with what the anvil found ahead of its admission (R82, R87). -/
structure Built where
  cand : Cand
  kind : Nat
  stamp : Nat
  dom : Nat
  /-- STAMP was substituted, or came from a local port: the standby takes the active hub's (R61). -/
  subst : Bool
  /-- Set when the candidate passes to DIAG_FLOW (R52, R70): the failed check's counter, or 0x80 for NO_FLOW. -/
  passed : Option Nat
  /-- Set when the candidate is to be refused: the cause code of its REFUSE record (R249), none for a check that has
  no code. -/
  refuse : Option (Option Nat)
  /-- The flow found, and the table generation of the lookup. -/
  flow : Option Nat
  gen : Nat
  /-- Reference-clock instant at which the anvil took it. -/
  since : Nat
  deriving DecidableEq, Repr

/-! ### Concord (R92 to R107) -/

/-- An entry of the clash table (R107). -/
structure ClashEnt where
  talk : Nat
  fmt : Nat
  port : Nat
  flow : Nat
  stamp : Nat
  crc : Nat
  deriving DecidableEq, Repr

structure Conc where
  rounds : List (Nat × Round)
  clash : List (Nat × ClashEnt)
  deriving DecidableEq, Repr

/-! ### Larder, queues and listeners (R112 to R148) -/

/-- Where an admitted item is held (R119 to R121). -/
inductive Loc where
  | larder | spilling | spilled | fetching
  deriving DecidableEq, Repr

/-- What a host submission's write-back record will report (R148, R149). Offsets are in ns from STAMP. -/
structure WriteBack where
  ring : Nat
  desc : Nat
  nList : Nat
  nSent : Nat
  nLate : Nat
  nCoal : Nat
  nRef : Nat
  worst : Nat
  first : Option Nat
  wire : Option Nat
  /-- The local listener whose transmit stamp is taken, and whether its stamp is still awaited. -/
  wirePort : Option Nat
  wireDue : Bool
  done : Nat
  deriving DecidableEq, Repr

/-- An admitted item. -/
structure LItem where
  item : Item
  loc : Loc
  /-- Admission order, and one more than the LPOS of its admission record (R248), 0 when none was logged. -/
  no : Nat
  lpos : Nat
  /-- Reference-clock instant its internal age runs from (R35, R136). -/
  born : Nat
  leaf : Nat
  iseq : Nat
  /-- The journal copy has been written (R24). -/
  jrnl : Bool
  /-- Admitted under a former active hub: released with REPLAYED (R255). -/
  replay : Bool
  wb : Option WriteBack
  deriving DecidableEq, Repr

/-- A reference to an item, or a queued status sentence, in a delivery queue (R116). -/
structure Ref where
  handle : Nat
  flow : Nat
  seq : Nat
  /-- Coalescing key: FLOW × 2^32 + KEY, or 2^46 + KEY with KSCOPE 1 (R132). -/
  ckey : Nat
  mode : Nat
  /-- I of an ALIGNED reference (R131), an instant of H. -/
  inst : Nat
  tracked : Bool
  no : Nat
  stat : Option (Item × StatTok)
  deriving DecidableEq, Repr

/-- A packet in a transmit FIFO. -/
structure TxPkt where
  handle : Nat
  kind : Nat
  body : List Byte
  words : Nat
  deriving DecidableEq, Repr

/-- The delivery side of a listener port: the shaper (R127), the transmit FIFO of a local port (R322), the n counter
(R145) and the ledger. -/
structure LisPort where
  /-- Bucket, in bytes × units of a second, as it stood at `tokAt`. -/
  tok : Nat
  tokAt : Nat
  /-- The instant before which no release is granted. -/
  nextOk : Nat
  /-- A wire-paced item is on the line, and the gap after it. -/
  onWire : Bool
  gap : Nat
  tx : List TxPkt
  txp : Nat
  nCount : Nat
  led : Ledger
  /-- Port 59: the release in turn meets a full ring (R392). -/
  stall : Bool
  /-- UART: when the last stop bit ended, and the break on the line or waiting for it, in bit times, 0 for none (R403). -/
  endAt : Nat
  brk : Nat
  deriving DecidableEq, Repr

def LisPort.fresh : LisPort := ⟨0, 0, 0, false, 0, [], 0, 0, ⟨[], [], [0, 0, 0, 0, 0, 0], false, none⟩, false, 0, 0⟩

structure Deliv where
  items : List (Nat × LItem)
  nextHandle : Nat
  admNo : Nat
  refNo : Nat
  queues : List (Nat × List Ref)
  /-- NEWEST holds: port, coalescing key and end as an instant of H (R132). -/
  holds : List (Nat × Nat × Nat)
  ports : List (Nat × LisPort)
  /-- Instant of the last source SIG of each leaf and queue (R143), keyed 2^14 × leaf + queue. -/
  sigAt : List (Nat × Nat)
  deriving DecidableEq, Repr

/-! ### CAN controllers (R265 to R283) -/

/-- A transmit attempt: the direct entry it sends (0 to 15), 16 for the item FIFO or 17 for a frame of the controller's
own; H at its SOF, the frame's record, and whether a cancel has been registered since (R273). -/
structure CanAtt where
  src : Nat
  sof : Nat
  frame : List Byte
  cancelled : Bool
  deriving DecidableEq, Repr

/-- A connection-mode session that a controller sends (R279): destination, PGN, priority, data, the packet that comes
next, how far the last CTS lets it go, and when it times out. -/
structure TpTx where
  da : Nat
  pgn : Nat
  pri : Nat
  data : List Byte
  next : Nat
  upTo : Nat
  due : Nat
  deriving DecidableEq, Repr

/-- A controller beside its registers: whether it waits for 11 recessive bits, whether a commit waits for the frame in
progress, the mode in force, the error counts in full, the attempt on the bus, consecutive attempts of one frame that met
a clash (R275), frames of the FIFO head still to be sent, SOF of its first frame, whether it is a BAM and its pacing,
frames of its own that wait, claims in progress (virtual node, address, since), addresses seen claimed, fast-packet
sequence counters (SA × 2^18 + PGN), and a connection-mode session it sends. -/
structure CanCtl where
  integ : Bool
  dirty : Bool
  run : Nat
  tec : Nat
  rec_ : Nat
  att : Option CanAtt
  errRun : Nat
  errFrame : List Byte
  segs : Option (List (List Byte))
  headSof : Option Nat
  bam : Bool
  bamAt : Option Nat
  own : List (List Byte)
  claims : List (Nat × Nat × Nat)
  seen : List Nat
  fpSeq : List (Nat × Nat)
  tp : Option TpTx
  deriving DecidableEq, Repr

/-- A fast-packet session (R277). -/
structure FpSess where
  port : Nat
  sa : Nat
  pgn : Nat
  seq : Nat
  pri : Nat
  da : Nat
  total : Nat
  data : List Byte
  ctr : Nat
  lastData : List Byte
  first : Nat
  lastAt : Nat
  deriving DecidableEq, Repr

/-- A transport session being reassembled (R277): `own` when it is addressed to a virtual node, which then answers. -/
structure TpSess where
  port : Nat
  sa : Nat
  da : Nat
  pgn : Nat
  pri : Nat
  size : Nat
  packets : Nat
  maxCts : Nat
  data : List Byte
  next : Nat
  upTo : Nat
  own : Bool
  first : Nat
  due : Nat
  deriving DecidableEq, Repr

structure Can where
  ctl : List (Nat × CanCtl)
  fps : List FpSess
  tps : List TpSess
  deriving DecidableEq, Repr

/-- An Ethernet port beside its registers: the span of H in which a received PAUSE holds its transmitter (R284), and the
next packet number expected of each receive association, keyed 4 × SC + AN (R289); and whether its lane has signal. -/
structure EthPort where
  pauseFrom : Nat
  pauseTo : Nat
  rxPn : List (Nat × Nat)
  signal : Bool
  deriving DecidableEq, Repr

/-! ### Tongs (R298 to R318) -/

/-- A bit of SR: its level, the instant of H at which it was appended, and for one sampled by a SHIFT on lines the
instant the sample refers to (R309). -/
structure SrBit where
  bit : Bool
  at_ : Nat
  smp : Option Nat
  deriving DecidableEq, Repr

/-- A tongs engine beside the registers of its page (R298, R319). -/
structure TongEng where
  /-- SR, bit 0 first. -/
  sr : List SrBit
  /-- The reference clock when the divider last restarted. -/
  divAt : Nat
  /-- TMR at the engine clock of number `tmrK` since then (R303). -/
  tmr : Nat
  tmrK : Nat
  /-- The engine clock a stall is counted from, and H when its AWAIT began. -/
  stallK : Nat
  waitH : Nat
  /-- Engine clocks done of a SHIFT on lines, 0 when none is in progress. -/
  phase : Nat
  /-- Fire latch: slot and F (R311). -/
  latch : List (Nat × Nat)
  /-- F of an AWAIT with FINE just completed (R311). -/
  fine : Option Nat
  /-- A stamp mark with its domain (R309), and the one that dates the open candidate. -/
  mark : Option (Nat × Nat)
  candMark : Option (Nat × Nat)
  /-- STOREs are discarded up to the next END (R308). -/
  skip : Bool
  /-- A word has been fetched since enable (R318). -/
  fetched : Bool
  deriving DecidableEq, Repr

def TongEng.fresh : TongEng := ⟨[], 0, 0, 0, 0, 0, 0, [], none, none, none, false, false⟩

/-- The 16 engines; the filtered level of each line before INV_IN; the direction bits that are 1, as engine × 64 + line;
the lines that drive their balls, with the level; the instant of SHADOW_SWAP, and writes of the shadow window held
during a swap (R317). -/
structure Tongs where
  engs : List (Nat × TongEng)
  lines : Nat
  dirs : List Nat
  balls : List (Nat × Bool)
  swapAt : Nat
  held : List (Nat × Nat)
  deriving DecidableEq, Repr

/-! ### The Osvon ring and link layers (R189 to R237) -/

/-- The link layer of one hop: ports 0 to 3 are A-east, A-west, B-east, B-west; 4 and 5 the Ngato lanes. -/
structure Hop where
  /-- Signal and block lock are present; the rate of this attempt is 3.125 Gbaud. -/
  signal : Bool
  lock : Bool
  slow : Bool
  /-- When the training attempt began, good TRAIN frames in a row, the versions and credits they agree on. -/
  trainAt : Nat
  trains : Nat
  peerMax : Nat
  peerMin : Nat
  peerMinor : Nat
  peerCred : List Nat
  hello : Bool
  /-- Transmit: next LSEQ and the replay buffer, oldest first: LSEQ, VC and body. -/
  txSeq : Nat
  replay : List (Nat × Nat × List Byte)
  progAt : Nat
  stuck : Nat
  /-- Packets waiting, in order: VC, own (not in transit), packet. -/
  queue : List (Nat × Bool × RingPkt)
  stallAt : Option Nat
  /-- Receive: expected LSEQ, the instant of a NAK still open, packets in the channel buffers. -/
  rxSeq : Nat
  nakAt : Option Nat
  rxq : List (Nat × List Byte)
  /-- Cumulative credits freed here, those last sent, those last heard from the peer: CPL, REQ, ITEM. -/
  freed : List Nat
  freedSent : List Nat
  peerFreed : List Nat
  /-- The last 16 hop results (R206) in 1/65 536 ns, and the number of the last PROBE. -/
  hopRes : List Int
  probeNo : Nat
  deriving DecidableEq, Repr

def Hop.empty : Hop :=
  ⟨false, false, false, 0, 0, 0, 0, 0, [], false, 0, [], 0, 0, [], none, 0, none, [], [0, 0, 0], [0, 0, 0], [0, 0, 0], [], 0⟩

/-- The ISEQ window of a leaf's incarnation (R218): the first number taken, the highest, the numbers between that are
unseen, each with the instant it was first missed, those of them counted lost, and numbers taken below the first. -/
structure IseqWin where
  base : Nat
  top : Nat
  miss : List (Nat × Nat)
  lost : List Nat
  got : List Nat
  deriving DecidableEq, Repr

/-- Who asked for a request: a remote access slot, a write of a port's settings, a member entry of a group bank being
installed, a read of LR_CAP, LR_PCFG or LR_GRP (0 to 2), a route or LINK_NS, READY; nobody any more (R398), or a write
whose result nothing waits for. -/
inductive Origin where
  | ra (slot : Nat)
  | pcfg (port : Nat)
  | member (group idx : Nat)
  | info (which : Nat)
  | route
  | ready
  | orphan
  | quiet
  deriving DecidableEq, Repr

/-- A request: outstanding under a tag, or waiting for one. -/
structure Req where
  node : Nat
  write : Bool
  size : Nat
  addr : Nat
  data : List Byte
  origin : Origin
  deriving DecidableEq, Repr

/-- What a leaf's ring block says of itself (R212). -/
structure LeafInfo where
  cap : Nat
  pcfg : Nat
  grp : Nat
  deriving DecidableEq, Repr

/-- A member entry that the hub has given a leaf: leaf, entry, group, bank, member position (R231). -/
structure GrpSlot where
  leaf : Nat
  idx : Nat
  group : Nat
  bank : Nat
  mem : Nat
  deriving DecidableEq, Repr

/-- A switch of a multicast group's bank in progress (R231): the member ports being installed, how many writes are
awaited, the positions missed, and whether the group was committed again. -/
structure BankSwitch where
  ports : List Nat
  waits : Nat
  missed : List Nat
  again : Bool
  deriving DecidableEq, Repr

structure Ring where
  hops : List (Nat × Hop)
  /-- The records of the last pass of each ring (0 A, 1 B), eastward from this hub, and when a pass in flight left. -/
  topo : List (Nat × List DiscRec)
  passAt : List (Nat × Nat)
  /-- Packets this hub took a copy of: the ring they came on and the packet, with the instant (R204). -/
  inbox : List (Nat × Nat × RingPkt)
  iseq : List (Nat × IseqWin)
  /-- SIG messages held for lower ISEQs: instant and packet (R228). -/
  sigHeld : List (Nat × RingPkt)
  sigNo : Nat
  /-- Outstanding requests by tag with the instant each was sent, TGEN of each tag used, requests waiting for a tag. -/
  tags : List (Nat × Nat × Req)
  tgen : List (Nat × Nat)
  waiting : List Req
  /-- The member ports of each group, by position, that the leaves' bank in use holds, 0 where one is not installed
  (R231), and switches in progress. -/
  banks : List (Nat × List Nat)
  switching : List (Nat × BankSwitch)
  grpSlots : List GrpSlot
  /-- What each leaf's ring block said, and the route words last written to each leaf. -/
  info : List (Nat × LeafInfo)
  routes : List (Nat × List Nat)
  /-- BEAT_ACKs: leaf and the instant of its last (R257); beat number of the next beat; RA packet count (R364). -/
  acks : List (Nat × Nat)
  beatNo : Nat
  raCtr : Nat
  deriving DecidableEq, Repr

/-! ### Cellar and journal (R331 to R347) -/

/-- The cellar: capacity in bytes of each channel in service at start-up, region sizes in bytes (log store, spill store,
journal, host region), granules retired (channel and granule), bytes initialised so far, and the uncorrectable words each
channel has seen in the second that began at the given instant. -/
structure Cellar where
  cap0 : Nat
  cap1 : Nat
  logSz : Nat
  spillSz : Nat
  jrnlSz : Nat
  hostSz : Nat
  retired : List (Nat × Nat)
  inited : Nat
  ueAt : Nat
  ue0 : Nat
  ue1 : Nat
  deriving DecidableEq, Repr

/-- A closed journal block that is still present: its place in the region, BSEQ and CLOSE_S (R337). -/
structure JBlk where
  slot : Nat
  bseq : Nat
  closeS : Nat
  deriving DecidableEq, Repr

/-- The open block: what follows its header, and when its first record came. -/
structure JOpen where
  slot : Nat
  bseq : Nat
  firstJ : Nat
  nrec : Nat
  data : List Byte
  since : Nat
  deriving DecidableEq, Repr

structure Jrnl where
  blocks : List JBlk
  cur : Option JOpen
  nextB : Nat
  nextSlot : Nat
  deriving DecidableEq, Repr

/-- A strongbox command in progress with its arguments as they stood at GO (R355). -/
structure SbOp where
  cmd : Nat
  slot : Nat
  src : Nat
  alg : Nat
  eng : Nat
  adv : Bool
  stage : List Byte
  salt : List Byte
  info : List Byte
  deriving DecidableEq, Repr

/-- Key material by slot (R348), output count of the random number generator, the seal chain value C (R363), the command
in progress, and whether an alarm latched outside the boot still awaits the strongbox (R369). -/
structure Sbox where
  keys : List (Nat × List Byte)
  rng : Nat
  chain : List Byte
  /-- SEAL_SLOT and GEN of the key the last block was sealed under. -/
  sealKey : Option (Nat × Nat)
  op : Option SbOp
  owed : Bool
  deriving DecidableEq, Repr

/-- What this hub keeps of its twin and of the admission log (R241 to R263). -/
structure Twin where
  /-- Active: records not yet acknowledged, with LPOS and the instant each was sent; records acknowledged (LPOS_ACK and
  one, or 0 before any); LOG and BULK frames, FT and body, that wait for the replay buffer. -/
  recs : List (Nat × Nat × LogRec)
  acked : Nat
  ackAt : Nat
  wait : List (Nat × List Byte)
  /-- Held in strap clash (R241). -/
  clash : Bool
  /-- Instants: STARTING entered; last beat on each path (0 twin link, 1 ring A, 2 ring B); last beat with ROLE 2; end of
  the 2 ms of the shared-bus hold. -/
  startAt : Nat
  beatAt : List (Nat × Nat)
  activeAt : Option Nat
  holdTo : Nat
  beatNo : Nat
  /-- Resync: P0; references made before it have a lower number than `preRef`; when DRAIN_MS passes; MARK DRAINED sent;
  the joiner has loaded the snapshot. -/
  p0 : Nat
  preRef : Nat
  drainAt : Option Nat
  drained : Bool
  loaded : Bool
  /-- Standby: records received and not yet applied, with LPOS and instant of arrival; the ADMIT that waits for a fetched
  item; items fetched, by leaf and ISEQ. -/
  store : List (Nat × Nat × LogRec)
  fetch : Option Nat
  fetched : List (Nat × Nat × Item)
  /-- Releases are stopped for a relinquish or a handover; the handover waits for LPOS_ACK. -/
  stopped : Bool
  handing : Bool
  /-- Standby: a takeover decided: TKO_CAUSE, records to apply first, and when it stops waiting for them. -/
  relq : Option (Nat × Nat × Nat)
  /-- Serial number of the last local candidate matched by the log, by port (R252). -/
  matched : List (Nat × Nat)
  /-- Event slot writes that wait for their H (R249): H, offset and word. -/
  atH : List (Nat × Nat × Nat)
  deriving DecidableEq, Repr

/-- No twin and no log. -/
def Twin.fresh : Twin :=
  ⟨[], 0, 0, [], false, 0, [], none, 0, 0, 0, 0, none, false, false, [], none, [], false, false, none, [], []⟩

/-! ### Resets, sleep, self-test and the attic (R404 to R428) -/

/-- What the device keeps of itself beyond its blocks. -/
structure SysCtl where
  /-- The clock when DEVRST_ARM and WIPE_ARM were last armed. -/
  devArm : Option Nat
  wipeArm : Option Nat
  /-- The clock at the last device reset. -/
  rstAt : Option Nat
  /-- Banks (bit 0 A to 3 D) whose VDDIO left its range since reset release; a JTAG instruction has taken the balls. -/
  banksOff : Nat
  jtag : Bool
  /-- Always-on domain: the clock when it was powered, the wake settings that crossed at SLEEP, the CAN controllers that
  offer a wake, causes latched, and the clock when PWR_HOLD fell. -/
  aoBase : Nat
  wakeEn : Nat
  wakeAt : Nat
  canWake : Nat
  causes : Nat
  offAt : Option Nat
  /-- Test slots that run: slot, start, and the clock at the checker's lock. -/
  tests : List (Nat × Nat × Option Nat)
  deriving DecidableEq, Repr

/-- Nothing armed, asleep or under test. -/
def SysCtl.fresh : SysCtl := ⟨none, none, none, 0, false, 0, 0, 0, 0, 0, none, []⟩

/-- An image in the attic (R410): first bank, banks, generation, whether ICRC and MARK were written, commit point, length,
and the RWA fields it holds that differ from their factory-inert value, by bit address. -/
structure AtImage where
  first : Nat
  banks : Nat
  gen : Nat
  whole : Bool
  cpS : Nat
  cpNs : Nat
  bytes : Nat
  fields : List (Nat × Nat)
  deriving DecidableEq, Repr

/-- The attic: images by their headers, a commit that waits, the generation being written, the last commit point. -/
structure Attic where
  images : List AtImage
  waiting : Bool
  writing : Option Nat
  lastPoint : Option Nat
  deriving DecidableEq, Repr

structure State where
  /-- Commands waiting, first in first out. -/
  pending : List Instr
  /-- Fields of BAR0 that do not hold their reset value: bit address and value. -/
  regs : List (Nat × Nat)
  /-- Words of table entries written and held until word 0x00 of their entry commits them: address and word. -/
  held : List (Nat × Nat)
  /-- Writes of shadow entries and of commit registers held while a batch swap runs (R86): address and word, in order. -/
  swapHeld : List (Nat × Nat)
  /-- Listener list and member list entries written since they were last committed (R114, R230). -/
  listPend : List Nat
  mlistPend : List Nat
  time : TimeBase
  axis : Axes
  tong : Tongs
  host : HostIf
  /-- Receive side of each port. -/
  rx : List (Nat × RxPort)
  candNo : Nat
  /-- The candidate each anvil holds. -/
  anvils : List (Nat × Built)
  /-- Counts table commits: which tables a lookup used (R87). -/
  tblGen : Nat
  conc : Conc
  del : Deliv
  can : Can
  eth : List (Nat × EthPort)
  /-- BSEQ of the last KIND 7 block admitted for each flow and schedule (R183): key FLOW × 2^16 + SCHED. -/
  blkSeq : List (Nat × Nat)
  ring : Ring
  sbox : Sbox
  cel : Cellar
  /-- Bytes of the cellar that are not 0, in rising order of address. -/
  cells : List Host.Cell
  jrnl : Jrnl
  twin : Twin
  sys : SysCtl
  attic : Attic
  out : List Emission
  /-- How many free values have been drawn. -/
  free : Nat
  deriving DecidableEq, Repr

/-- The device right after a power-on reset (R404, R409): every register at its reset value, every FIFO, queue and
buffer empty, the command queue empty. -/
def State.reset : State :=
  { pending := [], regs := [], held := [], swapHeld := [], listPend := [], mlistPend := [], time := TimeBase.fresh 0, axis := ⟨[], [], []⟩, tong := ⟨[], 0, [], [], 0, []⟩
    host := ⟨[], false, 0, [], [], [], [], [], [], [], []⟩, rx := [], candNo := 0, anvils := [], tblGen := 0
    conc := ⟨[], []⟩, del := ⟨[], 0, 0, 0, [], [], [], []⟩, can := ⟨[], [], []⟩, eth := [], blkSeq := []
    ring := ⟨[], [], [], [], [], [], 0, [], [], [], [], [], [], [], [], [], 0, 0⟩
    sbox := ⟨[], 0, [], none, none, false⟩, cel := ⟨0, 0, 0, 0, 0, 0, [], 0, 0, 0, 0⟩, cells := [], jrnl := ⟨[], none, 0, 0⟩
    twin := Twin.fresh, sys := SysCtl.fresh, attic := ⟨[], false, none, none⟩, out := [], free := 0 }

end Sys2Proof.Machine
end

