-- ==== Sys2Proof/Machine/Ops.lean ====
section
/-! DEFINITION. Machine/Ops.lean: the named operations over the state that every meaning is written with: register
fields and counters, page events with their MSI-X messages and pop records, refused writes, roles, and the clock. -/

namespace Sys2Proof.Machine

/-! ### Conditional update and loops -/

/-- `f s` when `c`, else `s`. -/
def State.when (s : State) (c : Bool) (f : State → State) : State := if c then f s else s

/-- `f` applied for each element of a list in order. -/
def State.each {α : Type} (s : State) (l : List α) (f : State → α → State) : State := l.foldl f s

/-! ### The register file: one cell per field, keyed by its bit address; an unlisted field holds its reset value -/

/-- The value listed under a key. -/
def regLook : List (Nat × Nat) → Nat → Option Nat
  | [], _ => none
  | (k, v) :: l, a => if k = a then some v else regLook l a

/-- Insert a cell before the first larger key. -/
def regIns (k v : Nat) : List (Nat × Nat) → List (Nat × Nat)
  | [] => [(k, v)]
  | (k', v') :: l => if k < k' then (k, v) :: (k', v') :: l else (k', v') :: regIns k v l

/-- Write a cell in canonical form: no entry holds its reset value `dflt`. -/
def regPut (l : List (Nat × Nat)) (k v dflt : Nat) : List (Nat × Nat) :=
  let l' := l.filter (fun c => !(c.1 == k))
  if v = dflt then l' else regIns k v l'

/-- The keys of a register file rise strictly. -/
def regOrdered : List (Nat × Nat) → Bool
  | [] => true
  | (k, _) :: l => l.all (fun c => k < c.1) && regOrdered l

/-- The key of a field: its bit address in BAR0. -/
def fldKey (base : Nat) (f : Fld) : Nat := 8 * (base + f.off) + f.lo

/-- Read a field of the page or entry at `base`: a value of the field's width. -/
def State.rd (s : State) (base : Nat) (f : Fld) : Nat := (regLook s.regs (fldKey base f)).getD f.rst % 2 ^ f.width

/-- Write a field; the value is cut to the field's width. -/
def State.wr (s : State) (base : Nat) (f : Fld) (v : Nat) : State :=
  { s with regs := regPut s.regs (fldKey base f) (v % 2 ^ f.width) f.rst }

/-- A one-bit field as a Boolean. -/
def State.on (s : State) (base : Nat) (f : Fld) : Bool := s.rd base f == 1

/-- Write a one-bit field. -/
def State.wrB (s : State) (base : Nat) (f : Fld) (b : Bool) : State := s.wr base f b.toNat

/-- Two's complement reading of a `w`-bit value. -/
def toSigned (w v : Nat) : Int := if v < 2 ^ (w - 1) then (v : Int) else (v : Int) - (2 ^ w : Nat)

/-- The `w`-bit two's complement of an integer. -/
def ofSigned (w : Nat) (i : Int) : Nat := (i % (2 ^ w : Nat)).toNat

/-- Read a field as a signed value. -/
def State.rdI (s : State) (base : Nat) (f : Fld) : Int := toSigned f.width (s.rd base f)

/-- Write a field from a signed value. -/
def State.wrI (s : State) (base : Nat) (f : Fld) (i : Int) : State := s.wr base f (ofSigned f.width i)

/-- Add to a counter; counters wrap at 64 bits (R65). -/
def State.add (s : State) (base : Nat) (f : Fld) (n : Nat) : State := s.wr base f (s.rd base f + n)

/-- Count one. -/
def State.inc (s : State) (base : Nat) (f : Fld) : State := s.add base f 1

/-- Saturating increment of a narrower field. -/
def State.incSat (s : State) (base : Nat) (f : Fld) : State :=
  s.wr base f (min (s.rd base f + 1) (2 ^ f.width - 1))

/-- Counter `i` of a block of 64-bit counters. -/
def ctr (i : Nat) : Fld := ⟨8 * i, 0, 64, 0⟩

/-! ### Bases of pages and table entries (R381, R382) -/

def pgAt (n : Nat) : Nat := 0x1000 * n
def pgSYS : Nat := 0x0000
def pgHOST : Nat := 0x1000
def pgPWR : Nat := 0x2000
def pgTEST : Nat := 0x3000
def pgATTC : Nat := 0x4000
def pgSBOX : Nat := 0x5000
def pgTIME : Nat := 0x6000
def pgAXIS : Nat := 0x7000
def pgTWIN : Nat := 0x8000
def pgRINGP (i : Nat) : Nat := 0x10000 + 0x1000 * i
def pgRING : Nat := 0x14000
def pgETH (i : Nat) : Nat := 0x18000 + 0x1000 * i
def pgCAN (i : Nat) : Nat := 0x20000 + 0x1000 * i
def pgUART (i : Nat) : Nat := 0x40000 + 0x1000 * i
def pgTONG (i : Nat) : Nat := 0x60000 + 0x1000 * i
def pgTONGS : Nat := 0x70000
def pgANV (i : Nat) : Nat := 0x80000 + 0x1000 * i
def pgFLOW : Nat := 0x90000
def pgRULE : Nat := 0x91000
def pgCONC : Nat := 0x92000
def pgLARD : Nat := 0xA0000
def pgBELL : Nat := 0xA1000
def pgCELL : Nat := 0xA2000
def pgJRNL : Nat := 0xA3000
def ingestAt (p : Nat) : Nat := 0x300000 + 0x20 * p
def ingestCtrAt (p : Nat) : Nat := 0x400000 + 512 * p
def flowShAt (f : Nat) : Nat := 0x100000 + 0x40 * f
def flowAt (f : Nat) : Nat := 0x600000 + 0x40 * f
def flowCtrAt (f : Nat) : Nat := 0x500000 + 32 * f
def flowSnapAt (f : Nat) : Nat := 0x580000 + 32 * f
def fstateAt (f : Nat) : Nat := 0x700000 + 0x40 * f
def ruleShAt (r : Nat) : Nat := 0x200000 + 0x20 * r
def ruleAt (r : Nat) : Nat := 0x210000 + 0x20 * r
def ruleCtrAt (r : Nat) : Nat := 0x220000 + 32 * r
def ruleSnapAt (r : Nat) : Nat := 0x230000 + 32 * r
def pquarAt (p : Nat) : Nat := 0x240000 + 0x10 * p
def groupShAt (g : Nat) : Nat := 0x250000 + 0x20 * g
def groupAt (g : Nat) : Nat := 0x254000 + 0x20 * g
def gstateAt (g : Nat) : Nat := 0x258000 + 0x40 * g
def groupCtrAt (g : Nat) : Nat := 0x260000 + 64 * g
def groupSnapAt (g : Nat) : Nat := 0x268000 + 64 * g
def slotAt (k : Nat) : Nat := 0x270000 + 0x20 * k
def slotStatAt (k : Nat) : Nat := 0x271000 + 0x20 * k
def portmapAt (p : Nat) : Nat := 0x280000 + 0x10 * p
def mgroupShAt (m : Nat) : Nat := 0x288000 + 0x10 * m
def mgroupAt (m : Nat) : Nat := 0x298000 + 0x10 * m
def nodeAt (n : Nat) : Nat := 0x2B0000 + 0x40 * n
def mlistShAt (i : Nat) : Nat := 0x2C0000 + 4 * i
def mlistAt (i : Nat) : Nat := 0x2E0000 + 4 * i
def subShAt (f : Nat) : Nat := 0x800000 + 0x10 * f
def subAt (f : Nat) : Nat := 0x840000 + 0x10 * f
def llistShAt (i : Nat) : Nat := 0x880000 + 4 * i
def llistAt (i : Nat) : Nat := 0x8C0000 + 4 * i
def lportAt (p : Nat) : Nat := 0x900000 + 0x40 * p
def queueAt (q : Nat) : Nat := 0x920000 + 0x20 * q
def queueCtrAt (q : Nat) : Nat := 0xA00000 + 64 * q
def queueSnapAt (q : Nat) : Nat := 0xB00000 + 64 * q
def dispCtrAt (f : Nat) : Nat := 0xC00000 + 64 * f
def dispSnapAt (f : Nat) : Nat := 0xD00000 + 64 * f
def frameCtrAt (p : Nat) : Nat := 0xE00000 + 128 * p
def fifoAt (p : Nat) : Nat := 0xE40000 + 0x40 * p
def steerAt (f : Nat) : Nat := 0xE60000 + f
def txringAt (r : Nat) : Nat := 0xE80000 + 0x20 * r
def rxringAt (r : Nat) : Nat := 0xE81000 + 0x20 * r
def raAt (k : Nat) : Nat := 0xEC0000 + 0x80 * k
def popAt : Nat := 0xF20000
def metaAt (k : Nat) : Nat := 0xF15000 + 0x20 * k

/-! ### Time: the reference clock and H (R15; the discipline itself is in Machine/Time.lean) -/

/-- One nanosecond and one second in the device's internal units of 1/65 536 ns (R15). -/
def nsU : Nat := 65536
def secU : Nat := 65536000000000

/-- Whole seconds, and the nanoseconds within the second, of an instant; stamps truncate the fraction (R15). -/
def secOf (h : Nat) : Nat := h / secU
def nsOf (h : Nat) : Nat := h / nsU % 1000000000
def fracOf (h : Nat) : Nat := h % nsU

/-- An instant from its parts. -/
def instant (sec ns frac : Nat) : Nat := sec * secU + ns * nsU + frac

/-- Microseconds and milliseconds as a duration. -/
def usU : Nat := 65536000
def msU : Nat := 65536000000

/-- The instant a command happens at: the reference clock advances to `t` and H with it, at the rate the discipline
loop has set (R154). A time already past is the present. -/
def State.at (s : State) (t : Nat) : State :=
  let e := t - s.time.clk
  { s with time := { s.time with
      clk := s.time.clk + e
      h := s.time.h + (((e : Int) * (1000000000000 + s.time.y)) / 1000000000000).toNat } }

/-- How every command happens: at its instant `t` it acts as `f`, on everything but the queue of commands; and no command
but for its own instant moves the reference clock. -/
def State.happen (s : State) (t : Nat) (f : State → State) : Host.Outcome State Fault Refusal :=
  let u := f (s.at t)
  .next { u with pending := s.pending, time := { u.time with clk := (s.at t).time.clk } }

/-- One more free value drawn: the constant of Config at the state's counter, and the counter advanced. -/
def State.fresh (s : State) : Nat × State := (Config.freeValue s.free, { s with free := s.free + 1 })

/-! ### What leaves the device -/

/-- Is the ball that an emission needs taken from its block: by a JTAG instruction (R441), or with its I/O bank (R435)?
SerDes lanes and the PCIe link have no bank. -/
def State.ballOff (s : State) (e : Emission) : Bool :=
  match e with
  | .uartTx _ _ | .uartBreak _ _ => s.sys.jtag || s.sys.banksOff.testBit 0
  | .canTx _ _ | .ppsPulse _ _ _ _ => s.sys.jtag || s.sys.banksOff.testBit 1
  | .pwrHold _ => s.sys.jtag
  | _ => false

/-- Record one thing that leaves the device (a packet, a frame, a write to the host, a level on a ball). -/
def State.emit (s : State) (e : Emission) : State := if s.ballOff e then s else { s with out := s.out ++ [e] }

/-! ### Roles -/

/-- ROLE of the TWIN page (R242): 0 STARTING, 1 STANDBY, 2 ACTIVE, 3 SEALED. -/
def State.role (s : State) : Nat := s.rd pgTWIN TWIN_ROLE
def State.active (s : State) : Bool := s.role == 2

/-- The boot has reached FORWARD (R406) and no sleep has begun (R415): anvils, bellows and local ports run. -/
def State.forward (s : State) : Bool := s.rd pgPWR PWR_BOOT_STAGE == 7

/-- This hub's node ID (R16, R241): 0xFE strapped FIRST, else 0xFF. -/
def State.nodeId (s : State) : Nat := if s.on pgSYS SYS_FIRST then 0xFE else 0xFF

/-- TSTATE of the TWIN page (R242). -/
def State.tstate (s : State) : Nat := s.rd pgTWIN TWIN_TSTATE

/-- In step with the twin. -/
def State.inStep (s : State) : Bool := s.tstate == 3

/-- A standby in step, which refuses carried writes (R250). -/
def State.standbyInStep (s : State) : Bool := s.role == 1 && s.inStep

/-- A standby that follows the active hub's log: resync has loaded its state, or the hubs are in step (R144, R261). -/
def State.follows (s : State) : Bool := s.role == 1 && decide (2 ≤ s.tstate)

/-- Set or clear a bit of HEALTH (R253). -/
def State.setHealth (s : State) (b : Nat) (on : Bool) : State :=
  let h := s.rd pgTWIN TWIN_HEALTH
  s.wr pgTWIN TWIN_HEALTH (if on then h ||| 2 ^ b else h &&& (4095 - 2 ^ b))

/-! ### MSI-X, events and pop records (R383, R384, R393) -/

/-- Vector control of the MSI-X table: the mask bit reads 1 at reset (R401). -/
def msixMask (v : Nat) : Fld := ⟨0x400 + 16 * v + 12, 0, 1, 1⟩
def msixAddr (v : Nat) : Fld := ⟨0x400 + 16 * v, 0, 64, 0⟩
def msixData (v : Nat) : Fld := ⟨0x400 + 16 * v + 8, 0, 32, 0⟩
/-- Pending bit of a vector in the PBA. -/
def pbaBit (v : Nat) : Fld := ⟨0x3F8 + v / 32 * 4, v % 32, 1, 0⟩

/-- Send one message: a write of the vector's data to its address (R384), while the function may write (R373). -/
def State.msixSend (s : State) (v : Nat) : State :=
  if Config.busMaster s.time.clk && Config.msixEnabled s.time.clk then
    { (s.inc pgHOST HOST_C_MSIX_SENT).emit
        (.msix v (s.rd pgHOST (msixAddr v)) (s.rd pgHOST (msixData v))) with
      host := { s.host with vecLast := tabPut s.host.vecLast v s.time.clk } }
  else s.wr pgHOST (pbaBit v) 1

/-- Request a message on one of the 64 vectors: pending while masked, merged within the holdoff, else sent (R384). -/
def State.msixReq (s : State) (v : Nat) : State :=
  let v := v % 64
  if s.on pgHOST (msixMask v) then s.wr pgHOST (pbaBit v) 1
  else
    let hold := s.rd pgHOST (HOST_VEC_HOLDOFF_US.at v 4) * usU
    match tabGet? s.host.vecLast v with
    | some l => if hold ≠ 0 && s.time.clk < l + hold
        then { s with host := { s.host with vecWait := insertNat v s.host.vecWait } } else s.msixSend v
    | none => s.msixSend v

/-- Bit `page` of a page summary (EVT_SUM, ERR_SUM) of page 0x000. -/
def sumFld (f : Fld) (page : Nat) : Fld := f.at (page / 32) 4

/-- EVT_SUM follows the page: it reads 1 while an enabled event bit is set (R399). -/
def State.evtSum (s : State) (page : Nat) : State :=
  let pend := s.rd (pgAt page) PG_PG_EVT &&& s.rd (pgAt page) PG_PG_EVT_EN
  let f := sumFld SYS_EVT_SUM page
  let w := s.rd pgSYS f
  s.wr pgSYS f (if pend = 0 then w &&& (2 ^ 32 - 1 - 2 ^ (page % 32)) else w ||| 2 ^ (page % 32))

/-- A pop record is lost to a full FIFO (R393): POP_LOST counts it, OVF is due in the next record and POP_OVF, bit 4 of
page 0x001, is raised. That event's own record, if it asks for one, meets the same full FIFO. -/
def State.popLose (s : State) : State :=
  let s := s.inc pgHOST HOST_C_POP_LOST
  let s := { s with host := { s.host with popLost := true } }
  let old := s.rd pgHOST PG_PG_EVT
  let s := (s.wr pgHOST PG_PG_EVT (old ||| 0x10)).evtSum 1
  if !old.testBit 4 && (s.rd pgHOST PG_PG_EVT_EN).testBit 4 then
    let s := s.when (s.on pgHOST PG_POP) (·.inc pgHOST HOST_C_POP_LOST)
    s.when (s.on pgHOST PG_MSG) (fun s => s.msixReq (s.rd pgHOST PG_VEC))
  else s

/-- Push one record into the pop FIFO of 256, or lose it (R393). -/
def State.popPush (s : State) (page bit : Nat) : State :=
  if s.host.pop.length ≥ 256 then s.popLose
  else
    let r : PopRec := ⟨nsOf s.time.h, s.host.popLost, bit, page⟩
    let s := { s with host := { s.host with pop := s.host.pop ++ [r], popLost := false } }
    s.wr popAt POP_POP_LVL s.host.pop.length

/-- An enabled bit has become pending: message with MSG 1, pop record with POP 1 (R383, R393). -/
def State.evtNotify (s : State) (page bit : Nat) : State :=
  let s := s.when (s.on (pgAt page) PG_POP) (·.popPush page bit)
  s.when (s.on (pgAt page) PG_MSG) (fun s => s.msixReq (s.rd (pgAt page) PG_VEC))

/-- Raise event `bit` of a page (R383). -/
def State.raise (s : State) (page bit : Nat) : State :=
  let old := s.rd (pgAt page) PG_PG_EVT
  let s := s.wr (pgAt page) PG_PG_EVT (old ||| 2 ^ bit)
  let s := s.evtSum page
  s.when (!old.testBit bit && (s.rd (pgAt page) PG_PG_EVT_EN).testBit bit) (·.evtNotify page bit)

/-! ### Refused writes (R9, R10, R11, R378, R399) -/

/-- ERROR of a page is set and, if it was clear, the code recorded; ERR_SUM and ERR_ANY of page 0x000 follow. -/
def State.markError (s : State) (page code : Nat) : State :=
  let first := !s.on (pgAt page) PG_ERROR
  let s := s.wr (pgAt page) PG_ERROR 1
  let s := s.when first (·.wr (pgAt page) PG_ERR_CODE code)
  let f := sumFld SYS_ERR_SUM page
  (s.wr pgSYS f (s.rd pgSYS f ||| 2 ^ (page % 32))).raise 0 0

/-- A refused write, reported by a page and counted. -/
def State.refuse (s : State) (page code : Nat) : State :=
  let s := s.inc pgSYS SYS_C_ERR_WRITES
  let s := s.when (code == 2) (·.inc pgSYS SYS_C_LOCK_REFUSED)
  s.markError page code

/-- Codes of R378. -/
def errILLEGAL : Nat := 1
def errLOCKED : Nat := 2
def errIN_RESET : Nat := 3
def errPOWERED_DOWN : Nat := 4

/-! ### Counters and snapshots (R65) -/

/-- Copy `n` 64-bit counters at `src` to `dst`. -/
def State.snapBlock (s : State) (src dst n : Nat) : State :=
  s.each (List.range n) (fun s i => s.wr dst (ctr i) (s.rd src (ctr i)))

/-- Clear `n` 64-bit counters at `src`. -/
def State.clearBlock (s : State) (src n : Nat) : State :=
  s.each (List.range n) (fun s i => s.wr src (ctr i) 0)

end Sys2Proof.Machine
end

