-- ==== Sys2Proof/Machine/Regs.lean ====
section
/-! DEFINITION. Machine/Regs.lean: reading and writing BAR0 by word. A word is the composition of the fields that lie
in it (R6, R7); reserved bits read 0 and are ignored when written (R12). -/

namespace Sys2Proof.Machine

/-- First bit of a field in its page or entry. -/
def Fld.start (f : Fld) : Nat := 8 * f.off + f.lo

/-- Does the field have a bit in the word at offset `off`? -/
def Fld.inWord (f : Fld) (off : Nat) : Bool :=
  decide (f.start < 8 * off + 32) && decide (8 * off < f.start + f.width)

/-- The bits that a field of value `v` gives the word at `off`. -/
def Fld.part (f : Fld) (v off : Nat) : Nat :=
  (if 8 * off ≤ f.start then v * 2 ^ (f.start - 8 * off) else v / 2 ^ (8 * off - f.start)) % 2 ^ 32

/-- The field's value after the word at `off` is written as `w`. -/
def Fld.merge (f : Fld) (old off w : Nat) : Nat :=
  if 8 * off ≤ f.start then
    let sh := f.start - 8 * off
    let n := min f.width (32 - sh)
    old - old % 2 ^ n + w / 2 ^ sh % 2 ^ n
  else
    let k := 8 * off - f.start
    let n := min (f.width - k) 32
    old % 2 ^ k + w % 2 ^ n * 2 ^ k + old / 2 ^ (k + n) * 2 ^ (k + n)

/-- The copy of a row's field that has bits in the word at `off`. -/
def Row.copyAt (r : Row) (off : Nat) : Option Fld :=
  let d := off - r.fld.off
  let i := if r.stride = 0 then 0 else min (d / r.stride) (r.cnt - 1)
  let j := if r.inner ≤ 1 then 0 else min ((d - i * r.stride) / 4) (r.inner - 1)
  let f := { r.fld with off := r.fld.off + i * r.stride + 4 * j }
  if f.inWord off then some f else none

/-- The fields, with their rows, of the word at `off`. -/
def rowsIn (rows : List Row) (off : Nat) : List (Row × Fld) :=
  rows.filterMap (fun r => (r.copyAt off).map (fun f => (r, f)))

/-- Is a field value legal under its row (R9)? -/
def Legal.ok (l : Legal) (width v : Nat) : Bool :=
  match l with
  | .any => true
  | .range a b => decide (a ≤ v ∧ v ≤ b)
  | .zeroOr a b => decide (v = 0 ∨ (a ≤ v ∧ v ≤ b))
  | .signed a b => decide (a ≤ toSigned width v ∧ toSigned width v ≤ b)

/-- The word at `off` of the entry at `base`; write-only fields read 0 (R7). -/
def State.word (s : State) (base : Nat) (rows : List Row) (off : Nat) : Nat :=
  (rowsIn rows off).foldl (fun a rf => if rf.1.acc = .wo then a else a + rf.2.part (s.rd base rf.2) off) 0

/-- Write the settable fields of the word at `off`: RW and RWA take the value, W1S takes each 1 (R7). -/
def State.setWord (s : State) (base : Nat) (rows : List Row) (off w : Nat) : State :=
  s.each (rowsIn rows off) (fun s rf =>
    let old := s.rd base rf.2
    let new := rf.2.merge old off w
    match rf.1.acc with
    | .rw | .rwa => s.wr base rf.2 new
    | .w1s => s.wr base rf.2 (old ||| rf.2.merge 0 off w)
    | .w1c => s.wr base rf.2 (old - (old &&& rf.2.merge 0 off w))
    | .ro | .wo => s)

/-- Every settable field of the word at `off` would be legal after the write. -/
def State.wordLegal (s : State) (base : Nat) (rows : List Row) (off w : Nat) : Bool :=
  (rowsIn rows off).all (fun rf =>
    match rf.1.acc with
    | .rw | .rwa => rf.1.legal.ok rf.2.width (rf.2.merge (s.rd base rf.2) off w)
    | _ => true)

/-- A held word of an entry, if one is held. -/
def State.heldWord? (s : State) (a : Nat) : Option Nat := tabGet? s.held a

/-- Apply the held words of an entry at offsets `offs`, and drop them from the hold. -/
def State.applyHeld (s : State) (base : Nat) (rows : List Row) (offs : List Nat) : State :=
  s.each offs (fun s o =>
    match tabGet? s.held (base + o) with
    | some w => { (s.setWord base rows o w) with held := tabDel s.held (base + o) }
    | none => s)

/-- Drop the held words of an entry. -/
def State.dropHeld (s : State) (base : Nat) (offs : List Nat) : State :=
  { s with held := s.held.filter (fun c => !offs.any (fun o => c.1 == base + o)) }

/-- Every settable field of an entry's words is legal as the entry stands. -/
def State.entryLegal (s : State) (base : Nat) (rows : List Row) (offs : List Nat) : Bool :=
  offs.all (fun o => s.wordLegal base rows o (s.word base rows o))

/-- Entries of a table that have a cell listed at bit `b` of the entry. -/
def State.listedBit (s : State) (base step n b : Nat) : List Nat :=
  s.regs.filterMap (fun c =>
    if 8 * base ≤ c.1 ∧ c.1 < 8 * (base + step * n) ∧ (c.1 - 8 * base) % (8 * step) = b
    then some ((c.1 - 8 * base) / (8 * step)) else none)

/-- Entries of a table that have a cell listed at bit 0 of their first word: the entries whose VALID is set. -/
def State.listed (s : State) (base step n : Nat) : List Nat := s.listedBit base step n 0

end Sys2Proof.Machine
end

