-- ==== Sys2Proof/Machine/Keys.lean ====
section
/-! DEFINITION. Machine/Keys.lean: which slot keys are usable and for what (R349, R352). -/

namespace Sys2Proof.Machine

/-- Is a slot's key usable: the slot and every ancestor LOADED? A slot has at most two ancestors. -/
def State.slotUsable (s : State) (k : Nat) : Bool :=
  let up (k : Nat) : Nat := s.rd (metaAt k) META_PARENT
  let ok (k : Nat) : Bool := s.rd (metaAt k) META_STATE == 1
  if k = 0 then ok 0 else if s.rd (metaAt k) META_LEVEL = 2 then ok k && ok (up k) && ok 0 else ok k && ok 0

def State.slotKey (s : State) (k : Nat) : List Byte := (tabGet? s.sbox.keys k).getD []

/-- Cut or pad a list of bytes to a length. -/
def fixLen (n : Nat) (l : List Byte) : List Byte := (l ++ List.replicate n 0#8).take n

/-- Engine bits of R349. -/
def engRING : Nat := 1
def engMACSEC : Nat := 2
def engCFG : Nat := 4
def engATTEST : Nat := 8
def engSEAL : Nat := 16
def engDERIVE : Nat := 32

/-- A slot whose key is usable by an engine. -/
def State.slotFor (s : State) (k eng : Nat) : Bool := s.slotUsable k && s.rd (metaAt k) META_ENG == eng

end Sys2Proof.Machine
end

