-- ==== Sys2Proof/Machine/Cellar.lean ====
section
/-! DEFINITION. Machine/Cellar.lean: the cellar as addressed memory (R331 to R333) and the journal's blocks in it
(R337 to R340). -/

namespace Sys2Proof.Machine

/-! ### Bytes: a list of cells in rising order of address; an unlisted address reads 0 (R407) -/

def memGet : List Host.Cell → Nat → Byte
  | [], _ => 0#8
  | (k, v) :: l, a => if k = a then v else memGet l a

def memIns (k : Nat) (v : Byte) : List Host.Cell → List Host.Cell
  | [] => [(k, v)]
  | (k', v') :: l => if k < k' then (k, v) :: (k', v') :: l else (k', v') :: memIns k v l

/-- Write one byte; writing 0 removes the cell. -/
def memPut (l : List Host.Cell) (a : Nat) (v : Byte) : List Host.Cell :=
  let l' := l.filter (fun c => !(c.1 == a))
  if v = 0#8 then l' else memIns a v l'

/-- The canonical form: addresses strictly rising, and no cell holding 0. -/
def Memory.wf : List Host.Cell → Bool
  | [] => true
  | (k, v) :: l => l.all (fun c => k < c.1) && v != 0#8 && Memory.wf l

/-- Write bytes from an address on. -/
def memPutAll (l : List Host.Cell) (a : Nat) (bs : List Byte) : List Host.Cell :=
  match bs with
  | [] => l
  | b :: r => memPutAll (memPut l a b) (a + 1) r

/-- Read `n` bytes from an address on. -/
def memRead (l : List Host.Cell) (a n : Nat) : List Byte := (List.range n).map (fun i => memGet l (a + i))

/-! ### The map (R333) -/

/-- Capacity of the cellar address space. -/
def State.celCap (s : State) : Nat := s.cel.cap0 + s.cel.cap1

/-- Channel, and granule within it, of a cellar address. -/
def State.granule (s : State) (a : Nat) : Nat × Nat :=
  let g := a / 4096
  let lo := min s.cel.cap0 s.cel.cap1 / 4096
  if g < 2 * lo then (g % 2, g / 2)
  else if s.cel.cap0 ≤ s.cel.cap1 then (1, g - lo) else (0, g - lo)

/-- CHn_STATE and CHn_CAUSE (R344). -/
def chState (c : Nat) : Fld := if c = 0 then CELL_CH0_STATE else CELL_CH1_STATE
def chCause (c : Nat) : Fld := if c = 0 then CELL_CH0_CAUSE else CELL_CH1_CAUSE

def State.chInService (s : State) (c : Nat) : Bool := s.rd pgCELL (chState c) == 2

/-- May a cellar address be used by the spill store and the journal: on a channel in service, in a granule neither retired
nor still to be initialised (R333, R335, R407)? -/
def State.celUsable (s : State) (a : Nat) : Bool :=
  let g := s.granule a
  s.chInService g.1 && !s.cel.retired.contains g && decide (a / 4096 * 4096 + 4096 ≤ s.cel.inited)

/-- Store bytes in the cellar; a granule on a lost channel takes no writes. WR_BYTES counts what is written. -/
def State.celWrite (s : State) (a : Nat) (bs : List Byte) : State :=
  if s.chInService (s.granule a).1 then
    { (s.add pgCELL CELL_C_WR_BYTES bs.length) with cells := memPutAll s.cells a bs }
  else s

/-- Read bytes of the cellar; RD_BYTES counts them. -/
def State.celRead (s : State) (a n : Nat) : List Byte × State := (memRead s.cells a n, s.add pgCELL CELL_C_RD_BYTES n)

/-- `n` uncorrectable words, the last at cellar address `a` (R334), and what each channel has seen in this second. -/
def State.ueWords (s : State) (a n : Nat) : State :=
  let s := ((s.add pgCELL CELL_C_UE_WORDS n).wr pgCELL CELL_UE_ADDR a).raise 0xA2 1
  let c := if s.cel.ueAt + secU ≤ s.time.clk then { s.cel with ueAt := s.time.clk, ue0 := 0, ue1 := 0 } else s.cel
  { s with cel := if (s.granule a).1 = 0 then { c with ue0 := c.ue0 + n } else { c with ue1 := c.ue1 + n } }

def State.spillBase (s : State) : Nat := s.cel.logSz
def State.jrnlBase (s : State) : Nat := s.cel.logSz + s.cel.spillSz
def State.hostBase (s : State) : Nat := s.cel.logSz + s.cel.spillSz + s.cel.jrnlSz

/-! ### Journal blocks (R337 to R340) -/

def State.jBlocks (s : State) : Nat := s.cel.jrnlSz / 4096
def State.jAddr (s : State) (slot : Nat) : Nat := s.jrnlBase + 4096 * slot

/-- Window `w` of the freeze windows is free, COLLECTING or FROZEN (R346). -/
def State.jwState (s : State) (w : Nat) : Nat := s.rd pgJRNL (JRNL_W_STATE.at w 32)

/-- Is block `b` inside a window? -/
def State.jFrozen (s : State) (b : Nat) : Bool :=
  (List.range 4).any (fun w =>
    let first := s.rd pgJRNL (JRNL_W_FIRST_B.at w 32)
    let last := s.rd pgJRNL (JRNL_W_LAST_B.at w 32)
    (s.jwState w == 1 && decide (first ≤ b)) || (s.jwState w == 2 && decide (first ≤ b ∧ b ≤ last)))

/-- A place of the region that the next block may take: usable and holding no frozen block. -/
def State.jPlaceOk (s : State) (slot : Nat) : Bool :=
  s.celUsable (s.jAddr slot) && !(s.jrnl.blocks.any (fun b => b.slot == slot && s.jFrozen b.bseq))

/-- The first place at or after `slot`, round the region, that may be taken; `n` bounds the search. -/
def State.jPlace (s : State) (slot : Nat) : Nat → Option Nat
  | 0 => none
  | n + 1 =>
    let k := slot % max s.jBlocks 1
    if s.jPlaceOk k then some k else s.jPlace (k + 1) n

/-- The places that can hold up a search: blocks present that are frozen, and retired granules. -/
def State.jSearch (s : State) : Nat := s.jrnl.blocks.length + s.cel.retired.length + 2

/-- OLDEST_B follows the blocks present. -/
def State.jOldest (s : State) : State :=
  s.wr pgJRNL JRNL_OLDEST_B (match s.jrnl.blocks, s.jrnl.cur with
    | b :: _, _ => b.bseq | [], some o => o.bseq | [], none => s.jrnl.nextB)

/-- Open the next block, overwriting what its place held (R338). -/
def State.jOpenBlock (s : State) : State :=
  if s.jBlocks = 0 then s
  else match s.jPlace s.jrnl.nextSlot s.jSearch with
  | none => s
  | some k =>
    let taken := s.jrnl.blocks.any (fun b => b.slot == k)
    let s := s.when taken (·.inc pgJRNL JRNL_C_OVERWRITTEN)
    let j := s.jrnl
    let s := { s with jrnl := { j with
        blocks := j.blocks.filter (fun b => !(b.slot == k))
        cur := some ⟨k, j.nextB, s.rd pgJRNL JRNL_JSEQ_NEXT, 0, [], s.time.clk⟩
        nextB := j.nextB + 1, nextSlot := k + 1 } }
    (s.wr pgJRNL JRNL_HEAD_B j.nextB).jOldest

/-- The seal key: SEAL_V set and a usable key with ENG SEAL in SEAL_SLOT (R363). -/
def State.sealSlot (s : State) : Option Nat :=
  let k := s.rd pgSBOX SBOX_SEAL_SLOT
  if s.on pgSBOX SBOX_SEAL_V && s.slotFor k engSEAL then some k else none

/-- The header of a block (R337). -/
def jHeader (o : JOpen) (flags closeS : Nat) (sealB : List Byte) : List Byte :=
  leBytes 2 0x4A42 ++ leBytes 2 o.nrec ++ leBytes 2 o.data.length ++ leBytes 1 flags ++ leBytes 1 0 ++ leBytes 8 o.bseq
    ++ leBytes 8 o.firstJ ++ leBytes 8 closeS ++ sealB

def zeros (n : Nat) : List Byte := List.replicate n 0#8

/-- The seal of a block and the state after it (R340, R363): none with SEAL_EN 0 or no usable key. -/
def State.jSeal (s : State) (o : JOpen) (flags closeS : Nat) : Option (List Byte) × State :=
  if !s.on pgJRNL JRNL_SEAL_EN then (none, s)
  else match s.sealSlot with
  | none => (none, (s.inc pgJRNL JRNL_C_SEAL_SKIP).raise 0xA3 2)
  | some k =>
    let msg := s.sbox.chain ++ jHeader o (flags ||| 1) closeS (zeros 32) ++ o.data
    let v := fixLen 32 (Config.hmac384 (s.slotKey k) msg)
    let gen := s.rd (metaAt k) META_GEN
    let s := s.when (s.sbox.sealKey != none && s.sbox.sealKey != some (k, gen)) (·.wr pgSBOX SBOX_SEAL_KEY_B o.bseq)
    (some v, { s with sbox := { s.sbox with chain := v, sealKey := some (k, gen) } })

/-- Close the open block: seal it and write its header (R338, R340). -/
def State.jClose (s : State) (byTime : Bool) : State :=
  match s.jrnl.cur with
  | none => s
  | some o =>
    let closeS := secOf s.time.h
    let flags := (if byTime then 2 else 0) + (if (List.range 4).any (fun w => s.jwState w == 1) then 4 else 0)
    let r := s.jSeal o flags closeS
    let s := r.2
    let hdr := match r.1 with
      | some v => jHeader o (flags ||| 1) closeS v
      | none => jHeader o flags closeS (zeros 32)
    let s := s.celWrite (s.jAddr o.slot) hdr
    let s := (s.inc pgJRNL JRNL_C_BLOCKS).add pgJRNL JRNL_C_BYTES 64
    { s with jrnl := { s.jrnl with blocks := s.jrnl.blocks ++ [⟨o.slot, o.bseq, closeS⟩], cur := none } }

/-- Does the open block have no room for a record of `n` bytes? -/
def State.jFull (s : State) (n : Nat) : Bool :=
  match s.jrnl.cur with | some o => decide (4032 < o.data.length + n) || decide (126 ≤ o.nrec) | none => false

/-- A record of an item, padded to 8 bytes (R337). -/
def jRecord (hdr body : List Byte) : List Byte :=
  let r := hdr ++ body
  r ++ zeros ((8 - r.length % 8) % 8)

/-- Append an admitted item's record (R338). -/
def State.jAppend (s : State) (hdr body : List Byte) : State :=
  let r := jRecord hdr body
  let s := if s.jFull r.length then s.jClose false else s
  let s := if s.jrnl.cur.isNone then s.jOpenBlock else s
  match s.jrnl.cur with
  | none => s
  | some o =>
    let s := s.celWrite (s.jAddr o.slot + 64 + o.data.length) r
    let s := { s with jrnl := { s.jrnl with cur := some { o with data := o.data ++ r, nrec := o.nrec + 1 } } }
    let s := (s.inc pgJRNL JRNL_C_RECORDS).add pgJRNL JRNL_C_BYTES r.length
    s.wr pgJRNL JRNL_JSEQ_NEXT (s.rd pgJRNL JRNL_JSEQ_NEXT + 1)

/-! ### Freeze windows (R339) -/

def State.jwFind (s : State) (st : Nat) : Option Nat := (List.range 4).find? (fun w => s.jwState w == st)

/-- Blocks that the windows hold. -/
def State.jFrozenCount (s : State) : Nat := (s.jrnl.blocks.filter (fun b => s.jFrozen b.bseq)).length

/-- Give up a window's oldest blocks until the frozen blocks fit half the journal; `n` bounds the search. -/
def State.jTrim (s : State) (w : Nat) : Nat → State
  | 0 => s
  | n + 1 =>
    if s.jBlocks / 2 < s.jFrozenCount then
      let f := JRNL_W_FIRST_B.at w 32
      ((s.wr pgJRNL f (s.rd pgJRNL f + 1)).wr pgJRNL (JRNL_W_TRUNC.at w 32) 1).jTrim w n
    else s

/-- A trigger of cause 0 FREEZE, 1 TAKEOVER, 2 SEALED, 3 DUAL_ACTIVE or 4 TAMPER. -/
def State.jTrigger (s : State) (cause : Nat) : State :=
  let setTrig (s : State) (w : Nat) : State :=
    (s.wr pgJRNL (JRNL_W_TRIG_S.at w 32) (secOf s.time.h)).wr pgJRNL (JRNL_W_TRIG_NS.at w 32) (nsOf s.time.h)
  match s.jwFind 1 with
  | some w => (setTrig s w).inc pgJRNL JRNL_C_FREEZE_EXT
  | none =>
    match s.jwFind 0 with
    | none => (s.inc pgJRNL JRNL_C_FREEZE_REFUSED).raise 0xA3 1
    | some w =>
      let s := setTrig s w
      let from_ := secOf s.time.h - s.rd pgJRNL JRNL_PRE_S
      let first := match s.jrnl.blocks.find? (fun b => decide (from_ ≤ b.closeS)) with
        | some b => b.bseq
        | none => match s.jrnl.cur with | some o => o.bseq | none => s.jrnl.nextB
      let s := s.wr pgJRNL (JRNL_W_STATE.at w 32) 1
      let s := (s.wr pgJRNL (JRNL_W_TRUNC.at w 32) 0).wr pgJRNL (JRNL_W_CAUSE.at w 32) cause
      let s := (s.wr pgJRNL (JRNL_W_FIRST_B.at w 32) first).wr pgJRNL (JRNL_W_LAST_B.at w 32) 0
      (s.inc pgJRNL JRNL_C_FREEZES).jTrim w s.jrnl.blocks.length

/-- JLOC_ADDR follows JLOC_B (R346). -/
def State.jLocate (s : State) : State :=
  let b := s.rd pgJRNL JRNL_JLOC_B
  s.wr pgJRNL JRNL_JLOC_ADDR (match s.jrnl.blocks.find? (fun k => k.bseq == b) with
    | some k => s.jAddr k.slot
    | none => match s.jrnl.cur with
      | some o => if o.bseq = b then s.jAddr o.slot else 2 ^ 35 - 1
      | none => 2 ^ 35 - 1)

end Sys2Proof.Machine
end

