-- ==== Sys2Proof/Machine/Framing.lean ====
section
/-! DEFINITION. Machine/Framing.lean: the framing machine of a sentence (R46), its length limits (R47), the same
machine over a leaf's DATA (R449) and over a datagram's lines (R54), and the checks of a sentence (R48 to R51). -/

namespace Sys2Proof.Machine

/-! ### Ingest counter numbers (R66) -/

def icCAND : Nat := 0
def icITEMS : Nat := 1
def icNOISE : Nat := 2
def icTRUNC : Nat := 3
def icLINE_ERR : Nat := 4
def icBREAK : Nat := 5
def icICTO : Nat := 6
def icOVERLEN : Nat := 7
def icREFUSED_SIZE : Nat := 8
def icEOL_ERR : Nat := 9
def icOVERRUN : Nat := 10
def icNO_CHK : Nat := 11
def icCHK_FMT : Nat := 12
def icCHK_ERR : Nat := 13
def icCHAR_ERR : Nat := 14
def icADDR_ERR : Nat := 15
def icPROP_UNK : Nat := 16
def icENC_ERR : Nat := 17
def icTAG_CHK : Nat := 18
def icTAG_FMT : Nat := 19
def icTAG_PARAM : Nat := 20
def icTAG_UNKNOWN : Nat := 21
def icPASSED : Nat := 22
def icSTAMP_SUBST : Nat := 23
def icCFG_REWIND : Nat := 24
def icBYTES : Nat := 25
def icSILENT : Nat := 26

/-! ### The framing machine -/

/-- What the framing machine does with a character. -/
inductive FAct where
  | noise | skip | opens | appends | commits
  | rewind (counter : Nat)
  | reopens (counter : Nat)
  deriving DecidableEq, Repr

def bsl : Byte := 0x5C#8
def isStart (c : Byte) : Bool := c = 0x24#8 || c = 0x21#8
def cCR : Byte := 0x0D#8
def cLF : Byte := 0x0A#8
def cStar : Byte := 0x2A#8
def cComma : Byte := 0x2C#8

def frHunt : Framer := ⟨.hunt, false, 0, 0, 0, 0⟩
/-- A candidate opened at '$' or '!'. -/
def frSent : Framer := ⟨.sent, false, 1, 0, 0, 1⟩
/-- A candidate opened at '\'. -/
def frTag : Framer := ⟨.tag, false, 1, 1, 1, 0⟩

/-- Open at this character (R46, from HUNT). -/
def frOpen (c : Byte) : Framer := if isStart c then frSent else frTag

/-- Append under the limits of R47: exceeding one rewinds, and characters are then discarded uncounted. The first row
broken is the one counted. -/
def frAppend (cfg : PortCfg) (f : Framer) (act : FAct) : Framer × FAct :=
  if (f.st = .sent ∨ f.st = .cr ∨ f.st = .hunt) ∧ f.len > cfg.smax ∨ f.blk > 80 ∨ f.blks > 4 then
    ({ frHunt with skip := true }, .rewind icOVERLEN)
  else if f.body > 2040 then ({ frHunt with skip := true }, .rewind icREFUSED_SIZE)
  else (if f.st = .hunt then frHunt else f, act)

/-- One character through the machine of R46. -/
def frStep (cfg : PortCfg) (f : Framer) (c : Byte) : Framer × FAct :=
  let f1 := { f with body := f.body + 1 }
  match f.st with
  | .hunt =>
    if isStart c || c = bsl then (frOpen c, .opens) else (f, if f.skip then .skip else .noise)
  | .tag =>
    if c = bsl then frAppend cfg { f1 with st := .tagx, blk := f.blk + 1 } .appends
    else if isStart c then (frSent, .reopens icTRUNC)
    else if c = cCR || c = cLF then (frHunt, .rewind icTRUNC)
    else frAppend cfg { f1 with blk := f.blk + 1 } .appends
  | .tagx =>
    if c = bsl then frAppend cfg { f1 with st := .tag, blk := 1, blks := f.blks + 1 } .appends
    else if isStart c then frAppend cfg { f1 with st := .sent, blk := 0, len := 1 } .appends
    else (frHunt, .rewind icTRUNC)
  | .sent =>
    if isStart c || c = bsl then (frOpen c, .reopens icTRUNC)
    else if c = cCR then frAppend cfg { f1 with st := .cr, len := f.len + 1 } .appends
    else if c = cLF then
      if cfg.laxEol then frAppend cfg { f1 with st := .hunt, len := f.len + 1 } .commits
      else (frHunt, .rewind icEOL_ERR)
    else frAppend cfg { f1 with len := f.len + 1 } .appends
  | .cr =>
    if c = cLF then frAppend cfg { f1 with st := .hunt, len := f.len + 1 } .commits
    else if isStart c || c = bsl then (frOpen c, .reopens icEOL_ERR)
    else (frHunt, .rewind icEOL_ERR)

/-- R449: a leaf's DATA must open at its first byte and commit at its last; the counter of the first fault met. -/
def frameWhole (cfg : PortCfg) : Framer → List Byte → Option Nat
  | _, [] => some icTRUNC
  | f, c :: l =>
    match frStep cfg f c with
    | (_, .noise) | (_, .skip) => some icTRUNC
    | (_, .rewind n) => some n
    | (_, .reopens n) => some (if n = icEOL_ERR then icEOL_ERR else icTRUNC)
    | (_, .commits) => if l.isEmpty then none else some icTRUNC
    | (f', _) => frameWhole cfg f' l

/-- R54: the lines of a datagram payload, each from its opening to its LF, or the counter of the first fault. -/
def frameLines (cfg : PortCfg) : Framer → List Byte → List Byte → Except Nat (List (List Byte))
  | f, _, [] => if f.st = .hunt then .ok [] else .error icTRUNC
  | f, acc, c :: l =>
    match frStep cfg f c with
    | (_, .noise) | (_, .skip) => .error icTRUNC
    | (_, .rewind n) | (_, .reopens n) => .error n
    | (f', .opens) => frameLines cfg f' [c] l
    | (f', .appends) => frameLines cfg f' (acc ++ [c]) l
    | (f', .commits) => (frameLines cfg f' [] l).map (fun r => (acc ++ [c]) :: r)

/-! ### The checks of a sentence -/

/-- Reserved characters of R49. -/
def isReserved (b : Byte) : Bool := b = 0x21#8 || b = 0x24#8 || b = cStar || b = cComma || b = bsl || b = 0x5E#8

/-- Every character valid under R49; '^' takes two hexadecimal digits; ',' is allowed as a delimiter with `commas`. -/
def charsOk (lax commas : Bool) : List Byte → Bool
  | [] => true
  | b :: l =>
    if b = 0x5E#8 then
      match l with
      | x :: y :: l' => (hexVal lax x).isSome && (hexVal lax y).isSome && charsOk lax commas l'
      | _ => false
    else if b = cComma && commas then charsOk lax commas l
    else 32 ≤ b.toNat && b.toNat ≤ 0x7D && !isReserved b && charsOk lax commas l

/-- Split leading TAG blocks from the sentence: contents between the '\' of each block, and the rest. -/
def splitTags : Nat → List Byte → List (List Byte) × List Byte
  | 0, l => ([], l)
  | n + 1, l =>
    match l with
    | b :: l' =>
      if b = bsl then
        match cutB bsl l' with
        | (blk, some rest) => let r := splitTags n rest; (blk :: r.1, r.2)
        | (_, none) => ([], l)
      else ([], l)
    | [] => ([], [])

/-- Two hexadecimal digits as a byte. -/
def hexPair (lax : Bool) : List Byte → Option Nat
  | [a, b] => match hexVal lax a, hexVal lax b with
    | some x, some y => some (16 * x + y)
    | _, _ => none
  | _ => none

/-- Parameters of a TAG block: code and value at the first ':'. -/
def tagParams (content : List Byte) : List (List Byte × Option (List Byte)) :=
  (splitB cComma content).map (cutB 0x3A#8)

/-- Check 1 of R48 for one block. -/
def tagFmtOk (lax : Bool) (blk : List Byte) : Bool :=
  match cutB cStar blk with
  | (content, some hh) => (hexPair lax hh).isSome && (tagParams content).all (fun p => p.2.isSome)
  | (_, none) => false

/-- Check 2 of R48 for one block. -/
def tagChkOk (lax : Bool) (blk : List Byte) : Bool :=
  match cutB cStar blk with
  | (content, some hh) => hexPair lax hh = some (xorBytes content).toNat
  | (_, none) => false

def allDigits (l : List Byte) : Bool := l.all isDigit

/-- A value of 1 to `n` decimal digits. -/
def digits1 (n : Nat) (v : List Byte) : Bool := allDigits v && decide (1 ≤ v.length ∧ v.length ≤ n)

/-- The value of a known TAG code is valid (R50). -/
def tagValueOk (lax : Bool) (code : Byte) (v : List Byte) : Bool :=
  if code = chr 'c' || code = chr 'r' then digits1 10 v
  else if code = chr 'd' || code = chr 's' then decide (1 ≤ v.length ∧ v.length ≤ 15) && charsOk lax false v
  else if code = chr 'g' then
    match splitB 0x2D#8 v with
    | [x, y, z] => digits1 2 x && digits1 2 y && digits1 6 z && decide (1 ≤ decVal x ∧ decVal x ≤ decVal y)
    | _ => false
  else if code = chr 'n' then digits1 3 v && decide (1 ≤ decVal v)
  else if code = chr 't' then charsOk lax false v
  else true

def tagKnown (code : Byte) : Bool :=
  code = chr 'c' || code = chr 'd' || code = chr 'g' || code = chr 'n' || code = chr 'r' || code = chr 's' || code = chr 't'

/-- Check 3 of R48 for the parameters of one block, with the codes seen so far. -/
def tagParamsOk (lax : Bool) : List Byte → List (List Byte × Option (List Byte)) → Bool
  | _, [] => true
  | seen, (code, v?) :: l =>
    match code, v? with
    | [c], some v => isLower c && !seen.contains c && !v.isEmpty && tagValueOk lax c v && tagParamsOk lax (c :: seen) l
    | _, _ => false

/-- Content of a block without its checksum. -/
def tagContent (blk : List Byte) : List Byte := (cutB cStar blk).1

/-- Parameters of a block whose code R50 does not list. -/
def tagUnknown (blk : List Byte) : Nat :=
  ((tagParams (tagContent blk)).filter (fun p => match p.1 with | [c] => !tagKnown c | _ => false)).length

/-- Field `k` of a sentence body between the start character and '*' or the end of line; field 0 is the address. -/
def sentData (sentence : List Byte) : List Byte :=
  ((sentence.drop 1).takeWhile (fun b => b ≠ cStar && b ≠ cCR && b ≠ cLF))

def sentFields (sentence : List Byte) : List (List Byte) := splitB cComma (sentData sentence)

/-- Field `k` of a sentence, empty when it has none. -/
def sentField (sentence : List Byte) (k : Nat) : List Byte := (sentFields sentence).getD k []

/-- Check 10 of R48 (R51). -/
def encOk (sentence : List Byte) (pfld ffld : Nat) : Bool :=
  let cnt := sentField sentence 1
  let num := sentField sentence 2
  let pay := sentField sentence pfld
  let fill := sentField sentence ffld
  !cnt.isEmpty && allDigits cnt && decide (1 ≤ decVal cnt ∧ decVal cnt ≤ 9) &&
  !num.isEmpty && allDigits num && decide (1 ≤ decVal num ∧ decVal num ≤ decVal cnt) &&
  pay.all (fun b => decide (0x30 ≤ b.toNat ∧ b.toNat ≤ 0x57 ∨ 0x60 ≤ b.toNat ∧ b.toNat ≤ 0x77)) &&
  (ffld == 0 || (digits1 1 fill && decide (decVal fill ≤ 5) && (!pay.isEmpty || decVal fill == 0)))

/-- The tables of page 0x080 the checks consult: known mnemonics, and formatter, payload field and fill field. -/
structure SentTables where
  mnem : List (List Byte)
  enc : List (List Byte × Nat × Nat)
  deriving DecidableEq, Repr

/-- Standard address field of R49. -/
def stdAddr (a : List Byte) : Bool :=
  decide (a.length = 5) && a.all isUpperNum && (match a with | b :: _ => isUpper b | [] => false)

/-- Proprietary address field of R49. -/
def propAddr (a : List Byte) : Bool :=
  decide (4 ≤ a.length ∧ a.length ≤ 20) && a.all isUpperNum

/-- Checks 4 to 6 of R48: the counter of the failing one, or whether the sentence goes on without checksum. -/
def chkCheck (cfg : PortCfg) (sentence : List Byte) : Except Nat Bool :=
  match cutB cStar (sentence.drop 1) with
  | (_, none) => if cfg.chkReq then .error icNO_CHK else .ok true
  | (data, some rest) =>
    let hh := rest.takeWhile (fun b => b ≠ cCR && b ≠ cLF)
    let tail := rest.drop hh.length
    match hexPair cfg.laxHex hh with
    | none => .error icCHK_FMT
    | some v =>
      if tail.isEmpty then .error icCHK_FMT
      else if v = (xorBytes data).toNat then .ok false else .error icCHK_ERR

/-- Checks 7 to 10 of R48. -/
def bodyCheck (cfg : PortCfg) (tb : SentTables) (blocks : List (List Byte)) (sentence : List Byte) : Option Nat :=
  let addr := sentField sentence 0
  let isProp := match addr with | b :: _ => b == chr 'P' | [] => false
  if !(if isProp then propAddr addr else stdAddr addr) then some icADDR_ERR
  else if isProp && !tb.mnem.contains (slice addr 1 3) then some icPROP_UNK
  else if !(charsOk cfg.laxHex true (sentData sentence) &&
      blocks.all (fun b => (tagParams (tagContent b)).all (fun p => charsOk cfg.laxHex false (p.2.getD [])))) then
    some icCHAR_ERR
  else if sentence.head? = some 0x21#8 && !isProp then
    match tb.enc.find? (fun e => e.1 == slice addr 2 3 && e.2.1 ≠ 0) with
    | some e => if encOk sentence e.2.1 e.2.2 then none else some icENC_ERR
    | none => none
  else none

/-- The outcome of the checks of R48 on one sentence: the failing check's counter if any, whether NO_CHK counts a
sentence that proceeds, and how many unknown TAG codes are kept. -/
structure CheckOut where
  fail : Option Nat
  noChk : Bool
  unknown : Nat
  deriving DecidableEq, Repr

def checkSentence (cfg : PortCfg) (tb : SentTables) (body : List Byte) : CheckOut :=
  let sp := splitTags body.length body
  let lax := cfg.laxHex
  if !sp.1.all (tagFmtOk lax) then ⟨some icTAG_FMT, false, 0⟩
  else if !sp.1.all (tagChkOk lax) then ⟨some icTAG_CHK, false, 0⟩
  else if !sp.1.all (fun b => tagParamsOk lax [] (tagParams (tagContent b))) then ⟨some icTAG_PARAM, false, 0⟩
  else match chkCheck cfg sp.2 with
    | .error n => ⟨some n, false, 0⟩
    | .ok no =>
      match bodyCheck cfg tb sp.1 sp.2 with
      | some n => ⟨some n, no, 0⟩
      | none => ⟨none, no, (sp.1.map tagUnknown).sum⟩

/-- The sentence of a body without its TAG blocks (R68, R145). -/
def stripTags (body : List Byte) : List Byte := (splitTags body.length body).2

/-- Characters of the TAG blocks ahead of a sentence. -/
def tagChars (body : List Byte) : Nat := body.length - (stripTags body).length

end Sys2Proof.Machine
end

