-- ==== Sys2Proof/Machine/Ingest.lean ====
section
/-! DEFINITION. Machine/Ingest.lean: port front ends and their receive FIFOs (R39 to R47, R322 to R329), the ingest
port table (R42), and the UART commands. -/

namespace Sys2Proof.Machine

/-! ### Receive FIFOs -/

/-- Words of the receive FIFO of a port (R322, R323): the remote bound is its 16 KiB share of the pool (R328). -/
def rxDepth (p : Nat) : Nat :=
  if p < 32 then 512 else if p < 40 then 1024 else if p < 42 then 8192 else if p < 58 then 1024
  else if p < 64 then 0 else 2048

/-- 64-bit words of a packet of `n` bytes (R323). -/
def wordsOf (n : Nat) : Nat := (n + 7) / 8

def State.rxOf (s : State) (p : Nat) : RxPort := (tabGet? s.rx p).getD RxPort.empty

/-- LEVEL (R323): pointers count modulo twice the depth; this model lets them count on. -/
def RxPort.level (r : RxPort) : Nat := r.wp - r.fp

/-- Set a port's receive side; the FIFO window and word 0x1C of its ingest entry mirror it (R323, R329, R43). -/
def State.setRx (s : State) (p : Nat) (r : RxPort) : State :=
  let s := { s with rx := tabPut s.rx p r }
  let s := s.wr (fifoAt p) FIFO_RX_LEVEL r.level
  let s := s.wrB (fifoAt p) FIFO_RX_EMPTY (r.rp == r.cp)
  let s := s.wrB (fifoAt p) FIFO_RX_FULL (decide (rxDepth p ≤ r.level))
  s.wrB (ingestAt p) INGEST_IN_CAND r.openC.isSome

/-- Count on an ingest counter of a port (R66). -/
def State.icAdd (s : State) (p i n : Nat) : State := s.add (ingestCtrAt p) (ctr i) n
def State.icInc (s : State) (p i : Nat) : State := s.icAdd p i 1

/-- The settings of an ingest port table entry (R43). -/
def State.portCfg (s : State) (p : Nat) : PortCfg :=
  let b := ingestAt p
  { rxEn := s.on b INGEST_RX_EN, type := s.rd b INGEST_TYPE, stampPt := s.rd b INGEST_STAMP_PT
    chkReq := s.on b INGEST_CHK_REQ, laxHex := s.on b INGEST_LAX_HEX, laxEol := s.on b INGEST_LAX_EOL
    passBad := s.on b INGEST_PASS_BAD, smax := s.rd b INGEST_SMAX, baudDiv := s.rd b INGEST_BAUD_DIV
    parity := s.rd b INGEST_PARITY, stop2 := s.on b INGEST_STOP2, data7 := s.on b INGEST_DATA7
    icto := s.rd b INGEST_ICTO, delayNs := s.rd b INGEST_DELAY_NS, adjNs := s.rdI b INGEST_ADJ_NS
    diagFlow := s.rd b INGEST_DIAG_FLOW }

/-- Bits of a character frame (R44). -/
def cfgFrameBits (c : PortCfg) : Nat :=
  1 + (if c.data7 then 7 else 8) + (if c.parity = 0 then 0 else 1) + (if c.stop2 then 2 else 1)

/-- Three bit times in internal units: a bit time is 16 × BAUD_DIV / (256 × 600 MHz) (R44), that is
BAUD_DIV × 20 480 / 3 units of 1/65 536 ns. -/
def cfgBit3 (c : PortCfg) : Nat := c.baudDiv * 20480

/-- Word `FIFO window` overrun bit and counter (R45, R324). -/
def State.overrun (s : State) (p : Nat) : State := (s.wr (fifoAt p) FIFO_RX_OVERRUN 1).icInc p icOVERRUN

/-- The register page of a local port's block (R381). -/
def portPage (p : Nat) : Nat := if p < 32 then 0x40 + p else if p < 40 then p - 32 + 0x20 else if p < 42 then p - 40 + 0x18 else p - 42 + 0x60

/-- Does a port not run: before FORWARD or in sleep (R406, R415), or with its power domain down (R419)? -/
def State.portDown (s : State) (p : Nat) : Bool :=
  let d := s.rd pgPWR PWR_PD_STAT
  if !s.forward then true
  else if p < 16 then d.testBit 0 else if p < 32 then d.testBit 1 else if p < 40 then d.testBit 2
  else if p = 40 then d.testBit 3 else if p = 41 then d.testBit 4 else if 42 ≤ p ∧ p < 58 then d.testBit 10 else false

/-- A test slot runs test `tid` on target `tg` (R422, R423). -/
def State.testRuns (s : State) (tid tg : Nat) : Bool :=
  (List.range 4).any (fun k => s.rd pgTEST (TEST_SL_RSTATE.at k 32) == 2 && s.rd pgTEST (TEST_SL_TID.at k 32) == tid
    && s.rd pgTEST (TEST_SL_TARGET.at k 32) == tg)

/-- Does the UART receiver of a port deliver characters: entry enabled as a UART, running and not in reset, its ball not
taken unless it is looped (R441), not ignoring its own echo (R403), its data not diverted to a self-test checker
(R423)? -/
def State.uartHears (s : State) (p : Nat) : Bool :=
  decide (p < 32) && s.on (ingestAt p) INGEST_RX_EN && s.rd (ingestAt p) INGEST_TYPE == 1 && !s.portDown p
    && !s.on (pgUART p) PG_IN_RESET && (s.on (pgUART p) UART_LOOP || !s.sys.jtag) && !(s.on (pgUART p) UART_ECHO_SUP && s.on (pgUART p) UART_DE) && !s.testRuns 1 p

/-! ### Candidates -/

/-- Rewind the open candidate of a port: WP returns to CP (R325). -/
def RxPort.rewound (r : RxPort) : RxPort := { r with wp := r.cp, openC := none }

/-- Rewind and count once under the cause that ended it (R39). -/
def State.rewindCand (s : State) (p i : Nat) (fr : Framer) : State :=
  let r := s.rxOf p
  (s.setRx p { r.rewound with fr := fr }).icInc p i

/-- Write the next byte of the open packet: a byte that needs a new word while FULL is not stored (R323, R324). -/
def RxPort.putByte (r : RxPort) (depth : Nat) (c : OpenCand) (b : Byte) : Option RxPort :=
  if c.bytes.length % 8 = 0 then
    if depth ≤ r.level then none
    else some { r with wp := r.wp + 1, openC := some { c with bytes := c.bytes ++ [b] } }
  else some { r with openC := some { c with bytes := c.bytes ++ [b] } }

/-- Commit a whole candidate into its port's FIFO as one packet (R39, R325). The serial number is the model's. -/
def State.commitCand (s : State) (c : Cand) : State :=
  let r := s.rxOf c.port
  let r := { r with wp := r.cp + c.words, cp := r.cp + c.words, openC := none
                    cands := r.cands ++ [{ c with id := s.candNo }] }
  let s := { s with candNo := s.candNo + 1 }
  (s.setRx c.port r).icInc c.port icCAND

/-- 64-byte segments of the ingest pool that remote ports hold (R328). -/
def State.poolUsed (s : State) : Nat :=
  (s.rx.map (fun e => if 64 ≤ e.1 then (e.2.level + 7) / 8 else 0)).sum

/-- Room for a whole packet of `w` words in a port's receive FIFO; a remote port draws on the pool of 2 MiB (R328). -/
def State.rxRoom (s : State) (p w : Nat) : Bool :=
  let r := s.rxOf p
  decide (r.level + w ≤ rxDepth p) &&
    (decide (p < 64) || decide (s.poolUsed + (r.level + w + 7) / 8 ≤ 32768 + (r.level + 7) / 8))

/-- A candidate that arrives whole is committed, or meets a full FIFO: OVERRUN is set and counted (R324, R325, R328). -/
def State.offerCand (s : State) (c : Cand) : State :=
  if s.rxRoom c.port c.words then s.commitCand c else s.overrun c.port

/-- The stamp point's capture decides the DOM of a local candidate (R58). -/
def domAt (cfg : PortCfg) (o : OpenCand) (finDom : Nat) : Nat :=
  match cfg.stampPt with | 0 => o.firstDom | 1 => o.sentDom | _ => finDom

/-- The candidate a UART's open packet becomes at its LF (R46). -/
def uartCand (p : Nat) (o : OpenCand) (r : RxPort) (now clk : Nat) : Cand :=
  { id := 0, port := p, src := .sentence, remote := false, body := o.bytes, cfg := o.cfg, first := o.first
    sent := o.sent, fin := r.edge, ingest := now, born := clk, timeOk := true, dom := domAt o.cfg o r.edgeDom, path256 := 0
    words := wordsOf o.bytes.length, poison := false, leaf := 0, iseq := 0, host := [] }

/-- Open a candidate at a character (R46). A byte that meets a full FIFO is lost, with the overrun bit set (R45). -/
def State.uartOpen (s : State) (p : Nat) (fr : Framer) (b : Byte) : State :=
  let r := s.rxOf p
  let o : OpenCand := ⟨[], s.portCfg p, r.edge, r.edgeDom, r.edge, r.edgeDom⟩
  match r.putByte (rxDepth p) o b with
  | some r' => s.setRx p { r' with fr := fr }
  | none => s.overrun p

/-- A good character through the framing machine (R46). -/
def State.uartByte (s : State) (p : Nat) (b : Byte) : State :=
  let r := s.rxOf p
  let cfg := match r.openC with | some o => o.cfg | none => s.portCfg p
  match frStep cfg r.fr b with
  | (fr, .noise) => (s.setRx p { r with fr := fr }).icInc p icNOISE
  | (fr, .skip) => s.setRx p { r with fr := fr }
  | (fr, .opens) => s.uartOpen p fr b
  | (fr, .rewind n) => s.rewindCand p n fr
  | (fr, .reopens n) => (s.rewindCand p n frHunt).uartOpen p fr b
  | (fr, .appends) =>
    match r.openC with
    | none => s
    | some o =>
      let o := if r.fr.st = .tagx ∧ fr.st = .sent then { o with sent := r.edge, sentDom := r.edgeDom } else o
      match r.putByte (rxDepth p) o b with
      | some r' => s.setRx p { r' with fr := fr }
      | none => (s.setRx p { r.rewound with fr := frHunt }).overrun p
  | (fr, .commits) =>
    match r.openC with
    | none => s
    | some o =>
      match r.putByte (rxDepth p) o b with
      | some r' =>
        match r'.openC with
        | some o' => (s.setRx p { r' with fr := fr }).commitCand (uartCand p o' r s.time.h s.time.clk)
        | none => s
      | none => (s.setRx p { r.rewound with fr := frHunt }).overrun p

/-- A line fault: inside a candidate it is rewound, outside the character is discarded; counted once either way (R45). -/
def State.uartFault (s : State) (p i : Nat) : State :=
  let r := s.rxOf p
  if r.openC.isSome then s.rewindCand p i frHunt else s.icInc p i

/-- UART_CHARACTER (R45, R46): a character completes with its line result. -/
def State.uartChar (s : State) (p : Nat) (b : Byte) (badPar badStop allLow : Bool) : State :=
  let r := s.rxOf p
  let cfg := s.portCfg p
  if !r.inChar then s
  else
    let s := s.setRx p { r with inChar := false, stopAt := s.time.clk }
    if allLow then
      let s := s.wr (ingestAt p) INGEST_BREAK_NOW 1
      s.when (s.uartHears p) (·.uartFault p icBREAK)
    else if !s.uartHears p then s
    else
      let s := s.icInc p icBYTES
      if (badPar && cfg.parity != 0) || badStop then s.uartFault p icLINE_ERR
      else s.uartByte p (if cfg.data7 then b &&& 0x7F#8 else b)

/-- UART_START_EDGE (R45, R55): the receiver declares a start edge and captures it; silence ends. -/
def State.uartEdge (s : State) (p : Nat) : State :=
  let r := s.rxOf p
  if s.on (ingestAt p) INGEST_BREAK_NOW then s
  else
    let s := s.setRx p { r with edge := s.time.h, edgeDom := s.rd pgTIME TIME_SEL_DOM, inChar := true
                                silFrom := s.time.clk }
    s.when (s.uartHears p) (·.wr (ingestAt p) INGEST_SILENT 0)

/-- Have more than ICTO bit times passed since the centre of the last stop bit? The character was complete one tick after
that centre, in the next core clock (R45); thirds of a core clock are 109 226 2/3 units each. -/
def ictoPassed (c : PortCfg) (since now : Nat) : Bool :=
  decide (16 * (c.icto * cfgBit3 c) ≤ 48 * (now - since) + cfgBit3 c + 16 * 327680)

/-- ICTO_TIMEOUT (R45): inside a candidate. -/
def State.uartIcto (s : State) (p : Nat) : State :=
  let r := s.rxOf p
  match r.openC with
  | some o =>
    if o.cfg.icto ≠ 0 ∧ !r.inChar ∧ ictoPassed o.cfg r.stopAt s.time.clk
    then s.rewindCand p icICTO frHunt else s
  | none => s

/-- SILENCE_TIMEOUT (R45): SILENT_MS without a start edge; each entry counts once. -/
def State.uartSilence (s : State) (p : Nat) : State :=
  let ms := s.rd (ingestAt p) INGEST_SILENT_MS
  let from_ := max (s.rxOf p).silFrom s.time.relClk
  if ms ≠ 0 ∧ s.uartHears p ∧ !s.on (ingestAt p) INGEST_SILENT ∧ from_ + ms * msU ≤ s.time.clk then
    (s.wr (ingestAt p) INGEST_SILENT 1).icInc p icSILENT
  else s

/-- LINE_GOES_HIGH (R45): after a break the receiver hunts for start edges again. -/
def State.uartHigh (s : State) (p : Nat) : State := s.wr (ingestAt p) INGEST_BREAK_NOW 0

/-! ### The ingest port table -/

/-- Words 0x04 to 0x18 of an ingest entry are held until word 0x00 commits them (R42). -/
def ingestHeld : List Nat := [0x04, 0x08, 0x0C, 0x10, 0x14, 0x18]

/-- TYPE matches the local port that the index names, or is 0 (R43, R4). -/
def typeFits (p ty : Nat) : Bool :=
  ty == 0 || (if p < 32 then ty == 1 else if p < 40 then ty == 2 else if p < 42 then ty == 3
    else if p < 58 then ty == 4 else true)

/-- The whole entry is legal as it stands (R42, R43): words 0x04 and 0x08 are judged only with TYPE 1. -/
def State.ingestLegal (s : State) (p : Nat) : Bool :=
  let b := ingestAt p
  let smax := s.rd b INGEST_SMAX
  s.entryLegal b rows_INGEST ([0x00, 0x0C, 0x10] ++ (if s.rd b INGEST_TYPE = 1 then [0x04, 0x08] else []))
    && typeFits p (s.rd b INGEST_TYPE)
    && decide (11 ≤ smax ∧ smax ≤ (if s.on b INGEST_LONG then 2040 else 82))

/-- The line settings whose change rewinds (R41): words 0x04 and 0x08. -/
def State.lineWords (s : State) (p : Nat) : List Nat :=
  [s.word (ingestAt p) rows_INGEST 0x04, s.word (ingestAt p) rows_INGEST 0x08]

/-- A commit that changes line settings or clears RX_EN rewinds the candidate in progress; the character being received
is abandoned uncounted (R41). Silence is timed afresh from a commit that sets RX_EN or changes SILENT_MS (R45). -/
def State.ingestRestart (s old : State) (p : Nat) : State :=
  let was := old.on (ingestAt p) INGEST_RX_EN
  let is := s.on (ingestAt p) INGEST_RX_EN
  let r := s.rxOf p
  let s := if (!was && is) || old.rd (ingestAt p) INGEST_SILENT_MS ≠ s.rd (ingestAt p) INGEST_SILENT_MS
    then s.setRx p { r with silFrom := s.time.clk } else s
  let r := s.rxOf p
  if old.lineWords p ≠ s.lineWords p ∨ (was && !is) then
    let open_ := r.openC.isSome
    let s := s.setRx p { r.rewound with fr := frHunt, inChar := false }
    s.when open_ (·.icInc p icCFG_REWIND)
  else s

/-- Commit an ingest entry: the held words and word 0x00 together, or nothing (R42). Answers whether it committed. -/
def State.ingestCommit (s : State) (p w : Nat) : Bool × State :=
  let b := ingestAt p
  let t := (s.applyHeld b rows_INGEST ingestHeld).setWord b rows_INGEST 0 w
  if t.ingestLegal p then (true, if p < 32 then t.ingestRestart s p else t)
  else (false, (s.dropHeld b ingestHeld).refuse 0x80 errILLEGAL)

/-! ### FIFO flushes and counters (R327, R329) -/

/-- Bytes a receive flush discards: the open candidate and every committed one no anvil holds. -/
def State.rxFlush (s : State) (p : Nat) (held : Nat → Bool) : State :=
  let r := s.rxOf p
  let keep := r.cands.filter (fun c => held c.id)
  let gone := r.cands.filter (fun c => !held c.id)
  let n := (gone.map (fun c => c.body.length)).sum + (match r.openC with | some o => o.bytes.length | none => 0)
  let lvl := (keep.map (·.words)).sum
  let s := s.setRx p { r with wp := r.fp + lvl, cp := r.fp + lvl, rp := min r.rp (r.fp + lvl), cands := keep
                              openC := none, fr := frHunt }
  s.add (fifoAt p) FIFO_RX_FLUSHED n

end Sys2Proof.Machine
end

