-- ==== Sys2Proof/Machine/Rules.lean ====
section
/-! DEFINITION. Machine/Rules.lean: field values (R78, R79), the operators of a field rule (R77, R81) and the chain of
a flow (R82 to R84). -/

namespace Sys2Proof.Machine

/-! ### A rule entry -/

/-- A rule table entry (R76). -/
structure RuleRec where
  idx : Nat
  op : Nat
  action : Nat
  neg : Bool
  emptyFail : Bool
  next : Nat
  format : Nat
  field : Nat
  field2 : Nat
  scale : Nat
  width : Nat
  na : Bool
  slot : Nat
  wrap : Bool
  qscope : Bool
  nAccept : Nat
  unit : Nat
  a : Nat
  b : Nat
  quarMs : Nat
  gen : Nat
  deriving DecidableEq, Repr

/-- Read the rule entry at `base` (a shadow or a live copy). -/
def State.ruleRec (s : State) (idx base : Nat) : RuleRec :=
  { idx := idx, op := s.rd base RL_OP, action := s.rd base RL_ACTION, neg := s.on base RL_NEG
    emptyFail := s.on base RL_EMPTY_FAIL, next := s.rd base RL_NEXT, format := s.rd base RL_FORMAT
    field := s.rd base RL_FIELD, field2 := s.rd base RL_FIELD2, scale := s.rd base RL_SCALE
    width := s.rd base RL_WIDTH, na := s.on base RL_NA, slot := s.rd base RL_SLOT, wrap := s.on base RL_WRAP
    qscope := s.on base RL_QSCOPE, nAccept := s.rd base RL_N_ACCEPT, unit := s.rd base RL_UNIT, a := s.rd base RL_A
    b := s.rd base RL_B, quarMs := s.rd base RL_QUAR_MS, gen := s.rd base RL_GEN }

/-! ### Field values (R78, R79) -/

/-- The UdPbC token that opens a datagram payload (R54). -/
def udpbc : List Byte := ascii "UdPbC" ++ [0#8]

/-- The sentence that a sentence format reads: after the TAG blocks; for KIND 3 the first sentence of the datagram. -/
def sentenceOf (kind : Nat) (body : List Byte) : List Byte :=
  if kind = 3 then (stripTags (body.drop 6)).takeWhile (· ≠ cLF) ++ [cLF] else stripTags body

/-- Offset of the first data byte for binary formats (R78): after the 8-byte record of a KIND 4 or 5 body. -/
def dataOfs (kind : Nat) : Nat := if kind = 4 ∨ kind = 5 then 8 else 0

def isSentKind (kind : Nat) : Bool := kind == 1 || kind == 2 || kind == 3

/-- Text of field `n` (R78), empty for a non-sentence. -/
def fieldText (kind : Nat) (body : List Byte) (n : Nat) : List Byte :=
  if isSentKind kind then sentField (sentenceOf kind body) n else []

/-- What a rule reads: nothing, something that does not parse, or a value with its raw text or bytes. -/
inductive FVal where
  | empty
  | bad
  | val (v : Int) (raw : List Byte)
  deriving DecidableEq, Repr

def int64Max : Int := 9223372036854775807
def int64Min : Int := -9223372036854775808

/-- Digits of an integer part and a fraction, scaled; digits beyond SCALE are truncated (R79). -/
def scaleDigits (ip : Nat) (frac : List Byte) (scale : Nat) : Nat :=
  let fr := frac.take scale
  ip * 10 ^ scale + decVal fr * 10 ^ (scale - fr.length)

def fit64 (v : Int) (raw : List Byte) : FVal := if int64Min ≤ v ∧ v ≤ int64Max then .val v raw else .bad

/-- Integer part and fraction around at most one '.'. -/
def numParts (t : List Byte) : Option (List Byte × List Byte) :=
  match cutB 0x2E#8 t with
  | (ip, none) => if allDigits ip then some (ip, []) else none
  | (ip, some fr) => if allDigits ip && allDigits fr then some (ip, fr) else none

/-- DEC (R79). -/
def parseDec (scale : Nat) (t : List Byte) : FVal :=
  let neg := t.head? = some 0x2D#8
  let u := if neg || t.head? = some 0x2B#8 then t.drop 1 else t
  match numParts u with
  | none => .bad
  | some (ip, fr) =>
    let n := ip.length + fr.length
    if n = 0 ∨ 18 < n then .bad
    else
      let v : Int := scaleDigits (decVal ip) fr scale
      fit64 (if neg then -v else v) t

/-- DEGMIN (R79): minutes × 10^SCALE. -/
def parseDegMin (scale : Nat) (t : List Byte) : FVal :=
  match numParts t with
  | none => .bad
  | some (ip, fr) =>
    let n := ip.length
    let m := decVal (ip.drop (n - 2))
    let d := decVal (ip.take (n - 2))
    if n < 3 ∨ 5 < n ∨ 60 ≤ m ∨ 180 < d then .bad else fit64 (scaleDigits (60 * d + m) fr scale) t

/-- HMS (R79): seconds × 10^SCALE. -/
def parseHms (scale : Nat) (t : List Byte) : FVal :=
  match numParts t with
  | none => .bad
  | some (ip, fr) =>
    let h := decVal (ip.take 2)
    let m := decVal (slice ip 2 2)
    let x := decVal (ip.drop 4)
    if ip.length ≠ 6 ∨ 23 < h ∨ 59 < m ∨ 60 < x then .bad else fit64 (scaleDigits (3600 * h + 60 * m + x) fr scale) t

/-- A sentence field under its format alone. -/
def parseText (format scale : Nat) (t : List Byte) : FVal :=
  if t.isEmpty then .empty
  else match format with
    | 0 => parseDec scale t
    | 1 => parseDegMin scale t
    | 2 => parseHms scale t
    | _ => .val 0 t

/-- A sentence field with what NEXT asks of the field after it (R79). -/
def parseNext (r : RuleRec) (t nx : List Byte) : FVal :=
  let unit := [BitVec.ofNat 8 r.unit]
  match r.next with
  | 1 =>
    if t.isEmpty then (if nx.isEmpty || nx == unit then .empty else .bad)
    else if nx == unit then parseText r.format r.scale t else .bad
  | 2 =>
    if t.isEmpty && nx.isEmpty then .empty
    else if t.isEmpty || nx.isEmpty then .bad
    else
      let pos := nx == [chr 'N'] || nx == [chr 'E']
      let ngt := nx == [chr 'S'] || nx == [chr 'W']
      if !(pos || ngt) then .bad
      else match parseText r.format r.scale t with
        | .val v raw => if ngt then fit64 (-v) raw else .val v raw
        | x => x
  | _ => parseText r.format r.scale t

/-- A binary field of WIDTH bytes (R78). -/
def parseBin (r : RuleRec) (l : List Byte) : FVal :=
  let n := 2 ^ r.width
  let l := slice l (256 * r.field2 + r.field) n
  if l.length < n then .empty
  else
    let u := if r.format = 8 ∨ r.format = 9 then leVal l else beVal l
    let sgn := r.format = 9 ∨ r.format = 11
    let top := 2 ^ (8 * n)
    if r.na ∧ u = (if sgn then top / 2 - 1 else top - 1) then .empty
    else .val (if sgn then toSigned (8 * n) u else (u : Int)) l

/-- The value that a rule reads at field `f` of an item (R78). -/
def readField (r : RuleRec) (kind : Nat) (body : List Byte) (f : Nat) : FVal :=
  if r.format < 8 then
    if isSentKind kind then parseNext r (fieldText kind body f) (fieldText kind body (f + 1)) else .empty
  else if kind = 1 ∨ kind = 2 then .empty
  else parseBin r (body.drop (dataOfs kind))

/-- The position a POS_JUMP reads: latitude and longitude (R81). -/
def readPos (r : RuleRec) (kind : Nat) (body : List Byte) : FVal × FVal :=
  (readField r kind body r.field, readField r kind body r.field2)

/-! ### Operators (R77, R81) -/

/-- The text of A and B, up to its first 0 byte. -/
def ruleText (r : RuleRec) : List Byte := (leBytes 8 r.a ++ leBytes 8 r.b).takeWhile (· ≠ 0#8)

/-- `|d|` within A + B × Δt / 1 000 000, with Δ in ns and the sum taken as 2^63 − 1 at most; the comparison is exact. -/
def withinLimit (a b : Int) (dNs d : Nat) : Bool :=
  decide ((d : Int) ≤ int64Max) && decide ((d : Int) * 1000000000 ≤ a * 1000000000 + b * dNs)
    || decide (int64Max * 1000000000 ≤ a * 1000000000 + b * dNs) && decide ((d : Int) ≤ int64Max)

/-- JUMP with WRAP: the shorter way round 360 × 10^SCALE. -/
def wrapDiff (scale : Nat) (d : Int) : Nat :=
  let m : Int := 360 * 10 ^ scale
  let x := (d % m).toNat
  min x (m.toNat - x)

/-- The longitude difference taken the shorter way round, in 10^-4 minutes. -/
def lonDiff (d : Int) : Int :=
  let m : Int := 216000000
  let x := d % m
  if 2 * x ≤ m then x else x - m

/-- Distance of R81 in whole mm. With equal longitudes it is exact; else the cosine is the implementation's. -/
def posDistance (lat lon lat0 lon0 : Int) : Nat :=
  let dl := lonDiff (lon - lon0)
  if dl = 0 then (lat - lat0).natAbs * 1852 / 10 else Config.posDist (lat - lat0) dl (lat + lat0)

/-- A position as a slot holds it: latitude in bits 31:0, longitude in bits 63:32 (R77). -/
def packPos (lat lon : Int) : Nat := ofSigned 32 lat + 2 ^ 32 * ofSigned 32 lon

/-- What one evaluation of a rule yields: passed; failed to parse; read empty; the slot value to write now; the slot
value to write at admission; MIN_INTERVAL passed on a stamp far back. -/
structure RuleOut where
  pass : Bool
  parse : Bool := false
  empty : Bool := false
  now : Option Nat := none
  atAdm : Option Nat := none
  back : Bool := false
  /-- The reference a re-base would write (N_ACCEPT). -/
  ref : Option Nat := none
  deriving DecidableEq, Repr

/-- Evaluate a rule on an item: `slot` is the slot's value if it is valid and tagged as the rule's own, `delta` is
STAMP − LAST_ADMIT in ns if LAST_V (R77). -/
def evalRule (r : RuleRec) (kind : Nat) (body : List Byte) (slot : Option Nat) (delta : Option Int) : RuleOut :=
  let a := toSigned 64 r.a
  let b := toSigned 64 r.b
  let dNs := (delta.getD 0).toNat
  let cmp (p : Bool) : Bool := if r.neg then !p else p
  let onVal (k : Int → List Byte → RuleOut) : RuleOut :=
    match readField r kind body r.field with
    | .empty => { pass := !r.emptyFail, empty := true }
    | .bad => { pass := false, parse := true }
    | .val v raw => k v raw
  match r.op with
  | 1 => onVal (fun v _ => { pass := cmp (decide (a ≤ v ∧ v ≤ b)) })
  | 2 => onVal (fun _ t => { pass := cmp (t == ruleText r) })
  | 3 => onVal (fun _ t => { pass := cmp ((ruleText r).isPrefixOf t) })
  | 4 => match readField r kind body r.field with
    | .empty => { pass := r.neg, empty := true }
    | .bad => { pass := false, parse := true }
    | .val _ _ => { pass := !r.neg }
  | 5 => onVal (fun v _ =>
      let ok := match slot with
        | none => true
        | some w =>
          let d := v - toSigned 64 w
          withinLimit a b dNs (if r.wrap then wrapDiff r.scale d else d.natAbs)
      { pass := ok, atAdm := some (ofSigned 64 v), ref := some (ofSigned 64 v) })
  | 6 => match readPos r kind body with
    | (.empty, .empty) => { pass := !r.emptyFail, empty := true }
    | (.val lat _, .val lon _) =>
      let ok := match slot with
        | none => true
        | some w => withinLimit a b dNs (posDistance lat lon (toSigned 32 (w % 2 ^ 32)) (toSigned 32 (w / 2 ^ 32)))
      { pass := ok, atAdm := some (packPos lat lon), ref := some (packPos lat lon) }
    | _ => { pass := false, parse := true }
  | 7 => match delta with
    | none => { pass := true }
    | some d =>
      if d < -1000000000 then { pass := true, back := true } else { pass := decide (a * 1000 ≤ d) }
  | 8 =>
    let n := slot.getD 0
    { pass := slot.isNone || n == 0, now := some ((n + 1) % (max r.a 1)) }
  | 9 => onVal (fun _ t =>
      let h := (crc32 t).toNat
      let due := match delta with | none => false | some d => decide (a * 1000 ≤ d)
      { pass := slot.isNone || slot != some h || due, atAdm := some h })
  | 10 => onVal (fun _ t =>
      let h := (crc32 t).toNat
      match slot with
      | none => { pass := true, now := some (h + 2 ^ 32 * h) }
      | some w =>
        let h1 := w % 2 ^ 32
        let h2 := w / 2 ^ 32
        { pass := !(h != h1 && h == h2 && h1 != h2), now := some (h + 2 ^ 32 * h1) })
  | _ => { pass := true }

/-- The operators that own a state slot (R83). -/
def opStateful (op : Nat) : Bool := op == 5 || op == 6 || op == 8 || op == 9 || op == 10

/-! ### Legality of a rule entry (R76, R80) -/

/-- R80 and the ranges of R76 for a rule as written. -/
def ruleLegal (r : RuleRec) : Bool :=
  let a := toSigned 64 r.a
  let b := toSigned 64 r.b
  let fmtOk := r.format ≤ 3 || (8 ≤ r.format && r.format ≤ 11)
  decide (r.op ≤ 10) && decide (r.action ≤ 3) && (!r.neg || (1 ≤ r.op && r.op ≤ 4)) && decide (r.next ≤ 2) && fmtOk
    && decide (r.scale ≤ 9) && (!(8 ≤ r.format) || r.scale == 0)
    && (r.next != 1 || (0x21 ≤ r.unit && r.unit ≤ 0x7E))
    && (r.op != 1 || decide (a ≤ b))
    && (!(r.op == 2 || r.op == 3) || r.format == 3)
    && (!(r.op == 9 || r.op == 10) || r.format == 3 || 8 ≤ r.format)
    && (!(r.op == 1 || r.op == 5 || r.op == 6) || r.format != 3)
    && (r.op != 6 || (r.format == 1 && r.next == 2 && r.scale == 4))
    && (!(r.op == 5 || r.op == 6) || decide (0 ≤ a ∧ 0 ≤ b))
    && (r.op != 8 || (2 ≤ r.a && r.a ≤ 65535))

end Sys2Proof.Machine
end

