-- ==== Sys2Proof/Machine/Wire.lean ====
section
/-! DEFINITION. Machine/Wire.lean: items, link frames and log records as bytes (R27, R191, R249), the link state of the
hops, and the admission log on the Ngato link (R243, R244, R248). -/

namespace Sys2Proof.Machine

/-! ### Item headers -/

/-- Bytes 0 to 30 of an item's header (R27). -/
def itemHead31 (i : Item) : List Byte :=
  leBytes 2 i.body.length ++ leBytes 1 i.kind
    ++ leBytes 1 (i.prio + 16 * i.replayed.toNat + 32 * i.consensus.toNat + 64 * i.late.toNat + 128 * i.poison.toNat)
    ++ leBytes 2 i.flow ++ leBytes 2 i.port ++ leBytes 4 i.seq ++ leBytes 8 (i.stamp / 1000000000)
    ++ leBytes 4 (i.stamp % 1000000000) ++ leBytes 4 i.key ++ leBytes 2 i.deadline ++ leBytes 1 (i.dom + 2 * i.axis)

/-- HCHK (R33). -/
def hchk (i : Item) : Byte := crc8 (itemHead31 i)

/-- The 32-byte header (R27). -/
def itemHeader (i : Item) : List Byte := itemHead31 i ++ [hchk i]

/-! ### Frames -/

/-- A link frame from FT through LCRC (R191). The frame check sequence of IEEE 802.3 goes least significant byte first. -/
def frameBytes (ft vc lseq : Nat) (body : List Byte) : List Byte :=
  let h := leBytes 1 ft ++ leBytes 1 vc ++ beBytes 2 lseq ++ body
  h ++ leBytes 4 (crc32 h).toNat

/-- Bytes of a frame, and the credits of 64 bytes it needs (R199). -/
def frameLen (body : List Byte) : Nat := body.length + 8
def frameCred (body : List Byte) : Nat := (frameLen body + 63) / 64

def State.hop (s : State) (p : Nat) : Hop := (tabGet? s.ring.hops p).getD Hop.empty
def State.setHop (s : State) (p : Nat) (h : Hop) : State :=
  { s with ring := { s.ring with hops := tabPut s.ring.hops p h } }

/-- Count on a counter of a ring port's page; the Ngato lanes have no such page. -/
def State.hopInc (s : State) (p : Nat) (c : Fld) : State := if p < 4 then s.inc (pgRINGP p) c else s

/-- Send one link frame on a port or lane. -/
def State.sendFrame (s : State) (p ft vc lseq : Nat) (body : List Byte) : State :=
  (s.emit (.lineTx p (frameBytes ft vc lseq body))).hopInc p RINGP_C_FRAMES_TX

def ftDATA : Nat := 1
def ftTIMED : Nat := 2
def ftACK : Nat := 3
def ftNAK : Nat := 4
def ftCREDIT : Nat := 5
def ftPROBE : Nat := 6
def ftHELLO : Nat := 7
def ftTRAIN : Nat := 8

/-- Bytes that wait in a replay buffer. -/
def replayBytes (r : List (Nat × Nat × List Byte)) : Nat := (r.map (fun e => frameLen e.2.2)).sum

/-! ### Records of the admission log as bytes (R249) -/

/-- QUEUE or FLOW in bits 31:18 with HANDLE in bits 17:0. -/
def qhBytes (q h : Nat) : List Byte := beBytes 4 (q * 2 ^ 18 + h)

/-- A record as the log carries it. -/
def recBytes : LogRec → List Byte
  | .admission stx leaf hc iseq flow h =>
    beBytes 1 0x01 ++ beBytes 1 stx.toNat ++ beBytes 1 leaf ++ beBytes 1 hc ++ beBytes 4 iseq ++ qhBytes flow h
  | .stampX dom st => beBytes 1 0x02 ++ beBytes 1 dom ++ beBytes 2 0 ++ beBytes 8 (st / 1000000000) ++ beBytes 4 (st % 1000000000)
  | .admitCopy h i => beBytes 1 0x03 ++ beBytes 3 0 ++ beBytes 4 h ++ itemHeader i ++ i.body
  | .refuse c leaf iseq => beBytes 1 0x04 ++ beBytes 1 c ++ beBytes 1 leaf ++ beBytes 1 0 ++ beBytes 4 iseq
  | .resolve c q h => beBytes 1 0x08 ++ beBytes 1 c ++ qhBytes q h
  | .place q h after => beBytes 1 0x09 ++ beBytes 1 0 ++ qhBytes q h ++ beBytes 4 after
  | .timer k p a => beBytes 1 0x0A ++ beBytes 1 k ++ beBytes 2 p ++ beBytes 4 a
  | .decide o g sel v l => beBytes 1 0x10 ++ beBytes 1 o ++ beBytes 2 g ++ beBytes 1 sel ++ beBytes 1 (v + 16 * l) ++ beBytes 2 0
  | .close c g l => beBytes 1 0x11 ++ beBytes 1 c ++ beBytes 2 g ++ beBytes 1 l ++ beBytes 3 0
  | .ctrl k i ns sec => beBytes 1 0x12 ++ beBytes 1 k ++ beBytes 2 i ++ beBytes 4 ns ++ beBytes 8 sec
  | .commit tb i last ws =>
    beBytes 1 0x18 ++ beBytes 1 tb ++ beBytes 1 last.toNat ++ beBytes 1 0 ++ beBytes 4 i ++ ws.flatMap (beBytes 4)
  | .delta off size d atH =>
    beBytes 1 0x19 ++ beBytes 1 size ++ beBytes 1 atH.isSome.toNat ++ beBytes 1 0 ++ beBytes 4 off
      ++ (match atH with | some h => beBytes 8 (secOf h) ++ beBytes 4 (nsOf h) | none => []) ++ beBytes size d
  | .mark k h => beBytes 1 0x20 ++ beBytes 1 k ++ beBytes 2 0 ++ beBytes 8 (secOf h) ++ beBytes 4 (nsOf h)
  | .qcopy q h after i =>
    beBytes 1 0x21 ++ beBytes 1 i.isSome.toNat ++ beBytes 2 0 ++ qhBytes q h ++ beBytes 4 after
      ++ (match i with | some i => itemHeader i ++ i.body | none => [])
  | .unknown r => beBytes 1 r

/-! ### The Ngato link (R243, R244): one LSEQ space, held under hop 4, on lanes 4 and 5 -/

/-- Is a lane UP? -/
def State.laneUp (s : State) (l : Nat) : Bool := (s.rd pgTWIN TWIN_LANES).testBit l

/-- Every frame is sent on both lanes that are UP. -/
def State.sendLanes (s : State) (ft lseq : Nat) (body : List Byte) : State :=
  s.each [0, 1] (fun s l => s.when (s.laneUp l) (·.sendFrame (4 + l) ft 0 lseq body))

/-- May a numbered frame enter the 256 KiB replay buffer? -/
def State.lanesTake (s : State) (body : List Byte) : Bool :=
  let h := s.hop 4
  decide (h.replay.length < 32768) && decide (replayBytes h.replay + frameLen body ≤ 262144)

/-- Number a frame, keep it for replay and send it. The replay entry keeps FT where a ring port keeps the channel. -/
def State.lanesData (s : State) (ft : Nat) (body : List Byte) : State :=
  let h := s.hop 4
  let h' := { h with txSeq := (h.txSeq + 1) % 65536, replay := h.replay ++ [(h.txSeq, ft, body)]
                     progAt := if h.replay.isEmpty then s.time.clk else h.progAt }
  (s.setHop 4 h').sendLanes ft h.txSeq body

/-- Waiting LOG and BULK frames go as the replay buffer takes them; `n` bounds them. -/
def State.lanesPump (s : State) : Nat → State
  | 0 => s
  | n + 1 =>
    match s.twin.wait with
    | [] => s
    | (ft, b) :: l =>
      if s.lanesTake b then (({ s with twin := { s.twin with wait := l } }).lanesData ft b).lanesPump n else s

/-- Send a LOG or BULK frame, behind those that wait. -/
def State.lanesSend (s : State) (ft : Nat) (body : List Byte) : State :=
  let s := { s with twin := { s.twin with wait := s.twin.wait ++ [(ft, body)] } }
  s.lanesPump s.twin.wait.length

/-- Can the log take another record (R251)? -/
def State.logReady (s : State) : Bool := s.twin.wait.isEmpty

/-- Append a record to the admission log: the active hub numbers it, sends it in a LOG frame and holds it until it is
acknowledged (R248, R251). Without a twin in resync or in step there is no log to carry it. -/
def State.log (s : State) (r : LogRec) : State :=
  if s.active && 2 ≤ s.tstate then
    let n := s.rd pgTWIN TWIN_LPOS_TX
    let s := s.wr pgTWIN TWIN_LPOS_TX (n + 1)
    let s := s.inc pgTWIN TWIN_C_REC_TX
    let s := { s with twin := { s.twin with recs := s.twin.recs ++ [(n, s.time.clk, r)] } }
    s.lanesSend 0x01 (beBytes 8 n ++ recBytes r)
  else s

end Sys2Proof.Machine
end

