-- ==== Sys2Proof/Machine/Flows.lean ====
section
/-! DEFINITION. Machine/Flows.lean: the anvil's work on a candidate: checks (R48 to R54, R183, R270, R449), stamp (R55
to R60), lookup key and flow (R68 to R71), quarantine (R85), the rule chain against flow state (R82 to R84) and the
header (R62, R133). -/

namespace Sys2Proof.Machine

def State.validFlows (s : State) : List Nat := (s.listed 0x600000 0x40 16384).filter (fun f => s.on (flowAt f) FL_VALID)

/-- Flow index valid in the live table. -/
def State.flowValid (s : State) (f : Nat) : Bool := s.on (flowAt f) FL_VALID

/-! ### Stamps -/

/-- C, three times over, in internal units (R44). -/
def charTime3 (c : PortCfg) : Nat := cfgFrameBits c * cfgBit3 c

/-- W of R60 in thirds of internal units. -/
def substW3 (c : Cand) : Nat :=
  match c.cfg.stampPt with
  | 0 => if c.src = .sentence then c.body.length * charTime3 c.cfg else 3 * Config.canDuration c.body
  | 1 => if c.src = .sentence then (c.body.length - tagChars c.body) * charTime3 c.cfg else 3 * Config.canDuration c.body
  | _ => 0

/-- STAMP in whole nanoseconds (R56, R57, R60), exact in thirds of 1/65 536 ns before the fraction is truncated. The
input synchroniser's 3.333 ns (10/3 ns) counts at local UART and CAN ports only. -/
def State.stampOf (s : State) (c : Cand) : Nat :=
  let cap : Nat := match c.cfg.stampPt with | 0 => c.first | 1 => c.sent | _ => c.fin
  let adj : Int := (c.cfg.adjNs - c.cfg.delayNs) * 65536 * 3
  let sync : Int := if c.port < 64 then 655360 else 0
  let v3 : Int :=
    if !c.timeOk then
      (3 * c.ingest : Nat) - ((c.path256 * 256 + s.rd (pgANV 0) ANV_LEAF_FWD_NS * 65536) * 3 : Nat) - (substW3 c : Nat)
    else match c.src with
      | .sentence =>
        (3 * cap : Nat) - (c.cfg.baudDiv * 640 * 3 : Nat) - sync + adj
          + (if c.cfg.stampPt = 2 then (charTime3 c.cfg : Int) else 0)
      | .can => (3 * cap : Nat) - sync + adj
      | .pgn => (3 * cap : Nat) - sync + adj
      | .datagram => (3 * cap : Nat) + c.cfg.adjNs * 65536 * 3
      | .host => (3 * cap : Nat)
      | .tongs => (3 * cap : Nat) + adj
      | .axis => (3 * cap : Nat) + adj
  (v3 / (3 * 65536)).toNat

/-! ### Checks -/

/-- The tables of page 0x080 that the checks consult (R49, R51). -/
def State.sentTables (s : State) : SentTables :=
  { mnem := ((List.range 16).filter (fun i => s.on (pgANV 0) (ANV_VALID.at i 4))).map
      (fun i => leBytes 3 (s.rd (pgANV 0) (ANV_PROP_MNEM.at i 4)))
    enc := (List.range 8).map (fun i => (leBytes 3 (s.rd (pgANV 0) (ANV_ENC_FMT.at i 4)),
      s.rd (pgANV 0) (ANV_PAYLOAD_FLD.at i 4), s.rd (pgANV 0) (ANV_FILL_FLD.at i 4))) }

/-- R183: a KIND 7 block is well formed. -/
def blockOk (b : List Byte) : Bool :=
  let nch := leAt b 2 1
  let fmt := leAt b 3 1
  let nset := leAt b 4 2
  let flags := leAt b 6 1
  let pos := flags % 2 == 1
  let axis := leAt b 7 1
  let step := leAt b 16 4
  decide (1 ≤ nch ∧ nch ≤ 16) && decide (fmt ≤ 2) && decide (1 ≤ nset) && decide (axis ≤ 15) && decide (flags < 16)
    && decide (b.length = 32 + nset * nch * (if fmt = 0 then 2 else 4))
    && (if pos then decide (2 ≤ axis) && decide (1 ≤ step ∧ step ≤ 16777216)
        else decide (axis ≤ 1) && decide (1000 ≤ step) && leAt b 8 8 == 0)
    && leAt b 28 4 == 0

/-- Data bytes of a CAN record by DLC and format (R269). -/
def canDataLen (fdf rtr : Bool) (dlc : Nat) : Nat :=
  if rtr then 0
  else if dlc ≤ 8 then dlc
  else if !fdf then 8
  else [12, 16, 20, 24, 32, 48, 64].getD (dlc - 9) 64

/-- R270: a tunnelled CAN record is well formed. -/
def canRecordOk (b : List Byte) : Bool :=
  let w := leAt b 0 4
  let fl := leAt b 4 1
  let fdf := fl.testBit 0
  let rtr := fl.testBit 3
  let dlc := leAt b 5 1
  decide (w < 2 ^ 30) && decide (fl < 16) && decide (dlc < 16) && leAt b 6 2 == 0
    && (fdf || !(fl.testBit 1 || fl.testBit 2)) && !(rtr && fdf)
    && (w.testBit 29 || decide (w % 2 ^ 29 ≤ 0x7FF))
    && decide (b.length = 8 + canDataLen fdf rtr dlc)

/-- Does the first TAG block of a datagram's first line hold a parameter of this code (R286)? -/
def firstTagHas (code : Char) (body : List Byte) : Bool :=
  match (splitTags body.length (body.takeWhile (· ≠ cLF))).1 with
  | b :: _ => (tagParams (tagContent b)).any (fun p => p.1 == [chr code])
  | [] => false

/-- What the anvil's checks find: the counter of the failing check (ingest counters 0 to 31; 0x100 REC_ERR; 0x101
BLOCK_ERR; 0x102 NO_S), sentences without checksum that proceed, unknown TAG codes kept. -/
def State.checkCand (s : State) (c : Cand) : CheckOut :=
  if 2040 < c.body.length then ⟨some icREFUSED_SIZE, false, 0⟩
  else match c.src with
  | .sentence =>
    match (if c.remote then frameWhole c.cfg frHunt c.body else none) with
    | some n => ⟨some n, false, 0⟩
    | none => checkSentence c.cfg s.sentTables c.body
  | .datagram =>
    if decide (c.port = 40 ∨ c.port = 41) && s.on (pgETH (c.port - 40)) ETH_REQ_S && !firstTagHas 's' (c.body.drop 6) then
      ⟨some 0x102, false, 0⟩
    else match frameLines c.cfg frHunt [] (c.body.drop 6) with
    | .error n => ⟨some n, false, 0⟩
    | .ok lines =>
      let outs := lines.map (checkSentence c.cfg s.sentTables)
      match outs.find? (fun o => o.fail.isSome) with
      | some o => ⟨o.fail, o.noChk, 0⟩
      | none => ⟨none, outs.any (·.noChk), (outs.map (·.unknown)).sum⟩
  | .can => if c.remote && !canRecordOk c.body then ⟨some 0x100, false, 0⟩ else ⟨none, false, 0⟩
  | .axis => if blockOk c.body then ⟨none, false, 0⟩ else ⟨some 0x101, false, 0⟩
  | .pgn | .tongs | .host => ⟨none, false, 0⟩

/-- KIND of the item a candidate becomes (R53, R34). -/
def kindOf (c : Cand) : Nat :=
  match c.src with
  | .sentence => if c.body.head? = some bsl then 2 else 1
  | .datagram => 3
  | .can => 4
  | .pgn => 5
  | .tongs => 6
  | .axis => 7
  | .host => c.host.getD 3 1

/-! ### Lookup -/

/-- A lookup key (R68). -/
structure LookKey where
  ktype : Nat
  port : Nat
  talk : Nat
  fmt : Nat
  deriving DecidableEq, Repr

def packText (l : List Byte) : Nat := leVal (l.take 8)

/-- KTYPE of a KIND (R68). -/
def ktypeOf (kind : Nat) : Nat := [0, 1, 1, 3, 2, 2, 4, 5, 6].getD kind 0

/-- PGN of a 29-bit identifier (R68). -/
def pgnOf (id : Nat) : Nat := if bits id 23 16 < 240 then bits id 25 16 * 256 else bits id 25 8

/-- TALK and FMT (R68). -/
def talkFmt (kind : Nat) (body : List Byte) : Nat × Nat :=
  match kind with
  | 1 | 2 =>
    let a := fieldText kind body 0
    if a.head? = some (chr 'P') then (packText (a.take 4), packText (a.drop 4))
    else (packText (a.take 2), packText (slice a 2 3))
  | 3 =>
    let blks := (splitTags body.length ((body.drop 6).takeWhile (· ≠ cLF))).1
    let src := match blks with
      | b :: _ => match (tagParams (tagContent b)).find? (fun p => p.1 == [chr 's']) with
        | some p => p.2.getD []
        | none => []
      | [] => []
    (packText src, packText ((fieldText 3 body 0).take 5))
  | 4 =>
    let w := leAt body 0 4
    if w.testBit 29 then (w % 256, pgnOf (w % 2 ^ 29) + 2 ^ 32) else (0, w % 2 ^ 11)
  | 5 => (leAt body 4 1, leAt body 0 3 % 2 ^ 18 + 2 ^ 32)
  | 7 => (leAt body 7 1, 0)
  | _ => (0, 0)

def lookKey (kind port : Nat) (body : List Byte) : LookKey :=
  let tf := talkFmt kind body
  ⟨ktypeOf kind, port, tf.1, tf.2⟩

/-- The flow at `f` matches a key (R69). -/
def State.flowMatches (s : State) (f : Nat) (k : LookKey) : Bool :=
  let b := flowAt f
  s.on b FL_VALID && !s.on b FL_CHILD && !s.on b FL_NOLOOK && s.rd b FL_KTYPE == k.ktype
    && (s.on b FL_W_PORT || s.rd b FL_PORT == k.port)
    && (s.on b FL_W_TALK || s.rd b FL_TALK == k.talk)
    && (s.on b FL_W_FMT || s.rd b FL_FMT == k.fmt)

/-- The level of a flow's wildcards in the table of R69: lower wins. -/
def State.flowLevel (s : State) (f : Nat) : Nat :=
  let b := flowAt f
  1 + 4 * s.rd b FL_W_PORT + 2 * s.rd b FL_W_FMT + s.rd b FL_W_TALK

/-- The winning entry of a lookup (R69). -/
def State.lookupFlow (s : State) (k : LookKey) : Option Nat :=
  (s.validFlows.filter (fun f => s.flowMatches f k)).foldl (fun best f =>
    match best with
    | none => some f
    | some b => if s.flowLevel f < s.flowLevel b then some f else some b) none

/-- A branch's child for a sentence field, if one is selected (R71). -/
def State.childOf (s : State) (branch kind : Nat) (body : List Byte) : Option Nat :=
  let v := packText (fieldText kind body (s.rd (flowAt branch) FL_DISC_FLD))
  s.validFlows.find? (fun f => let b := flowAt f
    s.on b FL_CHILD && !s.on b FL_NOLOOK && s.rd b FL_PARENT == branch && s.rd b FL_TALK == v)

/-- The lookup of R69 to R71 with its counters: LOOKUPS, BRANCH_MISS and MATCHED of the flow it ends at. -/
def State.findFlow (s : State) (kind port : Nat) (body : List Byte) : Option Nat × State :=
  let s := s.inc pgFLOW FLOW_C_LOOKUPS
  match s.lookupFlow (lookKey kind port body) with
  | none => (none, s)
  | some f =>
    if s.rd (flowAt f) FL_DISC_FLD = 0 then (some f, s.inc (flowCtrAt f) (ctr 0))
    else match s.childOf f kind body with
      | some c => (some c, s.inc (flowCtrAt c) (ctr 0))
      | none => (some f, (s.inc pgFLOW FLOW_C_BRANCH_MISS).inc (flowCtrAt f) (ctr 0))

/-! ### KEY and the header -/

/-- KEY formed from KEY_CFG (R133). -/
def State.keyOf (s : State) (f kind : Nat) (body : List Byte) : Nat :=
  let kc := s.rd (flowAt f) FL_KEY_CFG
  match bits kc 1 0 with
  | 1 => let t := fieldText kind body (bits kc 15 8)
    if t.isEmpty then 0 else (crc32 t).toNat
  | 2 => let n := bits kc 30 27
    let l := slice (body.drop (dataOfs kind)) (bits kc 26 16) n
    if l.length < n then 0 else (crc32 l).toNat
  | _ => 0

/-- KSCOPE of a flow (R133). -/
def State.kscope (s : State) (f : Nat) : Bool := (s.rd (flowAt f) FL_KEY_CFG).testBit 2

/-- The item that a built candidate becomes on flow `f`, before SEQ (R62). A host submission keeps its PRIO, KEY and
DEADLINE (R34). -/
def State.itemFor (s : State) (b : Built) (f : Nat) : Item :=
  let host := b.cand.src = .host
  { kind := b.kind, prio := if host then b.cand.host.getD 0 0 else s.rd (flowAt f) FL_PRIO
    replayed := false, consensus := false, late := false, poison := b.cand.poison
    flow := f, port := b.cand.port, seq := 0, stamp := b.stamp
    key := if host then b.cand.host.getD 1 0 else s.keyOf f b.kind b.cand.body
    deadline := if host then b.cand.host.getD 2 0 else s.rd (flowAt f) FL_DEADLINE
    dom := b.dom, axis := if b.kind = 7 then leAt b.cand.body 7 1 else 0, body := b.cand.body }

/-! ### Flow state, quarantine -/

abbrev PQUAR_V : Fld := ⟨0, 0, 1, 0⟩
abbrev PQUAR_NS : Fld := ⟨4, 0, 32, 0⟩
abbrev PQUAR_S : Fld := ⟨8, 0, 64, 0⟩

/-- Clear a flow's slots, failure runs and LAST_ADMIT (R75, R83, R85). -/
def State.clearFlowState (s : State) (f : Nat) : State :=
  s.each [FSTATE_SLOT0_V, FSTATE_SLOT1_V, FSTATE_LAST_V, FSTATE_FRUN0, FSTATE_FRUN1] (fun s x => s.wr (fstateAt f) x 0)

/-- End of a quarantine in ns; none for one with no end. -/
def quarEndOf (ns sec : Nat) : Option Nat := if ns = 2 ^ 32 - 1 then none else some (sec * 1000000000 + ns)

/-- Is a quarantine of the flow (`port` false) or port in force, and until when? -/
def State.quarGet (s : State) (port : Bool) (i : Nat) : Option (Option Nat) :=
  if port then
    if s.on (pquarAt i) PQUAR_V then some (quarEndOf (s.rd (pquarAt i) PQUAR_NS) (s.rd (pquarAt i) PQUAR_S)) else none
  else if s.on (fstateAt i) FSTATE_QUAR then
    some (quarEndOf (s.rd (fstateAt i) FSTATE_QEND_NS) (s.rd (fstateAt i) FSTATE_QEND_S))
  else none

/-- The later of two ends. -/
def laterEnd : Option Nat → Option Nat → Option Nat
  | some a, some b => some (max a b)
  | _, _ => none

/-- The end fields of a quarantine: all ones for no end (R85). -/
def endFields : Option Nat → Nat × Nat
  | some e => (e % 1000000000, e / 1000000000)
  | none => (2 ^ 32 - 1, 2 ^ 64 - 1)

/-- Start a quarantine, or extend one in force to the later end (R85): recorded in QUAR_LAST, raised and logged. -/
def State.quarStart (s : State) (port : Bool) (i : Nat) (e : Option Nat) : State :=
  let e := match s.quarGet port i with | some old => laterEnd old e | none => e
  let ef := endFields e
  let s := if port then ((s.wr (pquarAt i) PQUAR_V 1).wr (pquarAt i) PQUAR_NS ef.1).wr (pquarAt i) PQUAR_S ef.2
    else (((s.wr (fstateAt i) FSTATE_QUAR 1).wr (fstateAt i) FSTATE_QEND_NS ef.1).wr (fstateAt i) FSTATE_QEND_S ef.2).clearFlowState i
  let s := (s.wr pgFLOW FLOW_QUAR_LAST i).wrB pgFLOW FLOW_QUAR_LAST_PORT port
  (s.raise 0x90 0).log (.ctrl (if port then 1 else 0) i ef.1 ef.2)

/-- End a quarantine in force (R85). -/
def State.quarEnd (s : State) (port : Bool) (i : Nat) : State :=
  if (s.quarGet port i).isSome then
    let s := if port then s.wr (pquarAt i) PQUAR_V 0 else s.wr (fstateAt i) FSTATE_QUAR 0
    (s.raise 0x90 1).log (.ctrl (if port then 3 else 2) i 0 0)
  else s

/-- End a quarantine whose end is at or before an item's STAMP. -/
def State.quarExpire (s : State) (port : Bool) (i stamp : Nat) : State :=
  match s.quarGet port i with
  | some (some e) => if e ≤ stamp then s.quarEnd port i else s
  | _ => s

/-! ### The chain against flow state (R82 to R84) -/

def slotV (k : Nat) : Fld := if k = 0 then FSTATE_SLOT0_V else FSTATE_SLOT1_V
def slotTag (k : Nat) : Fld := if k = 0 then FSTATE_SLOT0_TAG else FSTATE_SLOT1_TAG
def slotVal (k : Nat) : Fld := if k = 0 then FSTATE_SLOT0 else FSTATE_SLOT1
def slotRun (k : Nat) : Fld := if k = 0 then FSTATE_FRUN0 else FSTATE_FRUN1

/-- A rule's tag: its index and its generation (R74). -/
def ruleTag (r : RuleRec) : Nat := r.idx + 2048 * r.gen

/-- Does the rule own its slot: valid and tagged as its own (R77)? -/
def State.ownsSlot (s : State) (f : Nat) (r : RuleRec) : Bool :=
  s.on (fstateAt f) (slotV r.slot) && s.rd (fstateAt f) (slotTag r.slot) == ruleTag r

/-- Write a rule's slot, stamping it with the rule's tag (R83). -/
def State.putSlot (s : State) (f : Nat) (r : RuleRec) (v : Nat) : State :=
  let s := s.when (!s.ownsSlot f r) (·.wr (fstateAt f) (slotRun r.slot) 0)
  ((s.wr (fstateAt f) (slotV r.slot) 1).wr (fstateAt f) (slotTag r.slot) (ruleTag r)).wr (fstateAt f) (slotVal r.slot) v

/-- STAMP of the last item admitted to a flow, if LAST_V. -/
def State.lastAdmit (s : State) (f : Nat) : Option Nat :=
  if s.on (fstateAt f) FSTATE_LAST_V then
    some (s.rd (fstateAt f) FSTATE_LAST_S * 1000000000 + s.rd (fstateAt f) FSTATE_LAST_NS)
  else none

/-- What a chain has found so far: the strongest failing action (0 none, 1 COUNT, 2 MARK, 3 DROP, 4 QUARANTINE) with
the QUARANTINE failures' scopes and lengths, whether any rule failed, and the slots to write at admission. -/
structure ChainOut where
  worst : Nat
  failed : Bool
  quars : List (Bool × Nat)
  atAdm : List (RuleRec × Nat)
  deriving DecidableEq, Repr

/-- One rule of a chain: evaluate, count, and write what is written at every evaluation (R83). -/
def State.ruleStep (s : State) (f kind stamp : Nat) (body : List Byte) (o : ChainOut) (r : RuleRec) : State × ChainOut :=
  let own := s.ownsSlot f r
  let slot := if opStateful r.op && own then some (s.rd (fstateAt f) (slotVal r.slot)) else none
  let delta := (s.lastAdmit f).map (fun l => (stamp : Int) - l)
  let res := evalRule r kind body slot delta
  let s := (s.inc (ruleCtrAt r.idx) (ctr 0)).inc pgRULE RULE_C_EVALS
  let s := s.when (!res.pass) (fun s => (s.inc (ruleCtrAt r.idx) (ctr 1)).inc pgRULE RULE_C_FAILS)
  let s := s.when res.parse (fun s => (s.inc (ruleCtrAt r.idx) (ctr 2)).inc pgRULE RULE_C_PARSE)
  let s := s.when res.empty (·.inc (ruleCtrAt r.idx) (ctr 3))
  let s := s.when res.back (·.inc pgRULE RULE_C_STAMP_BACK)
  let s := match res.now with | some v => s.putSlot f r v | none => s
  let s :=
    if opStateful r.op && own then
      if res.pass then s.wr (fstateAt f) (slotRun r.slot) 0
      else
        let n := s.rd (fstateAt f) (slotRun r.slot) + 1
        match res.ref with
        | some v =>
          if (r.op = 5 ∨ r.op = 6) ∧ r.nAccept ≠ 0 ∧ r.nAccept ≤ n then
            ((s.putSlot f r v).wr (fstateAt f) (slotRun r.slot) 0).inc pgRULE RULE_C_REBASE
          else s.wr (fstateAt f) (slotRun r.slot) (min n 15)
        | none => s.wr (fstateAt f) (slotRun r.slot) (min n 15)
    else s
  let o := { o with atAdm := match res.atAdm with | some v => o.atAdm ++ [(r, v)] | none => o.atAdm }
  (s, if res.pass then o
    else { o with worst := max o.worst (r.action + 1), failed := true
                  quars := if r.action = 3 then o.quars ++ [(r.qscope, r.quarMs)] else o.quars })

/-- The rules of a flow's chain (R76). -/
def State.chainRules (s : State) (f : Nat) : List RuleRec :=
  (List.range (s.rd (flowAt f) FL_RULE_CNT)).map (fun i =>
    let r := (s.rd (flowAt f) FL_RULE_BASE + i) % 2048
    s.ruleRec r (ruleAt r))

/-- Every rule of the chain in order (R82). -/
def State.runChain (s : State) (f kind stamp : Nat) (body : List Byte) : State × ChainOut :=
  (s.chainRules f).foldl (fun so r => so.1.ruleStep f kind stamp body so.2 r) (s, ⟨0, false, [], []⟩)

/-- What becomes of a candidate at its place in admission order (R84, R85). -/
inductive Fate where
  /-- Admitted to a flow; `own` when it is the flow its lookup found and that flow's state is written. -/
  | accept (flow : Nat) (own : Bool) (atAdm : List (RuleRec × Nat))
  /-- Refused with the cause code of a REFUSE record (R249). -/
  | refuse (cause : Nat)
  deriving DecidableEq, Repr

/-- Divert to a flow's MARK_FLOW, or refuse if that flow is not valid (R84). -/
def State.divert (s : State) (f : Nat) : State × Fate :=
  let m := s.rd (flowAt f) FL_MARK_FLOW
  if s.flowValid m then
    let c := flowCtrAt f
    let w := s.rd c (ctr 2)
    (s.wr c (ctr 2) (w / 2 ^ 48 * 2 ^ 48 + (w % 2 ^ 48 + 1) % 2 ^ 48), .accept m false [])
  else (s.inc pgFLOW FLOW_C_MARK_LOST, .refuse 0x81)

/-- QUAR_ENTRIES of a flow: bits 63:48 of its third counter word, wrapping at 2^16 (R89). -/
def State.quarEntry (s : State) (f : Nat) : State :=
  let c := flowCtrAt f
  let w := s.rd c (ctr 2)
  s.wr c (ctr 2) ((w / 2 ^ 48 + 1) % 2 ^ 16 * 2 ^ 48 + w % 2 ^ 48)

/-- The fate of a classified item: quarantine, then the chain (R84, R85); no rules are evaluated for port 59 (R67). -/
def State.judge (s : State) (f kind port stamp : Nat) (body : List Byte) : State × Fate :=
  let s := (s.quarExpire false f stamp).quarExpire true port stamp
  let b := flowAt f
  if (s.quarGet false f).isSome || (s.quarGet true port).isSome then
    let s := (s.inc (flowCtrAt f) (ctr 3)).clearFlowState f
    if s.on b FL_QUAR_DIVERT then s.divert f else (s, .refuse 0x81)
  else
    let so := if port = 59 then (s, ⟨0, false, [], []⟩) else s.runChain f kind stamp body
    let s := so.1.when so.2.failed (·.inc (flowCtrAt f) (ctr 1))
    if so.2.worst ≤ 1 then (s, .accept f true so.2.atAdm)
    else if so.2.worst = 2 then s.divert f
    else if so.2.worst = 3 then (s, .refuse 0x81)
    else
      let s := s.each so.2.quars (fun s q =>
        let e := if q.2 = 0 then none else some (stamp + q.2 * 1000000)
        (s.quarStart q.1 (if q.1 then port else f) e).quarEntry f)
      let s := s.clearFlowState f
      if s.on b FL_QUAR_DIVERT then s.divert f else (s, .refuse 0x81)

/-- State written when an item is admitted to its own flow: the at-admission slots and LAST_ADMIT (R83, R84). -/
def State.admitState (s : State) (f stamp : Nat) (atAdm : List (RuleRec × Nat)) : State :=
  let s := s.each atAdm (fun s rv => s.putSlot f rv.1 rv.2)
  ((s.wr (fstateAt f) FSTATE_LAST_V 1).wr (fstateAt f) FSTATE_LAST_S (stamp / 1000000000)).wr (fstateAt f)
    FSTATE_LAST_NS (stamp % 1000000000)

end Sys2Proof.Machine
end

