-- ==== Sys2Proof/Machine/HostRings.lean ====
section
/-! DEFINITION. Machine/HostRings.lean: the descriptor rings in host memory (R385 to R392): fetching, completion of
transmit and receive descriptors. -/

namespace Sys2Proof.Machine

/-- Register entry of a ring: transmit ring r is r, receive ring r is 64 + r (R386). -/
def ringAt (k : Nat) : Nat := if k < 64 then txringAt k else rxringAt (k - 64)

def State.ringSize (s : State) (k : Nat) : Nat := 2 ^ s.rd (ringAt k) TXRING_LOG2_SIZE
def State.ringRaw (s : State) (k : Nat) : Bool := s.on (ringAt k) TXRING_TYPE

/-- Bytes of a descriptor (R385). -/
def descSize (k : Nat) : Nat := if k < 64 then 64 else 32
def State.descAddr (s : State) (k idx : Nat) : Nat := s.rd (ringAt k) TXRING_BASE + descSize k * idx

/-- A write to host memory, made while the function is a bus master (R373). -/
def State.hostWrite (s : State) (addr : Nat) (data : List Byte) : State :=
  if Config.busMaster s.time.clk then s.emit (.hostWrite addr data) else s

/-- Descriptors held of a ring. -/
def State.heldOf (s : State) (k : Nat) : Nat :=
  if k < 64 then (s.host.txd.filter (fun d => d.ring == k)).length else (s.host.rxd.filter (fun d => d.ring == k - 64)).length

/-- HELD and RUNNING follow the descriptors held (R386). -/
def State.mirrorRing (s : State) (k : Nat) : State :=
  let n := s.heldOf k
  (s.wr (ringAt k) TXRING_HELD n).wrB (ringAt k) TXRING_RUNNING (n != 0)

/-- May the ring's next descriptor be fetched (R387, R389)? An item transmit ring is fetched on the ACTIVE hub only. -/
def State.mayFetch (s : State) (k : Nat) : Bool :=
  let b := ringAt k
  s.rd pgPWR PWR_BOOT_STAGE != 8 && s.on b TXRING_EN && !s.on b TXRING_FAULT && Config.busMaster s.time.clk
    && (tabGet? s.host.next k).getD 0 != s.rd b TXRING_TAIL
    && (if k < 64 then decide (s.heldOf k < 256)
          && (s.ringRaw k || (s.active && decide (s.rd pgHOST HOST_OUTSTANDING < 4096)))
        else decide (s.heldOf k < 4095))

/-- The submission instant and domain of a descriptor: those of the doorbell that covers it (R389). -/
def State.bellOf (s : State) (k : Nat) : Nat × Nat :=
  match (tabGet? s.host.bells k).getD [] with
  | b :: _ => b.2
  | [] => (s.time.h, s.rd pgTIME TIME_SEL_DOM)

/-- A doorbell is used up when the fetch pointer reaches the index it covers. -/
def State.dropBell (s : State) (k nxt : Nat) : State :=
  match (tabGet? s.host.bells k).getD [] with
  | b :: l => if b.1 = nxt then { s with host := { s.host with bells := tabPut s.host.bells k l } } else s
  | [] => s

/-- Ask for the next descriptor of a ring. -/
def State.fetchOne (s : State) (k : Nat) : State :=
  let i := (tabGet? s.host.next k).getD 0
  let bell := s.bellOf k
  let nxt := (i + 1) % s.ringSize k
  let h := s.host
  let h := { h with next := tabPut h.next k nxt }
  let h := if k < 64 then { h with txd := h.txd ++ [⟨k, i, bell.1, bell.2, [], [], 0⟩] }
           else { h with rxd := h.rxd ++ [⟨k - 64, i, 0, 0, false⟩] }
  let s := { s with host := h }
  let s := s.when (decide (k < 64) && !s.ringRaw k) (·.add pgHOST HOST_OUTSTANDING 1)
  ((s.emit (.hostRead (if k < 64 then 0 else 1) (k % 64) i)).dropBell k nxt).mirrorRing k

/-- Fetch while fetching is allowed; `n` bounds the descriptors. -/
def State.fetchN (s : State) (k : Nat) : Nat → State
  | 0 => s
  | n + 1 => if s.mayFetch k then (s.fetchOne k).fetchN k n else s

def State.fetchRing (s : State) (k : Nat) : State := s.fetchN k (s.ringSize k)

/-- Fetching of the item transmit rings goes on, in ring order: the hub is active now, or submissions were at their
limit (R389). -/
def State.fetchItems (s : State) : State :=
  s.each (List.range 64) (fun s k => if s.ringRaw k then s else s.fetchRing k)

/-- HEAD advances across a contiguous run of completed descriptors (R389); `n` bounds the run. -/
def State.headN (s : State) (k : Nat) : Nat → State
  | 0 => s
  | n + 1 =>
    let h := s.rd (ringAt k) TXRING_HEAD
    if s.host.doneIdx.contains (k, h) then
      ({ s with host := { s.host with doneIdx := s.host.doneIdx.filter (· != (k, h)) } }.wr (ringAt k) TXRING_HEAD
        ((h + 1) % s.ringSize k)).headN k n
    else s

/-- A descriptor is complete: it leaves the Yileo, HEAD advances, and fetching goes on, on every item ring where the
submissions were at their limit. -/
def State.descDone (s : State) (k idx : Nat) : State :=
  let h := s.host
  let h := if k < 64 then { h with txd := h.txd.filter (fun d => !(d.ring == k && d.idx == idx)) }
           else { h with rxd := h.rxd.filter (fun d => !(d.ring == k - 64 && d.idx == idx)) }
  let s := { s with host := { h with doneIdx := (k, idx) :: h.doneIdx } }
  let s := s.headN k (s.host.doneIdx.length + 1)
  let s := (s.mirrorRing k).fetchRing k
  s.when (s.rd pgHOST HOST_OUTSTANDING == 4095) (·.fetchItems)

def State.txDesc? (s : State) (k idx : Nat) : Option TxDesc :=
  s.host.txd.find? (fun d => d.ring == k && d.idx == idx)

def State.putTxDesc (s : State) (d : TxDesc) : State :=
  { s with host := { s.host with txd := s.host.txd.map (fun e => if e.ring == d.ring && e.idx == d.idx then d else e) } }

/-- Complete a transmit descriptor: bytes 16 to 63 first, then bytes 8 to 15 with DSTAT (R389); then the vector if IRQ. -/
def State.txComplete (s : State) (k idx dstat : Nat) (wb : List Byte) : State :=
  match s.txDesc? k idx with
  | none => s
  | some d =>
    let a := s.descAddr k idx
    let s := s.when (!wb.isEmpty) (·.hostWrite (a + 16) wb)
    let s := s.hostWrite (a + 8) (slice d.raw 8 3 ++ leBytes 1 dstat ++ slice d.raw 12 4)
    let s := s.when (!s.ringRaw k) (fun s => s.wr pgHOST HOST_OUTSTANDING (s.rd pgHOST HOST_OUTSTANDING - 1))
    let s := s.descDone k idx
    s.when ((leAt d.raw 10 1).testBit 0) (fun s => s.msixReq (s.rd (ringAt k) TXRING_VEC))

/-- A write-back record (R148): offsets saturate at 0xFFFF_FFFF. -/
def sat32 (n : Nat) : Nat := min n (2 ^ 32 - 1)

def wbBytes (status flow seq stamp dom : Nat) (admitted : Bool) (w : WriteBack) : List Byte :=
  leBytes 1 status ++ leBytes 1 (admitted.toNat + 2 * w.wire.isSome.toNat) ++ leBytes 2 flow ++ leBytes 4 seq
    ++ leBytes 8 (stamp / 1000000000) ++ leBytes 4 (stamp % 1000000000) ++ leBytes 1 dom ++ leBytes 3 0
    ++ leBytes 2 w.nList ++ leBytes 2 w.nSent ++ leBytes 2 w.nLate ++ leBytes 2 w.nCoal ++ leBytes 2 w.nRef ++ leBytes 2 0
    ++ leBytes 4 (match w.first with | some n => sat32 n | none => 2 ^ 32 - 1)
    ++ leBytes 4 (match w.wire with | some n => sat32 n | none => 0) ++ leBytes 4 (sat32 w.done)

/-- An empty write-back for a descriptor. -/
def wbNew (ring desc : Nat) : WriteBack := ⟨ring, desc, 0, 0, 0, 0, 0, 0, none, none, none, false, 0⟩

/-- Write a submission's record and complete its descriptor; a descriptor discarded meanwhile counts WB_LOST (R374). -/
def State.wbWrite (s : State) (status flow seq stamp dom : Nat) (admitted : Bool) (w : WriteBack) : State :=
  match s.txDesc? w.ring w.desc with
  | some _ => (s.inc pgHOST HOST_C_WB_WRITTEN).txComplete w.ring w.desc 1 (wbBytes status flow seq stamp dom admitted w)
  | none => (s.inc pgHOST HOST_C_WB_LOST).raise 1 1

/-! ### Receive rings (R391, R392) -/

/-- The first free descriptor of a receive ring. -/
def State.rxFree (s : State) (r : Nat) : Option RxDesc :=
  if s.on (rxringAt r) TXRING_EN then s.host.rxd.find? (fun d => d.ring == r && d.ready) else none

/-- Write a buffer and complete its descriptor, signalling the ring's vector. -/
def State.rxComplete (s : State) (d : RxDesc) (data : List Byte) (dstat rflags stamp : Nat) : State :=
  let k := 64 + d.ring
  let a := s.descAddr k d.idx
  let s := s.when (!data.isEmpty) (·.hostWrite d.addr data)
  let s := s.hostWrite (a + 16) (leBytes 2 data.length ++ leBytes 1 rflags ++ leBytes 5 0 ++ leBytes 8 stamp)
  let s := s.hostWrite (a + 8) (leBytes 2 d.len ++ leBytes 1 0 ++ leBytes 1 dstat ++ leBytes 4 0)
  (s.descDone k d.idx).msixReq (s.rd (rxringAt d.ring) TXRING_VEC)

/-- The flow steering bytes (R392): ring and valid. -/
abbrev STEER_RING : Fld := ⟨0, 0, 6, 0⟩
abbrev STEER_V : Fld := ⟨0, 7, 1, 0⟩

/-- The receive item ring of a flow and class: the steering window, else CLS_RING (R392). -/
def State.steerOf (s : State) (flow prio : Nat) : Option Nat :=
  let c := bits (s.rd pgHOST (if prio < 4 then HOST_CLS_RING0 else HOST_CLS_RING1)) (8 * (prio % 4) + 7) (8 * (prio % 4))
  let pick (v : Nat) : Option Nat := if v.testBit 7 then some (v % 64) else none
  if s.on (steerAt flow) STEER_V then some (s.rd (steerAt flow) STEER_RING) else pick c

/-- What a release to port 59 meets: a ring with a free descriptor, a full ring that drops, or a full ring that stalls. -/
inductive HostRoom where
  | free (d : RxDesc) | drop | stall
  deriving DecidableEq, Repr

def State.hostRoom (s : State) (flow prio : Nat) : HostRoom :=
  match s.steerOf flow prio with
  | none => .stall
  | some r =>
    match s.rxFree r with
    | some d => if s.ringRaw (64 + r) then .stall else .free d
    | none => if s.on (rxringAt r) TXRING_FULL_MODE then .drop else .stall

end Sys2Proof.Machine
end

