-- ==== Sys2Proof/Machine/RingLink.lean ====
section
/-! DEFINITION. Machine/RingLink.lean: packets and link frames (R191, R192, R202), the replay buffer and credits of a
hop's transmitter (R196, R199 to R201), and wrapping (R213). -/

namespace Sys2Proof.Machine

/-! ### Packets as bytes (R202) -/

def pktBytes (p : RingPkt) : List Byte :=
  leBytes 1 p.pt ++ leBytes 1 (p.dmode % 4 + 4 * p.wr.toNat + 8 * p.rs.toNat + 16 * p.hb.toNat) ++ leBytes 1 p.src
    ++ leBytes 1 p.dst ++ leBytes 1 p.hops ++ leBytes 1 p.xf ++ beBytes 2 p.payload.length ++ p.payload

/-- The packet that a frame body spells, if its PLEN equals the body length less 8. -/
def pktOf (b : List Byte) : Option RingPkt :=
  if b.length < 8 ∨ beAt b 6 2 ≠ b.length - 8 then none
  else
    let f := leAt b 1 1
    some { pt := leAt b 0 1, dmode := f % 4, wr := f.testBit 2, rs := f.testBit 3, hb := f.testBit 4
           src := leAt b 2 1, dst := leAt b 3 1, hops := leAt b 4 1, xf := leAt b 5 1, payload := b.drop 8 }

/-- Virtual channel numbers and the channel of a packet type (R191, R203). -/
def vcTIME : Nat := 0
def vcCPL : Nat := 1
def vcREQ : Nat := 2
def vcITEM : Nat := 3
def vcOf (pt : Nat) : Nat :=
  if pt = 0x20 then vcCPL else if pt = 0x10 ∨ pt = 0x11 then vcREQ else if pt = 0x30 then vcTIME else vcITEM

/-- Is a ring port UP (R238)? -/
def State.portUp (s : State) (p : Nat) : Bool := s.rd (pgRINGP p) RINGP_LSTATE == 2

/-- Registers of page 0x010 + p that mirror the transmitter (R238). -/
def State.mirrorHop (s : State) (p : Nat) : State :=
  if p < 4 then
    let h := s.hop p
    let s := s.wr (pgRINGP p) RINGP_TX_LSEQ h.txSeq
    let s := s.wr (pgRINGP p) RINGP_ACK_LSEQ (match h.replay with | e :: _ => e.1 + 65535 | [] => h.txSeq + 65535)
    s.wr (pgRINGP p) RINGP_REPLAY_BYTES (replayBytes h.replay)
  else s

/-- The credit register of a channel. -/
def credFld (vc : Nat) : Fld := if vc = vcCPL then RINGP_CR_CPL else if vc = vcREQ then RINGP_CR_REQ else RINGP_CR_ITEM

/-- A numbered frame into the replay buffer and onto the line (R196). -/
def State.sendData (s : State) (p vc ft : Nat) (body : List Byte) : State :=
  let h := s.hop p
  let h' := { h with txSeq := (h.txSeq + 1) % 65536, replay := h.replay ++ [(h.txSeq, vc, body)]
                     progAt := if h.replay.isEmpty then s.time.clk else h.progAt }
  ((s.setHop p h').sendFrame p ft vc h.txSeq body).mirrorHop p

/-- May the packet at the head of a channel go: replay room (R196), credit (R199), and for a packet of this node's own
the bubble of 38 credits left over (R201)? -/
def State.mayGo (s : State) (p vc : Nat) (own : Bool) (body : List Byte) : Bool :=
  let h := s.hop p
  let cr := s.rd (pgRINGP p) (credFld vc)
  decide (h.replay.length < 32768) && decide (replayBytes h.replay + frameLen body ≤ 131072)
    && decide (frameCred body + (if own then 38 else 0) ≤ cr)

/-- The next waiting packet of a channel: in transit before own (R200). -/
def headOf (q : List (Nat × Bool × RingPkt)) (vc : Nat) : Option (Bool × RingPkt) :=
  match q.find? (fun e => e.1 == vc && !e.2.1) with
  | some e => some e.2
  | none => (q.find? (fun e => e.1 == vc)).map (·.2)

/-- Remove the first occurrence of an element. -/
def eraseFirst {α : Type} [DecidableEq α] (a : α) : List α → List α
  | [] => []
  | b :: l => if a = b then l else b :: eraseFirst a l

/-- Core clocks in a span of the reference clock: 600 MHz. -/
def coreClocks (d : Nat) : Nat := d * 6 / 655360

/-- A frame begins or ends waiting for credit: CREDIT_STALL counts the core clocks between (R238). -/
def State.noteStall (s : State) (p : Nat) (stalled : Bool) : State :=
  let h := s.hop p
  match h.stallAt, stalled with
  | none, true => s.setHop p { h with stallAt := some s.time.clk }
  | some t, false => (s.setHop p { h with stallAt := none }).add (pgRINGP p) RINGP_C_CREDIT_STALL (coreClocks (s.time.clk - t))
  | _, _ => s

/-- Send what may go, highest channel first (R200). `n` bounds the frames sent. -/
def State.pumpN (s : State) (p : Nat) : Nat → State
  | 0 => s
  | n + 1 =>
    if !s.portUp p then s
    else
      let try_ (vc : Nat) : Option (Nat × Bool × RingPkt) :=
        match headOf (s.hop p).queue vc with
        | some (own, k) => if s.mayGo p vc own (pktBytes k) then some (vc, own, k) else none
        | none => none
      match (try_ vcCPL).or ((try_ vcREQ).or (try_ vcITEM)) with
      | none => s.noteStall p (!(s.hop p).queue.isEmpty)
      | some e =>
        let h := s.hop p
        let s := s.setHop p { h with queue := eraseFirst e h.queue }
        let s := s.wr (pgRINGP p) (credFld e.1) (s.rd (pgRINGP p) (credFld e.1) - frameCred (pktBytes e.2.2))
        (s.sendData p e.1 ftDATA (pktBytes e.2.2)).pumpN p n

def State.pump (s : State) (p : Nat) : State := s.pumpN p ((s.hop p).queue.length + 1)

/-- The other port of the same ring. -/
def otherPort (p : Nat) : Nat := if p % 2 = 0 then p + 1 else p - 1

/-- Hand a packet to a port whose line is up: a TIME_MSG goes at once in a TIMED frame, which carries no LSEQ. -/
def State.toPort (s : State) (p : Nat) (own : Bool) (k : RingPkt) : State :=
  if vcOf k.pt = vcTIME then s.sendFrame p ftTIMED vcTIME 0 (pktBytes k)
  else
    let h := s.hop p
    (s.setHop p { h with queue := h.queue ++ [(vcOf k.pt, own, k)] }).pump p

/-- Send a packet out of a port. On a down port it is turned back with WR inverted (R213); TIME_MSG is dropped; a node
with both ports down is isolated. -/
def State.sendPort (s : State) (p : Nat) (own : Bool) (k : RingPkt) : State :=
  if s.portUp p then s.toPort p own k
  else if vcOf k.pt = vcTIME then s.hopInc p RINGP_C_TIME_DROP
  else if s.portUp (otherPort p) then
    s.toPort (otherPort p) own (if k.wr then { k with wr := false } else { k with wr := true, hops := 255 })
  else s

/-! ### Routes from the last pass (R207, R211) -/

def State.passOf (s : State) (r : Nat) : List DiscRec := (tabGet? s.ring.topo r).getD []

/-- Delay from the peer into a port of this hub (R206), in 1/256 ns. -/
def State.portDelay (s : State) (p : Nat) : Nat :=
  ((s.rd (pgRINGP p) RINGP_HOP_NS : Int) + s.rdI pgTIME (TIME_HOP_ASYM.at p 4) * 256).toNat

/-- This hub's own discovery record (R209). Its residence time is the implementation's. -/
def State.selfRec (s : State) (r : Nat) : DiscRec :=
  let e := s.portUp (2 * r)
  let w := s.portUp (2 * r + 1)
  ⟨s.nodeId, true, e, w, e != w, 3, Config.incarn (s.rd pgSBOX SBOX_BOOT), s.portDelay (2 * r), s.portDelay (2 * r + 1),
   Config.hubResid, Config.ringMinor⟩

/-- A record as a DISCOVER carries it, and the records of a payload; `n` bounds them. -/
def discBytes (d : DiscRec) : List Byte :=
  leBytes 1 d.id ++ leBytes 1 (d.hub.toNat + 2 * d.eUp.toNat + 4 * d.wUp.toNat + 8 * d.wrapped.toNat + 16 * (d.maj % 16))
    ++ beBytes 2 d.incarn ++ beBytes 4 d.eIn ++ beBytes 4 d.wIn ++ beBytes 2 d.resid ++ leBytes 1 d.verMin ++ leBytes 1 0
def discOf (b : List Byte) : DiscRec :=
  let f := leAt b 1 1
  ⟨leAt b 0 1, f.testBit 0, f.testBit 1, f.testBit 2, f.testBit 3, f / 16, beAt b 2 2, beAt b 4 4, beAt b 8 4, beAt b 12 2, leAt b 14 1⟩
def discRecs : Nat → List Byte → List DiscRec
  | 0, _ => []
  | n + 1, l => if l.length < 16 then [] else discOf l :: discRecs n (l.drop 16)

/-- The nodes of a ring, eastward, this hub first. -/
def State.nodesOf (s : State) (r : Nat) : List DiscRec := s.selfRec r :: s.passOf r

/-- Position of a node in a list of records. -/
def ringPos (l : List DiscRec) (id : Nat) : Option Nat := l.findIdx? (fun d => d.id == id)

def recAt (l : List DiscRec) (i : Nat) : DiscRec := l.getD (i % l.length) ⟨0, false, false, false, false, 0, 0, 0, 0, 0, 0⟩

/-- The hop from node `i` eastward is up at both ends. -/
def hopUp (l : List DiscRec) (i : Nat) : Bool := (recAt l i).eUp && (recAt l (i + 1)).wUp

/-- Every hop of the eastward path of `n` hops from node `i` is up. -/
def pathUp (l : List DiscRec) (i n : Nat) : Bool := (List.range n).all (fun k => hopUp l (i + k))

/-- Sum of the directional hop delays from node `i` over `n` hops eastward, and of the same hops westward, in 1/256 ns. -/
def eastDelay (l : List DiscRec) (i n : Nat) : Nat := ((List.range n).map (fun k => (recAt l (i + k + 1)).wIn)).sum
def westDelay (l : List DiscRec) (i n : Nat) : Nat := ((List.range n).map (fun k => (recAt l (i + k)).eIn)).sum

/-- RESID of the nodes strictly inside an eastward stretch of `n` hops from node `i`, in 1/256 ns. -/
def residBetween (l : List DiscRec) (i n : Nat) : Nat :=
  ((List.range (n - 1)).map (fun k => (recAt l (i + k + 1)).resid * 16)).sum

/-- The route from node 0 to node `i`: direction (0 east, 1 west) and hops; fewer hops without a down hop, east on a
tie, and east where both cross a break. -/
def egressRoute (l : List DiscRec) (i : Nat) : Nat × Nat :=
  let n := l.length
  let e := pathUp l 0 i
  let w := pathUp l i (n - i)
  if w && (!e || n - i < i) then (1, n - i) else (0, i)

/-- Egress of this hub to a node on ring `r`, if the node is there. -/
def State.egressTo (s : State) (r id : Nat) : Option (Nat × Nat) :=
  let l := s.nodesOf r
  (ringPos l id).map (fun i => egressRoute l i)

/-- A leaf admitted on ring `r` (R210). -/
def State.admitted (s : State) (r id : Nat) : Bool := s.on (nodeAt id) (if r = 0 then NODE_ADM_A else NODE_ADM_B)

/-- Ring port of ring `r` and direction `d`. -/
def ringPort (r d : Nat) : Nat := 2 * r + d

/-- A packet of this hub's own, before its route is known. -/
def mkPkt (src pt dmode dst xf : Nat) (payload : List Byte) : RingPkt :=
  ⟨pt, dmode, false, false, false, src, dst, 255, xf, payload⟩

/-- Send a unicast packet to a node on ring `r`, in the egress direction. -/
def State.sendUni (s : State) (r : Nat) (k : RingPkt) : State :=
  match s.egressTo r k.dst with
  | some (d, h) => s.sendPort (ringPort r d) true { k with hops := h }
  | none => s

/-- Send a unicast packet on every ring its destination is admitted on. -/
def State.sendBoth (s : State) (k : RingPkt) : State :=
  s.each [0, 1] (fun s r => if s.admitted r k.dst then s.sendUni r k else s)

/-- The ring, direction and hops of fewest hops to a node; ring A, east, on a tie (R222). -/
def State.nearest (s : State) (id : Nat) : Option (Nat × Nat × Nat) :=
  let c (r : Nat) : Option (Nat × Nat × Nat) := if s.admitted r id then (s.egressTo r id).map (fun e => (r, e)) else none
  match c 0, c 1 with
  | some a, some b => if b.2.2 < a.2.2 then some b else some a
  | some a, none => some a
  | none, b => b

/-! ### Keys and tags (R352, R364, R365) -/

/-- The RING key slot that RA_TX selects, if its key is usable (R364). -/
def State.raSlot (s : State) : Option Nat :=
  let k := if s.on pgSBOX SBOX_RA_TX then s.rd pgSBOX SBOX_RA_SLOT1 else s.rd pgSBOX SBOX_RA_SLOT0
  if s.slotFor k engRING then some k else none

/-- Tag a packet: XF bit 7 set and the 28-byte trailer appended (R364). -/
def State.raTag (s : State) (k : RingPkt) : RingPkt × State :=
  match s.raSlot with
  | none => (k, s)
  | some sl =>
    let boot := beBytes 3 (s.rd pgSBOX SBOX_BOOT)
    let ctr := beBytes 8 s.ring.raCtr
    let pre := leBytes 1 (s.rd pgSBOX SBOX_RA_TX) ++ boot ++ ctr
    let k := { k with xf := k.xf ||| 0x80 }
    let body := k.payload ++ pre
    let hdr := pktBytes { k with hops := 0, wr := false, rs := false, hb := false, payload := List.replicate (body.length + 16) 0#8 }
    let tag := fixLen 16 (Config.gcmSeal (s.slotKey sl) (leBytes 1 k.src ++ boot ++ ctr) (hdr.take 8 ++ body) [])
    ({ k with payload := body ++ tag },
     { s with ring := { s.ring with raCtr := s.ring.raCtr + 1 } }.inc pgSBOX SBOX_C_RA_TAGGED)

/-! ### SIG messages of this hub (R227) -/

/-- The payload of the hub's next SIG. -/
def State.sigPayload (s : State) (type : Nat) (data : List Byte) : List Byte × State :=
  (beBytes 4 s.ring.sigNo ++ leBytes 1 type ++ leBytes 3 0 ++ data,
   { s with ring := { s.ring with sigNo := (s.ring.sigNo + 1) % 2 ^ 32 } })

/-- The leaf that a remote port's valid port map entry names. -/
def State.leafOf (s : State) (p : Nat) : Option Nat :=
  if 64 ≤ p && s.on (portmapAt p) PORTMAP_VALID then some (s.rd (portmapAt p) PORTMAP_LEAF) else none

end Sys2Proof.Machine
end

