-- ==== Sys2Proof/Machine/Deliv.lean ====
section
/-! DEFINITION. Machine/Deliv.lean: larder cells and spill (R119 to R122), queues and references (R112 to R118), NEWEST
and COALESCE placement (R132, R137, R138), resolution (R140, R141), ledgers (R142) and backpressure (R143). -/

namespace Sys2Proof.Machine

/-! ### Larder cells -/

/-- Cells of an item (R24). -/
def cellsFor (bodyLen : Nat) : Nat := (32 + bodyLen + 255) / 256
def itemCells (i : Item) : Nat := cellsFor i.body.length

/-- Larder cells of the device (R151). -/
def larderCells : Nat := 49152

def State.cellsFree (s : State) : Nat := larderCells - s.rd pgLARD LARD_CELLS_USED

/-- CELLS_USED, and RESERVE_ACT that follows it. -/
def State.setCells (s : State) (n : Nat) : State :=
  let s := s.wr pgLARD LARD_CELLS_USED n
  s.wrB pgLARD LARD_RESERVE_ACT (decide (larderCells - n ≤ s.rd pgLARD LARD_RESERVE))

def State.item? (s : State) (h : Nat) : Option LItem := tabGet? s.del.items h
def State.putItem (s : State) (h : Nat) (i : LItem) : State :=
  { s with del := { s.del with items := tabPut s.del.items h i } }

/-- An item whose spilled copy uses the spill store. -/
def onSpill (i : LItem) : Bool := i.loc == .spilling || i.loc == .spilled || i.loc == .fetching

/-- Cells of the spill store in use, and its capacity: CUR_SPILL × 64 MiB, less retired granules; half of it is skipped
while one of two channels is lost (R333). -/
def State.spillUsed (s : State) : Nat := ((s.del.items.filter (fun e => onSpill e.2)).map (fun e => itemCells e.2.item)).sum
def State.spillCells (s : State) : Nat :=
  let lost := (if s.cel.cap0 ≠ 0 ∧ !s.chInService 0 then 1 else 0) + (if s.cel.cap1 ≠ 0 ∧ !s.chInService 1 then 1 else 0)
  let all := if s.cel.cap0 = 0 ∨ s.cel.cap1 = 0 then 1 else 2
  min s.cel.spillSz s.cel.inited * (all - lost) / all / 256 - 16 * s.cel.retired.length

/-! ### Queues -/

def State.queueOf (s : State) (q : Nat) : List Ref := (tabGet? s.del.queues q).getD []
def State.lisOf (s : State) (p : Nat) : LisPort := (tabGet? s.del.ports p).getD LisPort.fresh
def State.setLis (s : State) (p : Nat) (l : LisPort) : State :=
  { s with del := { s.del with ports := tabPut s.del.ports p l } }

/-- References of a port, highest class first. -/
def State.portRefs (s : State) (p : Nat) : List Ref := (List.range 8).flatMap (fun c => s.queueOf (8 * p + c))

/-- A reference whose item is in the cellar (R117). -/
def State.refSpilled (s : State) (r : Ref) : Bool :=
  r.stat.isNone && (match s.item? r.handle with | some i => i.loc == .spilled || i.loc == .fetching | none => false)

/-- SPILLED of a queue. -/
def State.mirrorSpilled (s : State) (q : Nat) : State :=
  s.wr (queueAt q) QUEUE_SPILLED ((s.queueOf q).filter (fun r => s.refSpilled r)).length

/-- Write a queue; DEPTH, DEPTH_HW, AT_LIMIT, DEPTH_ALL and TALLY_USED follow it. -/
def State.setQueue (s : State) (q : Nat) (l : List Ref) : State :=
  let old := (s.queueOf q).length
  let s := { s with del := { s.del with queues := if l.isEmpty then tabDel s.del.queues q else tabPut s.del.queues q l } }
  let s := s.wr (queueAt q) QUEUE_DEPTH l.length
  let s := s.wr (queueAt q) QUEUE_DEPTH_HW (max l.length (s.rd (queueAt q) QUEUE_DEPTH_HW))
  let s := s.wrB (queueAt q) QUEUE_AT_LIMIT (decide (s.rd (queueAt q) QUEUE_QLIM ≤ l.length))
  let s := s.wr (lportAt (q / 8)) LPORT_DEPTH_ALL (s.rd (lportAt (q / 8)) LPORT_DEPTH_ALL + l.length - old)
  let s := s.wr pgLARD LARD_TALLY_USED (s.rd pgLARD LARD_TALLY_USED + l.length - old)
  s.mirrorSpilled q

/-- Queues that hold references, with the reference's position. -/
def State.refsTo (s : State) (h : Nat) : List (Nat × Nat × Ref) :=
  s.del.queues.flatMap (fun e =>
    (e.2.zipIdx.filter (fun r => r.1.stat.isNone && r.1.handle == h)).map (fun r => (e.1, r.2, r.1)))

/-! ### Key index (R132) -/

/-- Entries in use: one for each queue and key with a tracked reference, and one for each hold running that no queue of
its port covers. -/
def State.keyUsed (s : State) : Nat :=
  let ks := (s.del.queues.flatMap (fun e => (e.2.filter (·.tracked)).map (fun r => (e.1, r.ckey)))).eraseDups
  ks.length + (s.del.holds.filter (fun h => decide (s.time.h < h.2.2) && !ks.any (fun k => k.1 / 8 == h.1 && k.2 == h.2.1))).length

def State.mirrorKeys (s : State) : State := s.wr pgBELL BELL_KEYIDX_USED s.keyUsed

/-- End of the NEWEST hold of a key at a port, if one is listed. -/
def State.holdOf (s : State) (p k : Nat) : Option Nat := (s.del.holds.find? (fun h => h.1 == p && h.2.1 == k)).map (·.2.2)

/-- Is there an entry for a new tracked reference, or room for one? -/
def State.canTrack (s : State) (q k : Nat) : Bool :=
  (s.queueOf q).any (fun r => r.tracked && r.ckey == k)
    || (match s.holdOf (q / 8) k with | some e => decide (s.time.h < e) | none => false)
    || decide (s.keyUsed < 65536)

/-! ### Backpressure (R143) -/

/-- A SIG BACKPRESSURE to a leaf: flags, PORT, DEPTH and with a source SPORT and DISP, in whole bytes in that order.
Only the active hub sends; RA_ITEM tags it (R364). -/
def State.sigBackpressure (s : State) (leaf q : Nat) (on : Bool) (depth : Nat) (src : Option (Nat × Nat)) : State :=
  let data := leBytes 1 (q % 8 + 16 * on.toNat + 32 * src.isSome.toNat) ++ beBytes 2 (q / 8) ++ beBytes 4 depth
    ++ (match src with | some (sp, d) => beBytes 2 sp ++ leBytes 1 d | none => [])
  let s := s.inc pgBELL BELL_C_BP_SIG
  if !s.active then s
  else
    let ps := s.sigPayload 0x04 data
    let k := mkPkt s.nodeId 0x03 0 leaf 0 ps.1
    let ks := if ps.2.on pgSBOX SBOX_RA_ITEM then ps.2.raTag k else (k, ps.2)
    ks.2.sendBoth ks.1

/-- A BP transition: to the leaf of a remote listener, else in PG_EVT and BP_LAST of page 0x0A1. -/
def State.bpTurn (s : State) (q : Nat) (on : Bool) : State :=
  let p := q / 8
  let c := q % 8
  let s := s.wrB (queueAt q) QUEUE_BP on
  let w := s.rd (lportAt p) LPORT_BP
  let s := s.wr (lportAt p) LPORT_BP (if on then w ||| 2 ^ c else w &&& (255 - 2 ^ c))
  match s.leafOf p with
  | some leaf => s.sigBackpressure leaf q on (s.queueOf q).length none
  | none =>
    let s := (s.wr pgBELL BELL_BP_LAST_PORT p).wr pgBELL BELL_BP_LAST_CLASS c
    (s.wrB pgBELL BELL_BP_LAST_ON on).raise 0xA1 (if on then 0 else 1)

/-- BP judged afresh at a change of DEPTH, QLIM or BP_EN. -/
def State.judgeBP (s : State) (q : Nat) : State :=
  let en := s.on pgBELL (BELL_BP_EN.at (q % 8) 4)
  let d := (s.queueOf q).length
  let lim := s.rd (queueAt q) QUEUE_QLIM
  if s.on (queueAt q) QUEUE_BP then
    if !en || d ≤ lim / 2 then s.bpTurn q false else s
  else if en && lim ≤ d then s.bpTurn q true else s

/-- While BP is on, a reference refused or coalesced whose item came from a remote port signals that port's leaf, at
most once per 10 ms for each leaf and listener queue. -/
def State.bpSource (s : State) (q port code : Nat) : State :=
  if !s.on (queueAt q) QUEUE_BP then s
  else match s.leafOf port with
  | none => s
  | some leaf =>
    let k := leaf * 16384 + q
    match tabGet? s.del.sigAt k with
    | some t => if s.time.clk < t + 10 * msU then s
        else { s with del := { s.del with sigAt := tabPut s.del.sigAt k s.time.clk } }.sigBackpressure leaf q true
          (s.queueOf q).length (some (port, code))
    | none => { s with del := { s.del with sigAt := tabPut s.del.sigAt k s.time.clk } }.sigBackpressure leaf q true
        (s.queueOf q).length (some (port, code))

/-! ### Ledgers (R142) -/

/-- Distance of a SEQ from another in 32-bit serial arithmetic. -/
def seqDist (a b : Nat) : Nat := (b + 2 ^ 32 - a % 2 ^ 32) % 2 ^ 32

/-- `b` at or above `a`. -/
def seqGe (a b : Nat) : Bool := decide (seqDist a b < 2 ^ 31)

/-- Add 1 to element `i` of a list of counts. -/
def bump (l : List Nat) (i : Nat) : List Nat := l.zipIdx.map (fun e => if e.2 = i then e.1 + 1 else e.1)

/-- A disposition of a flow at a listener: codes 0 SENT to 6 REFUSED_SIZE. -/
def ledNote (g : Ledger) (flow seq code : Nat) : Ledger :=
  if g.ents.any (fun e => e.flow == flow) then
    { g with ents := g.ents.map (fun e =>
        if e.flow == flow && seqGe e.frm seq then
          { e with top := if seqGe e.top seq then seq else e.top
                   disp := if code = 0 then e.disp else e.disp ++ [(seq, code)] }
        else e) }
  else if g.ovfFlows.contains flow then
    if code = 0 then g else { g with ovf := bump g.ovf (code - 1) }
  else if code ≤ 1 then g
  else if g.ents.length < 32 then { g with ents := g.ents ++ [⟨flow, seq, seq, [(seq, code)], false⟩] }
  else { g with ovfFlows := flow :: g.ovfFlows, ovf := bump g.ovf (code - 1) }

def State.setLed (s : State) (p : Nat) (f : Ledger → Ledger) : State :=
  let l := s.lisOf p
  s.setLis p { l with led := f l.led }

/-- A queued status sentence is released or dropped (R142): on release its counts leave the entry. -/
def ledDone (g : Ledger) (k : StatTok) (released : Bool) : Ledger :=
  match k.flow with
  | none =>
    let ovf := if released then g.ovf.zipWith (· - ·) k.counts else g.ovf
    { g with ovfQueued := false, ovf := ovf, ovfFlows := if ovf.sum = 0 then [] else g.ovfFlows }
  | some f =>
    let upd (e : LedgEnt) : Option LedgEnt :=
      if e.flow != f then some e
      else if !released then some { e with queued := false }
      else
        let d := e.disp.filter (fun x => !k.seqs.contains x.1)
        if d.isEmpty then none
        else some { e with queued := false, disp := d, frm := (k.thru + 1) % 2 ^ 32 }
    { g with ents := g.ents.filterMap upd }

/-- A status sentence is released or dropped: counted, its ledger entry cleared, and logged as a TIMER record (R249). -/
def State.statDone (s : State) (p : Nat) (k : StatTok) (released : Bool) : State :=
  let s := s.inc pgBELL (if released then BELL_C_STATUS_SENT else BELL_C_STATUS_LOST)
  let s := s.setLed p (fun g => ledDone g k released)
  s.log (.timer (if released then 2 else 3) p (k.flow.getD 0xFFFF))

/-! ### Cells freed, spill start and stop (R24, R119, R120, R122) -/

/-- Spill victims: items in the larder, not in a queue's first FETCH_AHEAD places; those with every reference in classes
4 to 7 first, each group most recently admitted first. -/
def State.victim (s : State) : Option Nat :=
  let ahead := s.rd pgLARD LARD_FETCH_AHEAD
  let ok := s.del.items.filter (fun e => e.2.loc == .larder &&
    !(s.refsTo e.1).isEmpty && (s.refsTo e.1).all (fun r => decide (ahead ≤ r.2.1)))
  let low (e : Nat × LItem) : Bool := (s.refsTo e.1).all (fun r => decide (4 ≤ r.1 % 8))
  let best (l : List (Nat × LItem)) : Option Nat :=
    (l.foldl (fun b e => match b with
      | none => some e
      | some x => if x.2.no < e.2.no then some e else some x) none).map (·.1)
  (best (ok.filter low)).or (best ok)

/-- The next spill write starts if the larder is spilling, none is in flight and the store has room; a full store sets
SPILL_FULL (R122). -/
def State.spillNext (s : State) : State :=
  if !s.on pgLARD LARD_SPILLING || s.del.items.any (fun e => e.2.loc == .spilling) then s
  else match s.victim with
  | none => s
  | some h =>
    match s.item? h with
    | none => s
    | some i =>
      if s.spillUsed + itemCells i.item ≤ s.spillCells then s.putItem h { i with loc := .spilling }
      else if s.on pgLARD LARD_SPILL_FULL then s
      else (((s.wr pgLARD LARD_SPILL_FULL 1).raise 0xA0 2).wr pgLARD LARD_SPILLING 0).raise 0xA0 1

/-- Spilling starts when the cells in use reach SPILL_HI. -/
def State.spillStart (s : State) : State :=
  if !s.on pgLARD LARD_SPILLING && !s.on pgLARD LARD_SPILL_FULL
      && decide (s.rd pgLARD LARD_SPILL_HI ≤ s.rd pgLARD LARD_CELLS_USED) then
    ((s.wr pgLARD LARD_SPILLING 1).raise 0xA0 0).spillNext
  else s.spillNext

/-- Cells return to the larder; spilling stops when those in use fall to SPILL_LO. -/
def State.freeCells (s : State) (n : Nat) : State :=
  let u := s.rd pgLARD LARD_CELLS_USED - n
  let s := s.setCells u
  if s.on pgLARD LARD_SPILLING && decide (u ≤ s.rd pgLARD LARD_SPILL_LO) then
    (s.wr pgLARD LARD_SPILLING 0).raise 0xA0 1
  else s

/-- Spill space was freed: a full store takes items again (R122). -/
def State.spillFreed (s : State) : State :=
  if s.on pgLARD LARD_SPILL_FULL then (s.wr pgLARD LARD_SPILL_FULL 0).spillStart else s

/-- Allocate cells (R119). -/
def State.takeCells (s : State) (n : Nat) : State :=
  ((s.setCells (s.rd pgLARD LARD_CELLS_USED + n)).add pgLARD LARD_C_CELLS_ALLOC n).spillStart

/-- The write-back record of a submission whose references are all resolved and whose transmit stamp is not awaited
(R149): STATUS is the highest code, or NO_LISTENER. -/
def State.wbFinish (s : State) (h : Nat) : State :=
  match s.item? h with
  | none => s
  | some i =>
    match i.wb with
    | none => s
    | some w =>
      if !(s.refsTo h).isEmpty || w.wireDue then s
      else
        let s := s.putItem h { i with wb := none }
        s.wbWrite (if w.nList = 0 then 7 else w.worst) i.item.flow i.item.seq i.item.stamp i.item.dom true w

/-- An item with no reference left, its journal copy written, gives up its cells (R24). A submission's record is kept
with the item until it is written. -/
def State.settle (s : State) (h : Nat) : State :=
  let s := s.wbFinish h
  match s.item? h with
  | none => s
  | some i =>
    if !(s.refsTo h).isEmpty || !i.jrnl || i.wb.isSome then s
    else
      let s := { s with del := { s.del with items := tabDel s.del.items h } }
      match i.loc with
      | .larder => s.freeCells (itemCells i.item)
      | .spilled => s.spillFreed
      | .spilling | .fetching => (s.freeCells (itemCells i.item)).spillFreed

/-! ### Resolution (R140, R141, R148) -/

def codeSENT : Nat := 0
def codeLATE : Nat := 1
def codeCOAL : Nat := 2
def codeFULL : Nat := 3
def codeDEAD : Nat := 4
def codeKEY : Nat := 5
def codeSIZE : Nat := 6

/-- Counter of page 0x0A1 for a code. -/
def bellCtr (code : Nat) : Option Fld :=
  match code with
  | 1 => some BELL_C_SENT_LATE
  | 2 => some BELL_C_COALESCED
  | 3 => some BELL_C_REFUSED_FULL
  | 4 => some BELL_C_REFUSED_DEADLINE
  | 5 => some BELL_C_REFUSED_KEY
  | 6 => some BELL_C_REFUSED_SIZE
  | _ => none

/-- Nanoseconds from an item's STAMP to now. -/
def State.sinceStamp (s : State) (i : Item) : Nat := (s.time.h - i.stamp * 65536) / 65536

/-- A disposition in a submission's write-back counts. -/
def wbNote (w : WriteBack) (code at_ : Nat) : WriteBack :=
  let w := { w with worst := max w.worst code, done := at_ }
  if code ≤ 1 then
    { w with nSent := w.nSent + 1, nLate := w.nLate + code
             first := match w.first with | some f => some f | none => some at_ }
  else if code = 2 then { w with nCoal := w.nCoal + 1 }
  else { w with nRef := w.nRef + 1 }

/-- Count a disposition everywhere it is counted, whether or not its reference was ever queued. `bytes` is W of a
release (R127, R150). -/
def State.countDisp (s : State) (q : Nat) (r : Ref) (code bytes : Nat) : State :=
  let s := s.inc (queueCtrAt q) (ctr code)
  let s := s.when (decide (code ≤ 1)) (·.add (queueCtrAt q) (ctr 7) bytes)
  let s := s.inc (dispCtrAt r.flow) (ctr code)
  let s := s.when (decide (code ≤ 1)) (·.inc pgBELL BELL_C_RELEASES)
  let s := match bellCtr code with | some c => s.inc pgBELL c | none => s
  let s := s.setLed (q / 8) (fun g => ledNote g r.flow r.seq code)
  let s := match s.item? r.handle with
    | some i => match i.wb with
      | some w => s.putItem r.handle { i with wb := some (wbNote w code (s.sinceStamp i.item)) }
      | none => s
    | none => s
  let s := if 2 ≤ code then
      match s.item? r.handle with | some i => s.bpSource q i.item.port code | none => s
    else s
  s.log (.resolve code q r.handle)

/-- Take a reference out of its queue. `judge` is false where the arrival that caused it judges the depth (R137). -/
def State.unqueue (s : State) (q : Nat) (r : Ref) (judge : Bool) : State :=
  let s := s.setQueue q ((s.queueOf q).filter (fun x => x.no != r.no))
  (s.when judge (·.judgeBP q)).mirrorKeys

/-- Resolve a queued reference with a code of R140. A status sentence is dropped instead, its counts kept (R142). -/
def State.resolve (s : State) (q : Nat) (r : Ref) (code bytes : Nat) (judge : Bool) : State :=
  let s := s.unqueue q r judge
  match r.stat with
  | some (_, k) => s.statDone (q / 8) k (decide (code ≤ 1))
  | none => (s.countDisp q r code bytes).settle r.handle

/-! ### Arrival (R139) -/

/-- Does a port's TYPE carry a KIND (R115)? -/
def State.kindOk (s : State) (p kind : Nat) : Bool :=
  if p = 59 then decide (1 ≤ kind ∧ kind ≤ 8)
  else match s.rd (ingestAt p) INGEST_TYPE with
  | 1 => kind == 1 || kind == 2
  | 2 => kind == 4 || kind == 5
  | 3 => kind == 1 || kind == 2 || kind == 3
  | 4 => kind == 6
  | _ => false

/-- Do TAG changes apply at a listener (R145)? -/
def State.tagPort (s : State) (p kind : Nat) : Bool :=
  p != 59 && (kind == 1 || kind == 2) && (s.rd (ingestAt p) INGEST_TYPE == 1 || s.rd (ingestAt p) INGEST_TYPE == 3)

/-- The body after stripping. -/
def State.strippedBody (s : State) (p : Nat) (i : Item) : List Byte :=
  if s.tagPort p i.kind && s.on (lportAt p) LPORT_STRIP then stripTags i.body else i.body

/-- Words a body takes in a tongs transmit FIFO (R307). -/
def tongWords (n : Nat) : Nat := max 1 ((n + 3) / 4)

/-- The fast-packet table of page 0x020 (R277, R294). -/
def State.isFast (s : State) (pgn : Nat) : Bool :=
  (List.range 32).any (fun i => s.on (pgCAN 0) (CAN_FP_V.at i 4) && s.rd (pgCAN 0) (CAN_FP_PGN.at i 4) == pgn)

/-- A KIND 5 item that a CAN controller cannot send (R279). -/
def State.canTooLong (s : State) (n : Nat) (i : Item) : Bool :=
  let len := i.body.length - 8
  i.kind == 5 && (if s.isFast (leAt i.body 0 3 % 2 ^ 18) then decide (223 < len)
    else decide (8 < len) && leAt i.body 5 1 != 255 && !s.on (pgCAN n) CAN_SA_REPL)

/-- Check 2 of R139: above TX_MAX, an FD frame at a classic controller (R271), or more words than TX_LIMIT (R307). -/
def State.tooLong (s : State) (p : Nat) (i : Item) : Bool :=
  decide (s.rd (lportAt p) LPORT_TX_MAX < (s.strippedBody p i).length)
    || (decide (32 ≤ p ∧ p < 40) && i.kind == 4 && (leAt i.body 4 1).testBit 0 && !s.on (pgCAN (p - 32)) CAN_FD_EN)
    || (decide (32 ≤ p ∧ p < 40) && s.canTooLong (p - 32) i)
    || (decide (42 ≤ p ∧ p < 58) && decide (s.rd (pgTONG (p - 42)) TONG_TX_LIMIT < tongWords i.body.length))

/-- An item has reached its expiry (R31, R134). -/
def itemExpired (i : Item) (h : Nat) : Bool := i.deadline != 0 && decide ((i.stamp + i.deadline * 10000) * 65536 ≤ h)

/-- A reference that expires at the instant of its replacement or shedding is resolved REFUSED_DEADLINE (R139). -/
def State.shedCode (s : State) (r : Ref) (code : Nat) : Nat :=
  match s.item? r.handle with
  | some i => if itemExpired i.item s.time.h then codeDEAD else code
  | none => code

/-- Append a reference to a queue, or insert it at a place; DEPTH is judged afterwards. -/
def State.enqAt (s : State) (q : Nat) (r : Ref) (pos : Nat) : State :=
  let l := s.queueOf q
  ((s.setQueue q (l.take pos ++ r :: l.drop pos)).judgeBP q).mirrorKeys

/-- A new reference replaces an older one of its key: it takes the older one's place, or the tail if a reference of its
own flow lies behind that place (R132, R138). A PLACE record carries where it stands. -/
def State.replaceRef (s : State) (q : Nat) (old new : Ref) : State :=
  let l := s.queueOf q
  let i := (l.findIdx? (fun r => r.no == old.no)).getD 0
  let behind := (l.drop (i + 1)).any (fun r => r.stat.isNone && r.flow == new.flow)
  let s := s.resolve q old (s.shedCode old codeCOAL) 0 false
  let pos := if behind then (s.queueOf q).length else i
  let after := if pos = 0 then 0x3FFFF else ((s.queueOf q).getD (pos - 1) new).handle
  (s.enqAt q new pos).log (.place q new.handle after)

/-- The oldest tracked reference of a key in a queue; `newest` asks for NEWEST references alone. -/
def oldestKey (l : List Ref) (k : Nat) (newest : Bool) : Option Ref :=
  (l.filter (fun r => r.tracked && r.ckey == k && (!newest || r.mode == 2))).foldl (fun b r =>
    match b with | none => some r | some x => if r.no < x.no then some r else some x) none

/-- The reference is refused on arrival: its disposition is counted, or a status sentence is dropped. -/
def State.refuseRef (s : State) (q : Nat) (r : Ref) (code : Nat) : State :=
  match r.stat with
  | some (_, k) => s.statDone (q / 8) k false
  | none => s.countDisp q r code 0

/-- The checks of R139 in order, for a reference to `i` arriving at queue `q`. -/
def State.arrive (s : State) (q : Nat) (r : Ref) (i : Item) : State :=
  let p := q / 8
  if !s.on (lportAt p) LPORT_TX_EN || s.on (lportAt p) LPORT_FLUSHING then s.refuseRef q r codeFULL
  else if !s.kindOk p i.kind then (s.inc pgBELL BELL_C_KIND_REFUSED).refuseRef q r codeSIZE
  else if s.tooLong p i then s.refuseRef q r codeSIZE
  else if itemExpired i s.time.h && r.stat.isNone then s.refuseRef q r codeDEAD
  else
    let pol := s.rd pgBELL (BELL_POLICY.at (q % 8) 4)
    let want := r.stat.isNone && (r.mode == 2 || pol == 1)
    let trk := want && s.canTrack q r.ckey
    let s := if want && !trk then (s.inc pgBELL BELL_C_KEY_OVF).raise 0xA1 3 else s
    let r := { r with tracked := trk }
    let l := s.queueOf q
    match (if trk && r.mode == 2 then oldestKey l r.ckey true else none) with
    | some old => s.replaceRef q old r
    | none =>
      let lim := s.rd (queueAt q) QUEUE_QLIM
      let full := decide (lim ≤ l.length)
      let put (s : State) : State :=
        if decide (262144 ≤ s.rd pgLARD LARD_TALLY_USED) then (s.inc pgLARD LARD_C_NOTALLY).refuseRef q r codeFULL
        else s.enqAt q r (s.queueOf q).length
      if !full then put s
      else match pol with
      | 0 => if 4 * lim ≤ l.length then s.refuseRef q r codeFULL else put s
      | 1 => match (if trk then oldestKey l r.ckey false else none) with
        | some old => s.replaceRef q old r
        | none => s.refuseRef q r codeFULL
      | 2 => s.refuseRef q r codeFULL
      | _ => match l with
        | [] => put s
        | v :: _ => put (s.resolve q v (s.shedCode v codeFULL) 0 false)

/-! ### Enqueue (R112, R118) -/

/-- The listener list of a flow under its live subscription. -/
def State.listeners (s : State) (f : Nat) : List Nat :=
  let b := subAt f
  if s.on b SUB_VALID then
    (List.range (s.rd b SUB_LIST_CNT)).map (fun i => s.rd (llistAt (s.rd b SUB_LIST_BASE + i)) ⟨0, 0, 11, 0⟩)
  else []

/-- The coalescing key of an item on its flow (R132, R133). -/
def State.ckeyOf (s : State) (i : Item) : Nat := if s.kscope i.flow then 2 ^ 46 + i.key else i.flow * 2 ^ 32 + i.key

/-- A reference to an admitted item. -/
def State.mkRef (s : State) (h : Nat) (i : Item) : Ref × State :=
  let b := flowAt i.flow
  ({ handle := h, flow := i.flow, seq := i.seq, ckey := s.ckeyOf i, mode := s.rd b FL_REL_MODE
     inst := (i.stamp + s.rd b FL_ALIGN_OFS * 1000) * 65536, tracked := false, no := s.del.refNo, stat := none },
   { s with del := { s.del with refNo := s.del.refNo + 1 } })

/-- On a standby in step a reference is queued at the tail: the log carries what becomes of it (R144). -/
def State.arriveStandby (s : State) (q : Nat) (r : Ref) : State :=
  let pol := s.rd pgBELL (BELL_POLICY.at (q % 8) 4)
  let trk := (r.mode == 2 || pol == 1) && s.canTrack q r.ckey
  s.enqAt q { r with tracked := trk } (s.queueOf q).length

/-- One reference for each listener; an item without any is NO_LISTENER (R118). -/
def State.enqueueItem (s : State) (h : Nat) (i : Item) : State :=
  let ps := s.listeners i.flow
  let s := match s.item? h with
    | some li => match li.wb with
      | some w => s.putItem h { li with wb := some { w with
          nList := ps.length
          wirePort := ps.find? (fun p => decide (p < 42))
          done := s.sinceStamp i } }
      | none => s
    | none => s
  if ps.isEmpty then ((s.inc (dispCtrAt i.flow) (ctr 7)).inc pgBELL BELL_C_NO_LISTENER).settle h
  else
    let s := s.each ps (fun s p =>
      let rs := s.mkRef h i
      let q := 8 * p + i.prio
      if rs.2.follows then rs.2.arriveStandby q rs.1 else rs.2.arrive q rs.1 i)
    s.settle h

end Sys2Proof.Machine
end

