-- ==== Sys2Proof/Machine/Admission.lean ====
section
/-! DEFINITION. Machine/Admission.lean: admitting one item: cells (R119), SEQ (R22), the log record (R249), the larder,
the journal (R338) and the references (R112). -/

namespace Sys2Proof.Machine

/-- The larder has the cells that an item needs (R119): none free, or too few left over for its class. -/
inductive CellFit where
  | ok | noCell | reserve
  deriving DecidableEq, Repr

def State.cellFit (s : State) (prio cells : Nat) : CellFit :=
  if s.cellsFree < cells then .noCell
  else if 4 ≤ prio ∧ s.cellsFree < cells + s.rd pgLARD LARD_RESERVE then .reserve
  else .ok

/-- Count an item refused for want of cells. -/
def State.cellRefuse (s : State) (f : CellFit) : State :=
  match f with
  | .ok => s
  | .noCell => (s.inc pgLARD LARD_C_NOCELL).raise 0xA0 3
  | .reserve => s.inc pgLARD LARD_C_RESERVE_REFUSED

/-- The next item handle of the pool of 2^18 that no item holds; `n` bounds the search. -/
def State.pickHandle (s : State) (h : Nat) : Nat → Nat
  | 0 => h
  | n + 1 => if (s.item? h).isSome then s.pickHandle ((h + 1) % 2 ^ 18) n else h

/-- How an admission is recorded: by reference to an ITEM_IN copy, with a STAMP_X where `stx`, or by copy. -/
inductive AdmRec where
  | ref (leaf iseq : Nat) (stx : Bool)
  | copy
  deriving DecidableEq, Repr

/-- The ADMIT record, with its STAMP_X, or the ADMIT_COPY (R249). -/
def State.logAdmit (s : State) (r : AdmRec) (h : Nat) (i : Item) : State :=
  match r with
  | .ref leaf iseq stx =>
    let s := s.log (.admission stx leaf (hchk i).toNat iseq i.flow h)
    s.when stx (·.log (.stampX i.dom i.stamp))
  | .copy => s.log (.admitCopy h i)

/-- Admit an item that the larder has room for, at `seq`: SEQ and NEXT_SEQ, its record, cells, journal record and
references, under handle `h`. Answers the item as admitted. -/
def State.admitAt (s : State) (i : Item) (r : AdmRec) (h born : Nat) (wb : Option WriteBack) : Item × State :=
  let seq := s.rd (fstateAt i.flow) FSTATE_NEXT_SEQ
  let i := { i with seq := seq }
  let s := s.wr (fstateAt i.flow) FSTATE_NEXT_SEQ (seq + 1)
  let lpos := if s.active && 2 ≤ s.tstate then s.rd pgTWIN TWIN_LPOS_TX + 1 else 0
  let s := s.logAdmit r h i
  let leaf := match r with | .ref l _ _ => l | .copy => 0
  let iseq := match r with | .ref _ n _ => n | .copy => 0
  let li : LItem := { item := i, loc := .larder, no := s.del.admNo, lpos := lpos, born := born, leaf := leaf, iseq := iseq
                      jrnl := s.jBlocks == 0, replay := false, wb := wb }
  let s := { s with del := { s.del with admNo := s.del.admNo + 1, nextHandle := (h + 1) % 2 ^ 18 } }
  let s := (s.putItem h li).takeCells (itemCells i)
  let s := s.jAppend (itemHeader i) i.body
  (i, (s.enqueueItem h i))

/-- Admit an item on the active hub, or refuse it for want of cells. -/
def State.admitNew (s : State) (i : Item) (r : AdmRec) (born : Nat) (wb : Option WriteBack) : Option Item × State :=
  match s.cellFit i.prio (itemCells i) with
  | .ok =>
    let h := s.pickHandle s.del.nextHandle s.del.items.length
    let x := s.admitAt i r h born wb
    (some x.1, x.2)
  | f => (none, s.cellRefuse f)

end Sys2Proof.Machine
end

