-- ==== Sys2Proof/Machine/Egress.lean ====
section
/-! DEFINITION. Machine/Egress.lean: the body a listener is sent: TAG changes (R145, R167), its wire length and time
(R127), and the Ethernet frame of an item with MACsec (R284, R287, R289). -/

namespace Sys2Proof.Machine

/-! ### TAG parameters (R145, R103) -/

/-- A TAG block around its content, with its checksum (R49). -/
def hexDigit (n : Nat) : Byte := chr ("0123456789ABCDEF".toList.getD n '0')
def hexByte (b : Byte) : List Byte := [hexDigit (b.toNat / 16), hexDigit (b.toNat % 16)]
def tagBlock (content : List Byte) : List Byte := bsl :: content ++ cStar :: hexByte (xorBytes content) ++ [bsl]

/-- Parameters joined by commas. -/
def joinB (sep : Byte) : List (List Byte) → List Byte
  | [] => []
  | [x] => x
  | x :: l => x ++ sep :: joinB sep l

def tagParam (code : Char) (v : List Byte) : List Byte := chr code :: 0x3A#8 :: v

/-- Does a block's content hold a parameter of this code? -/
def hasParam (content : List Byte) (code : Char) : Bool := (tagParams content).any (fun p => p.1 == [chr code])

/-- Replace a parameter in place, or append it. -/
def putParam (content : List Byte) (code : Char) (v : List Byte) : List Byte :=
  if hasParam content code then
    joinB cComma ((splitB cComma content).map (fun x => if (cutB 0x3A#8 x).1 = [chr code] then tagParam code v else x))
  else if content.isEmpty then tagParam code v
  else content ++ cComma :: tagParam code v

/-- A body with the content of its first TAG block changed by `f`; a block is created where there is none. -/
def mapFirstTag (f : List Byte → List Byte) (body : List Byte) : List Byte × Nat :=
  let sp := splitTags body.length body
  let content := f (match sp.1 with | b :: _ => tagContent b | [] => [])
  if content.isEmpty then (body, 0)
  else
    let blk := tagBlock content
    let rest := (sp.1.drop 1).flatMap (fun b => bsl :: b ++ [bsl])
    (blk ++ rest ++ sp.2, blk.length)

/-- The 16 bytes of SRC_NAME, and the name: empty if none is set. -/
def State.nameBytes (s : State) (p : Nat) : List Byte :=
  (List.range 4).flatMap (fun k => leBytes 4 (s.rd (lportAt p) (LPORT_SRC_NAME.at k 4)))
def State.srcName (s : State) (p : Nat) : List Byte := if p = 58 then [] else (s.nameBytes p).takeWhile (· ≠ 0#8)

/-- The c value of a stamp (R167); none while UTC_V is 0. -/
def State.utcOf (s : State) (stamp : Nat) : Option Nat :=
  let x := stamp / 1000000000
  if !s.on pgTIME TIME_UTC_V then none
  else if s.on pgTIME TIME_LEAP_V && decide (s.rd pgTIME TIME_LEAP_S ≤ x) then some (x - s.rd pgTIME TIME_LEAP_OFS)
  else some (x - s.rd pgTIME TIME_UTC_OFS)

/-- What a listener is sent of an item: the body, whether TAG_SKIP counts, and whether n advanced. -/
structure EgBody where
  body : List Byte
  skip : Bool
  n : Bool
  deriving DecidableEq, Repr

/-- Strip and insert (R145). -/
def State.egressBody (s : State) (p : Nat) (i : Item) : EgBody :=
  let base := s.strippedBody p i
  if !s.tagPort p i.kind then ⟨base, false, false⟩
  else
    let b := lportAt p
    let content := match (splitTags base.length base).1 with | x :: _ => tagContent x | [] => []
    let wantC := s.on b LPORT_INS_C && !hasParam content 'c'
    let c := if wantC then s.utcOf i.stamp else none
    let name := s.srcName i.port
    let wantS := s.on b LPORT_INS_S && !hasParam content 's' && !name.isEmpty
    let wantN := s.on b LPORT_INS_N
    let noUtc := wantC && c.isNone
    let f (x : List Byte) : List Byte :=
      let x := match c with | some v => putParam x 'c' (decDigits v) | none => x
      let x := if wantS then putParam x 's' name else x
      if wantN then putParam x 'n' (decDigits ((s.lisOf p).nCount % 999 + 1)) else x
    if c.isNone && !wantS && !wantN then ⟨base, noUtc, false⟩
    else
      let r := mapFirstTag f base
      if 80 < r.2 ∨ s.rd b LPORT_TX_MAX < r.1.length then ⟨base, true, false⟩ else ⟨r.1, noUtc, wantN⟩

/-- Is a listener a datagram listener of a sentence: the token of R287 goes ahead of its body? -/
def State.tokenAhead (s : State) (p kind : Nat) : Bool :=
  s.tagPort p kind && s.rd (ingestAt p) INGEST_TYPE == 3

/-- W of a release (R127). -/
def State.wireLen (s : State) (p : Nat) (i : Item) (e : EgBody) : Nat :=
  e.body.length + if s.tokenAhead p i.kind then 6 else 0

/-- Wire pacing applies at a listener (R127). -/
def State.wirePaced (s : State) (p : Nat) : Bool :=
  s.on (lportAt p) LPORT_RATE_AUTO && s.rd (ingestAt p) INGEST_TYPE == 1 && p != 59

/-- Time of `w` characters on a UART listener's line, in 1/65 536 ns: W × C + (W − 1) × TX_ICG bit times. -/
def State.lineTime (s : State) (p w : Nat) : Nat :=
  let c := s.portCfg p
  (w * cfgFrameBits c + (w - 1) * s.rd (lportAt p) LPORT_TX_ICG) * cfgBit3 c / 3

/-- Time from a release to the end of the item at the listener's pace. -/
def State.paceTime (s : State) (p w : Nat) : Nat :=
  if s.rd (ingestAt p) INGEST_TYPE = 1 ∧ p ≠ 59 then s.lineTime p w
  else
    let r := s.rd (lportAt p) LPORT_RATE
    if r = 0 then 0 else w * secU / r

/-! ### Ethernet frames (R284, R287) -/

/-- Group of an item on Ethernet port `e` (R287): the first valid EGRP entry that matches, else DEF_GRP. -/
def State.ethGroup (s : State) (e flow : Nat) : Nat :=
  let b := pgETH e
  match (List.range 32).find? (fun k => s.on b (ETH_EVALID.at k 8) &&
      (flow &&& s.rd b (ETH_EMASK.at k 8)) == (s.rd b (ETH_EFLOW.at k 8) &&& s.rd b (ETH_EMASK.at k 8))) with
  | some k => s.rd b (ETH_EGRP.at k 8)
  | none => s.rd b ETH_DEF_GRP

/-- One's complement sum of 16-bit words, and the checksum of IPv4 and UDP. -/
def sum16 : List Byte → Nat
  | [] => 0
  | [a] => a.toNat * 256
  | a :: b :: l => a.toNat * 256 + b.toNat + sum16 l
def fold16 (n : Nat) : Nat :=
  let a := n % 65536 + n / 65536
  a % 65536 + a / 65536
def csum16 (l : List Byte) : Nat := 65535 - fold16 (sum16 l)

/-- The IPv4 header: no options, DF set; the identification is `ident`. -/
def ipHeader (len dscp ttl proto src dst ident : Nat) : List Byte :=
  let a := [0x45#8] ++ leBytes 1 (dscp * 4) ++ beBytes 2 len ++ beBytes 2 ident ++ beBytes 2 0x4000 ++ leBytes 1 ttl
    ++ leBytes 1 proto
  let z := beBytes 4 src ++ beBytes 4 dst
  a ++ beBytes 2 (csum16 (a ++ z)) ++ z

/-- UDP with its checksum; a computed 0 is sent as all ones. -/
def udpPacket (src dst sport dport : Nat) (data : List Byte) : List Byte :=
  let n := 8 + data.length
  let ps := beBytes 4 src ++ beBytes 4 dst ++ beBytes 2 17 ++ beBytes 2 n
  let h := beBytes 2 sport ++ beBytes 2 dport ++ beBytes 2 n
  let c := csum16 (ps ++ h ++ data)
  h ++ beBytes 2 (if c = 0 then 65535 else c) ++ data

/-- Destination address of an IPv4 multicast group. -/
def mcastMac (addr : Nat) : List Byte := beBytes 3 0x01005E ++ beBytes 3 (addr % 2 ^ 23)

/-- Addresses, the VLAN tag of R284 if the port has one, EtherType and payload. -/
def State.ethFrame (s : State) (e pcp : Nat) (dst : List Byte) (etype : Nat) (payload : List Byte) : List Byte :=
  let b := pgETH e
  dst ++ beBytes 6 (s.rd b ETH_MAC_ADDR)
    ++ (if s.on b ETH_VLAN_EN then beBytes 2 0x8100 ++ beBytes 2 (pcp * 8192 + s.rd b ETH_VLAN_ID) else [])
    ++ beBytes 2 etype ++ payload

/-- The frame of an item (R287). The identification, which the spec leaves open, is a free value. -/
def State.itemFrame (s : State) (e : Nat) (i : Item) (body : List Byte) : List Byte × State :=
  let b := pgETH e
  let g := s.ethGroup e i.flow
  let addr := s.rd b (ETH_GADDR.at g 16)
  let data := if i.kind = 3 then body else udpbc ++ body
  let r := s.fresh
  let src := s.rd b ETH_IP_ADDR
  let udp := udpPacket src addr (s.rd b ETH_UDP_SRC) (s.rd b (ETH_GPORT.at g 16)) data
  let ip := ipHeader (20 + udp.length) (s.rd b ETH_DSCP) (s.rd b ETH_TTL) 17 src addr r.1
  (s.ethFrame e (7 - i.prio) (mcastMac addr) 0x0800 (ip ++ udp), r.2)

/-! ### MACsec transmit (R289, R290) -/

/-- Key byte of an association: bits 6:0 slot, bit 7 valid. -/
def assocKey (keys an : Nat) : Option Nat :=
  let k := keys / 2 ^ (8 * an) % 256
  if k.testBit 7 then some (k % 128) else none

/-- The slot that the transmit association names, if its key is usable. -/
def State.txAssoc (s : State) (e : Nat) : Option Nat :=
  let b := pgETH e
  match assocKey (s.rd b ETH_TX_KEY) (s.rd b ETH_TX_AN) with
  | some k => if s.slotFor k engMACSEC then some k else none
  | none => none

/-- May port `e` send a frame: MACsec off, or a packet number left? -/
def State.pnLeft (s : State) (e : Nat) : Bool :=
  !s.on (pgETH e) ETH_MACSEC_EN || decide (s.rd (pgETH e) ETH_TX_PN < 2 ^ 32 - 1)

/-- Secure a frame: SecTAG with the SCI, then the secure data and the ICV, under SCI and PN as IV. -/
def State.secure (s : State) (e slot : Nat) (frame : List Byte) : List Byte :=
  let b := pgETH e
  let conf := s.on b ETH_CONF
  let data := frame.drop 12
  let sl := if data.length < 48 then data.length else 0
  let sci := beBytes 8 (s.rd b ETH_TX_SCI)
  let pn := beBytes 4 (s.rd b ETH_TX_PN)
  let tci := 0x20 + (if conf then 0x0C else 0) + s.rd b ETH_TX_AN
  let head := frame.take 12 ++ beBytes 2 0x88E5 ++ leBytes 1 tci ++ leBytes 1 sl ++ pn ++ sci
  let key := s.slotKey slot
  if conf then head ++ Config.gcmSeal key (sci ++ pn) head data
  else head ++ data ++ Config.gcmSeal key (sci ++ pn) (head ++ data) []

/-- The packet number advances; PN_LOW and PN_EXHAUST. -/
def State.pnNext (s : State) (e : Nat) : State :=
  let b := pgETH e
  let n := s.rd b ETH_TX_PN + 1
  let s := s.wr b ETH_TX_PN n
  let s := if n = 0xC0000000 then s.raise (0x18 + e) 2 else s
  if n = 2 ^ 32 - 1 then s.raise (0x18 + e) 3 else s

/-- A frame shorter than 60 bytes is padded to 60. -/
def padFrame (f : List Byte) : List Byte := f ++ List.replicate (60 - f.length) 0#8

/-- A frame leaves an Ethernet port, secured with MACSEC_EN 1. Answers whether it left: a frame whose key has become
unusable is dropped in TX_KEY_DROP. -/
def State.ethSend (s : State) (e : Nat) (frame : List Byte) : Bool × State :=
  let b := pgETH e
  let frame := padFrame frame
  if !s.on b ETH_MACSEC_EN then (true, (s.inc b ETH_C_FRAMES_TX).emit (.ethTx (40 + e) frame))
  else match s.txAssoc e with
  | none => (false, s.inc b ETH_C_TX_KEY_DROP)
  | some k =>
    if s.pnLeft e then (true, ((s.inc b ETH_C_FRAMES_TX).emit (.ethTx (40 + e) (s.secure e k frame))).pnNext e)
    else (false, s)

end Sys2Proof.Machine
end

