-- ==== Sys2Proof/Machine/Requests.lean ====
section
/-! DEFINITION. Machine/Requests.lean: who may write what (R10, R250, R376, R419), requests to leaves and their
completions (R221 to R225), the mirrored port settings (R216) and the group banks (R231). -/

namespace Sys2Proof.Machine

/-! ### Write guards -/

/-- The power domain of a page's block (R419). -/
def pageDomain (p : Nat) : Option Nat :=
  if 0x40 ≤ p ∧ p < 0x50 then some 0 else if 0x50 ≤ p ∧ p < 0x60 then some 1
  else if 0x20 ≤ p ∧ p < 0x28 then some 2 else if p = 0x18 then some 3 else if p = 0x19 then some 4
  else if p = 0x10 ∨ p = 0x11 then some 6 else if p = 0x12 ∨ p = 0x13 then some 7
  else if 0x88 ≤ p ∧ p < 0x90 then some 9 else if 0x60 ≤ p ∧ p ≤ 0x70 then some 10 else none

def State.pageDown (s : State) (p : Nat) : Bool :=
  match pageDomain p with | some d => (s.rd pgPWR PWR_PD_STAT).testBit d | none => false

/-- READY of a page (R408): from the end of the boot stage that starts its block, ATTIC for pages 0x004 to 0x008 and
0x090 to 0x092, FORWARD for every other, but for a soft reset in progress (R417) or a domain powered down. -/
def State.bootReady (s : State) (early : Bool) : Bool :=
  let st := s.rd pgPWR PWR_BOOT_STAGE
  st == 7 || (early && decide (5 ≤ st ∧ st ≤ 7))

def pageEarly (p : Nat) : Bool := decide (4 ≤ p ∧ p ≤ 8) || decide (0x90 ≤ p ∧ p ≤ 0x92)

def State.pageReady (s : State) (p : Nat) : Bool :=
  s.bootReady (pageEarly p) && !s.on (pgAt p) PG_IN_RESET && !s.pageDown p

/-- A write of a page's block registers: refused while the block is down, not yet started, in reset or locked, or when
the write is carried and this hub is a standby in step; else `f`. -/
def State.blkGuard (s : State) (page : Nat) (carried : Bool) (f : State → State) : State :=
  if s.pageDown page then s.refuse page errPOWERED_DOWN
  else if !s.pageReady page then s.refuse page errIN_RESET
  else if s.on (pgAt page) PG_LOCK then s.refuse page errLOCKED
  else if carried && s.standbyInStep then s.refuse page errLOCKED
  else f s

/-- A write of a table window whose refusals page `page` reports; no page's lock covers a window (R10), and windows are
ready from the end of stage ATTIC (R408). -/
def State.winGuard (s : State) (page : Nat) (carried : Bool) (f : State → State) : State :=
  if !s.bootReady true then s.refuse page errIN_RESET
  else if carried && s.standbyInStep then s.refuse page errLOCKED else f s

/-- A carried write in the admission log: a DELTA with the words written (R249). -/
def State.logDelta (s : State) (off w : Nat) : State := s.log (.delta off 4 w none)

/-- The held words of an entry that a commit applies, as they stood in `old`, ahead of the committing word. -/
def State.logHeld (s old : State) (base : Nat) (offs : List Nat) : State :=
  s.each offs (fun s o => match old.heldWord? (base + o) with | some w => s.logDelta (base + o) w | none => s)

/-! ### Requests (R221 to R225) -/

/-- Does the ring reach a node for requests? -/
def State.reachable (s : State) (n : Nat) : Bool := s.admitted 0 n || s.admitted 1 n

/-- Lowest tag not outstanding. -/
def State.freeTag (s : State) : Option Nat :=
  if s.ring.tags.length ≥ 1024 then none
  else (List.range 1024).find? (fun t => !s.ring.tags.any (fun e => e.1 == t))

/-- Can a WR_REQ be sent: with RA_CTL 1 a usable key is needed (R365)? -/
def State.mayWrite (s : State) : Bool := !s.on pgSBOX SBOX_RA_CTL || s.raSlot.isSome

/-- Status codes of R223. -/
def stOK : Nat := 0
def stSIZE : Nat := 1
def stUNMAPPED : Nat := 2
def stEPOCH_STALE : Nat := 3
def stTARGET_RESET : Nat := 4
def stTIMEOUT : Nat := 5
def stNO_ROUTE : Nat := 6
def stERROR : Nat := 8

/-- A remote access slot completes (R397). -/
def State.raDone (s : State) (k st : Nat) (data : List Byte) : State :=
  let b := raAt k
  let at_ := (tabGet? s.host.raAt k).getD s.time.clk
  let s := (s.wr b RA_STATE 2).wr b RA_STATUS st
  let s := s.wr b RA_LAT_NS (min ((s.time.clk - at_) / nsU) (2 ^ 32 - 1))
  let s := s.each (List.range (data.length / 4)) (fun s i => s.wr b (RA_DATA.at i 4) (leAt data (4 * i) 4))
  let s := { s with host := { s.host with raAt := tabDel s.host.raAt k } }
  s.when (s.on b RA_IRQ) (·.raise 1 3)

/-- Ports mapped to a leaf. -/
def State.portsOf (s : State) (leaf : Nat) : List Nat :=
  (s.listed 0x280000 0x10 2048).filter (fun p => s.leafOf p == some leaf)

/-- CFG_FAIL of a port. -/
def State.cfgFail (s : State) (p : Nat) : State :=
  ((s.wr (portmapAt p) PORTMAP_CFG_FAIL 1).wr (portmapAt p) PORTMAP_CFG_OK 0).raise 0x14 11

def State.setSwitch (s : State) (g : Nat) (f : BankSwitch → BankSwitch) : State :=
  match tabGet? s.ring.switching g with
  | some b => { s with ring := { s.ring with switching := tabPut s.ring.switching g (f b) } }
  | none => s

def State.setInfo (s : State) (n : Nat) (f : LeafInfo → LeafInfo) : State :=
  { s with ring := { s.ring with info := tabPut s.ring.info n (f ((tabGet? s.ring.info n).getD ⟨0, 0, 0⟩)) } }

/-- A request completes to its originator (R223, R224). What an installed group then does is MBANK_SWITCH's. -/
def State.reqDone (s : State) (r : Req) (st : Nat) (data : List Byte) : State :=
  match r.origin with
  | .ra k => s.raDone k st data
  | .pcfg p =>
    if st = stERROR then s.cfgFail p
    else if st = stOK && !s.on (portmapAt p) PORTMAP_CFG_FAIL then s.wr (portmapAt p) PORTMAP_CFG_OK 1 else s
  | .member g i =>
    let s := s.setSwitch g (fun b => { b with waits := b.waits - 1
                                              missed := if st = stOK then b.missed else b.missed ++ [i] })
    if st = stOK then s
    else { s with ring := { s.ring with grpSlots := s.ring.grpSlots.filter (fun x =>
        !(x.group == g && x.mem == i && x.bank != s.rd (mgroupAt g) MGROUP_MBANK)) } }.inc pgRING RING_C_MBANK_MISS
  | .info w =>
    if st = stOK then
      let v := leVal data
      s.setInfo r.node (fun l => match w with | 0 => { l with cap := v % 65536 } | 1 => { l with pcfg := v } | _ => { l with grp := v })
    else s
  | .route => if st = stERROR then s.each (s.portsOf r.node) State.cfgFail else s
  | .ready =>
    if st = stOK then s.wr (nodeAt r.node) NODE_READY 1
    else if st = stERROR then s.each (s.portsOf r.node) State.cfgFail else s
  | .orphan => s.inc pgHOST HOST_C_RA_ORPHAN_CPL
  | .quiet => s

/-- TAGS_USED. -/
def State.mirrorTags (s : State) : State := s.wr pgRING RING_TAGS_USED s.ring.tags.length

/-- The payload of a request (R221): it carries this hub's token. -/
def State.reqPayload (s : State) (tag gen : Nat) (r : Req) : List Byte :=
  beBytes 2 (tag + 1024 * gen) ++ leBytes 1 r.size ++ leBytes 1 0 ++ beBytes 4 (s.rd pgRING RING_EPOCH) ++ beBytes 8 r.addr
    ++ (if r.write then fixLen r.size r.data else [])

/-- Allocate a tag and send a request on the ring and direction of fewest hops; a WR_REQ is tagged with RA_CTL 1. -/
def State.sendReq (s : State) (tag : Nat) (r : Req) : State :=
  let gen := (tabGet? s.ring.tgen tag).getD 0
  let s := { s with ring := { s.ring with tags := s.ring.tags ++ [(tag, s.time.clk, r)]
                                          tgen := tabPut s.ring.tgen tag ((gen + 1) % 4) } }
  let s := (s.inc pgRING RING_C_REQ_ISSUED).mirrorTags
  let s := match r.origin with | .ra k => (s.wr (raAt k) RA_TAG tag).inc pgHOST HOST_C_RA_ISSUED | _ => s
  let k := mkPkt s.nodeId (if r.write then 0x11 else 0x10) 0 r.node 0 (s.reqPayload tag gen r)
  let ks := if r.write && s.on pgSBOX SBOX_RA_CTL then s.raTag k else (k, s)
  match s.nearest r.node with
  | some (ring, _, _) => ks.2.sendUni ring ks.1
  | none => ks.2

/-- Issue a request: NO_ROUTE for a target that is not admitted, ERROR for a write without a usable key, else at once or
when a tag is free (R222, R365, R397). -/
def State.issue (s : State) (r : Req) : State :=
  if !s.reachable r.node then s.reqDone r stNO_ROUTE []
  else if r.write && !s.mayWrite then (s.inc pgSBOX SBOX_C_RA_NOKEY).reqDone r stERROR []
  else match (if s.ring.waiting.isEmpty then s.freeTag else none) with
  | some t => s.sendReq t r
  | none => { s with ring := { s.ring with waiting := s.ring.waiting ++ [r] } }

/-- Waiting requests take free tags, oldest first; `n` bounds them. -/
def State.issueWaiting (s : State) : Nat → State
  | 0 => s
  | n + 1 =>
    match s.ring.waiting, s.freeTag with
    | r :: l, some t => ({ s with ring := { s.ring with waiting := l } }.sendReq t r).issueWaiting n
    | _, _ => s

/-- An outstanding tag completes. -/
def State.tagDone (s : State) (tag st : Nat) (data : List Byte) : State :=
  match tabGet? s.ring.tags tag with
  | none => s
  | some (_, r) =>
    let s := { s with ring := { s.ring with tags := tabDel s.ring.tags tag } }.mirrorTags
    let s := s.reqDone r st data
    s.issueWaiting s.ring.waiting.length

/-- Every request to a node completes with a status (R224, R236, R237). -/
def State.dropNode (s : State) (n st : Nat) : State :=
  let gone := s.ring.waiting.filter (fun r => r.node == n)
  let s := { s with ring := { s.ring with waiting := s.ring.waiting.filter (fun r => r.node != n) } }
  let tags := (s.ring.tags.filter (fun e => e.2.2.node == n)).map (·.1)
  let s := s.each gone (fun s r => s.reqDone r st [])
  let s := s.when (st == stTARGET_RESET) (·.add pgRING RING_C_TARGET_RESET_CPL tags.length)
  s.each tags (fun s t => s.tagDone t st [])

/-- A 4-byte write of a leaf register. -/
def State.leafWrite (s : State) (n addr w : Nat) (o : Origin) : State := s.issue ⟨n, true, 4, addr, leBytes 4 w, o⟩
def State.leafRead (s : State) (n addr : Nat) (o : Origin) : State := s.issue ⟨n, false, 4, addr, [], o⟩

/-! ### Mirrored port settings (R216) -/

/-- Write a remote port's settings to its leaf, if this hub is active and the leaf has told where they go. -/
def State.mirrorPort (s : State) (p : Nat) : State :=
  match s.leafOf p with
  | none => s
  | some n =>
    match tabGet? s.ring.info n with
    | none => s
    | some i =>
      if !s.active || !s.reachable n then s
      else
        let a := i.pcfg + 0x80 * s.rd (portmapAt p) PORTMAP_LPORT
        let s := (s.wr (portmapAt p) PORTMAP_CFG_OK 0).wr (portmapAt p) PORTMAP_CFG_FAIL 0
        let s := s.each (List.range 5) (fun s k => s.leafWrite n (a + 4 * k) (s.word (ingestAt p) rows_INGEST (4 * k)) (.pcfg p))
        s.each (List.range 12) (fun s k =>
          s.leafWrite n (a + 0x20 + 4 * k) (s.word (lportAt p) rows_LPORT (4 * k)) (.pcfg p))

/-! ### Group banks (R231) -/

/-- A free member entry of a leaf. -/
def State.freeSlot (s : State) (n : Nat) : Option Nat :=
  match tabGet? s.ring.info n with
  | none => none
  | some i =>
    let used := (s.ring.grpSlots.filter (fun x => x.leaf == n)).map (·.idx)
    (List.range (min i.cap (used.length + 1))).find? (fun k => !used.contains k)

/-- The two words of a member entry, as one 8-byte write. -/
def State.writeEntry (s : State) (x : GrpSlot) (valid : Bool) (lp : Nat) (o : Origin) : State :=
  match tabGet? s.ring.info x.leaf with
  | none => s
  | some i =>
    let w := if valid then leBytes 4 (x.group + 4096 * x.bank + 2 ^ 31) ++ leBytes 4 (x.mem + 65536 * lp) else leBytes 8 0
    s.issue ⟨x.leaf, true, 8, i.grp + 8 * x.idx, w, o⟩

/-- Install one member into the idle bank of its leaf. -/
def State.installMember (s : State) (g bank i p : Nat) : State :=
  let miss (s : State) : State :=
    (s.setSwitch g (fun b => { b with missed := b.missed ++ [i] })).inc pgRING RING_C_MBANK_MISS
  match s.leafOf p with
  | none => miss s
  | some n =>
    match s.freeSlot n with
    | none => miss s
    | some k =>
      if !s.reachable n then miss s
      else
        let x : GrpSlot := ⟨n, k, g, bank, i⟩
        let s := { s with ring := { s.ring with grpSlots := s.ring.grpSlots ++ [x] } }
        (s.setSwitch g (fun b => { b with waits := b.waits + 1 })).writeEntry x true
          (s.rd (portmapAt p) PORTMAP_LPORT) (.member g i)

/-- Start a switch of a group to its live members: SWITCHING, and the writes of the idle bank. On a hub that is not
active the bank follows the table. -/
def State.startSwitch (s : State) (g : Nat) (ports : List Nat) : State :=
  if !s.active then { s with ring := { s.ring with banks := tabPut s.ring.banks g ports } }
  else
    match tabGet? s.ring.switching g with
    | some b => { s with ring := { s.ring with switching := tabPut s.ring.switching g { b with again := true } } }
    | none =>
      let s := s.wr (mgroupAt g) MGROUP_SWITCHING 1
      let s := { s with ring := { s.ring with switching := tabPut s.ring.switching g ⟨ports, 0, [], false⟩ } }
      let bank := 1 - s.rd (mgroupAt g) MGROUP_MBANK
      s.each ports.zipIdx (fun s e => s.installMember g bank e.2 e.1)

/-- A leaf's member entries are written again (R236): those of the banks in use, then those being installed. -/
def State.rewriteEntries (s : State) (n : Nat) : State :=
  let inUse (x : GrpSlot) : Bool := s.rd (mgroupAt x.group) MGROUP_MBANK == x.bank
  let mine := s.ring.grpSlots.filter (fun x => x.leaf == n)
  let lp (x : GrpSlot) : Nat :=
    let ports := if inUse x then (tabGet? s.ring.banks x.group).getD []
      else match tabGet? s.ring.switching x.group with | some b => b.ports | none => []
    s.rd (portmapAt (ports.getD x.mem 0)) PORTMAP_LPORT
  let s := s.each (mine.filter inUse) (fun s x => s.writeEntry x true (lp x) .quiet)
  s.each (mine.filter (fun x => !inUse x)) (fun s x =>
    (s.setSwitch x.group (fun b => { b with waits := b.waits + 1 })).writeEntry x true (lp x) (.member x.group x.mem))

/-- Bring a leaf into service (R211, R216, R236): read its ring block; port settings, group entries and READY follow. -/
def State.readLeaf (s : State) (n : Nat) : State :=
  if !s.active then s
  else
    let s := s.wr (nodeAt n) NODE_READY 0
    s.each [(0x04, 0), (0x0C, 1), (0x10, 2)] (fun s e => s.leafRead n e.1 (.info e.2))

/-- Port settings, group entries, then READY. -/
def State.configLeaf (s : State) (n : Nat) : State :=
  let s := s.each (s.portsOf n) State.mirrorPort
  (s.rewriteEntries n).leafWrite n 0x38 1 .ready

end Sys2Proof.Machine
end

