-- ==== Sys2Proof/Machine/Concord.lean ====
section
/-! DEFINITION. Machine/Concord.lean: concord rounds (R92 to R106) and the clash table (R107). -/

namespace Sys2Proof.Machine

/-- A group entry (R94), as one copy of it stands. -/
structure GroupRec where
  idx : Nat
  valid : Bool
  method : Nat
  prov : Nat
  statMode : Nat
  minValid : Nat
  outFlow : Nat
  statFlow : Nat
  valRule : Nat
  win : Nat
  missN : Nat
  readmitN : Nat
  talk : Nat
  tol : Nat
  deriving DecidableEq, Repr

def State.groupRec (s : State) (g base : Nat) : GroupRec :=
  { idx := g, valid := s.on base GROUP_VALID, method := s.rd base GROUP_METHOD, prov := s.rd base GROUP_PROV
    statMode := s.rd base GROUP_STAT_MODE, minValid := s.rd base GROUP_MIN_VALID, outFlow := s.rd base GROUP_OUT_FLOW
    statFlow := s.rd base GROUP_STAT_FLOW, valRule := s.rd base GROUP_VAL_RULE, win := s.rd base GROUP_WIN_US
    missN := s.rd base GROUP_MISS_N, readmitN := s.rd base GROUP_READMIT_N, talk := s.rd base GROUP_REWRITE_TALK
    tol := s.rd base GROUP_TOL }

def State.liveGroup (s : State) (g : Nat) : GroupRec := s.groupRec g (groupAt g)

def mWATCH : Nat := 0
def mMEDIAN : Nat := 1
def mPREFERRED : Nat := 2
def mFIRST : Nat := 3
def mAGREE : Nat := 4

/-- The members of a group: position and flow (R92). -/
def State.groupMembers (s : State) (g : Nat) : List (Nat × Nat) :=
  (s.validFlows.filter (fun f => s.on (flowAt f) FL_CONC_EN && s.rd (flowAt f) FL_CONC_GROUP == g)).map
    (fun f => (s.rd (flowAt f) FL_CONC_MEMBER, f))

def State.roundOf (s : State) (g : Nat) : Option Round := tabGet? s.conc.rounds g

def State.liveMask (s : State) (g : Nat) : Nat := s.rd (gstateAt g) GSTATE_LIVE
def State.isLive (s : State) (g m : Nat) : Bool := (s.liveMask g).testBit m

/-- Bit mask of positions. -/
def maskOf (l : List Nat) : Nat := l.foldl (fun a m => a ||| 2 ^ m) 0

/-- Write a group's round; the group state record mirrors it (R110). -/
def State.setRound (s : State) (g : Nat) (r : Option Round) : State :=
  let b := gstateAt g
  let s := { s with conc := { s.conc with rounds := match r with | some x => tabPut s.conc.rounds g x | none => tabDel s.conc.rounds g } }
  match r with
  | none => (((s.wr b GSTATE_OPEN 0).wr b GSTATE_DECIDED 0).wr b GSTATE_CONTRIB 0).wr b GSTATE_VALIDM 0
  | some x =>
    let s := (s.wr b GSTATE_OPEN 1).wrB b GSTATE_DECIDED x.outcome.isSome
    let s := (s.wr b GSTATE_CONTRIB (maskOf (x.contribs.map (·.mem)))).wr b GSTATE_VALIDM
      (maskOf ((x.contribs.filter (·.valid)).map (·.mem)))
    let ref := match x.contribs with | c :: _ => c.item.stamp | [] => 0
    let s := (s.wr b GSTATE_REF_S (ref / 1000000000)).wr b GSTATE_REF_NS (ref % 1000000000)
    (s.wr b GSTATE_EXP_S (secOf x.exp)).wr b GSTATE_EXP_NS (nsOf x.exp)

/-! ### Values (R96) -/

/-- A member item as a contribution: its value is read once, under the VAL_RULE entry live now. -/
def State.contribOf (s : State) (gr : GroupRec) (m : Nat) (i : Item) : Contrib :=
  let r := s.ruleRec gr.valRule (ruleAt gr.valRule)
  let v := match readField r i.kind i.body r.field with | .val v _ => some v | _ => none
  let need := gr.method = mMEDIAN ∨ gr.method = mAGREE ∨ gr.method = mWATCH
  ⟨m, i, !i.poison && (v.isSome || !decide need), v⟩

/-- Contributions in member order. -/
def byMember (l : List Contrib) : List Contrib := l.mergeSort (fun a b => decide (a.mem ≤ b.mem))

/-- With WRAP, a value as the first valid one plus the shorter way round to it. -/
def rebase (wrap : Bool) (scale : Nat) (v0 v : Int) : Int :=
  if !wrap then v
  else
    let m : Int := 360 * 10 ^ scale
    let d := (v - v0) % m
    v0 + (if 2 * d ≤ m then d else d - m)

/-- The values of a round's valid contributions, in member order, rebased: contribution and value. -/
def State.roundVals (s : State) (gr : GroupRec) (l : List Contrib) : List (Contrib × Int) :=
  let r := s.ruleRec gr.valRule (ruleAt gr.valRule)
  let ok := (byMember l).filterMap (fun c => match c.valid, c.value with | true, some v => some (c, v) | _, _ => none)
  match ok with
  | [] => []
  | x :: _ => ok.map (fun e => (e.1, rebase r.wrap r.scale x.2 e.2))

/-- The entry in the middle of values sorted by value, equal values by position: index (n − 1) / 2. -/
def midOf (l : List (Contrib × Int)) : Option (Contrib × Int) :=
  (l.mergeSort (fun a b => decide (a.2 < b.2 ∨ (a.2 = b.2 ∧ a.1.mem ≤ b.1.mem))))[(l.length - 1) / 2]?

/-- Spread of values. -/
def spread (l : List (Contrib × Int)) : Nat :=
  match l.map (·.2) with
  | [] => 0
  | v :: r => (r.foldl max v - r.foldl min v).toNat

/-! ### Decisions (R97, R98) -/

def ocEMITTED : Nat := 0
def ocNO_QUORUM : Nat := 1
def ocDISAGREE : Nat := 2
def ocWATCH_OK : Nat := 3
def ocABORTED : Nat := 4
def ocLOST : Nat := 5

/-- The method's choice: an outcome and the contribution selected. -/
def State.choose (s : State) (gr : GroupRec) (r : Round) : Nat × Option Contrib :=
  let vals := s.roundVals gr r.contribs
  let lv := vals.filter (fun e => s.isLive gr.idx e.1.mem)
  let l := (byMember r.contribs).filter (fun c => c.valid && s.isLive gr.idx c.mem)
  let pick (c : Option Contrib) : Nat × Option Contrib :=
    match c with | some c => (ocEMITTED, some c) | none => (ocNO_QUORUM, none)
  if gr.method = mMEDIAN then
    if lv.length < gr.minValid then (ocNO_QUORUM, none)
    else match lv with
      | [a, b] => if (a.2 - b.2).natAbs ≤ gr.tol then pick (some a.1) else (ocDISAGREE, none)
      | _ => pick ((midOf lv).map (·.1))
  else if gr.method = mPREFERRED then pick l.head?
  else if gr.method = mFIRST then pick (r.contribs.find? (fun c => c.valid && s.isLive gr.idx c.mem))
  else if gr.method = mAGREE then
    if lv.length < gr.minValid then (ocNO_QUORUM, none)
    else if spread lv ≤ gr.tol then pick ((lv.head?).map (·.1)) else (ocDISAGREE, none)
  else (if 2 ≤ vals.length ∧ gr.tol < spread vals then ocDISAGREE else ocWATCH_OK, none)

/-- Is an undecided round due for its decision (R97), expiry and force apart? -/
def State.decidable (s : State) (gr : GroupRec) (r : Round) : Bool :=
  let spoke (m : Nat) : Bool := r.contribs.any (fun c => c.mem == m)
  let live := ((s.groupMembers gr.idx).map (·.1)).filter (s.isLive gr.idx)
  let good := (r.contribs.filter (fun c => c.valid && s.isLive gr.idx c.mem)).map (·.mem)
  if gr.method = mPREFERRED then good.any (fun m => live.all (fun k => decide (m ≤ k) || spoke k))
  else if gr.method = mFIRST then !good.isEmpty
  else live.all spoke

/-- Has every member, live or out, contributed? -/
def State.allSpoke (s : State) (g : Nat) (r : Round) : Bool :=
  (s.groupMembers g).all (fun m => r.contribs.any (fun c => c.mem == m.1))

/-! ### The consensus item (R101, R103) -/

/-- The checksum of a sentence without TAG blocks, computed again where it carries one. -/
def reChk (sent : List Byte) : List Byte :=
  match cutB cStar (sent.drop 1) with
  | (data, some rest) => sent.take 1 ++ data ++ cStar :: hexByte (xorBytes data) ++ rest.drop 2
  | (_, none) => sent

/-- REWRITE_TALK: the two talker characters of a standard address field are replaced. -/
def rewriteTalk (talk : Nat) (body : List Byte) : List Byte :=
  let sent := stripTags body
  if talk = 0 ∨ (sentField sent 0).head? = some (chr 'P') then body
  else body.take (tagChars body) ++ reChk (sent.take 1 ++ leBytes 2 talk ++ sent.drop 3)

/-- The value of the provenance parameter. -/
def provText (gr : GroupRec) (sel vmask live : Nat) : List Byte :=
  chr 'Q' :: hexN3 gr.idx ++ [(ascii "WMPFA").getD gr.method 0#8, hexDigit sel, hexDigit (vmask % 16), hexDigit (live % 16)]
where
  hexN3 (n : Nat) : List Byte := [hexDigit (n / 256 % 16), hexDigit (n / 16 % 16), hexDigit (n % 16)]

/-- The consensus item of a decision, and whether provenance was left out for want of room. -/
def State.consensusItem (s : State) (gr : GroupRec) (r : Round) (c : Contrib) : Item × Bool :=
  let i := c.item
  let body := rewriteTalk gr.talk i.body
  let vmask := maskOf ((r.contribs.filter (·.valid)).map (·.mem))
  let withTag := mapFirstTag (fun x => putParam x 's' (provText gr c.mem vmask (s.liveMask gr.idx))) body
  let want := gr.prov = 1 ∨ gr.prov = 3
  let fits := withTag.2 ≤ 80 ∧ withTag.1.length ≤ 2040
  let body' := if want ∧ fits then withTag.1 else body
  let kind := if want ∧ fits then 2 else i.kind
  let b := flowAt gr.outFlow
  ({ i with kind := kind, prio := s.rd b FL_PRIO, replayed := false, consensus := true, late := false
            flow := gr.outFlow, seq := 0, key := s.keyOf gr.outFlow kind body', deadline := s.rd b FL_DEADLINE
            axis := 0, body := body' }, decide (want ∧ ¬ fits))

/-- The result of a decision and the state after it: DECIDE is logged, counted, and a selection is emitted to OUT_FLOW
or LOST (R101, R102). -/
def State.decideRound (s : State) (gr : GroupRec) (r : Round) : Round × State :=
  let oc := s.choose gr r
  let g := gr.idx
  let mk := match oc.2 with | some c => some (c, s.consensusItem gr r c) | none => none
  let lost : Bool := match mk with
    | some (_, i, _) => !s.flowValid gr.outFlow || decide (s.cellFit i.prio (itemCells i) ≠ .ok)
    | none => false
  let out := if lost then ocLOST else oc.1
  let vmask := maskOf ((r.contribs.filter (·.valid)).map (·.mem))
  let s := s.log (.decide out g ((oc.2.map (·.mem)).getD 0xFF) vmask (s.liveMask g))
  let s := if out = ocNO_QUORUM then s.inc (groupCtrAt g) (ctr 2)
    else if out = ocDISAGREE then s.inc (groupCtrAt g) (ctr 3)
    else if out = ocEMITTED then s.inc (groupCtrAt g) (ctr 1) else s
  match mk with
  | none => ({ r with outcome := some out, sel := none, outSeq := 0 }, s)
  | some (c, i, trunc) =>
    if lost then
      let s := s.inc pgCONC CONC_C_OUT_LOST
      let s := if s.flowValid gr.outFlow then s.cellRefuse (s.cellFit i.prio (itemCells i)) else s
      ({ r with outcome := some out, sel := some c.mem, outSeq := 0 }, s)
    else
      let s := s.when trunc (·.inc pgCONC CONC_C_PROV_TRUNC)
      let x := s.admitNew i .copy s.time.clk none
      ({ r with outcome := some out, sel := some c.mem, outSeq := (x.1.map (·.seq)).getD 0 }, x.2)

/-! ### Closing (R99, R104) -/

def missRun (runs m : Nat) : Nat := runs / 2 ^ (8 * m) % 16
def backRun (runs m : Nat) : Nat := runs / 2 ^ (8 * m + 4) % 16
def setRuns (runs m miss back : Nat) : Nat :=
  runs - runs / 2 ^ (8 * m) % 256 * 2 ^ (8 * m) + (miss % 16 + 16 * (back % 16)) * 2 ^ (8 * m)

/-- REF of R99. -/
def refValue (vals : List (Contrib × Int)) : Option Int :=
  match vals with
  | [] => none
  | [a] => some a.2
  | [a, _] => some a.2
  | l => (midOf l).map (·.2)

/-- An outlier: a valid contribution further than TOL from REF, under the methods that test it. -/
def outlier (gr : GroupRec) (vals : List (Contrib × Int)) (m : Nat) : Bool :=
  (gr.method == mMEDIAN || gr.method == mWATCH) &&
    match refValue vals, vals.find? (fun e => e.1.mem == m) with
    | some r, some e => decide (gr.tol < (e.2 - r).natAbs)
    | _, _ => false

/-- A member goes OUT or LIVE. -/
def State.memberTurn (s : State) (g m : Nat) (live : Bool) : State :=
  let b := gstateAt g
  let w := s.liveMask g
  let s := s.wr b GSTATE_LIVE (if live then w ||| 2 ^ m else w &&& (15 - 2 ^ m))
  let s := s.inc (groupCtrAt g) (ctr (if live then 7 else 6))
  let s := (s.wr pgCONC CONC_EVT_LAST g).wr pgCONC CONC_EVT_MEMBER m
  s.raise 0x92 (if live then 1 else 0)

/-- The health of one member at a close. -/
def State.memberHealth (s : State) (gr : GroupRec) (r : Round) (vals : List (Contrib × Int)) (m : Nat) : State :=
  let g := gr.idx
  let good := r.contribs.any (fun c => c.mem == m && c.valid) && !outlier gr vals m
  let runs := s.rd (gstateAt g) GSTATE_RUNS
  let set (s : State) (a b : Nat) : State := s.wr (gstateAt g) GSTATE_RUNS (setRuns runs m a b)
  if s.isLive g m then
    if good then set s 0 (backRun runs m)
    else
      let n := missRun runs m + 1
      if gr.missN ≤ n then (set s 0 0).memberTurn g m false else set s n (backRun runs m)
  else if good then
    let n := backRun runs m + 1
    if gr.readmitN ≤ n then (set s 0 0).memberTurn g m true else set s (missRun runs m) n
  else set s (missRun runs m) 0

/-- The body of a status item (R104). -/
def State.statBody (s : State) (gr : GroupRec) (mem : List (Nat × Nat)) (r : Round) (out before : Nat) : List Byte :=
  let vals := s.roundVals gr r.contribs
  let vmask := maskOf ((r.contribs.filter (·.valid)).map (·.mem))
  let rule := s.ruleRec gr.valRule (ruleAt gr.valRule)
  let sel := match r.sel with | some m => m | none => 0xFF
  let one (m : Nat) : List Byte :=
    let c := r.contribs.find? (fun c => c.mem == m)
    let flow := match mem.find? (fun x => x.1 == m) with | some x => x.2 | none => 0xFFFF
    let fl := c.isSome.toNat + 2 * (match c with | some c => c.valid.toNat | none => 0) + 4 * (before / 2 ^ m % 2)
      + 8 * (s.liveMask gr.idx / 2 ^ m % 2) + 16 * (outlier gr vals m).toNat
    let v := match vals.find? (fun e => e.1.mem == m) with
      | some e => if rule.format = 3 then 0 else ofSigned 64 e.2
      | none => 0
    leBytes 2 flow ++ leBytes 1 fl ++ leBytes 1 0 ++ leBytes 4 (match c with | some c => c.item.seq | none => 0) ++ leBytes 8 v
  leBytes 2 0x0C01 ++ leBytes 2 gr.idx ++ leBytes 1 gr.method ++ leBytes 1 out ++ leBytes 1 sel
    ++ leBytes 1 (vmask % 16 + 16 * (s.liveMask gr.idx % 16))
    ++ leBytes 4 (if out = ocLOST ∨ sel = 0xFF then 0 else r.outSeq) ++ leBytes 4 0 ++ (List.range 4).flatMap one

/-- Admit the status item of a close, if the group asks for one (R104). -/
def State.statItem (s : State) (gr : GroupRec) (mem : List (Nat × Nat)) (r : Round) (out before : Nat) : State :=
  let ask := 2 ≤ gr.prov || gr.statMode == 1
    || (gr.statMode == 2 && (!(out == ocEMITTED || out == ocWATCH_OK) || before != s.liveMask gr.idx))
  if !ask then s
  else if !s.flowValid gr.statFlow then s.inc pgCONC CONC_C_STAT_LOST
  else
    let b := flowAt gr.statFlow
    let body := s.statBody gr mem r out before
    let i : Item := { kind := 8, prio := s.rd b FL_PRIO, replayed := false, consensus := false, late := false, poison := false
                      flow := gr.statFlow, port := 58, seq := 0, stamp := s.time.h / 65536, key := s.keyOf gr.statFlow 8 body
                      deadline := s.rd b FL_DEADLINE, dom := s.rd pgTIME TIME_SEL_DOM, axis := 0, body := body }
    let x := s.admitNew i .copy s.time.clk none
    if x.1.isSome then x.2 else x.2.inc pgCONC CONC_C_STAT_LOST

/-- A round ends (R97, R99, R106): cause 0 all spoke, 1 expiry, 2 forced, 3 aborted. -/
def State.closeRound (s : State) (gr : GroupRec) (mem : List (Nat × Nat)) (r : Round) (cause : Nat) : State :=
  let g := gr.idx
  let before := s.liveMask g
  let out := if cause = 3 then ocABORTED else r.outcome.getD ocNO_QUORUM
  let vals := s.roundVals gr r.contribs
  let s := if cause = 3 then s else s.each ((mem.map (·.1))) (fun s m => s.memberHealth gr r vals m)
  let s := s.log (.close cause g (s.liveMask g))
  let s := (s.setRound g none).wr (gstateAt g) GSTATE_OUTCOME out
  let s := (s.wr (gstateAt g) GSTATE_ROUND (s.rd (gstateAt g) GSTATE_ROUND + 1)).inc (groupCtrAt g) (ctr 0)
  let s := s.when (cause == 3) (·.inc pgCONC CONC_C_ABORTED)
  let s := s.when (out == ocNO_QUORUM || out == ocDISAGREE) (·.raise 0x92 2)
  if s.follows then s else s.statItem gr mem r out before

/-! ### Offering (R95) -/

/-- Decide an open round if that is still to be done, then close it. -/
def State.endRound (s : State) (gr : GroupRec) (r : Round) (cause : Nat) : State :=
  let d := if r.outcome.isNone then s.decideRound gr r else (r, s)
  d.2.closeRound gr (s.groupMembers gr.idx) d.1 cause

/-- Decide and close as far as the contributions reach. -/
def State.settleRound (s : State) (gr : GroupRec) (r : Round) : State :=
  let d := if r.outcome.isNone && s.decidable gr r then s.decideRound gr r else (r, s)
  let s := d.2.setRound gr.idx (some d.1)
  if s.allSpoke gr.idx d.1 then s.endRound gr d.1 0 else s

def State.openRound (s : State) (gr : GroupRec) (c : Contrib) (exp : Nat) : State :=
  let r : Round := ⟨[c], exp, none, none, 0, none⟩
  let s := s.setRound gr.idx (some r)
  if s.follows then s else s.settleRound gr r

/-- Offer a member item to its group. -/
def State.offerConcord (s : State) (i : Item) : State :=
  let b := flowAt i.flow
  if !s.on b FL_CONC_EN then s
  else
    let g := s.rd b FL_CONC_GROUP
    let gr := s.liveGroup g
    let m := s.rd b FL_CONC_MEMBER
    if !gr.valid then s
    else
      let c := s.contribOf gr m i
      let exp := s.time.h + gr.win * usU
      match s.roundOf g with
      | none => s.openRound gr c exp
      | some r =>
        let ref := match r.contribs with | x :: _ => x.item.stamp | [] => i.stamp
        let w := gr.win * 1000
        if i.stamp + w < ref then s.inc (groupCtrAt g) (ctr 5)
        else if ref + w < i.stamp ∨ r.contribs.any (fun x => x.mem == m) then
          if s.follows then s.setRound g (some { r with nxt := some (c, exp) })
          else
            let s := s.when r.outcome.isNone (·.inc (groupCtrAt g) (ctr 4))
            (s.endRound gr r 2).openRound gr c exp
        else
          let r := { r with contribs := r.contribs ++ [c] }
          if s.follows then s.setRound g (some r) else s.settleRound gr r

/-- ROUND_EXPIRY (R95, R97): the round's window has run out. -/
def State.expireRound (s : State) (g : Nat) : State :=
  match s.roundOf g with
  | some r => if !s.follows && decide (r.exp ≤ s.time.h) then s.endRound (s.liveGroup g) r 1 else s
  | none => s

def execRoundExpiry (t : Nat) (group : Nat) (s : State) : Host.Outcome State Fault Refusal :=
  s.happen t (·.expireRound (group % 512))

/-- A round ended by a commit (R106), under the group entry and members that were live before it. -/
def State.abortRound (s : State) (old : GroupRec) (mem : List (Nat × Nat)) : State :=
  match s.roundOf old.idx with
  | some r => if s.follows then s else s.closeRound old mem r 3
  | none => s

/-! ### CONC_CTRL (R100, R111) -/

/-- Force a member OUT or LIVE, both runs set to 0. -/
def State.forceMember (s : State) (g m : Nat) (live : Bool) : State :=
  let w := s.liveMask g
  let s := s.wr (gstateAt g) GSTATE_LIVE (if live then w ||| 2 ^ m else w &&& (15 - 2 ^ m))
  let s := s.wr (gstateAt g) GSTATE_RUNS (setRuns (s.rd (gstateAt g) GSTATE_RUNS) m 0 0)
  s.log (.ctrl (if live then 5 else 4) (g + 4096 * m) 0 0)

/-- A write of CONC_CTRL; `w` is the word written. -/
def State.concCtrl (s : State) (g m : Nat) (live both : Bool) : State :=
  if both || !(s.liveGroup g).valid || !(s.groupMembers g).any (fun x => x.1 == m) then s.refuse 0x92 errILLEGAL
  else s.forceMember g m live

def execForceOut (t : Nat) (group member : Nat) (both : Bool) (s : State) : Host.Outcome State Fault Refusal :=
  s.happen t (·.blkGuard 0x92 true (·.concCtrl (group % 512) (member % 4) false both))

def execForceIn (t : Nat) (group member : Nat) (both : Bool) (s : State) : Host.Outcome State Fault Refusal :=
  s.happen t (·.blkGuard 0x92 true (·.concCtrl (group % 512) (member % 4) true both))

/-! ### The clash table (R107) -/

/-- The data text of a sentence: after the first ',' up to '*', CR or LF. -/
def dataText (sent : List Byte) : List Byte :=
  match cutB cComma (sentData sent) with
  | (_, some d) => d
  | (_, none) => []

/-- Check an item admitted to its looked-up flow against the clash table, and store it there. -/
def State.clashCheck (s : State) (i : Item) : State :=
  let b := flowAt i.flow
  let win := s.rd pgCONC CONC_CLASH_WIN_MS
  if win = 0 || s.rd b FL_KTYPE != 1 || s.on b FL_W_PORT || s.on b FL_CONC_EN then s
  else
    let tf := talkFmt i.kind i.body
    let k := (crc32 (leBytes 8 tf.1 ++ leBytes 8 tf.2)).toNat % 4096
    let e : ClashEnt := ⟨tf.1, tf.2, i.port, i.flow, i.stamp, (crc32 (dataText (stripTags i.body))).toNat⟩
    let s' := { s with conc := { s.conc with clash := tabPut s.conc.clash k e } }
    match tabGet? s.conc.clash k with
    | some o =>
      let near := (max o.stamp i.stamp - min o.stamp i.stamp) ≤ win * 1000000
      if o.talk = e.talk ∧ o.fmt = e.fmt ∧ o.port ≠ e.port ∧ near ∧ o.crc ≠ e.crc then
        (((s'.inc pgCONC CONC_C_XPORT_CLASH).wr pgCONC CONC_CLASH_A o.flow).wr pgCONC CONC_CLASH_B e.flow).raise 0x92 3
      else s'
    | none => s'

end Sys2Proof.Machine
end

