-- ==== Sys2Proof/Machine/Release.lean ====
section
/-! DEFINITION. Machine/Release.lean: the shaper's grant (R127), the bellows' choice (R123, R124, R131), what becomes of
the reference (R134, R135, R140) and the hand-over to a local FIFO, a ring packet (R146, R147, R220) or a host ring
(R392). -/

namespace Sys2Proof.Machine

/-! ### Transmit FIFOs (R322, R329) -/

def txDepth (p : Nat) : Nat :=
  if p < 40 then 512 else if p < 42 then 4096 else if p < 58 then 1024 else 0

/-- Words of a body in a port's transmit FIFO: 64-bit words, in the tongs 32-bit words. -/
def txWords (p n : Nat) : Nat := if 42 ≤ p then tongWords n else wordsOf n

/-- Words in a local transmit FIFO. Of a packet on a line every word stays until the item ends; a tongs engine takes words
one by one, and `txp` counts those it has taken of the first packet. -/
def txLevel (l : LisPort) : Nat := (l.tx.map (·.words)).sum - l.txp

/-- Set a listener's delivery side; the FIFO window mirrors a local transmit FIFO. -/
def State.setTx (s : State) (p : Nat) (l : LisPort) : State :=
  let s := s.setLis p l
  if p < 58 then
    let s := (s.wr (fifoAt p) FIFO_TX_LEVEL (txLevel l)).wrB (fifoAt p) FIFO_TX_EMPTY l.tx.isEmpty
    s.wrB (fifoAt p) FIFO_TX_FULL (decide (txDepth p ≤ txLevel l))
  else s

/-! ### The shaper (R127) -/

/-- The bucket now, in bytes × units of a second. -/
def State.bucket (s : State) (p : Nat) : Nat :=
  let l := s.lisOf p
  min (s.rd (lportAt p) LPORT_BURST * secU) (l.tok + s.rd (lportAt p) LPORT_RATE * (s.time.clk - l.tokAt))

/-- Does the shaper grant a release of `w` bytes at the listener's pace? A release longer than BURST is granted on a
full bucket. -/
def State.paceGrants (s : State) (p w : Nat) : Bool :=
  let l := s.lisOf p
  if s.wirePaced p then !l.onWire && decide (l.nextOk ≤ s.time.clk)
  else if s.rd (lportAt p) LPORT_RATE = 0 then true
  else decide (l.nextOk ≤ s.time.clk) && decide (min w (s.rd (lportAt p) LPORT_BURST) * secU ≤ s.bucket p)

/-- Is the listener itself able to take a release: its link, its leaf, its bus drivers (R284, R236, R259, R268)? -/
def State.lisReady (s : State) (p : Nat) : Bool :=
  if s.portDown p then false
  else if p < 32 then !s.on pgTWIN TWIN_HOLD_BUS
  else if p < 40 then !s.on pgTWIN TWIN_HOLD_BUS && s.rd (pgCAN (p - 32)) CAN_ESTATE != 2
  else if p < 42 then s.on (pgETH (p - 40)) ETH_LINK && s.pnLeft (p - 40)
  else if p < 58 then !s.on pgTWIN TWIN_HOLD_BUS
  else match s.leafOf p with
    | some f => s.on (nodeAt f) NODE_READY && !s.on (nodeAt f) NODE_LOST
    | none => p == 59

/-- Room in a local transmit FIFO; a tongs FIFO below TX_LIMIT (R307). -/
def State.txRoom (s : State) (p words : Nat) : Bool :=
  let l := s.lisOf p
  if p < 58 then decide (txLevel l + words ≤ txDepth p)
    && (decide (p < 42) || decide (txLevel l < s.rd (pgTONG (p - 42)) TONG_TX_LIMIT))
  else true

/-- The release's effect on the shaper. -/
def State.paceTake (s : State) (p w : Nat) : State :=
  let l := s.lisOf p
  let gap := s.rd (lportAt p) LPORT_GAP_US * usU
  let fin := s.time.clk + s.paceTime p w
  if s.wirePaced p then s.setLis p { l with onWire := true, gap := gap, nextOk := fin + gap }
  else if s.rd (lportAt p) LPORT_RATE = 0 then s
  else
    let left := s.bucket p - w * secU
    (s.setLis p { l with tok := left, tokAt := s.time.clk, nextOk := if gap = 0 then s.time.clk else fin + gap }).wr (lportAt p) LPORT_TOKENS (left / secU)

/-! ### Choice (R123, R124, R131) -/

/-- OUT_NS to a leaf in 1/65 536 ns: the smaller of the rings it is admitted on. -/
def State.outDelay (s : State) (leaf : Nat) : Nat :=
  let a := s.rd (nodeAt leaf) NODE_OUT_NS_A * 256
  let b := s.rd (nodeAt leaf) NODE_OUT_NS_B * 256
  match s.on (nodeAt leaf) NODE_ADM_A, s.on (nodeAt leaf) NODE_ADM_B with
  | true, true => min a b
  | true, false => a
  | false, _ => b

/-- The lead of an ALIGNED release. -/
def State.lead (s : State) (p : Nat) : Nat :=
  let d := s.rd (lportAt p) LPORT_TX_DELAY_NS * 65536
  match s.leafOf p with
  | some leaf => d + s.rd (pgANV 0) ANV_LEAF_FWD_NS * 65536 + s.outDelay leaf
  | none => d

/-- An ALIGNED reference's release time has come. -/
def State.alignedDue (s : State) (p : Nat) (r : Ref) : Bool := r.mode == 1 && decide (r.inst ≤ s.time.h + s.lead p)

/-- The item a reference stands for: an admitted item, or a status sentence. -/
def State.refItem (s : State) (r : Ref) : Option Item :=
  match r.stat with | some (i, _) => some i | none => (s.item? r.handle).map (·.item)

/-- The item is in the larder and its admission record is covered (R26, R123). -/
def State.refHeld (s : State) (r : Ref) : Bool :=
  r.stat.isSome ||
    match s.item? r.handle with
    | some i => (i.loc == .larder || i.loc == .spilling)
        && (!s.inStep || decide (i.lpos ≤ s.twin.acked))
    | none => false

/-- A NEWEST hold or an ALIGNED hold applies. -/
def State.refWaits (s : State) (p : Nat) (r : Ref) : Bool :=
  (r.mode == 1 && !s.alignedDue p r)
    || (r.mode == 2 && match s.holdOf p r.ckey with | some e => decide (s.time.h < e) | none => false)

/-- The eligible references of a queue in order (R123). -/
def State.eligibleIn (s : State) (p : Nat) (l : List Ref) : List Ref :=
  (l.zipIdx.filter (fun e =>
    s.refHeld e.1 && !s.refWaits p e.1 &&
      (e.1.stat.isSome || !((l.take e.2).any (fun x => x.stat.isNone && x.flow == e.1.flow))))).map (·.1)

/-- The guard of R131: would this reference, of class `c`, still be on the wire at the instant of an ALIGNED reference
of the same or a higher class that waits for it? -/
def State.guarded (s : State) (p c : Nat) (r : Ref) : Bool :=
  match s.refItem r with
  | none => false
  | some i =>
    let fin := s.time.h + s.rd (lportAt p) LPORT_TX_DELAY_NS * 65536 + s.paceTime p (s.wireLen p i (s.egressBody p i))
    (List.range (c + 1)).any (fun k => (s.queueOf (8 * p + k)).any (fun a =>
      a.mode == 1 && a.stat.isNone && a.no != r.no && decide (s.time.h < a.inst) && decide (a.inst < fin)))

/-- The next reference of a port (R124), with its queue. -/
def State.pickRef (s : State) (p : Nat) : Option (Nat × Ref) :=
  let cls (f : Nat → Ref → Bool) : Option (Nat × Ref) :=
    (List.range 8).findSome? (fun c =>
      ((s.eligibleIn p (s.queueOf (8 * p + c))).find? (f c)).map (fun r => (8 * p + c, r)))
  (cls (fun _ r => r.stat.isNone && s.alignedDue p r)).or (cls (fun c r => !s.guarded p c r))

/-! ### Lateness (R131, R135) -/

/-- A CAN controller's nominal bit time (R267), in 1/65 536 ns. -/
def State.canBit (s : State) (n : Nat) : Nat :=
  let b := pgCAN n
  s.rd b CAN_NBRP * (1 + s.rd b CAN_NTSEG1 + s.rd b CAN_NTSEG2) * 655360 / 6

/-- The bound of R131 for a listener's first bit; none is stated for the tongs. -/
def State.lateBound (s : State) (p : Nat) : Nat :=
  let c := s.portCfg p
  if p < 32 then cfgBit3 c / 3
  else if p < 40 then s.canBit (p - 32)
  else if p < 42 ∨ p = 59 then 2 * usU
  else if p < 64 then 0
  else match c.type with
    | 1 => cfgFrameBits c * cfgBit3 c / 3
    | 2 => Config.remoteCanBit p
    | 3 => 2 * usU
    | _ => 0

/-- The disposition of a release now. -/
def State.sentCode (s : State) (q : Nat) (r : Ref) (i : Item) : Nat :=
  let pct := s.rd pgBELL (BELL_LATE_PCT.at (q % 8) 4)
  let byDead := i.deadline ≠ 0 ∧ pct ≠ 0 ∧ (i.stamp * 100 + i.deadline * 10000 * pct) * 65536 ≤ s.time.h * 100
  let byAlign := r.mode = 1 ∧ r.inst + s.lateBound (q / 8) < s.time.h + s.lead (q / 8)
  if r.stat.isNone ∧ (byDead ∨ byAlign) then codeLATE else codeSENT

/-! ### Ring packets (R146, R147, R220) -/

/-- Members of a multicast group's live list, by position. -/
def State.members (s : State) (g : Nat) : List Nat :=
  if s.on (mgroupAt g) MGROUP_VALID then
    (List.range (s.rd (mgroupAt g) MGROUP_CNT)).map (fun i => s.rd (mlistAt (s.rd (mgroupAt g) MGROUP_BASE + i)) ⟨0, 0, 11, 0⟩)
  else []

/-- The bitmap position at which a listener is served by multicast, if it is: in the bank in use and in the live list,
and below position 1856 when ITEM_OUTs are tagged (R364). -/
def State.mcastPos (s : State) (g p : Nat) : Option Nat :=
  let bank := (tabGet? s.ring.banks g).getD []
  match bank.findIdx? (· == p) with
  | some i => if (s.members g).contains p && (!s.on pgSBOX SBOX_RA_ITEM || i < 1856) then some i else none
  | none => none

/-- The start of an ITEM_OUT payload up to SNAME. -/
def State.outHead (s : State) (dest nbm : Nat) (i : Item) : List Byte :=
  let sent := i.kind = 1 ∨ i.kind = 2
  let c := if sent then s.utcOf i.stamp else none
  let name := if sent then s.srcName i.port else []
  beBytes 2 dest ++ leBytes 1 nbm ++ leBytes 1 (c.isSome.toNat + 16 * name.length) ++ beBytes 4 (c.getD 0) ++ name

/-- The bitmap of R146: word by word, most significant byte first. -/
def bitmap (words : Nat) (pos : List Nat) : List Byte :=
  (List.range words).flatMap (fun w => beBytes 8 ((pos.filter (fun i => i / 64 = w)).map (fun i => 2 ^ (i % 64))).sum)

/-- Tag an ITEM_OUT with RA_ITEM 1 (R364). -/
def State.tagItemOut (s : State) (k : RingPkt) : RingPkt × State := if s.on pgSBOX SBOX_RA_ITEM then s.raTag k else (k, s)

/-- Send a multicast packet: on each ring, out of each port whose egress direction serves a leaf it names. -/
def State.sendMcast (s : State) (leaves : List Nat) (k : RingPkt) : State :=
  s.each [0, 1] (fun s r => s.each [0, 1] (fun s d =>
    let hops := leaves.filterMap (fun f =>
      if s.admitted r f then match s.egressTo r f with | some e => if e.1 = d then some e.2 else none | none => none
      else none)
    match hops.max? with
    | some h => s.sendPort (ringPort r d) true { k with hops := h }
    | none => s))

/-- Hand the gathered listeners of an item to the ring: those served by multicast in one packet, the others by unicast.
`ports` are the listeners released, `g` the flow's group if MG_V is 1. -/
def State.ringOut (s : State) (i : Item) (ports : List Nat) (g : Option Nat) : State :=
  let posOf (p : Nat) : Option Nat := match g with | some g => s.mcastPos g p | none => none
  let mc := ports.filter (fun p => (posOf p).isSome)
  let uc := ports.filter (fun p => (posOf p).isNone)
  let tail := itemHeader i ++ i.body
  let s := match g with
    | some g =>
      if mc.isEmpty then s
      else
        let n := (((tabGet? s.ring.banks g).getD []).length + 63) / 64
        let n := if s.on pgSBOX SBOX_RA_ITEM then min n 29 else n
        let pl := s.outHead g n i ++ bitmap n (mc.filterMap posOf) ++ tail
        let k := mkPkt s.nodeId 0x02 2 0 (s.rd (mgroupAt g) MGROUP_MBANK) pl
        let ks := s.tagItemOut k
        (ks.2.inc pgBELL BELL_C_MCAST_PKTS).sendMcast (mc.filterMap s.leafOf).eraseDups ks.1
    | none => s
  s.each uc (fun s p =>
    match s.leafOf p with
    | none => s
    | some leaf =>
      let s := if g.isSome then (s.inc pgBELL BELL_C_MCAST_MISS).raise 0xA1 5 else s
      let ks := s.tagItemOut (mkPkt s.nodeId 0x02 0 leaf 0 (s.outHead (32768 + p) 0 i ++ tail))
      (ks.2.inc pgBELL BELL_C_UCAST_PKTS).sendBoth ks.1)

/-! ### Hand-over to a local port -/

/-- With SA_REPL 1 the source address of a 29-bit identifier, or of a KIND 5 record, is that of virtual node TX_VN; none
when it holds no address (R271). -/
def State.canBody (s : State) (n : Nat) (i : Item) : Option (List Byte) :=
  let b := pgCAN n
  let ext := i.kind = 5 ∨ (leAt i.body 0 4).testBit 29
  if s.on b CAN_SA_REPL && decide ext then
    let sa := s.rd b (CAN_CUR_SA.at (s.rd b CAN_TX_VN) 16)
    if sa = 0xFE then none
    else some (if i.kind = 5 then i.body.take 4 ++ leBytes 1 sa ++ i.body.drop 5 else leBytes 1 sa ++ i.body.drop 1)
  else some i.body

/-- A packet into a local transmit FIFO. -/
def State.txPush (s : State) (p handle kind : Nat) (body : List Byte) : State :=
  let l := s.lisOf p
  s.setTx p { l with tx := l.tx ++ [⟨handle, kind, body, txWords p body.length⟩] }

/-- A UART starts to transmit: TX_BUSY, and the driver enable that DE_MODE 1 gives (R403). DE stays deasserted on a hub
that is not active or holds its bus drivers. -/
def State.deAllowed (s : State) : Bool := s.active && !s.on pgTWIN TWIN_HOLD_BUS
def State.uartDrive (s : State) (p : Nat) : State :=
  let s := s.wr (pgUART p) UART_TX_BUSY 1
  s.when (s.rd (pgUART p) UART_DE_MODE == 1 && s.deAllowed) (·.wr (pgUART p) UART_DE 1)

/-- Does the listener's egress want a key it cannot use (R140)? -/
def State.keyMissing (s : State) (p : Nat) : Bool :=
  if p = 40 ∨ p = 41 then s.on (pgETH (p - 40)) ETH_MACSEC_EN && (s.txAssoc (p - 40)).isNone
  else decide (64 ≤ p) && s.on pgSBOX SBOX_RA_ITEM && s.raSlot.isNone

/-! ### One release -/

/-- What a grant finds: nothing eligible or no grant; a reference refused at its turn; a reference to release. -/
inductive Turn where
  | none
  | stalled
  | refuse (q : Nat) (r : Ref) (code : Nat) (vn : Bool)
  | send (q : Nat) (r : Ref) (i : Item) (e : EgBody)
  deriving DecidableEq, Repr

/-- Is the item of a reference to be released with REPLAYED set (R255)? -/
def State.refReplays (s : State) (r : Ref) : Bool :=
  match s.item? r.handle with | some l => r.stat.isNone && l.replay | none => false

/-- The item as released: LATE (R30, R135) and REPLAYED (R255). -/
def State.released (s : State) (r : Ref) (i : Item) (code : Nat) : Item :=
  { i with late := code == codeLATE
           replayed := s.refReplays r }

/-- The turn of port `p` now. -/
def State.turn (s : State) (p : Nat) : Turn :=
  match s.pickRef p with
  | none => .none
  | some (q, r) =>
    match s.refItem r with
    | none => .none
    | some i =>
      let e := s.egressBody p i
      let w := s.wireLen p i e
      if !s.lisReady p || !s.paceGrants p w || !s.txRoom p (txWords p (if p < 42 ∧ 40 ≤ p then w + 60 else w)) then .none
      else if r.stat.isNone && itemExpired i s.time.h then .refuse q r codeDEAD false
      else if s.keyMissing p then .refuse q r codeKEY false
      else if decide (32 ≤ p ∧ p < 40) && (s.canBody (p - 32) i).isNone then .refuse q r codeFULL true
      else if p = 59 then
        match s.hostRoom i.flow i.prio with
        | .stall => .stalled
        | _ => .send q r i e
      else .send q r i e

/-- Delivery to a local port or to the host (R287, R271, R392). -/
def State.handLocal (s : State) (p : Nat) (r : Ref) (i : Item) (e : EgBody) : State :=
  if p < 58 ∧ s.on (pgAt (portPage p)) PG_IN_RESET then s.inc pgPWR PWR_C_RST_POSTED_DROP
  else if p < 32 then (s.txPush p r.handle i.kind e.body).uartDrive p
  else if p < 40 then s.txPush p r.handle i.kind ((s.canBody (p - 32) i).getD i.body)
  else if p < 42 then
    let f := s.itemFrame (p - 40) i e.body
    f.2.txPush p r.handle i.kind f.1
  else if p < 58 then s.txPush p r.handle i.kind i.body
  else if p = 59 then
    match s.hostRoom i.flow i.prio with
    | .free d => (s.inc pgHOST HOST_C_RX_WRITTEN).rxComplete d (itemHeader i ++ i.body) 1 0 0
    | .drop => s.inc pgHOST HOST_C_RX_RING_DROP
    | .stall => s
  else s

/-- The bookkeeping of a release but for the pace: n counter, TAG_SKIP, the NEWEST hold, a submission's transmit stamp,
and the reference's resolution (R132, R135, R145, R148). -/
def State.settleSent (s : State) (q : Nat) (r : Ref) (i : Item) (e : EgBody) (code w : Nat) : State :=
  let p := q / 8
  let s := if e.n then let l := s.lisOf p; s.setLis p { l with nCount := l.nCount + 1 } else s
  let s := s.when e.skip (·.inc pgBELL BELL_C_TAG_SKIP)
  let s := s.when i.poison (·.inc pgLARD LARD_C_POISONED)
  let ms := s.rd (lportAt p) LPORT_NEWEST_MS
  let s := if r.mode = 2 ∧ r.tracked ∧ ms ≠ 0 then
      { s with del := { s.del with holds :=
          (s.del.holds.filter (fun h => !(h.1 == p && h.2.1 == r.ckey))) ++ [(p, r.ckey, s.time.h + ms * msU)] } }
    else s
  let s := match s.item? r.handle with
    | some l => match l.wb with
      | some b => if r.stat.isNone ∧ b.wirePort = some p then s.putItem r.handle { l with wb := some { b with wireDue := true } } else s
      | none => s
    | none => s
  s.resolve q r code w true

/-- The bookkeeping of a release; a reference released with REPLAYED set counts REEMITTED (R264). -/
def State.settleRelease (s : State) (q : Nat) (r : Ref) (i : Item) (e : EgBody) (code w : Nat) : State :=
  ((s.when (s.refReplays r) (·.inc pgTWIN TWIN_C_REEMITTED)).paceTake (q / 8) w).settleSent q r i e code w

/-- Items whose references came within FETCH_AHEAD places of a queue's head, or whose ALIGNED instant is near, are
fetched back from the cellar (R121): a fetch needs free cells. -/
def State.fetchBack (s : State) (h : Nat) : State :=
  match s.item? h with
  | some i =>
    if i.loc == .spilled && decide (itemCells i.item ≤ s.cellsFree) then
      (s.putItem h { i with loc := .fetching }).takeCells (itemCells i.item)
    else s
  | none => s

def State.fetchNear (s : State) (q : Nat) : State :=
  s.each ((s.queueOf q).take (s.rd pgLARD LARD_FETCH_AHEAD)) (fun s r => if s.refSpilled r then s.fetchBack r.handle else s)

/-- Resolve the references that are refused at their turn, until one can be sent or none is left; `n` bounds them. -/
def State.turnN (s : State) (p : Nat) : Nat → Turn × State
  | 0 => (.none, s)
  | n + 1 =>
    match s.turn p with
    | .refuse q r code vn =>
      let s := s.when vn (·.inc (pgCAN (p - 32)) CAN_C_VN_UNCLAIMED)
      ((s.resolve q r code 0 true).fetchNear q).turnN p n
    | .stalled =>
      let l := s.lisOf p
      (.none, if l.stall then s else ((s.setLis p { l with stall := true }).inc pgHOST HOST_C_RX_STALL).raise 1 2)
    | x => (x, s)

/-- Does this hub release at all: running, active, and not draining for a handover (R144, R263)? -/
def State.mayRelease (s : State) : Bool := s.forward && s.active && !s.twin.stopped && !s.on (pgAt 0xA1) PG_IN_RESET

/-- Flow's group, with MG_V 1. -/
def State.groupOf (s : State) (f : Nat) : Option Nat :=
  if s.on (subAt f) SUB_VALID && s.on (subAt f) SUB_MG_V then some (s.rd (subAt f) SUB_MGROUP) else none

/-- The listeners of `more` whose own turn now is the same item: gathered into the packet of the first (R147). Each is
released with its own disposition; those that differ in LATE leave in a packet of their own. -/
def State.gather (s : State) (h : Nat) : List Nat → List (Nat × Nat × Ref × Item × EgBody)
  | [] => []
  | p :: l =>
    match s.turn p with
    | .send q r i e => if 64 ≤ p ∧ r.stat.isNone ∧ r.handle = h then (p, q, r, i, e) :: s.gather h l else s.gather h l
    | _ => s.gather h l

/-- RELEASE (R124): the shaper of port `p` grants a release; `more` lists further remote ports whose shapers grant
within the same microsecond. -/
def State.releasePort (s : State) (p : Nat) (more : List Nat) : State :=
  if !s.mayRelease then s
  else
    let ts := s.turnN p ((s.portRefs p).length + 1)
    match ts.1 with
    | .send q r i e =>
      let s := ts.2
      let code := s.sentCode q r i
      let w := s.wireLen p i e
      let rel := s.released r i code
      if p < 64 then
        let s := s.handLocal p r rel e
        let s := let l := s.lisOf p; s.when l.stall (fun s => s.setLis p { l with stall := false })
        (s.settleRelease q r i e code w).fetchNear q
      else if r.stat.isSome then
        ((s.ringOut rel [p] none).settleRelease q r i e code w).fetchNear q
      else
        let all := (p, q, r, i, e) :: s.gather r.handle (more.filter (· != p)).eraseDups
        let codes := all.map (fun x => (x, s.sentCode x.2.1 x.2.2.1 x.2.2.2.1))
        let grp := s.groupOf r.flow
        let on := (codes.filter (fun x => x.2 = codeSENT)).map (fun x => x.1.1)
        let late := (codes.filter (fun x => x.2 = codeLATE)).map (fun x => x.1.1)
        let s := s.when (!on.isEmpty) (·.ringOut (s.released r i codeSENT) on grp)
        let s := s.when (!late.isEmpty) (·.ringOut (s.released r i codeLATE) late grp)
        s.each codes (fun s x =>
          (s.settleRelease x.1.2.1 x.1.2.2.1 x.1.2.2.2.1 x.1.2.2.2.2 x.2 (s.wireLen x.1.1 x.1.2.2.2.1 x.1.2.2.2.2)).fetchNear x.1.2.1)
    | _ => ts.2

end Sys2Proof.Machine
end

