-- ==== Sys2Proof/Machine/Admit.lean ====
section
/-! DEFINITION. Machine/Admit.lean: dispatch to the anvils (R40, R64), what an anvil finds (R48 to R54, R60, R70), and
admission at a candidate's place (R22, R84, R87). -/

namespace Sys2Proof.Machine

/-! ### The anvils -/

/-- IN_DISPATCH of an anvil follows the boot, ENABLE, GOLD_FAILED and its block's state (R63, R64); HEALTH ANVIL is set while more
than 8 are out of dispatch (R253). -/
def State.mirrorAnvils (s : State) : State :=
  let s := s.each (List.range 16) (fun s a =>
    let b := pgANV a
    s.wrB b ANV_IN_DISPATCH (s.forward && s.on b PG_ENABLE && !s.on b ANV_GOLD_FAILED && !s.on b PG_IN_RESET && !s.pageDown (0x80 + a)))
  let out := ((List.range 16).filter (fun a => !s.on (pgANV a) ANV_IN_DISPATCH)).length
  s.setHealth 5 (decide (8 < out))

/-- Is a candidate held by an anvil? -/
def State.anvilHolds (s : State) (id : Nat) : Bool := s.anvils.any (fun e => e.2.cand.id == id)

/-- The anvil that holds a candidate gives it up; BUSY_CLOCKS counts the core clocks it was busy. -/
def State.freeAnvil (s : State) (id : Nat) : State :=
  match s.anvils.find? (fun e => e.2.cand.id == id) with
  | some (a, b) =>
    let s := s.add (pgANV a) ANV_C_BUSY_CLOCKS (coreClocks (s.time.clk - b.since))
    ({ s with anvils := tabDel s.anvils a }).wr (pgANV a) ANV_BUSY 0
  | none => s

/-- A candidate is finished with: its anvil is free and its words leave the receive FIFO (R325). -/
def State.dropCand (s : State) (c : Cand) : State :=
  let s := s.freeAnvil c.id
  let r := s.rxOf c.port
  s.setRx c.port { r with cands := r.cands.filter (fun x => !(x.id == c.id)), fp := r.fp + c.words, rp := max r.rp (r.fp + c.words) }

/-- The REFUSE record of a candidate (R249). The spec gives no cause code for a failed check outside the per-port
counters or for want of cells: there the code is a free value. -/
def State.logRefuse (s : State) (c : Cand) (cause : Option Nat) : State :=
  let x := match cause with | some n => (n, s) | none => (s.fresh.1 % 256, s.fresh.2)
  x.2.log (.refuse x.1 c.leaf c.iseq)

/-- A candidate is refused (R52). -/
def State.refuseCand (s : State) (c : Cand) (cause : Option Nat) : State := (s.dropCand c).logRefuse c cause

/-! ### Checks and lookup -/

/-- Count a failed check: an ingest counter of the port, REC_ERR (R270), BLOCK_ERR (R183) or NO_S (R286). -/
def State.countFail (s : State) (p n : Nat) : State :=
  if n = 0x100 then s.inc (frameCtrAt p) (ctr 0)
  else if n = 0x101 then s.inc pgAXIS AXIS_C_BLOCK_ERR
  else if n = 0x102 then s.inc (frameCtrAt p) (ctr 3)
  else s.icInc p n

/-- A candidate can pass to its port's DIAG_FLOW (R52). -/
def State.mayPass (s : State) (c : Cand) : Bool :=
  c.cfg.passBad && s.flowValid c.cfg.diagFlow && decide (c.body.length ≤ 2040)

/-- NO_FLOW (R70). -/
def State.noteNoFlow (s : State) (p : Nat) : State :=
  ((s.inc pgFLOW FLOW_C_NO_FLOW).wr pgFLOW FLOW_NOMATCH_LAST p).raise 0x90 2

/-- A lookup for a built candidate: the flow found, or DIAG_FLOW, or a refusal. -/
def State.lookCand (s : State) (b : Built) : Built × State :=
  let c := b.cand
  let x := s.findFlow b.kind c.port c.body
  match x.1 with
  | some f => ({ b with flow := some f, passed := none, refuse := none, gen := s.tblGen }, x.2)
  | none =>
    let s := x.2.noteNoFlow c.port
    if c.src ≠ .host ∧ s.mayPass c then
      ({ b with flow := some c.cfg.diagFlow, passed := some 0x80, refuse := none, gen := s.tblGen }, s.icInc c.port icPASSED)
    else ({ b with flow := none, passed := none, refuse := some (some 0x80), gen := s.tblGen }, s)

/-- What anvil `a` finds in a candidate: the checks, the stamp and the lookup. -/
def State.examine (s : State) (a : Nat) (c : Cand) : Built × State :=
  let k := s.checkCand c
  let p := c.port
  let s := s.when k.noChk (·.icInc p icNO_CHK)
  let b : Built := ⟨c, kindOf c, 0, c.dom, !c.timeOk, none, none, none, s.tblGen, s.time.clk⟩
  let stamped (b : Built) (s : State) : Built × State :=
    let s := ((s.icInc p icITEMS).inc (pgANV a) ANV_C_ITEMS_BUILT).when (!c.timeOk) (·.icInc p icSTAMP_SUBST)
    ({ b with stamp := s.stampOf c }, s)
  match k.fail with
  | none =>
    let x := stamped b (s.icAdd p icTAG_UNKNOWN k.unknown)
    x.2.lookCand x.1
  | some n =>
    let s := s.countFail p n
    if s.mayPass c then
      stamped { b with kind := if c.body.head? = some bsl then 2 else 1, flow := some c.cfg.diagFlow, passed := some n }
        (s.icInc p icPASSED)
    else ({ b with refuse := some (if n < 32 then some n else none) }, s.inc (pgANV a) ANV_C_CAND_REFUSED)

/-- The oldest committed candidate of a port that no anvil holds. -/
def State.nextCand (s : State) (p : Nat) : Option Cand := (s.rxOf p).cands.find? (fun c => !s.anvilHolds c.id)

/-- A standby in step keeps the candidates of its own local ports out of the anvils (R252); port 59 has no anvil. -/
def State.mayDispatch (s : State) (a p : Nat) : Bool :=
  s.forward && s.on (pgANV a) ANV_IN_DISPATCH && (tabGet? s.anvils a).isNone && p != 59 && !(s.standbyInStep && decide (p < 58))

/-- DISPATCH: anvil `a` takes the next candidate of port `p`. -/
def State.dispatch (s : State) (a p : Nat) : State :=
  match s.nextCand p with
  | some c =>
    if s.mayDispatch a p then
      let r := s.rxOf p
      let s := s.setRx p { r with rp := r.rp + c.words }
      let s := (s.wr (pgANV a) ANV_BUSY 1).wr (pgANV a) ANV_CUR_PORT p
      let x := s.examine a c
      let s := { x.2 with anvils := tabPut x.2.anvils a x.1 }
      match x.1.refuse with
      | some cause => if s.active then s.refuseCand c cause else s
      | none => s
    else s
  | none => s

/-! ### Admission -/

/-- A KIND 7 block admitted out of its schedule's order counts BLOCK_GAP (R183). -/
def State.noteBlock (s : State) (i : Item) : State :=
  if i.kind = 7 then
    let k := i.flow * 65536 + leAt i.body 0 2
    let q := leAt i.body 24 4
    let gap := match tabGet? s.blkSeq k with | some o => decide (q ≠ (o + 1) % 2 ^ 32) | none => false
    { (s.when gap (·.inc pgAXIS AXIS_C_BLOCK_GAP)) with blkSeq := tabPut s.blkSeq k q }
  else s

/-- What follows an admission to a flow: with `own` the flow is the one the lookup found, its state is written, and
concord and the clash table see the item (R84, R92, R107). -/
def State.afterAdmit (s : State) (i : Item) (own : Bool) (atAdm : List (RuleRec × Nat)) : State :=
  let s := s.noteBlock i
  if own then ((s.admitState i.flow i.stamp atAdm).offerConcord i).clashCheck i else s

/-- The admission record of a candidate: an ITEM_IN copy is named, anything else is carried whole (R249). -/
def admRec (b : Built) : AdmRec := if 64 ≤ b.cand.port then .ref b.cand.leaf b.cand.iseq b.subst else .copy

/-- The candidate's fate at its place: a refused or passed one as it stands, a found flow through quarantine and rules. -/
def State.fateOf (s : State) (b : Built) : State × Fate :=
  match b.refuse, b.flow with
  | some c, _ => (s, .refuse (c.getD 0))
  | none, none => (s, .refuse 0x80)
  | none, some f =>
    match b.passed with
    | some n => (s, if s.flowValid f then .accept f false [] else .refuse n)
    | none => s.judge f b.kind b.cand.port b.stamp b.cand.body

/-- Looked up again if a commit has replaced the tables since (R87). A candidate that failed a check is not looked up. -/
def State.relook (s : State) (b : Built) : Built × State :=
  if b.gen = s.tblGen ∨ b.passed.any (· ≠ 0x80) ∨ b.refuse.isSome then (b, s)
  else (s.inc pgFLOW FLOW_C_REEVAL).lookCand b

/-- Admit or refuse a built candidate at its place. Answers the item if it was admitted, else STATUS of R149. -/
def State.placeCand (s : State) (b : Built) (wb : Option WriteBack) : (Option Item × Nat × Nat) × State :=
  let x := s.relook b
  let b := x.1
  let fate := x.2.fateOf b
  match fate.2 with
  | .refuse cause =>
    ((none, if cause = 0x80 then 0x11 else 0x12, b.flow.getD 0),
      fate.1.refuseCand b.cand (match b.refuse with | some c => c | none => some cause))
  | .accept f own adm =>
    let s := fate.1.dropCand b.cand
    let r := s.admitNew (s.itemFor b f) (admRec b) b.cand.born wb
    match r.1 with
    | some i => ((some i, 0, f), r.2.afterAdmit i own adm)
    | none => ((none, 3, f), r.2.logRefuse b.cand none)

/-- The oldest candidate of a port is the only one that may be admitted (R40). -/
def State.isOldest (s : State) (c : Cand) : Bool :=
  match (s.rxOf c.port).cands with | x :: _ => x.id == c.id | [] => false

/-- A host submission at the head of port 59, as built: its header is the host's (R34). -/
def State.hostBuilt (s : State) (c : Cand) : Built × State :=
  s.lookCand ⟨c, kindOf c, s.stampOf c, c.dom, false, none, none, none, s.tblGen, s.time.clk⟩

/-- Admit the host submission at the head of port 59, or write its refusal back (R149). -/
def State.admitHost (s : State) : State :=
  match (s.rxOf 59).cands with
  | [] => s
  | c :: _ =>
    let w := wbNew (c.host.getD 4 0) (c.host.getD 5 0)
    let x := s.hostBuilt c
    let b := x.1
    let y := x.2.placeCand b (some w)
    match y.1.1 with
    | some _ => y.2
    | none => y.2.wbWrite y.1.2.1 (if y.1.2.1 = 0x11 then 0 else y.1.2.2) 0 b.stamp b.dom false w

/-- ADMIT: the candidate that anvil `src` holds, or for `src` 16 the host submission at the head of port 59. Only the
active hub admits on its own account, and nothing while the log cannot take a record (R251). -/
def State.admitNext (s : State) (src : Nat) : State :=
  if !s.forward || !s.active || !s.logReady then s
  else if src = 16 then s.admitHost
  else match tabGet? s.anvils src with
    | some b => if s.isOldest b.cand then (s.placeCand b none).2 else s
    | none => s

def execAdmitItem (t : Nat) (src : Nat) (s : State) : Host.Outcome State Fault Refusal :=
  s.happen t (·.admitNext (src % 17))

/-! ### Golden items (R64) -/

/-- GOLDEN_ITEM: an idle anvil runs its golden item; one that fails leaves dispatch. -/
def State.golden (s : State) (a : Nat) (pass : Bool) : State :=
  let b := pgANV a
  if s.on b ANV_IN_DISPATCH && (tabGet? s.anvils a).isNone && s.rd b ANV_GOLD_PERIOD != 0 then
    let s := s.inc b ANV_C_GOLD_RUN
    if pass then s
    else (((s.inc b ANV_C_GOLD_FAIL).wr b ANV_GOLD_FAILED 1).mirrorAnvils).raise (0x80 + a) 0
  else s

def execGoldenItem (t : Nat) (anvil : Nat) (pass : Bool) (s : State) : Host.Outcome State Fault Refusal :=
  s.happen t (·.golden (anvil % 16) pass)

/-- GOLD_FAILED_CLEAR: writing 1 returns the anvil to dispatch if ENABLE is 1 (R63). -/
def execGoldFailedClear (t : Nat) (anvil : Nat) (s : State) : Host.Outcome State Fault Refusal :=
  s.happen t (·.blkGuard (0x80 + anvil % 16) false (fun s => (s.wr (pgANV (anvil % 16)) ANV_GOLD_FAILED 0).mirrorAnvils))

end Sys2Proof.Machine
end

