-- ==== Sys2Proof/Machine/Time.lean ====
section
/-! DEFINITION. Machine/Time.lean: the time base (R153 to R167): the two domains, steering, setting and stepping H, PPS
inputs and outputs, and TIME_SYNC (R178). -/

namespace Sys2Proof.Machine

/-- Registers of domain `x` (0 A, 1 B), PPS input and PPS output `n`. -/
def domF (f : Fld) (x : Nat) : Fld := f.at x 64
def ppsF (f : Fld) (n : Nat) : Fld := f.at n 32

def State.dom (s : State) (x : Nat) : Dom := if x = 0 then s.time.domA else s.time.domB
def State.setDom (s : State) (x : Nat) (d : Dom) : State :=
  { s with time := if x = 0 then { s.time with domA := d } else { s.time with domB := d } }

/-- OFS_x in 1/65 536 ns and RATE_x in 10^-12 (R154). -/
def State.ofs (s : State) (x : Nat) : Int := s.rdI pgTIME (domF TIME_DOM_OFS x)
def State.setOfs (s : State) (x : Nat) (v : Int) : State := s.wrI pgTIME (domF TIME_DOM_OFS x) v
def State.rate (s : State) (x : Nat) : Int := s.rdI pgTIME (domF TIME_DOM_RATE x)

def State.selDom (s : State) : Nat := s.rd pgTIME TIME_SEL_DOM

/-- T_x, as 1/65 536 ns (R154). -/
def State.domTime (s : State) (x : Nat) : Int := s.time.h + s.ofs x

/-- H moves by a set or a step; every OFS changes by the opposite amount, so no domain moves (R160, R161). -/
def State.moveH (s : State) (d : Int) : State :=
  let s := { s with time := { s.time with h := (s.time.h + d).toNat } }
  s.each [0, 1] (fun s x => s.setOfs x (s.ofs x - d))

/-! ### Domain states (R157) -/

def stateFld (x : Nat) : Fld := if x = 0 then TIME_STATE_A else TIME_STATE_B
def State.domState (s : State) (x : Nat) : Nat := s.rd pgTIME (stateFld x)

/-- A change of state, with its event; the selected domain's LOCKED sets H the first time (R160). -/
def State.setDomState (s : State) (x v : Nat) : State :=
  if s.domState x = v then s
  else
    let s := (s.wr pgTIME (stateFld x) v).raise 6 (3 + x)
    let s := s.when (v == 2) (fun s => s.setDom x { s.dom x with lockAt := s.time.clk, outl := 0 })
    if v = 2 ∧ s.selDom = x ∧ !s.on pgTIME TIME_H_VALID then
      ((s.moveH (s.ofs x)).wr pgTIME TIME_H_VALID 1).raise 6 0
    else s

/-- ACQUIRING, with the sample that sets OFS. -/
def State.acquire (s : State) (x : Nat) (ofs : Int) : State :=
  let s := (s.setOfs x ofs).setDom x { s.dom x with good := 0, outl := 0, setNext := false }
  s.setDomState x 1

/-- A sample that neither sets OFS nor is an outlier: the loop of R158. `r` is the residual in 1/65 536 ns. -/
def State.applySample (s : State) (x at_ : Nat) (r : Int) : State :=
  let tc := 4 ^ s.rd pgTIME (domF TIME_DOM_TC x)
  let d : Nat := match (s.dom x).last with | some l => min (at_ - l) (tc * secU) | none => tc * secU
  let gain := if tc * secU ≤ 2 * d then r else roundI (2 * d * r) (tc * secU)
  let s := s.setOfs x (s.ofs x + gain)
  let rt := s.rate x + roundI (d * r * 1000000000000) (secU * secU * tc * tc)
  s.wrI pgTIME (domF TIME_DOM_RATE x) (max (-200000000) (min 200000000 rt))

/-- OFS_x at an earlier instant of H. -/
def State.ofsAt (s : State) (x at_ : Nat) : Int :=
  s.ofs x - roundI ((s.rate x - s.time.y) * (s.time.h - at_ : Int)) 1000000000000

/-- A sample of domain `x`: at instant `at_` of H its time minus H was `ofs` (R157, R158). -/
def State.sample (s : State) (x at_ : Nat) (ofs : Int) : State :=
  let r := ofs - s.ofsAt x at_
  let lock : Int := s.rd pgTIME (domF TIME_DOM_LOCK_NS x) * 65536
  let alarm : Int := s.rd pgTIME (domF TIME_DOM_ALARM_NS x) * 65536
  let d := s.dom x
  let s := s.setDom x { d with heard := s.time.clk }
  let used (s : State) : State :=
    (s.setDom x { s.dom x with last := some at_ }).inc pgTIME (if x = 0 then TIME_C_SMP_A else TIME_C_SMP_B)
  match s.domState x with
  | 0 => used (s.acquire x ofs)
  | 1 =>
    if d.setNext then used (s.acquire x ofs)
    else
      let n := if r.natAbs ≤ lock then d.good + 1 else 0
      let s := used (s.applySample x at_ r)
      let s := s.setDom x { s.dom x with good := n }
      if 8 ≤ n then s.setDomState x 2 else s
  | 2 =>
    if alarm < r.natAbs then
      let s := s.inc pgTIME (if x = 0 then TIME_C_OUTLIER_A else TIME_C_OUTLIER_B)
      let s := s.setDom x { s.dom x with outl := d.outl + 1, good := 0, setNext := decide (3 ≤ d.outl) }
      if 3 ≤ d.outl then s.setDomState x 1 else s
    else
      let s := used (s.applySample x at_ r)
      s.setDom x { s.dom x with outl := 0 }
  | _ =>
    if alarm < r.natAbs then used (s.acquire x ofs)
    else (used (s.applySample x at_ r)).setDomState x 2

/-- The domain is put in UNLOCKED: DRESET, a write to SRC, or samples missing while it acquires. -/
def State.unlock (s : State) (x : Nat) : State := (s.setDom x { Dom.fresh with heard := s.time.clk, last := (s.dom x).last }).setDomState x 0

/-! ### The millisecond update (R155, R156, R161, R162) -/

/-- A change of selection. -/
def State.select (s : State) (x : Nat) : State :=
  if s.selDom = x then s else ((s.wr pgTIME TIME_SEL_DOM x).inc pgTIME TIME_C_SWITCHES).raise 6 2

/-- The offset of a domain is within SWITCH_MAX_NS, or there is no limit. -/
def State.near (s : State) (x : Nat) : Bool :=
  let m := s.rd pgTIME TIME_SWITCH_MAX_NS
  m == 0 || decide ((s.ofs x).natAbs ≤ m * 65536)

/-- Selection (R156). -/
def State.selectNow (s : State) : State :=
  let m := s.rd pgTIME TIME_SEL_MODE
  if m = 0 ∨ m = 1 then s.select m
  else
    let p := m - 2
    let sel := s.selDom
    let oth := 1 - sel
    if s.domState sel = 2 then
      let s := { s with time := { s.time with far := false } }
      if sel ≠ p ∧ s.on pgTIME TIME_REVERT ∧ s.domState p = 2
          ∧ (s.dom p).lockAt + s.rd pgTIME TIME_REVERT_S * secU ≤ s.time.clk ∧ s.near p then s.select p else s
    else if s.domState oth = 2 then
      if s.near oth then { s with time := { s.time with far := false } }.select oth
      else if s.time.far then s
      else { s with time := { s.time with far := true } }.raise 6 5
    else { s with time := { s.time with far := false } }

/-- Limit an offset to what one millisecond may remove. -/
def clampI (l v : Int) : Int := max (-l) (min l v)

/-- MS_UPDATE: at each millisecond of H. A standby under TWIN time steers by its offset from the active hub's H, and
steps an error above 1 µs. -/
def State.msUpdate (s : State) : State :=
  let y := s.time.y
  let s := s.each [0, 1] (fun s x => s.setOfs x (s.ofs x + roundI ((s.rate x - y) * msU) 1000000000000))
  let twin := s.on pgTIME TIME_H_SRC
  let s := if twin then s else s.selectNow
  let limit : Int := roundDiv (s.rd pgTIME TIME_SLEW_PPB * 65536) 1000
  let sel := s.selDom
  let e : Int := if twin then s.time.twinOfs else if s.domState sel = 0 then 0 else s.ofs sel
  let c := clampI limit e
  let s := { s with time := { s.time with y := s.rate sel + roundI (c * 1000000000000) msU
                                          twinOfs := if twin then e - c else s.time.twinOfs } }
  let s := s.wrB pgTIME TIME_SLEWING (decide (limit < e.natAbs))
  match s.time.step with
  | some d =>
    let s := ({ s with time := { s.time with step := none } }.wr pgTIME TIME_STEP_PEND 0).moveH d
    (s.inc pgTIME TIME_C_STEPS).raise 6 1
  | none => s

def execMsUpdate (t : Nat) (s : State) : Host.Outcome State Fault Refusal :=
  s.happen t (·.msUpdate)

/-! ### Samples, settings and captures -/

/-- SMP_GO (R159): a HOST sample, discarded when stale. -/
def State.smpGo (s : State) (x : Nat) : State :=
  let f (g : Fld) : Nat := s.rd pgTIME (domF g x)
  let at_ := instant (f TIME_DOM_SMP_S) (f TIME_DOM_SMP_NS) 0
  if 1000000000 ≤ f TIME_DOM_SMP_NS then s.refuse 6 errILLEGAL
  else if f TIME_DOM_SRC ≠ 3 then s
  else if at_ + 2 * secU < s.time.h ∨ s.time.h < at_ ∨ (s.dom x).last.any (fun l => decide (at_ ≤ l)) then
    s.inc pgTIME TIME_C_STALE_SMP
  else s.sample x at_ (s.rdI pgTIME (domF TIME_DOM_SMP_OFS x) * 65536 + f TIME_DOM_SMP_FRAC)

def execSmpGo (t : Nat) (domain : Nat) (s : State) : Host.Outcome State Fault Refusal :=
  s.happen t (·.blkGuard 6 false (·.smpGo (domain % 2)))

/-- DOMAIN_MISS_TIMEOUT (R157): MISS_MS without a sample. -/
def execDomainMissTimeout (t : Nat) (domain : Nat) (s : State) : Host.Outcome State Fault Refusal :=
  s.happen t (fun s =>
    let x := domain % 2
    if s.time.clk < (s.dom x).heard + s.rd pgTIME (domF TIME_DOM_MISS_MS x) * msU then s
    else if s.domState x = 1 then s.unlock x
    else if s.domState x = 2 then s.setDomState x 3
    else s)

/-- DRESET (R157). -/
def execDreset (t : Nat) (domain : Nat) (s : State) : Host.Outcome State Fault Refusal :=
  s.happen t (·.blkGuard 6 false (·.unlock (domain % 2)))

/-- SET_GO (R160). -/
def execSetGo (t : Nat) (s : State) : Host.Outcome State Fault Refusal :=
  s.happen t (·.blkGuard 6 false (fun s =>
    if s.on pgTIME TIME_H_VALID then s.refuse 6 errILLEGAL
    else
      let d : Int := (instant (s.rd pgTIME TIME_SET_S) (s.rd pgTIME TIME_SET_NS) 0 : Int) - s.time.h
      ((s.moveH d).wr pgTIME TIME_H_VALID 1).raise 6 0))

/-- STEP_GO (R161): latched for the next millisecond update. -/
def execStepGo (t : Nat) (s : State) : Host.Outcome State Fault Refusal :=
  s.happen t (·.blkGuard 6 false (fun s =>
    let ns := s.rdI pgTIME TIME_STEP_NS
    if !s.on pgTIME TIME_H_VALID || s.on pgTIME TIME_H_SRC || decide (1000000000 ≤ ns.natAbs) || s.on pgTIME TIME_STEP_PEND then
      s.refuse 6 errILLEGAL
    else
      let d := s.rdI pgTIME TIME_STEP_S * secU + ns * nsU
      { s with time := { s.time with step := some d } }.wr pgTIME TIME_STEP_PEND 1))

/-- CAP of the TIME page (R184). -/
def execTimeCap (t : Nat) (s : State) : Host.Outcome State Fault Refusal :=
  s.happen t (·.blkGuard 6 false (fun s =>
    let h := s.time.h
    let s := ((s.wr pgTIME TIME_CAP_S (secOf h)).wr pgTIME TIME_CAP_NS (nsOf h)).wr pgTIME TIME_CAP_FRAC (fracOf h)
    ((s.wr pgTIME TIME_CAP_DOM s.selDom).wrI pgTIME TIME_CAP_OFS_A (s.ofs 0)).wrI pgTIME TIME_CAP_OFS_B (s.ofs 1)))

/-- LEAP (R167): H reaches LEAP_S. -/
def execLeap (t : Nat) (s : State) : Host.Outcome State Fault Refusal :=
  s.happen t (fun s =>
    if s.on pgTIME TIME_LEAP_V && decide (s.rd pgTIME TIME_LEAP_S ≤ secOf s.time.h) then
      ((s.wr pgTIME TIME_UTC_OFS (s.rd pgTIME TIME_LEAP_OFS)).wr pgTIME TIME_LEAP_V 0).raise 6 6
    else s)

/-! ### PPS (R159, R165, R166) -/

/-- An accepted edge as a sample of a domain that uses the input. -/
def State.ppsSample (s : State) (x t0 : Nat) : State :=
  let nv := s.on pgTIME (domF TIME_DOM_NEXT_V x)
  if s.domState x = 0 ∧ !s.on pgTIME TIME_H_VALID ∧ !nv then s
  else
    let near : Int := ((t0 + s.ofs x) + (secU / 2 : Nat)) / (secU : Nat)
    let sec : Int := if nv then s.rd pgTIME (domF TIME_DOM_NEXT_S x) else near
    (s.wr pgTIME (domF TIME_DOM_NEXT_V x) 0).sample x t0 (sec * secU - t0)

/-- PPS_INPUT_EDGE (R165): an edge on an input; `short` when its pulse was shorter than 100 ns. -/
def State.ppsEdge (s : State) (n : Nat) (rising short : Bool) : State :=
  if !s.on pgTIME (ppsF TIME_PPSI_EN n) || short || rising == s.on pgTIME (ppsF TIME_PPSI_FALL n) then s
  else
    let early := match tabGet? s.time.ppsAt n with | some l => decide (s.time.clk < l + secU / 2) | none => false
    if early then s.inc pgTIME TIME_C_PPS_EXTRA
    else
      let t0 := s.time.h - s.rd pgTIME (ppsF TIME_PPSI_CABLE_NS n) * nsU
      let s := { s with time := { s.time with ppsAt := tabPut s.time.ppsAt n s.time.clk
                                              ppsGap := s.time.ppsGap.filter (· != n) } }
      let s := s.inc pgTIME (if n = 0 then TIME_C_PPS_EDGES0 else TIME_C_PPS_EDGES1)
      let s := (s.wr pgTIME (ppsF TIME_PPSI_LAST_S n) (secOf t0)).wr pgTIME (ppsF TIME_PPSI_LAST_NS n) (nsOf t0)
      let s := s.wr pgTIME (ppsF TIME_PPSI_LAST_FRAC n) (fracOf t0)
      s.each [0, 1] (fun s x => if s.rd pgTIME (domF TIME_DOM_SRC x) = n + 1 then s.ppsSample x t0 else s)

def execPpsInputEdge (t : Nat) (input : Nat) (rising short : Bool) (s : State) : Host.Outcome State Fault Refusal :=
  s.happen t (·.ppsEdge (input % 2) rising short)

/-- PPS_MISS (R165): 1.5 s without an accepted edge, once per gap. -/
def execPpsMiss (t : Nat) (input : Nat) (s : State) : Host.Outcome State Fault Refusal :=
  s.happen t (fun s =>
    let n := input % 2
    let last := (tabGet? s.time.ppsAt n).getD s.time.relClk
    if s.on pgTIME (ppsF TIME_PPSI_EN n) && !s.time.ppsGap.contains n && decide (last + 3 * secU / 2 ≤ s.time.clk) then
      ({ s with time := { s.time with ppsGap := n :: s.time.ppsGap } }.inc pgTIME TIME_C_PPS_MISS).raise 6 7
    else s)

/-- GATE of a PPS output holds (R166). -/
def State.ppsGate (s : State) (n : Nat) : Bool :=
  let src := s.rd pgTIME (ppsF TIME_PPSO_SRC n)
  let d := s.domState (if src = 0 then s.selDom else src - 1)
  match s.rd pgTIME (ppsF TIME_PPSO_GATE n) with
  | 0 => s.on pgTIME TIME_H_VALID
  | 1 => d == 2
  | _ => d == 2 || d == 3

/-- PPS_OUTPUT_PULSE (R166): the source, ADV_NS ahead, reaches the whole multiple `target` of PERIOD_NS, given in ns of
the source. An output waits for a whole second after its gate or its settings changed. -/
def State.ppsPulse (s : State) (n target : Nat) : State :=
  let f (g : Fld) : Nat := s.rd pgTIME (ppsF g n)
  if !s.on pgTIME (ppsF TIME_PPSO_EN n) || !s.on pgTIME TIME_H_VALID then s
  else if !s.ppsGate n then { s with time := { s.time with ppsWait := insertNat n s.time.ppsWait } }
  else if target % 1000000000 % f TIME_PPSO_PERIOD_NS ≠ 0 ∨ (s.time.ppsWait.contains n ∧ target % 1000000000 ≠ 0) then s
  else
    let src := f TIME_PPSO_SRC
    let ofs : Int := if src = 0 then 0 else s.ofs (src - 1)
    let edge : Int := target * nsU - ofs - s.rdI pgTIME (ppsF TIME_PPSO_ADV_NS n) * nsU
    { s with time := { s.time with ppsWait := s.time.ppsWait.filter (· != n) } }.emit
      (.ppsPulse n edge.toNat (f TIME_PPSO_WIDTH_NS) (f TIME_PPSO_POL == 0))

def execPpsOutputPulse (t : Nat) (output target : Nat) (s : State) : Host.Outcome State Fault Refusal :=
  s.happen t (·.ppsPulse (output % 2) target)

/-! ### TIME_SYNC (R178) -/

def State.syncPayload (s : State) (seq : Nat) : List Byte :=
  let b (f : Fld) : Nat := s.rd pgTIME f
  let h := s.time.h
  leBytes 1 1 ++ leBytes 1 (b TIME_SEL_DOM + 2 * b TIME_UTC_V + 4 * b TIME_LEAP_V + 8 * b TIME_SLEWING) ++ beBytes 2 seq
    ++ beBytes 8 (secOf h) ++ beBytes 4 (nsOf h) ++ beBytes 2 (fracOf h) ++ beBytes 2 (b TIME_UTC_OFS) ++ beBytes 8 0
    ++ beBytes 4 (if s.on pgTIME TIME_LEAP_V then ofSigned 32 ((b TIME_LEAP_S : Int) - secOf h) else 0)
    ++ beBytes 2 (b TIME_LEAP_OFS) ++ beBytes 2 0

/-- One TIME_SYNC out of a ring port that is UP. -/
def State.sendSync (s : State) (p : Nat) : State :=
  if !s.portUp p then s
  else
    let q := (tabGet? s.time.syncSeq p).getD 0
    let s := { s with time := { s.time with syncSeq := tabPut s.time.syncSeq p ((q + 1) % 65536) } }
    (s.sendPort p true (mkPkt s.nodeId 0x30 3 0 0 (s.syncPayload q))).inc pgTIME TIME_C_SYNC_SENT

/-- TIME_SYNC on each of the four ring ports, by the active hub while H_VALID is 1. -/
def State.sendSyncs (s : State) : State :=
  if s.active && s.on pgTIME TIME_H_VALID then s.each (List.range 4) State.sendSync else s

def execTimeSyncSend (t : Nat) (s : State) : Host.Outcome State Fault Refusal :=
  s.happen t (·.sendSyncs)

end Sys2Proof.Machine
end

