-- ==== Sys2Proof/Machine/Bellows.lean ====
section
/-! DEFINITION. Machine/Bellows.lean: the commands of the delivery chapter: releases and their timers, the listener port
table, queue limits, flushes, spill and fetch. -/

namespace Sys2Proof.Machine

/-! ### Release and its timers -/

def execRelease (t : Nat) (port : Nat) (more : List Nat) (s : State) : Host.Outcome State Fault Refusal :=
  s.happen t (·.releasePort (port % 2048) (more.map (· % 2048)))

/-- The transmit stamp of a submission's item at the listener that gives it (R148); the record is written once nothing
else is awaited. -/
def State.wireStamp (s : State) (handle p stamp : Nat) : State :=
  match s.item? handle with
  | some i =>
    match i.wb with
    | some w =>
      if w.wireDue && w.wirePort == some p then
        (s.putItem handle { i with wb := some { w with
          wireDue := false, wire := some ((stamp - i.item.stamp * 65536) / 65536) } }).settle handle
      else s
    | none => s
  | none => s

/-- A frame that never leaves gives no transmit stamp. -/
def State.wireLost (s : State) (handle p : Nat) : State :=
  match s.item? handle with
  | some i =>
    match i.wb with
    | some w => if w.wireDue && w.wirePort == some p
        then (s.putItem handle { i with wb := some { w with wireDue := false } }).settle handle else s
    | none => s
  | none => s

/-- The packet at the head of a local transmit FIFO has left. -/
def State.txPop (s : State) (p : Nat) : State :=
  let l := s.lisOf p
  s.setTx p { l with tx := l.tx.drop 1, txp := 0 }

/-- A wire-paced item ends: the next release waits GAP_US (R127). -/
def State.lineFree (s : State) (p : Nat) : State :=
  let l := s.lisOf p
  if l.onWire then s.setLis p { l with onWire := false, nextOk := s.time.clk + l.gap } else s

/-- Does a received PAUSE hold the port's transmitter at an instant of H (R284)? -/
def State.ethPaused (s : State) (e at_ : Nat) : Bool :=
  match tabGet? s.eth e with
  | some x => decide (x.pauseFrom ≤ at_ ∧ at_ < x.pauseTo)
  | none => false

/-- An item has finished on a UART's or Ethernet port's line, or on a paced remote line (R127, R148, R290). `stamp` is
the transmit stamp, an instant of H. CAN frames and tongs words end by commands of their own. -/
def State.itemSent (s : State) (p stamp : Nat) : State :=
  if 64 ≤ p then
    let l := s.lisOf p
    if l.onWire && decide (l.nextOk ≤ s.time.clk + l.gap) then s.lineFree p else s
  else if p < 32 ∨ p = 40 ∨ p = 41 then
    match (s.lisOf p).tx with
    | [] => s
    | k :: _ =>
      if p < 32 then
        let s := s.add (pgUART p) UART_C_TX_CHARS k.body.length
        let s := s.when (!s.on (pgUART p) UART_LOOP) (·.emit (.uartTx p k.body))
        let s := (s.txPop p).lineFree p
        let l := s.lisOf p
        let s := s.setLis p { l with endAt := s.time.clk }
        let s := s.when (l.tx.isEmpty && l.brk == 0) (·.wr (pgUART p) UART_TX_BUSY 0)
        s.wireStamp k.handle p stamp
      else if s.ethPaused (p - 40) stamp then s
      else
        let r := s.ethSend (p - 40) k.body
        if r.1 then (r.2.txPop p).wireStamp k.handle p stamp
        else if s.pnLeft (p - 40) then (r.2.txPop p).wireLost k.handle p
        else r.2
  else s

def execItemTransmitted (t : Nat) (port stamp : Nat) (s : State) : Host.Outcome State Fault Refusal :=
  s.happen t (·.itemSent (port % 2048) stamp)

/-- An ALIGNED reference becomes due: what was not due before H now is (R131). The release itself is the shaper's next
grant. -/
def execAlignedReleaseTime (t : Nat) (s : State) : Host.Outcome State Fault Refusal :=
  s.happen t id

/-- ALIGNED references within 100 µs of their release whose items are spilled are fetched back (R121). -/
def State.alignedFetch (s : State) (p : Nat) : State :=
  s.each ((s.portRefs p).filter (fun r =>
      r.mode == 1 && s.refSpilled r && decide (r.inst ≤ s.time.h + s.lead p + 100 * usU)))
    (fun s r => s.fetchBack r.handle)

def execAlignedFetch (t : Nat) (port : Nat) (s : State) : Host.Outcome State Fault Refusal :=
  s.happen t (·.alignedFetch (port % 2048))

/-- A hub that runs its own delivery timers: not a standby in step, which follows the log (R144). -/
def State.ownTimers (s : State) : Bool := !s.follows

/-- A NEWEST hold ends (R132); the TIMER record names its key index entry, whose number is a free value. -/
def State.holdEnd (s : State) (p k : Nat) : State :=
  match s.holdOf p k with
  | some e =>
    if s.ownTimers && decide (e ≤ s.time.h) then
      let s := { s with del := { s.del with holds := s.del.holds.filter (fun h => !(h.1 == p && h.2.1 == k)) } }
      let r := s.fresh
      (r.2.mirrorKeys).log (.timer 0 p r.1)
    else s
  | none => s

def execNewestHoldEnd (t : Nat) (port key : Nat) (s : State) : Host.Outcome State Fault Refusal :=
  s.happen t (·.holdEnd (port % 2048) key)

/-- At an item's expiry every reference still queued is resolved REFUSED_DEADLINE (R134). -/
def State.expire (s : State) (h : Nat) : State :=
  match s.item? h with
  | some i =>
    if s.ownTimers && itemExpired i.item s.time.h then
      s.each (s.refsTo h) (fun s e => (s.resolve e.1 e.2.2 codeDEAD 0 true).fetchNear e.1)
    else s
  | none => s

def execDeadlineExpiry (t : Nat) (handle : Nat) (s : State) : Host.Outcome State Fault Refusal :=
  s.happen t (·.expire handle)

/-- The class bound (R136): a reference of classes 0 to 3 whose internal age reaches 1 ms. The excluded intervals of
R35 are timed outside the model; the age since ingest must have reached 1 ms. -/
def State.bound (s : State) (q h : Nat) : State :=
  match (s.queueOf q).find? (fun r => r.stat.isNone && r.handle == h), s.item? h with
  | some r, some i =>
    if s.ownTimers && decide (q % 8 < 4) && decide (i.born + msU ≤ s.time.clk) then
      let code := if s.rd pgBELL (BELL_POLICY.at (q % 8) 4) < 2 then codeDEAD else codeFULL
      ((((s.inc pgBELL BELL_C_BOUND_REFUSED).resolve q r code 0 true)).fetchNear q).raise 0xA1 2
    else s
  | _, _ => s

def execClassBoundExpiry (t : Nat) (queue handle : Nat) (s : State) : Host.Outcome State Fault Refusal :=
  s.happen t (·.bound (queue % 16384) handle)

/-! ### Status sentences (R142) -/

/-- THRU of an entry: the highest SEQ up to which every queued item of the flow at this listener is resolved. -/
def State.thruOf (s : State) (p : Nat) (e : LedgEnt) : Nat :=
  let open_ := ((s.portRefs p).filter (fun r => r.stat.isNone && r.flow == e.flow && seqGe e.frm r.seq)).map (·.seq)
  open_.foldl (fun a q => if seqDist e.frm q ≤ seqDist e.frm a then (q + 2 ^ 32 - 1) % 2 ^ 32 else a) e.top

/-- Counts of codes 1 to 6 among dispositions. -/
def dispCounts (d : List (Nat × Nat)) : List Nat := (List.range 6).map (fun c => (d.filter (fun x => x.2 == c + 1)).length)

/-- Upper-case hexadecimal digits, `n` of them. -/
def hexN : Nat → Nat → List Byte
  | 0, _ => []
  | n + 1, v => hexN n (v / 16) ++ [hexDigit (v % 16)]

/-- The sentence of a report. -/
def statSentence (mnem : List Byte) (flow : Option Nat) (frm thru : Nat) (counts : List Nat) : List Byte :=
  let flds := match flow with
    | some f => [hexN 4 f, hexN 8 frm, hexN 8 thru]
    | none => [ascii "FFFF", [], []]
  let data := chr 'P' :: mnem ++ joinB cComma (ascii "DSP" :: flds ++ counts.map (fun c => decDigits (min c 99999)))
  chr '$' :: data ++ cStar :: hexByte (xorBytes data) ++ [cCR, cLF]

/-- The reports of a boundary in flow order, the overflow entry last. -/
def State.reports (s : State) (p : Nat) : List StatTok :=
  let g := (s.lisOf p).led
  let ents := (g.ents.filter (fun e => !e.queued)).mergeSort (fun a b => decide (a.flow ≤ b.flow))
  let one (e : LedgEnt) : Option StatTok :=
    let thru := s.thruOf p e
    let d := e.disp.filter (fun x => seqDist e.frm x.1 ≤ seqDist e.frm thru && seqGe e.frm thru)
    if d.isEmpty then none else some ⟨some e.flow, d.map (·.1), thru, dispCounts d⟩
  ents.filterMap one ++ (if !g.ovfQueued && g.ovf.sum != 0 then [⟨none, [], 0, g.ovf⟩] else [])

/-- Queue one report as a status sentence in class STAT_CLASS (R142). -/
def State.queueStat (s : State) (p sec : Nat) (k : StatTok) : State :=
  let cls := s.rd (lportAt p) LPORT_STAT_CLASS
  let frm := match k.flow with
    | some f => match (s.lisOf p).led.ents.find? (fun e => e.flow == f) with | some e => e.frm | none => 0
    | none => 0
  let body := statSentence (leBytes 3 (s.rd pgBELL BELL_STAT_MNEM)) k.flow frm k.thru k.counts
  let i : Item := { kind := 1, prio := cls, replayed := false, consensus := false, late := false, poison := false, flow := 0
                    port := 58, seq := sec % 2 ^ 32, stamp := sec * 1000000000, key := 0, deadline := 0
                    dom := s.rd pgTIME TIME_SEL_DOM, axis := 0, body := body }
  let s := s.setLed p (fun g => match k.flow with
    | some f => { g with ents := g.ents.map (fun e => if e.flow == f then { e with queued := true } else e) }
    | none => { g with ovfQueued := true })
  let r : Ref := ⟨0, 0, i.seq, 0, 0, 0, false, s.del.refNo, some (i, k)⟩
  let s := { s with del := { s.del with refNo := s.del.refNo + 1 } }
  let q := 8 * p + cls
  if s.follows then s.enqAt q r (s.queueOf q).length else s.arrive q r i

/-- A status boundary is taken at a listener. -/
def State.boundary (s : State) (p sec : Nat) : State :=
  let l := s.lisOf p
  let s := s.setLed p (fun g => { g with lastB := some sec })
  let ok := s.on (lportAt p) LPORT_STAT_EN && s.on pgBELL BELL_STAT_MV
    && (s.rd (ingestAt p) INGEST_TYPE == 1 || s.rd (ingestAt p) INGEST_TYPE == 3)
  let s := s.log (.timer 1 p (sec % 2 ^ 32))
  if ok && l.led.lastB != some sec then s.each (s.reports p) (fun s k => s.queueStat p sec k) else s

/-- H reaches a boundary by advancing: a multiple of STAT_PERIOD_S later than the last one taken. -/
def State.statBoundary (s : State) (p : Nat) : State :=
  let per := s.rd (lportAt p) LPORT_STAT_PERIOD_S
  let sec := secOf s.time.h
  let later := match (s.lisOf p).led.lastB with | some b => decide (b < sec) | none => true
  if s.ownTimers && per != 0 && sec % per == 0 && later then s.boundary p sec else s

def execStatusBoundary (t : Nat) (port : Nat) (s : State) : Host.Outcome State Fault Refusal :=
  s.happen t (·.statBoundary (port % 2048))

/-! ### Listener port table, flush, queue limits (R117, R126, R139) -/

def lportExists (p : Nat) : Bool := p != 58 && !decide (60 ≤ p ∧ p < 64)

def lportHeld : List Nat := [0x04, 0x08, 0x0C, 0x10, 0x20, 0x24, 0x28, 0x2C]

/-- The whole entry is legal as it stands (R126). -/
def State.lportLegal (s : State) (p : Nat) : Bool :=
  let b := lportAt p
  let name := s.nameBytes p
  s.entryLegal b rows_LPORT (0x00 :: lportHeld)
    && (!s.on b LPORT_STAT_EN || s.rd b LPORT_STAT_PERIOD_S != 0)
    && (s.rd b LPORT_RATE == 0 || s.wirePaced p
        || decide (64 ≤ s.rd b LPORT_BURST ∧ s.rd b LPORT_TX_MAX ≤ s.rd b LPORT_BURST))
    && name.contains 0#8 && charsOk false false (name.takeWhile (· ≠ 0#8))

/-- QFLUSH, or TX_EN going to 0 (R139): every queued reference is resolved REFUSED_FULL. FLUSHING reads 1 until the
item in release has finished. -/
def State.qflush (s : State) (p : Nat) : State :=
  let s := s.wr (lportAt p) LPORT_FLUSHING 1
  if s.ownTimers then
    s.each (List.range 8) (fun s c => s.each (s.queueOf (8 * p + c)) (fun s r => s.resolve (8 * p + c) r codeFULL 0 true))
  else s

/-- A write of word 0x00 of a listener port entry with the held words: committed whole or discarded whole (R126).
QFLUSH and a change of TX_EN to 0 flush the port; a remote port's settings go to its leaf (R216). -/
def State.lportCommit (s : State) (p w : Nat) : State :=
  let b := lportAt p
  if !lportExists p then s
  else
    let t := (s.applyHeld b rows_LPORT lportHeld).setWord b rows_LPORT 0 w
    if !t.lportLegal p then (s.dropHeld b lportHeld).refuse 0xA1 errILLEGAL
    else
      let off := s.on b LPORT_TX_EN && !t.on b LPORT_TX_EN
      let t := (t.logHeld s b lportHeld).logDelta b w
      let t := t.when (off || w.testBit 7) (·.qflush p)
      t.when (decide (64 ≤ p)) (·.mirrorPort p)

def execListenerPortCommit (t : Nat) (port : Nat) (word : Word) (s : State) : Host.Outcome State Fault Refusal :=
  s.happen t (·.winGuard 0xA1 true (·.lportCommit (port % 2048) word.toNat))

def execQflush (t : Nat) (port : Nat) (s : State) : Host.Outcome State Fault Refusal :=
  let p := port % 2048
  s.happen t (·.winGuard 0xA1 true (fun s => s.when (lportExists p) (fun s =>
    (s.logDelta (lportAt p) (s.word (lportAt p) rows_LPORT 0 ||| 0x80)).qflush p)))

/-- The flush completes once the item in release has finished. -/
def State.flushDone (s : State) (p : Nat) : State := s.wr (lportAt p) LPORT_FLUSHING 0

def execQflushComplete (t : Nat) (port : Nat) (s : State) : Host.Outcome State Fault Refusal :=
  s.happen t (·.flushDone (port % 2048))

/-- A write of QLIM (R117): 0 is refused; backpressure is judged afresh (R143). -/
def State.qlimWrite (s : State) (q v : Nat) : State :=
  if v % 65536 = 0 then s.refuse 0xA1 errILLEGAL
  else
    let s := (s.wr (queueAt q) QUEUE_QLIM v).logDelta (queueAt q) v
    (s.wrB (queueAt q) QUEUE_AT_LIMIT (decide (v % 65536 ≤ (s.queueOf q).length))).judgeBP q

def execQlimWrite (t : Nat) (queue : Nat) (word : Word) (s : State) : Host.Outcome State Fault Refusal :=
  s.happen t (·.winGuard 0xA1 true (·.qlimWrite (queue % 16384) word.toNat))

/-! ### Spill and fetch (R120 to R122, R334, R336) -/

/-- SPILLED of every queue that refers to an item. -/
def State.mirrorSpillOf (s : State) (h : Nat) : State := s.each (s.refsTo h) (fun s e => s.mirrorSpilled e.1)

/-- A spill write completes: the larder cells are freed, and the next victim is taken. -/
def State.spillDone (s : State) (h : Nat) : State :=
  match s.item? h with
  | some i =>
    if i.loc == .spilling then
      let s := (s.putItem h { i with loc := .spilled }).inc pgLARD LARD_C_SPILLED
      let s := (s.mirrorSpillOf h).freeCells (itemCells i.item)
      let s := s.add pgCELL CELL_C_WR_BYTES (32 + i.item.body.length)
      (s.each ((s.refsTo h).map (·.1)) State.fetchNear).spillNext
    else s
  | none => s

def execSpillWriteDone (t : Nat) (handle : Nat) (s : State) : Host.Outcome State Fault Refusal :=
  s.happen t (·.spillDone handle)

/-- An item discarded because its spilled header cannot be read (R33, R336). -/
def State.discardItem (s : State) (h : Nat) : State :=
  let n := (s.refsTo h).length
  let s := (s.add pgCELL CELL_C_CH_LOST n).inc pgLARD LARD_C_HDR_DISCARD
  s.each (s.refsTo h) (fun s e => s.resolve e.1 e.2.2 codeFULL 0 true)

/-- A spill fetch completes: 0 clean, 1 an uncorrectable body word sets POISON, 2 the header cannot be read; `a` is the
address of the uncorrectable word. -/
def State.fetchDone (s : State) (h err a : Nat) : State :=
  match s.item? h with
  | some i =>
    if i.loc == .fetching then
      let s := s.putItem h { i with loc := .larder, item := { i.item with poison := i.item.poison || err == 1 } }
      let s := s.add pgCELL CELL_C_RD_BYTES (32 + i.item.body.length)
      let s := s.when (err != 0) (·.ueWords a 1)
      let s := s.mirrorSpillOf h
      let s := if 2 ≤ err then s.discardItem h else s.inc pgLARD LARD_C_FETCHED
      s.spillFreed
    else s
  | none => s

def execSpillFetchDone (t : Nat) (handle err addr : Nat) (s : State) : Host.Outcome State Fault Refusal :=
  s.happen t (·.fetchDone handle err addr)

end Sys2Proof.Machine
end

