-- ==== Sys2Proof/Machine/TongBase.lean ====
section
/-! DEFINITION. Machine/TongBase.lean: a tongs engine outside its instructions: its clock and timer (R299, R303), the
lines (R306), the fire latch (R311), starting, stopping and roles (R313 to R315), and the program store (R316 to R318). -/

namespace Sys2Proof.Machine

def State.eng (s : State) (n : Nat) : TongEng := (tabGet? s.tong.engs n).getD TongEng.fresh
def State.setEng (s : State) (n : Nat) (e : TongEng) : State :=
  { s with tong := { s.tong with engs := tabPut s.tong.engs n e } }

/-- The local port of an engine. -/
def tongPort (n : Nat) : Nat := 42 + n

/-- Field `f` of the entry of a line on page 0x060 (R320). -/
def lnF (f : Fld) (l : Nat) : Fld := f.at l 4

/-! ### Engine clocks (R299) -/

/-- `k` core clocks in 1/65 536 ns. -/
def coreU (k : Nat) : Nat := k * 327680 / 3

/-- Number of the engine clock in progress: clock k starts at core clock floor(k × DIV / 65 536). -/
def State.tongIdx (s : State) (n : Nat) : Nat :=
  let div := s.rd (pgTONG n) TONG_DIV
  ((coreClocks (s.time.clk - (s.eng n).divAt) + 1) * 65536 + (div - 1)) / div - 1

/-- Is the engine held by FREEZE, held at ENTRY, faulted or disabled? -/
def State.tongStill (s : State) (n : Nat) : Bool := decide (4 ≤ s.rd (pgTONG n) TONG_STALL)

/-- TMR at the present engine clock (R303). -/
def State.tongTmr (s : State) (n : Nat) : Nat :=
  let e := s.eng n
  if s.tongStill n then e.tmr else e.tmr - (s.tongIdx n - e.tmrK)

/-- Is the engine stalled by an AWAIT, STORE or FETCH? -/
def State.tongStalled (s : State) (n : Nat) : Bool :=
  let st := s.rd (pgTONG n) TONG_STALL
  decide (1 ≤ st ∧ st ≤ 3)

/-- TMR and STALL_CLOCKS are brought up to the present engine clock. -/
def State.tongSettle (s : State) (n : Nat) : State :=
  let e := s.eng n
  let k := s.tongIdx n
  let s' := s.setEng n { e with tmr := s.tongTmr n, tmrK := if s.tongStill n then e.tmrK else max e.tmrK k, stallK := k }
  s'.when (s.tongStalled n) (·.add (pgTONG n) TONG_C_STALL_CLOCKS (k - e.stallK))

/-- The divider restarts: a TMR count in progress goes on in the new clocks (R314). -/
def State.tongClkrst (s : State) (n : Nat) : State :=
  let s := s.tongSettle n
  s.setEng n { s.eng n with divAt := s.time.clk, tmrK := 0, stallK := 0 }

/-! ### Lines (R306) -/

/-- The filtered level of a line, inverted with INV_IN. -/
def State.lineIn (s : State) (l : Nat) : Bool :=
  s.tong.lines.testBit l != s.on (pgTONG 0) (lnF TONG_LN_INV_IN l)

/-- DRIVING: OUT_OK, the owner's direction bit, and the role or STBY_DRIVE. -/
def State.lineDrives (s : State) (l : Nat) : Bool :=
  let b := pgTONG 0
  s.on b (lnF TONG_LN_OUT_OK l) && s.tong.dirs.contains (64 * s.rd b (lnF TONG_LN_OWNER l) + l) && !s.portDown 42
    && ((s.active && !s.on pgTWIN TWIN_HOLD_BUS) || s.on b (lnF TONG_LN_STBY_DRIVE l))

/-- What a line gives its ball: a level, inverted with INV_OUT, or high impedance; the ball may be taken from it (R435,
R441). -/
def State.lineBall (s : State) (l : Nat) : Option Bool :=
  if s.lineDrives l && !s.sys.jtag && !s.sys.banksOff.testBit 2 then some (s.on (pgTONG 0) (lnF TONG_LN_OUT l) != s.on (pgTONG 0) (lnF TONG_LN_INV_OUT l)) else none

/-- A line follows its registers; a change reaches the ball at `h`. -/
def State.pinSync (s : State) (l h : Nat) : State :=
  let new := s.lineBall l
  let s := s.wrB (pgTONG 0) (lnF TONG_LN_DRIVING l) (s.lineDrives l)
  if new = tabGet? s.tong.balls l then s
  else
    let balls := match new with | some v => tabPut s.tong.balls l v | none => tabDel s.tong.balls l
    { s with tong := { s.tong with balls := balls } }.emit (.tongPin l new h)

/-- Every line, at once: after a change of role, of the shared-bus hold or of a line's settings. -/
def State.pinSyncAll (s : State) : State := s.each (List.range 64) (fun s l => s.pinSync l s.time.h)

/-- A write by an engine that does not own the line is ignored and counted. -/
def State.pinDenied (s : State) (n : Nat) : State := (s.inc (pgTONG n) TONG_C_PIN_DENIED).raise (0x60 + n) 4

/-- Engine `n` writes a line's output register; the level leaves the ball at `h`. -/
def State.pinLevel (s : State) (n l : Nat) (v : Bool) (h : Nat) : State :=
  if s.rd (pgTONG 0) (lnF TONG_LN_OWNER l) ≠ n then s.pinDenied n
  else (s.wrB (pgTONG 0) (lnF TONG_LN_OUT l) v).pinSync l h

/-- Engine `n` writes its direction bit of a line. -/
def State.pinDir (s : State) (n l : Nat) (v : Bool) (h : Nat) : State :=
  if s.rd (pgTONG 0) (lnF TONG_LN_OWNER l) ≠ n then s.pinDenied n
  else
    let k := 64 * n + l
    let d := if v then insertNat k s.tong.dirs else s.tong.dirs.filter (· != k)
    { s with tong := { s.tong with dirs := d } }.pinSync l h

/-- Window line `i` of an engine (R302). -/
def State.winLine (s : State) (n i : Nat) : Nat := (s.rd (pgTONG n) TONG_PIN_BASE + i) % 64

/-! ### Discards -/

/-- Transmit words up to the next LAST are discarded and counted (R313, R318). -/
def State.tongTxDrop (s : State) (n : Nat) : State :=
  let p := tongPort n
  let l := s.lisOf p
  match l.tx with
  | [] => s
  | k :: _ => ((s.add (pgTONG n) TONG_C_TX_FLUSHED (k.words - l.txp)).txPop p).wireLost k.handle p

/-- The open candidate is rewound and counted in CAND_REWOUND. -/
def State.tongRewind (s : State) (n : Nat) : State :=
  let p := tongPort n
  let r := s.rxOf p
  let s := s.setEng n { s.eng n with skip := false, candMark := none }
  if r.openC.isSome then (s.setRx p r.rewound).inc (pgTONG n) TONG_C_CAND_REWOUND else s

/-- SR is emptied and its bits counted in BITS_LOST; a SHIFT in progress is cut short, the lines left as they are. -/
def State.tongSrDrop (s : State) (n : Nat) : State :=
  let e := s.eng n
  let s := s.add (pgTONG n) TONG_C_BITS_LOST e.sr.length
  let s := (s.wr (pgTONG n) TONG_SR_CNT 0).wr (pgTONG n) TONG_SHIFTING 0
  s.setEng n { e with sr := [], phase := 0 }

def State.tongDiscard (s : State) (n : Nat) : State := ((s.tongRewind n).tongSrDrop n).tongTxDrop n

/-! ### The program store (R316 to R318) -/

/-- The word at an engine's PC in the bank it executes. -/
def State.tongWord (s : State) (n : Nat) : Nat :=
  let pc := s.rd (pgTONG n) TONG_PC
  if s.rd (pgTONG n) TONG_BANK = s.rd pgTONGS TONGS_LIVE_BANK then s.rd pgTONGS (TONGS_LIVE.at pc 4)
  else s.rd pgTONGS (TONGS_SHADOW.at pc 4)

/-- An engine takes PROG_NEXT into PROG on the live bank. -/
def State.tongMove (s : State) (n : Nat) : State :=
  let b := pgTONG n
  let pn := s.rd b TONG_PROG_NEXT
  let s := ((s.wr b TONG_ENTRY (bits pn 5 0)).wr b TONG_LO (bits pn 13 8)).wr b TONG_HI (bits pn 21 16)
  s.wr b TONG_BANK (s.rd pgTONGS TONGS_LIVE_BANK)

/-- A write to the shadow window. -/
def State.tongShadowPut (s : State) (a w : Nat) : State := s.wr pgTONGS (TONGS_SHADOW.at (a % 64) 4) w

/-- The swap ends once nothing waits: the live bank is copied into the shadow bank, and held writes are applied (R317). -/
def State.tongSwapEnd (s : State) : State :=
  if s.on pgTONGS PG_SHADOW_SWAP && s.rd pgTONGS TONGS_WAITING == 0 then
    let s := s.each (List.range 64) (fun s a => s.tongShadowPut a (s.rd pgTONGS (TONGS_LIVE.at a 4)))
    let s := (s.wr pgTONGS PG_SHADOW_SWAP 0).inc pgTONGS TONGS_C_SWAPS
    let held := s.tong.held
    { s with tong := { s.tong with held := [] } }.each held (fun s (e : Nat × Nat) => s.tongShadowPut e.1 e.2)
  else s

def State.tongWaits (s : State) (n : Nat) : Bool := (s.rd pgTONGS TONGS_WAITING).testBit n

/-- An engine leaves WAITING. -/
def State.tongUnwait (s : State) (n : Nat) : State :=
  let w := s.rd pgTONGS TONGS_WAITING
  (if w.testBit n then s.wr pgTONGS TONGS_WAITING (w - 2 ^ n) else s).tongSwapEnd

/-- An engine that waits for its boundary is stopped: it moves at once, as every engine that does not run (R317). -/
def State.tongLeave (s : State) (n : Nat) : State := if s.tongWaits n then (s.tongMove n).tongUnwait n else s

/-- The engine stops with FAULT and raises it; its lines stay (R300, R305). -/
def State.tongFault (s : State) (n code : Nat) : State :=
  let s := s.tongSettle n
  let s := (s.wr (pgTONG n) TONG_FAULT code).wr (pgTONG n) TONG_STALL 6
  (s.raise (0x60 + n) 0).tongLeave n

/-- Does a program region hold an address? -/
def State.tongInside (s : State) (n a : Nat) : Bool :=
  decide (s.rd (pgTONG n) TONG_LO ≤ a ∧ a ≤ s.rd (pgTONG n) TONG_HI)

/-! ### Starting and stopping (R313 to R315) -/

/-- The engine starts at ENTRY with cleared state; the divider restarts. -/
def State.tongStart (s : State) (n : Nat) : State :=
  let b := pgTONG n
  let e := s.eng n
  let s := s.setEng n { e with sr := [], divAt := s.time.clk, tmr := 0, tmrK := 0, stallK := 0, phase := 0, latch := []
                               fine := none, skip := false, fetched := false }
  let s := s.each [TONG_W0, TONG_W1, TONG_W2, TONG_W3, TONG_ST, TONG_SR_CNT, TONG_SHIFTING, TONG_LASTF, TONG_HELD] (fun s f => s.wr b f 0)
  let s := (s.wr b TONG_PC (s.rd b TONG_ENTRY)).wr b TONG_BANK (s.rd pgTONGS TONGS_LIVE_BANK)
  let s := s.wr b TONG_STALL (if s.on b PG_FREEZE then 4 else 0)
  if s.tongInside n (s.rd b TONG_ENTRY) then s else s.tongFault n 2

/-- An enabled engine is held at ENTRY on a hub that is not active (R315). -/
def State.tongHold (s : State) (n : Nat) : State :=
  let b := pgTONG n
  let s := s.setEng n { s.eng n with latch := [] }
  (((s.wr b TONG_HELD 1).wr b TONG_STALL 5).wr b TONG_PC (s.rd b TONG_ENTRY)).wr b TONG_BANK (s.rd pgTONGS TONGS_LIVE_BANK)

/-- Must an engine of this hub be held? -/
def State.tongMustHold (s : State) (n : Nat) : Bool := !s.active && !s.on (pgTONG n) TONG_STBY_RUN

/-- Does an engine's block run: from FORWARD on, out of reset and powered? -/
def State.tongAwake (s : State) (n : Nat) : Bool :=
  s.forward && !s.on (pgTONG n) PG_IN_RESET && !(s.rd pgPWR PWR_PD_STAT).testBit 10

/-- An enabled engine starts, or is held. -/
def State.tongBegin (s : State) (n : Nat) : State := if s.tongMustHold n then s.tongHold n else s.tongStart n

/-- ENABLE 0 to 1: the engine begins at once, or when its block does. -/
def State.tongEnable (s : State) (n : Nat) : State :=
  if s.on (pgTONG n) PG_ENABLE then s
  else (s.wr (pgTONG n) PG_ENABLE 1).when (s.tongAwake n) (·.tongBegin n)

/-- The engine stops and what it had in hand is discarded. -/
def State.tongHalt (s : State) (n : Nat) : State := ((s.tongSettle n).tongDiscard n).tongLeave n

/-- ENABLE 1 to 0. -/
def State.tongDisable (s : State) (n : Nat) : State :=
  let b := pgTONG n
  if !s.on b PG_ENABLE then s
  else (((s.tongHalt n).wr b PG_ENABLE 0).wr b TONG_FAULT 0 |>.wr b TONG_HELD 0).wr b TONG_STALL 7

/-- Every word of an engine's transmit FIFO is discarded. -/
def State.tongTxFlush (s : State) (n : Nat) : State :=
  s.each (List.range (s.lisOf (tongPort n)).tx.length) (fun s _ => s.tongTxDrop n)

/-- SRST of an engine's page (R313). -/
def State.tongReset (s : State) (n : Nat) : State :=
  let b := pgTONG n
  let s := ((s.tongHalt n).tongTxFlush n).wr b PG_ENABLE 0
  let s := s.each [TONG_PC, TONG_W0, TONG_W1, TONG_W2, TONG_W3, TONG_ST, TONG_LASTF, TONG_FAULT, TONG_HELD] (fun s f => s.wr b f 0)
  let s := s.wr b TONG_STALL 7
  let s := s.setEng n { s.eng n with tmr := 0, tmrK := 0, latch := [], fine := none }
  { s with tong := { s.tong with dirs := s.tong.dirs.filter (fun k => k / 64 != n) } }.pinSyncAll

/-- FREEZE set: the engine and its TMR are held with their state intact (R313). -/
def State.tongFreeze (s : State) (n : Nat) : State :=
  let s := s.tongSettle n
  s.when (decide (s.rd (pgTONG n) TONG_STALL < 4)) (·.wr (pgTONG n) TONG_STALL 4)

/-- FREEZE cleared: the engine goes on; a stalled instruction is evaluated afresh. -/
def State.tongResume (s : State) (n : Nat) : State :=
  if s.rd (pgTONG n) TONG_STALL = 4 then
    let k := s.tongIdx n
    (s.setEng n { s.eng n with tmrK := k, stallK := k }).wr (pgTONG n) TONG_STALL 0
  else s

/-- GRP_EN_SET, GRP_EN_CLR and GRP_CLKRST (R314). -/
def State.tongGrpSet (s : State) (mask : Nat) : State :=
  s.each (List.range 16) (fun s n => s.when (mask.testBit n) (·.tongEnable n))
def State.tongGrpClr (s : State) (mask : Nat) : State :=
  s.each (List.range 16) (fun s n => s.when (mask.testBit n) (·.tongDisable n))
def State.tongGrpClkrst (s : State) (mask : Nat) : State :=
  s.each (List.range 16) (fun s n => s.when (mask.testBit n && s.on (pgTONG n) PG_ENABLE) (·.tongClkrst n))

/-- An engine that drives only lines without STBY_DRIVE. -/
def State.tongBusOnly (s : State) (n : Nat) : Bool :=
  let b := pgTONG 0
  let own := (List.range 64).filter (fun l => s.rd b (lnF TONG_LN_OWNER l) == n && s.on b (lnF TONG_LN_OUT_OK l))
  !own.isEmpty && own.all (fun l => !s.on b (lnF TONG_LN_STBY_DRIVE l))

/-- One engine after a change of role or of the shared-bus hold (R315). -/
def State.tongRole (s : State) (n : Nat) : State :=
  let b := pgTONG n
  if !s.on b PG_ENABLE || s.rd b TONG_FAULT != 0 || !s.tongAwake n then s
  else if s.on b TONG_HELD then
    if s.tongMustHold n || (s.on pgTWIN TWIN_HOLD_BUS && s.tongBusOnly n) then s else s.tongStart n
  else if s.tongMustHold n then (s.tongHalt n).tongHold n
  else s

/-- The tongs after a change of role or of the shared-bus hold. -/
def State.tongsRole (s : State) : State := (s.each (List.range 16) State.tongRole).pinSyncAll

/-! ### Fires (R311, R314) -/

/-- A slot fire reaches one engine. -/
def State.tongLatch (s : State) (slot f n : Nat) : State :=
  let e := s.eng n
  if (tabGet? e.latch slot).isSome then s.inc (pgTONG n) TONG_C_EVT_OVER
  else s.setEng n { e with latch := tabPut e.latch slot f }

/-- A slot fire with TO_TONGS 1, at target instant `f`: the armed group starts with it, then every engine latches it. -/
def State.tongFire (s : State) (slot f : Nat) : State :=
  let b := pgTONG 0
  let s := if s.on b TONG_GS_ARM && s.rd b TONG_GS_SLOT == slot
    then (s.tongGrpSet (s.rd b TONG_GS_MASK)).wr b TONG_GS_ARM 0 else s
  s.each (List.range 16) (fun s n => s.tongLatch slot f n)

end Sys2Proof.Machine
end

