-- ==== Sys2Proof/Machine/Axis.lean ====
section
/-! DEFINITION. Machine/Axis.lean: encoders and axes (R168 to R173), event slots (R174 to R177), AXIS_STATE (R179). -/

namespace Sys2Proof.Machine

/-! ### Registers of encoder n and axis k (2 to 15) -/

def encF (f : Fld) (n : Nat) : Fld := f.at n 16
def axF (f : Fld) (k : Nat) : Fld := f.at (k - 2) 64

def State.enc (s : State) (n : Nat) : Enc := (tabGet? s.axis.encs n).getD ⟨false, false, 0, none⟩
def State.setEnc (s : State) (n : Nat) (e : Enc) : State := { s with axis := { s.axis with encs := tabPut s.axis.encs n e } }
def State.ax (s : State) (k : Nat) : AxMod := (tabGet? s.axis.axes k).getD ⟨0, [], false, false, false, false, 0⟩

def State.axSrc (s : State) (k : Nat) : Nat := s.rd pgAXIS (axF AXIS_AX_SRC k)

/-- The N + 1 counts that extrapolation needs (R171). -/
def State.axNeed (s : State) (k : Nat) : Nat := 2 ^ s.rd pgAXIS (axF AXIS_AX_VEL_N k) + 1

/-- HOMED of a local encoder: it reads 1 with Z_MODE 0 (R170). -/
def State.encHomed (s : State) (n : Nat) : Bool :=
  s.rd pgAXIS (encF AXIS_ENC_Z_MODE n) == 0 || s.on pgAXIS (encF AXIS_ENC_HOMED n)

/-- HOMED of an axis: its local encoder's, or as the leaf reports it. -/
def State.axHomed (s : State) (k : Nat) : Bool :=
  match s.axSrc k with
  | 1 => s.encHomed (s.rd pgAXIS (axF AXIS_AX_ENC k))
  | 2 => (s.ax k).homed
  | _ => false

/-- HOLD: too few counts to extrapolate from, or standing still. -/
def State.axHold (s : State) (k : Nat) : Bool := decide ((s.ax k).hist.length < s.axNeed k) || (s.ax k).stopped

/-- STATE of an axis follows its model. -/
def State.mirrorAx (s : State) (k : Nat) : State :=
  let m := s.ax k
  s.wr pgAXIS (axF AXIS_AX_STATE k)
    ((s.axHomed k).toNat + 2 * m.stopped.toNat + 4 * (s.axHold k).toNat + 8 * m.err.toNat + 16 * m.rev.toNat)

def State.setAx (s : State) (k : Nat) (m : AxMod) : State :=
  { s with axis := { s.axis with axes := tabPut s.axis.axes k m } }.mirrorAx k

/-- Axes that use local encoder `n`. -/
def State.axesOf (s : State) (n : Nat) : List Nat :=
  ((List.range 14).map (· + 2)).filter (fun k => s.axSrc k == 1 && s.rd pgAXIS (axF AXIS_AX_ENC k) == n)

/-! ### Position and velocity (R169, R171, R172) -/

/-- POS of a count, modulo 2^64. -/
def State.posOf (s : State) (k : Nat) (c : Int) : Nat :=
  let n : Int := s.rd pgAXIS (axF AXIS_AX_COUNTS k)
  let zofs := s.rd pgAXIS (axF AXIS_AX_ZERO_OFS k)
  ofSigned 64 (c / n * 4294967296 + c % n * 4294967296 / n + zofs)

/-- Distance from one position to another, signed. -/
def posDiff (a b : Nat) : Int := toSigned 64 ((b + 2 ^ 64 - a % 2 ^ 64) % 2 ^ 64)

/-- One unit short, in the direction of motion, of the position of count k + CLAMP_CNT. -/
def State.axLimit (s : State) (k : Nat) : Nat :=
  let m := s.ax k
  let cl : Int := s.rd pgAXIS (axF AXIS_AX_CLAMP_CNT k)
  if m.rev then (s.posOf k (m.cnt - cl) + 1) % 2 ^ 64 else (s.posOf k (m.cnt + cl) + 2 ^ 64 - 1) % 2 ^ 64

/-- The stretch that velocity is taken over: positions moved and time taken, in 1/65 536 ns. -/
def State.axSpan (s : State) (k : Nat) : Option (Int × Nat) :=
  let m := s.ax k
  if s.axHold k then none
  else match m.hist.head?, m.hist[s.axNeed k - 1]? with
  | some a, some b => if b.2 < a.2 then some (posDiff (s.posOf k b.1) (s.posOf k a.1), a.2 - b.2) else none
  | _, _ => none

/-- The extrapolated position at the present H. -/
def State.axPos (s : State) (k : Nat) : Nat :=
  let m := s.ax k
  let p := s.posOf k m.cnt
  match s.axSpan k, m.hist.head? with
  | some (d, dt), some a =>
    let x := roundI (d * (s.time.h - a.2 : Int)) dt
    let lim := posDiff p (s.axLimit k)
    ofSigned 64 (p + (if m.rev then max x lim else min x lim))
  | _, _ => p

/-- Signed velocity in 2^−64 revolution per ns, 0 while HOLD. -/
def State.axVel (s : State) (k : Nat) : Int :=
  match s.axSpan k with
  | some (d, dt) => roundI (d * 4294967296 * 65536) dt
  | none => 0

/-! ### Counts -/

/-- A count `c` at instant `h` joins the model of an axis (R171, R172). -/
def State.axCount (s : State) (k : Nat) (c : Int) (h : Nat) : State :=
  let m := s.ax k
  let rev := decide (c < m.cnt)
  let hist := if rev ≠ m.rev ∨ m.stopped ∨ m.err then [(c, h)] else ((c, h) :: m.hist).take 65
  s.setAx k { m with cnt := c, hist := hist, rev := rev, stopped := false, err := false, countAt := s.time.clk }

/-- The count is changed without motion: homing or correction. -/
def State.axShift (s : State) (k : Nat) (d : Int) : State :=
  let m := s.ax k
  s.setAx k { m with cnt := m.cnt + d, hist := m.hist.map (fun e => (e.1 + d, e.2)) }

/-- An error count: ERR until the next count (R168). -/
def State.axError (s : State) (k : Nat) : State := s.setAx k { s.ax k with err := true, hist := [] }

/-- One step of an encoder by MODE from accepted levels (a, b) to (a', b'), not both changed: +1, −1 or none (R168). -/
def encStep (mode : Nat) (a b a' b' : Bool) : Int :=
  let riseA := !a && a'
  let fallA := a && !a'
  let sgn (fwd : Bool) : Int := if fwd then 1 else -1
  match mode with
  | 1 => if riseA then sgn (!b') else 0
  | 2 => if riseA then sgn (!b') else if fallA then sgn b' else 0
  | 3 => if riseA then sgn (!b') else if fallA then sgn b' else if !b && b' then sgn a' else if b && !b' then sgn (!a') else 0
  | 4 => if riseA then sgn (!b') else 0
  | 5 => if riseA then 1 else 0
  | _ => 0

/-- ENCODER_COUNT: new accepted levels of A and B. -/
def State.encLevels (s : State) (n : Nat) (a' b' : Bool) : State :=
  let e := s.enc n
  let mode := s.rd pgAXIS (encF AXIS_ENC_MODE n)
  let s := s.setEnc n { e with a := a', b := b' }
  if mode = 0 then s
  else if e.a ≠ a' ∧ e.b ≠ b' then
    let s := ((s.inc pgAXIS AXIS_C_QERR).wr pgAXIS (encF AXIS_ENC_ERR n) 1).raise 7 2
    s.each (s.axesOf n) State.axError
  else
    let d := encStep mode e.a e.b a' b'
    if d = 0 then s
    else
      let d := if s.on pgAXIS (encF AXIS_ENC_INV n) then -d else d
      let h := s.time.h - (s.rd pgAXIS (encF AXIS_ENC_FILT n) + 2) * 4 * nsU
      let s := (s.setEnc n { s.enc n with cnt := e.cnt + d }).wr pgAXIS (encF AXIS_ENC_ERR n) 0
      s.each (s.axesOf n) (fun s k => s.axCount k (e.cnt + d) h)

def execEncoderCount (t : Nat) (encoder : Nat) (a b : Bool) (s : State) : Host.Outcome State Fault Refusal :=
  s.happen t (·.encLevels (encoder % 8) a b)

/-- COUNTS that an encoder's index check uses: that of the first axis on it (R170). -/
def State.encCounts (s : State) (n : Nat) : Option Nat :=
  (s.axesOf n).head?.map (fun k => s.rd pgAXIS (axF AXIS_AX_COUNTS k))

def State.mirrorEnc (s : State) (n : Nat) : State := s.each (s.axesOf n) State.mirrorAx

/-- ENCODER_INDEX (R170). -/
def State.encIndex (s : State) (n : Nat) : State :=
  let e := s.enc n
  let zm := s.rd pgAXIS (encF AXIS_ENC_Z_MODE n)
  let homed := s.on pgAXIS (encF AXIS_ENC_HOMED n)
  let shift (s : State) (d : Int) : State :=
    (s.setEnc n { s.enc n with cnt := (s.enc n).cnt + d }).each (s.axesOf n) (fun s k => s.axShift k d)
  if s.rd pgAXIS (encF AXIS_ENC_MODE n) = 0 ∨ zm = 0 then s
  else if zm = 1 ∧ !homed then
    let s := (shift s (-e.cnt)).wr pgAXIS (encF AXIS_ENC_HOMED n) 1
    ((s.setEnc n { s.enc n with ref := some 0 }).raise 7 0).mirrorEnc n
  else match s.encCounts n with
  | none => s
  | some c =>
    match e.ref with
    | none => ((s.setEnc n { e with ref := some (e.cnt % c) }).wr pgAXIS (encF AXIS_ENC_HOMED n) 1).mirrorEnc n
    | some r =>
      let d0 : Int := (e.cnt - r) % c
      let d : Int := if (c : Int) < 2 * d0 then d0 - c else d0
      if d.natAbs ≤ s.rd pgAXIS (encF AXIS_ENC_Z_TOL n) then s
      else
        let s := (s.inc pgAXIS AXIS_C_IDX_ERR).raise 7 1
        if s.on pgAXIS (encF AXIS_ENC_Z_CORR n) then shift s (-d) else s

def execEncoderIndex (t : Nat) (encoder : Nat) (s : State) : Host.Outcome State Fault Refusal :=
  s.happen t (·.encIndex (encoder % 8))

/-- The axis number of an operand: 2 to 15. -/
def axNo (n : Nat) : Nat := 2 + n % 14

/-- AXIS_STILL (R172): STILL_MS without a count. -/
def execAxisStill (t : Nat) (axis : Nat) (s : State) : Host.Outcome State Fault Refusal :=
  s.happen t (fun s =>
    let k := axNo axis
    let m := s.ax k
    if s.axSrc k ≠ 0 ∧ !m.stopped ∧ m.countAt + s.rd pgAXIS (axF AXIS_AX_STILL_MS k) * msU ≤ s.time.clk then
      s.setAx k { m with stopped := true }
    else s)

/-! ### Remote axes (R173, R180) -/

/-- Axes that use encoder `n` of a leaf. -/
def State.axesRemote (s : State) (leaf n : Nat) : List Nat :=
  ((List.range 14).map (· + 2)).filter (fun k =>
    s.axSrc k == 2 && s.rd pgAXIS (axF AXIS_AX_LEAF k) == leaf && s.rd pgAXIS (axF AXIS_AX_ENC k) == n)

/-- One entry of a message: offset in its payload. -/
def State.edgeEntry (s : State) (k : Nat) (l : List Byte) (o : Nat) : State :=
  let h := instant (beAt l 16 8) (beAt l 24 4) 0 + beAt l o 4 * nsU + beAt l (o + 6) 1 * 256
  let c := toSigned 64 (beAt l 8 8) + toSigned 16 (beAt l (o + 4) 2)
  let s := s.when ((beAt l (o + 7) 1).testBit 2) (·.axError k)
  if c = (s.ax k).cnt ∧ !(s.ax k).hist.isEmpty then s else s.axCount k c h

/-- An AXIS_EDGES message of a leaf: the first copy of each SEQ is used. -/
def State.takeEdges (s : State) (leaf : Nat) (l : List Byte) : State :=
  let n := beAt l 1 1 % 8
  let ks := s.axesRemote leaf n
  let key := leaf * 8 + n
  let q := beAt l 4 2
  let d := match tabGet? s.axis.edgeSeq key with | some o => (q + 65536 - o) % 65536 | none => 1
  if ks.isEmpty || d == 0 || decide (32768 ≤ d) then s
  else
    let s := { s with axis := { s.axis with edgeSeq := tabPut s.axis.edgeSeq key q } }
    let s := s.when (decide (1 < d)) (·.inc pgAXIS AXIS_C_EDGE_LOST)
    let cnt := beAt l 2 1
    if !(beAt l 3 1).testBit 1 || l.length != 28 + 8 * cnt || cnt == 0 || decide (32 < cnt) then s.inc pgAXIS AXIS_C_EDGE_LOST
    else
      let s := s.inc pgAXIS AXIS_C_EDGE_MSGS
      s.each ks (fun s k =>
        let s := s.setAx k { s.ax k with homed := (beAt l 3 1).testBit 0 }
        s.each (List.range cnt) (fun s i => s.edgeEntry k l (28 + 8 * i)))

/-! ### Settings and captures -/

def axHeld : List Nat := [0x04, 0x08, 0x0C, 0x10, 0x14]
def axBase (k : Nat) : Nat := 0x200 + 0x40 * (k - 2)

/-- Conditions of an axis entry beyond each field's own range (R173, R186). -/
def State.axLegal (s : State) (k : Nat) : Bool :=
  let f (g : Fld) : Nat := s.rd pgAXIS (axF g k)
  s.entryLegal pgAXIS rows_AXIS ((0 :: axHeld).map (axBase k + ·))
    && (f AXIS_AX_SRC != 2 || (decide (1 ≤ f AXIS_AX_LEAF ∧ f AXIS_AX_LEAF ≤ 250) && f AXIS_AX_CLAMP_CNT != 1 && f AXIS_AX_EDGE_DEC != 0))

/-- AXIS_CONFIG_COMMIT (R186): word +0x00 with the held words; the model starts afresh, in HOLD (R172). -/
def State.axCommit (s : State) (k w : Nat) : State :=
  let old := s
  let offs := axHeld.map (axBase k + ·)
  let s := (s.applyHeld pgAXIS rows_AXIS offs).setWord pgAXIS rows_AXIS (axBase k) w
  if !s.axLegal k then (old.dropHeld pgAXIS offs).refuse 7 errILLEGAL
  else
    let s := (s.logHeld old pgAXIS offs).logDelta (pgAXIS + axBase k) w
    let c := if s.axSrc k = 1 then (s.enc (s.rd pgAXIS (axF AXIS_AX_ENC k))).cnt else 0
    s.setAx k ⟨c, [], false, false, false, false, s.time.clk⟩

def execAxisConfigCommit (t : Nat) (axis : Nat) (word : Word) (s : State) : Host.Outcome State Fault Refusal :=
  s.happen t (·.blkGuard 7 true (·.axCommit (axNo axis) word.toNat))

/-- CAP of the AXIS page (R186). -/
def State.axisCap (s : State) : State :=
  let s := (s.wr pgAXIS AXIS_CAP_S (secOf s.time.h)).wr pgAXIS AXIS_CAP_NS (nsOf s.time.h)
  let s := s.each (List.range 8) (fun s n => s.wrI pgAXIS (encF AXIS_ENC_CAP_COUNT n) (s.enc n).cnt)
  s.each ((List.range 14).map (· + 2)) (fun s k =>
    if s.axSrc k = 0 then s
    else (s.wr pgAXIS (axF AXIS_AX_CAP_POS k) (s.axPos k)).wrI pgAXIS (axF AXIS_AX_CAP_VEL k) (s.axVel k))

/-- AXIS_CAP: a carried write (R250). -/
def execAxisCap (t : Nat) (s : State) : Host.Outcome State Fault Refusal :=
  s.happen t (·.blkGuard 7 true (fun s => s.axisCap.logDelta (pgAXIS + AXIS_CAP.off) (2 ^ AXIS_CAP.lo)))

/-- AXIS_STATE_SEND (R179). -/
def State.sendAxis (s : State) (k : Nat) : State :=
  let m := s.ax k
  let fl := (s.axHomed k).toNat + 2 * m.stopped.toNat + 4 * (s.axHold k).toNat + 8 * m.err.toNat + 16 * m.rev.toNat
  let body := leBytes 1 2 ++ leBytes 1 k ++ leBytes 1 fl ++ leBytes 1 0 ++ beBytes 8 (secOf s.time.h) ++ beBytes 4 (nsOf s.time.h)
    ++ beBytes 8 (s.axPos k) ++ beBytes 8 (ofSigned 64 (s.axVel k)) ++ beBytes 8 (s.axLimit k)
  s.each (List.range 4) (fun s p =>
    if s.portUp p then (s.sendPort p true (mkPkt s.nodeId 0x30 3 0 0 body)).inc pgAXIS AXIS_C_STATE_SENT else s)

def execAxisStateSend (t : Nat) (axis : Nat) (s : State) : Host.Outcome State Fault Refusal :=
  s.happen t (fun s =>
    let k := axNo axis
    if s.active && s.on pgTIME TIME_H_VALID && s.axSrc k != 0 && s.rd pgAXIS (axF AXIS_AX_TX_US k) != 0 then s.sendAxis k else s)

/-! ### Event slots (R174 to R177) -/

/-- What a slot compares with TARGET: T_x in ns, or the position as a signed value. -/
def State.slotNow (s : State) (k : Nat) : Int :=
  let ax := s.rd (slotAt k) SLOT_AXIS
  if ax < 2 then s.domTime ax / nsU else toSigned 64 (s.axPos ax)

/-- A slot that waits: its axis is not homed, or H not set. -/
def State.slotWaits (s : State) (k : Nat) : Bool :=
  let ax := s.rd (slotAt k) SLOT_AXIS
  if ax < 2 then !s.on pgTIME TIME_H_VALID else !s.axHomed ax

def State.slotTarget (s : State) (k : Nat) : Int :=
  if s.rd (slotAt k) SLOT_AXIS < 2 then s.rd (slotAt k) SLOT_TARGET else s.rdI (slotAt k) SLOT_TARGET

/-- TARGET lies behind, in the slot's direction. -/
def State.slotPast (s : State) (k : Nat) (target : Int) : Bool :=
  match s.rd (slotAt k) SLOT_DIR with
  | 1 => decide (target ≤ s.slotNow k)
  | 2 => decide (s.slotNow k < target)
  | _ => false

def State.disarm (s : State) (k : Nat) : State := (s.wr (slotAt k) SLOT_ARMED 0).wr (slotAt k) SLOT_ARM 0

/-- TARGET advances by whole PERIODs past the present; answers how many further targets were passed over. -/
def State.slotSkip (s : State) (k : Nat) : Nat × State :=
  let per := s.rd (slotAt k) SLOT_PERIOD
  let tg := s.slotTarget k
  let now := s.slotNow k
  if per = 0 ∨ !s.slotPast k tg then (0, s)
  else if s.rd (slotAt k) SLOT_DIR = 2 then
    let n := ((tg - now - 1) / per).toNat + 1
    (n, s.wrI (slotAt k) SLOT_TARGET (tg - n * per))
  else
    let n := ((now - tg) / per).toNat + 1
    (n, s.wrI (slotAt k) SLOT_TARGET (tg + n * per))

/-- What a fire does, and the repeat that follows it. -/
def State.fireSlot (s : State) (k : Nat) (jump : Bool) : State :=
  let b := slotAt k
  let st := slotStatAt k
  let s := s.when (s.on b SLOT_TO_TONGS) (fun s => s.tongFire k s.time.h)
  let s := s.when (s.on b SLOT_TO_HOST) (·.raise 7 3)
  let s := (s.wr st SLOTSTAT_LAST_S (secOf s.time.h)).wr st SLOTSTAT_LAST_NS (nsOf s.time.h)
  let s := (s.wrI st SLOTSTAT_LAST_POS (s.slotNow k)).add st SLOTSTAT_FIRES 1
  let s := (s.inc pgAXIS AXIS_C_EVT_FIRES).when jump (·.inc pgAXIS AXIS_C_EVT_JUMP)
  let cnt := s.rd b SLOT_COUNT
  let left := s.rd b SLOT_LEFT - 1
  let s := s.when (cnt != 0) (·.wr b SLOT_LEFT left)
  let per := s.rd b SLOT_PERIOD
  if (cnt ≠ 0 ∧ left = 0) ∨ per = 0 then s.disarm k
  else
    let s := s.wrI b SLOT_TARGET (if s.rd b SLOT_DIR = 2 then s.slotTarget k - per else s.slotTarget k + per)
    let x := s.slotSkip k
    (x.2.add st SLOTSTAT_MISSED x.1).add pgAXIS AXIS_C_EVT_MISSED x.1

/-- SLOT_FIRE: the slot's condition holds; `jump` when a correction or a set offset made it so (R176). -/
def State.slotFire (s : State) (k : Nat) (jump : Bool) : State :=
  if !s.on (slotAt k) SLOT_ARMED || s.slotWaits k then s
  else if s.rd (slotAt k) SLOT_DIR ≠ 0 ∧ !s.slotPast k (s.slotTarget k) then s
  else s.fireSlot k jump

def execSlotFire (t : Nat) (slot : Nat) (jump : Bool) (s : State) : Host.Outcome State Fault Refusal :=
  s.happen t (·.slotFire (slot % 64) jump)

def slotHeld : List Nat := [0x08, 0x0C, 0x10, 0x14]

/-- A slot's settings are legal as they stand (R177, R187). -/
def State.slotLegal (s : State) (k : Nat) : Bool :=
  let b := slotAt k
  let dir := s.rd b SLOT_DIR
  let per := s.rd b SLOT_PERIOD
  let time := decide (s.rd b SLOT_AXIS < 2)
  dir != 3 && !(dir == 0 && per != 0) && !(time && dir != 1) && !(time && decide (1 ≤ per ∧ per ≤ 999))

/-- The settings of a slot with its held words and word 0x00 in place. -/
def State.slotSet (s : State) (k w : Nat) : State :=
  (s.applyHeld (slotAt k) rows_SLOT slotHeld).setWord (slotAt k) rows_SLOT 0 w

/-- A slot write takes effect: the slot is armed or disarmed, and a target already past is late (R176). -/
def State.slotArm (s : State) (k w : Nat) : State :=
  let s := s.slotSet k w
  let b := slotAt k
  if !s.on b SLOT_ARM then s.wr b SLOT_ARMED 0
  else
    let s := (s.wr b SLOT_ARMED 1).wr b SLOT_LEFT (s.rd b SLOT_COUNT)
    if s.slotWaits k || !s.slotPast k (s.slotTarget k) then s
    else
      let s := (s.inc pgAXIS AXIS_C_EVT_LATE).raise 7 4
      if !s.on b SLOT_LATE_SKIP then s.fireSlot k false
      else if s.rd b SLOT_PERIOD = 0 then s.disarm k else (s.slotSkip k).2

/-- SLOT_WRITE: word 0x00 of a slot. While a log runs, its words take effect on both hubs 50 µs of H later (R249).
`race` when the write meets a fire: the fire comes first, under the old settings (R176). -/
def State.slotWrite (s : State) (k w : Nat) (race : Bool) : State :=
  let b := slotAt k
  let s := if race && s.on b SLOT_ARMED then (s.fireSlot k false).inc pgAXIS AXIS_C_EVT_RACE else s
  if !(s.slotSet k w).slotLegal k then (s.dropHeld b slotHeld).refuse 7 errILLEGAL
  else if s.active && decide (2 ≤ s.tstate) then
    let h := s.time.h + 50 * usU
    let ws := (slotHeld.filterMap (fun o => (s.heldWord? (b + o)).map (fun v => (b + o, v)))) ++ [(b, w)]
    (s.dropHeld b slotHeld).each ws (fun s e =>
      { s.log (.delta e.1 4 e.2 (some h)) with twin := { s.twin with atH := s.twin.atH ++ [(h, e.1, e.2)] } })
  else s.slotArm k w

def execSlotWrite (t : Nat) (slot : Nat) (word : Word) (race : Bool) (s : State) : Host.Outcome State Fault Refusal :=
  s.happen t (·.winGuard 7 true (·.slotWrite (slot % 64) word.toNat race))

/-- A slot word that a DELTA carried takes effect: words behind 0x00 are held, word 0x00 arms. -/
def State.slotWord (s : State) (a w : Nat) : State :=
  let k := (a - slotAt 0) / 32
  if (a - slotAt 0) % 32 = 0 then s.slotArm k w else { s with held := tabPut s.held a w }

/-- DELTA_AT_H (R249): slot writes whose instant H has reached. -/
def State.deltasDue (s : State) : State :=
  let due := s.twin.atH.filter (fun e => decide (e.1 ≤ s.time.h))
  let s := { s with twin := { s.twin with atH := s.twin.atH.filter (fun e => decide (s.time.h < e.1)) } }
  s.each due (fun s e => s.slotWord e.2.1 e.2.2)

def execDeltaAtH (t : Nat) (s : State) : Host.Outcome State Fault Refusal :=
  s.happen t (·.deltasDue)

end Sys2Proof.Machine
end

