-- ==== Sys2Proof/Machine/CanRx.lean ====
section
/-! DEFINITION. Machine/CanRx.lean: CAN frames as records (R269), reassembly (R277), virtual nodes and address claiming
(R280, R281). Formats and reasons of ISO 11783-3 and ISO 11783-5 are those standards'. -/

namespace Sys2Proof.Machine

def State.ctl (s : State) (n : Nat) : CanCtl :=
  (tabGet? s.can.ctl n).getD ⟨false, false, 0, 0, 0, none, 0, [], none, none, false, none, [], [], [], [], none⟩
def State.setCtl (s : State) (n : Nat) (c : CanCtl) : State := { s with can := { s.can with ctl := tabPut s.can.ctl n c } }

/-! ### Records -/

/-- A classic extended frame of up to 8 bytes as a record. -/
def extRec (id : Nat) (data : List Byte) : List Byte :=
  leBytes 4 (id % 2 ^ 29 + 2 ^ 29) ++ leBytes 1 0 ++ leBytes 1 data.length ++ leBytes 2 0 ++ data

def recId (r : List Byte) : Nat := leAt r 0 4 % 2 ^ 29
def recExt (r : List Byte) : Bool := (leAt r 0 4).testBit 29
def recRtr (r : List Byte) : Bool := (leAt r 4 1).testBit 3
def recData (r : List Byte) : List Byte := r.drop 8

/-- The 29-bit identifier's parts: priority, PGN (with a PDU1 destination masked out), destination, source. -/
def idPri (id : Nat) : Nat := id / 2 ^ 26 % 8
def idSa (id : Nat) : Nat := id % 256
def idPf (id : Nat) : Nat := id / 2 ^ 16 % 256
def idPgn (id : Nat) : Nat := id / 2 ^ 16 % 1024 * 256 + (if 240 ≤ idPf id then id / 256 % 256 else 0)
def idDa (id : Nat) : Nat := if 240 ≤ idPf id then 255 else id / 256 % 256

/-- An identifier from PRI, PGN, DA and source (R279). -/
def mkId (pri pgn da sa : Nat) : Nat :=
  pri * 2 ^ 26 + (pgn / 256 * 256 + (if pgn / 256 % 256 < 240 then da else pgn % 256)) * 256 + sa

/-! ### Received traffic on its way to a port -/

/-- Where a frame came from: the port, its captures, and for a tunnelled one the packet that carried it. -/
structure RxMeta where
  port : Nat
  first : Nat
  fin : Nat
  timeOk : Bool
  dom : Nat
  path256 : Nat
  leaf : Nat
  iseq : Nat
  deriving DecidableEq, Repr

/-- A candidate that arrives whole (R39, R53). A port with RX_EN 0 takes none. -/
def State.giveCand (s : State) (m : RxMeta) (src : CandSrc) (body : List Byte) : State :=
  let cfg := s.portCfg m.port
  if !cfg.rxEn || s.portDown m.port then s
  else s.offerCand
    { id := 0, port := m.port, src := src, remote := decide (64 ≤ m.port), body := body, cfg := cfg, first := m.first
      sent := m.first, fin := m.fin, ingest := s.time.h, born := s.time.clk, timeOk := m.timeOk, dom := m.dom
      path256 := m.path256, words := wordsOf body.length, poison := false, leaf := m.leaf, iseq := m.iseq, host := [] }

/-- A port's frame counter `i` (R293). -/
def State.fcInc (s : State) (p i : Nat) : State := s.inc (frameCtrAt p) (ctr i)
def fcCONSUMED : Nat := 1
def fcDONE : Nat := 2
def fcTIMEOUT : Nat := 3
def fcFULL : Nat := 4
def fcABORT : Nat := 5
def fcCLASH : Nat := 6
def fcREFUSED : Nat := 7

/-- A completed message: the KIND 5 record (R276). -/
def State.giveMsg (s : State) (m : RxMeta) (pgn pri mech sa da first : Nat) (data : List Byte) : State :=
  (s.fcInc m.port fcDONE).giveCand { m with first := first } .pgn
    (leBytes 3 pgn ++ leBytes 1 (pri + 16 * mech) ++ leBytes 1 sa ++ leBytes 1 da ++ leBytes 2 data.length ++ data)

/-! ### Frames a controller sends of its own -/

/-- Does the controller have protocol frames of its own to send: an active hub's, in a mode that transmits (R266, R278)? -/
def State.canSpeaks (s : State) (n : Nat) : Bool :=
  let m := s.rd (pgCAN n) CAN_MODE
  s.active && !s.on pgTWIN TWIN_HOLD_BUS && (m == 1 || m == 4 || m == 5)

def State.ownFrame (s : State) (n id : Nat) (data : List Byte) : State :=
  if s.canSpeaks n then s.setCtl n { s.ctl n with own := (s.ctl n).own ++ [extRec id data] } else s

/-- Virtual node `v` of controller `n`. -/
def vnF (f : Fld) (v : Nat) : Fld := f.at v 16
def State.vnAddr (s : State) (n v : Nat) : Nat := s.rd (pgCAN n) (vnF CAN_CUR_SA v)

/-- The virtual node of a controller that holds an address. -/
def State.vnHolding (s : State) (n sa : Nat) : Option Nat :=
  (List.range 8).find? (fun v => s.on (pgCAN n) (vnF CAN_VN_EN v) && s.rd (pgCAN n) (vnF CAN_VSTATE v) == 2 && s.vnAddr n v == sa)

/-- TP.CM and TP.DT. -/
def pgnCM : Nat := 0xEC00
def pgnDT : Nat := 0xEB00
def tpCM (op a b c d pgn : Nat) : List Byte := leBytes 1 op ++ leBytes 1 a ++ leBytes 1 b ++ leBytes 1 c ++ leBytes 1 d ++ leBytes 3 pgn

/-- CTS, EndOfMsgAck and Connection Abort of a session that `x` opened towards this port's virtual node. -/
def State.tpAnswer (s : State) (port pgn dst from_ : Nat) (data : List Byte) : State :=
  if port < 32 ∨ 40 ≤ port then s else s.ownFrame (port - 32) (mkId 7 pgn dst from_) data

def State.sendCts (s : State) (x : TpSess) : TpSess × State :=
  let n := min (min 16 x.maxCts) (x.packets + 1 - x.next)
  ({ x with upTo := x.next + n - 1, due := s.time.clk + 1250 * msU },
   s.tpAnswer x.port pgnCM x.sa x.da (tpCM 17 n x.next 255 255 x.pgn))

/-- A session closes. -/
def State.cutTp (s : State) (x : TpSess) : State :=
  { s with can := { s.can with tps := s.can.tps.filter (fun y => !(y.port == x.port && y.sa == x.sa && y.da == x.da)) } }

/-- A session is discarded; one addressed to a virtual node is aborted with a reason. -/
def State.tpDrop (s : State) (x : TpSess) (counter reason : Nat) : State :=
  let s := (s.cutTp x).fcInc x.port counter
  s.when x.own (fun s => s.tpAnswer x.port pgnCM x.sa x.da (tpCM 255 reason 255 255 255 x.pgn))

/-! ### Fast packets (R277) -/

def State.dropFp (s : State) (x : FpSess) : State :=
  { s with can := { s.can with fps := s.can.fps.filter (fun y =>
      !(y.port == x.port && y.sa == x.sa && y.pgn == x.pgn && y.seq == x.seq)) } }

/-- ID_CLASH of a controller's page, for a local port. -/
def State.clashEvt (s : State) (p : Nat) : State :=
  if 32 ≤ p ∧ p < 40 then s.raise (0x20 + (p - 32)) 2 else s

/-- A session has every byte: it yields its message. -/
def State.fpDone (s : State) (m : RxMeta) (x : FpSess) : State :=
  (s.dropFp x).giveMsg m x.pgn x.pri 1 x.sa x.da x.first (x.data.take x.total)

/-- A fast-packet frame. -/
def State.fastFrame (s : State) (m : RxMeta) (id : Nat) (d : List Byte) : State :=
  let b0 := leAt d 0 1
  let seq := b0 / 32
  let c := b0 % 32
  let p := m.port
  let old := s.can.fps.find? (fun x => x.port == p && x.sa == idSa id && x.pgn == idPgn id && x.seq == seq)
  let s := s.fcInc p fcCONSUMED
  if c = 0 ∧ !(old.any (fun x => x.ctr == 0 && x.lastData == d)) then
    let s : State := match old with | some x => (s.dropFp x).fcInc p fcCLASH | none => s
    let total := leAt d 1 1
    if 512 ≤ s.can.fps.length then s.fcInc p fcFULL
    else if 223 < total ∨ total = 0 ∨ (d.length < 8 ∧ d.length < 2 + total) then s.fcInc p fcABORT
    else
      let x : FpSess := ⟨p, idSa id, idPgn id, seq, idPri id, idDa id, total, d.drop 2, 0, d, m.first, s.time.clk⟩
      let s := { s with can := { s.can with fps := s.can.fps ++ [x] } }
      if total ≤ (d.drop 2).length then s.fpDone m x else s
  else match old with
  | none => s
  | some x =>
    if c = x.ctr ∧ d = x.lastData then s
    else if c ≤ x.ctr then ((s.dropFp x).fcInc p fcCLASH).clashEvt p
    else if c ≠ x.ctr + 1 then (s.dropFp x).fcInc p fcABORT
    else
      let x' := { x with data := x.data ++ d.drop 1, ctr := c, lastData := d, lastAt := s.time.clk }
      if x.total ≤ x'.data.length then s.fpDone m x'
      else if d.length < 8 then (s.dropFp x).fcInc p fcABORT
      else { s.dropFp x with can := { (s.dropFp x).can with fps := (s.dropFp x).can.fps ++ [x'] } }

/-! ### Transport (R277) -/

def State.putTp (s : State) (x : TpSess) : State :=
  let s := s.cutTp x
  { s with can := { s.can with tps := s.can.tps ++ [x] } }

def State.findTp (s : State) (p sa da : Nat) : Option TpSess :=
  s.can.tps.find? (fun x => x.port == p && x.sa == sa && x.da == da)

/-- Open a session for a BAM or RTS, if its size is one that transport carries. -/
def State.tpOpen (s : State) (m : RxMeta) (id : Nat) (d : List Byte) (own bam : Bool) : State :=
  let size := leAt d 1 2
  let n := leAt d 3 1
  let x : TpSess := ⟨m.port, idSa id, idDa id, leAt d 5 3 % 2 ^ 18, idPri id, size, n, (if bam then 255 else leAt d 4 1), [], 1,
    (if bam then n else 0), own, m.first, s.time.clk + 750 * msU⟩
  let abort (s : State) (why : Nat) : State := s.when own (fun s => s.tpAnswer m.port pgnCM x.sa x.da (tpCM 255 why 255 255 255 x.pgn))
  let s : State := match s.findTp m.port x.sa x.da with | some y => s.tpDrop { y with own := false } fcABORT 2 | none => s
  if size < 9 ∨ 1785 < size then abort (s.fcInc m.port fcREFUSED) 9
  else if n ≠ (size + 6) / 7 then abort (s.fcInc m.port fcABORT) 250
  else if 128 ≤ s.can.tps.length then s.fcInc m.port fcFULL
  else if own then let y := s.sendCts x; y.2.putTp y.1
  else s.putTp (if bam then x else { x with upTo := n, due := s.time.clk + 1250 * msU })

/-- A TP.DT packet of a session. -/
def State.tpData (s : State) (m : RxMeta) (x : TpSess) (d : List Byte) : State :=
  let q := leAt d 0 1
  if q ≠ x.next then s.tpDrop x fcABORT 7
  else
    let x := { x with data := x.data ++ d.drop 1, next := q + 1, due := s.time.clk + 750 * msU }
    if q = x.packets then
      let s := s.cutTp x
      let s := s.when x.own (fun s => s.tpAnswer x.port pgnCM x.sa x.da (tpCM 19 (x.size % 256) (x.size / 256) x.packets 255 x.pgn))
      s.giveMsg m x.pgn x.pri (if x.da = 255 then 2 else 3) x.sa x.da x.first (x.data.take x.size)
    else if x.own && q == x.upTo then let y := s.sendCts x; y.2.putTp y.1
    else s.putTp x

/-- Is a frame one of the transport protocol's, and what comes of it; none where it is an item of its own. -/
def State.tpFrame (s : State) (m : RxMeta) (id : Nat) (d : List Byte) : Option State :=
  let p := m.port
  let sa := idSa id
  let da := idDa id
  let localVn := decide (32 ≤ p ∧ p < 40) && (s.vnHolding (p - 32) da).isSome
  let snoop := decide (32 ≤ p ∧ p < 40) && s.on (pgCAN (p - 32)) CAN_SNOOP
  let eat (s : State) : State := s.fcInc p fcCONSUMED
  let pgn := idPgn id
  if pgn = 0xC800 ∨ pgn = 0xC700 then
    let s := eat s
    if pgn = 0xC800 ∧ leAt d 0 1 = 20 then
      let s := s.icInc p icREFUSED_SIZE
      some (s.when localVn (fun s => s.tpAnswer p 0xC800 sa da (tpCM 255 2 255 255 255 (leAt d 5 3))))
    else some s
  else if pgn = pgnDT then (s.findTp p sa da).map (fun x => (eat s).tpData m x d)
  else if pgn ≠ pgnCM then none
  else match leAt d 0 1 with
  | 32 => some ((eat s).tpOpen m id d false true)
  | 16 => if localVn then some ((eat s).tpOpen m id d true false)
      else if snoop then some ((eat s).tpOpen m id d false false) else none
  | 255 =>
    match (s.findTp p sa da).or (s.findTp p da sa) with
    | some x => some ((eat s).tpDrop { x with own := false } fcABORT 0)
    | none => none
  | _ =>
    match s.findTp p da sa with
    | some x => some ((eat s).putTp { x with due := s.time.clk + 1250 * msU })
    | none => none

/-! ### Address claiming (R280, R281) -/

def State.vnName (s : State) (n v : Nat) : Nat := s.rd (pgCAN n) (vnF CAN_NAME v)

/-- Address Claimed from an address with a node's NAME. -/
def State.sendClaim (s : State) (n v sa : Nat) : State := s.ownFrame n (mkId 6 0xEE00 255 sa) (leBytes 8 (s.vnName n v))

def State.setVn (s : State) (n v sa st : Nat) : State :=
  (s.wr (pgCAN n) (vnF CAN_CUR_SA v) sa).wr (pgCAN n) (vnF CAN_VSTATE v) st

/-- Begin a claim from an address. -/
def State.claimAt (s : State) (n v sa : Nat) : State :=
  let c := s.ctl n
  let s := s.setCtl n { c with claims := c.claims.filter (fun e => e.1 != v) ++ [(v, sa, s.time.clk)] }
  (s.setVn n v 0xFE 1).sendClaim n v sa

/-- A node loses an address. -/
def State.loseAddr (s : State) (n v : Nat) : State :=
  let s := (s.inc (pgCAN n) CAN_C_ADDR_LOST).raise (0x20 + n) 4
  let c := s.ctl n
  let s := s.setCtl n { c with claims := c.claims.filter (fun e => e.1 != v) }
  let free := (List.range 120).map (· + 128) |>.find? (fun a => !c.seen.contains a)
  if (s.vnName n v).testBit 63 ∧ free.isSome then s.claimAt n v (free.getD 0)
  else (s.setVn n v 0xFE 3).ownFrame n (mkId 6 0xEE00 255 254) (leBytes 8 (s.vnName n v))

/-- The node of an enabled virtual node claims, or takes up an address already observed under its NAME (R281). -/
def State.startVn (s : State) (n v : Nat) : State :=
  if !s.on (pgCAN n) (vnF CAN_VN_EN v) || !s.canSpeaks n then s
  else
    let a := s.vnAddr n v
    if a ≠ 0xFE then (s.setVn n v a 2).sendClaim n v a
    else s.claimAt n v (s.rd (pgCAN n) (vnF CAN_PREF_SA v))

/-- Address Claimed seen on the bus. -/
def State.seeClaim (s : State) (n sa name : Nat) : State :=
  let c := s.ctl n
  let s := s.setCtl n { c with seen := insertNat sa c.seen }
  s.each (List.range 8) (fun s v =>
    if !s.on (pgCAN n) (vnF CAN_VN_EN v) then s
    else if !s.active then (if s.vnName n v = name then s.setVn n v sa (if sa = 254 then 3 else 2) else s)
    else
      let mine := match (s.ctl n).claims.find? (fun e => e.1 == v) with | some e => e.2.1 | none => s.vnAddr n v
      if mine ≠ sa ∨ sa = 254 ∨ s.vnName n v = name then s
      else if name < s.vnName n v then s.loseAddr n v
      else s.sendClaim n v sa)

/-- A Request for Address Claimed. -/
def State.claimRequest (s : State) (n da : Nat) : State :=
  s.each (List.range 8) (fun s v =>
    let a := s.vnAddr n v
    if s.on (pgCAN n) (vnF CAN_VN_EN v) && s.rd (pgCAN n) (vnF CAN_VSTATE v) == 2 && (da == 255 || da == a) then s.sendClaim n v a else s)

/-! ### One received frame -/

/-- A good frame of a port, from a local controller or tunnelled: reassembly, or an item of its own. -/
def State.canItem (s : State) (m : RxMeta) (r : List Byte) : State :=
  let id := recId r
  if !recExt r || recRtr r then s.giveCand m .can r
  else if s.isFast (idPgn id) then s.fastFrame m id (recData r)
  else match s.tpFrame m id (recData r) with
  | some s' => s'
  | none => s.giveCand m .can r

end Sys2Proof.Machine
end

