-- ==== Sys2Proof/Machine/Eth.lean ====
section
/-! DEFINITION. Machine/Eth.lean: the Ethernet ports (R284 to R291): reception in the order of R285, MACsec verification,
the raw receive path, group membership and the link. -/

namespace Sys2Proof.Machine

def State.ethOf (s : State) (e : Nat) : EthPort := (tabGet? s.eth e).getD ⟨0, 0, [], false⟩
def State.setEth (s : State) (e : Nat) (x : EthPort) : State := { s with eth := tabPut s.eth e x }

/-! ### Stamps (R164, R291) -/

/-- Ingress latency of the port's mode and rate, in 1/65 536 ns. -/
def State.ethLatency (s : State) (e : Nat) : Nat :=
  let b := pgETH e
  let t10 := match s.rd b ETH_MODE, s.rd b ETH_SPEED with
    | 1, _ => 864 | 3, _ => 512 | _, 0 => 8864 | _, 1 => 1664 | _, _ => 864
  roundDiv (t10 * nsU) 10 + (if s.rd b ETH_MODE = 2 then s.rd b ETH_PHY_RX_NS * nsU else 0)

/-- ETH_ASYM of the port in 1/65 536 ns. -/
def State.ethAsym (s : State) (e : Nat) : Int := s.rdI pgTIME (TIME_ETH_ASYM.at e 4) * nsU

/-- The ingress stamp of a frame detected in the PCS at an instant of H. -/
def State.ethIngress (s : State) (e cap : Nat) : Nat := ((cap : Int) - s.ethLatency e - s.ethAsym e).toNat

/-- Ten byte times, in ns. -/
def State.byteTime10 (s : State) (e : Nat) : Nat := [8000, 800, 80, 8].getD (s.rd (pgETH e) ETH_SPEED) 80

/-! ### The host's raw receive path (R288, R391) -/

/-- The raw receive ring of a port. -/
def State.rawRing (s : State) (e : Nat) : Option Nat :=
  (List.range 64).find? (fun r => s.on (rxringAt r) TXRING_EN && s.on (rxringAt r) TXRING_TYPE && s.rd (rxringAt r) TXRING_ETHP == e)

/-- A frame to the host with its ingress stamp, or dropped where the path is full. -/
def State.rawToHost (s : State) (e stamp : Nat) (frame : List Byte) : State :=
  match (s.rawRing e).bind s.rxFree with
  | some d => (s.fcInc (40 + e) 5).rxComplete d frame 1 1 (secOf stamp % 2 ^ 32 + nsOf stamp * 2 ^ 32)
  | none => (s.inc (pgETH e) ETH_C_RAW_DROP).raise (0x18 + e) 5

/-- A frame that is not for the Yileo (R285). -/
def State.notForUs (s : State) (e stamp : Nat) (frame : List Byte) : State :=
  if s.on (pgETH e) ETH_RAW_OTHER then s.rawToHost e stamp frame else s.inc (pgETH e) ETH_C_NOT_FOR_US

/-! ### MACsec reception (R289, R290) -/

/-- What verification leaves of a frame. -/
inductive MsOut where
  | pass (frame : List Byte)
  | drop (ctr : Fld) (key : Bool)
  deriving DecidableEq, Repr

/-- Verify a frame and advance the packet number of its association. -/
def State.msVerify (s : State) (e : Nat) (frame : List Byte) : MsOut × State :=
  let b := pgETH e
  let val := s.rd b ETH_VALIDATE
  if beAt frame 12 2 ≠ 0x88E5 then
    if val = 2 then (.drop ETH_C_MS_UNSEC false, s)
    else (.pass frame, s.when (val == 1) (·.inc b ETH_C_MS_UNSEC))
  else
    let tci := leAt frame 14 1
    let an := tci % 4
    let hasSci := tci.testBit 5
    let conf := tci.testBit 3
    let pn := beAt frame 16 4
    let hl := if hasSci then 28 else 20
    let sci := if hasSci then beAt frame 20 8 else beAt frame 6 6 * 65536 + 1
    match (List.range 8).find? (fun k => s.on b (ETH_RX_V.at k 16) && s.rd b (ETH_RX_SCI.at k 16) == sci) with
    | none =>
      if val = 2 ∨ conf then (.drop ETH_C_MS_UNSEC false, s)
      else (.pass (frame.take 12 ++ (frame.drop hl).take (frame.length - hl - 16)), s.when (val == 1) (·.inc b ETH_C_MS_UNSEC))
    | some k =>
      match (match assocKey (s.rd b (ETH_RX_KEY.at k 16)) an with | some sl => if s.slotFor sl engMACSEC then some sl else none | none => none) with
      | none => (.drop ETH_C_KEY_DROP true, s)
      | some sl =>
        let x := s.ethOf e
        let nxt := (tabGet? x.rxPn (4 * k + an)).getD 1
        let win := s.rd b ETH_REPLAY_WIN
        let body := frame.drop hl
        let data := body.take (body.length - 16)
        let iv := beBytes 8 sci ++ beBytes 4 pn
        let plain := if conf then Config.gcmOpen (s.slotKey sl) iv (frame.take hl) body
          else (Config.gcmOpen (s.slotKey sl) iv (frame.take hl ++ data) (body.drop (body.length - 16))).map (fun _ => data)
        if pn + win < nxt then (.drop ETH_C_MS_REPLAY false, s)
        else
          let adv := s.setEth e { x with rxPn := tabPut x.rxPn (4 * k + an) (max nxt (pn + 1)) }
          match plain with
          | some d => (.pass (frame.take 12 ++ d), adv)
          | none => if val = 0 ∧ !conf then (.pass (frame.take 12 ++ data), s) else (.drop ETH_C_MS_ICV false, s)

/-! ### IGMP (R287) -/

/-- An IGMPv2 Membership Report for a group. -/
def State.igmpReport (s : State) (e g : Nat) : State :=
  let b := pgETH e
  let addr := s.rd b (ETH_GADDR.at g 16)
  let z := s.fresh
  let s := z.2
  let m := beBytes 2 0x1600 ++ beBytes 2 0 ++ beBytes 4 addr
  let igmp := beBytes 2 0x1600 ++ beBytes 2 (csum16 m) ++ beBytes 4 addr
  let h0 := beBytes 2 0x46C0 ++ beBytes 2 (24 + igmp.length) ++ beBytes 2 z.1 ++ beBytes 2 0 ++ beBytes 2 0x0102
  let h1 := beBytes 4 (s.rd b ETH_IP_ADDR) ++ beBytes 4 addr ++ beBytes 4 0x94040000
  let ip := h0 ++ beBytes 2 (csum16 (h0 ++ h1)) ++ h1
  let r := s.ethSend e (s.ethFrame e 0 (mcastMac addr) 0x0800 (ip ++ igmp))
  r.2.when r.1 (·.inc b ETH_C_IGMP_TX)

/-- Groups joined for reception. -/
def State.joined (s : State) (e : Nat) : List Nat :=
  (List.range 32).filter (fun g => (s.rd (pgETH e) ETH_RX_GRP).testBit g && s.on (pgETH e) (ETH_GVALID.at g 16))

/-- Answer a general or group query. -/
def State.igmpQuery (s : State) (e group : Nat) : State :=
  s.each ((s.joined e).filter (fun g => group == 0 || s.rd (pgETH e) (ETH_GADDR.at g 16) == group)) (fun s g => s.igmpReport e g)

/-! ### Datagrams (R285, R286) -/

def tokUdPbC : List Byte := ascii "UdPbC" ++ [0#8]
def tokRaUdP : List Byte := ascii "RaUdP" ++ [0#8]
def tokRrUdP : List Byte := ascii "RrUdP" ++ [0#8]

/-- Is a UDP destination one of the port's groups, or its own address at DG_PORT? -/
def State.dgForUs (s : State) (e dst dport : Nat) : Bool :=
  let b := pgETH e
  (dst == s.rd b ETH_IP_ADDR && dport == s.rd b ETH_DG_PORT && dport != 0)
    || (s.joined e).any (fun g => s.rd b (ETH_GADDR.at g 16) == dst && s.rd b (ETH_GPORT.at g 16) == dport)

/-- Steps 6 to 9 of R285 for a UDP datagram that is taken. -/
def State.datagram (s : State) (m : RxMeta) (src dst : Nat) (udp : List Byte) : State :=
  let p := m.port
  let s := s.fcInc p 0
  let pseudo := beBytes 4 src ++ beBytes 4 dst ++ beBytes 2 17 ++ beBytes 2 udp.length
  let body := udp.drop 8
  let tok := body.take 6
  if beAt udp 6 2 ≠ 0 ∧ fold16 (sum16 (pseudo ++ udp)) ≠ 65535 then s.fcInc p 4
  else if tok = tokRaUdP ∨ tok = tokRrUdP then s.icInc p icREFUSED_SIZE
  else if tok ≠ tokUdPbC then s.fcInc p 1
  else if 2040 < body.length then s.icInc p icREFUSED_SIZE
  else s.giveCand m .datagram body

/-- An IPv4 packet without fault or option: its protocol, addresses and payload. -/
def ipParts (ip : List Byte) : Nat × Nat × Nat × List Byte :=
  (leAt ip 9 1, beAt ip 12 4, beAt ip 16 4, (ip.drop 20).take (beAt ip 2 2 - 20))

/-- A UDP packet with a length that its IPv4 packet holds. -/
def udpSound (pay : List Byte) : Bool := decide (8 ≤ beAt pay 4 2 ∧ beAt pay 4 2 ≤ pay.length)

/-- An IPv4 packet of a local port. -/
def State.ethIp (s : State) (e first fin : Nat) (frame ip : List Byte) : State :=
  match ipParts ip with
  | (proto, src, dst, pay) =>
    if beAt ip 6 2 % 16384 ≠ 0 then s.fcInc (40 + e) 2
    else if proto = 17 ∧ udpSound pay ∧ s.dgForUs e dst (beAt pay 2 2) then
      s.datagram ⟨40 + e, first, fin, true, s.rd pgTIME TIME_SEL_DOM, 0, 0, 0⟩ src dst (pay.take (beAt pay 4 2))
    else if proto = 2 ∧ s.on (pgETH e) ETH_IGMP_EN ∧ leAt pay 0 1 = 0x11 then s.igmpQuery e (beAt pay 4 4)
    else s.notForUs e first frame

/-- Is an IPv4 header sound and without options? -/
def ipSound (ip : List Byte) : Bool :=
  leAt ip 0 1 == 0x45 && decide (20 ≤ beAt ip 2 2) && decide (beAt ip 2 2 ≤ ip.length) && fold16 (sum16 (ip.take 20)) == 65535

/-- A frame tunnelled from a leaf's Ethernet port (R219): the leaf has taken it for the port's groups. -/
def State.tunFrame (s : State) (m : RxMeta) (frame : List Byte) : State :=
  let o := if beAt frame 12 2 = 0x8100 then 18 else 14
  let ip := frame.drop o
  match ipParts ip with
  | (proto, src, dst, pay) =>
    if beAt frame (o - 2) 2 ≠ 0x0800 ∨ !ipSound ip then s
    else if beAt ip 6 2 % 16384 ≠ 0 then s.fcInc m.port 2
    else if proto = 17 ∧ udpSound pay then s.datagram m src dst (pay.take (beAt pay 4 2))
    else s

/-- Is a frame's payload UDP to port 319 or 320? -/
def ptpUdp (ip : List Byte) : Bool :=
  let hl := leAt ip 0 1 % 16 * 4
  leAt ip 0 1 / 16 == 4 && leAt ip 9 1 == 17 && beAt ip 6 2 % 8192 == 0 && (beAt ip (hl + 2) 2 == 319 || beAt ip (hl + 2) 2 == 320)

/-- Steps 3 to 9 of R285, for a frame that passed FCS, length and MACsec. -/
def State.ethUpper (s : State) (e first fin : Nat) (frame : List Byte) : State :=
  let b := pgETH e
  let tagged := beAt frame 12 2 == 0x8100
  let vid := beAt frame 14 2 % 4096
  let mine := if s.on b ETH_VLAN_EN then tagged && vid == s.rd b ETH_VLAN_ID else !tagged || vid == 0
  let o := if tagged then 18 else 14
  let etype := beAt frame (o - 2) 2
  let ip := frame.drop o
  if !mine then s.notForUs e first frame
  else if etype = 0x88F7 ∨ (etype == 0x0800 && ptpUdp ip) then (s.inc b ETH_C_PTP_RX_STAMPS).rawToHost e first frame
  else if etype ≠ 0x0800 ∨ leAt ip 0 1 / 16 ≠ 4 then s.notForUs e first frame
  else if !ipSound ip then (s.inc b ETH_C_IP_HDR_ERR).notForUs e first frame
  else s.ethIp e first fin frame ip

/-- A PAUSE frame: its quanta of 512 bit times hold the transmitter from now (R284). -/
def isPause (frame : List Byte) : Bool := beAt frame 12 2 == 0x8808 && beAt frame 14 2 == 1
def State.takePause (s : State) (e : Nat) (frame : List Byte) : State :=
  let q := beAt frame 16 2 * 64 * s.byteTime10 e * nsU / 10
  (s.inc (pgETH e) ETH_C_PAUSE_RX).setEth e { s.ethOf e with pauseFrom := s.time.h, pauseTo := s.time.h + q }

/-- ETH_FRAME_RX (R285): a frame from destination address to the end of its payload, whether its FCS is right, and the
instant of H at which its start frame delimiter was detected, `ago` before this command. -/
def State.ethRx (s : State) (e ago : Nat) (fcsGood : Bool) (frame : List Byte) : State :=
  let b := pgETH e
  if s.rd b ETH_MODE = 0 ∨ !s.on b ETH_LINK ∨ s.portDown (40 + e) ∨ s.on b PG_IN_RESET then s
  else
    let s := s.inc b ETH_C_FRAMES_RX
    let n := frame.length + 4
    let s := s.when (s.on (ingestAt (40 + e)) INGEST_RX_EN) (·.icAdd (40 + e) icBYTES n)
    let lim := s.rd b ETH_MAX_FRAME + if beAt frame 12 2 = 0x8100 then 4 else 0
    let first := s.ethIngress e (s.time.h - ago)
    let fin := first + n * s.byteTime10 e * nsU / 10
    if !fcsGood then s.inc b ETH_C_FCS_ERR
    else if n < 64 then s.inc b ETH_C_RUNT
    else if lim < n then s.inc b ETH_C_OVERSIZE
    else if s.on b ETH_PAUSE_RX && isPause frame then s.takePause e frame
    else if s.on b ETH_MACSEC_EN then
      match s.msVerify e frame with
      | (.pass f, s') => s'.ethUpper e first fin f
      | (.drop c key, s') => (s'.inc b c).when key (·.raise (0x18 + e) 4)
    else s.ethUpper e first fin frame

def execEthFrameRx (t : Nat) (port ago : Nat) (fcsGood : Bool) (frame : List Byte) (s : State) :
    Host.Outcome State Fault Refusal :=
  s.happen t (·.ethRx (port % 2) ago fcsGood frame)

/-! ### The link (R284) -/

/-- ETH_LINK_UP: `speed` is what SGMII negotiated; the other modes have one rate. -/
def State.ethUp (s : State) (e speed : Nat) : State :=
  let b := pgETH e
  let m := s.rd b ETH_MODE
  if m = 0 ∨ s.on b ETH_LINK ∨ s.portDown (40 + e) ∨ s.on b PG_IN_RESET then s
  else
    let s := (s.wr b ETH_LINK 1).wr b ETH_SPEED (match m with | 1 => 2 | 3 => 3 | _ => speed)
    let s := s.setEth e { s.ethOf e with signal := true }
    (s.wrB b ETH_AN_DONE (m != 3 && s.on b ETH_AN_EN)).raise (0x18 + e) 0

def execEthLinkUp (t : Nat) (port speed : Nat) (s : State) : Host.Outcome State Fault Refusal :=
  s.happen t (·.ethUp (port % 2) (speed % 3))

def State.ethDown (s : State) (e : Nat) : State :=
  let b := pgETH e
  if s.on b ETH_LINK then ((s.wr b ETH_LINK 0).wr b ETH_AN_DONE 0).raise (0x18 + e) 1 else s

def execEthLinkDown (t : Nat) (port : Nat) (s : State) : Host.Outcome State Fault Refusal :=
  s.happen t (·.ethDown (port % 2))

/-- GROUP_JOIN: a write of RX_GRP; each group joined is reported with IGMP_EN 1. -/
def State.groupJoin (s : State) (e w : Nat) : State :=
  s.blkGuard (0x18 + e) false (fun s =>
    let was := s.joined e
    let s := s.wr (pgETH e) ETH_RX_GRP w
    s.when (s.on (pgETH e) ETH_IGMP_EN && s.on (pgETH e) ETH_LINK)
      (fun s => s.each ((s.joined e).filter (fun g => !was.contains g)) (fun s g => s.igmpReport e g)))

def execGroupJoin (t : Nat) (port : Nat) (groups : Word) (s : State) : Host.Outcome State Fault Refusal :=
  s.happen t (·.groupJoin (port % 2) groups.toNat)

end Sys2Proof.Machine
end

