-- ==== Sys2Proof/Machine/HostCmd.lean ====
section
/-! DEFINITION. Machine/HostCmd.lean: the host interface (R371 to R402): events and vectors, the pop window, descriptor
rings, remote access slots, accesses that are refused, and the reset of the interface. -/

namespace Sys2Proof.Machine

/-! ### Pages (R381) -/

/-- Pages that the page index lists. -/
def pageListed (p : Nat) : Bool :=
  decide (p ≤ 8) || decide (0x10 ≤ p ∧ p ≤ 0x14) || decide (0x18 ≤ p ∧ p ≤ 0x19) || decide (0x20 ≤ p ∧ p ≤ 0x27)
    || decide (0x40 ≤ p ∧ p ≤ 0x70) || decide (0x80 ≤ p ∧ p ≤ 0x92) || decide (0xA0 ≤ p ∧ p ≤ 0xA3)

/-- A header write of a page: a page that is not listed takes none (R375). -/
def State.hdrGuard (s : State) (page : Nat) (f : State → State) : State := s.when (pageListed page) f

/-- PG_EVT_CLEAR (R383): a W1C write of PG_EVT; EVT_SUM follows. -/
def execPgEvtClear (t : Nat) (page : Nat) (word : Word) (s : State) : Host.Outcome State Fault Refusal :=
  s.happen t (·.hdrGuard (page % 256) (fun s =>
    let b := pgAt (page % 256)
    let old := s.rd b PG_PG_EVT
    (s.wr b PG_PG_EVT (old - (old &&& word.toNat))).evtSum (page % 256)))

/-- PG_EVT_EN_WRITE (R383): a bit already set whose enable goes from 0 to 1 asks for its message and record. -/
def execPgEvtEnWrite (t : Nat) (page : Nat) (word : Word) (s : State) : Host.Outcome State Fault Refusal :=
  s.happen t (·.hdrGuard (page % 256) (fun s =>
    let p := page % 256
    let old := s.rd (pgAt p) PG_PG_EVT_EN
    let evt := s.rd (pgAt p) PG_PG_EVT
    let s := (s.wr (pgAt p) PG_PG_EVT_EN word.toNat).evtSum p
    s.each ((List.range 32).filter (fun b => word.toNat.testBit b && !old.testBit b && evt.testBit b)) (fun s b => s.evtNotify p b)))

/-- MSIX_HOLDOFF_END (R384): requests merged within the holdoff go as one message. -/
def State.holdoffEnd (s : State) (v : Nat) : State :=
  let hold := s.rd pgHOST (HOST_VEC_HOLDOFF_US.at v 4) * usU
  let due := match tabGet? s.host.vecLast v with | some l => decide (l + hold ≤ s.time.clk) | none => true
  if s.host.vecWait.contains v && due then
    let s := { s with host := { s.host with vecWait := s.host.vecWait.filter (· != v) } }
    if s.on pgHOST (msixMask v) then s.wr pgHOST (pbaBit v) 1 else s.msixSend v
  else s

def execMsixHoldoffEnd (t : Nat) (vec : Nat) (s : State) : Host.Outcome State Fault Refusal :=
  s.happen t (·.holdoffEnd (vec % 64))

/-- MSIX_UNMASK (R384): the Mask bit of a vector is cleared; a pending vector asks for one message. -/
def execMsixUnmask (t : Nat) (vec : Nat) (s : State) : Host.Outcome State Fault Refusal :=
  s.happen t (·.blkGuard 1 false (fun s =>
    let v := vec % 64
    let s := s.wr pgHOST (msixMask v) 0
    if s.on pgHOST (pbaBit v) then (s.wr pgHOST (pbaBit v) 0).msixReq v else s))

/-! ### The pop window (R394, R395) -/

/-- A pop record as 64 bits, with its PSEQ. -/
def popValue (r : PopRec) (pseq : Nat) : Nat :=
  r.ns + 2 ^ 32 + 2 ^ 34 * r.ovf.toNat + 2 ^ 35 * r.bit + 2 ^ 40 * r.page + 2 ^ 48 * pseq

/-- POP_READ: a 64-bit read of the pop register. With the FIFO empty VALID is 0 and PSEQ the last; the other fields,
which no rule gives, are a free value. -/
def State.pop (s : State) : State :=
  match s.host.pop with
  | [] =>
    let x := s.fresh
    let v := x.1 % 2 ^ 48
    x.2.emit (.popCpl (v - (v &&& (3 * 2 ^ 32)) + 2 ^ 48 * s.host.pseq))
  | r :: l =>
    let q := (s.host.pseq + 1) % 65536
    let v := popValue r q
    let s := { s with host := { s.host with pop := l, pseq := q } }
    let s := (s.wr popAt (POP_RECOV.at (q % 16) 8) v).wr popAt POP_POP_LVL l.length
    (s.inc pgHOST HOST_C_POP_READS).emit (.popCpl v)

def execPopRead (t : Nat) (s : State) : Host.Outcome State Fault Refusal :=
  s.happen t (·.pop)

/-! ### Accesses that are refused (R373, R379) -/

/-- UNSUPPORTED_ACCESS. -/
def execUnsupportedAccess (t : Nat) (addr : Nat) (s : State) : Host.Outcome State Fault Refusal :=
  s.happen t (fun s =>
    let s := (s.wr pgHOST HOST_UR_ADDR addr).inc pgHOST HOST_C_UR_CPL
    (s.emit (.hostUR (addr % 2 ^ 24))).raise 1 6)

/-- HOLE_ACCESS. -/
def execHoleAccess (t : Nat) (addr : Nat) (s : State) : Host.Outcome State Fault Refusal :=
  s.happen t (fun s => ((s.wr pgHOST HOST_HOLE_ADDR addr).inc pgHOST HOST_C_HOLE_ACCESS).raise 1 5)

/-- POISONED_WRITE: discarded and counted; the report through AER is PCI Express's own. -/
def execPoisonedWrite (t : Nat) (s : State) : Host.Outcome State Fault Refusal :=
  s.happen t (·.inc pgHOST HOST_C_POISONED_WR)

/-! ### Ring registers (R386, R387) -/

/-- Entry `k` after a write is illegal (R386). `old` is the state before it. -/
def State.ringBad (s old : State) (k : Nat) : Bool :=
  let b := ringAt k
  let en := s.on b TXRING_EN
  let fixed := old.on b TXRING_EN || old.on b TXRING_RUNNING
  let moved := [TXRING_TYPE, TXRING_ETHP, TXRING_LOG2_SIZE, TXRING_BASE].any (fun f => s.rd b f != old.rd b f)
  let second := decide (64 ≤ k) && en && s.ringRaw k && (List.range 64).any (fun r =>
    r + 64 != k && s.on (rxringAt r) TXRING_EN && s.on (rxringAt r) TXRING_TYPE && s.rd (rxringAt r) TXRING_ETHP == s.rd b TXRING_ETHP)
  (fixed && moved) || decide (2 ^ s.rd b TXRING_LOG2_SIZE ≤ s.rd b TXRING_TAIL) || second
    || (en && (decide (s.rd b TXRING_LOG2_SIZE < 3) || s.rd b TXRING_BASE % descSize k != 0))

/-- RING_ENABLE: a write of word 0x00 of a ring's entry. Setting EN clears FAULT and starts fetching. -/
def State.ringWrite (s : State) (k w : Nat) : State :=
  let b := ringAt k
  let new := s.setWord b rows_TXRING 0 w
  if new.ringBad s k then s.refuse 1 errILLEGAL
  else
    let s := new.when (!s.on b TXRING_EN && new.on b TXRING_EN) (·.wr b TXRING_FAULT 0)
    s.fetchRing k

def execRingEnable (t : Nat) (ring : Nat) (rx : Bool) (word : Word) (s : State) : Host.Outcome State Fault Refusal :=
  s.happen t (·.winGuard 1 false (·.ringWrite (ring % 64 + 64 * rx.toNat) word.toNat))

/-- A TAIL write: the descriptors it hands over were submitted now. -/
def State.doorbell (s : State) (k tail : Nat) : State :=
  let b := ringAt k
  let tail := tail % 32768
  if s.ringSize k ≤ tail then s.refuse 1 errILLEGAL
  else if tail = s.rd b TXRING_TAIL then s
  else
    let s := s.wr b TXRING_TAIL tail
    let bell := (tail, s.time.h, s.rd pgTIME TIME_SEL_DOM)
    let s := { s with host := { s.host with bells := tabPut s.host.bells k ((tabGet? s.host.bells k).getD [] ++ [bell]) } }
    s.fetchRing k

def execTxRingDoorbell (t : Nat) (ring tail : Nat) (s : State) : Host.Outcome State Fault Refusal :=
  s.happen t (·.winGuard 1 false (·.doorbell (ring % 64) tail))
def execRxRingDoorbell (t : Nat) (ring tail : Nat) (s : State) : Host.Outcome State Fault Refusal :=
  s.happen t (·.winGuard 1 false (·.doorbell (64 + ring % 64) tail))

/-! ### Fetches (R387 to R391) -/

/-- Refuse a submission before admission. -/
def State.submitRefused (s : State) (d : TxDesc) (status : Nat) : State :=
  s.wbWrite status 0 0 (d.sub / nsU) d.dom false (wbNew d.ring d.idx)

/-- A transmit descriptor has arrived, for an item ring with its header: the header is judged (R389). -/
def State.txDescIn (s : State) (d : TxDesc) (raw hdr : List Byte) : State :=
  let raw := fixLen 16 raw
  let hdr := fixLen 32 hdr
  let s := s.inc pgHOST HOST_C_DESC_FETCHED
  if s.ringRaw d.ring then s.putTxDesc { d with raw := raw, phase := 1 }
  else
    let d := { d with raw := raw, hdr := hdr, phase := 1 }
    let s := (s.putTxDesc d).icInc 59 icCAND
    let len := leAt hdr 0 2
    let kind := leAt hdr 2 1
    if kind = 0 ∨ 9 ≤ kind then s.submitRefused d 0x10
    else if 2040 < len then (s.icInc 59 icREFUSED_SIZE).submitRefused d 6
    else if leAt raw 8 2 ≠ 32 + len then s.submitRefused d 0x10
    else s.icInc 59 icITEMS

/-- A receive descriptor has arrived: free for use, or short and completed with BUF_ERR (R391). -/
def State.rxDescIn (s : State) (d : RxDesc) (raw : List Byte) : State :=
  let d := { d with addr := leAt raw 0 8, len := leAt raw 8 2, ready := true }
  let s := s.inc pgHOST HOST_C_DESC_FETCHED
  let k := 64 + d.ring
  let least := if s.ringRaw k then s.rd (pgETH (s.rd (ringAt k) TXRING_ETHP)) ETH_MAX_FRAME else 2072
  if d.len < least then (s.inc pgHOST HOST_C_BUF_ERR).rxComplete d [] 5 0 0
  else { s with host := { s.host with rxd := s.host.rxd.map (fun e => if e.ring == d.ring && e.idx == d.idx then d else e) } }

def State.rxDesc? (s : State) (r idx : Nat) : Option RxDesc := s.host.rxd.find? (fun d => d.ring == r && d.idx == idx)

/-- DESCRIPTOR_FETCH_DONE: bytes 0 to 15 of a descriptor, and for a transmit item ring the 32 bytes of its header. -/
def execDescriptorFetchDone (t : Nat) (rx : Bool) (ring idx : Nat) (raw hdr : List Byte) (s : State) :
    Host.Outcome State Fault Refusal :=
  s.happen t (fun s =>
    if rx then
      match s.rxDesc? (ring % 64) idx with
      | some d => if d.ready then s else s.rxDescIn d raw
      | none => s
    else match s.txDesc? (ring % 64) idx with
      | some d => if d.phase = 0 then s.txDescIn d raw hdr else s
      | none => s)

/-- The candidate of a submission (R34, R389): ingest is the end of its buffer fetch. -/
def State.hostCand (s : State) (d : TxDesc) (body : List Byte) : Cand :=
  { id := s.candNo, port := 59, src := .host, remote := false, body := body, cfg := { s.portCfg 59 with stampPt := 0 }
    first := d.sub, sent := d.sub, fin := d.sub, ingest := s.time.h, born := s.time.clk, timeOk := true, dom := d.dom
    path256 := 0, words := 0, poison := false, leaf := 0, iseq := 0
    host := [leAt d.hdr 3 1 % 8, leAt d.hdr 24 4, leAt d.hdr 28 2, leAt d.hdr 2 1, d.ring, d.idx] }

/-- BUFFER_FETCH_DONE: the body of a submission, or the frame of a raw descriptor. -/
def State.bufferIn (s : State) (d : TxDesc) (data : List Byte) : State :=
  if s.ringRaw d.ring then s.putTxDesc { d with hdr := data, phase := 2 }
  else
    let body := fixLen (leAt d.hdr 0 2) data
    let s := ((s.inc pgHOST HOST_C_SUBMITTED).icAdd 59 icBYTES body.length).putTxDesc { d with phase := 2 }
    let r := s.rxOf 59
    { (s.setRx 59 { r with cands := r.cands ++ [s.hostCand d body] }) with candNo := s.candNo + 1 }

def execBufferFetchDone (t : Nat) (ring idx : Nat) (data : List Byte) (s : State) : Host.Outcome State Fault Refusal :=
  s.happen t (fun s =>
    match s.txDesc? (ring % 64) idx with
    | some d => if d.phase = 1 then s.bufferIn d data else s
    | none => s)

/-- FETCH_ERROR (R387): the descriptor completes with FETCH_ERR and the ring stops. -/
def State.fetchFails (s : State) (k idx : Nat) : State :=
  let s := ((s.inc pgHOST HOST_C_FETCH_ERR).wr (ringAt k) TXRING_FAULT 1).raise 1 0
  if k < 64 then
    match s.txDesc? k idx with
    | some d =>
      if d.raw.isEmpty then
        let s := s.hostWrite (s.descAddr k idx + 11) [3#8]
        (s.when (!s.ringRaw k) (fun s => s.wr pgHOST HOST_OUTSTANDING (s.rd pgHOST HOST_OUTSTANDING - 1))).descDone k idx
      else s.txComplete k idx 3 []
    | none => s
  else ((s.hostWrite (s.descAddr k idx + 11) [3#8]).descDone k idx).msixReq (s.rd (ringAt k) TXRING_VEC)

def execFetchError (t : Nat) (rx : Bool) (ring idx : Nat) (s : State) : Host.Outcome State Fault Refusal :=
  s.happen t (fun s =>
    let r := ring % 64
    if rx then (if (s.rxDesc? r idx).any (fun d => !d.ready) then s.fetchFails (64 + r) idx else s)
    else if (s.txDesc? r idx).any (fun d => decide (d.phase < 2)) then s.fetchFails r idx else s)

/-! ### Raw frames (R288, R290 to R292, R390) -/

/-- Egress latency of the port's mode and rate, in 1/65 536 ns (R291). -/
def State.ethEgLatency (s : State) (e : Nat) : Nat :=
  let b := pgETH e
  let t10 := match s.rd b ETH_MODE, s.rd b ETH_SPEED with
    | 1, _ => 544 | 3, _ => 384 | _, 0 => 8544 | _, 1 => 1344 | _, _ => 544
  roundDiv (t10 * nsU) 10 + (if s.rd b ETH_MODE = 2 then s.rd b ETH_PHY_TX_NS * nsU else 0)

/-- The egress stamp of a frame detected in the PCS at an instant of H. -/
def State.ethEgress (s : State) (e cap : Nat) : Nat := ((cap : Int) + s.ethEgLatency e - s.ethAsym e).toNat

/-- A PTP event message: message types 0 to 3, on EtherType 0x88F7 or UDP port 319. -/
def isPtpEvent (frame : List Byte) : Bool :=
  let o := if beAt frame 12 2 = 0x8100 then 18 else 14
  let ip := frame.drop o
  let hl := leAt ip 0 1 % 16 * 4
  let et := beAt frame (o - 2) 2
  (et == 0x88F7 && decide (leAt ip 0 1 % 16 ≤ 3))
    || (et == 0x0800 && leAt ip 0 1 / 16 == 4 && leAt ip 9 1 == 17 && beAt ip 6 2 % 8192 == 0 && beAt ip (hl + 2) 2 == 319
        && decide (leAt ip (hl + 8) 1 % 16 ≤ 3))

/-- Complete a raw transmit descriptor with RSTATUS and, of an event message, its egress stamp in ns. -/
def State.rawDone (s : State) (d : TxDesc) (rstatus : Nat) (stamp : Option Nat) : State :=
  let x := stamp.getD 0
  s.txComplete d.ring d.idx 1 (leBytes 1 rstatus ++ leBytes 1 stamp.isSome.toNat ++ leBytes 6 0 ++ leBytes 8 (x / 1000000000)
    ++ leBytes 4 (x % 1000000000) ++ leBytes 28 0)

/-- A raw frame leaves its port, its stamp point detected at an instant of H, or fails. -/
def State.rawSend (s : State) (d : TxDesc) (cap : Nat) : State :=
  let e := s.rd (ringAt d.ring) TXRING_ETHP
  let b := pgETH e
  let lim := s.rd b ETH_MAX_FRAME - if beAt d.hdr 12 2 = 0x8100 then 0 else 4
  if s.rd b ETH_MODE = 0 ∨ s.portDown (40 + e) then s.rawDone d 5 none
  else if lim < d.hdr.length then s.rawDone d 3 none
  else if !s.on b ETH_LINK then s.rawDone d 1 none
  else if s.ethPaused e cap ∨ !s.pnLeft e then s
  else
    let ev := isPtpEvent d.hdr
    match s.ethSend e d.hdr with
    | (true, s) =>
      let s := (s.inc pgHOST HOST_C_RAW_TX).when ev (·.inc b ETH_C_PTP_TX_STAMPS)
      s.rawDone d 0 (if ev then some (s.ethEgress e cap / nsU) else none)
    | (false, s) => s.rawDone d 2 none

/-- RAW_FRAME_SENT: `ago` is the time since the stamp point, in 1/65 536 ns. -/
def execRawFrameSent (t : Nat) (ring idx ago : Nat) (s : State) : Host.Outcome State Fault Refusal :=
  s.happen t (fun s =>
    match s.txDesc? (ring % 64) idx with
    | some d => if d.phase = 2 ∧ s.ringRaw d.ring then s.rawSend d (s.time.h - ago) else s
    | none => s)

/-! ### Remote access slots (R396 to R398) -/

/-- A GO on an IDLE slot: the request, or a completion at once. -/
def State.raStart (s : State) (k : Nat) : State :=
  let b := raAt k
  let size := s.rd b RA_SIZE
  let addr := s.rd b RA_ADDR
  let wr := s.on b RA_WR
  let s := (s.wr b RA_STATE 1).add pgHOST HOST_SLOTS_BUSY 1
  let s := { s with host := { s.host with raAt := tabPut s.host.raAt k s.time.clk } }
  if wr && !s.active then s.raDone k stEPOCH_STALE []
  else if !([4, 8, 16, 32, 64].contains size) || addr % size != 0 then s.raDone k stSIZE []
  else
    let data := ((List.range 16).flatMap (fun i => leBytes 4 (s.rd b (RA_DATA.at i 4)))).take size
    s.issue ⟨s.rd b RA_NODE, wr, size, addr, if wr then data else [], .ra k⟩

/-- RA_GO: a write of word 0x00 of a slot with GO 1. -/
def State.raGo (s : State) (k w : Nat) : State :=
  let b := raAt k
  let node := bits w 15 8
  if s.rd b RA_STATE ≠ 0 ∨ node = 0 ∨ 250 < node then s.refuse 1 errILLEGAL
  else ((((s.wr b RA_WR (w / 4)).wr b RA_IRQ (w / 8)).wr b RA_NODE node).wr b RA_SIZE (w / 65536)).raStart k

def execRaGo (t : Nat) (slot : Nat) (word : Word) (s : State) : Host.Outcome State Fault Refusal :=
  s.happen t (·.winGuard 1 false (·.raGo (slot % 32) word.toNat))

/-- RA_ACK: a DONE slot returns to IDLE. -/
def execRaAck (t : Nat) (slot : Nat) (s : State) : Host.Outcome State Fault Refusal :=
  let b := raAt (slot % 32)
  s.happen t (·.winGuard 1 false (fun s =>
    if s.rd b RA_STATE = 2 then (s.wr b RA_STATE 0).wr pgHOST HOST_SLOTS_BUSY (s.rd pgHOST HOST_SLOTS_BUSY + 31) else s))

/-! ### Reset of the host interface (R374) -/

/-- Registers between two offsets of BAR0 take their reset values. -/
def State.wipeRegs (s : State) (lo hi : Nat) : State :=
  { s with regs := s.regs.filter (fun c => decide (c.1 < 8 * lo) || decide (8 * hi ≤ c.1)) }

/-- Host candidates that no admission has taken are discarded with their descriptors; the write-backs of items admitted
have no descriptor any more. -/
def State.dropHostCands (s : State) : State :=
  let s := s.setRx 59 { s.rxOf 59 with cands := [] }
  let lose (i : LItem) : LItem := { i with wb := i.wb.map (fun w => { w with ring := 64 }) }
  let s := { s with del := { s.del with items := s.del.items.map (fun (e : Nat × LItem) => (e.1, lose e.2)) } }
  { s with anvils := s.anvils.filter (fun (e : Nat × Built) => e.2.cand.src != .host) }

/-- Every remote access slot returns to IDLE; the results of requests in flight are discarded. -/
def State.orphanSlots (s : State) : State :=
  let isRa (o : Origin) : Bool := match o with | .ra _ => true | _ => false
  let s := { s with ring := { s.ring with
    waiting := s.ring.waiting.filter (fun r => !isRa r.origin)
    tags := s.ring.tags.map (fun (e : Nat × Nat × Req) => (e.1, e.2.1, if isRa e.2.2.origin then { e.2.2 with origin := .orphan } else e.2.2)) } }
  let s := s.each (List.range 32) (fun s k => s.wr (raAt k) RA_STATE 0)
  { s with host := { s.host with raAt := [] } }.wr pgHOST HOST_SLOTS_BUSY 0

def State.hostReset (s : State) : State :=
  let h := s.host
  let s := { s with host := { h with vecLast := [], vecWait := [], next := [], bells := [], txd := [], rxd := [], doneIdx := [] } }
  let s := s.dropHostCands.orphanSlots
  let s := (s.wipeRegs 0xE80000 0xE82000).wipeRegs 0x13F8 0x1800
  let s := ((s.wr pgHOST PG_LOCK 0).wr pgHOST PG_FREEZE 0).wr pgHOST PG_TEST_MODE 0
  (s.wr pgHOST HOST_OUTSTANDING 0).raise 1 7

/-- HOST_INTERFACE_RESET by PERST, hot reset, link-down, FLR or D3hot. -/
def execHostInterfaceReset (t : Nat) (s : State) : Host.Outcome State Fault Refusal :=
  s.happen t (·.hostReset)

end Sys2Proof.Machine
end

