-- ==== Sys2Proof/Machine/Counters.lean ====
section
/-! DEFINITION. Machine/Counters.lean: snapshots and clears of the counters of pages and tables (R65). -/

namespace Sys2Proof.Machine

/-- Copy every cell whose byte address `src` selects to the place `delta` bytes above; cells there that have no source
return to 0. -/
def State.snapCells (s : State) (src : Nat → Bool) (delta : Nat) : State :=
  let hit := s.regs.filter (fun c => src (c.1 / 8))
  let rest := s.regs.filter (fun c => decide (c.1 / 8 < delta) || !src (c.1 / 8 - delta))
  { s with regs := hit.foldl (fun l c => regIns (c.1 + 8 * delta) c.2 l) rest }

/-- Every cell that `src` selects returns to 0. -/
def State.clearCells (s : State) (src : Nat → Bool) : State := { s with regs := s.regs.filter (fun c => !src (c.1 / 8)) }

/-- Byte addresses from `lo` up to `hi`. -/
def span (lo hi a : Nat) : Bool := decide (lo ≤ a ∧ a < hi)

/-- SNAP and CLEAR of a set of counters, as written. -/
def State.snapClear (s : State) (snap clear : Bool) (src : Nat → Bool) (delta : Nat) : State :=
  (s.when snap (·.snapCells src delta)).when clear (·.clearCells src)

/-- Pages whose writes the admission log carries (R250): AXIS, FLOW, RULE, CONC, LARD and BELL. -/
def pageCarried (p : Nat) : Bool := p == 7 || decide (0x90 ≤ p ∧ p ≤ 0x92) || p == 0xA0 || p == 0xA1

/-- A write of the word `w` at offset `off` of a page, which acts as `f` and is carried where the page is. -/
def State.pageAct (s : State) (page off w : Nat) (f : State → State) : State :=
  s.blkGuard page (pageCarried page) (fun s => (f s).when (pageCarried page) (·.logDelta (pgAt page + off) w))

/-- The SNAP field of each page that has counters; CLEAR is the bit above it. -/
def snapFld (p : Nat) : Option Fld :=
  match p with
  | 0 => some SYS_SNAP | 1 => some HOST_SNAP | 2 => some PWR_SNAP | 3 => some TEST_SNAP | 4 => some ATTC_SNAP
  | 5 => some SBOX_SNAP | 6 => some TIME_SNAP | 7 => some AXIS_SNAP | 8 => some TWIN_SNAP | 0x14 => some RING_SNAP
  | 0x70 => some TONGS_SNAP | 0x90 => some FLOW_SNAP | 0x91 => some RULE_SNAP | 0x92 => some CONC_SNAP
  | 0xA0 => some LARD_SNAP | 0xA1 => some BELL_SNAP | 0xA2 => some CELL_SNAP | 0xA3 => some JRNL_SNAP
  | _ =>
    if 0x10 ≤ p ∧ p ≤ 0x13 then some RINGP_SNAP else if 0x18 ≤ p ∧ p ≤ 0x19 then some ETH_SNAP
    else if 0x20 ≤ p ∧ p ≤ 0x27 then some CAN_SNAP else if 0x40 ≤ p ∧ p ≤ 0x5F then some UART_SNAP
    else if 0x60 ≤ p ∧ p ≤ 0x6F then some TONG_SNAP else if 0x80 ≤ p ∧ p ≤ 0x8F then some ANV_SNAP else none

/-- A page's counters lie from 0x800 and their snapshots from 0xC00. -/
def State.pageCtrs (s : State) (page : Nat) (snap clear : Bool) : State :=
  match snapFld page with
  | some f =>
    s.pageAct page f.off ((snap.toNat + 2 * clear.toNat) * 2 ^ f.lo)
      (·.snapClear snap clear (span (pgAt page + 0x800) (pgAt page + 0xC00)) 0x400)
  | none => s

/-- SNAP; `clear` when CLEAR is written with it. -/
def execSnap (t : Nat) (page : Nat) (clear : Bool) (s : State) : Host.Outcome State Fault Refusal :=
  s.happen t (·.pageCtrs (page % 256) true clear)

def execClear (t : Nat) (page : Nat) (s : State) : Host.Outcome State Fault Refusal :=
  s.happen t (·.pageCtrs (page % 256) false true)

/-- Ingest counters (R63, R66): 512 bytes a port, snapshots 256 bytes above. -/
def State.ingestCtrs (s : State) (port : Nat) (all snap clear : Bool) : State :=
  s.blkGuard 0x80 true (fun s =>
    let src (a : Nat) : Bool := span 0x400000 0x500000 a && decide (a % 512 < 256)
      && (all || decide ((a - 0x400000) / 512 = port))
    let s := s.snapClear snap clear src 256
    s.logDelta (pgAt 0x80 + 0x160) (port + snap.toNat * 2 ^ 16 + clear.toNat * 2 ^ 17 + all.toNat * 2 ^ 18))

def execPsnap (t : Nat) (port : Nat) (all clear : Bool) (s : State) : Host.Outcome State Fault Refusal :=
  s.happen t (·.ingestCtrs (port % 2048) all true clear)

def execPclear (t : Nat) (port : Nat) (all : Bool) (s : State) : Host.Outcome State Fault Refusal :=
  s.happen t (·.ingestCtrs (port % 2048) all false true)

/-- The entries of a counter window: `n` entries of `step` bytes from `base`, one of them or all. -/
def entries (base step n i : Nat) (all : Bool) (a : Nat) : Bool :=
  span base (base + step * n) a && (all || decide ((a - base) / step = i))

/-- Flow counters on page 0x090 and rule counters on page 0x091 (R90, R91). -/
def State.flowCtrs (s : State) (rule : Bool) (i : Nat) (all snap clear : Bool) : State :=
  let w := i + snap.toNat * 2 ^ 16 + clear.toNat * 2 ^ 17 + all.toNat * 2 ^ 18
  if rule then s.pageAct 0x91 0x50 w (·.snapClear snap clear (entries 0x220000 32 2048 (i % 2048) all) 0x10000)
  else s.pageAct 0x90 0x50 w (·.snapClear snap clear (entries 0x500000 32 16384 i all) 0x80000)

def execFsnap (t : Nat) (rule : Bool) (index : Nat) (all clear : Bool) (s : State) : Host.Outcome State Fault Refusal :=
  s.happen t (·.flowCtrs rule (index % 16384) all true clear)

def execFclear (t : Nat) (rule : Bool) (index : Nat) (all : Bool) (s : State) : Host.Outcome State Fault Refusal :=
  s.happen t (·.flowCtrs rule (index % 16384) all false true)

/-- Concord counters (R111). -/
def State.groupCtrs (s : State) (g : Nat) (all snap clear : Bool) : State :=
  s.pageAct 0x92 0x50 (g + snap.toNat * 2 ^ 16 + clear.toNat * 2 ^ 17 + all.toNat * 2 ^ 18)
    (·.snapClear snap clear (entries 0x260000 64 512 g all) 0x8000)

def execGsnap (t : Nat) (group : Nat) (all clear : Bool) (s : State) : Host.Outcome State Fault Refusal :=
  s.happen t (·.groupCtrs (group % 512) all true clear)

def execGclear (t : Nat) (group : Nat) (all : Bool) (s : State) : Host.Outcome State Fault Refusal :=
  s.happen t (·.groupCtrs (group % 512) all false true)

/-- After a clear DEPTH_HW is the highest DEPTH since then: DEPTH itself. -/
def State.hwClear (s : State) (q : Nat) (all : Bool) : State :=
  let s := s.clearCells (fun a => span 0x920000 0x9A0000 a && decide (a % 32 = 8) && (all || decide ((a - 0x920000) / 32 = q)))
  s.each (s.del.queues.filter (fun e => all || e.1 == q)) (fun s e => s.wr (queueAt e.1) QUEUE_DEPTH_HW e.2.length)

/-- Queue counters (R152). -/
def State.queueCtrs (s : State) (q : Nat) (all snap clear : Bool) : State :=
  s.pageAct 0xA1 0x6C (q + snap.toNat * 2 ^ 16 + clear.toNat * 2 ^ 17 + all.toNat * 2 ^ 20) (fun s =>
    (s.snapClear snap clear (entries 0xA00000 64 16384 q all) 0x100000).when clear (·.hwClear q all))

def execQsnap (t : Nat) (queue : Nat) (all clear : Bool) (s : State) : Host.Outcome State Fault Refusal :=
  s.happen t (·.queueCtrs (queue % 16384) all true clear)

def execQclear (t : Nat) (queue : Nat) (all : Bool) (s : State) : Host.Outcome State Fault Refusal :=
  s.happen t (·.queueCtrs (queue % 16384) all false true)

/-- Disposition counters of flows (R152). -/
def State.dispCtrs (s : State) (f : Nat) (all snap clear : Bool) : State :=
  s.pageAct 0xA1 0x6C (f + snap.toNat * 2 ^ 18 + clear.toNat * 2 ^ 19 + all.toNat * 2 ^ 20)
    (·.snapClear snap clear (entries 0xC00000 64 16384 f all) 0x100000)

def execDispositionFsnap (t : Nat) (flow : Nat) (all clear : Bool) (s : State) : Host.Outcome State Fault Refusal :=
  s.happen t (·.dispCtrs (flow % 16384) all true clear)

def execDispositionFclear (t : Nat) (flow : Nat) (all : Bool) (s : State) : Host.Outcome State Fault Refusal :=
  s.happen t (·.dispCtrs (flow % 16384) all false true)

/-- FIFO counters of a port (R329): 0x20 and 0x28 with snapshots at 0x30 and 0x38. Entries 58 to 63 take no write. -/
def State.fifoCtrs (s : State) (p : Nat) (snap clear : Bool) : State :=
  if 58 ≤ p ∧ p < 64 then s
  else s.winGuard 0x80 false (·.snapClear snap clear (span (fifoAt p + 0x20) (fifoAt p + 0x30)) 0x10)

def execFifoFsnap (t : Nat) (port : Nat) (clear : Bool) (s : State) : Host.Outcome State Fault Refusal :=
  s.happen t (·.fifoCtrs (port % 2048) true clear)

def execFifoFclear (t : Nat) (port : Nat) (s : State) : Host.Outcome State Fault Refusal :=
  s.happen t (·.fifoCtrs (port % 2048) false true)

end Sys2Proof.Machine
end

