-- ==== Sys2Proof/Machine/Tables.lean ====
section
/-! DEFINITION. Machine/Tables.lean: the tables with a shadow and a live copy, how their commits are judged and take
effect (R73, R80, R86, R87, R93, R106, R114, R129, R133, R230), and QUAR_CTRL (R90). A table is named by its number in
the COMMIT record (R249): 1 flow, 2 rule, 3 concord group, 4 subscription, 5 listener list, 6 multicast group, 7 member
list. -/

namespace Sys2Proof.Machine

/-! ### The seven tables -/

def tblSh (tb i : Nat) : Nat :=
  match tb with
  | 1 => flowShAt i | 2 => ruleShAt i | 3 => groupShAt i | 4 => subShAt i | 5 => llistShAt i | 6 => mgroupShAt i
  | _ => mlistShAt i

def tblLv (tb i : Nat) : Nat :=
  match tb with
  | 1 => flowAt i | 2 => ruleAt i | 3 => groupAt i | 4 => subAt i | 5 => llistAt i | 6 => mgroupAt i
  | _ => mlistAt i

/-- PORT of a list entry (R113, R230). -/
abbrev LIST_PORT : Fld := ⟨0, 0, 11, 0⟩
def rows_LIST : List Row := [⟨.rwa, LIST_PORT, 1, 0, 1, .any⟩]

def tblRows (tb : Nat) : List Row :=
  match tb with
  | 1 => rows_FL | 2 => rows_RL | 3 => rows_GROUP | 4 => rows_SUB | 6 => rows_MGROUP | _ => rows_LIST

/-- Bytes of an entry. -/
def tblSize (tb : Nat) : Nat := match tb with | 1 => 64 | 2 => 32 | 3 => 32 | 4 => 16 | 6 => 16 | _ => 4

/-- PENDING, in the tables whose entries have one. -/
def tblPend? (tb : Nat) : Option Fld :=
  match tb with
  | 1 => some FL_PENDING | 2 => some RL_PENDING | 3 => some GROUP_PENDING | 4 => some SUB_PENDING | 6 => some MGROUP_PENDING
  | _ => none

/-- GEN, in the tables whose entries have one. -/
def tblGen? (tb : Nat) : Option Fld :=
  match tb with | 2 => some RL_GEN | 3 => some GROUP_GEN | 4 => some SUB_GEN | 6 => some MGROUP_GEN | _ => none

/-- The page whose ERR_INDEX names an entry of the table. -/
def tblPage (tb : Nat) : Nat := match tb with | 1 => 0x90 | 2 => 0x91 | 3 => 0x92 | 4 | 5 => 0xA1 | _ => 0x14

/-- Set or clear PENDING of a shadow entry. -/
def State.setPend (s : State) (tb i : Nat) (b : Bool) : State :=
  match tblPend? tb with
  | some f => s.wrB (tblSh tb i) f b
  | none =>
    if tb = 5 then { s with listPend := if b then insertNat i s.listPend else s.listPend.filter (· ≠ i) }
    else { s with mlistPend := if b then insertNat i s.mlistPend else s.mlistPend.filter (· ≠ i) }

/-- Pending entries of a table. -/
def State.pendOf (s : State) (tb : Nat) : List (Nat × Nat) :=
  (match tb with
  | 1 => s.listedBit 0x100000 0x40 16384 (8 * 0x3C)
  | 2 => s.listedBit 0x200000 0x20 2048 (8 * 0x1C + 16)
  | 3 => s.listedBit 0x250000 0x20 512 (8 * 0x1C + 16)
  | 4 => s.listedBit 0x800000 0x10 16384 (8 * 0x0C + 16)
  | 5 => s.listPend
  | 6 => s.listedBit 0x288000 0x10 4096 (8 * 0x08 + 16)
  | _ => s.mlistPend).map (fun i => (tb, i))

/-- The settable fields of an entry copied from the shadow to the live table. -/
def State.copyEntry (s : State) (tb i : Nat) : State :=
  s.each (tblRows tb) (fun s r => if r.acc = .rwa then s.wr (tblLv tb i) r.fld (s.rd (tblSh tb i) r.fld) else s)

/-- The live words of an entry. -/
def State.entryWords (s : State) (tb i : Nat) : List Nat :=
  (List.range (tblSize tb / 4)).map (fun k => s.word (tblLv tb i) (tblRows tb) (4 * k))

/-- A live entry's fields are legal under their rows. -/
def State.rowsLegal (s : State) (tb i : Nat) : Bool :=
  (tblRows tb).all (fun r => r.legal.ok r.fld.width (s.rd (tblLv tb i) r.fld))

/-! ### Judging a commit: on the tables as they will stand -/

/-- A valid branch (R71, R73). -/
def State.isBranch (s : State) (f : Nat) : Bool :=
  let b := flowAt f
  s.on b FL_VALID && !s.on b FL_CHILD && s.rd b FL_DISC_FLD != 0

/-- Two valid entries that would match the same keys (R73). -/
def State.flowDup (s : State) (i j : Nat) : Bool :=
  let a := flowAt i
  let b := flowAt j
  let same (f : Fld) : Bool := s.rd a f == s.rd b f
  i != j && !s.on a FL_NOLOOK && !s.on b FL_NOLOOK && same FL_CHILD &&
    if s.on a FL_CHILD then same FL_PARENT && same FL_TALK
    else same FL_KTYPE && same FL_W_PORT && same FL_W_TALK && same FL_W_FMT
      && (s.on a FL_W_PORT || same FL_PORT) && (s.on a FL_W_TALK || same FL_TALK) && (s.on a FL_W_FMT || same FL_FMT)

/-- KEY_CFG is legal (R133). -/
def keyCfgOk (kc : Nat) : Bool :=
  let k := bits kc 1 0
  k != 3 && (k != 2 || (decide (bits kc 26 16 ≤ 2039) && decide (1 ≤ bits kc 30 27 ∧ bits kc 30 27 ≤ 8)))

/-- A flow entry with VALID 1 breaks no case of R73, R93 or R129 of its own, duplicates apart. -/
def State.flowOk (s : State) (i : Nat) : Bool :=
  let b := flowAt i
  let kt := s.rd b FL_KTYPE
  let child := s.on b FL_CHILD
  s.rowsLegal 1 i && decide (1 ≤ kt ∧ kt ≤ 6)
    && (child || s.on b FL_W_PORT || !decide (60 ≤ s.rd b FL_PORT ∧ s.rd b FL_PORT ≤ 63))
    && decide (s.rd b FL_RULE_BASE + s.rd b FL_RULE_CNT ≤ 2048)
    && (s.rd b FL_DISC_FLD == 0 || ((kt == 1 || kt == 3) && !child))
    && (!child || s.isBranch (s.rd b FL_PARENT))
    && keyCfgOk (s.rd b FL_KEY_CFG)
    && (s.rd b FL_REL_MODE != 1 ||
        (decide (100 ≤ s.rd b FL_ALIGN_OFS ∧ s.rd b FL_ALIGN_OFS ≤ 10000000)
          && (s.rd b FL_DEADLINE == 0 || decide (s.rd b FL_ALIGN_OFS < 10 * s.rd b FL_DEADLINE))))
    && (!s.on b FL_CONC_EN || s.on (groupAt (s.rd b FL_CONC_GROUP)) GROUP_VALID)

/-- Two characters of A to Z or 0 to 9. -/
def talkOk (t : Nat) : Bool := (leBytes 2 t).all isUpperNum

/-- A valid group entry breaks no case of R93. -/
def State.groupOk (s : State) (g : Nat) : Bool :=
  let gr := s.liveGroup g
  let mem := s.groupMembers g
  let kts := mem.map (fun m => s.rd (flowAt m.2) FL_KTYPE)
  let kt := kts.headD 0
  let flowIs (f k : Nat) : Bool := s.flowValid f && s.on (flowAt f) FL_NOLOOK && s.rd (flowAt f) FL_KTYPE == k
  s.rowsLegal 3 g && decide (1 ≤ gr.minValid ∧ gr.minValid ≤ 4) && decide (100 ≤ gr.win ∧ gr.win ≤ 1000000)
    && gr.missN != 0 && gr.readmitN != 0 && decide (gr.tol < 2 ^ 63) && (gr.talk == 0 || talkOk gr.talk)
    && decide (2 ≤ mem.length) && decide ((mem.map (·.1)).Nodup) && kts.all (· == kt) && decide (gr.minValid ≤ mem.length)
    && (!(gr.method == mPREFERRED || gr.method == mFIRST) || gr.minValid == 1)
    && (!(gr.method == mMEDIAN || gr.method == mAGREE || gr.method == mWATCH)
        || s.rd (ruleAt gr.valRule) RL_FORMAT != 3)
    && (gr.method == mWATCH || (flowIs gr.outFlow kt && !s.on (flowAt gr.outFlow) FL_CONC_EN))
    && ((gr.statMode == 0 && decide (gr.prov < 2)) || flowIs gr.statFlow 6)
    && (!(gr.prov == 1 || gr.prov == 3) || kt == 1)
    && (gr.talk == 0 || kt == 1)

/-- A valid subscription breaks no case of R114. -/
def State.subOk (s : State) (f : Nat) : Bool :=
  let b := subAt f
  let ports := s.listeners f
  s.rowsLegal 4 f && decide (s.rd b SUB_LIST_BASE + s.rd b SUB_LIST_CNT ≤ 65536)
    && ports.all (fun p => p != 58 && !decide (60 ≤ p ∧ p ≤ 63)) && decide ports.Nodup

/-- A valid multicast group breaks no case of R230. -/
def State.mgroupOk (s : State) (g : Nat) : Bool :=
  let b := mgroupAt g
  let ports := s.members g
  decide (s.rd b MGROUP_BASE + s.rd b MGROUP_CNT ≤ 32768) && decide (s.rd b MGROUP_CNT ≤ 1984)
    && ports.all (fun p => decide (64 ≤ p) && (s.leafOf p).isSome) && decide ports.Nodup

/-- Live subscriptions whose range holds list entry `i`. -/
def State.subsOver (s : State) (i : Nat) : List Nat :=
  (s.listed 0x840000 0x10 16384).filter (fun f =>
    let b := s.rd (subAt f) SUB_LIST_BASE
    s.on (subAt f) SUB_VALID && decide (b ≤ i ∧ i < b + s.rd (subAt f) SUB_LIST_CNT))

/-- Live multicast groups whose range holds member list entry `i`. -/
def State.mgroupsOver (s : State) (i : Nat) : List Nat :=
  (s.listed 0x298000 0x10 4096).filter (fun g =>
    let b := s.rd (mgroupAt g) MGROUP_BASE
    s.on (mgroupAt g) MGROUP_VALID && decide (b ≤ i ∧ i < b + s.rd (mgroupAt g) MGROUP_CNT))

/-- What is wrong with a commit: the table and index to report, and the entry a flow duplicates. -/
structure Offence where
  tb : Nat
  idx : Nat
  dup : Option Nat
  deriving DecidableEq, Repr

/-- The valid groups that a flow belongs to before (`old`) or after the commit. -/
def State.groupsOf (s old : State) (f : Nat) : List Nat :=
  let one (s : State) : List Nat :=
    let b := flowAt f
    if s.on b FL_VALID && s.on b FL_CONC_EN then [s.rd b FL_CONC_GROUP] else []
  one old ++ one s

/-- What entry `i` of table `tb` breaks in the tables `s` as they will stand; `old` are the tables before the commit. -/
def State.judgeEntry (s old : State) (tb i : Nat) : Option Offence :=
  let bad (c : Bool) (tb i : Nat) : Option Offence := if c then none else some ⟨tb, i, none⟩
  match tb with
  | 1 =>
    let own := !s.flowValid i || s.flowOk i
    let dup := if s.flowValid i then s.validFlows.find? (fun j => s.flowDup i j) else none
    let grp := (s.groupsOf old i).all (fun g => !s.on (groupAt g) GROUP_VALID || s.groupOk g)
    if own && dup.isNone && grp then none else some ⟨1, i, if own then dup else none⟩
  | 2 => bad (ruleLegal (s.ruleRec i (ruleAt i))) 2 i
  | 3 => bad (!s.on (groupAt i) GROUP_VALID || s.groupOk i) 3 i
  | 4 => bad (!s.on (subAt i) SUB_VALID || s.subOk i) 4 i
  | 5 => ((s.subsOver i).find? (fun f => !s.subOk f)).map (fun f => ⟨4, f, none⟩)
  | 6 => bad (!s.on (mgroupAt i) MGROUP_VALID || s.mgroupOk i) 6 i
  | _ => ((s.mgroupsOver i).find? (fun g => !s.mgroupOk g)).map (fun g => ⟨6, g, none⟩)

/-! ### What a commit does -/

/-- Fields whose change clears a flow's slots (R75). -/
def flowKeyFlds : List Fld :=
  [FL_KTYPE, FL_PORT, FL_TALK, FL_FMT, FL_W_PORT, FL_W_TALK, FL_W_FMT, FL_CHILD, FL_PARENT, FL_RULE_BASE, FL_RULE_CNT]

/-- Members of a valid group; none of one that is not valid. -/
def State.memb (s : State) (g : Nat) : List (Nat × Nat) :=
  if s.on (groupAt g) GROUP_VALID then s.groupMembers g else []

/-- Members that remain keep LIVE and runs, new ones start LIVE with runs of 0 (R106). -/
def State.relive (s old : State) (g : Nat) : State :=
  let was := old.memb g
  let is := s.memb g
  let b := gstateAt g
  let kept (m : Nat × Nat) : Bool := was.contains m
  let live := maskOf ((is.filter (fun m => !kept m || old.isLive g m.1)).map (·.1))
  let runs := (List.range 4).foldl (fun a m =>
    if is.any (fun x => x.1 == m && kept x) then a else setRuns a m 0 0) (s.rd b GSTATE_RUNS)
  (s.wr b GSTATE_LIVE live).wr b GSTATE_RUNS runs

/-- ORPHAN of the live children (R71); an entry out of use is no child. -/
def State.mirrorOrphans (s : State) : State :=
  let s := s.each (s.listedBit 0x600000 0x40 16384 (8 * FL_ORPHAN.off + FL_ORPHAN.lo)) (fun s f => s.wr (flowAt f) FL_ORPHAN 0)
  s.each s.validFlows (fun s f =>
    s.wrB (flowAt f) FL_ORPHAN (s.on (flowAt f) FL_CHILD && !s.isBranch (s.rd (flowAt f) FL_PARENT)))

/-- Groups whose round a commit ends: entries committed, and groups whose members change (R106). -/
def State.groupsHit (s old : State) (set : List (Nat × Nat)) : List Nat :=
  (set.flatMap (fun e =>
    if e.1 = 3 then [e.2]
    else if e.1 = 1 then (s.groupsOf old e.2).filter (fun g => decide (s.memb g ≠ old.memb g)) else [])).foldl
    (fun l g => insertNat g l) []

/-- Multicast groups whose members a commit installs (R231). -/
def State.mgroupsHit (s old : State) (set : List (Nat × Nat)) : List Nat :=
  (set.flatMap (fun e =>
    if e.1 = 6 then [e.2]
    else if e.1 = 7 then (s.mgroupsOver e.2).filter (fun g => decide (s.members g ≠ old.members g)) else [])).foldl
    (fun l g => insertNat g l) []

/-- The COMMIT records of a set of entries, the last one marked (R249). -/
def State.logCommits (s : State) : List (Nat × Nat) → State
  | [] => s
  | e :: l => (s.log (.commit e.1 e.2 l.isEmpty (s.entryWords e.1 e.2))).logCommits l

/-- One entry's own part of a commit: PENDING clears, GEN counts, and a changed key clears its flow state. -/
def State.commitOne (s old : State) (e : Nat × Nat) : State :=
  let s := s.setPend e.1 e.2 false
  let s := match tblGen? e.1 with
    | some g =>
      let n := s.rd (tblLv e.1 e.2) g + 1
      (s.wr (tblLv e.1 e.2) g n).wr (tblSh e.1 e.2) g n
    | none => s
  let keyed := flowKeyFlds.any (fun f => decide (old.rd (flowAt e.2) f ≠ s.rd (flowAt e.2) f))
  s.when (e.1 == 1 && keyed) (·.clearFlowState e.2)

/-- A commit that is not refused takes effect at this admission position. `s` holds the new live entries, `old` the state
before. -/
def State.commitEffect (s old : State) (set : List (Nat × Nat)) : State :=
  let s := s.each set (fun s e => s.commitOne old e)
  let hit := s.groupsHit old set
  let s := s.logCommits set
  let s := s.each hit (fun s g => s.abortRound (old.liveGroup g) (old.groupMembers g))
  let s := s.each hit (fun s g => s.relive old g)
  let s := s.when (set.any (fun e => e.1 == 1)) (·.mirrorOrphans)
  let s := s.each (s.mgroupsHit old set) (fun s g => s.startSwitch g (s.members g))
  { s with tblGen := s.tblGen + 1 }

/-- ERR_INDEX of an offence, on the page of its table. -/
def State.noteOffence (s : State) (o : Offence) : State :=
  match o.tb with
  | 1 =>
    let s := (s.wr pgFLOW FLOW_ERR_INDEX o.idx).wr pgFLOW FLOW_ERR_V 1
    (s.wrB pgFLOW FLOW_DUP o.dup.isSome).wr pgFLOW FLOW_DUP_OF (o.dup.getD 0)
  | 2 => (s.wr pgRULE RULE_ERR_INDEX o.idx).wr pgRULE RULE_ERR_V 1
  | 3 => (s.wr pgCONC CONC_ERR_INDEX o.idx).wr pgCONC CONC_ERR_V 1
  | 4 => (s.wr pgBELL BELL_ERR_INDEX o.idx).wr pgBELL BELL_ERR_V 1
  | _ => (s.wr pgRING RING_ERR_INDEX o.idx).wr pgRING RING_ERR_V 1

/-- Commit a set of entries, or nothing (R86); `page` is where the commit was written. Answers whether it took effect. -/
def State.commitSet (s : State) (page : Nat) (set : List (Nat × Nat)) : Bool × State :=
  let t := s.each set (fun s e => s.copyEntry e.1 e.2)
  match set.findSome? (fun e => t.judgeEntry s e.1 e.2) with
  | some o =>
    let s := (s.inc pgFLOW FLOW_C_COMMIT_REFUSED).noteOffence o
    let s := s.refuse page errILLEGAL
    (false, s.when (tblPage o.tb != page) (·.markError (tblPage o.tb) errILLEGAL))
  | none => (true, (t.inc pgFLOW FLOW_C_COMMITS).commitEffect s set)

/-- The bit of COMMIT_DONE on a page. -/
def doneBit (page : Nat) : Nat := match page with | 0x90 => 3 | 0x91 => 0 | 0x92 => 4 | 0xA1 => 4 | _ => 10

/-! ### Commits of one entry -/

/-- Entries that a commit register commits: a subscription or multicast group takes the pending list entries in its range
along. -/
def State.singleSet (s : State) (tb i : Nat) : List (Nat × Nat) :=
  if tb = 4 then
    let b := s.rd (subShAt i) SUB_LIST_BASE
    (4, i) :: (s.pendOf 5).filter (fun e => decide (b ≤ e.2 ∧ e.2 < b + s.rd (subShAt i) SUB_LIST_CNT))
  else if tb = 6 then
    let b := s.rd (mgroupShAt i) MGROUP_BASE
    (6, i) :: (s.pendOf 7).filter (fun e => decide (b ≤ e.2 ∧ e.2 < b + s.rd (mgroupShAt i) MGROUP_CNT))
  else [(tb, i)]

/-- Commit one entry and raise COMMIT_DONE. -/
def State.commitSingle (s : State) (tb i : Nat) : State :=
  let x := s.commitSet (tblPage tb) (s.singleSet tb i)
  x.2.when x.1 (·.raise (tblPage tb) (doneBit (tblPage tb)))

/-- Pages with a SHADOW_SWAP. -/
def swapPages : List Nat := [0x90, 0x91, 0x92, 0xA1, 0x14]

/-- Is a batch swap running? -/
def State.swapping (s : State) : Bool := swapPages.any (fun p => s.on (pgAt p) PG_SHADOW_SWAP)

/-- The commit register of a table, as a BAR0 offset. -/
def commitReg (tb : Nat) : Nat :=
  match tb with | 1 => pgFLOW + 0x40 | 2 => pgRULE + 0x40 | 3 => pgCONC + 0x40 | 4 => pgBELL + 0x64 | _ => pgRING + 0x58

/-- A write of a commit register with GO 1: held while a swap runs. -/
def State.commitWrite (s : State) (tb i : Nat) : State :=
  s.blkGuard (tblPage tb) true (fun s =>
    if s.swapping then { s with swapHeld := s.swapHeld ++ [(commitReg tb, i)] } else s.commitSingle tb i)

def execFlCommit (t : Nat) (index : Nat) (s : State) : Host.Outcome State Fault Refusal :=
  s.happen t (·.commitWrite 1 (index % 16384))
def execRlCommit (t : Nat) (index : Nat) (s : State) : Host.Outcome State Fault Refusal :=
  s.happen t (·.commitWrite 2 (index % 2048))
def execGcCommit (t : Nat) (index : Nat) (s : State) : Host.Outcome State Fault Refusal :=
  s.happen t (·.commitWrite 3 (index % 512))
def execSbCommit (t : Nat) (index : Nat) (s : State) : Host.Outcome State Fault Refusal :=
  s.happen t (·.commitWrite 4 (index % 16384))
def execMgCommit (t : Nat) (index : Nat) (s : State) : Host.Outcome State Fault Refusal :=
  s.happen t (·.commitWrite 6 (index % 4096))

/-! ### Batch swaps -/

/-- A PG_CTRL write other than COMMIT: refused on a locked page, and on a standby in step where the page's writes are
carried (R10, R88). -/
def State.ctrlGuard (s : State) (page : Nat) (carried : Bool) (f : State → State) : State :=
  if s.on (pgAt page) PG_LOCK then s.refuse page errLOCKED
  else if carried && s.standbyInStep then s.refuse page errLOCKED
  else f s

/-- SHADOW_SWAP on a page: the pending entries of its tables are committed together, or refused together. -/
def State.shadowSwap (s : State) (page : Nat) (tbs : List Nat) : State :=
  s.ctrlGuard page true (fun s =>
    if s.swapping then s
    else
      let x := s.commitSet page (tbs.flatMap s.pendOf)
      x.2.when x.1 (·.wr (pgAt page) PG_SHADOW_SWAP 1))

def execFlowShadowSwap (t : Nat) (s : State) : Host.Outcome State Fault Refusal :=
  s.happen t (·.shadowSwap 0x90 [1, 2, 3, 4, 5, 6, 7])
def execRuleShadowSwap (t : Nat) (s : State) : Host.Outcome State Fault Refusal :=
  s.happen t (·.shadowSwap 0x91 [2])
def execConcShadowSwap (t : Nat) (s : State) : Host.Outcome State Fault Refusal :=
  s.happen t (·.shadowSwap 0x92 [3])
def execBellShadowSwap (t : Nat) (s : State) : Host.Outcome State Fault Refusal :=
  s.happen t (·.shadowSwap 0xA1 [4, 5])
def execRingShadowSwap (t : Nat) (s : State) : Host.Outcome State Fault Refusal :=
  s.happen t (·.shadowSwap 0x14 [6, 7])

/-- The table, index and offset that a shadow window address names. -/
def shadowPlace (a : Nat) : Option (Nat × Nat × Nat) :=
  let place (tb base n : Nat) : Option (Nat × Nat × Nat) :=
    if base ≤ a ∧ a < base + n * tblSize tb then some (tb, (a - base) / tblSize tb, (a - base) % tblSize tb) else none
  [place 1 0x100000 16384, place 2 0x200000 2048, place 3 0x250000 512, place 4 0x800000 16384, place 5 0x880000 65536,
    place 6 0x288000 4096, place 7 0x2C0000 32768].findSome? id

/-- A word written to a shadow entry: its PENDING is set (R86) and the write is carried (R249). -/
def State.shadowPut (s : State) (tb i off w : Nat) : State :=
  ((s.setWord (tblSh tb i) (tblRows tb) off w).setPend tb i true).logDelta (tblSh tb i + off) w

/-- A host write to a shadow window: held while a swap runs. -/
def State.shadowWrite (s : State) (a w : Nat) : State :=
  match shadowPlace a with
  | some (tb, i, off) =>
    if s.swapping then ({ s with swapHeld := s.swapHeld ++ [(a, w)] }).setPend tb i true else s.shadowPut tb i off w
  | none => s

/-- A write that a swap held back is applied. -/
def State.applySwapHeld (s : State) (e : Nat × Nat) : State :=
  match [1, 2, 3, 4, 6].find? (fun tb => commitReg tb == e.1) with
  | some tb => s.commitSingle tb e.2
  | none => match shadowPlace e.1 with | some (tb, i, off) => s.shadowPut tb i off e.2 | none => s

/-- A batch swap completes: SHADOW_SWAP clears, COMMIT_DONE is raised, and held writes are applied in order. -/
def State.swapDone (s : State) (page : Nat) : State :=
  if swapPages.contains page && s.on (pgAt page) PG_SHADOW_SWAP then
    let s := (s.wr (pgAt page) PG_SHADOW_SWAP 0).raise page (doneBit page)
    if s.swapping then s else ({ s with swapHeld := [] }).each s.swapHeld (·.applySwapHeld ·)
  else s

def execTableSwapDone (t : Nat) (page : Nat) (s : State) : Host.Outcome State Fault Refusal :=
  s.happen t (·.swapDone page)

/-! ### QUAR_CTRL (R85, R90) -/

/-- A QUAR_CTRL write: `both` when RELEASE and ENTER are set together. -/
def State.quarCtrl (s : State) (port enter both : Bool) (i : Nat) : State :=
  s.blkGuard 0x90 true (fun s =>
    if both || decide ((if port then 2048 else 16384) ≤ i) then s.refuse 0x90 errILLEGAL
    else if enter then (s.quarStart port i none).when (!port) (·.quarEntry i)
    else s.quarEnd port i)

def execQuarRelease (t : Nat) (port both : Bool) (index : Nat) (s : State) : Host.Outcome State Fault Refusal :=
  s.happen t (·.quarCtrl port false both index)

def execQuarEnter (t : Nat) (port both : Bool) (index : Nat) (s : State) : Host.Outcome State Fault Refusal :=
  s.happen t (·.quarCtrl port true both index)

end Sys2Proof.Machine
end

