-- ==== Sys2Proof/Machine/Map.lean ====
section
/-! DEFINITION. Machine/Map.lean: BAR0 as a whole (R379, R381, R382): which page or window an address lies in, and the
fields there. -/

namespace Sys2Proof.Machine

/-- Where an address lies: the base of its page or entry, the offset in it, the fields, whether writes are ignored, the
page that reports a refused write, and whether writes are carried in the admission log (R250). -/
structure Place where
  base : Nat
  off : Nat
  rows : List Row
  ro : Bool
  page : Nat
  isPage : Bool
  carried : Bool
  deriving DecidableEq, Repr

/-- A table window: its entries, the page that reports its refusals, and whether its writes are carried. -/
structure Win where
  reg : Region
  page : Nat
  carried : Bool
  deriving DecidableEq, Repr

/-- `n` 64-bit counters. -/
def rows_CTR (n : Nat) : List Row := [⟨.ro, ctr 0, n, 8, 1, .any⟩]

/-- Port quarantine entries (R89). -/
def rows_PQUAR : List Row := [⟨.ro, PQUAR_V, 1, 0, 1, .any⟩, ⟨.ro, PQUAR_NS, 1, 0, 1, .any⟩, ⟨.ro, PQUAR_S, 1, 0, 1, .any⟩]

/-- Steering bytes, four in a word (R392). -/
def rows_STEER : List Row :=
  (List.range 4).flatMap (fun j =>
    [⟨.rwa, { STEER_RING with off := j }, 1, 0, 1, .any⟩, ⟨.rwa, { STEER_V with off := j }, 1, 0, 1, .any⟩])

/-- Counters of a page and their snapshots (R65), and the MSI-X table of page 0x001 (R401). -/
def rows_PGCTR : List Row := [⟨.ro, ⟨0x800, 0, 64, 0⟩, 256, 8, 1, .any⟩]
def rows_MSIX : List Row :=
  [⟨.rw, msixAddr 0, 64, 16, 1, .any⟩, ⟨.rw, msixData 0, 64, 16, 1, .any⟩, ⟨.rw, msixMask 0, 64, 16, 1, .any⟩]
    ++ (List.range 64).map (fun v => ⟨.ro, pbaBit v, 1, 0, 1, .any⟩)

/-- Fields of HOST apart from the MSI-X table and PBA, which are kept by vector. -/
def rows_HOSTREGS : List Row := rows_HOST.filter (fun r => !(r.fld == HOST_PBA || r.fld == HOST_MSIX))

/-- Block registers of a page. -/
def blockRows (p : Nat) : List Row :=
  match p with
  | 0 => rows_SYS | 1 => rows_HOSTREGS ++ rows_MSIX | 2 => rows_PWR | 3 => rows_TEST | 4 => rows_ATTC | 5 => rows_SBOX
  | 6 => rows_TIME | 7 => rows_AXIS | 8 => rows_TWIN | 0x14 => rows_RING | 0x70 => rows_TONGS | 0x90 => rows_FLOW
  | 0x91 => rows_RULE | 0x92 => rows_CONC | 0xA0 => rows_LARD | 0xA1 => rows_BELL | 0xA2 => rows_CELL | 0xA3 => rows_JRNL
  | _ =>
    if p < 0x14 then rows_RINGP else if p < 0x20 then rows_ETH
    else if p < 0x40 then rows_CAN ++ (if p = 0x20 then rows_CAN0 else [])
    else if p < 0x60 then rows_UART
    else if p < 0x70 then rows_TONG ++ (if p = 0x60 then rows_TONG0 else [])
    else rows_ANV ++ (if p = 0x80 then rows_ANV0 else [])

/-- Every field of a page. -/
def pageRows (p : Nat) : List Row := rows_PG ++ blockRows p ++ rows_PGCTR

/-- The table windows (R382), each at its place in the window that the map lists. -/
def wins : List Win := [
  ⟨⟨0x100000, 16384, 0x40, false, rows_FL⟩, 0x90, true⟩,
  ⟨⟨0x600000, 16384, 0x40, true, rows_FL⟩, 0x90, true⟩,
  ⟨⟨0x500000, 16384, 32, true, rows_CTR 4⟩, 0x90, true⟩,
  ⟨⟨0x580000, 16384, 32, true, rows_CTR 4⟩, 0x90, true⟩,
  ⟨⟨0x700000, 16384, 0x40, true, rows_FSTATE⟩, 0x90, true⟩,
  ⟨⟨0x200000, 2048, 0x20, false, rows_RL⟩, 0x91, true⟩,
  ⟨⟨0x210000, 2048, 0x20, true, rows_RL⟩, 0x91, true⟩,
  ⟨⟨0x220000, 2048, 32, true, rows_CTR 4⟩, 0x91, true⟩,
  ⟨⟨0x230000, 2048, 32, true, rows_CTR 4⟩, 0x91, true⟩,
  ⟨⟨0x240000, 2048, 16, true, rows_PQUAR⟩, 0x90, true⟩,
  ⟨⟨0x250000, 512, 0x20, false, rows_GROUP⟩, 0x92, true⟩,
  ⟨⟨0x254000, 512, 0x20, true, rows_GROUP⟩, 0x92, true⟩,
  ⟨⟨0x258000, 512, 0x40, true, rows_GSTATE⟩, 0x92, true⟩,
  ⟨⟨0x260000, 512, 64, true, rows_CTR 8⟩, 0x92, true⟩,
  ⟨⟨0x268000, 512, 64, true, rows_CTR 8⟩, 0x92, true⟩,
  ⟨⟨0x270000, 64, 0x20, false, rows_SLOT⟩, 0x07, true⟩,
  ⟨⟨0x271000, 64, 0x20, true, rows_SLOTSTAT⟩, 0x07, true⟩,
  ⟨⟨0x280000, 2048, 0x10, false, rows_PORTMAP⟩, 0x14, true⟩,
  ⟨⟨0x288000, 4096, 0x10, false, rows_MGROUP⟩, 0x14, true⟩,
  ⟨⟨0x298000, 4096, 0x10, true, rows_MGROUP⟩, 0x14, true⟩,
  ⟨⟨0x2B0000, 256, 0x40, true, rows_NODE⟩, 0x14, false⟩,
  ⟨⟨0x2C0000, 32768, 4, false, rows_LIST⟩, 0x14, true⟩,
  ⟨⟨0x2E0000, 32768, 4, true, rows_LIST⟩, 0x14, true⟩,
  ⟨⟨0x300000, 2048, 0x20, false, rows_INGEST⟩, 0x80, true⟩,
  ⟨⟨0x400000, 2048, 512, true, rows_CTR 64⟩, 0x80, true⟩,
  ⟨⟨0x800000, 16384, 0x10, false, rows_SUB⟩, 0xA1, true⟩,
  ⟨⟨0x840000, 16384, 0x10, true, rows_SUB⟩, 0xA1, true⟩,
  ⟨⟨0x880000, 65536, 4, false, rows_LIST⟩, 0xA1, true⟩,
  ⟨⟨0x8C0000, 65536, 4, true, rows_LIST⟩, 0xA1, true⟩,
  ⟨⟨0x900000, 2048, 0x40, false, rows_LPORT⟩, 0xA1, true⟩,
  ⟨⟨0x920000, 16384, 0x20, false, rows_QUEUE⟩, 0xA1, true⟩,
  ⟨⟨0xA00000, 16384, 64, true, rows_CTR 8⟩, 0xA1, true⟩,
  ⟨⟨0xB00000, 16384, 64, true, rows_CTR 8⟩, 0xA1, true⟩,
  ⟨⟨0xC00000, 16384, 64, true, rows_CTR 8⟩, 0xA1, true⟩,
  ⟨⟨0xD00000, 16384, 64, true, rows_CTR 8⟩, 0xA1, true⟩,
  ⟨⟨0xE00000, 2048, 128, true, rows_CTR 16⟩, 0x20, false⟩,
  ⟨⟨0xE40000, 2048, 0x40, false, rows_FIFO⟩, 0x80, false⟩,
  ⟨⟨0xE60000, 4096, 4, false, rows_STEER⟩, 0x01, false⟩,
  ⟨⟨0xE80000, 64, 0x20, false, rows_TXRING⟩, 0x01, false⟩,
  ⟨⟨0xE81000, 64, 0x20, false, rows_TXRING⟩, 0x01, false⟩,
  ⟨⟨0xEC0000, 32, 0x80, false, rows_RA⟩, 0x01, false⟩,
  ⟨⟨0xF00000, 1, 0x10000, true, []⟩, 0xA0, false⟩,
  ⟨⟨0xF10000, 4096, 4, false, [⟨.rw, ⟨0, 0, 32, 0⟩, 1, 0, 1, .any⟩]⟩, 0x05, false⟩,
  ⟨⟨0xF14000, 74, 4, true, [⟨.ro, ⟨0, 0, 32, 0⟩, 1, 0, 1, .any⟩]⟩, 0x05, false⟩,
  ⟨⟨0xF15000, 128, 0x20, true, rows_META⟩, 0x05, false⟩,
  ⟨⟨0xF20000, 1, 0x1000, true, rows_POP⟩, 0x01, false⟩]

/-- The windows as R382 lists them: what lies between their tables is reserved, what lies between them is a hole. -/
def winRanges : List (Nat × Nat) :=
  [(0x100000, 0x200000), (0x200000, 0x248000), (0x250000, 0x270000), (0x270000, 0x271800), (0x280000, 0x300000),
    (0x300000, 0x310000), (0x400000, 0x500000), (0x500000, 0x800000), (0x800000, 0xE00000), (0xE00000, 0xE40000),
    (0xE40000, 0xE60000), (0xE60000, 0xE64000), (0xE80000, 0xE81000), (0xE81000, 0xE82000), (0xEC0000, 0xEC1000),
    (0xF00000, 0xF10000), (0xF10000, 0xF16000), (0xF20000, 0xF21000)]

/-- Fields and counters carried in the admission log on pages that are otherwise held by each hub alone (R250): the shared
registers 0x100 to 0x164 of page 0x080 and five fields of the TIME page. -/
def offCarried (p off : Nat) : Bool :=
  pageCarried p || (p == 0x80 && decide (0x100 ≤ off ∧ off < 0x168))
    || (p == 6 && (off == 0x74 || off == 0x78 || off == 0x80 || off == 0x84))

/-- The place of a page register. -/
def pagePlace (p off : Nat) : Place := ⟨pgAt p, off, pageRows p, false, p, true, offCarried p off⟩

/-- The place of an address in a window. -/
def Win.place (w : Win) (a : Nat) : Option Place :=
  let r := w.reg
  if r.base ≤ a ∧ a < r.base + r.cnt * r.step then
    let i := (a - r.base) / r.step
    some ⟨r.base + i * r.step, (a - r.base) % r.step, r.rows, r.ro, w.page, false, w.carried⟩
  else none

/-- The place of a word address; none for a hole and for reserved space. -/
def placeOf (a : Nat) : Option Place :=
  if a < 0x100000 then (if pageListed (a / 0x1000) then some (pagePlace (a / 0x1000) (a % 0x1000)) else none)
  else wins.findSome? (·.place a)

/-- An offset that no page or window defines (R379). A page that the index does not list is defined: it reads 0 (R375). -/
def isHole (a : Nat) : Bool := decide (0x100000 ≤ a) && !winRanges.any (fun r => decide (r.1 ≤ a ∧ a < r.2))

/-! ### What the attic retains -/

/-- Live copies with their shadows: base of each, and bytes. -/
def twinTables : List (Nat × Nat × Nat) :=
  [(0x600000, 0x100000, 0x100000), (0x210000, 0x200000, 0x10000), (0x254000, 0x250000, 0x4000), (0x840000, 0x800000, 0x40000),
    (0x8C0000, 0x880000, 0x40000), (0x298000, 0x288000, 0x10000), (0x2E0000, 0x2C0000, 0x20000), (0x70200, 0x70100, 0x100)]

/-- Does a bit address lie in a shadow copy? The record of a table names the live copy (R410). -/
def inShadow (k : Nat) : Bool := twinTables.any (fun t => decide (8 * t.2.1 ≤ k ∧ k < 8 * (t.2.1 + t.2.2)))

/-- The shadow's bit address of a live field. -/
def shadowKey (k : Nat) : Option Nat :=
  (twinTables.find? (fun t => decide (8 * t.1 ≤ k ∧ k < 8 * (t.1 + t.2.2)))).map (fun t => k - 8 * t.1 + 8 * t.2.1)

/-- Is the field at a bit address an RWA field of a live copy, or the live bank of the tongs program store (R316)? -/
def retained (k : Nat) : Bool :=
  !inShadow k && (decide (8 * 0x70200 ≤ k ∧ k < 8 * 0x70300) ||
    match placeOf (k / 32 * 4) with
    | some p => (rowsIn p.rows p.off).any (fun rf => rf.1.acc == .rwa && fldKey p.base rf.2 == k)
    | none => false)

end Sys2Proof.Machine
end

