-- ==== Sys2Proof/Machine/Uart.lean ====
section
/-! DEFINITION. Machine/Uart.lean: the events of a UART line (R44 to R47), the commit of an ingest port entry (R41 to
R43) and the driver of a UART port (R403). -/

namespace Sys2Proof.Machine

/-! ### The receive line -/

/-- UART_START_EDGE; the live receive level reads low. -/
def execUartStartEdge (t : Nat) (port : Nat) (s : State) : Host.Outcome State Fault Refusal :=
  s.happen t (fun s => (s.wr (pgUART (port % 32)) UART_RXD 0).uartEdge (port % 32))

/-- UART_CHARACTER: a character's data bits and its line result: parity wrong, a stop bit low, every sample low. -/
def execUartCharacter (t : Nat) (port : Nat) (data : Byte) (badParity badStop allLow : Bool) (s : State) :
    Host.Outcome State Fault Refusal :=
  s.happen t (fun s => (s.wrB (pgUART (port % 32)) UART_RXD (!(badStop || allLow))).uartChar (port % 32) data badParity badStop allLow)

def execIctoTimeout (t : Nat) (port : Nat) (s : State) : Host.Outcome State Fault Refusal :=
  s.happen t (·.uartIcto (port % 32))

def execSilenceTimeout (t : Nat) (port : Nat) (s : State) : Host.Outcome State Fault Refusal :=
  s.happen t (·.uartSilence (port % 32))

def execLineGoesHigh (t : Nat) (port : Nat) (s : State) : Host.Outcome State Fault Refusal :=
  s.happen t (fun s => (s.wr (pgUART (port % 32)) UART_RXD 1).uartHigh (port % 32))

/-! ### The ingest port table -/

/-- Entries 58 to 63 are reserved (R42). -/
def ingestExists (p : Nat) : Bool := !decide (58 ≤ p ∧ p < 64)

/-- INGEST_PORT_COMMIT: a write of word 0x00; an accepted one is carried, and a remote port's settings go to its leaf. -/
def State.ingestWrite (s : State) (p w : Nat) : State :=
  if !ingestExists p then s
  else
    let x := s.ingestCommit p w
    if x.1 then
      let t := (x.2.logHeld s (ingestAt p) ingestHeld).logDelta (ingestAt p) w
      t.when (decide (64 ≤ p)) (·.mirrorPort p)
    else x.2

def execIngestPortCommit (t : Nat) (port : Nat) (word : Word) (s : State) : Host.Outcome State Fault Refusal :=
  s.happen t (·.winGuard 0x80 true (·.ingestWrite (port % 2048) word.toNat))

/-! ### The driver (R403) -/

/-- DE of a port as DE_MODE and its transmitter have it: asserted while transmitting in mode 1, never on a hub that is
not active or holds its bus drivers. A hold after the last stop bit is left to run out. -/
def State.mirrorDE (s : State) (p : Nat) : State :=
  let b := pgUART p
  let m := s.rd b UART_DE_MODE
  s.wrB b UART_DE (s.deAllowed && (m == 0 || (m == 1 && (s.on b UART_TX_BUSY || s.on b UART_DE))))

/-- DE of every port, after a change of role or of the shared-bus hold. -/
def State.mirrorDEs (s : State) : State := s.each (List.range 32) State.mirrorDE

/-- SEND_BREAK: refused while a break is on the line; 0 is ignored. -/
def State.sendBreak (s : State) (p bits : Nat) : State :=
  s.blkGuard (0x40 + p) false (fun s =>
    let l := s.lisOf p
    if l.brk ≠ 0 then s.refuse (0x40 + p) errILLEGAL
    else if bits = 0 then s
    else (s.setLis p { l with brk := bits }).uartDrive p)

def execSendBreak (t : Nat) (port bits : Nat) (s : State) : Host.Outcome State Fault Refusal :=
  s.happen t (·.sendBreak (port % 32) (bits % 65536))

/-- BREAK_END: the break has been held for its bit times. With LOOP 1 the line itself stays idle. -/
def State.breakEnd (s : State) (p : Nat) : State :=
  let l := s.lisOf p
  if l.brk = 0 then s
  else
    let s := s.when (!s.on (pgUART p) UART_LOOP) (·.emit (.uartBreak p l.brk))
    let s := (s.setLis p { l with brk := 0, endAt := s.time.clk }).inc (pgUART p) UART_C_BREAKS_SENT
    let s := s.when l.tx.isEmpty (·.wr (pgUART p) UART_TX_BUSY 0)
    s.raise (0x40 + p) 0

def execBreakEnd (t : Nat) (port : Nat) (s : State) : Host.Outcome State Fault Refusal :=
  s.happen t (·.breakEnd (port % 32))

/-- DE_HOLD_END: DE_HOLD bit times after the last stop bit the driver of DE_MODE 1 is released. -/
def State.deHoldEnd (s : State) (p : Nat) : State :=
  let b := pgUART p
  let hold := s.rd b UART_DE_HOLD * cfgBit3 (s.portCfg p)
  if s.rd b UART_DE_MODE = 1 ∧ !s.on b UART_TX_BUSY ∧ hold ≤ 3 * (s.time.clk - (s.lisOf p).endAt) then s.wr b UART_DE 0 else s

def execDeHoldEnd (t : Nat) (port : Nat) (s : State) : Host.Outcome State Fault Refusal :=
  s.happen t (·.deHoldEnd (port % 32))

end Sys2Proof.Machine
end

