-- ==== Sys2Proof/Machine/Can.lean ====
section
/-! DEFINITION. Machine/Can.lean: the CAN controllers (R265 to R268, R271 to R275, R279 to R282) and the commands of their
pages. -/

namespace Sys2Proof.Machine

/-! ### Modes (R265, R266) -/

/-- Runs the controller as MONITOR for want of its duties: a programmed NORMAL or RESTRICTED on a hub that is not active or
is in the shared-bus hold. -/
def State.canMustMon (s : State) (n : Nat) : Bool :=
  let m := s.rd (pgCAN n) CAN_MODE
  (m == 1 || m == 3) && (!s.active || s.on pgTWIN TWIN_HOLD_BUS)

/-- EFF_MON of every controller after a change of role: it clears only at an integration. -/
def State.mirrorMon (s : State) : State :=
  s.each (List.range 8) (fun s n => s.when (s.canMustMon n) (·.wr (pgCAN n) CAN_EFF_MON 1))

/-- What a change of role or of the shared-bus hold does to the drivers of UART and CAN ports and to the tongs (R259,
R266, R315, R403). -/
def State.mirrorRole (s : State) : State := s.mirrorDEs.mirrorMon.tongsRole

/-- Virtual nodes at step 2 of R255 or at the end of the shared-bus hold (R280, R281). -/
def State.startVns (s : State) : State :=
  s.each (List.range 8) (fun s n => s.each (List.range 8) (fun s v => s.startVn n v))

/-- A commit takes effect: the controller leaves the bus until it has integrated; MODE 6 waits for its entry. -/
def State.canApply (s : State) (n : Nat) : State :=
  let m := s.rd (pgCAN n) CAN_MODE
  let c := s.ctl n
  let s := s.wrB (pgCAN n) CAN_EFF_MON ((m == 1 || m == 3) && (s.on (pgCAN n) CAN_EFF_MON || s.canMustMon n))
  if m = 6 then s.setCtl n { c with dirty := false }
  else (s.setCtl n { c with dirty := false, integ := m != 0, run := 0 }).wr (pgCAN n) CAN_ASLEEP 0

/-- Is the controller able to hear the bus: integrated, not bus-off, powered and out of reset? -/
def State.canHears (s : State) (n : Nat) : Bool :=
  let c := s.ctl n
  (c.run == 1 || c.run == 2 || c.run == 3 || c.run == 5) && !c.integ && s.rd (pgCAN n) CAN_ESTATE != 2
    && !s.portDown (32 + n) && !s.on (pgCAN n) PG_IN_RESET && !s.testRuns 2 n
    && (c.run == 5 || !s.sys.jtag)

/-- Is it free to start an attempt? -/
def State.canFree (s : State) (n : Nat) : Bool :=
  let c := s.ctl n
  s.active && !s.on pgTWIN TWIN_HOLD_BUS && (c.run == 1 || c.run == 4 || c.run == 5) && !c.integ && !c.dirty && c.att.isNone && !s.on (pgCAN n) CAN_EFF_MON
    && s.rd (pgCAN n) CAN_ESTATE != 2 && !s.portDown (32 + n) && !s.on (pgCAN n) PG_IN_RESET

/-! ### Fault confinement (R268, after ISO 11898-1) -/

/-- TEC, REC and ESTATE after a change of the error counts. -/
def State.confine (s : State) (n : Nat) : State :=
  let c := s.ctl n
  let b := pgCAN n
  let was := s.rd b CAN_ESTATE
  let es := if was = 2 ∨ 255 < c.tec then 2 else if 128 ≤ c.tec ∨ 128 ≤ c.rec_ then 1 else 0
  let s := ((s.wr b CAN_TEC (min c.tec 255)).wr b CAN_REC (min c.rec_ 255)).wr b CAN_ESTATE es
  let s := s.when (was == 0 && es == 1) (·.raise (0x20 + n) 1)
  s.when (was != 2 && es == 2) (fun s => (s.inc b CAN_C_BUS_OFFS).raise (0x20 + n) 0)

def State.addTec (s : State) (n k : Nat) : State := (s.setCtl n { s.ctl n with tec := (s.ctl n).tec + k }).confine n
def State.okTec (s : State) (n : Nat) : State := (s.setCtl n { s.ctl n with tec := (s.ctl n).tec - 1 }).confine n
def State.addRec (s : State) (n : Nat) : State := (s.setCtl n { s.ctl n with rec_ := (s.ctl n).rec_ + 1 }).confine n
def State.okRec (s : State) (n : Nat) : State :=
  let r := (s.ctl n).rec_
  (s.setCtl n { s.ctl n with rec_ := if 127 < r then 127 else r - 1 }).confine n

/-- Bus-off ends: error active with both counts 0. -/
def State.busOn (s : State) (n : Nat) : State :=
  if s.rd (pgCAN n) CAN_ESTATE = 2 then
    ((((s.setCtl n { s.ctl n with tec := 0, rec_ := 0 }).wr (pgCAN n) CAN_TEC 0).wr (pgCAN n) CAN_REC 0).wr (pgCAN n) CAN_ESTATE 0)
  else s

/-! ### What a controller sends (R271, R279) -/

/-- Data bytes of a length code (R269). -/
def dlcLen (fdf : Bool) (dlc : Nat) : Nat :=
  if dlc ≤ 8 then dlc else if fdf then [12, 16, 20, 24, 32, 48, 64].getD (dlc - 9) 64 else 8

/-- Direct entry `e` of a controller as a record. -/
def qF (f : Fld) (e : Nat) : Fld := f.at e 96
def State.qRec (s : State) (n e : Nat) : List Byte :=
  let b := pgCAN n
  let fdf := s.on b (qF CAN_Q_FDF e)
  let rtr := s.on b (qF CAN_Q_RTR e)
  let dlc := s.rd b (qF CAN_Q_DLC e)
  let data := (List.range 16).flatMap (fun k => leBytes 4 (s.rd b ((qF CAN_Q_DATA e).at k 4)))
  leBytes 4 (s.rd b (qF CAN_Q_ID e) + 2 ^ 29 * s.rd b (qF CAN_Q_IDE e))
    ++ leBytes 1 (fdf.toNat + 2 * s.rd b (qF CAN_Q_BRS e) + 8 * rtr.toNat) ++ leBytes 1 dlc ++ leBytes 2 0
    ++ (if rtr then [] else data.take (dlcLen fdf dlc))

/-- The arbitration field as a number, in the order its bits are sent; the lower one wins. -/
def arbKey (r : List Byte) : Nat :=
  let id := recId r
  let rtr := (recRtr r).toNat
  if recExt r then id / 2 ^ 18 * 2 ^ 21 + 2 ^ 20 + 2 ^ 19 + id % 2 ^ 18 * 2 + rtr
  else id % 2 ^ 11 * 2 ^ 21 + rtr * 2 ^ 20

/-- Bytes in pieces of `k`; `n` bounds them. -/
def chunks (k : Nat) : Nat → List Byte → List (List Byte)
  | 0, _ => []
  | n + 1, l => if l.isEmpty then [] else l.take k :: chunks k n (l.drop k)

/-- Eight data bytes, filled up with FFH. -/
def padFF (n : Nat) (l : List Byte) : List Byte := l ++ List.replicate (n - l.length) 0xFF#8

/-- Fast-packet frames of a message under a sequence counter (R277). -/
def fastFrames (id seq : Nat) (data : List Byte) : List (List Byte) :=
  let f0 := leBytes 1 (seq * 32) ++ leBytes 1 data.length ++ padFF 6 (data.take 6)
  extRec id f0 :: (chunks 7 data.length (data.drop 6)).zipIdx.map (fun e => extRec id (leBytes 1 (seq * 32 + e.2 + 1) ++ padFF 7 e.1))

/-- TP.DT packets `a` to `b` of a message. -/
def dtFrames (id a b : Nat) (data : List Byte) : List (List Byte) :=
  (List.range (b + 1 - a)).map (fun k => extRec id (leBytes 1 (a + k) ++ padFF 7 (slice data (7 * (a + k - 1)) 7)))

/-- The frames of the FIFO's head are worked out when it comes first (R271, R279). -/
def State.loadHead (s : State) (n : Nat) : State :=
  let c := s.ctl n
  match c.segs, (s.lisOf (32 + n)).tx with
  | none, k :: _ =>
    if k.kind = 4 then s.setCtl n { c with segs := some [k.body], headSof := none, bam := false }
    else
      let pgn := leAt k.body 0 3 % 2 ^ 18
      let pri := leAt k.body 3 1 % 8
      let sa := leAt k.body 4 1
      let da := leAt k.body 5 1
      let data := k.body.drop 8
      let m := (data.length + 6) / 7
      if s.isFast pgn then
        let key := sa * 2 ^ 18 + pgn
        let q := (tabGet? c.fpSeq key).getD 0
        s.setCtl n { c with segs := some (fastFrames (mkId pri pgn da sa) q data), headSof := none, bam := false
                            fpSeq := tabPut c.fpSeq key ((q + 1) % 8) }
      else if data.length ≤ 8 then
        s.setCtl n { c with segs := some [extRec (mkId pri pgn da sa) data], headSof := none, bam := false }
      else if da = 255 then
        let cm := extRec (mkId pri pgnCM 255 sa) (tpCM 32 (data.length % 256) (data.length / 256) m 255 pgn)
        s.setCtl n { c with segs := some (cm :: dtFrames (mkId pri pgnDT 255 sa) 1 m data), headSof := none, bam := true }
      else
        let rts := extRec (mkId pri pgnCM da sa) (tpCM 16 (data.length % 256) (data.length / 256) m 255 pgn)
        s.setCtl n { c with segs := some [rts], headSof := none, bam := false
                            tp := some ⟨da, pgn, pri, data, 1, 0, s.time.clk + 1250 * msU⟩ }
  | _, _ => s

/-- Every frame offered for the next arbitration, with its source: pending direct entries, the FIFO's head, a frame of
the controller's own. -/
def State.canOffers (s : State) (n : Nat) : List (Nat × List Byte) :=
  let c := s.ctl n
  let dir := (List.range 16).filter (fun e => s.rd (pgCAN n) (qF CAN_Q_STATE e) == 1)
  dir.map (fun e => (e, s.qRec n e))
    ++ (match c.segs, c.bamAt with | some (f :: _), none => [(16, f)] | _, _ => [])
    ++ (match c.own with | f :: _ => [(17, f)] | [] => [])

/-- The offer of highest bus priority; the earlier of equal ones. -/
def bestOffer : List (Nat × List Byte) → Option (Nat × List Byte)
  | [] => none
  | o :: l => match bestOffer l with
    | some b => if arbKey b.2 < arbKey o.2 then some b else some o
    | none => some o

/-- ATTEMPT_START (R273): SOF of an attempt, which commits the controller to the frame. -/
def State.attemptStart (s : State) (n : Nat) : State :=
  if !s.canFree n then s
  else
    let s := s.loadHead n
    match bestOffer (s.canOffers n) with
    | none => s
    | some (src, f) =>
      let s := s.setCtl n { s.ctl n with att := some ⟨src, s.time.h, f, false⟩ }
      if src < 16 then s.incSat (pgCAN n) (qF CAN_Q_ATTEMPTS src)
      else if src = 16 ∧ (s.ctl n).headSof.isNone then s.setCtl n { s.ctl n with headSof := some s.time.h }
      else s

def execAttemptStart (t : Nat) (controller : Nat) (s : State) : Host.Outcome State Fault Refusal :=
  s.happen t (·.attemptStart (controller % 8))

/-! ### Ends of an attempt -/

/-- A direct entry becomes DONE (R272). -/
def State.qDone (s : State) (n e result cres : Nat) : State :=
  let b := pgCAN n
  let s := ((s.wr b (qF CAN_Q_STATE e) 2).wr b (qF CAN_Q_RESULT e) result).wr b (qF CAN_Q_CRES e) cres
  s.raise (0x20 + n) 6

/-- The FIFO's head is finished: `sent` where its frames all went. -/
def State.headDone (s : State) (n : Nat) (sent : Bool) : State :=
  let p := 32 + n
  let c := s.ctl n
  match (s.lisOf p).tx with
  | [] => s
  | k :: _ =>
    let s := s.setCtl n { c with segs := none, headSof := none, bam := false, bamAt := none, tp := none }
    let s := s.txPop p
    match sent, c.headSof with
    | true, some sof => s.wireStamp k.handle p sof
    | _, _ => s.wireLost k.handle p

/-- A session that this controller sends ends unfinished. -/
def State.tpTxAbort (s : State) (n : Nat) : State := (s.inc (pgCAN n) CAN_C_TP_TX_ABORT).headDone n false

/-- One frame of the FIFO's head has gone. -/
def State.headSent (s : State) (n : Nat) : State :=
  let c := s.ctl n
  match c.segs with
  | some (_ :: l) =>
    let gap := s.time.clk + s.rd (pgCAN 0) CAN_BAM_GAP_MS * msU
    let c := { c with segs := some l, bamAt := if c.bam && !l.isEmpty then some gap else none
                      tp := c.tp.map (fun x => { x with due := s.time.clk + 1250 * msU }) }
    let s := s.setCtl n c
    if l.isEmpty && c.tp.isNone then s.headDone n true else s
  | _ => s

/-- CTS, EndOfMsgAck and Connection Abort for a session that this controller sends (R279). -/
def State.canAnswers (s : State) (n id : Nat) (d : List Byte) : Option State :=
  let c := s.ctl n
  match c.tp, (s.lisOf (32 + n)).tx with
  | some x, k :: _ =>
    if idSa id ≠ x.da ∨ idDa id ≠ leAt k.body 4 1 then none
    else
      let s := s.fcInc (32 + n) fcCONSUMED
      let a := leAt d 1 1
      let nx := leAt d 2 1
      let last := min (nx + a - 1) ((x.data.length + 6) / 7)
      match leAt d 0 1 with
      | 17 =>
        if a = 0 ∨ nx = 0 then some (s.setCtl n { c with tp := some { x with due := s.time.clk + 1050 * msU } })
        else some (s.setCtl n { c with
          segs := some (dtFrames (mkId x.pri pgnDT x.da (leAt k.body 4 1)) nx last x.data)
          tp := some { x with next := nx, upTo := last, due := s.time.clk + 1250 * msU } })
      | 19 => some (s.headDone n true)
      | 255 => some (s.tpTxAbort n)
      | _ => none
  | _, _ => none

/-- A good frame heard by a controller, from the bus or by its own loop (R269, R275, R277, R280). -/
def State.canGood (s : State) (n sof : Nat) (r : List Byte) (own : Bool) : State :=
  let b := pgCAN n
  let id := recId r
  let p := 32 + n
  let s := s.inc b CAN_C_FRAMES_RX
  let s := if recExt r && !own && (List.range 8).any (fun v => s.on b (vnF CAN_VN_EN v) && s.vnAddr n v == idSa id)
    then (s.inc b CAN_C_SA_CLASH).raise (0x20 + n) 3 else s
  let d := recData r
  let s := s.when (s.on (ingestAt p) INGEST_RX_EN) (·.icAdd p icBYTES d.length)
  let s := if recExt r && !recRtr r && !own then
      (if idPgn id = 0xEE00 ∧ d.length = 8 then s.seeClaim n (idSa id) (leAt d 0 8)
       else if idPgn id = 0xEA00 ∧ leAt d 0 3 % 2 ^ 18 = 0xEE00 then s.claimRequest n (idDa id) else s)
    else s
  let m : RxMeta := ⟨p, sof, s.time.h, true, s.rd pgTIME TIME_SEL_DOM, 0, 0, 0⟩
  match (if recExt r && !recRtr r && !own && idPgn id == pgnCM then s.canAnswers n id d else none) with
  | some s' => s'
  | none => s.canItem m r

/-- The attempt on the bus has ended; a commit that waited for it takes effect. -/
def State.attEnd (s : State) (n : Nat) : State :=
  let c := s.ctl n
  (s.setCtl n { c with att := none }).when c.dirty (·.canApply n)

/-- CAN_FRAME_TX_DONE (R271 to R274): the frame on the bus completes. -/
def State.canTxDone (s : State) (n : Nat) : State :=
  match (s.ctl n).att with
  | none => s
  | some a =>
    let b := pgCAN n
    let loop_ := (s.ctl n).run == 4 || (s.ctl n).run == 5
    let s := s.inc b CAN_C_FRAMES_TX
    let s := s.when ((s.ctl n).run != 4) (·.emit (.canTx (32 + n) a.frame))
    let s := s.setCtl n { s.ctl n with errRun := 0, errFrame := [] }
    let s := s.okTec n
    let s := if a.src < 16 then
        if s.rd b (qF CAN_Q_STATE a.src) ≠ 1 then s else
        let s := (s.wr b (qF CAN_Q_TX_S a.src) (secOf a.sof)).wr b (qF CAN_Q_TX_NS a.src) (nsOf a.sof)
        s.qDone n a.src 1 (if a.cancelled then 2 else 0)
      else if a.src = 16 then s.headSent n
      else if a.src = 17 then s.setCtl n { s.ctl n with own := (s.ctl n).own.drop 1 }
      else s
    let s := if loop_ then s.canGood n a.sof a.frame true else s
    s.attEnd n

def execCanFrameTxDone (t : Nat) (controller : Nat) (s : State) : Host.Outcome State Fault Refusal :=
  s.happen t (·.canTxDone (controller % 8))

/-- How an attempt fails: arbitration lost; a bit error with dominant read after the arbitration field and before the CRC
delimiter; another bit error; a stuff, form or acknowledgement error. -/
def canErrCtr (cause : Nat) : Fld :=
  match cause with
  | 0 => CAN_C_ARB_LOST
  | 1 => CAN_C_BIT_ERR
  | 2 => CAN_C_BIT_ERR
  | 3 => CAN_C_STUFF_ERR
  | 4 => CAN_C_FORM_ERR
  | _ => CAN_C_ACK_ERR

/-- Two consecutive attempts of one frame that meet a data bit error (R275). -/
def State.clashTrack (s : State) (n cause : Nat) (frame : List Byte) : State :=
  let c := s.ctl n
  if cause ≠ 1 then s.setCtl n { c with errRun := 0, errFrame := [] }
  else if c.errRun = 1 ∧ c.errFrame = frame then
    let s := (s.inc (pgCAN n) CAN_C_ID_CLASH).wr (pgCAN n) CAN_CLASH_ID (recId frame)
    s.raise (0x20 + n) 2
  else s.setCtl n { c with errRun := 1, errFrame := frame }

/-- CAN_ATTEMPT_LOST (R273): the attempt loses arbitration or meets an error. -/
def State.canLost (s : State) (n cause : Nat) : State :=
  match (s.ctl n).att with
  | none => s
  | some a =>
    let s := s.inc (pgCAN n) (canErrCtr cause)
    let s := s.clashTrack n cause a.frame
    let passiveAck := cause == 5 && s.rd (pgCAN n) CAN_ESTATE == 1
    let s := s.when (cause != 0 && !passiveAck) (·.addTec n 8)
    let s := if a.src < 16 ∧ s.rd (pgCAN n) (qF CAN_Q_STATE a.src) = 1 then
        (if a.cancelled then s.qDone n a.src 2 1
         else if s.on (pgCAN n) (qF CAN_Q_ONESHOT a.src) then s.qDone n a.src 3 0 else s)
      else s
    s.attEnd n

def execCanAttemptLost (t : Nat) (controller cause : Nat) (s : State) : Host.Outcome State Fault Refusal :=
  s.happen t (·.canLost (controller % 8) (cause % 6))

/-! ### Reception -/

/-- CAN_FRAME_RX: `cause` 0 for a good frame, else 1 bit, 2 stuff, 3 form, 4 CRC, 5 acknowledgement error. `ago` is how
long before this instant its start-of-frame edge was captured. -/
def State.canRx (s : State) (n ago cause : Nat) (r : List Byte) : State :=
  if !s.canHears n then s
  else
    let b := pgCAN n
    let fdOff := (leAt r 4 1).testBit 0 && !s.on b CAN_FD_EN
    let drives := (s.ctl n).run == 1 && !s.on b CAN_EFF_MON
    let bad (s : State) (f : Fld) : State := (s.inc b f).when drives (·.addRec n)
    match cause with
    | 1 => bad s CAN_C_BIT_ERR
    | 2 => bad s CAN_C_STUFF_ERR
    | 4 => bad s CAN_C_CRC_ERR
    | 5 => bad s CAN_C_ACK_ERR
    | 3 => bad s CAN_C_FORM_ERR
    | _ =>
      if fdOff then
        if s.on b CAN_PROT_EXC then
          ((s.setCtl n { s.ctl n with integ := true }).inc b CAN_C_PROT_EXC).raise (0x20 + n) 7
        else bad s CAN_C_FORM_ERR
      else (s.when drives (·.okRec n)).canGood n (s.time.h - ago) r false

/-- `record` is the frame as R269 lays it out. -/
def execCanFrameRx (t : Nat) (controller ago cause : Nat) (record : List Byte) (s : State) : Host.Outcome State Fault Refusal :=
  s.happen t (·.canRx (controller % 8) ago (cause % 6) record)

/-! ### The direct queue (R272, R273) -/

/-- The settable bits of word +0x00 of an entry. -/
def qCtlBits : Nat := 0xFF8

/-- A write of word +0x00 with SUBMIT. -/
def State.qSubmit (s : State) (n e w : Nat) : State :=
  s.blkGuard (0x20 + n) false (fun s =>
    let b := pgCAN n
    let off := 0x200 + 96 * e
    let t := s.setWord b rows_CAN off w
    let fdf := t.on b (qF CAN_Q_FDF e)
    if s.rd b (qF CAN_Q_STATE e) ≠ 0 ∨ (t.on b (qF CAN_Q_RTR e) && fdf) ∨ (t.on b (qF CAN_Q_BRS e) && !fdf)
        ∨ (fdf && !s.on b CAN_FD_EN) ∨ (!t.on b (qF CAN_Q_IDE e) && decide (0x7FF < t.rd b (qF CAN_Q_ID e))) then
      s.refuse (0x20 + n) errILLEGAL
    else ((((t.wr b (qF CAN_Q_STATE e) 1).wr b (qF CAN_Q_RESULT e) 0).wr b (qF CAN_Q_CRES e) 0).wr b (qF CAN_Q_ATTEMPTS e) 0))

def execCanSubmit (t : Nat) (controller entry : Nat) (word : Word) (s : State) : Host.Outcome State Fault Refusal :=
  s.happen t (·.qSubmit (controller % 8) (entry % 16) word.toNat)

/-- CANCEL: before SOF the entry ends at once; during an attempt it waits for the attempt. -/
def State.qCancel (s : State) (n e : Nat) : State :=
  s.blkGuard (0x20 + n) false (fun s =>
    if s.rd (pgCAN n) (qF CAN_Q_STATE e) ≠ 1 then s
    else match (s.ctl n).att with
    | some a => if a.src = e then s.setCtl n { s.ctl n with att := some { a with cancelled := true } } else s.qDone n e 2 1
    | none => s.qDone n e 2 1)

def execCanCancel (t : Nat) (controller entry : Nat) (s : State) : Host.Outcome State Fault Refusal :=
  s.happen t (·.qCancel (controller % 8) (entry % 16))

def State.qAck (s : State) (n e : Nat) : State :=
  s.blkGuard (0x20 + n) false (fun s =>
    if s.rd (pgCAN n) (qF CAN_Q_STATE e) = 2 then s.wr (pgCAN n) (qF CAN_Q_STATE e) 0 else s)

def execCanAck (t : Nat) (controller entry : Nat) (s : State) : Host.Outcome State Fault Refusal :=
  s.happen t (·.qAck (controller % 8) (entry % 16))

/-! ### Settings (R265 to R267) -/

/-- Words 0x044 to 0x050 are held until word 0x040 commits them. -/
def canHeld : List Nat := [0x044, 0x048, 0x04C, 0x050]

/-- Are the settings of words 0x040 to 0x050 legal as they stand (R267)? -/
def State.canLegal (s : State) (n : Nat) : Bool :=
  let b := pgCAN n
  let inR (f : Fld) (lo hi : Nat) : Bool := decide (lo ≤ s.rd b f ∧ s.rd b f ≤ hi)
  let nom := s.rd b CAN_NBRP * (1 + s.rd b CAN_NTSEG1 + s.rd b CAN_NTSEG2)
  let dat := s.rd b CAN_DBRP * (1 + s.rd b CAN_DTSEG1 + s.rd b CAN_DTSEG2)
  let m := s.rd b CAN_MODE
  let used := s.on (ingestAt (32 + n)) INGEST_RX_EN || s.on (lportAt (32 + n)) LPORT_TX_EN
  m != 7 && s.rd b CAN_WAKE_MODE != 3 && !(s.rd b CAN_WAKE_MODE == 1 && s.rd b CAN_WAKE_FILT_US == 0)
    && inR CAN_NBRP 1 1023 && inR CAN_NTSEG1 2 256 && inR CAN_NTSEG2 2 128 && inR CAN_NSJW 1 (s.rd b CAN_NTSEG2)
    && inR CAN_DBRP 1 31 && inR CAN_DTSEG1 1 32 && inR CAN_DTSEG2 1 16 && inR CAN_DSJW 1 (s.rd b CAN_DTSEG2)
    && decide (600 ≤ nom ∧ nom ≤ 60000)
    && (!s.on b CAN_FD_EN || decide (75 ≤ dat ∧ dat ≤ 1200 ∧ dat ≤ nom))
    && (decide (600 ≤ dat) || s.on b CAN_TDC_EN)
    && !((m == 4 || m == 5) && used && s.active)

/-- RECOVER leaves bus-off now (R268). -/
def State.canRecover (s : State) (n : Nat) : State := s.blkGuard (0x20 + n) false (·.busOn n)

/-- CAN_CONFIG_COMMIT: a write of word 0x040. A change waits for the frame in progress. -/
def State.canCommit (s : State) (n w : Nat) : State :=
  s.blkGuard (0x20 + n) false (fun s =>
    let b := pgCAN n
    let t := (s.applyHeld b rows_CAN canHeld).setWord b rows_CAN 0x040 w
    if t.canLegal n then
      let t := if (t.ctl n).att.isSome then t.setCtl n { t.ctl n with dirty := true } else t.canApply n
      t.when (w.testBit 8) (·.busOn n)
    else (s.dropHeld b canHeld).refuse (0x20 + n) errILLEGAL)

def execCanConfigCommit (t : Nat) (controller : Nat) (word : Word) (s : State) : Host.Outcome State Fault Refusal :=
  s.happen t (·.canCommit (controller % 8) word.toNat)

/-- CAN_INTEGRATION: 11 recessive bits have passed; the controller takes its programmed mode (R266). -/
def State.canIntegrate (s : State) (n : Nat) : State :=
  let m := s.rd (pgCAN n) CAN_MODE
  let c := s.ctl n
  if m = 6 ∨ c.att.isSome ∨ (!c.integ && !s.on (pgCAN n) CAN_EFF_MON) then s
  else (s.setCtl n { c with integ := false, run := m }).wrB (pgCAN n) CAN_EFF_MON (s.canMustMon n)

def execCanIntegration (t : Nat) (controller : Nat) (s : State) : Host.Outcome State Fault Refusal :=
  s.happen t (·.canIntegrate (controller % 8))

def execCanRecover (t : Nat) (controller : Nat) (s : State) : Host.Outcome State Fault Refusal :=
  s.happen t (·.canRecover (controller % 8))

/-- BUS_OFF_RECOVERY: 128 occurrences of 11 recessive bits with BO_AUTO 1. -/
def execBusOffRecovery (t : Nat) (controller : Nat) (s : State) : Host.Outcome State Fault Refusal :=
  s.happen t (fun s =>
    if s.on (pgCAN (controller % 8)) CAN_BO_AUTO then s.busOn (controller % 8) else s)

/-! ### Virtual nodes (R280) -/

/-- A node stops using its address and sends nothing. -/
def State.stopVn (s : State) (n v : Nat) : State :=
  let a := s.vnAddr n v
  let c := s.ctl n
  let mine := match c.claims.find? (fun e => e.1 == v) with | some e => e.2.1 | none => a
  let s := s.setCtl n { c with claims := c.claims.filter (fun e => e.1 != v), own := c.own.filter (fun f => idSa (recId f) != mine) }
  let s := { s with can := { s.can with tps := s.can.tps.map (fun (x : TpSess) =>
    if x.port == 32 + n && x.own && x.da == a then { x with own := false } else x) } }
  s.setVn n v 0xFE 0

/-- VN_ENABLE: a write of a node's word +0x08; PREF_SA is fixed while VN_EN is 1. -/
def State.vnWrite (s : State) (n v w : Nat) : State :=
  s.blkGuard (0x20 + n) false (fun s =>
    let b := pgCAN n
    let was := s.on b (vnF CAN_VN_EN v)
    let t := s.setWord b rows_CAN (0x108 + 16 * v) w
    let is := t.on b (vnF CAN_VN_EN v)
    if !s.wordLegal b rows_CAN (0x108 + 16 * v) w ∨ (was && t.rd b (vnF CAN_PREF_SA v) != s.rd b (vnF CAN_PREF_SA v)) then
      s.refuse (0x20 + n) errILLEGAL
    else if !was && is then t.startVn n v
    else if was && !is then t.stopVn n v
    else t)

def execVnEnable (t : Nat) (controller node : Nat) (word : Word) (s : State) : Host.Outcome State Fault Refusal :=
  s.happen t (·.vnWrite (controller % 8) (node % 8) word.toNat)

/-- ADDR_CLAIM_TIMEOUT: 250 ms without losing. -/
def State.claimWon (s : State) (n v : Nat) : State :=
  let c := s.ctl n
  match c.claims.find? (fun e => e.1 == v) with
  | some (_, sa, since) =>
    if since + 250 * msU ≤ s.time.clk then
      (s.setCtl n { c with claims := c.claims.filter (fun e => e.1 != v) }).setVn n v sa 2
    else s
  | none => s

def execAddrClaimTimeout (t : Nat) (controller node : Nat) (s : State) : Host.Outcome State Fault Refusal :=
  s.happen t (·.claimWon (controller % 8) (node % 8))

/-! ### Timeouts of sessions (R277, R279) -/

/-- FP_TIMEOUT: every fast-packet session that has seen no frame for FP_TO_MS. -/
def State.fpExpire (s : State) : State :=
  let wait := s.rd (pgCAN 0) CAN_FP_TO_MS * msU
  s.each (s.can.fps.filter (fun x => decide (x.lastAt + wait ≤ s.time.clk))) (fun s x => (s.dropFp x).fcInc x.port fcTIMEOUT)

def execFpTimeout (t : Nat) (s : State) : Host.Outcome State Fault Refusal :=
  s.happen t (·.fpExpire)

/-- TP_TIMEOUT: every transport session, received or sent, whose timeout has passed. -/
def State.tpExpire (s : State) : State :=
  let s := s.each (s.can.tps.filter (fun x => decide (x.due ≤ s.time.clk))) (fun s x => s.tpDrop x fcTIMEOUT 3)
  s.each (List.range 8) (fun s n =>
    match (s.ctl n).tp, (s.lisOf (32 + n)).tx with
    | some x, k :: _ =>
      if x.due ≤ s.time.clk then
        (s.ownFrame n (mkId x.pri pgnCM x.da (leAt k.body 4 1)) (tpCM 255 3 255 255 255 x.pgn)).tpTxAbort n
      else s
    | _, _ => s)

def execTpTimeout (t : Nat) (s : State) : Host.Outcome State Fault Refusal :=
  s.happen t (·.tpExpire)

/-- BAM_GAP: the next BAM packet may be offered. -/
def State.bamNext (s : State) (n : Nat) : State :=
  let c := s.ctl n
  match c.bamAt with
  | some t => if t ≤ s.time.clk then s.setCtl n { c with bamAt := none } else s
  | none => s

def execBamGap (t : Nat) (controller : Nat) (s : State) : Host.Outcome State Fault Refusal :=
  s.happen t (·.bamNext (controller % 8))

/-! ### Sleep and wake (R282) -/

/-- CAN_SLEEP_ENTRY: after the frame in progress MODE 6 takes effect and CANn_STB is asserted. -/
def State.canSleep (s : State) (n : Nat) : State :=
  let c := s.ctl n
  if s.rd (pgCAN n) CAN_MODE = 6 ∧ c.att.isNone then
    (s.setCtl n { c with run := 6, integ := false }).wr (pgCAN n) CAN_ASLEEP 1
  else s

def execCanSleepEntry (t : Nat) (controller : Nat) (s : State) : Host.Outcome State Fault Refusal :=
  s.happen t (·.canSleep (controller % 8))

/-- Is a record the wake frame of a controller? -/
def State.isWake (s : State) (n : Nat) (r : List Byte) : Bool :=
  let b := pgCAN n
  let mask := s.rd b CAN_WUF_MASK
  let dlc := leAt r 5 1 % 16
  !(leAt r 4 1).testBit 0 && recExt r == s.on b CAN_WUF_IDE && (recId r &&& mask) == (s.rd b CAN_WUF_ID &&& mask)
    && dlc == s.rd b CAN_WUF_DLC && (dlc == 0 || (leAt (recData r) 0 8 &&& s.rd b CAN_WUF_DATA) != 0)

/-- CAN_WAKE: a dominant phase of `low` in 1/65 536 ns, or with WAKE_MODE 2 a good classic frame. -/
def State.canWake (s : State) (n low ago : Nat) (r : List Byte) : State :=
  let b := pgCAN n
  let wm := s.rd b CAN_WAKE_MODE
  let hit := (wm == 1 && decide (s.rd b CAN_WAKE_FILT_US * usU ≤ low)) || (wm == 2 && s.isWake n r)
  if !s.on b CAN_ASLEEP || !hit then s
  else
    let s := ((s.inc b CAN_C_WAKES).raise (0x20 + n) 5).wr b CAN_MODE 1
    let s := s.canApply n
    if wm = 2 then s.canItem ⟨32 + n, s.time.h - ago, s.time.h, true, s.rd pgTIME TIME_SEL_DOM, 0, 0, 0⟩ r else s

def execCanWake (t : Nat) (controller low ago : Nat) (record : List Byte) (s : State) : Host.Outcome State Fault Refusal :=
  s.happen t (·.canWake (controller % 8) low ago record)

/-! ### Frame counters (R293) -/

def State.frameSnap (s : State) (ports : List Nat) : State :=
  s.each ports (fun s p => s.snapBlock (frameCtrAt p) (frameCtrAt p + 64) 8)
def State.frameClear (s : State) (ports : List Nat) : State := s.each ports (fun s p => s.clearBlock (frameCtrAt p) 8)

def execFrameFsnap (t : Nat) (port : Nat) (all clear : Bool) (s : State) : Host.Outcome State Fault Refusal :=
  s.happen t (·.blkGuard 0x20 false (fun s =>
    let l := if all then List.range 2048 else [port % 2048]
    (s.frameSnap l).when clear (·.frameClear l)))

def execFrameFclear (t : Nat) (port : Nat) (all : Bool) (s : State) : Host.Outcome State Fault Refusal :=
  s.happen t (·.blkGuard 0x20 false (fun s => s.frameClear (if all then List.range 2048 else [port % 2048])))

end Sys2Proof.Machine
end

