-- ==== Sys2Proof/Machine/Flush.lean ====
section
/-! DEFINITION. Machine/Flush.lean: the immediate flushes of a port's FIFOs (R327). -/

namespace Sys2Proof.Machine

/-- Bytes of the packets in a transmit FIFO. -/
def txBytes (l : List TxPkt) : Nat := (l.map (fun k => k.body.length)).sum

/-- Count flushed bytes, empty a transmit FIFO and settle the submissions that awaited a stamp: the head's stands if its
first bit has left at `stamp`. -/
def State.txEmpty (s : State) (p n : Nat) (stamp : Option Nat) : State :=
  let l := s.lisOf p
  let s := (s.setTx p { l with tx := [], txp := 0 }).add (fifoAt p) FIFO_TX_FLUSHED n
  match l.tx with
  | [] => s
  | k :: rest =>
    let s := match stamp with | some h => s.wireStamp k.handle p h | none => s.wireLost k.handle p
    s.each rest (fun s x => s.wireLost x.handle p)

/-- A UART ends the character in progress: `sent` characters of the head have left, the first with its start edge at
`stamp`; then the line idles. -/
def State.uartTxFlush (s : State) (p sent stamp : Nat) : State :=
  let l := s.lisOf p
  match l.tx with
  | [] => s
  | k :: _ =>
    let out := k.body.take sent
    let s := s.add (pgUART p) UART_C_TX_CHARS out.length
    let s := s.when (!out.isEmpty && !s.on (pgUART p) UART_LOOP) (·.emit (.uartTx p out))
    let s := (s.txEmpty p (txBytes l.tx - out.length) (if out.isEmpty then none else some stamp)).lineFree p
    let l := s.lisOf p
    (s.setLis p { l with endAt := s.time.clk }).when (l.brk == 0) (·.wr (pgUART p) UART_TX_BUSY 0)

/-- A CAN controller finishes a frame whose SOF has started and starts no other of the FIFO (R273). -/
def State.canTxFlush (s : State) (n : Nat) : State :=
  let c := s.ctl n
  let s := s.setCtl n { c with segs := none, headSof := none, bam := false, bamAt := none, tp := none }
  s.txEmpty (32 + n) (txBytes (s.lisOf (32 + n)).tx) c.headSof

/-- An Ethernet port ends the frame in progress with an inverted FCS; raw frames of the port complete FLUSHED (R390). -/
def State.ethTxFlush (s : State) (e : Nat) : State :=
  let raw := s.host.txd.filter (fun d => d.phase == 2 && s.ringRaw d.ring && s.rd (ringAt d.ring) TXRING_ETHP == e)
  let n := txBytes (s.lisOf (40 + e)).tx + (raw.map (fun d => d.hdr.length)).sum
  (s.txEmpty (40 + e) n none).each raw (fun s d => s.rawDone d 4 none)

/-- Immediate transmit flush of a local port. -/
def State.txFlushPort (s : State) (p sent stamp : Nat) : State :=
  if p < 32 then s.uartTxFlush p sent stamp
  else if p < 40 then s.canTxFlush (p - 32)
  else if p < 42 then s.ethTxFlush (p - 40)
  else if p < 58 then
    let n := 4 * txLevel (s.lisOf p)
    (s.tongTxFlush (p - 42)).add (fifoAt p) FIFO_TX_FLUSHED n
  else s

/-- Immediate receive flush of a port. Port 59 and entries 58 to 63 have no FIFO. -/
def State.rxFlushPort (s : State) (p : Nat) : State :=
  if 58 ≤ p ∧ p < 64 then s
  else
    let s := s.rxFlush p s.anvilHolds
    if 42 ≤ p ∧ p < 58 then s.setEng (p - 42) { s.eng (p - 42) with candMark := none, skip := false } else s

def execRxFlush (t : Nat) (port : Nat) (s : State) : Host.Outcome State Fault Refusal :=
  s.happen t (·.winGuard 0x80 false (·.rxFlushPort (port % 2048)))

/-- TX_FLUSH: `sent` and `stamp` say how far a UART had come with the item on its line. -/
def execTxFlush (t : Nat) (port sent stamp : Nat) (s : State) : Host.Outcome State Fault Refusal :=
  s.happen t (·.winGuard 0x80 false (·.txFlushPort (port % 2048) sent stamp))

end Sys2Proof.Machine
end

