-- ==== Sys2Proof/Machine/RingHop.lean ====
section
/-! DEFINITION. Machine/RingHop.lean: one hop of a ring: training (R193), LINK_UP and LINK_DOWN, wrapping (R213), and
the link frames of R192. Ports 0 to 3 are A-east, A-west, B-east and B-west. -/

namespace Sys2Proof.Machine

/-- Ring of a port (0 A, 1 B) and its side (0 east, 1 west). -/
def ringOf (p : Nat) : Nat := p / 2
def sideOf (p : Nat) : Nat := p % 2

/-- LSTATE values (R238). -/
def lsDOWN : Nat := 0
def lsTRAIN : Nat := 1
def lsUP : Nat := 2
def lsREFUSED : Nat := 3

def State.lstate (s : State) (p : Nat) : Nat := s.rd (pgRINGP p) RINGP_LSTATE

/-- The health bits of a ring: no port UP (R253). -/
def State.mirrorRingHealth (s : State) (r : Nat) : State :=
  s.setHealth (6 + r) (!s.portUp (2 * r) && !s.portUp (2 * r + 1))

/-- WRAP_A or WRAP_B: one port of the ring UP and the other not (R213). UNWRAP is raised once both are UP (R214). -/
def State.mirrorWrap (s : State) (r : Nat) : State :=
  let f := if r = 0 then RING_WRAP_A else RING_WRAP_B
  let was := s.on pgRING f
  let e := s.portUp (2 * r)
  let w := s.portUp (2 * r + 1)
  let s := (s.wrB pgRING f (e != w)).mirrorRingHealth r
  if !was && (e != w) then s.raise 0x14 1 else if was && e && w then s.raise 0x14 2 else s

/-- A SIG of this hub's own with DMODE 1, sent east on both rings. -/
def State.sendSig (s : State) (type : Nat) (data : List Byte) : State :=
  let ps := s.sigPayload type data
  let k := mkPkt s.nodeId 0x03 1 0 0 ps.1
  ps.2.each [0, 1] (fun s r => s.sendPort (ringPort r 0) true k)

/-! ### Training (R193) -/

/-- The rate an attempt starts at: as RATE_CTL forces it, else as the last attempt left it. A Ngato lane has one rate. -/
def State.startSlow (s : State) (p : Nat) : Bool :=
  if p < 4 then
    let c := s.rd (pgRINGP p) RINGP_RATE_CTL
    c == 2 || (c == 0 && (s.hop p).slow)
  else false

/-- A training attempt from its first step: idle blocks at the rate, block lock awaited. -/
def State.trainFrom (s : State) (p : Nat) (slow : Bool) : State :=
  let h := s.hop p
  let s := s.setHop p { h with lock := false, slow := slow, trainAt := s.time.clk, trains := 0, hello := false }
  if p < 4 then (s.wrB (pgRINGP p) RINGP_RATE slow).wr (pgRINGP p) RINGP_LSTATE lsTRAIN else s

/-- Is a power domain down or going down (R419)? -/
def State.domOff (s : State) (d : Nat) : Bool := (s.rd pgPWR PWR_PD).testBit d || (s.rd pgPWR PWR_PD_STAT).testBit d

/-- May a port train: from CLOCKS on (R406), signal present, domain powered, not under test (R424), not in reset, not held
down? -/
def State.mayTrain (s : State) (p : Nat) : Bool :=
  decide (2 ≤ s.rd pgPWR PWR_BOOT_STAGE ∧ s.rd pgPWR PWR_BOOT_STAGE ≤ 7) && !(s.rd pgTEST TEST_OOS).testBit p && (s.hop p).signal && ((decide (4 ≤ p) && !s.domOff 8) || (decide (p < 4) && !s.domOff (6 + p / 2) && !s.on (pgRINGP p) PG_IN_RESET && !s.on (pgRINGP p) RINGP_ADMIN_DOWN))

/-- Start training if the port may. -/
def State.startTrain (s : State) (p : Nat) : State :=
  if s.mayTrain p then s.trainFrom p (s.startSlow p)
  else if p < 4 then s.wr (pgRINGP p) RINGP_LSTATE lsDOWN else s

/-- Is a hop in training? A Ngato lane trains while it has signal and is not UP. -/
def State.training (s : State) (p : Nat) : Bool :=
  (s.hop p).signal && (if p < 4 then s.lstate p == lsTRAIN else !s.laneUp (p - 4))

/-- Fall back to 3.125 Gbaud within the first millisecond after lock, on a port with RATE_CTL 0. -/
def State.mayFall (s : State) (p : Nat) : Bool :=
  decide (p < 4) && !(s.hop p).slow && s.rd (pgRINGP p) RINGP_RATE_CTL == 0 && decide (s.time.clk < (s.hop p).trainAt + msU)

def State.rateFall (s : State) (p : Nat) : State :=
  ((s.inc (pgRINGP p) RINGP_C_RATE_FALL).raise (0x10 + p) 2).trainFrom p true

/-- Refuse a hop with a cause (R193, R208). -/
def State.refuseHop (s : State) (p ls cause : Nat) : State :=
  let s := (s.wr (pgRINGP p) RINGP_LSTATE ls).wr (pgRINGP p) RINGP_CAUSE cause
  s.raise (0x10 + p) 3

/-- Initial credits this hub advertises: CPL, REQ, ITEM (R199). -/
def ownCredits : List Nat := [512, 256, 2048]

/-- Highest and lowest major versions that this hub speaks (R195). -/
def majMax : Nat := 3
def majMin : Nat := 2

/-- The Ngato version of this build, as PG_VER of page 0x008 reports it (R264, R375). -/
def ngatoMaj : Nat := bits (Config.pageVersion 8) 31 24
def ngatoMin : Nat := bits (Config.pageVersion 8) 23 16
def ngatoBuild : Nat := bits (Config.pageVersion 8) 15 0

/-- The TRAIN frame of a port or lane: versions, rate capability, replay buffer in KiB, credits (R193, R243). -/
def State.trainFields (s : State) (p : Nat) : List Nat :=
  if p < 4 then [majMax, majMin, Config.ringMinor, s.rd (pgRINGP p) RINGP_RATE_CTL, 128] ++ ownCredits
  else [ngatoMaj, ngatoMin, ngatoBuild, 0, 256, 0, 0, 0]

/-! ### Up and down -/

/-- LINK_UP of a ring port (R193): the peer's credits, LSEQ 0 both ways, the round trip of `rtt` ns, then traffic. -/
def State.linkUp (s : State) (p id rtt : Nat) : State :=
  let b := pgRINGP p
  let h := s.hop p
  let s := s.setHop p { h with txSeq := 0, rxSeq := 0, nakAt := none, stuck := 0, freed := [0, 0, 0], freedSent := [0, 0, 0]
                               peerFreed := [0, 0, 0], hopRes := [], rxq := [] }
  let s := ((s.wr b RINGP_LSTATE lsUP).wr b RINGP_CAUSE 0).wr b RINGP_PEER_ID id
  let s := s.each (h.peerCred.zip [RINGP_CR_CPL, RINGP_CR_REQ, RINGP_CR_ITEM]) (fun s e => s.wr b e.2 e.1)
  let s := (s.wr b RINGP_RTT_NS rtt).wr b RINGP_REPLAY_US (max 5 (roundDiv rtt 1000 + 4))
  let s := (s.mirrorHop p).raise (0x10 + p) 0
  let s := s.when (s.rd b RINGP_VER_MAJ == 2) (·.raise (0x10 + p) 4)
  let s := s.mirrorWrap (ringOf p)
  let s := s.sendSig 0x02 (leBytes 1 (ringOf p) ++ leBytes 1 (sideOf p) ++ leBytes 1 (s.rd b RINGP_VER_MAJ)
    ++ leBytes 1 (s.rd b RINGP_RATE))
  s.pump p

/-- A port is no longer UP: it wraps, and what its replay buffer and queue hold goes the other way, the frames
unacknowledged with RS 1 (R213). -/
def State.portLost (s : State) (p : Nat) : State :=
  let h := s.hop p
  let s := s.setHop p { h with replay := [], queue := [], rxq := [], stallAt := none, hello := false }
  let s := (s.mirrorHop p).mirrorWrap (ringOf p)
  let s := s.each h.replay (fun s e =>
    match pktOf e.2.2 with
    | some k => (s.when (s.portUp (otherPort p)) (·.inc (pgRINGP p) RINGP_C_RESENT)).sendPort p false { k with rs := true }
    | none => s)
  s.each h.queue (fun s e => s.sendPort p e.2.1 e.2.2)

/-- LINK_DOWN of a ring port that was UP (R198, R213): counted, wrapped, and told to both hubs. -/
def State.linkDown (s : State) (p cause : Nat) : State :=
  if s.portUp p then
    let s := (s.wr (pgRINGP p) RINGP_LSTATE lsDOWN).inc (pgRINGP p) RINGP_C_LINK_DOWNS
    let s := (s.raise (0x10 + p) 1).portLost p
    s.sendSig 0x01 (leBytes 1 (ringOf p) ++ leBytes 1 (sideOf p) ++ leBytes 1 (Config.linkCause cause))
  else s

/-- LINK_DOWN if the port was UP, then training afresh. -/
def State.relink (s : State) (p cause : Nat) : State :=
  let s := s.linkDown p cause
  (s.wr (pgRINGP p) RINGP_CAUSE 0).startTrain p

/-! ### Link control frames -/

/-- An ACK or NAK of the highest LSEQ received in order. -/
def State.sendAck (s : State) (p ft : Nat) : State :=
  s.sendFrame p ft 0 (((s.hop p).rxSeq + 65535) % 65536) (leBytes 8 0)

/-- Answer a frame that failed or ran ahead: a NAK, unless one stands for less than 2 × REPLAY_US (R197). -/
def State.sendNak (s : State) (p : Nat) : State :=
  let h := s.hop p
  let open_ := match h.nakAt with
    | some t => decide (s.time.clk < t + 2 * s.rd (pgRINGP p) RINGP_REPLAY_US * usU)
    | none => false
  if open_ then s
  else ((s.setHop p { h with nakAt := some s.time.clk }).sendAck p ftNAK).hopInc p RINGP_C_NAK_TX

/-- Body lengths that a frame type allows (R192). -/
def lenOk (ft n : Nat) : Bool :=
  if ft = 1 ∨ ft = 2 then decide (8 ≤ n ∧ n ≤ 2368) else if ft = 3 ∨ ft = 4 ∨ ft = 5 then n == 8
  else if ft = 6 then n == 32 else if ft = 7 ∨ ft = 8 then n == 16 else false

/-- Receive a frame of type DATA or TIMED, or one that is discarded: `fate` 0 good, 1 LCRC failed, 2 ended by a bad
block (R190, R192, R197). -/
def State.takeFrame (s : State) (p ft vc lseq fate : Nat) (body : List Byte) : State :=
  let b := pgRINGP p
  if !s.portUp p then s
  else if fate = 2 then s.inc b RINGP_C_BLOCK_ERR
  else if fate = 1 then (s.inc b RINGP_C_LCRC_ERR).when (ft == ftDATA) (·.sendNak p)
  else
    let s := s.inc b RINGP_C_FRAMES_RX
    if !lenOk ft body.length then (s.inc b RINGP_C_FT_ERR).when (ft == ftDATA) (·.sendNak p)
    else
      let h := s.hop p
      if ft = ftTIMED then s.setHop p { h with rxq := h.rxq ++ [(vcTIME, body)] }
      else if ft ≠ ftDATA then s
      else
        let d := (lseq % 65536 + 65536 - h.rxSeq) % 65536
        if d = 0 then
          (s.setHop p { h with rxSeq := (h.rxSeq + 1) % 65536, nakAt := none, rxq := h.rxq ++ [(vc % 4, body)] }).sendAck p ftACK
        else if d < 32768 then s.sendNak p
        else (s.inc b RINGP_C_LSEQ_DUP).sendAck p ftACK

/-- The hop whose replay buffer serves a port or lane: the Ngato link has one. -/
def replayHop (p : Nat) : Nat := if p < 4 then p else 4

/-- What an acknowledgement of LSEQ `k` leaves of a replay buffer: the frames after `k`, if `k` is in it. -/
def ackRest (k : Nat) : List (Nat × Nat × List Byte) → Option (List (Nat × Nat × List Byte))
  | [] => none
  | e :: l => if e.1 = k then some l else ackRest k l

/-- Acknowledge every frame up to `k` (R196). -/
def State.takeAck (s : State) (p k : Nat) : State :=
  let q := replayHop p
  let h := s.hop q
  match ackRest (k % 65536) h.replay with
  | none => s
  | some l =>
    let s := s.setHop q { h with replay := l, progAt := s.time.clk, stuck := 0 }
    if p < 4 then (s.mirrorHop p).pump p else s.lanesPump s.twin.wait.length

/-- Resend every unacknowledged frame in order (R196, R198). -/
def State.resendAll (s : State) (p : Nat) : State :=
  s.each (s.hop (replayHop p)).replay (fun s e =>
    if p < 4 then (s.sendFrame p ftDATA e.2.1 e.1 e.2.2).inc (pgRINGP p) RINGP_C_REPLAYED else s.sendLanes e.2.1 e.1 e.2.2)

/-- Is the port or link of a hop UP? -/
def State.hopIsUp (s : State) (p : Nat) : Bool := if p < 4 then s.portUp p else s.laneUp 0 || s.laneUp 1

/-- REPLAY_US of a ring port; the Ngato link shows none, and its round trip is short. -/
def State.replayUs (s : State) (p : Nat) : Nat := if p < 4 then s.rd (pgRINGP p) RINGP_REPLAY_US else 5

/-! ### Credits (R199) -/

/-- A CREDIT frame's cumulative counts. -/
def State.takeCredits (s : State) (p : Nat) (c : List Nat) : State :=
  let h := s.hop p
  let s := s.setHop p { h with peerFreed := c }
  let s := s.each ((c.zip h.peerFreed).zip [RINGP_CR_CPL, RINGP_CR_REQ, RINGP_CR_ITEM]) (fun s e =>
    s.wr (pgRINGP p) e.2 (s.rd (pgRINGP p) e.2 + (e.1.1 + 65536 - e.1.2) % 65536))
  s.pump p

def State.sendCredits (s : State) (p : Nat) : State :=
  let h := s.hop p
  (s.setHop p { h with freedSent := h.freed }).sendFrame p ftCREDIT 0 0 (h.freed.flatMap (beBytes 2) ++ beBytes 2 0)

/-- Credits freed as a packet leaves its channel buffer. -/
def freeCred (l : List Nat) (vc n : Nat) : List Nat := l.zipIdx.map (fun e => if e.2 + 1 = vc then (e.1 + n) % 65536 else e.1)

/-! ### Probes (R206) -/

/-- The body of a PROBE. -/
def probeBody (reply : Bool) (t1 t2 t3 : Nat) : List Byte :=
  beBytes 1 reply.toNat ++ beBytes 7 0 ++ beBytes 8 t1 ++ beBytes 8 t2 ++ beBytes 8 t3

/-- One result joins the last 16; HOP_NS is their mean. Results are kept doubled, as (T4 − T1) − (T3 − T2). -/
def State.hopResult (s : State) (p : Nat) (r : Int) : State :=
  let h := s.hop p
  let l := (h.hopRes ++ [r]).drop (h.hopRes.length + 1 - 16)
  let s := s.setHop p { h with hopRes := l }
  s.wr (pgRINGP p) RINGP_HOP_NS (roundDiv l.sum.toNat (512 * l.length))

/-! ### The commands -/

/-- BLOCK_LOCK (R193): 64 consecutive valid sync headers; the hop begins to send TRAIN frames. -/
def execBlockLock (t : Nat) (port : Nat) (s : State) : Host.Outcome State Fault Refusal :=
  s.happen t (fun s =>
    let port := port % 6
    if s.training port && !(s.hop port).lock then
      (s.setHop port { s.hop port with lock := true, trainAt := s.time.clk, trains := 0 }).sendFrame port ftTRAIN 0 0
        (Config.trainBody (s.trainFields port))
    else s)

/-- BLOCK_LOCK_TIMEOUT (R193): 2 ms without lock; a port with RATE_CTL 0 changes its rate. -/
def execBlockLockTimeout (t : Nat) (port : Nat) (s : State) : Host.Outcome State Fault Refusal :=
  s.happen t (fun s =>
    let port := port % 6
    let h := s.hop port
    if s.training port && !h.lock && decide (h.trainAt + 2 * msU ≤ s.time.clk) then
      let auto := decide (port < 4) && s.rd (pgRINGP port) RINGP_RATE_CTL == 0
      s.trainFrom port (if auto then !h.slow else h.slow)
    else s)

/-- TRAIN_SEND (R193): every 10 µs in training. More than 16 invalid sync headers so far (`bad`) within the first
millisecond fall back. -/
def execTrainSend (t : Nat) (port bad : Nat) (s : State) : Host.Outcome State Fault Refusal :=
  s.happen t (fun s =>
    let port := port % 6
    if !s.training port || !(s.hop port).lock then s
    else if 16 < bad && s.mayFall port then s.rateFall port
    else s.sendFrame port ftTRAIN 0 0 (Config.trainBody (s.trainFields port)))

/-- The versions that both ends support: the highest common major, if there is one. -/
def commonMajor (mx mn : Nat) : Option Nat :=
  if max majMin mn ≤ min majMax mx then some (min majMax mx) else none

/-- A good TRAIN frame on a ring port. -/
def State.trainRing (s : State) (p mx mn minor : Nat) (cred : List Nat) : State :=
  match commonMajor mx mn with
  | none => (s.setHop p { s.hop p with trains := 0 }).refuseHop p lsTRAIN 4
  | some maj =>
    let h := s.hop p
    if maj = 2 && !h.slow then s.trainFrom p true
    else
      let same := h.peerMax == mx && h.peerMin == mn && h.peerMinor == minor && h.peerCred == cred
      let n := if same then h.trains + 1 else 1
      let s := s.setHop p { h with trains := n, peerMax := mx, peerMin := mn, peerMinor := minor, peerCred := cred }
      let s := (s.wr (pgRINGP p) RINGP_VER_MAJ maj).wr (pgRINGP p) RINGP_VER_MIN (min minor Config.ringMinor)
      if n < 3 then s
      else if cred.any (fun c => decide (c < 38)) then s.refuseHop p lsREFUSED 5
      else s.setHop p { s.hop p with hello := true }

/-- HELLO_SEND (R208): on each UP hop every 1 ms, and once training has agreed. Ring lanes only carry what R208 lists;
the Ngato link its version (R243). -/
def execHelloSend (t : Nat) (port : Nat) (s : State) : Host.Outcome State Fault Refusal :=
  s.happen t (fun s =>
    let port := port % 6
    if !(s.hop port).hello then s
    else
      let v := if port < 4 then [majMax, Config.ringMinor] else [ngatoMaj, ngatoMin, ngatoBuild]
      s.sendFrame port ftHELLO 0 0 (Config.helloBody ([s.nodeId, 1, ringOf port, sideOf port, Config.incarn (s.rd pgSBOX SBOX_BOOT)] ++ v)))

/-- Why a HELLO is refused (R208, R16), 0 if it is not. -/
def State.helloCause (s : State) (p id : Nat) (hub : Bool) (ring side : Nat) : Nat :=
  let idOk := if hub then id == 0xFE || id == 0xFF else decide (1 ≤ id ∧ id ≤ 250)
  if ring ≠ ringOf p then 1 else if side = sideOf p then 2 else if !idOk || id == s.nodeId then 3 else 0

/-- A HELLO on a ring port: it brings the hop UP, or refuses it; a hop that carried data and no longer may wraps. -/
def State.helloRing (s : State) (p id : Nat) (hub : Bool) (ring side rtt : Nat) : State :=
  let c := s.helloCause p id hub ring side
  let was := s.portUp p
  if c = 0 then (if was then s else s.linkUp p id rtt)
  else if s.rd (pgRINGP p) RINGP_CAUSE == 5 then s
  else
    let s := s.refuseHop p lsREFUSED c
    s.when was (·.portLost p)

/-- ADMIN_DOWN (R198): a write of the bit holds the port down, or lets it train again. -/
def execAdminDown (t : Nat) (port : Nat) (on : Bool) (s : State) : Host.Outcome State Fault Refusal :=
  s.happen t (·.blkGuard (0x10 + port % 4) false (fun s =>
    let p := port % 4
    let s := s.wrB (pgRINGP p) RINGP_ADMIN_DOWN on
    if on then
      let s := s.linkDown p 2
      s.wr (pgRINGP p) RINGP_LSTATE lsDOWN
    else if s.lstate p = lsDOWN then s.startTrain p else s))

/-- RETRAIN (R198): LINK_DOWN, then training. -/
def execRetrain (t : Nat) (port : Nat) (s : State) : Host.Outcome State Fault Refusal :=
  s.happen t (·.blkGuard (0x10 + port % 4) false (fun s => s.relink (port % 4) 3))

/-- DATA_FRAME (R197): a frame arrives on a ring port; see `State.takeFrame`. -/
def execDataFrame (t : Nat) (port ft vc lseq fate : Nat) (body : List Byte) (s : State) : Host.Outcome State Fault Refusal :=
  s.happen t (·.takeFrame (port % 4) ft vc lseq fate body)

/-- ACK_FRAME (R196) on a ring port, or on a Ngato lane (4, 5). -/
def execAckFrame (t : Nat) (port lseq : Nat) (s : State) : Host.Outcome State Fault Refusal :=
  s.happen t (fun s =>
    let port := port % 6
    if s.hopIsUp port then (s.hopInc port RINGP_C_FRAMES_RX).takeAck port lseq else s)

/-- NAK_FRAME (R196): acknowledges like an ACK, then every unacknowledged frame is sent again. -/
def execNakFrame (t : Nat) (port lseq : Nat) (s : State) : Host.Outcome State Fault Refusal :=
  s.happen t (fun s =>
    let port := port % 6
    if s.hopIsUp port then
      (((s.hopInc port RINGP_C_FRAMES_RX).hopInc port RINGP_C_NAK_RX).takeAck port lseq).resendAll port
    else s)

/-- CREDIT_FRAME (R199): the peer's cumulative counts for CPL, REQ and ITEM. -/
def execCreditFrame (t : Nat) (port cpl req item : Nat) (s : State) : Host.Outcome State Fault Refusal :=
  s.happen t (fun s =>
    let p := port % 4
    if s.portUp p then (s.hopInc p RINGP_C_FRAMES_RX).takeCredits p [cpl % 65536, req % 65536, item % 65536] else s)

/-- CREDIT_SEND (R199): 8 credits have been freed, or 10 µs have passed. -/
def execCreditSend (t : Nat) (port : Nat) (s : State) : Host.Outcome State Fault Refusal :=
  s.happen t (fun s =>
    if s.portUp (port % 4) then s.sendCredits (port % 4) else s)

/-- PROBE_SEND (R206): every 1 ms on each UP port. T1 is the reference clock as the frame leaves. -/
def execProbeSend (t : Nat) (port : Nat) (s : State) : Host.Outcome State Fault Refusal :=
  s.happen t (fun s =>
    let p := port % 4
    let n := ((s.hop p).probeNo + 1) % 65536
    if s.portUp p then
      (s.setHop p { s.hop p with probeNo := n }).sendFrame p ftPROBE 0 n (probeBody false s.time.clk 0 0)
    else s)

/-- PROBE_FRAME (R206): a probe is answered at once; a reply to the last probe gives one result. -/
def execProbeFrame (t : Nat) (port number : Nat) (reply : Bool) (t1 t2 t3 : Nat) (s : State) : Host.Outcome State Fault Refusal :=
  s.happen t (fun s =>
    let p := port % 4
    if !s.portUp p then s
    else
      let s := s.inc (pgRINGP p) RINGP_C_FRAMES_RX
      if !reply then s.sendFrame p ftPROBE 0 number (probeBody true t1 s.time.clk s.time.clk)
      else if number = (s.hop p).probeNo then
        s.hopResult p (toSigned 64 ((s.time.clk + 2 ^ 64 - t1 % 2 ^ 64) % 2 ^ 64) - toSigned 64 ((t3 + 2 ^ 64 - t2 % 2 ^ 64) % 2 ^ 64))
      else s)

end Sys2Proof.Machine
end

