-- ==== Sys2Proof/Machine/Twin.lean ====
section
/-! DEFINITION. Machine/Twin.lean: roles, beats, the quorum rule, takeover, the shared-bus hold, resync and handover
(R241 to R263). Applying the log is in Machine/TwinLog.lean. -/

namespace Sys2Proof.Machine

/-! ### Tokens (R232) -/

/-- One token is higher than another: by COUNT, then 0xFE above 0xFF. -/
def tokenHigher (a b : Nat) : Bool :=
  decide (b / 256 < a / 256) || (a / 256 == b / 256 && a % 256 == 0xFE && b % 256 == 0xFF)

/-- A token of the other hub has been seen (R239). -/
def State.seeToken (s : State) (e : Nat) : State :=
  if e = 0 ∨ e % 256 = s.nodeId then s
  else
    let s := if tokenHigher e (s.rd pgRING RING_EPOCH_OTHER) ∨ s.rd pgRING RING_EPOCH_OTHER = 0 then s.wr pgRING RING_EPOCH_OTHER e else s
    if tokenHigher e (s.rd pgRING RING_EPOCH) then s.raise 0x14 7 else s

/-- The token of a hub that becomes active: COUNT one above the highest it holds or has seen. -/
def State.nextToken (s : State) : Nat :=
  (max (s.rd pgRING RING_EPOCH / 256) (s.rd pgRING RING_EPOCH_OTHER / 256) + 1) % 2 ^ 24 * 256 + s.nodeId

/-! ### Beats (R227, R232, R245) -/

/-- A hub that sends beats: neither sealed nor held in strap clash. -/
def State.beats (s : State) : Bool := s.rd pgPWR PWR_BOOT_STAGE == 7 && s.role != 3 && !s.twin.clash

/-- A HUB_BEAT out of every ring port that is UP; `active` gives ROLE and EPOCH. -/
def State.sendHubBeat (s : State) (active : Bool) : State :=
  let n := s.ring.beatNo
  let s := { s with ring := { s.ring with beatNo := (n + 1) % 65536 } }
  let ps := s.sigPayload 0x10 (leBytes 1 active.toNat ++ beBytes 2 n ++ beBytes 4 (if active then s.rd pgRING RING_EPOCH else 0)
    ++ beBytes 4 (s.rd pgRING RING_ERA))
  let k := mkPkt s.nodeId 0x03 3 0 0 ps.1
  let ks := if active && s.on pgSBOX SBOX_RA_CTL then ps.2.raTag k else (k, ps.2)
  ks.2.each (List.range 4) (fun s p => if s.portUp p then s.sendPort p true ks.1 else s)

def execHubBeatSend (t : Nat) (s : State) : Host.Outcome State Fault Refusal :=
  s.happen t (fun s =>
    if s.beats then s.sendHubBeat s.active else s)

/-! ### Quorum (R257) -/

/-- Number of leaves in the node table: those the last passes hold, admitted or not (R240). -/
def State.tableLeaves (s : State) : Nat :=
  ((((s.passOf 0) ++ (s.passOf 1)).filter (fun d => !d.hub)).map (·.id)).eraseDups.length

/-- Leaves admitted on a ring. -/
def State.leaves (s : State) : List Nat :=
  ((List.range 250).map (· + 1)).filter (fun n => s.on (nodeAt n) NODE_ADM_A || s.on (nodeAt n) NODE_ADM_B)

/-- K: leaves whose BEAT_ACK came in the last 500 µs. -/
def State.ackLeaves (s : State) : Nat := (s.ring.acks.filter (fun e => decide (s.time.clk < e.2 + 500 * usU))).length

def State.mirrorK (s : State) : State := s.wr pgTWIN TWIN_ACK_LEAVES s.ackLeaves

/-- The quorum test. -/
def State.quorum (s : State) : Bool :=
  let n := if s.rd pgTWIN TWIN_EXPECT_LEAVES = 0 then s.tableLeaves else s.rd pgTWIN TWIN_EXPECT_LEAVES
  if s.on pgSYS SYS_FIRST then decide (n ≤ 2 * s.ackLeaves) else decide (n < 2 * s.ackLeaves)

/-! ### Roles -/

/-- The hubs are no longer in step, or a resync is abandoned (R250, R261). -/
def State.leaveStep (s : State) : State :=
  let ts := s.tstate
  if ts < 2 then s
  else
    let s := s.wr pgTWIN TWIN_TSTATE 1
    let s := { s with twin := { s.twin with recs := [], wait := [], store := [], fetch := none, fetched := []
                                            handing := false, stopped := false } }
    if ts = 3 then s.raise 8 4 else (s.inc pgTWIN TWIN_C_RESYNC_FAIL).raise 8 12

/-- Seal (R242, R264). -/
def State.sealHub (s : State) (cause : Nat) : State :=
  let s := ((s.wr pgTWIN TWIN_ROLE 3).wr pgTWIN TWIN_SEAL_CAUSE cause).inc pgTWIN TWIN_C_SEALS
  let s := { s with twin := { s.twin with relq := none, stopped := false, handing := false } }
  ((s.raise 8 2).when (s.on pgJRNL JRNL_TRIG_SEALED) (·.jTrigger 2)).mirrorRole

/-- An active hub has seen a higher token: DUAL_ACTIVE, and it seals (R258). -/
def State.dualSeal (s : State) : State :=
  let s := (s.inc pgTWIN TWIN_C_DUAL_ACTIVE).raise 8 8
  (s.when (s.on pgJRNL JRNL_TRIG_DUAL) (·.jTrigger 3)).sealHub 3

/-- Bring an admitted leaf into service under a new active hub. After a takeover its READY stands, as the former active
hub wrote it. -/
def State.adoptLeaf (s : State) (tko : Bool) (n : Nat) : State :=
  let s := s.readLeaf n
  s.when tko (·.wr (nodeAt n) NODE_READY 1)

/-- Local candidates that committed up to the last one the log matched are the former hub's (R252). -/
def State.dropMatched (s : State) : State :=
  let s := s.each s.twin.matched (fun s e =>
    s.each ((s.rxOf e.1).cands.filter (fun c => decide (c.id ≤ e.2))) (fun s c => s.dropCand c))
  { s with twin := { s.twin with matched := [] } }

/-- The hub becomes ACTIVE (R232, R247, R255, R260, R263): `cause` as TKO_CAUSE, `hold` for the shared-bus hold, `replay`
where unresolved items may have been emitted by the former hub. -/
def State.becomeActive (s : State) (cause : Nat) (hold replay : Bool) : State :=
  let tko := cause == 1 || cause == 2 || cause == 3
  let s := s.when tko (fun s => s.wr pgTWIN TWIN_TKO_LPOS (s.rd pgTWIN TWIN_LPOS_TX + 2 ^ 64 - 1))
  let s := s.when (s.role == 0) (fun s =>
    s.wr pgRING RING_ERA (s.nodeId * 2 ^ 24 + s.rd pgSBOX SBOX_BOOT % 2 ^ 24))
  let s := s.wr pgRING RING_EPOCH s.nextToken
  let s := (s.wr pgTWIN TWIN_ROLE 2).inc pgTWIN TWIN_C_TAKEOVERS
  let s := (s.wr pgTWIN TWIN_TKO_CAUSE cause).raise 8 0
  let s := s.when (s.on pgJRNL JRNL_TRIG_TAKEOVER) (·.jTrigger 1)
  let s := (s.wr pgTWIN TWIN_TKO_S (secOf s.time.h)).wr pgTWIN TWIN_TKO_NS (nsOf s.time.h)
  let s := (s.sendHubBeat true).wr pgTIME TIME_H_SRC 0
  let s := { s with time := { s.time with twinOfs := 0 } }.sendSyncs
  let s := { s with twin := { s.twin with relq := none, stopped := false, handing := false, store := [], fetch := none
                                          holdTo := s.time.clk + 2 * msU } }
  let s := s.wrB pgTWIN TWIN_HOLD_BUS hold
  let s := s.when replay (fun s =>
    { s with del := { s.del with items := s.del.items.map (fun e => (e.1, { e.2 with replay := true })) } })
  let s := s.dropMatched
  (((s.each s.leaves (State.adoptLeaf · tko)).mirrorRole).when (!hold) (·.startVns)).fetchItems

/-- SEALED becomes STANDBY (R260). -/
def State.rejoinHub (s : State) : State := s.wr pgTWIN TWIN_ROLE 1

/-- A relinquish on the active hub (R254). The cause that RELINQUISH carries has no stated coding: a free value. -/
def State.relinquishHub (s : State) : State :=
  let s := { (s.inc pgTWIN TWIN_C_RELINQUISHES).raise 8 1 with twin := { s.twin with stopped := true } }
  let x := s.fresh
  let s := x.2.sendLanes 0x11 0 (beBytes 8 (s.rd pgTWIN TWIN_LPOS_TX + 2 ^ 64 - 1) ++ beBytes 8 x.1)
  (s.sendHubBeat false).sealHub 1

/-- The twin's HEALTH has no RELQ_MASK bit; bit 11 is ignored. -/
def State.twinHealthy (s : State) : Bool := (s.rd pgTWIN TWIN_PEER_HEALTH &&& s.rd pgTWIN TWIN_RELQ_MASK &&& 0x7FF) == 0

/-! ### Paths (R245, R246) -/

def pathCtr (p : Nat) : Fld := match p with | 0 => TWIN_C_PATH_LOSS_TWIN | 1 => TWIN_C_PATH_LOSS_A | _ => TWIN_C_PATH_LOSS_B

def State.pathSeen (s : State) (p : Nat) : Bool := (s.rd pgTWIN TWIN_PATHS).testBit p

/-- All paths are lost: the hub no longer sees a twin, and the quorum rule decides (R256, R257). -/
def State.allLost (s : State) : State :=
  let s := s.leaveStep.wr pgTWIN TWIN_TSTATE 0
  let s := s.mirrorK
  if s.role = 2 then (if s.quorum then s else s.sealHub 2)
  else if s.role = 1 then
    (if s.quorum then { s with twin := { s.twin with relq := some (2, 0, s.time.clk) } } else s.sealHub 2)
  else s

/-- A path is lost. -/
def State.losePath (s : State) (p : Nat) : State :=
  if !s.pathSeen p then s
  else
    let m := s.rd pgTWIN TWIN_PATHS &&& (7 - 2 ^ p)
    let s := ((s.wr pgTWIN TWIN_PATHS m).inc pgTWIN (pathCtr p)).raise 8 5
    if m = 0 then s.allLost else s

/-- The Ngato link is down: its path is lost at once and the hubs leave step (R245, R250). -/
def State.ngatoDown (s : State) : State := s.leaveStep.losePath 0

/-- A beat of the twin on a path: role as R242 numbers it, and its token. An active hub with the lower of two tokens
seals (R258); AUTO_REJOIN returns a sealed hub (R260). -/
def State.twinBeat (s : State) (p role epoch : Nat) : State :=
  let s := s.wr pgTWIN TWIN_PATHS (s.rd pgTWIN TWIN_PATHS ||| 2 ^ p)
  let s := { s with twin := { s.twin with beatAt := tabPut s.twin.beatAt p s.time.clk
                                          activeAt := if role = 2 then some s.time.clk else s.twin.activeAt } }
  let s := s.when (s.tstate == 0) (·.wr pgTWIN TWIN_TSTATE 1)
  let s := (s.wr pgTWIN TWIN_PEER_ROLE role).seeToken epoch
  if s.role = 2 ∧ role = 2 ∧ tokenHigher epoch (s.rd pgRING RING_EPOCH) then
    s.dualSeal
  else if s.role = 3 ∧ role = 2 ∧ s.on pgTWIN TWIN_AUTO_REJOIN then s.rejoinHub
  else s

/-- Strap clash (R241): a HELLO or HUB_BEAT of another hub with this hub's own ID. -/
def State.strapClash (s : State) : State :=
  let s := s.raise 8 11
  s.when (s.role == 0) (fun s => { s with twin := { s.twin with clash := true } })

/-! ### Resync on the active hub (R261) -/

/-- References queued before P0 that are still unresolved, with their queues. -/
def State.oldRefs (s : State) : List (Nat × Ref) :=
  s.del.queues.flatMap (fun e => (e.2.filter (fun r => r.stat.isNone && decide (r.no < s.twin.preRef))).map (fun r => (e.1, r)))

/-- MARK DRAINED and MARK IN_STEP once no reference of before P0 is left. -/
def State.checkDrained (s : State) (sent : Bool) : State :=
  if s.active && s.tstate == 2 && (sent || s.oldRefs.isEmpty) then
    let s := (s.log (.mark 1 s.time.h)).log (.mark 0 s.time.h)
    let s := { s with twin := { s.twin with drained := true, ackAt := s.time.clk } }
    ((s.wr pgTWIN TWIN_TSTATE 3).inc pgTWIN TWIN_C_RESYNCS).raise 8 3
  else s

/-- The active hub answers JOIN: P0, and the state as it stands by BULK. -/
def State.resyncStart (s : State) : State :=
  let n := s.rd pgTWIN TWIN_LPOS_TX
  let s := s.wr pgTWIN TWIN_TSTATE 2
  let s := { s with twin := { s.twin with recs := [], acked := n, p0 := n, preRef := s.del.refNo, drained := false
                                          drainAt := some (s.time.clk + s.rd pgTWIN TWIN_DRAIN_MS * msU) } }
  s.lanesSend 0x02 (Config.bulkBody s.time.clk)

/-- DRAIN_MS has passed: what is left goes as QCOPY records, with items that the joiner lacks (R261). -/
def State.drain (s : State) : State :=
  let s := s.each s.oldRefs (fun s e =>
    let l := s.queueOf e.1
    let i := (l.findIdx? (fun r => r.no == e.2.no)).getD 0
    let after := if i = 0 then 0x3FFFF else (l.getD (i - 1) e.2).handle
    match s.item? e.2.handle with
    | some li =>
      let s := s.log (.qcopy e.1 e.2.handle after (if li.lpos = 0 then some li.item else none))
      s.putItem e.2.handle { li with lpos := s.rd pgTWIN TWIN_LPOS_TX }
    | none => s)
  s.checkDrained true

/-! ### The commands -/

/-- A HUB_BEAT of another hub, taken from ring `ring` (0 A, 1 B): node, ROLE (0 standby, 1 active), EPOCH. The first
beat with ROLE 0 of a hub that was active starts this standby's takeover (R254). -/
def State.hubBeat (s : State) (ring node role epoch : Nat) : State :=
  if node = s.nodeId then s.strapClash
  else
    let was := s.rd pgTWIN TWIN_PEER_ROLE
    let r := if role = 1 then 2 else if was ≤ 1 then was else 1
    let s := s.twinBeat (1 + ring) r epoch
    if s.role = 1 ∧ was = 2 ∧ r ≠ 2 ∧ s.twin.relq.isNone then
      { s with twin := { s.twin with relq := some (1, s.rd pgTWIN TWIN_LPOS_TX + 1, s.time.clk + 20 * usU) } }
    else s

/-- The JOIN bit of this hub's BEAT (R261); it waits for the log store (R407). -/
def State.joins (s : State) : Bool :=
  s.role == 1 && s.rd pgTWIN TWIN_LANES != 0 && s.rd pgTWIN TWIN_PEER_MAJ == ngatoMaj && s.tstate == 1
    && decide (s.cel.logSz ≤ s.cel.inited)

/-- BEAT_SEND (R245, R246). -/
def State.sendBeat (s : State) : State :=
  let s := s.mirrorK
  let n := s.twin.beatNo
  let s := { s with twin := { s.twin with beatNo := (n + 1) % 65536 } }
  let lpos := s.rd pgTWIN TWIN_LPOS_TX
  s.sendLanes 0x10 0 (beBytes 1 s.role ++ beBytes 1 s.tstate ++ beBytes 1 (s.rd pgSYS SYS_FIRST + 2 * s.joins.toNat)
    ++ beBytes 1 s.ackLeaves ++ beBytes 4 (if s.active then s.rd pgRING RING_EPOCH else 0) ++ beBytes 2 n ++ beBytes 2 0
    ++ beBytes 4 (s.rd pgTWIN TWIN_HEALTH) ++ beBytes 8 (if s.active then lpos else lpos + 2 ^ 64 - 1) ++ beBytes 8 0)

def execBeatSend (t : Nat) (s : State) : Host.Outcome State Fault Refusal :=
  s.happen t (fun s =>
    if s.beats then s.sendBeat else s)

/-- LOG_LAG_US: age of the oldest unacknowledged record. -/
def State.mirrorLag (s : State) : State :=
  s.wr pgTWIN TWIN_LOG_LAG_US (match s.twin.recs with | e :: _ => min ((s.time.clk - e.2.1) / usU) 65535 | [] => 0)

/-- Records up to LPOS `n` are acknowledged (R248). -/
def State.takeLack (s : State) (n : Nat) : State :=
  if n + 1 ≤ s.twin.acked ∨ s.rd pgTWIN TWIN_LPOS_TX ≤ n then s.mirrorLag
  else
    let s := { s with twin := { s.twin with acked := n + 1, ackAt := s.time.clk, recs := s.twin.recs.filter (fun e => decide (n < e.1)) } }
    (s.wr pgTWIN TWIN_LPOS_ACK n).mirrorLag

/-- BEAT_RX (R246): a BEAT of the twin on a Ngato lane. -/
def State.beatIn (s : State) (role ts : Nat) (join : Bool) (epoch health lpos : Nat) : State :=
  let was := s.rd pgTWIN TWIN_PEER_ROLE
  let s := s.when (s.rd pgTWIN TWIN_PEER_HEALTH != health) (fun s => (s.wr pgTWIN TWIN_PEER_HEALTH health).raise 8 6)
  let s := s.twinBeat 0 role epoch
  let s := if s.active && decide (2 ≤ s.tstate) && role == 1 then s.takeLack lpos else s
  let s := if s.active && role == 1 && join && s.tstate == 1 && s.rd pgTWIN TWIN_PEER_MAJ == ngatoMaj then s.resyncStart else s
  let s := if s.role = 1 ∧ role = 2 ∧ ts = 2 ∧ s.tstate = 1 then
      { s.wr pgTWIN TWIN_TSTATE 2 with twin := { s.twin with loaded := false, store := [] } }
    else if s.tstate = 3 ∧ ts ≤ 1 then s.leaveStep
    else s
  let s := s.checkDrained false
  if s.role = 1 ∧ was = 2 ∧ role = 0 ∧ s.twin.relq.isNone then
    { s with twin := { s.twin with relq := some (1, s.rd pgTWIN TWIN_LPOS_TX + 1, s.time.clk + 20 * usU) } }
  else s

def execBeatRx (t : Nat) (role tstate : Nat) (join : Bool) (epoch health lpos : Nat) (s : State) :
    Host.Outcome State Fault Refusal :=
  s.happen t (fun s =>
    if s.rd pgTWIN TWIN_LANES = 0 then s else s.beatIn (role % 4) (tstate % 8) join (epoch % 2 ^ 32) (health % 4096) lpos)

/-- PATH_TIMEOUT (R245): PATH_TO_US without a beat on a path. -/
def execPathTimeout (t : Nat) (path : Nat) (s : State) : Host.Outcome State Fault Refusal :=
  s.happen t (fun s =>
    let p := path % 3
    if (tabGet? s.twin.beatAt p).getD 0 + s.rd pgTWIN TWIN_PATH_TO_US * usU ≤ s.time.clk then s.losePath p else s)

/-- ROLE_DECISION (R247): after 20 ms of listening, and every 1 ms after. -/
def execRoleDecision (t : Nat) (s : State) : Host.Outcome State Fault Refusal :=
  s.happen t (fun s =>
    let s := s.mirrorK
    if s.role ≠ 0 ∨ s.twin.clash ∨ s.rd pgPWR PWR_BOOT_STAGE ≠ 7 ∨ s.time.clk < s.twin.startAt + 20 * msU then s
    else if s.rd pgTWIN TWIN_PATHS = 0 then (if s.quorum then s.becomeActive 5 true false else s)
    else if s.rd pgTWIN TWIN_PEER_ROLE = 2 then s.wr pgTWIN TWIN_ROLE 1
    else if s.rd pgTWIN TWIN_PEER_ROLE ≤ 1 ∧ s.on pgSYS SYS_FIRST then s.becomeActive 5 true false
    else s)

/-- QUORUM_CHECK (R257): while all paths are lost an active hub repeats the test, and a standby that came to that role
without a path decides by it. -/
def execQuorumCheck (t : Nat) (s : State) : Host.Outcome State Fault Refusal :=
  s.happen t (fun s =>
    let s := s.mirrorK
    if s.rd pgTWIN TWIN_PATHS ≠ 0 then s
    else if s.active then (if s.quorum then s else s.sealHub 2)
    else if s.role = 1 ∧ s.twin.relq.isNone then s.allLost
    else s)

/-- LACK_FRAME (R248). -/
def execLackFrame (t : Nat) (lpos : Nat) (s : State) : Host.Outcome State Fault Refusal :=
  s.happen t (fun s =>
    if s.active && decide (2 ≤ s.tstate) then s.takeLack lpos else s)

/-- LOG_TIMEOUT (R250): LPOS_ACK has not advanced for LOG_TO_US with records outstanding. -/
def execLogTimeout (t : Nat) (s : State) : Host.Outcome State Fault Refusal :=
  s.happen t (fun s =>
    let wait := s.rd pgTWIN TWIN_LOG_TO_US * usU
    match s.twin.recs with
    | e :: _ =>
      if s.active && s.inStep && decide (max e.2.1 s.twin.ackAt + wait ≤ s.time.clk) then
        (s.inc pgTWIN TWIN_C_LOG_STALLS).leaveStep
      else s
    | [] => s)

/-- FETCH_FRAME (R251): the active hub answers with the item. -/
def execFetchFrame (t : Nat) (leaf iseq lpos : Nat) (s : State) : Host.Outcome State Fault Refusal :=
  s.happen t (fun s =>
    match s.del.items.find? (fun e => e.2.leaf == leaf && e.2.iseq == iseq && e.2.lpos == lpos + 1) with
    | some e => if s.active then s.lanesSend 0x02 (Config.bulkItem (itemHeader e.2.item ++ e.2.item.body)) else s
    | none => s)

/-- DRAIN_TIMEOUT (R261). -/
def execDrainTimeout (t : Nat) (s : State) : Host.Outcome State Fault Refusal :=
  s.happen t (fun s =>
    if s.active && s.tstate == 2 && s.twin.drainAt.any (fun d => decide (d ≤ s.time.clk)) then s.drain else s)

/-- LOCAL_HOLD_EXPIRY (R252): a local candidate held for 2 ms without a match. -/
def execLocalHoldExpiry (t : Nat) (port : Nat) (s : State) : Host.Outcome State Fault Refusal :=
  s.happen t (fun s =>
    let p := port % 58
    match (s.rxOf p).cands with
    | c :: _ =>
      if s.standbyInStep && decide (c.born + 2 * msU ≤ s.time.clk) then (s.dropCand c).inc pgTWIN TWIN_C_LOCAL_UNMATCHED else s
    | [] => s)

/-- TIME_XFER_SEND (R262): stamps are H. -/
def execTimeXferSend (t : Nat) (s : State) : Host.Outcome State Fault Refusal :=
  s.happen t (fun s =>
    { s with time := { s.time with xferT1 := s.time.h % 2 ^ 64 } }.sendLanes 0x12 0 (probeBody false s.time.h 0 0))

/-- TIME_XFER (R262): a request is answered; on a standby in resync or in step a reply gives what H lacks of the active
hub's H. An error above 1 µs is removed by a step (R162). SEL_DOM follows the active hub: `dom`. -/
def State.timeXfer (s : State) (reply : Bool) (t1 t2 t3 dom : Nat) : State :=
  if !reply then s.sendLanes 0x12 0 (probeBody true t1 s.time.h s.time.h)
  else if !s.follows || t1 != s.time.xferT1 then s
  else
    let d (a b : Nat) : Int := toSigned 64 ((b + 2 ^ 64 - a % 2 ^ 64) % 2 ^ 64)
    let e := roundI (d t1 t2 - d t3 s.time.h) 2 + s.rdI pgTWIN TWIN_NGATO_ASYM * nsU
    let s := (s.wr pgTIME TIME_H_SRC 1).select (dom % 2)
    if 1000 * nsU < e.natAbs ∨ !s.on pgTIME TIME_H_VALID then
      let s := s.moveH e
      if s.on pgTIME TIME_H_VALID then s.inc pgTIME TIME_C_STEPS else (s.wr pgTIME TIME_H_VALID 1).raise 6 0
    else { s with time := { s.time with twinOfs := e } }

def execTimeXfer (t : Nat) (reply : Bool) (t1 t2 t3 dom : Nat) (s : State) : Host.Outcome State Fault Refusal :=
  s.happen t (·.timeXfer reply t1 t2 t3 dom)

/-- HEALTH bits that the state itself determines, mirrored where it changes; the others come with this command. -/
def healthOwn : Nat := 0xAF2

/-- HEALTH_FAULT (R253, R254): a health bit sets or clears; a bit of RELQ_MASK that is set makes an active hub relinquish. -/
def State.healthFault (s : State) (bit : Nat) (on : Bool) : State :=
  let s := if healthOwn.testBit bit then s else s.setHealth bit on
  if s.active && (s.rd pgTWIN TWIN_HEALTH).testBit bit && (s.rd pgTWIN TWIN_RELQ_MASK).testBit bit && bit != 11 then
    if s.inStep && s.twinHealthy then s.relinquishHub else s.raise 8 10
  else s

def execHealthFault (t : Nat) (bit : Nat) (on : Bool) (s : State) : Host.Outcome State Fault Refusal :=
  s.happen t (·.healthFault (bit % 12) on)

/-- RELINQUISH (R254): the frame of a relinquishing active hub. -/
def execRelinquish (t : Nat) (lpos : Nat) (s : State) : Host.Outcome State Fault Refusal :=
  s.happen t (fun s =>
    if s.role = 1 ∧ s.inStep then
      { s with twin := { s.twin with relq := some (1, (lpos + 1) % 2 ^ 64, s.time.clk + 20 * usU) } } else s)

/-- TAKEOVER (R255): the decided takeover, once what was announced is applied or 20 µs have passed. -/
def execTakeover (t : Nat) (s : State) : Host.Outcome State Fault Refusal :=
  s.happen t (fun s =>
    match s.twin.relq with
    | some (cause, upTo, until_) =>
      if s.role = 1 ∧ (upTo ≤ s.rd pgTWIN TWIN_LPOS_TX ∨ until_ ≤ s.time.clk) then
        s.leaveStep.becomeActive cause (cause == 2) true
      else s
    | none => s)

/-- BUS_HOLD_END (R259): 2 ms have passed and the twin shows no ROLE 2. -/
def execBusHoldEnd (t : Nat) (s : State) : Host.Outcome State Fault Refusal :=
  s.happen t (fun s =>
    let busy := s.twin.activeAt.any (fun a => decide (s.time.clk < a + s.rd pgTWIN TWIN_PATH_TO_US * usU))
    if s.on pgTWIN TWIN_HOLD_BUS && decide (s.twin.holdTo ≤ s.time.clk) && !busy then
      (s.wr pgTWIN TWIN_HOLD_BUS 0).mirrorRole.startVns else s)

/-- A write of 0x068 of page 0x008 that sets one of its bits 0 to 3; `others` when it sets another of them as well. -/
def State.twinWrite (s : State) (others : Bool) (f : State → State) : State :=
  s.blkGuard 8 false (fun s => if others then s.refuse 8 errILLEGAL else f s)

/-- SEAL (R254, R264). -/
def execSeal (t : Nat) (others : Bool) (s : State) : Host.Outcome State Fault Refusal :=
  s.happen t (·.twinWrite others (fun s =>
    if s.active && s.inStep then (if s.twinHealthy then s.relinquishHub else s.raise 8 10)
    else if s.role = 3 then s else s.sealHub 4))

/-- REJOIN (R260): refused unless sealed. -/
def execRejoin (t : Nat) (others : Bool) (s : State) : Host.Outcome State Fault Refusal :=
  s.happen t (·.twinWrite others (fun s => if s.role = 3 then s.rejoinHub else s.refuse 8 errILLEGAL))

/-- FORCE_ACTIVE (R247, R260): refused unless STARTING or SEALED; strap clash holds it off (R241). -/
def execForceActive (t : Nat) (others : Bool) (s : State) : Host.Outcome State Fault Refusal :=
  s.happen t (·.twinWrite others (fun s =>
    if s.role = 1 ∨ s.role = 2 then s.refuse 8 errILLEGAL
    else if s.twin.clash || !s.forward then s else s.becomeActive 4 true false))

/-- HANDOVER (R263): refused but on an active hub in step with a healthy twin. -/
def execHandover (t : Nat) (others : Bool) (s : State) : Host.Outcome State Fault Refusal :=
  s.happen t (·.twinWrite others (fun s =>
    if s.active && s.inStep && s.twinHealthy then { s with twin := { s.twin with stopped := true, handing := true } }
    else s.refuse 8 errILLEGAL))

/-- HANDOVER_DRAINED (R263): LPOS_ACK covers the last record; MARK HANDOVER, and the hub is STANDBY. -/
def execHandoverDrained (t : Nat) (s : State) : Host.Outcome State Fault Refusal :=
  s.happen t (fun s =>
    if s.active && s.twin.handing && s.twin.acked == s.rd pgTWIN TWIN_LPOS_TX then
      let s := s.log (.mark 2 s.time.h)
      let s := { s with twin := { s.twin with stopped := false, handing := false, loaded := true, recs := [] } }
      ((s.wr pgTWIN TWIN_ROLE 1).wr pgTIME TIME_H_SRC 1).mirrorRole
    else s)

end Sys2Proof.Machine
end

