-- ==== Sys2Proof/Machine/Links.lean ====
section
/-! DEFINITION. Machine/Links.lean: what lanes receive while they come up and go down: signal, TRAIN and HELLO frames, loss
of lock, replay timeouts (R193, R198, R208, R243). Ports 0 to 3 are the ring ports, 4 and 5 the Ngato lanes, 6 and 7 the
Ethernet ports. -/

namespace Sys2Proof.Machine

/-! ### Ngato lanes (R243) -/

/-- A lane comes UP; with the first one the link starts at LSEQ 0. -/
def State.laneComes (s : State) (l : Nat) : State :=
  let m := s.rd pgTWIN TWIN_LANES
  let s := if m = 0 then s.setHop 4 { s.hop 4 with txSeq := 0, rxSeq := 0, replay := [], nakAt := none, stuck := 0 } else s
  s.wr pgTWIN TWIN_LANES (m ||| 2 ^ l)

/-- A lane goes down; with the last one the link is down. -/
def State.laneGoes (s : State) (l : Nat) : State :=
  if s.laneUp l then
    let m := s.rd pgTWIN TWIN_LANES &&& (3 - 2 ^ l)
    let s := ((s.wr pgTWIN TWIN_LANES m).inc pgTWIN TWIN_C_LANE_DOWNS).raise 8 9
    let s := s.setHop (4 + l) { s.hop (4 + l) with hello := false, lock := false }
    if m = 0 then (s.setHop 4 { s.hop 4 with replay := [] }).ngatoDown else s
  else s

/-- A lane that went down trains afresh. -/
def State.relane (s : State) (l : Nat) : State := (s.laneGoes l).startTrain (4 + l)

/-- A good TRAIN frame on a lane: the peer's version; another major version never brings the link UP. -/
def State.trainLane (s : State) (p maj minor build : Nat) : State :=
  let h := s.hop p
  let s := ((s.wr pgTWIN TWIN_PEER_MAJ maj).wr pgTWIN TWIN_PEER_MIN minor).wr pgTWIN TWIN_PEER_BUILD build
  if maj ≠ ngatoMaj then
    let s := s.setHop p { h with trains := 0, hello := false }
    let s := s.when (s.tstate == 0) (·.wr pgTWIN TWIN_TSTATE 1)
    (s.inc pgTWIN TWIN_C_VER_REJECT).raise 8 7
  else
    let same := h.peerMax == maj && h.peerMinor == minor
    let n := if same then h.trains + 1 else 1
    s.setHop p { h with trains := n, peerMax := maj, peerMinor := minor, hello := h.hello || decide (3 ≤ n) }

/-! ### The commands -/

/-- SIGNAL_DETECT (R193): a ring or Ngato lane trains; an Ethernet lane has signal. -/
def State.signalOn (s : State) (p : Nat) : State :=
  if p < 4 then
    let s := s.setHop p { s.hop p with signal := true }
    if s.lstate p = lsDOWN then s.startTrain p else s
  else if p < 6 then
    let s := s.setHop p { s.hop p with signal := true }
    if s.laneUp (p - 4) then s else s.startTrain p
  else s.setEth (p - 6) { s.ethOf (p - 6) with signal := true }

def execSignalDetect (t : Nat) (lane : Nat) (s : State) : Host.Outcome State Fault Refusal :=
  s.happen t (·.signalOn (lane % 8))

/-- TRAIN_FRAME (R193). A frame that fails its LCRC within the first millisecond falls back. -/
def State.trainIn (s : State) (p : Nat) (crcGood : Bool) (mx mn minor build : Nat) (cred : List Nat) : State :=
  if !s.training p || !(s.hop p).lock then s
  else if !crcGood then
    let s := (s.hopInc p RINGP_C_LCRC_ERR).setHop p { s.hop p with trains := 0 }
    if s.mayFall p then s.rateFall p else s
  else
    let s := s.hopInc p RINGP_C_FRAMES_RX
    if p < 4 then s.trainRing p mx mn minor cred else s.trainLane p mx minor build

def execTrainFrame (t : Nat) (port : Nat) (crcGood : Bool) (major low minor build : Nat) (credits : List Nat) (s : State) :
    Host.Outcome State Fault Refusal :=
  s.happen t (·.trainIn (port % 6) crcGood (major % 256) (low % 256) (minor % 256) (build % 65536) (credits.map (· % 65536)))

/-- HELLO_FRAME (R208): node, kind, ring and side as the neighbour reports them; `rtt` is the round trip that the PROBE
frames of training measured, in ns. A hub with this hub's own ID is a strap clash (R241). -/
def State.helloIn (s : State) (p id : Nat) (hub : Bool) (ring side rtt : Nat) : State :=
  if p < 4 then
    if !(s.hop p).hello || s.lstate p = lsDOWN then s
    else
      let s := s.hopInc p RINGP_C_FRAMES_RX
      let s := s.when (hub && id == s.nodeId) (·.strapClash)
      s.helloRing p id hub ring side rtt
  else
    if !(s.hop p).hello || s.laneUp (p - 4) then s
    else if hub && id == s.nodeId then s.strapClash
    else s.laneComes (p - 4)

def execHelloFrame (t : Nat) (port node : Nat) (hub : Bool) (ring side rtt : Nat) (s : State) :
    Host.Outcome State Fault Refusal :=
  s.happen t (·.helloIn (port % 6) (node % 256) hub (ring % 2) (side % 2) rtt)

/-- LOSS_OF_LOCK (R198): block lock, or with `signal` the signal itself, has been lost for 1 µs. -/
def State.lockLost (s : State) (p : Nat) (signal : Bool) : State :=
  if p < 4 then
    let s := s.setHop p { s.hop p with lock := false, signal := (s.hop p).signal && !signal }
    if s.on (pgRINGP p) RINGP_ADMIN_DOWN then s else s.relink p 1
  else if p < 6 then
    let s := s.setHop p { s.hop p with lock := false, signal := (s.hop p).signal && !signal }
    s.relane (p - 4)
  else (s.setEth (p - 6) { s.ethOf (p - 6) with signal := (s.ethOf (p - 6)).signal && !signal }).ethDown (p - 6)

def execLossOfLock (t : Nat) (lane : Nat) (signal : Bool) (s : State) : Host.Outcome State Fault Refusal :=
  s.happen t (·.lockLost (lane % 8) signal)

/-- REPLAY_TIMEOUT (R198): no acknowledgement has advanced for REPLAY_US; the eighth in a row takes the hop down. -/
def State.replayLate (s : State) (p : Nat) : State :=
  let q := replayHop p
  let h := s.hop q
  if !s.hopIsUp p || h.replay.isEmpty || decide (s.time.clk < h.progAt + s.replayUs p * usU) then s
  else
    let s := s.hopInc p RINGP_C_REPLAY_TO
    if 8 ≤ h.stuck + 1 then
      let s := s.setHop q { h with stuck := 0 }
      if p < 4 then s.relink p 0 else (s.relane 0).relane 1
    else (s.setHop q { h with stuck := h.stuck + 1, progAt := s.time.clk }).resendAll p

def execReplayTimeout (t : Nat) (port : Nat) (s : State) : Host.Outcome State Fault Refusal :=
  s.happen t (·.replayLate (port % 6))

end Sys2Proof.Machine
end

