-- ==== Sys2Proof/Machine/CellarCmd.lean ====
section
/-! DEFINITION. Machine/CellarCmd.lean: the cellar's channels, map, scrub and window (R331 to R342), and the journal's
commands (R337 to R339). -/

namespace Sys2Proof.Machine

/-! ### Channels and the map -/

def gib : Nat := 2 ^ 30
def mib64 : Nat := 64 * 2 ^ 20

/-- Organisation word of channel `c`. -/
def orgF (f : Fld) (c : Nat) : Fld := f.at c 4

/-- Capacity in bytes of a channel's organisation (R331). -/
def State.orgBytes (s : State) (c : Nat) : Nat :=
  let f (g : Fld) : Nat := s.rd pgCELL (orgF g c)
  (if f CELL_DEV_W = 0 then 4 else 8) * 2 ^ f CELL_DENS * (1 + f CELL_RANKS2) * gib

/-- A legal organisation (R331): at most 16 GiB, x4 devices registered. -/
def State.orgOk (s : State) (c : Nat) : Bool :=
  let f (g : Fld) : Nat := s.rd pgCELL (orgF g c)
  decide (f CELL_DEV_W ≤ 1) && decide (f CELL_DENS ≤ 2) && decide (s.orgBytes c ≤ 16 * gib)
    && (f CELL_DEV_W == 0 || f CELL_REG == 1)

/-- HEALTH bit CELLAR (R253). -/
def State.mirrorCellar (s : State) : State :=
  s.setHealth 4 (s.rd pgCELL CELL_CH0_STATE == 3 || s.rd pgCELL CELL_CH1_STATE == 3)

/-- A channel is out of service, with its cause (R332). -/
def State.chLost (s : State) (c cause : Nat) : State :=
  (((s.wr pgCELL (chState c) 3).wr pgCELL (chCause c) cause).raise 0xA2 2).mirrorCellar

/-- Start-up: each channel with PRESENT 1 trains. -/
def State.startChannels (s : State) : State :=
  s.each [0, 1] (fun s c => s.wr pgCELL (chState c) (if s.on pgCELL (orgF CELL_PRESENT c) then 1 else 0))

/-- CELLAR_CHANNEL_TRAINED: a channel's training and its write-and-read test have ended. -/
def State.chTrained (s : State) (c : Nat) (trained tested : Bool) : State :=
  if s.rd pgCELL (chState c) ≠ 1 then s
  else if !trained then s.chLost c 1
  else if !tested then s.chLost c 2
  else
    let s := s.wr pgCELL (chState c) 2
    let n := s.orgBytes c
    { s with cel := if c = 0 then { s.cel with cap0 := n } else { s.cel with cap1 := n } }

def execCellarChannelTrained (t : Nat) (channel : Nat) (trained tested : Bool) (s : State) :
    Host.Outcome State Fault Refusal :=
  s.happen t (·.chTrained (channel % 2) trained tested)

/-- The regions for settings of the spill store and the host region in 64 MiB units; none if the journal would have less
than 1 GiB. -/
def regionsOf (cap log spill host : Nat) : Option (Nat × Nat × Nat) :=
  let sp := if spill = 0 then cap / 4 / mib64 * mib64 else spill * mib64
  let h := host * mib64
  if log + sp + h + gib ≤ cap then some (sp, cap - log - sp - h, h) else none

/-- The map as start-up lays it out (R333). -/
def State.layCellar (s : State) : State :=
  let cap := s.celCap
  let log := if s.chInService 0 && s.chInService 1 then 512 * 2 ^ 20 else if cap = 0 then 0 else 256 * 2 ^ 20
  let want := regionsOf cap log (s.rd pgCELL CELL_SPILL_SZ) (s.rd pgCELL CELL_HOST_SZ)
  let bad := want.isNone && cap != 0
  let r := (want.or (regionsOf cap log 0 0)).getD (0, 0, 0)
  let s := { s with cel := { s.cel with logSz := log, spillSz := r.1, jrnlSz := r.2.1, hostSz := r.2.2 } }
  let s := (s.wr pgCELL CELL_CUR_SPILL (r.1 / mib64)).wr pgCELL CELL_CUR_JRNL (r.2.1 / mib64)
  (s.wrB pgCELL CELL_MAP_ERR bad).when bad (·.raise 0xA2 4)

/-- CELLAR_INIT_DONE (R407): every granule has been written with zeros. -/
def State.celInit (s : State) : State :=
  { s with cells := s.cells.filter (fun c => decide (c.1 < s.cel.inited)), cel := { s.cel with inited := s.celCap } }

def execCellarInitDone (t : Nat) (s : State) : Host.Outcome State Fault Refusal :=
  s.happen t (·.celInit)

/-- CHANNEL_OOS: a write of an OOS bit. -/
def execChannelOos (t : Nat) (channel : Nat) (s : State) : Host.Outcome State Fault Refusal :=
  s.happen t (·.blkGuard 0xA2 false (fun s =>
    if s.chInService (channel % 2) then s.chLost (channel % 2) 4 else s))

/-- UE_LIMIT_EXCEEDED: more than UE_LIMIT uncorrectable words in one second. -/
def execUeLimitExceeded (t : Nat) (channel : Nat) (s : State) : Host.Outcome State Fault Refusal :=
  s.happen t (fun s =>
    let c := channel % 2
    if s.chInService c ∧ s.rd pgCELL CELL_UE_LIMIT < (if c = 0 then s.cel.ue0 else s.cel.ue1) then s.chLost c 3 else s)

/-! ### Scrub (R334, R335) -/

/-- Retire the granule of an address, up to 1024 on its channel. -/
def State.retire (s : State) (a : Nat) : State :=
  let g := s.granule a
  let n := (s.cel.retired.filter (fun x => x.1 == g.1)).length
  if s.cel.retired.contains g ∨ 1024 ≤ n then s
  else
    let s := { s with cel := { s.cel with retired := s.cel.retired ++ [g] } }
    let s := s.wr pgCELL (if g.1 = 0 then CELL_RETIRED0 else CELL_RETIRED1) (n + 1)
    (s.inc pgCELL CELL_C_RETIRED).raise 0xA2 3

/-- One granule of a scrub pass: corrected and uncorrectable words, with the address of the last of each. -/
def State.scrub (s : State) (a ce ceAddr ue ueAddr : Nat) (last : Bool) : State :=
  let s := s.when (ce != 0) (fun s => ((s.add pgCELL CELL_C_CE_WORDS ce).wr pgCELL CELL_CE_ADDR ceAddr).raise 0xA2 0)
  let s := s.when (ue != 0) (·.ueWords ueAddr ue)
  let s := s.when (decide (s.rd pgCELL CELL_CE_RETIRE < ce) || ue != 0) (·.retire a)
  s.when last (·.inc pgCELL CELL_C_SCRUB_PASSES)

def execCellarScrub (t : Nat) (addr ce ceAddr ue ueAddr : Nat) (last : Bool) (s : State) :
    Host.Outcome State Fault Refusal :=
  s.happen t (·.scrub addr ce ceAddr ue ueAddr last)

/-! ### BAR2 (R341) -/

/-- A host write through the window: stored if all of it lies in the host region. -/
def State.bar2 (s : State) (off : Nat) (data : List Byte) : State :=
  let a := s.rd pgCELL CELL_WIN_BASE * 2 ^ 20 + off % 2 ^ 26
  if s.hostBase ≤ a ∧ a + data.length ≤ s.hostBase + s.cel.hostSz then s.celWrite a data
  else (s.inc pgCELL CELL_C_WIN_WR_REFUSED).raise 0xA2 5

def execBar2Write (t : Nat) (offset : Nat) (data : List Byte) (s : State) : Host.Outcome State Fault Refusal :=
  s.happen t (·.bar2 offset data)

/-! ### The journal -/

/-- JOURNAL_WRITE_DONE: the cellar has acknowledged an item's journal record (R338); its cells may go (R24). -/
def State.jWritten (s : State) (h : Nat) : State :=
  match s.item? h with
  | some i => (s.putItem h { i with jrnl := true }).settle h
  | none => s

def execJournalWriteDone (t : Nat) (handle : Nat) (s : State) : Host.Outcome State Fault Refusal :=
  s.happen t (·.jWritten handle)

/-- JOURNAL_BLOCK_CLOSE: CLOSE_MS since the open block's first record. -/
def execJournalBlockClose (t : Nat) (s : State) : Host.Outcome State Fault Refusal :=
  s.happen t (fun s =>
    if s.jrnl.cur.any (fun o => decide (o.since + s.rd pgJRNL JRNL_CLOSE_MS * msU ≤ s.time.clk)) then s.jClose true else s)

/-- JOURNAL_FREEZE: a write of FREEZE. -/
def execJournalFreeze (t : Nat) (s : State) : Host.Outcome State Fault Refusal :=
  s.happen t (·.blkGuard 0xA3 false (·.jTrigger 0))

/-- FREEZE_POST_END: a window has collected until POST_S after its trigger. -/
def State.jFreezeEnd (s : State) (w : Nat) : State :=
  let f (g : Fld) : Nat := s.rd pgJRNL (g.at w 32)
  if f JRNL_W_STATE = 1 ∧ instant (f JRNL_W_TRIG_S + s.rd pgJRNL JRNL_POST_S) (f JRNL_W_TRIG_NS) 0 ≤ s.time.h then
    let s := s.wr pgJRNL (JRNL_W_LAST_B.at w 32) (match s.jrnl.blocks.getLast? with | some b => b.bseq | none => 0)
    let s := (s.wr pgJRNL (JRNL_W_STATE.at w 32) 2).raise 0xA3 0
    s.jTrim w s.jrnl.blocks.length
  else s

def execFreezePostEnd (t : Nat) (window : Nat) (s : State) : Host.Outcome State Fault Refusal :=
  s.happen t (·.jFreezeEnd (window % 4))

/-- UNFREEZE: refused unless the window is FROZEN. -/
def execUnfreeze (t : Nat) (window : Nat) (s : State) : Host.Outcome State Fault Refusal :=
  s.happen t (·.blkGuard 0xA3 false (fun s =>
    if s.jwState (window % 4) = 2 then s.wr pgJRNL (JRNL_W_STATE.at (window % 4) 32) 0 else s.refuse 0xA3 errILLEGAL))

end Sys2Proof.Machine
end

