-- ==== Sys2Proof/Machine/Selftest.lean ====
section
/-! DEFINITION. Machine/Selftest.lean: the TEST page: test slots, their conditions and results (R421 to R424, R428). -/

namespace Sys2Proof.Machine

abbrev TEST_C_LSCRUB_PASSES : Fld := ⟨0x880, 0, 64, 0⟩
abbrev TEST_C_LARDER_PAR : Fld := ⟨0x888, 0, 64, 0⟩

/-- A field of test slot `k`. -/
def tsF (f : Fld) (k : Nat) : Fld := f.at k 32
def State.ts (s : State) (k : Nat) (f : Fld) : Nat := s.rd pgTEST (tsF f k)
def State.setTs (s : State) (k : Nat) (f : Fld) (v : Nat) : State := s.wr pgTEST (tsF f k) v

/-- RSTATE values. -/
def tsIDLE : Nat := 0
def tsDEFERRED : Nat := 1
def tsRUNNING : Nat := 2
def tsPASS : Nat := 3
def tsFAIL : Nat := 4
def tsABORTED : Nat := 5
def tsCANCELLED : Nat := 6

/-- A slot's fields are legal (R423, R424). -/
def State.tsLegal (s : State) (k : Nat) : Bool :=
  let tg := s.ts k TEST_SL_TARGET
  s.ts k TEST_SL_MODE != 3 && s.ts k TEST_SL_PAT != 3 &&
    match s.ts k TEST_SL_TID with
    | 0 => decide (tg ≤ 7) | 1 => decide (tg ≤ 31) | 2 => decide (tg ≤ 7) | 3 | 4 => tg == 0 | 5 => decide (tg ≤ 1) | _ => false

/-- The condition under which a slot's test runs (R423). -/
def State.tsMayRun (s : State) (k : Nat) : Bool :=
  let tg := s.ts k TEST_SL_TARGET
  let idle (p : Nat) : Bool := (!s.on (ingestAt p) INGEST_RX_EN && !s.on (lportAt p) LPORT_TX_EN) || !s.active
  match s.ts k TEST_SL_TID with
  | 0 => (s.rd pgTEST TEST_OOS).testBit tg
  | 1 => idle tg
  | 2 => idle (32 + tg)
  | 3 | 4 => s.role == 0 || s.role == 3
  | _ => s.rd pgCELL (chState tg) == 3

/-- The larder march test destroys what the larder holds. -/
def State.larderLost (s : State) : State :=
  let s := s.each (s.del.queues.map (·.1)) (fun s q => s.setQueue q [])
  { s with del := { s.del with items := [], holds := [] } }.setCells 0

/-- The ingest pool march test destroys what the pool holds: the receive FIFOs of remote ports (R328). -/
def State.poolLost (s : State) : State :=
  { s with rx := s.rx.filter (fun e => decide (e.1 < 64))
           anvils := s.anvils.filter (fun (e : Nat × Built) => decide (e.2.cand.port < 64)) }

/-- A test starts. -/
def State.tsStart (s : State) (k : Nat) : State :=
  let s := ((s.setTs k TEST_SL_RSTATE tsRUNNING).setTs k TEST_SL_BITS 0).setTs k TEST_SL_ERRS 0
  let s : State := { s with sys := { s.sys with tests := tabPut s.sys.tests k (s.time.clk, none) } }
  match s.ts k TEST_SL_TID with
  | 3 => s.larderLost
  | 4 => s.poolLost
  | _ => s

/-- A slot ends. -/
def State.tsEnd (s : State) (k result : Nat) : State :=
  let s : State := { s with sys := { s.sys with tests := tabDel s.sys.tests k } }
  let s := (s.setTs k TEST_SL_RSTATE result).raise 3 0
  s.when (result == tsFAIL) (fun s => (s.raise 3 1).setHealth 9 true)

/-- Start and lock of a running test. -/
def State.tsRun? (s : State) (k : Nat) : Option (Nat × Option Nat) :=
  if s.ts k TEST_SL_RSTATE = tsRUNNING then some ((tabGet? s.sys.tests k).getD (s.time.clk, none)) else none

/-- The counts of a running test: a link checker counts from its lock on. -/
def State.tsCounts (s : State) (k n errs : Nat) : State :=
  match s.tsRun? k with
  | some (_, l) =>
    let counts := s.ts k TEST_SL_TID != 0 || (l.isSome && s.ts k TEST_SL_MODE != 1)
    if counts then (s.setTs k TEST_SL_BITS n).setTs k TEST_SL_ERRS errs else s
  | none => s

/-- TEST_GO: a write of word 0x00 of a slot with GO 1. -/
def State.tsGo (s : State) (k w : Nat) : State :=
  s.blkGuard 3 false (fun s =>
    if s.ts k TEST_SL_RSTATE ≠ tsIDLE then s.refuse 3 errILLEGAL
    else
      let t := s.setWord pgTEST rows_TEST (0x100 + 0x20 * k) w
      if !t.tsLegal k then s.refuse 3 errILLEGAL
      else if t.tsMayRun k then t.tsStart k else t.setTs k TEST_SL_RSTATE tsDEFERRED)

def execTestGo (t : Nat) (slot : Nat) (word : Word) (s : State) : Host.Outcome State Fault Refusal :=
  s.happen t (·.tsGo (slot % 4) word.toNat)

/-- TEST_START: a deferred test's condition holds. -/
def execTestStart (t : Nat) (slot : Nat) (s : State) : Host.Outcome State Fault Refusal :=
  s.happen t (fun s =>
    let k := slot % 4
    if s.ts k TEST_SL_RSTATE = tsDEFERRED ∧ s.tsMayRun k then s.tsStart k else s)

/-- TEST_CANCEL: `checked` and `errs` are what the test had counted. -/
def State.tsCancel (s : State) (k checked errs : Nat) : State :=
  s.blkGuard 3 false (fun s =>
    match s.ts k TEST_SL_RSTATE with
    | 1 => s.tsEnd k tsCANCELLED
    | 2 => (s.tsCounts k checked errs).tsEnd k tsCANCELLED
    | _ => s)

def execTestCancel (t : Nat) (slot checked errs : Nat) (s : State) : Host.Outcome State Fault Refusal :=
  s.happen t (·.tsCancel (slot % 4) checked errs)

/-- TEST_ABORT: a running test's condition has ceased. -/
def execTestAbort (t : Nat) (slot checked errs : Nat) (s : State) : Host.Outcome State Fault Refusal :=
  s.happen t (fun s =>
    let k := slot % 4
    if s.ts k TEST_SL_RSTATE = tsRUNNING ∧ !s.tsMayRun k then (s.tsCounts k checked errs).tsEnd k tsABORTED else s)

/-- TEST_DURATION_END (R424). A test that only generates checks nothing: its result is a free value. -/
def State.tsExpire (s : State) (k checked errs : Nat) : State :=
  match s.tsRun? k with
  | none => s
  | some (start, lock) =>
    let ms := s.ts k TEST_SL_DURATION_MS
    if ms = 0 ∨ s.time.clk < start + ms * msU then s
    else
      let s := s.tsCounts k checked errs
      let link := s.ts k TEST_SL_TID == 0
      if link && s.ts k TEST_SL_MODE == 1 then
        let x := s.fresh
        x.2.tsEnd k (if x.1 % 2 = 0 then tsPASS else tsFAIL)
      else
        let locked := match lock with | some l => decide (l ≤ start + msU) | none => false
        let good := decide (s.ts k TEST_SL_ERRS ≤ s.ts k TEST_SL_ERR_LIMIT) && (locked || !link)
        s.tsEnd k (if good then tsPASS else tsFAIL)

def execTestDurationEnd (t : Nat) (slot checked errs : Nat) (s : State) : Host.Outcome State Fault Refusal :=
  s.happen t (·.tsExpire (slot % 4) checked errs)

/-- TEST_ACK: an ended slot returns to IDLE. -/
def execTestAck (t : Nat) (slot : Nat) (s : State) : Host.Outcome State Fault Refusal :=
  s.happen t (·.blkGuard 3 false (fun s =>
    if tsPASS ≤ s.ts (slot % 4) TEST_SL_RSTATE then s.setTs (slot % 4) TEST_SL_RSTATE tsIDLE else s))

def execTfClr (t : Nat) (s : State) : Host.Outcome State Fault Refusal :=
  s.happen t (·.blkGuard 3 false (·.setHealth 9 false))

/-- CHECKER_LOCK: 64 consecutive correct bits. -/
def State.tsLock (s : State) (k : Nat) : State :=
  match s.tsRun? k with
  | some (start, none) =>
    if s.ts k TEST_SL_TID = 0 ∧ s.ts k TEST_SL_MODE ≠ 1 then
      { s with sys := { s.sys with tests := tabPut s.sys.tests k (start, some s.time.clk) } }
    else s
  | _ => s

def execCheckerLock (t : Nat) (slot : Nat) (s : State) : Host.Outcome State Fault Refusal :=
  s.happen t (·.tsLock (slot % 4))

/-- CHECKER_LOCK_LOST: 32 of 64 consecutive bits are wrong; the test ends FAIL. -/
def State.tsLockLost (s : State) (k checked errs : Nat) : State :=
  match s.tsRun? k with
  | some (_, some _) => (s.tsCounts k checked errs).tsEnd k tsFAIL
  | _ => s

def execCheckerLockLost (t : Nat) (slot checked errs : Nat) (s : State) : Host.Outcome State Fault Refusal :=
  s.happen t (·.tsLockLost (slot % 4) checked errs)

/-- LARDER_SCRUB_PASS: one pass over the larder and ingest pool met `errs` words that failed their parity. -/
def execLarderScrubPass (t : Nat) (errs : Nat) (s : State) : Host.Outcome State Fault Refusal :=
  s.happen t (fun s => (s.inc pgTEST TEST_C_LSCRUB_PASSES).add pgTEST TEST_C_LARDER_PAR errs)

end Sys2Proof.Machine
end

