-- ==== Sys2Proof/Machine/Strongbox.lean ====
section
/-! DEFINITION. Machine/Strongbox.lean: the key store, its commands, update messages, attestation, image verification and
tamper (R348 to R363, R367 to R370). -/

namespace Sys2Proof.Machine

/-! ### Windows of words: the message window (R358) and the statement window (R361) -/

/-- A whole 32-bit word of a window. -/
abbrev wordFld : Fld := ⟨0, 0, 32, 0⟩
def msgAt : Nat := 0xF10000
def stmtAt : Nat := 0xF14000

/-- `n` bytes of a window of words. -/
def State.winBytes (s : State) (base n : Nat) : List Byte :=
  ((List.range ((n + 3) / 4)).flatMap (fun i => leBytes 4 (s.rd (base + 4 * i) wordFld))).take n

/-- Write whole words of a window. -/
def State.winPut (s : State) (base : Nat) (l : List Byte) : State :=
  s.each (List.range ((l.length + 3) / 4)) (fun s i => s.wr (base + 4 * i) wordFld (leAt l (4 * i) 4))

/-- A buffer of words in the page: STAGE, SALT, INFO, AUTH_PKH1 and ID_PUB. -/
def State.sbBytes (s : State) (f : Fld) (n : Nat) : List Byte := s.winBytes (pgSBOX + f.off) n

/-! ### Slots (R349 to R352) -/

def metaF (s : State) (k : Nat) (f : Fld) : Nat := s.rd (metaAt k) f
def slLOADED : Nat := 1

/-- Bytes of a key by ALG. -/
def algLen (alg : Nat) : Nat := [0, 16, 32, 48, 48, 96].getD alg 0

/-- One engine, and one that suits the algorithm. -/
def engSuits (alg eng : Nat) : Bool :=
  match alg with
  | 1 | 2 => eng == engRING || eng == engMACSEC
  | 3 => eng == engSEAL || eng == engDERIVE
  | 4 => eng == engATTEST
  | 5 => eng == engCFG
  | _ => false

/-- A child of the root, or of a LOADED child with ENG DERIVE. -/
def State.parentOk (s : State) (p : Nat) : Bool :=
  p == 0 || (metaF s p META_LEVEL == 1 && s.slotFor p engDERIVE)

/-- May a key be put into a slot: empty, not the root's, with a legal parent and engine; slot 1 is the identity's. -/
def State.loadOk (s : State) (k alg eng p : Nat) : Bool :=
  k != 0 && metaF s k META_STATE == 0 && engSuits alg eng && s.parentOk p
    && (if k = 1 then alg == 4 && p == 0 else eng != engATTEST)

/-- KCV of a key. -/
def kcvOf (alg : Nat) (key : List Byte) : Nat :=
  leAt (if alg = 5 then Config.sha384 key else Config.hmac384 key (ascii "KCV")) 0 4

/-- ROOT_OK, ID_OK and ID_PUB follow the slots. -/
def State.mirrorSlots (s : State) : State :=
  let s := (s.wrB pgSBOX SBOX_ROOT_OK (metaF s 0 META_STATE == 1)).wrB pgSBOX SBOX_ID_OK (s.slotUsable 1)
  s.winPut (pgSBOX + SBOX_ID_PUB.off) (if s.slotUsable 1 then fixLen 96 (Config.pubOf (s.slotKey 1)) else zeros 96)

/-- Key material of a slot is zeroed. -/
def State.dropKey (s : State) (k : Nat) : State := { s with sbox := { s.sbox with keys := tabDel s.sbox.keys k } }

/-- A key comes into a slot. -/
def State.putKey (s : State) (k alg eng parent level origin : Nat) (key : List Byte) : State :=
  let b := metaAt k
  let s := (((s.wr b META_STATE 1).wr b META_ALG alg).wr b META_PARENT parent).wr b META_ENG eng
  let s := (((s.wr b META_LEVEL level).wr b META_ORIGIN origin).wr b META_CAUSE 0).add b META_GEN 1
  let s := s.wr b META_KCV (kcvOf alg key)
  { s with sbox := { s.sbox with keys := tabPut s.sbox.keys k key } }.mirrorSlots

/-- A LOADED slot's parent chain leads to `k`. -/
def State.descends (s : State) (d k : Nat) : Bool :=
  let p := metaF s d META_PARENT
  d != 0 && d != k && (p == k || (metaF s d META_LEVEL == 2 && metaF s p META_PARENT == k))

/-- A slot leaves LOADED, or is marked: its state and cause change, and every LOADED descendant is ORPHANED with it. -/
def State.slotLeave (s : State) (k state cause : Nat) : State :=
  let was := metaF s k META_STATE == 1
  let ds := if was then (List.range 128).filter (fun d => metaF s d META_STATE == 1 && s.descends d k) else []
  let s := ((s.wr (metaAt k) META_STATE state).wr (metaAt k) META_CAUSE cause).dropKey k
  let s := s.each ds (fun s d => ((s.wr (metaAt d) META_STATE 2).wr (metaAt d) META_CAUSE 1).dropKey d)
  (s.when (!ds.isEmpty) (·.raise 5 2)).mirrorSlots

/-- REVOKE of a slot; an ORPHANED or REVOKED one stays as it is (R352). -/
def State.slotRevoke (s : State) (k cause : Nat) : State :=
  if metaF s k META_STATE ≤ 1 then s.slotLeave k 3 cause else s

/-- A slot whose stored record fails its check (R350). -/
def State.slotCheck (s : State) (k : Nat) : State :=
  if metaF s k META_STATE == 1 && !Config.slotIntact k s.time.clk then
    ((s.inc pgSBOX SBOX_C_INTEG_FAIL).raise 5 3).slotLeave k 3 3
  else s

/-- A new store root from the random number generator. -/
def State.newRoot (s : State) : State :=
  let key := fixLen 32 (Config.randomKey s.sbox.rng)
  ({ s with sbox := { s.sbox with rng := s.sbox.rng + 1 } }).putKey 0 2 0 0 0 0 key

/-! ### Tamper latch -/

/-- TAMP_LATCH; HEALTH TAMPER follows it (R369). -/
def State.setLatch (s : State) (v : Nat) : State := (s.wr pgSBOX SBOX_TAMP_LATCH v).setHealth 11 (v != 0)

/-- SB_STATE once the boot step is over (R367). -/
def State.sbService (s : State) : State := s.wr pgSBOX SBOX_SB_STATE (if s.on pgSBOX PG_TEST_MODE then 3 else 1)

/-- RESUME: the boot goes on at stage ATTIC (R406). -/
def State.sbResume (s : State) : State :=
  if s.rd pgSBOX SBOX_SB_STATE ≠ 2 then s
  else s.sbService.when (s.rd pgPWR PWR_BOOT_STAGE == 3) (·.wr pgPWR PWR_BOOT_STAGE 4)

/-! ### Update messages (R358, R359) -/

structure UpdCmd where
  cmd : Nat
  slot : Nat
  head : List Byte
  data : List Byte
  deriving DecidableEq, Repr

/-- Data lengths of the commands. -/
def updLenOk (cmd : Nat) (data : List Byte) : Bool :=
  let n := data.length
  match cmd with
  | 0x02 => decide (32 ≤ n) && (algLen (leAt data 0 1) == 0 || n == 32 + algLen (leAt data 0 1))
  | 0x04 => n == 48
  | 0x06 => n == 1
  | 0x01 | 0x03 | 0x05 | 0x07 | 0x08 => n == 0
  | _ => false

/-- `n` commands that fill `l` exactly. -/
def updCmds : Nat → List Byte → Option (List UpdCmd)
  | 0, l => if l.isEmpty then some [] else none
  | n + 1, l =>
    let len := leAt l 2 2
    let data := (l.drop 4).take len
    if l.length < 4 + len ∨ !updLenOk (leAt l 0 1) data then none
    else (updCmds n (l.drop (4 + len))).map (⟨leAt l 0 1, leAt l 1 1, l.take 4, data⟩ :: ·)

/-- One command of a message on the state that those before it left: the state, or a status. -/
def State.updApply (s : State) (kupd : List Byte) (c : UpdCmd) : State × Nat :=
  let illegal : State × Nat := (s, 6)
  if 128 ≤ c.slot then illegal
  else match c.cmd with
  | 0x01 => ((s.when (metaF s 0 META_STATE == 1) (·.slotLeave 0 3 4)).newRoot, 2)
  | 0x02 =>
    let alg := leAt c.data 0 1
    let eng := leAt c.data 1 1
    let p := leAt c.data 2 1
    if 128 ≤ p ∨ !s.loadOk c.slot alg eng p ∨ (p = 0 ∧ !s.slotUsable 0) then illegal
    else match Config.gcmOpen kupd (slice c.data 4 12) (c.head ++ c.data.take 4) (c.data.drop 16) with
      | some key => (s.putKey c.slot alg eng p (if p = 0 then 1 else 2) 2 (fixLen (algLen alg) key), 2)
      | none => (s, 8)
  | 0x03 => (s.slotRevoke c.slot 4, 2)
  | 0x04 => (s.winPut (pgSBOX + SBOX_AUTH_PKH1.off) c.data, 2)
  | 0x05 => (s.setLatch 0, 2)
  | 0x06 => if 32 ≤ leAt c.data 0 1 then illegal else (s.wr pgSBOX SBOX_TAMP_EN (leAt c.data 0 1), 2)
  | 0x07 => (s.sbResume, 2)
  | _ => if c.slot = 0 then illegal else (s.slotLeave c.slot 0 5, 2)

/-- Every command in turn; the first that is refused gives the status. -/
def State.updAll (s : State) (kupd : List Byte) : List UpdCmd → State × Nat
  | [] => (s, 2)
  | c :: l =>
    let r := s.updApply kupd c
    if r.2 = 2 then r.1.updAll kupd l else r

/-- The checks of a message in their order, and its commands in one commit. -/
def State.updMessage (s : State) : State × Nat :=
  let n := s.rd pgSBOX SBOX_MSG_LEN
  let m := s.winBytes msgAt n
  let ncmd := leAt m 6 2
  let pub := slice m 32 96
  let counter := leAt m 24 4
  let auth := leAt m 28 1
  let pkh := if auth = 0 then Config.authPkh0 else s.sbBytes SBOX_AUTH_PKH1 48
  if n < 320 ∨ 16384 < n ∨ leAt m 0 4 ≠ 0x4D554253 ∨ leAt m 4 2 ≠ 1 ∨ ncmd = 0 ∨ 64 < ncmd then (s, 8)
  else match updCmds ncmd ((m.take (n - 96)).drop 224) with
  | none => (s, 8)
  | some cs =>
    if slice m 8 16 ≠ fixLen 16 Config.devUid then (s, 9)
    else if 1 < auth ∨ Config.sha384 pub ≠ pkh ∨ (auth = 1 ∧ pkh = zeros 48) then (s, 10)
    else if !Config.ecdsaVerify pub (m.take (n - 96)) (m.drop (n - 96)) then (s, 11)
    else if counter ≤ s.rd pgSBOX SBOX_UPD_CTR then (s, 12)
    else
      let z := Config.ecdh Config.transPriv (slice m 128 96)
      let kupd := Config.hkdf384 z Config.devUid (ascii "SBUM" ++ slice m 24 4) 32
      let r := s.updAll kupd cs
      if r.2 = 2 then (r.1.wr pgSBOX SBOX_UPD_CTR counter, 2) else (s, r.2)

/-! ### Attestation (R361) and images (R362) -/

/-- The metadata of every slot, in slot order. -/
def State.allMeta (s : State) : List Byte :=
  (List.range 128).flatMap (fun k => ([0, 4, 8].flatMap (fun o => leBytes 4 (s.word (metaAt k) rows_META o))) ++ zeros 20)

/-- Bytes 0 to 199 of a statement. -/
def State.statement (s : State) (nonce : List Byte) : List Byte :=
  let b := pgSBOX
  leBytes 4 0x54414253 ++ leBytes 2 1 ++ leBytes 2 296 ++ fixLen 16 Config.devUid ++ leBytes 1 0x41
    ++ leBytes 1 (s.rd b SBOX_SB_STATE) ++ leBytes 1 (s.rd b SBOX_TAMP_LATCH)
    ++ leBytes 1 (s.rd b SBOX_CLEAR_LOCK + 2 * s.rd pgTIME TIME_H_VALID + 4 * s.rd pgTIME TIME_SEL_DOM)
    ++ leBytes 4 (Config.pageVersion 0) ++ leBytes 4 (s.rd b SBOX_BOOT) ++ leBytes 4 (s.rd b SBOX_UPD_CTR)
    ++ leBytes 4 (s.rd b SBOX_TAMPER_CNT) ++ leBytes 8 (secOf s.time.h) ++ leBytes 4 (nsOf s.time.h) ++ fixLen 48 nonce
    ++ fixLen 48 (Config.sha384 s.allMeta)
    ++ fixLen 48 (Config.sha384 (fixLen 48 Config.authPkh0 ++ s.sbBytes SBOX_AUTH_PKH1 48))

/-- Does the image lie wholly within the host region? -/
def State.imageFits (s : State) : Bool :=
  let a := s.rd pgSBOX SBOX_IMG_ADDR
  let fin := s.hostBase + s.cel.hostSz
  decide (s.hostBase ≤ a) && decide (a + 176 ≤ fin) && decide (a + 176 + leAt (memRead s.cells (a + 28) 4) 0 4 ≤ fin)

/-- The checks of an image: a status. -/
def State.imageStatus (s : State) (key : List Byte) : Nat :=
  let a := s.rd pgSBOX SBOX_IMG_ADDR
  let h := memRead s.cells a 176
  let n := leAt h 28 4
  if leAt h 0 4 ≠ 0x47434C49 ∨ leAt h 4 2 ≠ 1 ∨ 64 * 2 ^ 20 < n then 8
  else if (leAt h 6 1).testBit 0 ∧ slice h 8 16 ≠ fixLen 16 Config.devUid then 9
  else if !Config.ecdsaVerify key (h.take 80) (h.drop 80) then 11
  else if leAt h 24 4 < s.rd pgSBOX SBOX_CFG_CTR then 12
  else if Config.sha384 (memRead s.cells (a + 176) n) ≠ slice h 32 48 then 14 else 2

/-! ### The command engine (R354 to R356) -/

/-- STAGE, SALT and INFO are zeroed. -/
def State.zeroBufs (s : State) : State :=
  ((s.winPut (pgSBOX + SBOX_STAGE.off) (zeros 96)).winPut (pgSBOX + SBOX_SALT.off) (zeros 48)).winPut (pgSBOX + SBOX_INFO.off) (zeros 48)

/-- A command ends with a status. -/
def State.sbEnd (s : State) (status : Nat) : State :=
  let s := { s with sbox := { s.sbox with op := none } }.wr pgSBOX SBOX_OP_STATUS status
  let s := s.when (status != 2) (·.inc pgSBOX SBOX_C_OP_FAIL)
  (s.when (status == 3) (·.inc pgSBOX SBOX_C_KEY_REVOKED_OPS)).zeroBufs.raise 5 0

/-- Is a command accepted in the present state (R355)? -/
def State.sbAccepts (s : State) (cmd : Nat) : Bool :=
  let lock := s.on pgSBOX SBOX_CLEAR_LOCK
  match s.rd pgSBOX SBOX_SB_STATE with
  | 0 => cmd == 6
  | 1 => !(lock && (cmd == 1 || cmd == 5))
  | _ => cmd == 3 || cmd == 6 || cmd == 7

/-- A write of page 0x005: its commands are needed in STARTUP and RECOVERY as well, before the page reads READY. -/
def State.sbGuard (s : State) (f : State → State) : State :=
  if s.rd pgPWR PWR_BOOT_STAGE == 3 || s.rd pgPWR PWR_BOOT_STAGE == 2 then
    if s.on pgSBOX PG_LOCK then s.refuse 5 errLOCKED else f s
  else s.blkGuard 5 false f

/-- GO with a command. -/
def State.sbGo (s : State) (cmd : Nat) (adv : Bool) : State :=
  s.sbGuard (fun s =>
    if s.sbox.op.isSome then s.refuse 5 errILLEGAL
    else if cmd == 8 && !s.imageFits then s.refuse 5 errILLEGAL
    else
      let s := s.inc pgSBOX SBOX_C_OPS
      if !s.sbAccepts cmd then s.sbEnd 7
      else
        let b := pgSBOX
        let op : SbOp := { cmd := cmd, slot := s.rd b SBOX_SLOT, src := s.rd b SBOX_SRC_SLOT, alg := s.rd b SBOX_ALG
                           eng := s.rd b SBOX_ENG, adv := adv, stage := s.sbBytes SBOX_STAGE 96
                           salt := (s.sbBytes SBOX_SALT 48).take (s.rd b SBOX_SALT_LEN)
                           info := (s.sbBytes SBOX_INFO 48).take (s.rd b SBOX_INFO_LEN) }
        { s with sbox := { s.sbox with op := some op } }.wr b SBOX_OP_STATUS 1)

/-- LOAD_CLEAR at its end. -/
def State.endLoad (s : State) (o : SbOp) : State :=
  if !s.loadOk o.slot o.alg o.eng o.src then s.sbEnd 6
  else if o.src = 0 ∧ !s.slotUsable 0 then s.sbEnd 4
  else (s.putKey o.slot o.alg o.eng o.src (if o.src = 0 then 1 else 2) 1 (o.stage.take (algLen o.alg))).sbEnd 2

/-- A named key is checked before its use; one that fails ends the command (R350, R354). -/
def State.withKey (s : State) (k : Nat) (f : State → State) : State :=
  let t := s.slotCheck k
  if metaF s k META_STATE == 1 && metaF t k META_STATE != 1 then t.sbEnd 3 else f t

/-- DERIVE at its end (R357). -/
def State.endDerive (s : State) (o : SbOp) : State :=
  if !s.slotUsable o.src then s.sbEnd 4
  else if metaF s o.src META_ALG ≠ 3 ∨ metaF s o.src META_ENG ≠ engDERIVE then s.sbEnd 5
  else if 3 < o.alg ∨ !s.loadOk o.slot o.alg o.eng o.src ∨ 48 < s.rd pgSBOX SBOX_SALT_LEN ∨ 48 < s.rd pgSBOX SBOX_INFO_LEN then s.sbEnd 6
  else s.withKey o.src (fun s =>
    let key := fixLen (algLen o.alg) (Config.hkdf384 (s.slotKey o.src) o.salt o.info (algLen o.alg))
    (s.putKey o.slot o.alg o.eng o.src (metaF s o.src META_LEVEL + 1) 3 key).sbEnd 2)

/-- ATTEST at its end (R361). -/
def State.endAttest (s : State) (o : SbOp) : State :=
  if !s.slotUsable 1 then s.sbEnd 13
  else s.withKey 1 (fun s =>
    let m := s.statement (o.stage.take 48)
    ((s.winPut stmtAt (m ++ fixLen 96 (Config.ecdsaSign (s.slotKey 1) m))).inc pgSBOX SBOX_C_ATTESTS).sbEnd 2)

/-- VERIFY_IMAGE at its end (R362). -/
def State.endVerify (s : State) (o : SbOp) : State :=
  let fin (s : State) (st : Nat) : State := (s.wr pgSBOX SBOX_IMG_RESULT st).sbEnd st
  if !s.slotUsable o.src then fin s 4
  else if metaF s o.src META_ALG ≠ 5 ∨ metaF s o.src META_ENG ≠ engCFG then fin s 5
  else s.withKey o.src (fun s =>
    let st := s.imageStatus (s.slotKey o.src)
    let s := s.when (st == 2 && o.adv) (fun s => s.wr pgSBOX SBOX_CFG_CTR (leAt (memRead s.cells (s.rd pgSBOX SBOX_IMG_ADDR + 24) 4) 0 4))
    fin s st)

/-- APPLY_UPDATE at its end (R359). -/
def State.endUpdate (s : State) : State :=
  let r := s.updMessage
  if r.2 = 2 then (r.1.inc pgSBOX SBOX_C_UPD_ACCEPT).sbEnd 2
  else ((s.inc pgSBOX SBOX_C_UPD_REJECT).raise 5 4).sbEnd r.2

/-- COMMAND_DONE: the command in progress ends and its output is released; in STARTUP it is held. -/
def State.sbDone (s : State) : State :=
  match s.sbox.op with
  | none => s
  | some o =>
    if s.rd pgSBOX SBOX_SB_STATE = 0 then s
    else match o.cmd with
    | 1 => s.endLoad o
    | 2 => s.endDerive o
    | 3 => (s.slotRevoke o.slot 4).sbEnd 2
    | 4 => if o.slot = 0 then s.sbEnd 6 else (s.slotLeave o.slot 0 5).sbEnd 2
    | 5 =>
      if metaF s 0 META_STATE = 1 then s.sbEnd 6
      else if s.rd pgSBOX SBOX_TAMP_LATCH ≠ 0 then s.sbEnd 7 else s.newRoot.sbEnd 2
    | 6 => s.endUpdate
    | 7 => s.endAttest o
    | _ => s.endVerify o

def execLoadClear (t : Nat) (s : State) : Host.Outcome State Fault Refusal :=
  s.happen t (·.sbGo 1 false)
def execDerive (t : Nat) (s : State) : Host.Outcome State Fault Refusal :=
  s.happen t (·.sbGo 2 false)
def execRevoke (t : Nat) (s : State) : Host.Outcome State Fault Refusal :=
  s.happen t (·.sbGo 3 false)
def execErase (t : Nat) (s : State) : Host.Outcome State Fault Refusal :=
  s.happen t (·.sbGo 4 false)
def execNewRoot (t : Nat) (s : State) : Host.Outcome State Fault Refusal :=
  s.happen t (·.sbGo 5 false)
def execApplyUpdate (t : Nat) (s : State) : Host.Outcome State Fault Refusal :=
  s.happen t (·.sbGo 6 false)
def execAttest (t : Nat) (s : State) : Host.Outcome State Fault Refusal :=
  s.happen t (·.sbGo 7 false)
def execVerifyImage (t : Nat) (advance : Bool) (s : State) : Host.Outcome State Fault Refusal :=
  s.happen t (·.sbGo 8 advance)
def execCommandDone (t : Nat) (s : State) : Host.Outcome State Fault Refusal :=
  s.happen t (·.sbDone)

/-! ### Tamper (R368, R369) -/

/-- What the strongbox does at an alarm. -/
def State.alarmActs (s : State) : State :=
  let s := s.slotRevoke 0 2
  let s := if s.sbox.op.isSome then s.sbEnd 3 else s.zeroBufs
  let s := (s.inc pgSBOX SBOX_TAMPER_CNT).raise 5 1
  s.when (s.on pgJRNL JRNL_TRIG_TAMPER) (·.jTrigger 4)

/-- TAMPER_ALARM: a sensor latches; an enabled one raises an alarm. Alarms behind an alarm still latched only count.
During device sleep the latch holds the alarm for the wake, which it may cause (R416). -/
def State.tamper (s : State) (src : Nat) : State :=
  let old := s.rd pgSBOX SBOX_TAMP_LATCH
  let en := s.rd pgSBOX SBOX_TAMP_EN
  let s := s.setLatch (old ||| 2 ^ src)
  if !en.testBit src then s
  else if s.rd pgPWR PWR_BOOT_STAGE = 8 then { s with sbox := { s.sbox with owed := s.sbox.owed || old &&& en == 0 } }
  else
    let s := s.inc pgSBOX SBOX_C_TAMPER_ALARMS
    if old &&& en ≠ 0 then s else s.alarmActs

/-- TAMP_ARM. -/
def execTampArm (t : Nat) (mask : Nat) (s : State) : Host.Outcome State Fault Refusal :=
  s.happen t (·.sbGuard (fun s => s.wr pgSBOX SBOX_TAMP_EN (s.rd pgSBOX SBOX_TAMP_EN ||| mask % 32)))

/-- TAMP_CLR: acts in SERVICE while CLEAR_LOCK is 0. -/
def execTampClr (t : Nat) (s : State) : Host.Outcome State Fault Refusal :=
  s.happen t (·.sbGuard (fun s =>
    if s.rd pgSBOX SBOX_SB_STATE = 1 ∧ !s.on pgSBOX SBOX_CLEAR_LOCK then s.setLatch 0 else s))

def execClearLock (t : Nat) (s : State) : Host.Outcome State Fault Refusal :=
  s.happen t (·.sbGuard (fun s => s.wr pgSBOX SBOX_CLEAR_LOCK 1))

/-- The boot step (R348, R350, R369): BOOT rises, every slot is checked, and a latched alarm holds the boot. -/
def State.sbBoot (s : State) : State :=
  let s := s.add pgSBOX SBOX_BOOT 1
  let s := s.each (List.range 128) State.slotCheck
  let s := if s.sbox.owed then
      ({ s with sbox := { s.sbox with owed := false } }.inc pgSBOX SBOX_C_TAMPER_ALARMS).alarmActs else s
  if s.rd pgSBOX SBOX_TAMP_LATCH &&& s.rd pgSBOX SBOX_TAMP_EN ≠ 0 then s.wr pgSBOX SBOX_SB_STATE 2 else s.sbService

/-- C of the seal chain at start-up (R363). -/
def State.chainStart (s : State) : State :=
  let k := s.slotKey (s.rd pgSBOX SBOX_SEAL_SLOT)
  let c := fixLen 32 (Config.hmac384 k (ascii "JRNLSEAL" ++ fixLen 16 Config.devUid ++ leBytes 4 (s.rd pgSBOX SBOX_BOOT)))
  { s with sbox := { s.sbox with chain := c, sealKey := none } }

end Sys2Proof.Machine
end

