-- ==== Sys2Proof/Machine/Pages.lean ====
section
/-! DEFINITION. Machine/Pages.lean: the page header (R10, R11, R375 to R377), the soft reset of one block (R417, R418) and
power domains (R419). -/

namespace Sys2Proof.Machine

/-! ### PG_STAT and PG_LOCK -/

/-- ERR_V of a page that names an entry of its table in ERR_INDEX: it holds as long as ERROR does. -/
def errV (page : Nat) : Option Fld :=
  match page with
  | 0x90 => some FLOW_ERR_V | 0x91 => some RULE_ERR_V | 0x92 => some CONC_ERR_V | 0xA1 => some BELL_ERR_V
  | 0x14 => some RING_ERR_V | _ => none

/-- ERROR and its code clear, and the page's bit of ERR_SUM (R11, R399). -/
def State.clearError (s : State) (page : Nat) : State :=
  let s := (s.wr (pgAt page) PG_ERROR 0).wr (pgAt page) PG_ERR_CODE 0
  let s := match errV page with | some f => s.wr (pgAt page) f 0 | none => s
  let f := sumFld SYS_ERR_SUM page
  s.wr pgSYS f (s.rd pgSYS f &&& (2 ^ 32 - 1 - 2 ^ (page % 32)))

def execPgStatErrorClear (t : Nat) (page : Nat) (s : State) : Host.Outcome State Fault Refusal :=
  s.happen t (·.hdrGuard (page % 256) (·.clearError (page % 256)))

/-- PAGE_LOCK: LOCK 1 on a page; on a locked one it is refused (R377). -/
def State.lockPage (s : State) (page key : Nat) : State :=
  if s.on (pgAt page) PG_LOCK then s.refuse page errLOCKED
  else (s.wr (pgAt page) PG_LOCK 1).wr (pgAt page) PG_LKEY key

def execPageLock (t : Nat) (page key : Nat) (s : State) : Host.Outcome State Fault Refusal :=
  s.happen t (·.hdrGuard (page % 256) (·.lockPage (page % 256) key))

/-- PAGE_UNLOCK: LOCK 0 with a key (R377). -/
def State.unlockPage (s : State) (page key : Nat) : State :=
  if !s.on (pgAt page) PG_LOCK then s
  else if s.rd (pgAt page) PG_LKEY = key % 65536 then (s.wr (pgAt page) PG_LOCK 0).wr (pgAt page) PG_LKEY 0
  else s.refuse page errLOCKED

def execPageUnlock (t : Nat) (page key : Nat) (s : State) : Host.Outcome State Fault Refusal :=
  s.happen t (·.hdrGuard (page % 256) (·.unlockPage (page % 256) key))

/-! ### PG_CTRL -/

/-- A PG_CTRL bit that would change something: refused on a locked page and, where the page is carried, on a standby in
step; a carried one goes to the log. -/
def State.ctrlAct (s : State) (page w : Nat) (f : State → State) : State :=
  s.ctrlGuard page (pageCarried page) (fun s => (f s).when (pageCarried page) (·.logDelta (pgAt page + 0xC) w))

/-- ENABLE (R376): an anvil enters or leaves dispatch, a tongs engine starts or stops; elsewhere it is kept. -/
def State.enableWrite (s : State) (page : Nat) (on : Bool) : State :=
  if s.on (pgAt page) PG_ENABLE == on then s
  else s.ctrlAct page on.toNat (fun s =>
    if 0x60 ≤ page ∧ page < 0x70 then (if on then s.tongEnable (page - 0x60) else s.tongDisable (page - 0x60))
    else
      let s := s.wrB (pgAt page) PG_ENABLE on
      s.when (decide (0x80 ≤ page ∧ page < 0x90)) (·.mirrorAnvils))

def execEnableWrite (t : Nat) (page : Nat) (on : Bool) (s : State) : Host.Outcome State Fault Refusal :=
  s.happen t (·.hdrGuard (page % 256) (·.enableWrite (page % 256) on))

/-- BLOCK_FREEZE (R313): only the tongs engines have it; elsewhere the bit reads 0 and is ignored (R376). -/
def State.freezeWrite (s : State) (page : Nat) (on : Bool) : State :=
  if page < 0x60 ∨ 0x70 ≤ page ∨ s.on (pgAt page) PG_FREEZE == on then s
  else s.ctrlAct page (4 * on.toNat) (fun s =>
    let s := s.wrB (pgAt page) PG_FREEZE on
    if on then s.tongFreeze (page - 0x60) else s.tongResume (page - 0x60))

def execBlockFreeze (t : Nat) (page : Nat) (on : Bool) (s : State) : Host.Outcome State Fault Refusal :=
  s.happen t (·.freezeWrite (page % 256) on)

/-- TEST_MODE (R367): only the strongbox has it. From SERVICE it enters TEST, and leaves it with the bit. -/
def State.testModeWrite (s : State) (page : Nat) (on : Bool) : State :=
  if page ≠ 5 ∨ s.on pgSBOX PG_TEST_MODE == on then s
  else s.ctrlAct 5 (16 * on.toNat) (fun s =>
    let s := s.wrB pgSBOX PG_TEST_MODE on
    match s.rd pgSBOX SBOX_SB_STATE with
    | 1 | 3 => s.sbService
    | _ => s)

def execTestMode (t : Nat) (page : Nat) (on : Bool) (s : State) : Host.Outcome State Fault Refusal :=
  s.happen t (·.testModeWrite (page % 256) on)

/-! ### Soft reset of one block (R417, R418) -/

/-- Pages whose SRST clears only ERROR, PG_EVT and PG_LOCK (R418); page 0x005 also aborts a command. -/
def srstLight (p : Nat) : Bool :=
  p == 4 || p == 5 || decide (6 ≤ p ∧ p ≤ 8) || p == 0x14 || decide (0x90 ≤ p ∧ p ≤ 0xA3)

/-- ERROR, PG_EVT and PG_LOCK of a page clear. -/
def State.clearHeader (s : State) (page : Nat) : State :=
  let s := (s.clearError page).wr (pgAt page) PG_PG_EVT 0
  ((s.wr (pgAt page) PG_LOCK 0).wr (pgAt page) PG_LKEY 0).evtSum page

/-- The FIFOs of a port whose block resets: the transmit side is flushed, the open candidate rewound, reassembly dropped. -/
def State.srstPort (s : State) (p sent stamp : Nat) : State :=
  let s := s.txFlushPort p sent stamp
  let s := s.setRx p { (s.rxOf p).rewound with fr := frHunt, inChar := false }
  { s with can := { s.can with fps := s.can.fps.filter (fun x => x.port != p), tps := s.can.tps.filter (fun x => x.port != p) } }

/-- A CAN controller resets (R272): PENDING entries end ABORTED; a frame on the bus is finished (R273). -/
def State.canSrst (s : State) (n : Nat) : State :=
  let c := s.ctl n
  let s := s.setCtl n { c with own := [], claims := [], errRun := 0, errFrame := []
                               att := c.att.map (fun a => if a.src = 17 then { a with src := 18 } else a) }
  let pend := (List.range 16).filter (fun e => s.rd (pgCAN n) (qF CAN_Q_STATE e) == 1)
  s.each pend (fun s e => s.qDone n e 3 0)

/-- An anvil under SRST abandons its candidate, which the dispatcher runs again (R64). -/
def State.anvilSrst (s : State) (a : Nat) : State :=
  match tabGet? s.anvils a with
  | some b =>
    let r := s.rxOf b.cand.port
    let s := s.setRx b.cand.port { r with rp := r.rp - b.cand.words }
    let s := (s.freeAnvil b.cand.id).inc (pgANV a) ANV_C_REDISPATCH
    s.raise (0x80 + a) 2
  | none => s

/-- What the reset of a block does. `sent` and `stamp` say how far a UART had come with the item on its line. -/
def State.srstBlock (s : State) (page sent stamp : Nat) : State :=
  let s := (s.clearHeader page).inc pgPWR PWR_C_SRSTS
  let reset (s : State) : State := s.wr (pgAt page) PG_IN_RESET 1
  if page = 1 then reset s.hostReset
  else if page = 3 then
    let live := (List.range 4).filter (fun k => s.ts k TEST_SL_RSTATE == tsDEFERRED || s.ts k TEST_SL_RSTATE == tsRUNNING)
    reset (s.each live (fun s k => s.tsEnd k tsABORTED))
  else if 0x10 ≤ page ∧ page < 0x14 then (reset (s.linkDown (page - 0x10) 4)).startTrain (page - 0x10)
  else if 0x18 ≤ page ∧ page < 0x1A then
    let e := page - 0x18
    let s := (s.ethDown e).srstPort (40 + e) 0 0
    reset (s.setEth e { s.ethOf e with pauseFrom := 0, pauseTo := 0 })
  else if 0x20 ≤ page ∧ page < 0x28 then reset ((s.srstPort (page - 0x20 + 32) 0 0).canSrst (page - 0x20))
  else if 0x40 ≤ page ∧ page < 0x60 then reset (s.srstPort (page - 0x40) sent stamp)
  else if 0x60 ≤ page ∧ page < 0x70 then reset ((s.srstPort (page - 0x60 + 42) 0 0).tongReset (page - 0x60))
  else if 0x80 ≤ page ∧ page < 0x90 then (reset (s.anvilSrst (page - 0x80))).mirrorAnvils
  else reset s

/-- SRST of a page, page 0x000 apart. -/
def State.srst (s : State) (page sent stamp : Nat) : State :=
  s.ctrlAct page (2 + s.rd (pgAt page) PG_ENABLE) (fun s =>
    if srstLight page then
      let s := s.clearHeader page
      if page = 5 then s.when s.sbox.op.isSome (·.sbEnd 7) else s
    else if s.pageDown page then s.clearHeader page
    else s.srstBlock page sent stamp)

/-- A block starts as after SRST: its links train, its controller integrates, its engine begins if enabled. -/
def State.blockStart (s : State) (page : Nat) : State :=
  if 0x10 ≤ page ∧ page < 0x14 then s.startTrain (page - 0x10)
  else if 0x20 ≤ page ∧ page < 0x28 then
    let n := page - 0x20
    let s := if (s.ctl n).att.isSome then s.setCtl n { s.ctl n with dirty := true } else s.canApply n
    s.each (List.range 8) (fun s v => s.startVn n v)
  else if 0x40 ≤ page ∧ page < 0x60 then s.setRx (page - 0x40) { s.rxOf (page - 0x40) with silFrom := s.time.clk }
  else if 0x60 ≤ page ∧ page < 0x70 then
    let n := page - 0x60
    s.when (s.on (pgTONG n) PG_ENABLE && s.tongAwake n && s.rd (pgTONG n) TONG_STALL == 7) (·.tongBegin n)
  else if 0x80 ≤ page ∧ page < 0x90 then s.mirrorAnvils
  else s

/-- Items released to a port during its reset never reach its line. -/
def State.portSettle (s : State) (p : Nat) : State :=
  let due := s.del.items.filter (fun e => e.2.wb.any (fun w => w.wireDue && w.wirePort == some p))
  (s.each due (fun s e => s.wireLost e.1 p)).lineFree p

/-- The local port of a page's block. -/
def pagePort (page : Nat) : Option Nat := (List.range 58).find? (fun p => portPage p == page)

/-- IN_RESET clears; the block starts unless its domain is down or going down. -/
def State.resetEnd (s : State) (page : Nat) : State :=
  let s := s.wr (pgAt page) PG_IN_RESET 0
  let s := match pagePort page with | some p => s.portSettle p | none => s
  if (pageDomain page).any s.domOff then s else s.blockStart page

/-- SOFT_RESET_DONE: `np` requests or replies of neighbours ended TARGET_RESET, `late` replies to the block's own requests
were discarded (R417). -/
def State.softDone (s : State) (page np late : Nat) : State :=
  if !s.on (pgAt page) PG_IN_RESET then s
  else
    let s := (s.add pgPWR PWR_C_RST_NP_CPL np).add pgPWR PWR_C_RST_LATE_CPL late
    let s := s.when (np != 0) (fun s => (s.wr pgPWR PWR_BLK_LAST page).raise 2 4)
    s.resetEnd page

def execSoftResetDone (t : Nat) (page np late : Nat) (s : State) : Host.Outcome State Fault Refusal :=
  s.happen t (·.softDone (page % 256) np late)

/-! ### Power domains (R419) -/

/-- Pages of a domain's blocks. -/
def domPages (d : Nat) : List Nat := (List.range 256).filter (fun p => pageDomain p == some d && p != 0x70)

/-- Domains that a mask names; bit 5 and bits 11 to 31 are reserved. -/
def domsOf (mask : Nat) : List Nat := (List.range 11).filter (fun d => d != 5 && mask.testBit d)

/-- A domain begins to power down: its blocks reset; the Ngato lanes, which have no page, go down. -/
def State.domDown (s : State) (d : Nat) : State :=
  let s := s.wr pgPWR PWR_PD (s.rd pgPWR PWR_PD ||| 2 ^ d)
  let s := s.each (domPages d) (fun s p => s.srstBlock p 0 s.time.h)
  s.when (d == 8) (fun s => (s.laneGoes 0).laneGoes 1)

/-- POWER_DOWN: PD bits set. -/
def execPowerDown (t : Nat) (mask : Nat) (s : State) : Host.Outcome State Fault Refusal :=
  s.happen t (·.blkGuard 2 false (fun s =>
    s.each ((domsOf mask).filter (fun d => !(s.rd pgPWR PWR_PD).testBit d)) State.domDown))

/-- POWER_DOWN_DONE: the domain is down and its balls are at high impedance. -/
def State.domGone (s : State) (d : Nat) : State :=
  if (s.rd pgPWR PWR_PD).testBit d && !(s.rd pgPWR PWR_PD_STAT).testBit d then
    let s := s.each ((domPages d).filter (fun p => s.on (pgAt p) PG_IN_RESET)) State.resetEnd
    let s := (s.wr pgPWR PWR_PD_STAT (s.rd pgPWR PWR_PD_STAT ||| 2 ^ d)).raise 2 1
    (s.when (d == 9) (·.mirrorAnvils)).when (d == 10) (·.pinSyncAll)
  else s

def execPowerDownDone (t : Nat) (domain : Nat) (s : State) : Host.Outcome State Fault Refusal :=
  s.happen t (·.domGone (domain % 11))

/-- A domain powers up: its blocks start as after SRST, its ports and lanes train. -/
def State.domUp (s : State) (d : Nat) : State :=
  let s := s.wr pgPWR PWR_PD (s.rd pgPWR PWR_PD &&& (2047 - 2 ^ d))
  if (s.rd pgPWR PWR_PD_STAT).testBit d then
    let s := s.wr pgPWR PWR_PD_STAT (s.rd pgPWR PWR_PD_STAT &&& (2047 - 2 ^ d))
    let s := s.each (domPages d) State.blockStart
    s.when (d == 8) (fun s => (s.startTrain 4).startTrain 5)
  else s

/-- POWER_UP: PD bits clear. -/
def execPowerUp (t : Nat) (mask : Nat) (s : State) : Host.Outcome State Fault Refusal :=
  s.happen t (·.blkGuard 2 false (fun s =>
    s.each ((domsOf mask).filter (fun d => (s.rd pgPWR PWR_PD).testBit d)) State.domUp))

end Sys2Proof.Machine
end

