-- ==== Sys2Proof/Machine/Reset.lean ====
section
/-! DEFINITION. Machine/Reset.lean: device resets and what survives them (R400, R404, R414, R432), straps (R405), and sleep
and wake (R415, R416). -/

namespace Sys2Proof.Machine

/-! ### Device reset (R404) -/

/-- Register fields that outlive a device reset: slot metadata and the strongbox MRAM's registers with the tamper latch,
WEAR, and the supply monitors' state, which follows the rails. -/
def outlives (k : Nat) : Bool :=
  span 0xF15000 0xF16000 (k / 8) || span 0x5060 0x5074 (k / 8) || span 0x5300 0x5330 (k / 8) || span 0x4100 0x4180 (k / 8)
    || k == fldKey pgPWR PWR_SUP_WARNB

/-- Every block at its reset state; the always-on part as given. Balls driven by the tongs return to high impedance
(R432). -/
def State.wiped (s : State) (sys : SysCtl) : State :=
  { State.reset with
    pending := s.pending
    regs := s.regs.filter (fun c => outlives c.1)
    time := TimeBase.fresh s.time.clk
    sbox := { State.reset.sbox with keys := s.sbox.keys, rng := s.sbox.rng, owed := s.sbox.owed }
    cells := s.cells
    attic := { State.reset.attic with images := s.attic.images }
    sys := sys
    out := s.out ++ s.tong.balls.map (fun b => .tongPin b.1 none s.time.h)
    free := s.free }

/-- Registers that follow what survived: slots, and the HEALTH bits of the tamper latch and the supplies. -/
def State.mirrorKept (s : State) : State :=
  (s.mirrorSlots.setHealth 11 (s.rd pgSBOX SBOX_TAMP_LATCH != 0)).setHealth 1 (s.rd pgPWR PWR_SUP_WARNB != 0)

/-- The always-on part through a device reset. -/
def State.keptSys (s : State) : SysCtl :=
  { SysCtl.fresh with rstAt := some s.time.clk, aoBase := s.sys.aoBase, jtag := s.sys.jtag }

/-- A device reset with a cause; of two causes in one core clock the lower is recorded. -/
def State.deviceReset (s : State) (cause : Nat) : State :=
  let same := s.sys.rstAt.any (fun a => coreClocks a == coreClocks s.time.clk)
  let cause := if same then min cause (s.rd pgSYS SYS_RST_CAUSE) else cause
  ((s.wiped s.keptSys).wr pgSYS SYS_RST_CAUSE cause).mirrorKept

/-- POWER_ON: the always-on domain is newly powered, and its tamper latch with it. -/
def State.powerOn (s : State) : State :=
  let s := s.wiped { SysCtl.fresh with rstAt := some s.time.clk, aoBase := s.time.clk }
  let s : State := { s with sbox := { s.sbox with owed := false } }
  ((s.wr pgSBOX SBOX_TAMP_LATCH 0).wr pgSYS SYS_RST_CAUSE 1).mirrorKept

def execPowerOn (t : Nat) (s : State) : Host.Outcome State Fault Refusal :=
  s.happen t (·.powerOn)

/-- RESET_PIN: it also ends device sleep (R416). -/
def execResetPin (t : Nat) (s : State) : Host.Outcome State Fault Refusal :=
  s.happen t (fun s =>
    let off := s.sys.offAt.isSome
    (s.deviceReset 2).when off (·.emit (.pwrHold true)))

/-- SUPPLY_RESET; the supplies that sleep removes are no cause. -/
def execSupplyReset (t : Nat) (s : State) : Host.Outcome State Fault Refusal :=
  s.happen t (fun s =>
    if s.sys.offAt.isSome then s else s.deviceReset 4)

/-! ### The device's own SRST (R400) -/

/-- DEVRST_ARM: 0x5253 arms, any other value disarms. -/
def execDevrstArm (t : Nat) (value : Nat) (s : State) : Host.Outcome State Fault Refusal :=
  s.happen t (·.blkGuard 0 false (fun s =>
    { s with sys := { s.sys with devArm := if value % 65536 = 0x5253 then some s.time.clk else none } }))

/-- An arm made at `a` still holds: 1 ms has not passed. -/
def State.armed (s : State) (a : Option Nat) : Bool := a.any (fun x => decide (s.time.clk < x + msU))

/-- DEVRST_ARM_EXPIRY. -/
def execDevrstArmExpiry (t : Nat) (s : State) : Host.Outcome State Fault Refusal :=
  s.happen t (fun s =>
    if s.armed s.sys.devArm then s else { s with sys := { s.sys with devArm := none } })

/-- SRST of page 0x000. -/
def State.deviceSrst (s : State) : State :=
  s.ctrlGuard 0 false (fun s => if s.armed s.sys.devArm then s.deviceReset 3 else s.refuse 0 errILLEGAL)

def execDeviceSrst (t : Nat) (s : State) : Host.Outcome State Fault Refusal :=
  s.happen t (·.deviceSrst)

/-- SOFT_RESET: SRST of a page; `sent` and `stamp` say how far a UART had come with the item on its line. -/
def execSoftReset (t : Nat) (page sent stamp : Nat) (s : State) : Host.Outcome State Fault Refusal :=
  s.happen t (·.hdrGuard (page % 256) (fun s =>
    if page % 256 = 0 then s.deviceSrst else s.srst (page % 256) sent stamp))

/-! ### Factory wipe (R414) -/

/-- WIPE_ARM: 0x5749 arms; any other value is ignored. -/
def execWipeArm (t : Nat) (value : Nat) (s : State) : Host.Outcome State Fault Refusal :=
  s.happen t (·.blkGuard 4 false (fun s =>
    if value % 65536 = 0x5749 then { s with sys := { s.sys with wipeArm := some s.time.clk } } else s))

/-- WIPE_ARM_EXPIRY. -/
def execWipeArmExpiry (t : Nat) (s : State) : Host.Outcome State Fault Refusal :=
  s.happen t (fun s =>
    if s.armed s.sys.wipeArm then s else { s with sys := { s.sys with wipeArm := none } })

/-- The headers of every bank are zeroed, and the device resets. -/
def State.factoryWipe (s : State) : State := { s with attic := { s.attic with images := [] } }.deviceReset 6

/-- WIPE_GO: refused unless armed. -/
def execWipeGo (t : Nat) (s : State) : Host.Outcome State Fault Refusal :=
  s.happen t (·.blkGuard 4 false (fun s => if s.armed s.sys.wipeArm then s.factoryWipe else s.refuse 4 errILLEGAL))

/-! ### Reset release (R404, R405) -/

/-- RESET_RELEASE: the straps are sampled; H and UP_S start. Not while sleep has the supplies off. -/
def State.release (s : State) (first wipe hold : Bool) : State :=
  if s.rd pgPWR PWR_BOOT_STAGE ≠ 0 then s
  else
    let s : State := { s with time := TimeBase.fresh s.time.clk }
    let s := (s.wrB pgSYS SYS_FIRST first).wr pgSYS SYS_STRAPS (wipe.toNat + 2 * hold.toNat)
    s.wr pgPWR PWR_BOOT_STAGE 1

def execResetRelease (t : Nat) (first wipe hold : Bool) (s : State) : Host.Outcome State Fault Refusal :=
  s.happen t (·.release first wipe hold)

/-! ### Sleep (R415) -/

def State.asleep (s : State) : Bool := s.rd pgPWR PWR_BOOT_STAGE == 8

/-- Controllers that offer a wake during sleep: MODE 6 with WAKE_MODE 1 or 2 (R283). -/
def State.canOffersWake (s : State) : Nat :=
  ((List.range 8).filter (fun n => s.rd (pgCAN n) CAN_MODE == 6
    && (s.rd (pgCAN n) CAN_WAKE_MODE == 1 || s.rd (pgCAN n) CAN_WAKE_MODE == 2)) |>.map (2 ^ ·)).sum

/-- Sleep entry: the wake settings cross over, admission stops, listener ports are flushed, running tests end. -/
def State.sleepEntry (s : State) : State :=
  let s : State := { s with sys := { s.sys with
    wakeEn := s.rd pgPWR PWR_WAKE_EN, wakeAt := s.rd pgPWR PWR_WAKE_AT, canWake := s.canOffersWake, causes := 0 } }
  let s := s.each (s.del.queues.map (fun e => e.1 / 8)).eraseDups State.qflush
  let s := s.each ((List.range 4).filter (fun k => s.ts k TEST_SL_RSTATE == tsRUNNING)) (fun s k => s.tsEnd k tsABORTED)
  (s.inc pgPWR PWR_C_SLEEPS).wr pgPWR PWR_BOOT_STAGE 8

/-- SLEEP: 0x534C starts entry; any other value is ignored. -/
def execSleep (t : Nat) (value : Nat) (s : State) : Host.Outcome State Fault Refusal :=
  s.happen t (·.blkGuard 2 false (fun s =>
    if value % 65536 ≠ 0x534C ∨ s.asleep then s
    else if s.active && s.inStep then s.refuse 2 errILLEGAL
    else s.sleepEntry))

/-- SLEEP_POWER_OFF: PWR_HOLD falls; everything outside the always-on domain is lost. -/
def State.powerOff (s : State) : State :=
  if s.asleep && s.sys.offAt.isNone then
    let s := s.emit (.pwrHold false)
    let s := s.wiped { s.sys with devArm := none, wipeArm := none, banksOff := 0, offAt := some s.time.clk, tests := [] }
    { s with cells := [] }.wr pgPWR PWR_BOOT_STAGE 8
  else s

def execSleepPowerOff (t : Nat) (s : State) : Host.Outcome State Fault Refusal :=
  s.happen t (·.powerOff)

/-! ### Wake (R416) -/

/-- A wake cause arrives during sleep: latched if its WAKE_EN bit is set. -/
def State.wakeCause (s : State) (b : Nat) : State :=
  if s.asleep && s.sys.wakeEn.testBit b then { s with sys := { s.sys with causes := s.sys.causes ||| 2 ^ b } } else s

def execWakeNInput (t : Nat) (s : State) : Host.Outcome State Fault Refusal :=
  s.happen t (·.wakeCause 0)

/-- CAN_WAKE_IN_SLEEP (R283). -/
def execCanWakeInSleep (t : Nat) (controller : Nat) (s : State) : Host.Outcome State Fault Refusal :=
  s.happen t (fun s =>
    if s.sys.canWake.testBit (controller % 8) then s.wakeCause (1 + controller % 8) else s)

/-- AO_TICKS: clocks of 32.768 kHz since the always-on domain was powered. -/
def State.aoTicks (s : State) : Nat := (s.time.clk - s.sys.aoBase) * 32768 / secU % 2 ^ 48

def execWakeTimer (t : Nat) (s : State) : Host.Outcome State Fault Refusal :=
  s.happen t (fun s =>
    if s.sys.wakeAt ≤ s.aoTicks then s.wakeCause 9 else s)

/-- TAMPER_ALARM: a sensor latches (R368); an enabled one may wake the device. -/
def execTamperAlarm (t : Nat) (source : Nat) (s : State) : Host.Outcome State Fault Refusal :=
  s.happen t (fun s =>
    let s := s.tamper (source % 5)
    if (s.rd pgSBOX SBOX_TAMP_EN).testBit (source % 5) then s.wakeCause 10 else s)

/-- WAKE_POWER_UP: PWR_HOLD rises once the supplies have been off for 50 ms, and the device boots. -/
def State.wakeUp (s : State) : State :=
  let causes := s.sys.causes
  if causes ≠ 0 ∧ s.sys.offAt.any (fun o => decide (o + 50 * msU ≤ s.time.clk)) then
    let s := (s.deviceReset 5).emit (.pwrHold true)
    (s.wr pgPWR PWR_WAKE_CAUSE causes).inc pgPWR PWR_C_WAKES
  else s

def execWakePowerUp (t : Nat) (s : State) : Host.Outcome State Fault Refusal :=
  s.happen t (·.wakeUp)

/-! ### Supplies and balls (R429, R435, R441) -/

/-- SUPPLY_WARNING: a rail crosses its warning level; `low` when it falls below it. -/
def State.supplyWarn (s : State) (rail : Nat) (low : Bool) : State :=
  let w := s.rd pgPWR PWR_SUP_WARNB
  if w.testBit rail = low then s
  else
    let w := if low then w ||| 2 ^ rail else w &&& (63 - 2 ^ rail)
    (((s.wr pgPWR PWR_SUP_WARNB w).inc pgPWR PWR_C_SUP_WARNS).raise 2 0).setHealth 1 (w != 0)

def execSupplyWarning (t : Nat) (rail : Nat) (low : Bool) (s : State) : Host.Outcome State Fault Refusal :=
  s.happen t (·.supplyWarn (rail % 6) low)

/-- BANK_OUT_OF_RANGE: bank A to D as 0 to 3. -/
def execBankOutOfRange (t : Nat) (bank : Nat) (s : State) : Host.Outcome State Fault Refusal :=
  s.happen t (fun s =>
    let s : State := { s with sys := { s.sys with banksOff := s.sys.banksOff ||| 2 ^ (bank % 4) } }
    (s.wr pgPWR PWR_SUP_OK (s.rd pgPWR PWR_SUP_OK &&& 31)).pinSyncAll)

/-- JTAG_INSTRUCTION: 0 BYPASS, 1 IDCODE, 2 SAMPLE/PRELOAD, 3 EXTEST, 4 CLAMP, 5 HIGHZ; the last three take the balls. -/
def execJtagInstruction (t : Nat) (instr : Nat) (s : State) : Host.Outcome State Fault Refusal :=
  s.happen t (fun s => { s with sys := { s.sys with jtag := decide (3 ≤ instr % 6) } }.pinSyncAll)

end Sys2Proof.Machine
end

