-- ==== Sys2Proof/Machine/Topo.lean ====
section
/-! DEFINITION. Machine/Topo.lean: discovery (R209), admission (R210), delays and routes (R207, R211), leaves lost and
reset (R236, R237). -/

namespace Sys2Proof.Machine

/-! ### Admission -/

/-- How often an ID appears in a pass. -/
def idCount (l : List DiscRec) (id : Nat) : Nat := (l.filter (fun d => d.id == id)).length
def findRec (l : List DiscRec) (id : Nat) : Option DiscRec := l.find? (fun d => d.id == id)

/-- Nodes in position order: eastward from hub 0xFE, or from this hub where 0xFE is not on the ring (R189). -/
def State.byPosition (s : State) (r : Nat) : List DiscRec :=
  let l := s.nodesOf r
  let i := (ringPos l 0xFE).getD 0
  l.drop i ++ l.take i

/-- A duplicate ID: twice on a ring, or on both rings with different INCARN (R210). -/
def State.dupId (s : State) (id : Nat) : Bool :=
  let a := s.passOf 0
  let b := s.passOf 1
  decide (1 < idCount a id) || decide (1 < idCount b id) ||
    match findRec a id, findRec b id with
    | some x, some y => x.incarn != y.incarn
    | _, _ => false

/-- Leaves that ring `r` admits: IDs 1 to 250 that are no duplicates, the first 126 by position. -/
def State.admits (s : State) (r : Nat) : List Nat :=
  let leaves := (s.byPosition r).filter (fun d => !d.hub)
  ((leaves.take 126).filter (fun d => decide (1 ≤ d.id ∧ d.id ≤ 250) && !s.dupId d.id)).map (·.id)

/-! ### Delays and routes (R207, R211) -/

/-- ITEM_IN direction of the node at index `i` on a ring of `l`, with the hops to the farther hub (R211). -/
def inRoute (l : List DiscRec) (hubs : List Nat) (act i : Nat) : Nat × Nat :=
  let n := l.length
  let e (h : Nat) : Nat := (h + n - i) % n
  let w (h : Nat) : Nat := (i + n - h) % n
  let eAll := (hubs.map e).foldl max 0
  let wAll := (hubs.map w).foldl max 0
  let eOk (k : Nat) : Bool := pathUp l i k
  let wOk (k : Nat) : Bool := pathUp l (i + n - k) k
  match eOk eAll, wOk wAll with
  | true, true => if wAll < eAll then (1, wAll) else (0, eAll)
  | true, false => (0, eAll)
  | false, true => (1, wAll)
  | false, false => if wOk (w act) && !(eOk (e act) && decide (e act ≤ w act)) then (1, w act) else (0, e act)

/-- Hubs of a ring by index, and the index of the active one. -/
def State.hubIdx (s : State) (r : Nat) : List Nat × Nat :=
  let l := s.nodesOf r
  let hs := (List.range l.length).filter (fun i => (recAt l i).hub)
  let other := hs.find? (· != 0)
  (hs, if s.rd pgTWIN TWIN_PEER_ROLE = 2 ∧ !s.active then other.getD 0 else 0)

def State.inRouteOf (s : State) (r i : Nat) : Nat × Nat := inRoute (s.nodesOf r) (s.hubIdx r).1 (s.hubIdx r).2 i

/-- IN_NS of the node at index `i` to this hub, in its ITEM_IN direction. -/
def State.inNs (s : State) (r i : Nat) : Nat :=
  let l := s.nodesOf r
  let n := l.length
  if (s.inRouteOf r i).1 = 0 then eastDelay l i (n - i) + residBetween l i (n - i) else westDelay l 0 i + residBetween l 0 i

/-- OUT_NS from this hub, in its egress direction. -/
def State.outNs (s : State) (r i : Nat) : Nat :=
  let l := s.nodesOf r
  match egressRoute l i with
  | (0, k) => eastDelay l 0 k + residBetween l 0 k
  | (_, k) => westDelay l i k + residBetween l i k

/-- The way from the hub at index `h` to the node at `i` on a ring: hops, direction and the sum of hop delays. -/
def wayFrom (l : List DiscRec) (h i : Nat) : Option (Nat × Nat × Nat) :=
  let n := l.length
  let e := (i + n - h) % n
  let w := (h + n - i) % n
  match pathUp l h e, pathUp l i w with
  | true, true => if w < e then some (w, 1, westDelay l i w) else some (e, 0, eastDelay l h e)
  | true, false => some (e, 0, eastDelay l h e)
  | false, true => some (w, 1, westDelay l i w)
  | false, false => none

/-- Time path from a hub to a leaf: ring, direction and LINK_NS; fewest hops, ring A on a tie. -/
def State.timePath (s : State) (hub leaf : Nat) : Nat × Nat × Nat :=
  let way (r : Nat) : Option (Nat × Nat × Nat) :=
    let l := s.nodesOf r
    match ringPos l hub, ringPos l leaf with
    | some h, some i => wayFrom l h i
    | _, _ => none
  match way 0, way 1 with
  | some a, some b => if b.1 < a.1 then (1, b.2) else (0, a.2)
  | some a, none => (0, a.2)
  | none, some b => (1, b.2)
  | none, none => (0, 0, 0)

/-- The words of a leaf's ring block that the hub writes: RT_A, RT_B, RT_TIME, LINK_FE, LINK_FF (R212). -/
def State.routeWords (s : State) (leaf : Nat) : List (Nat × Nat) :=
  let rt (r : Nat) : Nat := match ringPos (s.nodesOf r) leaf with
    | some i => let d := s.inRouteOf r i; d.1 + 256 * d.2
    | none => 0
  let a := s.timePath 0xFE leaf
  let b := s.timePath 0xFF leaf
  [(0x20, rt 0), (0x24, rt 1), (0x28, a.1 + 2 * a.2.1 + 4 * b.1 + 8 * b.2.1), (0x30, a.2.2), (0x34, b.2.2)]

/-- The active hub writes a leaf's routes where they differ from those last written. -/
def State.writeRoutes (s : State) (n : Nat) : State :=
  if !s.active then s
  else
    let new : List (Nat × Nat) := s.routeWords n
    let old : List Nat := (tabGet? s.ring.routes n).getD []
    let s := { s with ring := { s.ring with routes := tabPut s.ring.routes n (new.map (fun (e : Nat × Nat) => e.2)) } }
    s.each (new.zipIdx.filter (fun (e : (Nat × Nat) × Nat) => old[e.2]? != some e.1.2)) (fun s e => s.leafWrite n e.1.1 e.1.2 .route)

/-! ### Leaves come, go and reset (R236, R237) -/

/-- A leaf has reset, with a new incarnation. -/
def State.leafResets (s : State) (n incarn : Nat) : State :=
  let s := s.wr (nodeAt n) NODE_INCARN incarn
  let s := { s with ring := { s.ring with iseq := tabDel s.ring.iseq n, routes := tabDel s.ring.routes n } }
  let s := (s.dropNode n stTARGET_RESET).raise 0x14 3
  (s.writeRoutes n).readLeaf n

/-- The node table entry of a node that the last passes hold. -/
def State.nodeEntry (s : State) (id : Nat) (d : DiscRec) (admA admB : Bool) : State :=
  let b := nodeAt id
  let ia := ringPos (s.nodesOf 0) id
  let ib := ringPos (s.nodesOf 1) id
  let tp := s.timePath s.nodeId id
  let ns (s : State) (r : Nat) (i : Option Nat) (fin fout fpos : Fld) (fdir : Fld) : State :=
    match i with
    | some i =>
      let s := (s.wr b fin (s.inNs r i)).wr b fout (s.outNs r i)
      (s.wr b fpos ((ringPos (s.byPosition r) id).getD 0)).wr b fdir (s.inRouteOf r i).1
    | none => s
  let s := (s.wrB b NODE_ADM_A admA).wrB b NODE_ADM_B admB
  let s := (s.wrB b NODE_SINGLE (ia.isSome != ib.isSome)).wrB b NODE_DUP_ID (s.dupId id)
  let s := (s.wrB b NODE_HUB d.hub).wr b NODE_LOST 0
  let s := (s.wr b NODE_VER_MAJ d.maj).wr b NODE_VER_MIN d.verMin
  let s := (s.wr b NODE_TIME_RING tp.1).wr b NODE_TIME_DIR tp.2.1
  let s := (s.wr b NODE_LINK_NS tp.2.2).wr b NODE_RESID d.resid
  let s := ns s 0 ia NODE_IN_NS_A NODE_OUT_NS_A NODE_POS_A NODE_IN_DIR_A
  ns s 1 ib NODE_IN_NS_B NODE_OUT_NS_B NODE_POS_B NODE_IN_DIR_B

/-- One node after a pass. -/
def State.nodeUpdate (s : State) (admA admB : List Nat) (id : Nat) : State :=
  let b := nodeAt id
  let was := s.on b NODE_ADM_A || s.on b NODE_ADM_B
  match (findRec (s.passOf 0) id).or (findRec (s.passOf 1) id) with
  | none =>
    if was then
      let s := (((s.wr b NODE_ADM_A 0).wr b NODE_ADM_B 0).wr b NODE_LOST 1).raise 0x14 4
      s.dropNode id stNO_ROUTE
    else s
  | some d =>
    let a := admA.contains id
    let bb := admB.contains id
    let old := s.rd b NODE_INCARN
    let s := s.nodeEntry id d a bb
    let s := s.when (s.on b NODE_DUP_ID) (·.raise 0x14 5)
    let s := s.when (!d.hub && !a && !bb) (·.raise 0x14 6)
    if !a && !bb then
      let s := s.wr b NODE_INCARN d.incarn
      if was then s.dropNode id stNO_ROUTE else s
    else if was && old != d.incarn then s.leafResets id d.incarn
    else
      let s := (s.wr b NODE_INCARN d.incarn).writeRoutes id
      if was then s else s.readLeaf id

/-- REACH_A and REACH_B of the port map, and the counts of leaves. -/
def State.mirrorReach (s : State) : State :=
  let s := s.each (s.listed 0x280000 0x10 2048) (fun s p =>
    match s.leafOf p with
    | some n => (s.wrB (portmapAt p) PORTMAP_REACH_A (s.admitted 0 n)).wrB (portmapAt p) PORTMAP_REACH_B (s.admitted 1 n)
    | none => s)
  (s.wr pgRING RING_LEAVES_A (s.admits 0).length).wr pgRING RING_LEAVES_B (s.admits 1).length

/-- What of a pass makes a change of topology: every record but its delays. -/
def topoKey (l : List DiscRec) : List (Nat × Bool × Bool × Bool × Bool × Nat) :=
  l.map (fun d => (d.id, d.hub, d.eUp, d.wUp, d.wrapped, d.incarn))

/-- A pass has returned on ring `r`. -/
def State.passDone (s : State) (r : Nat) (recs : List DiscRec) : State :=
  let old := s.passOf r
  let was := (old ++ s.passOf (1 - r)).map (·.id)
  let s := { s with ring := { s.ring with topo := tabPut s.ring.topo r recs, passAt := tabDel s.ring.passAt r } }
  let s := s.inc pgRING RING_C_TOPO_PASSES
  let s := s.when (topoKey old != topoKey recs) (·.raise 0x14 0)
  let ids := ((was ++ recs.map (·.id)).filter (· != s.nodeId)).eraseDups
  let a := s.admits 0
  let b := s.admits 1
  (s.each ids (fun s id => s.nodeUpdate a b id)).mirrorReach

/-! ### Sending passes (R209) -/

/-- A DISCOVER out of the east port of a ring; the pass is awaited from now. -/
def State.discover (s : State) (r : Nat) : State :=
  let s := { s with ring := { s.ring with passAt := tabPut s.ring.passAt r s.time.clk } }
  s.sendPort (ringPort r 0) true (mkPkt s.nodeId 0x04 3 0 0 [])

def State.discoverAll (s : State) : State := (s.discover 0).discover 1

/-- DISCOVER_SEND: every TOPO_MS, or after a change on this hub's own ports. -/
def execDiscoverSend (t : Nat) (s : State) : Host.Outcome State Fault Refusal :=
  s.happen t (·.discoverAll)

/-- DISCOVER_TIMEOUT: passes that have not returned within 1 ms are sent again. -/
def State.passLate (s : State) : State :=
  s.each [0, 1] (fun s r =>
    match tabGet? s.ring.passAt r with
    | some at_ => if at_ + msU ≤ s.time.clk then (s.inc pgRING RING_C_TOPO_LOST).discover r else s
    | none => s)

def execDiscoverTimeout (t : Nat) (s : State) : Host.Outcome State Fault Refusal :=
  s.happen t (·.passLate)

/-- TOPO_GO. -/
def execTopoGo (t : Nat) (s : State) : Host.Outcome State Fault Refusal :=
  s.happen t (·.blkGuard 0x14 false (·.discoverAll))

end Sys2Proof.Machine
end

