-- ==== Sys2Proof/Machine/RingRx.lean ====
section
/-! DEFINITION. Machine/RingRx.lean: what a hub does with a ring packet it receives: stripping and forwarding (R204),
items and their sequence windows (R217 to R219), SIG messages (R227, R228), requests and completions (R222 to R226), the
port map (R215) and the switch of a multicast bank (R231). -/

namespace Sys2Proof.Machine

/-! ### Sequence windows (R218) -/

/-- `a − b` in 32-bit serial arithmetic. -/
def serial (a b : Nat) : Nat := (a + 2 ^ 32 - b % 2 ^ 32) % 2 ^ 32

/-- The numbers of `l` that stay within 1023 of a highest number. -/
def inWin (top : Nat) (l : List Nat) : List Nat := l.filter (fun m => decide (serial top m ≤ 1023))

/-- A window moves up to a new highest number at an instant: how many numbers it counts lost, and the new window. -/
def IseqWin.advance (w : IseqWin) (q clk : Nat) : Nat × IseqWin :=
  let d := serial q w.top
  let keep := w.miss.filter (fun m => decide (serial q m.1 ≤ 1023))
  let new := ((List.range (min (d - 1) 1023)).map (fun k => serial q (k + 1))).reverse
  let gone := (w.miss.length - keep.length) + (d - 1 - new.length)
  let base := if serial q w.base ≤ 1023 then w.base else serial q 1023
  (gone, ⟨base, q, keep ++ new.map (fun m => (m, clk)), inWin q w.lost, inWin q w.got⟩)

/-- What becomes of a copy by its number. -/
inductive SeqFate where
  | new | late | dup | old
  deriving DecidableEq, Repr

/-- Judge a number below the highest one. -/
def IseqWin.below (w : IseqWin) (q : Nat) : SeqFate × IseqWin :=
  if 1023 < serial w.top q then (.old, w)
  else if w.miss.any (fun m => m.1 == q) then (.late, { w with miss := w.miss.filter (fun m => m.1 != q) })
  else if w.lost.contains q then (.late, { w with lost := w.lost.filter (· != q) })
  else if serial w.top w.base < serial w.top q && !w.got.contains q then (.late, { w with got := q :: w.got })
  else (.dup, w)

/-- Take a copy's number in its leaf's window; answers whether the copy is kept. -/
def State.takeSeq (s : State) (leaf q : Nat) : Bool × State :=
  let set (s : State) (w : IseqWin) : State := { s with ring := { s.ring with iseq := tabPut s.ring.iseq leaf w } }
  match tabGet? s.ring.iseq leaf with
  | none => (true, set s ⟨q, q, [], [], []⟩)
  | some w =>
    if q ≠ w.top ∧ serial q w.top < 2 ^ 31 then
      let r := w.advance q s.time.clk
      (true, (set s r.2).add pgRING RING_C_ISEQ_LOST r.1)
    else match w.below q with
      | (.late, w') => (true, (set s w').inc pgRING RING_C_ISEQ_REORDER)
      | (.old, _) => (false, s.inc pgRING RING_C_ISEQ_OLD)
      | _ => (false, s.inc pgRING RING_C_DUP_COPY)

/-- Has a hub still to take a lower number of a leaf (R228)? -/
def State.seqWaits (s : State) (leaf q : Nat) : Bool :=
  match tabGet? s.ring.iseq leaf with
  | none => false
  | some w => (w.miss.map (·.1) ++ w.lost).any (fun m => decide (1 ≤ serial q m ∧ serial q m ≤ 1023))

/-- Numbers missed for 100 µs are lost (R218). -/
def IseqWin.sweep (w : IseqWin) (clk : Nat) : Nat × IseqWin :=
  let late := w.miss.filter (fun m => decide (m.2 + 100 * usU ≤ clk))
  (late.length, { w with miss := w.miss.filter (fun m => !decide (m.2 + 100 * usU ≤ clk)), lost := w.lost ++ late.map (·.1) })

def State.seqSweep (s : State) : State :=
  s.each s.ring.iseq (fun s e =>
    let r := e.2.sweep s.time.clk
    { s with ring := { s.ring with iseq := tabPut s.ring.iseq e.1 r.2 } }.add pgRING RING_C_ISEQ_LOST r.1)

/-- ISEQ_TIMEOUT. -/
def execIseqTimeout (t : Nat) (s : State) : Host.Outcome State Fault Refusal :=
  s.happen t (·.seqSweep)

/-! ### Receiving a packet (R202 to R204) -/

/-- Does this hub take a copy of a packet? -/
def State.takesCopy (s : State) (k : RingPkt) : Bool :=
  !k.wr && (k.dmode == 1 || k.dmode == 3 || (k.dmode == 0 && k.dst == s.nodeId))

/-- Is a packet stripped here? `hops` is HOPS once decremented. -/
def State.strips (s : State) (k : RingPkt) (hops : Nat) : Bool :=
  hops == 0 || (!k.wr && ((k.dmode == 0 && k.dst == s.nodeId) || (k.dmode == 1 && k.hb) || k.src == s.nodeId))

/-- SIG types a hub acts on. -/
def sigKnown : List Nat := [0x01, 0x02, 0x03, 0x05, 0x06, 0x10, 0x11]

/-- What a hub does with its copy: it waits for its command, or is dropped. `foreign` marks a packet with this hub's own
ID that another hub sent. -/
def State.takeCopy (s : State) (p : Nat) (foreign : Bool) (k : RingPkt) : State :=
  let put (s : State) : State := { s with ring := { s.ring with inbox := s.ring.inbox ++ [(ringOf p, s.time.clk, k)] } }
  let own := k.src == s.nodeId && !foreign
  if k.pt = 0x04 then s.when own put
  else if own then s
  else if k.pt = 0x03 then (if sigKnown.contains (leAt k.payload 4 1) then put s else s)
  else if k.pt = 0x30 then s.when (leAt k.payload 0 1 == 3) put
  else if [0x01, 0x10, 0x11, 0x20].contains k.pt then put s
  else if k.pt = 0x02 then s
  else s.inc pgRING RING_C_PT_ERR

/-- A packet as it goes on: this node's record joins another hub's DISCOVER once (R209), and a TIME_SYNC takes the
residence time `resid`, in 1/65 536 ns (R178). -/
def State.onward (s : State) (p : Nat) (resid : Nat) (k : RingPkt) : RingPkt :=
  if k.pt = 0x04 ∧ !k.wr ∧ !((discRecs 256 k.payload).any (fun d => d.id == s.nodeId)) then
    { k with payload := k.payload ++ discBytes (s.selfRec (ringOf p)) }
  else if k.pt = 0x30 ∧ leAt k.payload 0 1 = 1 then
    { k with payload := k.payload.take 20 ++ beBytes 8 (beAt k.payload 20 8 + resid) ++ k.payload.drop 28 }
  else k

/-- One packet from a ring port. -/
def State.takePacket (s : State) (p resid : Nat) (foreign : Bool) (k : RingPkt) : State :=
  let hops := k.hops - 1
  let s := s.when (s.takesCopy k) (·.takeCopy p foreign k)
  if s.strips k hops then s.when (hops == 0) (·.inc pgRING RING_C_HOPS_EXPIRED)
  else
    let k := { k with hops := hops, hb := k.hb || (!k.wr && k.dmode == 1) }
    s.sendPort (otherPort p) false (s.onward p resid k)

/-- PACKET_RECEIVE: the oldest packet in a virtual channel's buffer of a ring port leaves it, and frees its credits. -/
def State.packetIn (s : State) (p vc resid : Nat) (foreign : Bool) : State :=
  let h := s.hop p
  match h.rxq.find? (fun e => e.1 == vc) with
  | none => s
  | some e =>
    let s := s.setHop p { h with rxq := eraseFirst e h.rxq, freed := freeCred h.freed vc (frameCred e.2) }
    match pktOf e.2 with
    | none => s.inc pgRING RING_C_PT_ERR
    | some k => s.takePacket p resid foreign k

def execPacketReceive (t : Nat) (port vc resid : Nat) (foreign : Bool) (s : State) : Host.Outcome State Fault Refusal :=
  s.happen t (·.packetIn (port % 4) (vc % 4) resid foreign)

/-- Take the oldest waiting copy that `f` picks. -/
def State.fromInbox (s : State) (f : RingPkt → Bool) : Option ((Nat × Nat × RingPkt) × State) :=
  (s.ring.inbox.find? (fun e => f e.2.2)).map (fun e =>
    (e, { s with ring := { s.ring with inbox := eraseFirst e s.ring.inbox } }))

/-- DISCOVER_RETURN (R209). -/
def execDiscoverReturn (t : Nat) (s : State) : Host.Outcome State Fault Refusal :=
  s.happen t (fun s =>
    match s.fromInbox (fun k => k.pt == 0x04) with
    | some (e, s) => s.passDone e.1 (discRecs 256 e.2.2.payload)
    | none => s)

/-- AXIS_EDGES (R173, R180), from an admitted leaf. -/
def execAxisEdges (t : Nat) (s : State) : Host.Outcome State Fault Refusal :=
  s.happen t (fun s =>
    match s.fromInbox (fun k => k.pt == 0x30) with
    | some (e, s) => if s.reachable e.2.2.src then s.takeEdges e.2.2.src e.2.2.payload else s
    | none => s)

/-! ### SIG messages (R227, R228) -/

/-- SIG_LAST. -/
def State.sigLast (s : State) (node type cause : Nat) : State :=
  ((s.wr pgRING RING_SIG_NODE node).wr pgRING RING_SIG_TYPE type).wr pgRING RING_SIG_CAUSE cause

/-- The port that a leaf's local port is mapped to. -/
def State.portOf (s : State) (leaf lport : Nat) : Option Nat :=
  (s.portsOf leaf).find? (fun p => s.rd (portmapAt p) PORTMAP_LPORT == lport)

/-- LINE_COUNTS: the ingest counters it feeds, in order (R216). -/
def lineCtrs : List Nat := [2, 3, 4, 5, 6, 7, 9, 10, 25]
def State.lineCounts (s : State) (leaf : Nat) (l : List Byte) : State :=
  match s.portOf leaf (leAt l 8 1) with
  | some p => s.each lineCtrs.zipIdx (fun s e => s.icAdd p e.1 (beAt l (9 + 4 * e.2) 4))
  | none => s

/-- BEAT_ACK: the leaf counts toward K, and a higher LR_OBEY seals an active hub (R257, R258). -/
def State.beatAck (s : State) (leaf : Nat) (l : List Byte) : State :=
  let e := beAt l 10 4
  let s := { s with ring := { s.ring with acks := tabPut s.ring.acks leaf s.time.clk } }
  let s := s.mirrorK.seeToken e
  if s.active && tokenHigher e (s.rd pgRING RING_EPOCH) then s.dualSeal else s

/-- Act on a SIG that came on ring `r`. -/
def State.actSig (s : State) (r : Nat) (k : RingPkt) : State :=
  let l := k.payload
  match leAt l 4 1 with
  | 0x01 => s.discoverAll
  | 0x02 => s.discoverAll
  | 0x03 => (s.sigLast k.src 0x03 (beAt l 8 2)).discoverAll
  | 0x05 => (s.sigLast k.src 0x05 (beAt l 8 2)).raise 0x14 9
  | 0x06 => s.lineCounts k.src l
  | 0x10 => s.hubBeat r k.src (leAt l 8 1) (beAt l 11 4)
  | 0x11 => s.beatAck k.src l
  | _ => s

/-- Is the sender of a packet a leaf's ID? -/
def isLeafId (n : Nat) : Bool := n != 0xFE && n != 0xFF

/-- Act on held SIGs of a leaf that no longer wait for a lower number; `n` bounds them. -/
def State.freeSigs (s : State) (leaf : Nat) : Nat → State
  | 0 => s
  | n + 1 =>
    match s.ring.sigHeld.find? (fun e => e.2.src == leaf && !s.seqWaits leaf (beAt e.2.payload 0 4)) with
    | none => s
    | some e =>
      let s := { s with ring := { s.ring with sigHeld := eraseFirst e s.ring.sigHeld } }
      (s.actSig 0 e.2).freeSigs leaf n

/-- A SIG from ring `r` that arrived at `clk`: a hub's is acted on at once; a leaf's passes admission and its window, and
waits for lower numbers. A LEAF_RESET with a new incarnation first opens the new window (R236). -/
def State.takeSig (s : State) (r clk : Nat) (k : RingPkt) : State :=
  if !isLeafId k.src then s.actSig r k
  else if !s.admitted r k.src then s.inc pgRING RING_C_NOT_ADMITTED_DROP
  else
    let inc := beAt k.payload 10 2
    let s := s.when (leAt k.payload 4 1 == 0x03 && s.rd (nodeAt k.src) NODE_INCARN != inc) (·.leafResets k.src inc)
    let q := beAt k.payload 0 4
    match s.takeSeq k.src q with
    | (false, s) => s
    | (true, s) =>
      if s.seqWaits k.src q && decide (s.time.clk < clk + 100 * usU) then
        { s with ring := { s.ring with sigHeld := s.ring.sigHeld ++ [(clk, k)] } }
      else (s.actSig r k).freeSigs k.src s.ring.sigHeld.length

/-- The oldest waiting SIG of a type. -/
def State.nextSig (s : State) (type : Nat) : State :=
  match s.fromInbox (fun k => k.pt == 0x03 && leAt k.payload 4 1 == type) with
  | some (e, s) => s.takeSig e.1 e.2.1 e.2.2
  | none => s

def execLinkDownSig (t : Nat) (s : State) : Host.Outcome State Fault Refusal :=
  s.happen t (·.nextSig 0x01)
def execLinkUpSig (t : Nat) (s : State) : Host.Outcome State Fault Refusal :=
  s.happen t (·.nextSig 0x02)
def execLeafReset (t : Nat) (s : State) : Host.Outcome State Fault Refusal :=
  s.happen t (·.nextSig 0x03)
def execInterruptSig (t : Nat) (s : State) : Host.Outcome State Fault Refusal :=
  s.happen t (·.nextSig 0x05)
def execLineCountsSig (t : Nat) (s : State) : Host.Outcome State Fault Refusal :=
  s.happen t (·.nextSig 0x06)
def execHubBeatRx (t : Nat) (s : State) : Host.Outcome State Fault Refusal :=
  s.happen t (·.nextSig 0x10)
def execBeatAckRx (t : Nat) (s : State) : Host.Outcome State Fault Refusal :=
  s.happen t (·.nextSig 0x11)

/-- SIG_HOLD_TIMEOUT: SIGs that have waited 100 µs are acted on. -/
def State.sigLate (s : State) : State :=
  let due := s.ring.sigHeld.filter (fun e => decide (e.1 + 100 * usU ≤ s.time.clk))
  let s := { s with ring := { s.ring with sigHeld := s.ring.sigHeld.filter (fun e => !decide (e.1 + 100 * usU ≤ s.time.clk)) } }
  s.each due (fun s e => s.actSig 0 e.2)

def execSigHoldTimeout (t : Nat) (s : State) : Host.Outcome State Fault Refusal :=
  s.happen t (·.sigLate)

/-! ### Items (R217 to R219) -/

/-- A kept copy reaches its port. What the DATA is follows from IFL and the port's TYPE (R53, R219). -/
def State.itemToPort (s : State) (r p leaf : Nat) (l : List Byte) : State :=
  let ifl := leAt l 5 1
  let first := instant (beAt l 8 8) (beAt l 16 4) (beAt l 20 2)
  let m : RxMeta := ⟨p, first, first, ifl.testBit 0, bits ifl 1 1, s.rd (nodeAt leaf) (if r = 0 then NODE_IN_NS_A else NODE_IN_NS_B),
    leaf, beAt l 0 4⟩
  let data := l.drop 24
  if !s.on (ingestAt p) INGEST_RX_EN then s
  else match s.rd (ingestAt p) INGEST_TYPE, ifl.testBit 2, ifl.testBit 3 with
  | 1, false, _ => s.giveCand m .sentence data
  | 2, true, false => s.canItem m data
  | 3, true, true => s.tunFrame m data
  | 4, false, _ => s.giveCand m .tongs data
  | 5, false, _ => s.giveCand m .axis data
  | _, _, _ => s

/-- An ITEM_IN copy from ring `r`. -/
def State.itemIn (s : State) (r : Nat) (k : RingPkt) : State :=
  if !s.admitted r k.src then s.inc pgRING RING_C_NOT_ADMITTED_DROP
  else
    let l := k.payload
    match s.takeSeq k.src (beAt l 0 4) with
    | (false, s) => s
    | (true, s) =>
      let s := s.inc pgRING (if r = 0 then RING_C_KEPT_A else RING_C_KEPT_B)
      let s := match s.portOf k.src (leAt l 4 1) with
        | some p => s.itemToPort r p k.src l
        | none => s.inc pgRING RING_C_UNMAPPED_IN
      s.freeSigs k.src s.ring.sigHeld.length

def execItemIn (t : Nat) (s : State) : Host.Outcome State Fault Refusal :=
  s.happen t (fun s =>
    match s.fromInbox (fun k => k.pt == 0x01) with
    | some (e, s) => s.itemIn e.1 e.2.2
    | none => s)

/-! ### Requests and completions (R222 to R226) -/

/-- Answer a request of a leaf. -/
def State.answer (s : State) (k : RingPkt) (st : Nat) (data : List Byte) : State :=
  let c := mkPkt s.nodeId 0x20 0 k.src 0
    (k.payload.take 2 ++ leBytes 1 st ++ leBytes 1 data.length ++ data)
  match s.nearest k.src with
  | some (r, _, _) => s.sendUni r c
  | none => s

/-- WR_REQ_RX: every write from a leaf is answered with ERROR. -/
def execWrReqRx (t : Nat) (s : State) : Host.Outcome State Fault Refusal :=
  s.happen t (fun s =>
    match s.fromInbox (fun k => k.pt == 0x11) with
    | some (e, s) => (s.inc pgRING RING_C_LEAF_WR_REFUSED).answer e.2.2 stERROR []
    | none => s)

/-- The status that a completion delivers: reserved values count as ERROR (R223). -/
def cplStatus (st : Nat) : Nat := if st = 7 ∨ 9 ≤ st then stERROR else st

/-- Which request of a leaf's ring block a completion ends: the last read is LR_GRP. -/
def isLastInfo (o : Origin) : Bool := o == .info 2

/-- A completion: stale, or the end of its request. A leaf whose ring block has been read is configured (R216). -/
def State.cplIn (s : State) (l : List Byte) : State :=
  let w := beAt l 0 2
  let tag := w % 1024
  match tabGet? s.ring.tags tag with
  | none => s.inc pgRING RING_C_CPL_STALE
  | some (_, r) =>
    if w / 1024 % 4 ≠ ((tabGet? s.ring.tgen tag).getD 0 + 3) % 4 then s.inc pgRING RING_C_CPL_STALE
    else
      let st := cplStatus (leAt l 2 1)
      let s := s.when (st == stEPOCH_STALE) (·.inc pgRING RING_C_EPOCH_STALE)
      let s := s.when (st == stTARGET_RESET) (·.inc pgRING RING_C_TARGET_RESET_CPL)
      let s := s.tagDone tag st (if st = stOK ∧ !r.write then (l.drop 4).take r.size else [])
      if isLastInfo r.origin && st == stOK then s.configLeaf r.node else s

def execCplRx (t : Nat) (s : State) : Host.Outcome State Fault Refusal :=
  s.happen t (fun s =>
    match s.fromInbox (fun k => k.pt == 0x20) with
    | some (e, s) => s.cplIn e.2.2.payload
    | none => s)

/-- CPL_TIMEOUT: requests without a completion after CPL_TO_US. -/
def State.cplLate (s : State) : State :=
  let wait := s.rd pgRING RING_CPL_TO_US * usU
  s.each (s.ring.tags.filter (fun e => decide (e.2.1 + wait ≤ s.time.clk)))
    (fun s e => ((s.inc pgRING RING_C_CPL_TIMEOUT).raise 0x14 8).tagDone e.1 stTIMEOUT [])

def execCplTimeout (t : Nat) (s : State) : Host.Outcome State Fault Refusal :=
  s.happen t (·.cplLate)

/-! ### Port map (R215) -/

/-- Is a write of word 0x00 of a port map entry refused? -/
def State.portMapBad (s : State) (p w : Nat) : Bool :=
  let v := w.testBit 0
  let leaf := bits w 15 8
  let lport := bits w 23 16
  let b := portmapAt p
  let changes := s.rd b PORTMAP_VALID != bits w 0 0 || s.rd b PORTMAP_LEAF != leaf || s.rd b PORTMAP_LPORT != lport
  (v && !decide (1 ≤ leaf ∧ leaf ≤ 250)) || (v && (s.portsOf leaf).any (fun q => q != p && s.rd (portmapAt q) PORTMAP_LPORT == lport))
    || (changes && (s.on (ingestAt p) INGEST_RX_EN || s.on (lportAt p) LPORT_TX_EN))

/-- The entry is written; with a leaf that has told where its settings go, the mirror follows. -/
def State.portMapSet (s : State) (p w : Nat) : State :=
  let b := portmapAt p
  let s := ((s.wr b PORTMAP_VALID w).wr b PORTMAP_LEAF (w / 256)).wr b PORTMAP_LPORT (w / 65536)
  let s := (s.wr b PORTMAP_CFG_OK 0).wr b PORTMAP_CFG_FAIL 0
  let reach (r : Nat) : Bool := w.testBit 0 && s.admitted r (bits w 15 8)
  ((s.wrB b PORTMAP_REACH_A (reach 0)).wrB b PORTMAP_REACH_B (reach 1)).mirrorPort p

/-- PORT_MAP_WRITE: word 0x00 of an entry. Entries 0 to 63 ignore writes. -/
def State.portMapWrite (s : State) (p w : Nat) : State :=
  if p < 64 then s
  else s.winGuard 0x14 true (fun s =>
    if s.portMapBad p w then s.refuse 0x14 errILLEGAL
    else (s.portMapSet p w).logDelta (portmapAt p) w)

def execPortMapWrite (t : Nat) (port : Nat) (word : Word) (s : State) : Host.Outcome State Fault Refusal :=
  s.happen t (·.portMapWrite (port % 2048) word.toNat)

/-! ### Multicast banks (R231) -/

/-- Steps 3 and 4 once every member write has completed: MBANK inverts, the new members are in use, the old bank's
entries are cleared and SWITCHING ends; a further commit then starts its own switch. -/
def State.bankSwitch (s : State) (g : Nat) : State :=
  match tabGet? s.ring.switching g with
  | none => s
  | some b =>
    if b.waits ≠ 0 then s
    else
      let old := s.rd (mgroupAt g) MGROUP_MBANK
      let ports := b.ports.zipIdx.map (fun e => if b.missed.contains e.2 then 0 else e.1)
      let s := s.wr (mgroupAt g) MGROUP_MBANK (1 - old)
      let gone := s.ring.grpSlots.filter (fun x => x.group == g && x.bank == old)
      let s := { s with ring := { s.ring with banks := tabPut s.ring.banks g ports, switching := tabDel s.ring.switching g } }
      let s := s.each gone (fun s x => s.writeEntry x false 0 .quiet)
      let s := { s with ring := { s.ring with grpSlots := s.ring.grpSlots.filter (fun x => !(x.group == g && x.bank == old)) } }
      let s := s.wr (mgroupAt g) MGROUP_SWITCHING 0
      s.when b.again (fun s => s.startSwitch g (s.members g))

def execMbankSwitch (t : Nat) (group : Nat) (s : State) : Host.Outcome State Fault Refusal :=
  s.happen t (·.bankSwitch (group % 4096))

end Sys2Proof.Machine
end

