-- ==== Sys2Proof/Machine/Bar0.lean ====
section
/-! DEFINITION. Machine/Bar0.lean: writes of BAR0 registers that have no command of their own (R7, R9, R10, R379), and
reads of BAR0, as a leaf's RD_REQ has them served (R226). -/

namespace Sys2Proof.Machine

/-! ### Words and fields that other commands write -/

def inSpan (a base step n : Nat) : Bool := decide (base ≤ a ∧ a < base + step * n)

/-- The ring whose register entry holds an address: transmit ring r is r, receive ring r is 64 + r (R386). -/
def ringOf? (a : Nat) : Option Nat :=
  if inSpan a 0xE80000 0x20 64 then some ((a - 0xE80000) / 0x20)
  else if inSpan a 0xE81000 0x20 64 then some (64 + (a - 0xE81000) / 0x20)
  else none

/-- A word that commands of its own write whole: word 0x00 of the tables that commit at it, TAIL of a ring, and of the
page header everything but PG_EVT_VEC. -/
def ownWord (a : Nat) : Bool :=
  let p := a / 0x1000
  let off := a % 0x1000
  if a < 0x100000 then
    (decide (off < 0x40) && off != 0x1C)
      || (decide (0x20 ≤ p ∧ p < 0x28) && off == 0x40)
      || (p == 7 && (List.range 14).any (fun k => off == axBase (k + 2)))
      || (decide (0x20 ≤ p ∧ p < 0x28) && (List.range 8).any (fun v => off == 0x108 + 16 * v))
  else
    (inSpan a 0x300000 0x20 2048 || inSpan a 0x900000 0x40 2048 || inSpan a 0x920000 0x20 16384
      || inSpan a 0x270000 0x20 64 || inSpan a 0x280000 0x10 2048 || (ringOf? a).isSome) &&
    (if inSpan a 0x900000 0x40 2048 then a % 0x40 == 0
     else if inSpan a 0x280000 0x10 2048 then a % 0x10 == 0
     else a % 0x20 == 0 || ((ringOf? a).isSome && a % 0x20 == TXRING_TAIL.off))

/-- A field of page `p` that a command of its own writes. -/
def ownFld (p : Nat) (f : Fld) : Bool :=
  if p = 2 then f == PWR_PD
  else if p = 5 then f == SBOX_CLEAR_LOCK
  else if 0x10 ≤ p ∧ p < 0x14 then f == RINGP_ADMIN_DOWN
  else if 0x18 ≤ p ∧ p < 0x1A then f == ETH_RX_GRP
  else if 0x80 ≤ p ∧ p < 0x90 then f == ANV_GOLD_FAILED
  else false

/-- Does the word written start an action of a row that takes the whole word: GO of a test or access slot, SUBMIT, CANCEL
or ACK of a direct queue entry? -/
def startsOwn (p : Place) (w : Nat) : Bool :=
  let wo (l : List Fld) : Bool := l.any (fun f => w.testBit f.lo)
  if p.isPage then
    (p.page == 3 && decide (0x100 ≤ p.off ∧ p.off < 0x180) && p.off % 0x20 == 0 && wo [TEST_SL_GO, TEST_SL_CANCEL, TEST_SL_ACK])
      || (decide (0x20 ≤ p.page ∧ p.page < 0x28) && decide (0x200 ≤ p.off) && (p.off - 0x200) % 96 == 0
          && wo [CAN_Q_SUBMIT, CAN_Q_CANCEL, CAN_Q_ACK])
  else inSpan p.base 0xEC0000 0x80 32 && p.off == 0 && wo [RA_GO, RA_ACK]

/-- A word that is held until word 0x00 of its entry commits it (R42, R126, R177, R186, R267). -/
def heldWord (a : Nat) : Bool :=
  if inSpan a 0x300000 0x20 2048 then ingestHeld.contains (a % 0x20)
  else if inSpan a 0x900000 0x40 2048 then lportHeld.contains (a % 0x40)
  else if inSpan a 0x270000 0x20 64 then slotHeld.contains (a % 0x20)
  else if inSpan a 0x20000 0x1000 8 then canHeld.contains (a % 0x1000)
  else inSpan a pgAXIS 0x1000 1 && (List.range 14).any (fun k => axHeld.any (fun o => a % 0x1000 == axBase (k + 2) + o))

/-! ### Conditions beyond each field's own range: `s` before the write, `t` after it -/

def State.timeBad (t : State) (off : Nat) : Bool :=
  let per (n : Nat) : Nat := t.rd pgTIME (ppsF TIME_PPSO_PERIOD_NS n)
  let wid (n : Nat) : Nat := t.rd pgTIME (ppsF TIME_PPSO_WIDTH_NS n)
  (off == 0x44 && t.on pgTIME TIME_REVERT && t.rd pgTIME TIME_REVERT_S == 0)
    || (decide (0x100 ≤ off ∧ off < 0x180) && [0, 1].any (fun x =>
        decide (t.rd pgTIME (domF TIME_DOM_ALARM_NS x) ≤ t.rd pgTIME (domF TIME_DOM_LOCK_NS x))))
    || (decide (0x1C0 ≤ off ∧ off < 0x200) && [0, 1].any (fun n =>
        decide (1000000000 % per n ≠ 0 ∨ wid n < 100 ∨ per n < 2 * wid n)))

/-- A key byte of a MACsec association names a slot that CIPHER can use, or none (R289). -/
def State.msKeyOk (t : State) (e w : Nat) : Bool :=
  (List.range 4).all (fun a =>
    let b := bits w (8 * a + 7) (8 * a)
    !b.testBit 7 || (t.slotFor (b % 128) engMACSEC
      && t.rd (metaAt (b % 128)) META_ALG == (if t.on (pgETH e) ETH_CIPHER then 2 else 1)))

/-- Every group that DEF_GRP or a valid EGRP entry names is in use (R287). -/
def State.ethNames (t : State) (e g : Nat) : Bool :=
  (List.range 32).any (fun i => t.on (pgETH e) (ETH_EVALID.at i 8) && t.rd (pgETH e) (ETH_EGRP.at i 8) == g)
    || t.rd (pgETH e) ETH_DEF_GRP == g

def State.ethBad (s t : State) (e off : Nat) : Bool :=
  let b := pgETH e
  let gv (s : State) (g : Nat) : Bool := s.on b (ETH_GVALID.at g 16)
  if off = 0x48 ∨ off = 0x4C then (t.rd b ETH_MAC_ADDR).testBit 40
  else if off = 0x54 then t.rd b ETH_UDP_SRC == 0
  else if off = 0x58 ∨ off = 0x40 then t.on b ETH_VLAN_EN && !decide (1 ≤ t.rd b ETH_VLAN_ID ∧ t.rd b ETH_VLAN_ID ≤ 4094)
  else if off = 0x68 then !gv t (t.rd b ETH_DEF_GRP)
  else if off = 0x90 then !t.msKeyOk e (t.rd b ETH_TX_KEY)
  else if 0xC0 ≤ off ∧ off < 0x140 ∧ off % 16 = 8 then !t.msKeyOk e (t.rd b (ETH_RX_KEY.at ((off - 0xC0) / 16) 16))
  else if 0x200 ≤ off ∧ off < 0x400 then
    let g := (off - 0x200) / 16
    let a := t.rd b (ETH_GADDR.at g 16)
    (gv t g && (off % 16 == 4 || off % 16 == 8) && (!decide (224 * 2 ^ 24 ≤ a ∧ a < 240 * 2 ^ 24) || t.rd b (ETH_GPORT.at g 16) == 0))
      || (gv s g && !gv t g && s.ethNames e g)
  else if 0x400 ≤ off ∧ off < 0x500 then
    let i := (off - 0x400) / 8
    t.on b (ETH_EVALID.at i 8) && !gv t (t.rd b (ETH_EGRP.at i 8))
  else false

/-- PROG or PROG_NEXT as a region with its entry (R316). -/
def progBad (w : Nat) : Bool := decide (bits w 21 16 < bits w 13 8 ∨ bits w 5 0 < bits w 13 8 ∨ bits w 21 16 < bits w 5 0)

def State.tongBad (s t : State) (n off : Nat) : Bool :=
  let b := pgTONG n
  if off = 0x50 then s.on b PG_ENABLE || progBad (t.word b rows_TONG 0x50)
  else if off = 0x54 then progBad (t.rd b TONG_PROG_NEXT)
  else if n = 0 ∧ 0x100 ≤ off ∧ off < 0x200 then
    let l := (off - 0x100) / 4
    s.on b (lnF TONG_LN_DRIVING l) && s.rd b (lnF TONG_LN_OWNER l) != t.rd b (lnF TONG_LN_OWNER l)
  else false

def State.canBad (s t : State) (n off : Nat) : Bool :=
  let b := pgCAN n
  let vn := (off - 0x100) / 16
  if off = 0x60 then t.rd b CAN_WAKE_MODE == 1 && t.rd b CAN_WAKE_FILT_US == 0
  else if 0x100 ≤ off ∧ off < 0x180 then off % 16 < 8 && s.on b (vnF CAN_VN_EN vn)
  else 0x200 ≤ off && s.rd b (qF CAN_Q_STATE ((off - 0x200) / 96)) != 0

def State.anvBad (t : State) (off : Nat) : Bool :=
  let b := pgANV 0
  if 0x100 ≤ off ∧ off < 0x140 then
    let i := (off - 0x100) / 4
    t.on b (ANV_VALID.at i 4) && !(leBytes 3 (t.rd b (ANV_PROP_MNEM.at i 4))).all isUpperNum
  else if 0x140 ≤ off ∧ off < 0x160 then
    let i := (off - 0x140) / 4
    let pf := t.rd b (ANV_PAYLOAD_FLD.at i 4)
    let ff := t.rd b (ANV_FILL_FLD.at i 4)
    pf == 1 || pf == 2 || ff == 1 || ff == 2 || (ff != 0 && ff == pf)
  else false

/-- What else makes a write of a page register illegal under R9. -/
def State.pageBad (s t : State) (p off w : Nat) : Bool :=
  if p = 3 then
    decide (0x100 ≤ off ∧ off < 0x180) && (s.ts ((off - 0x100) / 0x20) TEST_SL_RSTATE != tsIDLE || !t.tsLegal ((off - 0x100) / 0x20))
  else if p = 5 then
    decide (48 < t.rd pgSBOX SBOX_SALT_LEN ∨ 48 < t.rd pgSBOX SBOX_INFO_LEN)
      || (off == SBOX_GO.off && w.testBit SBOX_GO.lo && !decide (1 ≤ w / 2 ^ SBOX_CMD.lo % 2 ^ SBOX_CMD.width ∧ w / 2 ^ SBOX_CMD.lo % 2 ^ SBOX_CMD.width ≤ 8))
      || (off == SBOX_RA_SLOT0.off && !(t.slotFor (t.rd pgSBOX SBOX_RA_SLOT0) engRING && t.slotFor (t.rd pgSBOX SBOX_RA_SLOT1) engRING))
  else if p = 6 then t.timeBad off
  else if 0x18 ≤ p ∧ p < 0x1A then s.ethBad t (p - 0x18) off
  else if 0x20 ≤ p ∧ p < 0x28 then s.canBad t (p - 0x20) off
  else if 0x60 ≤ p ∧ p < 0x70 then s.tongBad t (p - 0x60) off
  else if p = 0x80 then t.anvBad off
  else if p = 0xA0 then
    decide (t.rd pgLARD LARD_SPILL_HI ≤ t.rd pgLARD LARD_SPILL_LO ∨ 49152 < t.rd pgLARD LARD_SPILL_HI ∨ 16384 < t.rd pgLARD LARD_RESERVE)
  else if p = 0xA1 then
    (List.range 8).any (fun c => decide (99 < t.rd pgBELL (BELL_LATE_PCT.at c 4)))
      || (off == BELL_STAT_MNEM.off && t.on pgBELL BELL_STAT_MV && !(leBytes 3 (t.rd pgBELL BELL_STAT_MNEM)).all isUpperNum)
  else if p = 0xA2 then
    (decide (0x40 ≤ off ∧ off < 0x48) && !t.orgOk ((off - 0x40) / 4))
      || (off == 0x64 && decide (t.celCap < t.rd pgCELL CELL_WIN_BASE * 2 ^ 20 + 64 * 2 ^ 20))
  else false

/-! ### What a write does besides keeping its value -/

/-- TEST_OOS: links taken out of service go down, those returned train (R424). -/
def State.oosWrite (s t : State) : State :=
  let was := s.rd pgTEST TEST_OOS
  let is := t.rd pgTEST TEST_OOS
  t.each (List.range 8) (fun s l =>
    if is.testBit l && !was.testBit l then
      if l < 4 then (s.linkDown l 1).wr (pgRINGP l) RINGP_LSTATE lsDOWN else if l < 6 then s.laneGoes (l - 4) else s.ethDown (l - 6)
    else if was.testBit l && !is.testBit l && decide (l < 6) then s.startTrain l
    else s)

/-- A new DIV: the engine clock's number is counted afresh from it (R299). -/
def State.divWrite (s t : State) (n : Nat) : State :=
  let s := (s.tongSettle n).wr (pgTONG n) TONG_DIV (t.rd (pgTONG n) TONG_DIV)
  let k := s.tongIdx n
  s.setEng n { s.eng n with tmrK := k, stallK := k }

/-- BP_EN changed: queues of the class are judged (R143). -/
def State.bpEnWrite (s : State) : State :=
  let qs := (s.del.queues.map (·.1) ++ (s.listedBit 0x920000 0x20 16384 (QUEUE_BP.off * 8 + QUEUE_BP.lo))).eraseDups
  s.each qs State.judgeBP

/-- The effect of a page write, `s` before and `t` with the new value. -/
def State.pageEffect (s t : State) (p off : Nat) : State :=
  if p = 3 then (if off = TEST_OOS.off then s.oosWrite t else t)
  else if p = 6 then
    let t := t.each [0, 1] (fun t x =>
      t.when (s.rd pgTIME (domF TIME_DOM_SRC x) != t.rd pgTIME (domF TIME_DOM_SRC x)) (·.unlock x))
    if 0x1C0 ≤ off ∧ off < 0x200 then
      { t with time := { t.time with ppsWait := insertNat ((off - 0x1C0) / 0x20) t.time.ppsWait } } else t
  else if 0x18 ≤ p ∧ p < 0x1A then
    t.when (s.rd (pgAt p) ETH_MODE != t.rd (pgAt p) ETH_MODE) (·.ethDown (p - 0x18))
  else if 0x40 ≤ p ∧ p < 0x60 then t.mirrorDE (p - 0x40)
  else if 0x60 ≤ p ∧ p < 0x70 then
    let t := if off = 0x40 then s.divWrite t (p - 0x60) else t
    t.when (p == 0x60 && decide (0x100 ≤ off ∧ off < 0x200)) (·.pinSyncAll)
  else if p = 0xA0 then ((t.setCells (t.rd pgLARD LARD_CELLS_USED)).freeCells 0).spillStart
  else if p = 0xA1 then t.when (decide (off < 0x60)) (·.bpEnWrite)
  else if p = 0xA3 then t.when (off == JRNL_JLOC_B.off || off == JRNL_JLOC_B.off + 4) (·.jLocate)
  else t

/-! ### REGISTER_WRITE -/

/-- One word at an address: the state after it, or none where R9 refuses it. -/
def State.writeWord (s : State) (a w : Nat) : Option State :=
  match placeOf a with
  | none => some s
  | some p =>
    let rows := p.rows.filter (fun r => !(p.isPage && ownFld p.page r.fld))
    if p.ro || ownWord a || startsOwn p w then some s
    else if heldWord a then some { s with held := tabPut s.held a w }
    else if (shadowPlace a).isSome then some (s.shadowWrite a w)
    else if p.isPage && p.page == 0x70 && decide (0x100 ≤ p.off ∧ p.off < 0x200) then
      some (if s.on pgTONGS PG_SHADOW_SWAP then { s with tong := { s.tong with held := s.tong.held ++ [((p.off - 0x100) / 4, w)] } }
        else s.setWord p.base rows p.off w)
    else if p.isPage && p.page == 5 && decide (SBOX_STAGE.off ≤ p.off ∧ p.off < SBOX_INFO.off + 48) then some (s.wr a wordFld w)
    else if p.isPage && p.page == 1 && decide (0x400 ≤ p.off) && p.off % 16 == 12 then
      some (s.when (w % 2 == 1) (·.wr pgHOST (msixMask ((p.off - 0x400) / 16)) 1))
    else
      let t := s.setWord p.base rows p.off w
      let bad := !s.wordLegal p.base rows p.off w
        || (p.isPage && decide (0x40 ≤ p.off) && s.pageBad t p.page p.off w)
        || (ringOf? a).any (t.ringBad s)
        || (inSpan a 0xEC0000 0x80 32 && s.rd p.base RA_STATE != 0)
      if bad then none
      else
        let t := if p.isPage && decide (0x40 ≤ p.off) then s.pageEffect t p.page p.off else t
        some (t.when p.carried (·.logDelta a w))

/-- Who may write at a place: the header always, block registers under R10, R376 and R419, windows from ATTIC on; the
strongbox and its message window are needed before that. -/
def State.placeGuard (s : State) (p : Place) (f : State → State) : State :=
  if p.isPage then
    if p.off < 0x40 then f s
    else if 0x800 ≤ p.off then s
    else if p.page = 5 then s.sbGuard f
    else s.blkGuard p.page p.carried f
  else if p.ro then s
  else if p.page = 5 ∧ (s.rd pgPWR PWR_BOOT_STAGE = 2 ∨ s.rd pgPWR PWR_BOOT_STAGE = 3) then f s
  else s.winGuard p.page p.carried f

/-- A host write of 32 bits, or with `wide` of 64, the higher address first (R379). -/
def State.registerWrite (s : State) (a : Nat) (wide : Bool) (v : Nat) : State :=
  if isHole a then ((s.wr pgHOST HOST_HOLE_ADDR a).inc pgHOST HOST_C_HOLE_ACCESS).raise 1 5
  else
    match (placeOf a).or (if wide then placeOf (a + 4) else none) with
    | none => s
    | some p =>
      s.placeGuard p (fun s =>
        let hi := if wide then s.writeWord (a + 4) (v / 2 ^ 32 % 2 ^ 32) else some s
        match hi.bind (fun s => s.writeWord a (v % 2 ^ 32)) with
        | some t => t
        | none => s.refuse p.page errILLEGAL)

/-- REGISTER_WRITE. The address is aligned to the access (R379 refuses any other). -/
def execRegisterWrite (t : Nat) (addr : Nat) (wide : Bool) (value : BitVec 64) (s : State) : Host.Outcome State Fault Refusal :=
  let a := addr % 2 ^ 24
  s.happen t (·.registerWrite (if wide then a / 8 * 8 else a / 4 * 4) wide value.toNat)

/-! ### Reads (R7, R226) -/

/-- TYPE and instance of a page (R381). -/
def pageType (p : Nat) : Nat :=
  if p ≤ 8 then (p + 1) * 2 ^ 16
  else if p < 0x14 then 0x10 * 2 ^ 16 + (p - 0x10)
  else if p = 0x14 then 0x11 * 2 ^ 16
  else if p < 0x20 then 0x18 * 2 ^ 16 + (p - 0x18)
  else if p < 0x40 then 0x20 * 2 ^ 16 + (p - 0x20)
  else if p < 0x60 then 0x40 * 2 ^ 16 + (p - 0x40)
  else if p < 0x70 then 0x60 * 2 ^ 16 + (p - 0x60)
  else if p = 0x70 then 0x61 * 2 ^ 16
  else if p < 0x90 then 0x80 * 2 ^ 16 + (p - 0x80)
  else p * 2 ^ 16

/-- Defined events and counters of a page (R375). -/
def pageCounts (p : Nat) : Nat × Nat :=
  match p with
  | 0 => (1, 2) | 1 => (8, 18) | 2 => (5, 7) | 3 => (2, 18) | 4 => (4, 5) | 5 => (5, 11) | 6 => (8, 12) | 7 => (6, 12) | 8 => (13, 18)
  | 0x14 => (12, 19) | 0x70 => (0, 2) | 0x90 => (4, 8) | 0x91 => (1, 5) | 0x92 => (5, 7) | 0xA0 => (4, 9) | 0xA1 => (6, 19)
  | 0xA2 => (6, 10) | 0xA3 => (3, 8)
  | _ =>
    if p < 0x14 then (5, 15) else if p < 0x20 then (6, 17) else if p < 0x40 then (8, 16) else if p < 0x60 then (1, 2)
    else if p < 0x70 then (5, 12) else (3, 7)

/-- PG_CAP. -/
def pageCap (p : Nat) : Nat :=
  let sh := swapPages.contains p || p == 0x70
  sh.toNat + 2 * (decide (0x60 ≤ p ∧ p < 0x70)).toNat + 4 * (p == 5).toNat + 8 * (pageCarried p).toNat
    + 2 ^ 8 * (pageCounts p).1 + 2 ^ 16 * (pageCounts p).2

/-- Live status and constants that a word of a page shows beside its fields. QUIESCED and what the hardware measures are
free values. -/
def State.liveBits (s : State) (p off : Nat) : Nat :=
  let live (hi lo : Nat) : Nat := Config.liveWord (pgAt p + off) s.time.clk / 2 ^ lo % 2 ^ (hi - lo + 1) * 2 ^ lo
  let busy := s.attic.waiting || s.attic.writing.isSome
  let word (l : List Byte) (at_ : Nat) : Nat := leAt l (off - at_) 4
  match off with
  | 0x00 => pageType p
  | 0x04 => Config.pageVersion p
  | 0x08 => pageCap p
  | 0x0C => 2 ^ 8 * busy.toNat
  | 0x10 => (s.pageReady p).toNat + live 2 2
  | _ =>
    let n := p - 0x60
    if p = 0 ∧ (off = 0x60 ∨ off = 0x64) then (s.time.clk - s.time.relClk) / secU / 2 ^ (8 * (off - 0x60)) % 2 ^ 32
    else if p = 1 ∧ off = 0x40 then live 4 0 + 2 ^ 8 * (Config.busMaster s.time.clk).toNat + live 9 9
    else if p = 2 ∧ (off = 0x60 ∨ off = 0x64) then s.aoTicks / 2 ^ (8 * (off - 0x60)) % 2 ^ 32
    else if p = 4 ∧ off = 0x40 then 2 ^ 8 * busy.toNat
    else if p = 5 ∧ 0x260 ≤ off ∧ off < 0x2C0 then word Config.transPub 0x260
    else if p = 5 ∧ 0x2C0 ≤ off ∧ off < 0x2D0 then word Config.devUid 0x2C0
    else if p = 5 ∧ 0x2D0 ≤ off ∧ off < 0x300 then word Config.authPkh0 0x2D0
    else if p = 8 ∧ off = 0x40 then 2 ^ 5 * s.rd pgSYS SYS_FIRST
    else if 0x20 ≤ p ∧ p < 0x28 ∧ off = 0x50 then live 31 16
    else if 0x60 ≤ p ∧ p < 0x70 ∧ off = 0x64 then 2 ^ 17 * (s.rxOf (tongPort n)).openC.isSome.toNat
    else if 0x60 ≤ p ∧ p < 0x70 ∧ off = 0x78 then s.tongTmr n
    else if 0x60 ≤ p ∧ p < 0x70 ∧ off = 0x7C then
      ((s.lisOf (tongPort n)).tx.map (·.words)).sum - (s.lisOf (tongPort n)).txp + 2 ^ 16 * (s.rxOf (tongPort n)).level
    else if p = 0x60 ∧ 0x100 ≤ off ∧ off < 0x200 then 2 ^ 16 * (s.lineIn ((off - 0x100) / 4)).toNat
    else 0

/-- Entries of the port tables that are reserved and read 0 (R42, R126, R329). -/
def reservedEntry (a : Nat) : Bool :=
  let gap (base step : Nat) : Bool := inSpan a (base + 58 * step) step 6
  gap 0x300000 0x20 || gap 0xE40000 0x40 || (gap 0x900000 0x40 && !inSpan a (0x900000 + 59 * 0x40) 0x40 1)

/-- A word of the FIFO window: depths, and a remote port shows no transmit field (R329). The current pool share of a
remote port is a free number of words up to its 16 KiB (R328). -/
def fifoWord (port off w clk : Nat) : Nat :=
  if off = 4 then w ||| (if 64 ≤ port then Config.liveWord (0xE40004 + port * 0x40) clk % 2049 else rxDepth port) else if off = 12 then w ||| txDepth port else if off = 8 ∧ 64 ≤ port then 0 else w

/-- The word at a word address. Words of a powered-down block read 0 (R419); the view of larder cells, whose places no
rule gives, is free (R342). -/
def State.readWord (s : State) (a : Nat) : Nat :=
  match placeOf a with
  | none => 0
  | some p =>
    if (p.isPage && decide (0x40 ≤ p.off) && s.pageDown p.page) || reservedEntry a then 0
    else
      let w := s.word p.base p.rows p.off
      if p.isPage then w ||| s.liveBits p.page p.off
      else if inSpan a 0xF00000 0x10000 1 then Config.liveWord a s.time.clk % 2 ^ 32
      else if inSpan a 0xE40000 0x40 2048 then fifoWord ((a - 0xE40000) / 0x40) p.off w s.time.clk
      else if inSpan a 0x900000 0x40 2048 && p.off == LPORT_TOKENS.off then s.bucket ((a - 0x900000) / 0x40) / secU
      else w

/-- Serve an RD_REQ. -/
def State.readReq (s : State) (k : RingPkt) : State :=
  let n := leAt k.payload 2 1
  let a := beAt k.payload 8 8
  if !s.reachable k.src then s
  else if !([4, 8, 16, 32, 64].contains n) || a % n != 0 then s.answer k stSIZE []
  else if 2 ^ 24 ≤ a ∨ inSpan a 0xF20000 0x1000 1 then s.answer k stUNMAPPED []
  else s.answer k stOK ((List.range (n / 4)).flatMap (fun i => leBytes 4 (s.readWord (a + 4 * i))))

def execRdReqRx (t : Nat) (s : State) : Host.Outcome State Fault Refusal :=
  s.happen t (fun s =>
    match s.fromInbox (fun k => k.pt == 0x10) with
    | some (e, s) => s.readReq e.2.2
    | none => s)

end Sys2Proof.Machine
end

