-- ==== Sys2Proof/Machine/Boot.lean ====
section
/-! DEFINITION. Machine/Boot.lean: the attic's commits and restore (R409 to R413) and the boot (R406 to R408). -/

namespace Sys2Proof.Machine

/-! ### Commits (R411, R412) -/

/-- Banks an image occupies. -/
def AtImage.bankList (i : AtImage) : List Nat := (List.range i.banks).map (fun k => (i.first + k) % 16)

/-- COMMIT on any page: a request while one waits or runs is merged. -/
def State.commitReq (s : State) : State :=
  let s := s.when (s.attic.waiting || s.attic.writing.isSome) (·.inc pgATTC ATTC_C_COMMITS_MERGED)
  { s with attic := { s.attic with waiting := true } }

def execCommit (t : Nat) (page : Nat) (s : State) : Host.Outcome State Fault Refusal :=
  s.happen t (·.hdrGuard (page % 256) State.commitReq)

/-- A new image is begun after the banks of the current generation, over whatever was there. Its length, which the format
bounds (R410), is a free value. -/
def State.beginImage (s : State) : State :=
  let x := s.fresh
  let s := x.2
  let bytes := 76 + 4 * (x.1 % 419411)
  let gen := (s.attic.images.map (·.gen)).foldl max 0 + 1
  let im : AtImage := ⟨(s.rd pgATTC ATTC_FIRST_BANK + s.rd pgATTC ATTC_BANK_CNT) % 16, (bytes + 262143) / 262144, gen, false,
    secOf s.time.h, nsOf s.time.h, bytes, s.regs.filter (fun c => retained c.1)⟩
  let cut (o : AtImage) : Option AtImage :=
    if im.bankList.contains o.first then none
    else some (if o.bankList.any im.bankList.contains then { o with whole := false } else o)
  let s := s.each im.bankList (fun s b => s.inc pgATTC (ATTC_WEAR.at b 8))
  { s with attic := { s.attic with images := s.attic.images.filterMap cut ++ [im], waiting := false, writing := some gen
                                   lastPoint := some s.time.clk } }

/-- COMMIT_TAKEN: the commit point, at least 100 ms after the last one. The attic takes commits once it has been read. -/
def State.commitTaken (s : State) : State :=
  let due := s.attic.lastPoint.all (fun l => decide (l + 100 * msU ≤ s.time.clk))
  if s.attic.waiting && s.attic.writing.isNone && due && s.bootReady true then s.beginImage else s

def execCommitTaken (t : Nat) (s : State) : Host.Outcome State Fault Refusal :=
  s.happen t (·.commitTaken)

/-- ATTC registers of the current generation. -/
def State.setCurrent (s : State) (i : AtImage) : State :=
  let b := pgATTC
  let s := ((s.wr b ATTC_GEN i.gen).wr b ATTC_FIRST_BANK i.first).wr b ATTC_BANK_CNT i.banks
  ((s.wr b ATTC_IMG_BYTES i.bytes).wr b ATTC_CP_S i.cpS).wr b ATTC_CP_NS i.cpNs

/-- COMMIT_WRITTEN: the MARK is written. -/
def State.commitWritten (s : State) : State :=
  match s.attic.writing.bind (fun g => s.attic.images.find? (fun i => i.gen == g)) with
  | none => s
  | some i =>
    let done := s.attic.images.map (fun o => if o.gen == i.gen then { o with whole := true } else o)
    let s : State := { s with attic := { s.attic with images := done, writing := none } }
    ((s.setCurrent i).inc pgATTC ATTC_C_COMMITS).raise 4 0

def execCommitWritten (t : Nat) (s : State) : Host.Outcome State Fault Refusal :=
  s.happen t (·.commitWritten)

/-! ### Restore (R413) -/

/-- One retained field takes its value, in both copies of a table that has two. -/
def State.restoreField (s : State) (c : Nat × Nat) : State :=
  let put (l : List (Nat × Nat)) (k : Nat) : List (Nat × Nat) := regIns k c.2 (l.filter (fun x => x.1 != k))
  let l := put s.regs c.1
  { s with regs := match shadowKey c.1 with | some k => put l k | none => l }

/-- Entries of a live table that hold anything. -/
def State.entriesOf (s : State) (tb : Nat) : List Nat :=
  let lo := tblLv tb 0
  let n := match tb with | 1 | 4 => 16384 | 2 => 2048 | 3 => 512 | _ => 4096
  (s.regs.filterMap (fun c => if span (8 * lo) (8 * (lo + n * tblSize tb)) c.1 then some ((c.1 / 8 - lo) / tblSize tb) else none)).eraseDups

/-- The first entry that a batch commit of its table would name. -/
def State.firstOffence (s : State) : Option Offence :=
  [1, 2, 3, 4, 6].findSome? (fun tb => (s.entriesOf tb).findSome? (fun i => s.judgeEntry s tb i))

/-- The tables are checked until they pass; each entry named is returned to its factory-inert value. `n` bounds them. -/
def State.checkTables (s : State) : Nat → State
  | 0 => s
  | n + 1 =>
    match s.firstOffence with
    | none => s
    | some o =>
      let z := tblSize o.tb
      let s := s.wipeRegs (tblLv o.tb o.idx) (tblLv o.tb o.idx + z)
      let s := s.wipeRegs (tblSh o.tb o.idx) (tblSh o.tb o.idx + z)
      (s.inc pgATTC ATTC_C_REC_REFUSED).checkTables n

/-- What follows from the tables: group state, orphans, group banks. -/
def State.tablesUp (s : State) : State :=
  let s := s.each ((s.entriesOf 3).filter (fun g => s.on (groupAt g) GROUP_VALID)) (fun s g => s.relive State.reset g)
  let s := s.mirrorOrphans
  let s := s.each ((s.entriesOf 6).filter (fun g => s.on (mgroupAt g) MGROUP_VALID)) (fun s g => s.startSwitch g (s.members g))
  { s with tblGen := s.tblGen + 1 }

/-- Apply an image. -/
def State.applyImage (s : State) (i : AtImage) : State :=
  let s := s.each i.fields State.restoreField
  let s := s.checkTables (i.fields.length + 1)
  let s := s.when (s.rd pgATTC ATTC_C_REC_REFUSED != 0) (·.raise 4 3)
  (s.setCurrent i).tablesUp

/-- Start in the factory-inert state with a cause. -/
def State.inert (s : State) (cause : Nat) : State :=
  ((s.wr pgATTC ATTC_STATE 0).wr pgATTC ATTC_INERT_CAUSE cause).raise 4 2

/-- The image of the higher generation. -/
def higher (a b : AtImage) : AtImage := if a.gen < b.gen then b else a
def newest : List AtImage → Option AtImage
  | [] => none
  | i :: l => some (l.foldl higher i)

/-- Restore at stage ATTIC. Bit b of `hdrBad` says that the header in bank b fails its check, of `bodyBad` that the ICRC or
MARK of the image that begins there does. -/
def State.restore (s : State) (hdrBad bodyBad : Nat) : State :=
  let kept := (s.attic.images.filter (fun i => !hdrBad.testBit i.first)).map
    (fun i => { i with whole := i.whole && !bodyBad.testBit i.first })
  let s : State := { s with attic := { s.attic with images := kept } }
  match newest kept with
  | none => s.inert (if s.rd pgSYS SYS_RST_CAUSE = 6 then 3 else 1)
  | some a =>
    if a.whole then (s.wr pgATTC ATTC_STATE 1).applyImage a
    else match newest (kept.filter (fun i => i.gen != a.gen)) with
      | some b => if b.whole then ((s.wr pgATTC ATTC_STATE 2).applyImage b).raise 4 1 else s.inert 2
      | none => s.inert 2

/-! ### The boot (R406) -/

/-- FORWARD: anvils, bellows and local ports run under their settings. -/
def State.goForward (s : State) : State :=
  let s := s.wr pgPWR PWR_BOOT_STAGE 7
  let s := s.wr pgPWR PWR_BOOT_MS (min 65535 ((s.time.clk - s.time.relClk) / msU))
  let s : State := { s with twin := { s.twin with startAt := s.time.clk } }
  let s := s.mirrorAnvils
  let s := s.each ((List.range 32).filter (fun p => s.on (ingestAt p) INGEST_RX_EN)) (fun s p => s.blockStart (0x40 + p))
  let s := s.each ((List.range 8).filter (fun n => s.rd (pgCAN n) CAN_MODE != 0)) (fun s n => s.blockStart (0x20 + n))
  let s := s.each (List.range 16) (fun s n => s.blockStart (0x60 + n))
  let s := ((s.mirrorDEs.pinSyncAll).mirrorRingHealth 0).mirrorRingHealth 1
  s.when (s.rd pgSYS SYS_RST_CAUSE == 5) (·.raise 2 3)

/-- Stage ATTIC ends: a wipe that the strap asks for, or the restore. -/
def State.atticStage (s : State) (hdrBad bodyBad : Nat) : State :=
  if (s.rd pgSYS SYS_STRAPS).testBit 0 ∧ s.rd pgSYS SYS_RST_CAUSE ≠ 6 then s.factoryWipe
  else
    let s := s.restore hdrBad bodyBad
    (s.startChannels.chainStart).wr pgPWR PWR_BOOT_STAGE 5

/-- Stage MEMORY ends, once no cellar channel is training. -/
def State.memoryStage (s : State) : State :=
  if [0, 1].any (fun c => s.rd pgCELL (chState c) == 1) then s
  else
    let s := s.layCellar
    if (s.rd pgSYS SYS_STRAPS).testBit 1 then (s.wr pgPWR PWR_BOOT_STAGE 6).raise 2 2 else s.goForward

/-- BOOT_STAGE_DONE: the stage in progress ends. -/
def State.stageDone (s : State) (hdrBad bodyBad : Nat) : State :=
  match s.rd pgPWR PWR_BOOT_STAGE with
  | 1 => (s.wr pgPWR PWR_BOOT_STAGE 2).each (List.range 6) State.startTrain
  | 2 => let s := s.sbBoot; s.wr pgPWR PWR_BOOT_STAGE (if s.rd pgSBOX SBOX_SB_STATE = 2 then 3 else 4)
  | 4 => s.atticStage hdrBad bodyBad
  | 5 => s.memoryStage
  | _ => s

def execBootStageDone (t : Nat) (hdrBad bodyBad : BitVec 16) (s : State) : Host.Outcome State Fault Refusal :=
  s.happen t (·.stageDone hdrBad.toNat bodyBad.toNat)

/-- BOOT_GO: it leaves HELD, the one stage in which page 0x002 takes it; in any other it is refused. -/
def execBootGo (t : Nat) (s : State) : Host.Outcome State Fault Refusal :=
  s.happen t (·.ctrlGuard 2 false (fun s =>
    if s.rd pgPWR PWR_BOOT_STAGE = 6 then s.goForward else s.refuse 2 errILLEGAL))

end Sys2Proof.Machine
end

