-- ==== Sys2Proof/Machine/Tong.lean ====
section
/-! DEFINITION. Machine/Tong.lean: the instructions of a tongs engine (R301 to R312) and the commands of the TONG pages
(R313 to R321). One command is one engine clock of one instruction: it acts when the word at the engine's PC is of that
instruction and the engine runs; its instant lies in that engine clock. -/

namespace Sys2Proof.Machine

/-! ### Words (R302, R305) -/

def tongOp (w : Nat) : Nat := bits w 31 28

/-- Every bit outside `m` is 0. -/
def onlyBits (w m : Nat) : Bool := w % 2 ^ 28 &&& (2 ^ 28 - 1 - m) == 0

/-- Is a word a legal instruction? -/
def tongLegal (w : Nat) : Bool :=
  match tongOp w with
  | 0 => onlyBits w 0x0FFC003F && decide (bits w 27 24 ≤ 13)
  | 1 =>
    let src := bits w 27 25
    onlyBits w 0x0FC0003F && decide (src ≤ 4) && !(w.testBit 23 && src != 1) && !(w.testBit 24 && (src == 2 || src == 4))
      && !(w.testBit 22 && src != 2)
  | 2 => onlyBits w 0x0F01FFFF && !(w.testBit 27 && w.testBit 16)
  | 3 => onlyBits w 0x0E00FFFF
  | 4 => onlyBits w 0x0FF800FF
  | 5 => onlyBits w 0x0BFFFFFF
  | 6 =>
    let mode := bits w 27 26
    let cnt := bits w 5 0
    onlyBits w 0x0FEC003F && mode != 3 && (mode == 0 || decide (1 ≤ cnt ∧ cnt ≤ 32))
      && (mode != 0 || w.testBit 23 || w.testBit 22 || w.testBit 21)
  | 7 => onlyBits w 0x0F800000 && !(!w.testBit 26 && w.testBit 23)
  | 8 => onlyBits w 0x0F800000 && !(w.testBit 26 && bits w 25 24 != 0)
  | 9 => onlyBits w 0x0FC00000
  | 10 => onlyBits w 0x0C0000FF && bits w 27 26 != 3
  | _ => false

/-! ### Registers and sequencing -/

/-- Working register `i`. -/
def tongW (i : Nat) : Fld := TONG_W0.at i 4

/-- An instruction completes; the next is at `pc` (R300). -/
def State.tongNext (s : State) (n op pc : Nat) : State :=
  let s := ((s.wr (pgTONG n) TONG_LAST_OP op).wr (pgTONG n) TONG_STALL 0)
  if s.tongInside n pc && decide (pc < 64) then s.wr (pgTONG n) TONG_PC pc else s.tongFault n 2

/-- It completes with the next word in line. -/
def State.tongStep (s : State) (n op : Nat) : State := s.tongNext n op (s.rd (pgTONG n) TONG_PC + 1)

/-- No candidate open, no SHIFT in progress, SR empty, no word half fetched: a boundary (R318). -/
def State.tongBoundary (s : State) (n : Nat) : Bool :=
  let e := s.eng n
  e.phase == 0 && e.sr.isEmpty && (s.rxOf (tongPort n)).openC.isNone && (!e.fetched || s.on (pgTONG n) TONG_LASTF)

/-- The engine executes: started, not held, faulted or frozen, powered; it moves before it goes on at a boundary. -/
def State.tongLive (s : State) (n : Nat) : Bool :=
  decide (s.rd (pgTONG n) TONG_STALL < 4) && !s.portDown 42 && !(s.tongWaits n && s.tongBoundary n)

/-- Run the instruction at PC as one of OP `op`: an illegal word stops the engine. `f` gets the word and the instant
its line writes leave the ball: 5.0 ns after the engine clock's start, or F + 50 ns after an AWAIT with FINE. -/
def State.tongExec (s : State) (n op : Nat) (f : State → Nat → Nat → State) : State :=
  let w := s.tongWord n
  let st := s.rd (pgTONG n) TONG_STALL
  let o := tongOp w
  if !s.tongLive n || st != 0 || !(o == op || (op == 0 && decide (10 < o))) then s
  else if !tongLegal w then s.tongFault n 1
  else
    let e := s.eng n
    let plain := s.time.h + 5 * nsU
    let pins := op == 2 || op == 6 || (op == 9 && w.testBit 27)
    let s := s.setEng n { e with fine := none }
    match e.fine with
    | none => f s w plain
    | some fi =>
      if fi + 45 * nsU < s.time.h then f (s.when pins (·.inc (pgTONG n) TONG_C_FINE_MISS)) w plain
      else f s w (fi + 50 * nsU)

/-! ### SR (R304) -/

def State.setSr (s : State) (n : Nat) (l : List SrBit) : State :=
  (s.setEng n { s.eng n with sr := l }).wr (pgTONG n) TONG_SR_CNT l.length

/-- Append one bit. -/
def State.srAppend (s : State) (n : Nat) (msb : Bool) (b : SrBit) : State :=
  let l := (s.eng n).sr
  if 64 ≤ l.length then s.inc (pgTONG n) TONG_C_BITS_LOST
  else s.setSr n (if msb then b :: l else l ++ [b])

/-- Remove one bit; at SR_CNT 0 it reads 0. -/
def State.srRemove (s : State) (n : Nat) (msb : Bool) : Bool × State :=
  let l := (s.eng n).sr
  if l.isEmpty then (false, s)
  else if msb then ((l.getLast?.map (·.bit)).getD false, s.setSr n l.dropLast)
  else ((l.head?.map (·.bit)).getD false, s.setSr n l.tail)

/-- The order in which `cnt` bits of a word are moved. -/
def bitOrder (msb : Bool) (cnt : Nat) : List Nat := if msb then (List.range cnt).reverse else List.range cnt

/-- Append bits of a word to SR. -/
def State.srLoad (s : State) (n : Nat) (msb : Bool) (cnt v : Nat) : State :=
  s.each (bitOrder msb cnt) (fun s i => s.srAppend n msb ⟨v.testBit i, s.time.h, none⟩)

/-- Remove bits of SR into a word. -/
def State.srTake (s : State) (n : Nat) (msb : Bool) (cnt : Nat) : Nat × State :=
  (bitOrder msb cnt).foldl (fun (a : Nat × State) i =>
    let r := a.2.srRemove n msb
    (a.1 + r.1.toNat * 2 ^ i, r.2)) (0, s)

/-- SR[31:0], zeros above SR_CNT. -/
def srWord (l : List SrBit) : Nat := (l.take 32).foldr (fun b a => b.bit.toNat + 2 * a) 0

/-- The bit appended last of those that a STORE from SR writes. -/
def srLast (l : List SrBit) : Option SrBit :=
  (l.take 32).foldl (fun (a : Option SrBit) b => match a with | some x => if x.at_ ≤ b.at_ then some b else a | none => some b) none

/-! ### GO, LOAD, ALU, TIMER, FLAG, LUT -/

def execTongGo (t : Nat) (engine : Nat) (lines : BitVec 64) (s : State) : Host.Outcome State Fault Refusal :=
  s.happen t (fun s =>
    let n := engine % 16
    let b := pgTONG n
    { s with tong := { s.tong with lines := lines.toNat } }.tongExec n 0 (fun s w _ =>
      let reg := s.rd b (tongW (bits w 19 18))
      let stb := (s.rd b TONG_ST).testBit (bits w 20 18)
      let jump := match bits w 27 24 with
        | 0 => true
        | 1 => reg == 0
        | 2 => reg != 0
        | 3 => reg.testBit 31
        | 4 => s.tongTmr n == 0
        | 5 => s.tongTmr n != 0
        | 6 => s.lineIn (bits w 23 18)
        | 7 => !s.lineIn (bits w 23 18)
        | 8 => s.rd b TONG_SR_CNT == 0
        | 9 => s.on b TONG_LASTF
        | 10 => decide (0 < txLevel (s.lisOf (tongPort n)))
        | 11 => stb
        | 12 => !stb
        | _ => !s.rxRoom (tongPort n) 1
      if !s.tongInside n (bits w 5 0) then s.tongFault n 2
      else if jump then s.tongNext n 0 (bits w 5 0) else s.tongStep n 0))

def execTongLoad (t : Nat) (engine : Nat) (s : State) : Host.Outcome State Fault Refusal :=
  let n := engine % 16
  s.happen t (·.tongExec n 3 (fun s w _ =>
    let r := tongW (bits w 27 26)
    let imm := bits w 15 0
    let v := if w.testBit 25 then imm * 65536 + s.rd (pgTONG n) r % 65536 else imm
    (s.wr (pgTONG n) r v).tongStep n 3))

/-- The result of an ALU operation on 32 bits (R302). -/
def tongAluOp (op a b : Nat) : Nat :=
  match op with
  | 0 => b
  | 1 => (a + b) % 2 ^ 32
  | 2 => (a + (2 ^ 32 - b)) % 2 ^ 32
  | 3 => a &&& b
  | 4 => a ||| b
  | 5 => Nat.xor a b
  | 6 => a * 2 ^ (b % 32) % 2 ^ 32
  | _ => a / 2 ^ (b % 32)

def execTongAlu (t : Nat) (engine : Nat) (s : State) : Host.Outcome State Fault Refusal :=
  let n := engine % 16
  let b := pgTONG n
  s.happen t (·.tongExec n 4 (fun s w _ =>
    let opnd := if w.testBit 20 then bits w 7 0 else s.rd b (tongW (bits w 22 21))
    let r := tongAluOp (bits w 27 25) (s.rd b (tongW (bits w 24 23))) opnd
    (if w.testBit 19 then s.wr b TONG_ST (r % 256) else s.wr b (tongW (bits w 24 23)) r).tongStep n 4))

def execTongTimer (t : Nat) (engine : Nat) (s : State) : Host.Outcome State Fault Refusal :=
  let n := engine % 16
  s.happen t (·.tongExec n 5 (fun s w _ =>
    let v := if w.testBit 27 then s.rd (pgTONG n) (tongW (bits w 25 24)) else bits w 23 0
    (s.setEng n { s.eng n with tmr := v, tmrK := s.tongIdx n + 1 }).tongStep n 5))

def execTongFlag (t : Nat) (engine : Nat) (s : State) : Host.Outcome State Fault Refusal :=
  let n := engine % 16
  s.happen t (·.tongExec n 10 (fun s w _ =>
    let fl := s.rd (pgTONG 0) TONG_FLAGS
    let i := 2 ^ bits w 3 0
    (match bits w 27 26 with
    | 0 => s.wr (pgTONG 0) TONG_FLAGS (fl ||| i)
    | 1 => s.wr (pgTONG 0) TONG_FLAGS (fl &&& (65535 - i))
    | _ => (s.wr (pgTONG n) TONG_HOST_CODE (bits w 7 0)).raise (0x60 + n) 1).tongStep n 10))

/-- Byte `i` of an engine's lookup table. -/
def State.tongLut (s : State) (n i : Nat) : Nat := s.rd (pgTONG n) (TONG_LUT.at (i / 4) 4) / 2 ^ (8 * (i % 4)) % 256

def execTongLut (t : Nat) (engine : Nat) (lines : BitVec 64) (s : State) : Host.Outcome State Fault Refusal :=
  s.happen t (fun s =>
    let n := engine % 16
    let b := pgTONG n
    { s with tong := { s.tong with lines := lines.toNat } }.tongExec n 9 (fun s w h =>
      let r := tongW (bits w 25 24)
      let k := min 4 (s.rd b TONG_PIN_CNT)
      let l := if w.testBit 23 then ((List.range k).map (fun i => (s.lineIn (s.winLine n i)).toNat * 2 ^ i)).sum
        else s.rd b r % 16
      let v := s.tongLut n (s.rd b TONG_ST % 16 * 16 + l)
      let s := s.when (w.testBit 26) (fun s => s.wr b TONG_ST (s.rd b TONG_ST / 16 * 16 + v / 16))
      let s := s.when (w.testBit 27) (fun s => s.each (List.range k) (fun s i => s.pinLevel n (s.winLine n i) (v.testBit i) h))
      (s.when (w.testBit 22) (·.wr b r v)).tongStep n 9))

/-! ### PINS -/

/-- Set the stamp mark; marks made while a candidate is open are ignored (R309). -/
def State.tongMark (s : State) (n h : Nat) : State :=
  if (s.rxOf (tongPort n)).openC.isSome then s
  else s.setEng n { s.eng n with mark := some (h, s.rd pgTIME TIME_SEL_DOM) }

def execTongPins (t : Nat) (engine : Nat) (s : State) : Host.Outcome State Fault Refusal :=
  let n := engine % 16
  let b := pgTONG n
  s.happen t (·.tongExec n 2 (fun s w h =>
    let cnt := s.rd b TONG_PIN_CNT
    let all := w.testBit 26
    let v := if all then s.rd b (tongW (bits w 25 24)) else bits w 7 0
    let is := if all then List.range cnt else (List.range (min 8 cnt)).filter (fun i => (bits w 15 8).testBit i)
    let s := s.each is (fun s i =>
      if w.testBit 27 then s.pinDir n (s.winLine n i) (v.testBit i) h else s.pinLevel n (s.winLine n i) (v.testBit i) h)
    (s.when (w.testBit 16) (·.tongMark n h)).tongStep n 2))

/-! ### AWAIT (R310, R311) -/

/-- The condition of an AWAIT but for a line edge. -/
def State.awaitHolds (s : State) (n w : Nat) : Bool :=
  let i := bits w 5 0
  let pol := w.testBit 24
  match bits w 27 25 with
  | 0 => s.lineIn i == pol
  | 2 => (tabGet? (s.eng n).latch i).isSome
  | 3 => (s.rd (pgTONG 0) TONG_FLAGS).testBit (i % 16) == pol
  | 4 => s.tongTmr n == 0
  | _ => false

/-- An AWAIT completes: a slot's latch bit is consumed, its F kept with FINE; `edge` is the instant of H at which an
awaited edge passed the filter. -/
def State.awaitEnd (s : State) (n w : Nat) (edge : Option Nat) : State :=
  let s := s.tongSettle n
  let e := s.eng n
  let i := bits w 5 0
  let s := if bits w 27 25 = 2 then
      s.setEng n { e with latch := tabDel e.latch i, fine := if w.testBit 22 then tabGet? e.latch i else none }
    else s
  let s := match edge with
    | some h => s.when (w.testBit 23) (·.tongMark n (h - coreU (s.rd (pgTONG 0) (lnF TONG_LN_FILT i) + 2)))
    | none => s
  s.tongStep n 1

/-- AWAIT: its first engine clock. -/
def execTongAwait (t : Nat) (engine : Nat) (lines : BitVec 64) (s : State) : Host.Outcome State Fault Refusal :=
  s.happen t (fun s =>
    let n := engine % 16
    { s with tong := { s.tong with lines := lines.toNat } }.tongExec n 1 (fun s w _ =>
      if s.awaitHolds n w then s.awaitEnd n w none
      else (s.setEng n { s.eng n with waitH := s.time.h, stallK := s.tongIdx n }).wr (pgTONG n) TONG_STALL 1))

/-- AWAIT_DONE: the condition holds at the start of an engine clock. For a line edge the command is the transition to
POL on the line, `ago` the time since it passed the filter: it counts when that lies within the AWAIT. -/
def execTongAwaitDone (t : Nat) (engine : Nat) (lines : BitVec 64) (ago : Nat) (s : State) : Host.Outcome State Fault Refusal :=
  s.happen t (fun s =>
    let n := engine % 16
    let s : State := { s with tong := { s.tong with lines := lines.toNat } }
    let w := s.tongWord n
    if !s.tongLive n || s.rd (pgTONG n) TONG_STALL != 1 then s
      else if bits w 27 25 = 1 then
        if (s.eng n).waitH + ago ≤ s.time.h then s.awaitEnd n w (some (s.time.h - ago)) else s
      else if s.awaitHolds n w then s.awaitEnd n w none else s)

/-! ### SHIFT -/

/-- One engine clock of a SHIFT on lines: `phase` counts those done. The even clocks begin a bit cycle. -/
def State.shiftLines (s : State) (n w h : Nat) : State :=
  let b := pgTONG n
  let ph := (s.eng n).phase
  let cnt := if bits w 5 0 = 0 then 64 else bits w 5 0
  let lead := w.testBit 25
  let msb := w.testBit 24
  let s := if ph % 2 = 0 then
      let s := if w.testBit 22 then
          let r := s.srRemove n msb
          if w.testBit 23 && s.rd b TONG_SCLK_LINE == s.rd b TONG_SDO_LINE then r.2
          else r.2.pinLevel n (s.rd b TONG_SDO_LINE) r.1 h
        else s
      s.when (w.testBit 23) (fun s => s.pinLevel n (s.rd b TONG_SCLK_LINE) lead h)
    else
      let s := s.when (w.testBit 23) (fun s => s.pinLevel n (s.rd b TONG_SCLK_LINE) (!lead) h)
      let sdi := s.rd b TONG_SDI_LINE
      s.when (w.testBit 21) (fun s => s.srAppend n msb ⟨s.lineIn sdi, s.time.h,
        some (s.time.h - coreU (s.rd (pgTONG 0) (lnF TONG_LN_FILT sdi) + 3))⟩)
  let s := s.setEng n { s.eng n with phase := ph + 1 }
  if ph + 1 = 2 * cnt then ((s.setEng n { s.eng n with phase := 0 }).wr b TONG_SHIFTING 0).tongStep n 6
  else s.wr b TONG_SHIFTING 1

/-- SHIFT: in MODE 0 one engine clock of it, with the filtered levels in the core clock before; in MODE 1 and 2 the whole
instruction. -/
def execTongShift (t : Nat) (engine : Nat) (lines : BitVec 64) (s : State) : Host.Outcome State Fault Refusal :=
  s.happen t (fun s =>
    let n := engine % 16
    { s with tong := { s.tong with lines := lines.toNat } }.tongExec n 6 (fun s w h =>
      let r := tongW (bits w 19 18)
      let cnt := bits w 5 0
      match bits w 27 26 with
      | 0 => s.shiftLines n w h
      | 1 => (s.srLoad n (w.testBit 24) cnt (s.rd (pgTONG n) r)).tongStep n 6
      | _ =>
        let x := s.srTake n (w.testBit 24) cnt
        (x.2.wr (pgTONG n) r x.1).tongStep n 6))

/-! ### FETCH and STORE (R304, R307, R308) -/

/-- Take the next transmit word, if there is one: the word, and whether it carries LAST. -/
def State.tongTake (s : State) (n : Nat) : Option (Nat × Bool × State) :=
  let p := tongPort n
  let l := s.lisOf p
  match l.tx with
  | [] => none
  | k :: _ =>
    let last := decide (k.words ≤ l.txp + 1)
    let s' := if last then s.txPop p else s.setTx p { l with txp := l.txp + 1 }
    some (leAt k.body (4 * l.txp) 4, last, s'.inc (pgTONG n) TONG_C_TX_WORDS)

/-- A FETCH with a word at hand. -/
def State.fetchWord (s : State) (n w v : Nat) (last : Bool) : State :=
  let b := pgTONG n
  let s := (s.setEng n { s.eng n with fetched := true }).wrB b TONG_LASTF last
  (if w.testBit 26 then s.srLoad n (w.testBit 23) 32 v else s.wr b (tongW (bits w 25 24)) v).tongStep n 7

/-- A FETCH in an engine clock: completes, stalls, or changes nothing. -/
def State.tongFetch (s : State) (n w : Nat) : State :=
  match s.tongTake n with
  | some (v, last, s') => (s'.tongSettle n).fetchWord n w v last
  | none =>
    if s.tongStalled n then s
    else if w.testBit 27 then (s.setEng n { s.eng n with stallK := s.tongIdx n }).wr (pgTONG n) TONG_STALL 3
    else s.tongStep n 7

def execTongFetch (t : Nat) (engine : Nat) (s : State) : Host.Outcome State Fault Refusal :=
  let n := engine % 16
  s.happen t (·.tongExec n 7 (fun s w _ => s.tongFetch n w))

/-- The word a STORE writes, with the instant that dates it (R309): the start of its engine clock, or the sample of the
last bit it writes. A STORE from SR empties SR. -/
def State.storeWord (s : State) (n w : Nat) : Nat × Nat × State :=
  if w.testBit 26 then
    let l := (s.eng n).sr
    let at_ := ((srLast l).bind (·.smp)).getD s.time.h
    (srWord l, at_, (s.setSr n []).add (pgTONG n) TONG_C_BITS_LOST (l.length - 32))
  else (s.rd (pgTONG n) (tongW (bits w 25 24)), s.time.h, s)

/-- The candidate of an engine (R308, R309). -/
def State.tongCand (s : State) (n : Nat) (o : OpenCand) (fin finDom : Nat) : Cand :=
  { id := 0, port := tongPort n, src := .tongs, remote := false, body := o.bytes, cfg := o.cfg, first := o.first
    sent := o.sent, fin := fin, ingest := s.time.h, born := s.time.clk, timeOk := true
    dom := match (s.eng n).candMark with | some m => m.2 | none => domAt o.cfg o finDom
    path256 := 0, words := o.bytes.length / 4, poison := false, leaf := 0, iseq := 0, host := [] }

/-- A word into the receive FIFO, opening a candidate if none is open; END commits it. -/
def State.storePut (s : State) (n v at_ : Nat) (fin : Bool) : State :=
  let p := tongPort n
  let r := s.rxOf p
  let dom := s.rd pgTIME TIME_SEL_DOM
  let x : OpenCand × State := match r.openC with
    | some o => (o, s)
    | none =>
      let e := s.eng n
      let c := match e.mark with | some m => m | none => (at_, dom)
      (⟨[], s.portCfg p, c.1, c.2, c.1, c.2⟩, s.setEng n { e with mark := none, candMark := e.mark })
  let s := ((x.2.inc (pgTONG n) TONG_C_RX_WORDS).icAdd p icBYTES 4)
  let o : OpenCand := { x.1 with bytes := x.1.bytes ++ leBytes 4 v }
  if 4 * 511 ≤ o.bytes.length then
    let s := (s.setRx p r.rewound).icInc p icREFUSED_SIZE
    s.setEng n { s.eng n with skip := !fin, candMark := none }
  else
    let s := s.setRx p { r with wp := r.wp + 1, openC := some o }
    if fin then
      let f := match (s.eng n).candMark with | some m => m.1 | none => at_
      let s := (s.commitCand (s.tongCand n o f dom)).inc (pgTONG n) TONG_C_CANDS
      s.setEng n { s.eng n with candMark := none }
    else s

/-- A STORE in an engine clock. A port whose RX_EN is 0 stores nothing. -/
def State.tongStore (s : State) (n w : Nat) : State :=
  let p := tongPort n
  let fin := w.testBit 23
  let skip := (s.eng n).skip
  if skip || !s.on (ingestAt p) INGEST_RX_EN then
    let s := (s.tongSettle n).storeWord n w |>.2.2
    (s.setEng n { s.eng n with skip := skip && !fin }).tongStep n 8
  else if s.rxRoom p 1 then
    let x := (s.tongSettle n).storeWord n w
    (x.2.2.storePut n x.1 x.2.1 fin).tongStep n 8
  else if w.testBit 27 then
    if s.tongStalled n then s
    else (s.setEng n { s.eng n with stallK := s.tongIdx n }).wr (pgTONG n) TONG_STALL 2
  else
    let s := (s.storeWord n w).2.2
    let r := s.rxOf p
    let s := (s.setRx p r.rewound).wr (fifoAt p) FIFO_RX_OVERRUN 1
    let s := (s.inc (pgTONG n) TONG_C_RX_OVERRUN).raise (0x60 + n) 2
    (s.setEng n { s.eng n with skip := !fin, candMark := none }).tongStep n 8

def execTongStore (t : Nat) (engine : Nat) (s : State) : Host.Outcome State Fault Refusal :=
  let n := engine % 16
  s.happen t (·.tongExec n 8 (fun s w _ => s.tongStore n w))

/-- STALL_END: a stalled FETCH or STORE looks at its FIFO again. -/
def execStallEnd (t : Nat) (engine : Nat) (s : State) : Host.Outcome State Fault Refusal :=
  s.happen t (fun s =>
    let n := engine % 16
    let w := s.tongWord n
    if !s.tongLive n then s
      else match s.rd (pgTONG n) TONG_STALL with
      | 3 => s.tongFetch n w
      | 2 => s.tongStore n w
      | _ => s)

/-! ### Starting and stopping -/

/-- ENGINE_ENABLE: a write of PG_CTRL that sets ENABLE. -/
def execEngineEnable (t : Nat) (engine : Nat) (s : State) : Host.Outcome State Fault Refusal :=
  let n := engine % 16
  s.happen t (·.ctrlGuard (0x60 + n) false (·.tongEnable n))

/-- ENGINE_DISABLE: a write of PG_CTRL that clears ENABLE. -/
def execEngineDisable (t : Nat) (engine : Nat) (s : State) : Host.Outcome State Fault Refusal :=
  let n := engine % 16
  s.happen t (·.ctrlGuard (0x60 + n) false (·.tongDisable n))

def execGrpEnSet (t : Nat) (mask : BitVec 16) (s : State) : Host.Outcome State Fault Refusal :=
  s.happen t (·.blkGuard 0x60 false (·.tongGrpSet mask.toNat))

def execGrpEnClr (t : Nat) (mask : BitVec 16) (s : State) : Host.Outcome State Fault Refusal :=
  s.happen t (·.blkGuard 0x60 false (·.tongGrpClr mask.toNat))

def execGrpClkrst (t : Nat) (mask : BitVec 16) (s : State) : Host.Outcome State Fault Refusal :=
  s.happen t (·.blkGuard 0x60 false (·.tongGrpClkrst mask.toNat))

/-! ### Changing programs (R317, R318) -/

/-- TONG_SHADOW_SWAP: the banks change places; engines that run wait for a boundary, the others move at once. -/
def execTongShadowSwap (t : Nat) (s : State) : Host.Outcome State Fault Refusal :=
  s.happen t (·.ctrlGuard 0x70 false (fun s =>
    if s.on pgTONGS PG_SHADOW_SWAP then s
    else
      let s := s.each (List.range 64) (fun s a =>
        let lv := s.rd pgTONGS (TONGS_LIVE.at a 4)
        let sh := s.rd pgTONGS (TONGS_SHADOW.at a 4)
        (s.wr pgTONGS (TONGS_LIVE.at a 4) sh).wr pgTONGS (TONGS_SHADOW.at a 4) lv)
      let s := (s.wr pgTONGS PG_SHADOW_SWAP 1).wr pgTONGS TONGS_LIVE_BANK (1 - s.rd pgTONGS TONGS_LIVE_BANK)
      let runs (n : Nat) : Bool := s.on (pgTONG n) PG_ENABLE && !s.on (pgTONG n) TONG_HELD && s.rd (pgTONG n) TONG_FAULT == 0
      let s := s.wr pgTONGS TONGS_WAITING (((List.range 16).filter runs).map (2 ^ ·)).sum
      let s : State := { s with tong := { s.tong with swapAt := s.time.clk } }
      let s := s.each ((List.range 16).filter (fun n => !runs n)) (fun s n =>
        let s := s.tongMove n
        s.when (s.on (pgTONG n) TONG_HELD) (fun s => s.wr (pgTONG n) TONG_PC (s.rd (pgTONG n) TONG_ENTRY)))
      s.tongSwapEnd))

/-- An engine moves to the live bank and goes on at its new ENTRY. -/
def State.bankMove (s : State) (n : Nat) : State :=
  let s := (s.tongSettle n).tongMove n
  let s := s.when (s.tongStalled n) (·.wr (pgTONG n) TONG_STALL 0)
  (s.wr (pgTONG n) TONG_PC (s.rd (pgTONG n) TONG_ENTRY)).tongUnwait n

/-- ENGINE_BANK_MOVE: an engine that waits is at a boundary; a frozen one stays where it is. -/
def execEngineBankMove (t : Nat) (engine : Nat) (s : State) : Host.Outcome State Fault Refusal :=
  s.happen t (fun s =>
    let n := engine % 16
    if s.tongWaits n && s.tongBoundary n && decide (s.rd (pgTONG n) TONG_STALL < 4) then s.bankMove n else s)

/-- A forced move (R318). -/
def State.forceMove (s : State) (n : Nat) : State :=
  let s := ((s.tongSettle n).tongDiscard n).inc (pgTONG n) TONG_C_FORCED_SWAPS
  ((s.raise (0x60 + n) 3).inc pgTONGS TONGS_C_FORCED).bankMove n

/-- Every engine that still waits is forced. -/
def State.forceAll (s : State) : State := s.each ((List.range 16).filter s.tongWaits) State.forceMove

def execSwapTimeout (t : Nat) (s : State) : Host.Outcome State Fault Refusal :=
  s.happen t (fun s =>
    let us := s.rd pgTONGS TONGS_SWAP_TO_US
    if s.on pgTONGS PG_SHADOW_SWAP && s.on pgTONGS TONGS_AUTO_FORCE && us != 0
        && decide (s.tong.swapAt + us * usU ≤ s.time.clk) then s.forceAll else s)

def execTongForce (t : Nat) (s : State) : Host.Outcome State Fault Refusal :=
  s.happen t (·.blkGuard 0x70 false State.forceAll)

end Sys2Proof.Machine
end

