-- ==== Sys2Proof/Machine/TwinLog.lean ====
section
/-! DEFINITION. Machine/TwinLog.lean: the standby's side of the admission log (R88, R105, R144, R248 to R252): LOG and BULK
frames, the records applied in LPOS order, and fetches of missing items (R251, R261). -/

namespace Sys2Proof.Machine

/-! ### Receiving numbered frames on the Ngato lanes (R197, R243) -/

/-- An ACK or NAK of the highest LSEQ received in order. -/
def State.lanesAck (s : State) (ft : Nat) : State := s.sendLanes ft (((s.hop 4).rxSeq + 65535) % 65536) (leBytes 8 0)

/-- A NAK, unless one stands for less than 2 × the replay time (R197). -/
def State.lanesNak (s : State) : State :=
  let h := s.hop 4
  if h.nakAt.any (fun t => decide (s.time.clk < t + 2 * s.replayUs 4 * usU)) then s
  else (s.setHop 4 { h with nakAt := some s.time.clk }).lanesAck ftNAK

/-- A numbered frame on a lane that is UP: in order it acts as `f`; a second copy is discarded uncounted. -/
def State.lanesIn (s : State) (lane lseq : Nat) (good : Bool) (f : State → State) : State :=
  if !s.laneUp lane then s
  else if !good then s.lanesNak
  else
    let h := s.hop 4
    let d := (lseq % 65536 + 65536 - h.rxSeq) % 65536
    if d = 0 then f ((s.setHop 4 { h with rxSeq := (h.rxSeq + 1) % 65536, nakAt := none }).lanesAck ftACK)
    else if d < 32768 then s.lanesNak
    else s.lanesAck ftACK

/-! ### The standby's own copy of an item -/

/-- The candidate that an ITEM_IN copy of a leaf gave, with what an anvil finds in it: held by an anvil, or still in its
port's FIFO. -/
def State.ownCopy (s : State) (leaf iseq : Nat) : Option (Built × State) :=
  let hit (c : Cand) : Bool := decide (64 ≤ c.port) && c.leaf == leaf && c.iseq == iseq
  match s.anvils.find? (fun e => hit e.2.cand) with
  | some e => some (e.2, s)
  | none =>
    let a := ((List.range 16).find? (fun a => (tabGet? s.anvils a).isNone)).getD 0
    (s.rx.findSome? (fun e => e.2.cands.find? hit)).map (fun c => s.examine a c)

/-- The source of a candidate by the KIND of the item built from it (R53). -/
def kindSrc (kind : Nat) : CandSrc :=
  match kind with | 3 => .datagram | 4 => .can | 5 => .pgn | 6 => .tongs | 7 => .axis | _ => .sentence

/-- An item that came in the log or by BULK, as the candidate it was built from. It holds no FIFO words. -/
def State.candOf (s : State) (i : Item) (leaf iseq : Nat) : Cand :=
  { id := s.candNo, port := i.port, src := kindSrc i.kind, remote := decide (64 ≤ i.port), body := i.body, cfg := s.portCfg i.port
    first := i.stamp * nsU, sent := i.stamp * nsU, fin := i.stamp * nsU, ingest := s.time.h, born := s.time.clk, timeOk := true
    dom := i.dom, path256 := 0, words := 0, poison := i.poison, leaf := leaf, iseq := iseq, host := [] }

/-- Such an item evaluated by the standby: a host submission is only looked up (R67). -/
def State.copyBuilt (s : State) (i : Item) (leaf iseq : Nat) : Built × State :=
  let c := s.candOf i leaf iseq
  let x := if i.port = 59 then s.lookCand ⟨c, i.kind, i.stamp, i.dom, false, none, none, none, s.tblGen, s.time.clk⟩ else s.examine 0 c
  ({ x.1 with stamp := i.stamp, dom := i.dom }, x.2)

/-- The standby's own evaluation changes no quarantine: CTRL records carry them (R88). -/
def State.keepQuar (s old : State) (f p : Nat) : State :=
  let s := s.each [PQUAR_V, PQUAR_NS, PQUAR_S] (fun s x => s.wr (pquarAt p) x (old.rd (pquarAt p) x))
  s.each [FSTATE_QUAR, FSTATE_QEND_NS, FSTATE_QEND_S] (fun s x => s.wr (fstateAt f) x (old.rd (fstateAt f) x))

/-- The standby's own fate for a candidate, looked up again if the tables have changed since (R87). -/
def State.ownFate (s : State) (b : Built) : Fate × State :=
  let x := s.relook b
  let y := x.2.fateOf x.1
  (y.2, y.1.keepQuar x.2 (x.1.flow.getD 0) x.1.cand.port)

/-- The flow that an own fate admits to, with what it then writes; on another flow than the record's, a disagreement that
changes nothing (R88). -/
def State.agree (s : State) (fate : Fate) (f : Nat) : (Bool × List (RuleRec × Nat)) × State :=
  match fate with
  | .accept g own adm => if g = f then ((own, adm), s) else ((false, []), s.inc pgFLOW FLOW_C_TWIN_DISAGREE)
  | .refuse _ => ((false, []), s.inc pgFLOW FLOW_C_TWIN_DISAGREE)

/-! ### Admissions and refusals -/

/-- The next SEQ of a flow (R22). -/
def State.nextSeq (s : State) (f : Nat) : Nat := s.rd (fstateAt f) FSTATE_NEXT_SEQ

/-- Admit the standby's own copy `b` under a record: the record's flow and stamp prevail, and a header that differs is
counted (R61, R249). -/
def State.followCopy (s : State) (b : Built) (hc f h : Nat) (stx : Option (Nat × Nat)) : State :=
  let b := match stx with | some (dom, st) => { b with dom := dom, stamp := st } | none => b
  let x := s.ownFate b
  let y := x.2.agree x.1 f
  let s := y.2.dropCand b.cand
  let i := { s.itemFor b f with seq := s.nextSeq f }
  let s := s.when ((hchk i).toNat != hc) (·.inc pgTWIN TWIN_C_HDR_MISMATCH)
  let z := s.admitAt i (.ref b.cand.leaf b.cand.iseq stx.isSome) h b.cand.born none
  z.2.afterAdmit z.1 y.1.1 y.1.2

/-- Admit an item that came whole: the log's SEQ prevails. Consensus and status items touch no flow state (R84). -/
def State.followItem (s : State) (i : Item) (r : AdmRec) (h leaf iseq : Nat) : State :=
  let take (s : State) : Item × State := (s.wr (fstateAt i.flow) FSTATE_NEXT_SEQ i.seq).admitAt i r h s.time.clk none
  if i.consensus || i.port == 58 then (take s).2
  else
    let b := s.copyBuilt i leaf iseq
    let x := b.2.ownFate b.1
    let y := x.2.agree x.1 i.flow
    let z := take y.2
    z.2.afterAdmit z.1 y.1.1 y.1.2

/-- An ADMIT_COPY discards the oldest held candidate of the same local port with an equal body CRC-32 (R252). -/
def State.matchLocal (s : State) (i : Item) : State :=
  if 58 ≤ i.port then s
  else match (s.rxOf i.port).cands.find? (fun c => crc32 c.body == crc32 i.body) with
  | some c => { s.dropCand c with twin := { s.twin with matched := tabPut s.twin.matched i.port c.id } }
  | none => s

/-- A REFUSE record: the standby's copy is given up. Its evaluation writes what is written at every evaluation (R83). -/
def State.followRefuse (s : State) (leaf iseq : Nat) : State :=
  match s.ownCopy leaf iseq with
  | some (b, s) =>
    let x := s.ownFate b
    let s := match x.1 with | .accept _ _ _ => x.2.inc pgFLOW FLOW_C_TWIN_DISAGREE | .refuse _ => x.2
    s.dropCand b.cand
  | none => s

/-! ### Delivery records (R144) -/

/-- The reference of an item in a queue. -/
def State.refIn (s : State) (q h : Nat) : Option Ref := (s.queueOf q).find? (fun r => r.stat.isNone && r.handle == h)

/-- RESOLVE: a reference that the standby does not hold is ignored (R261). A release is kept book of as on the active hub. -/
def State.followResolve (s : State) (code q h : Nat) : State :=
  match s.refIn q h, s.item? h with
  | some r, some li =>
    let p := q / 8
    if code ≤ 1 then
      let e := s.egressBody p li.item
      s.settleSent q r li.item e code (s.wireLen p li.item e)
    else
      let s := s.when (code == codeSIZE && !s.kindOk p li.item.kind) (·.inc pgBELL BELL_C_KIND_REFUSED)
      s.resolve q r code 0 true
  | _, _ => s

/-- The place behind a reference, or the head of the queue. -/
def placeAfter (l : List Ref) (after : Nat) : Nat :=
  if after = 0x3FFFF then 0
  else match l.findIdx? (fun r => r.stat.isNone && r.handle == after) with | some k => k + 1 | none => l.length

/-- PLACE: a reference moves behind another. -/
def State.followPlace (s : State) (q h after : Nat) : State :=
  match s.refIn q h with
  | some r =>
    let l := (s.queueOf q).filter (fun x => x.no != r.no)
    let k := placeAfter l after
    s.setQueue q (l.take k ++ r :: l.drop k)
  | none => s

/-- The queued status sentence of a flow at a port, with its queue. -/
def State.statRef (s : State) (p flow : Nat) : Option (Nat × Ref) :=
  (List.range 8).findSome? (fun c =>
    ((s.queueOf (8 * p + c)).find? (fun r => match r.stat with | some (_, k) => k.flow.getD 0xFFFF == flow | none => false)).map
      (fun r => (8 * p + c, r)))

/-- TIMER: holds that have ended, a status boundary, and a status sentence released or dropped. -/
def State.followTimer (s : State) (kind p arg : Nat) : State :=
  match kind with
  | 0 => { s with del := { s.del with holds := s.del.holds.filter (fun h => !(h.1 == p && decide (h.2.2 ≤ s.time.h))) } }.mirrorKeys
  | 1 => s.boundary p (secOf s.time.h / 2 ^ 32 * 2 ^ 32 + arg)
  | _ =>
    match s.statRef p arg with
    | some (q, r) =>
      match (if kind = 2 then s.refItem r else none) with
      | some i => let e := s.egressBody p i
        s.settleSent q r i e codeSENT (s.wireLen p i e)
      | none => s.resolve q r codeFULL 0 true
    | none => s

/-- QCOPY: a reference of before P0, with its item where the joiner lacks it (R261). -/
def State.followQcopy (s : State) (q h after : Nat) (i : Option Item) : State :=
  let s := match i, s.item? h with
    | some i, none =>
      let li : LItem := { item := i, loc := .larder, no := s.del.admNo, lpos := 0, born := s.time.clk, leaf := 0, iseq := 0
                          jrnl := true, replay := false, wb := none }
      ({ s with del := { s.del with admNo := s.del.admNo + 1 } }.putItem h li).takeCells (itemCells i)
    | _, _ => s
  match s.item? h with
  | some li =>
    let rs := s.mkRef h li.item
    let pol := s.rd pgBELL (BELL_POLICY.at (q % 8) 4)
    let r := { rs.1 with tracked := (rs.1.mode == 2 || pol == 1) && s.canTrack q rs.1.ckey }
    rs.2.enqAt q r (placeAfter (s.queueOf q) after)
  | none => s

/-! ### Concord records (R105) -/

/-- DECIDE: the record is followed; an own decision that rests on no expiry and differs is counted. -/
def State.followDecide (s : State) (out g sel : Nat) : State :=
  match s.roundOf g with
  | none => s
  | some r =>
    let gr := s.liveGroup g
    let own := s.choose gr r
    let same := (own.1 == out || (own.1 == ocEMITTED && out == ocLOST)) && ((own.2.map (·.mem)).getD 0xFF == sel)
    let s := s.when (r.outcome.isNone && s.decidable gr r && !same) (·.inc pgCONC CONC_C_C_DISAGREE)
    let s := if out = ocNO_QUORUM then s.inc (groupCtrAt g) (ctr 2)
      else if out = ocDISAGREE then s.inc (groupCtrAt g) (ctr 3)
      else if out = ocEMITTED then s.inc (groupCtrAt g) (ctr 1)
      else if out = ocLOST then s.inc pgCONC CONC_C_OUT_LOST else s
    s.setRound g (some { r with outcome := some out, sel := if sel = 0xFF then none else some sel
                                outSeq := if out = ocEMITTED then s.nextSeq gr.outFlow else 0 })

/-- CLOSE: the round ends, LIVE is the record's, and a contribution that forced it opens the next round. A close by a
commit follows the COMMIT records, which have set LIVE anew (R106). -/
def State.followClose (s : State) (cause g live : Nat) : State :=
  match s.roundOf g with
  | none => s
  | some r =>
    let gr := s.liveGroup g
    let s := s.when (cause == 2 && r.outcome.isNone) (·.inc (groupCtrAt g) (ctr 4))
    let s := s.closeRound gr (s.groupMembers g) r cause
    let s := s.when (cause != 3) (·.wr (gstateAt g) GSTATE_LIVE live)
    match r.nxt with | some (c, exp) => s.openRound gr c exp | none => s

/-- CTRL: quarantines and forced members. -/
def State.followCtrl (s : State) (kind i ns sec : Nat) : State :=
  match kind with
  | 0 => (s.quarStart false i (quarEndOf ns sec)).quarEntry i
  | 1 => s.quarStart true i (quarEndOf ns sec)
  | 2 => s.quarEnd false i
  | 3 => s.quarEnd true i
  | 4 => s.forceMember (i % 512) (i / 4096 % 4) false
  | 5 => s.forceMember (i % 512) (i / 4096 % 4) true
  | _ => s

/-! ### Commits and writes -/

/-- A group of COMMIT records, with their live words. -/
def State.followCommits (s : State) (l : List (Nat × Nat × List Nat)) : State :=
  let t := s.each l (fun s e => s.each e.2.2.zipIdx (fun s w => s.setWord (tblLv e.1 e.2.1) (tblRows e.1) (4 * w.2) w.1))
  (t.inc pgFLOW FLOW_C_COMMITS).commitEffect s (l.map (fun e => (e.1, e.2.1)))

/-- A write that the log carries meets none of the refusals of a host write of this hub: no lock, no reset, no refusal for
being in step (R10, R250). -/
def State.unguarded (s : State) (page : Nat) (f : State → State) : State :=
  let b := pgAt page
  let t := f (((s.wr pgTWIN TWIN_TSTATE 2).wr b PG_LOCK 0).wr b PG_IN_RESET 0)
  ((t.wr pgTWIN TWIN_TSTATE s.tstate).wr b PG_LOCK (s.rd b PG_LOCK)).wr b PG_IN_RESET (s.rd b PG_IN_RESET)

/-- A carried word of a page: PG_CTRL, the counter controls, CAP, the commit of an axis entry, or any other register. -/
def State.deltaPage (s : State) (a w : Nat) : State :=
  let p := a / 0x1000
  let off := a % 0x1000
  let bit (n : Nat) : Bool := w.testBit n
  let snap := (snapFld p).any (fun f => f.off == off && (bit f.lo || bit (f.lo + 1)))
  if off = 0x0C then
    let s := s.wrB (pgAt p) PG_ENABLE (bit 0)
    s.when (bit 1) (·.clearHeader p)
  else if snap then
    s.unguarded p (fun s => match snapFld p with | some f => s.pageCtrs p (bit f.lo) (bit (f.lo + 1)) | none => s)
  else if p = 0x80 ∧ off = 0x160 then s.unguarded p (·.ingestCtrs (w % 2048) (bit 18) (bit 16) (bit 17))
  else if (p = 0x90 ∨ p = 0x91) ∧ off = 0x50 then s.unguarded p (·.flowCtrs (p == 0x91) (w % 16384) (bit 18) (bit 16) (bit 17))
  else if p = 0x92 ∧ off = 0x50 then s.unguarded p (·.groupCtrs (w % 512) (bit 18) (bit 16) (bit 17))
  else if p = 0xA1 ∧ off = 0x6C then
    s.unguarded p (fun s => if bit 16 || bit 17 then s.queueCtrs (w % 16384) (bit 20) (bit 16) (bit 17)
      else s.dispCtrs (w % 16384) (bit 20) (bit 18) (bit 19))
  else if p = 7 ∧ off = AXIS_CAP.off then s.axisCap
  else match (List.range 14).find? (fun k => p == 7 && off == axBase (k + 2)) with
  | some k => s.axCommit (k + 2) w
  | none => (s.writeWord a w).getD s

/-- One word of a DELTA. -/
def State.deltaWord (s : State) (a w : Nat) : State :=
  if heldWord a then { s with held := tabPut s.held a w }
  else if a < 0x100000 then s.deltaPage a w
  else match shadowPlace a with
  | some (tb, i, off) => s.shadowPut tb i off w
  | none =>
    if inSpan a (ingestAt 0) 0x20 2048 then s.ingestWrite ((a - ingestAt 0) / 0x20) w
    else if inSpan a (lportAt 0) 0x40 2048 then s.lportCommit ((a - lportAt 0) / 0x40) w
    else if inSpan a (queueAt 0) 0x20 16384 then s.qlimWrite ((a - queueAt 0) / 0x20) w
    else if inSpan a (slotAt 0) 0x20 64 then s.slotWord a w
    else if inSpan a (portmapAt 0) 0x10 2048 then s.portMapSet ((a - portmapAt 0) / 0x10) w
    else (s.writeWord a w).getD s

/-- DELTA: at once, or with AT_H at the H it carries. -/
def State.followDelta (s : State) (off size data : Nat) (atH : Option Nat) : State :=
  match atH with
  | some h => { s with twin := { s.twin with atH := s.twin.atH ++ [(h, off, data % 2 ^ 32)] } }
  | none =>
    let s := if size = 8 then s.deltaWord (off + 4) (data / 2 ^ 32 % 2 ^ 32) else s
    s.deltaWord off (data % 2 ^ 32)

/-- MARK: IN_STEP ends resync, DRAINED tells that no reference of before P0 is left, HANDOVER makes the standby ACTIVE with
no item replayed (R261, R263). -/
def State.followMark (s : State) (kind : Nat) : State :=
  match kind with
  | 0 => if s.tstate = 2 then ((s.wr pgTWIN TWIN_TSTATE 3).inc pgTWIN TWIN_C_RESYNCS).raise 8 3 else s
  | 1 => { s with twin := { s.twin with drained := true } }
  | 2 => s.becomeActive 3 false false
  | _ => s

/-! ### Applying the log in LPOS order (R248) -/

/-- The record at the standby's position, with the instant it arrived. -/
def State.headRec (s : State) : Option (Nat × LogRec) :=
  (s.twin.store.find? (fun e => e.1 == s.rd pgTWIN TWIN_LPOS_TX)).map (·.2)

/-- The record `n` places behind the standby's position. -/
def State.recAt (s : State) (n : Nat) : Option LogRec :=
  (s.twin.store.find? (fun e => e.1 == s.rd pgTWIN TWIN_LPOS_TX + n)).map (·.2.2)

/-- The next `n` records are applied: the position moves behind them. -/
def State.passRecs (s : State) (n : Nat) : State :=
  let k := s.rd pgTWIN TWIN_LPOS_TX + n
  let s := s.wr pgTWIN TWIN_LPOS_TX k
  { s with twin := { s.twin with store := s.twin.store.filter (fun e => decide (k ≤ e.1)), fetch := none } }

/-- A group of COMMIT records from the standby's position to the one with LAST set, once it is complete; `n` bounds it. -/
def State.commitRun (s : State) (k : Nat) : Nat → Option (List (Nat × Nat × List Nat))
  | 0 => none
  | n + 1 =>
    match s.recAt k with
    | some (.commit tb i last ws) => if last then some [(tb, i, ws)] else (s.commitRun (k + 1) n).map ((tb, i, ws) :: ·)
    | _ => none

/-- An ADMIT with the STAMP_X that follows it where STX is set: the own copy or a fetched item is admitted; none while
either is lacking. -/
def State.followAdmit (s : State) (stx : Bool) (leaf hc iseq f h : Nat) : Option State :=
  let sx : Option (Option (Nat × Nat)) :=
    if stx then (match s.recAt 1 with | some (.stampX dom st) => some (some (dom, st)) | _ => none) else some none
  match sx with
  | none => none
  | some x =>
    let n := if stx then 2 else 1
    match s.ownCopy leaf iseq with
    | some (b, t) => some ((t.passRecs n).followCopy b hc f h x)
    | none =>
      (s.twin.fetched.find? (fun e => e.1 == leaf && e.2.1 == iseq)).map (fun e =>
        let s := { s with twin := { s.twin with fetched := s.twin.fetched.filter (fun y => !(y.1 == leaf && y.2.1 == iseq)) } }
        (s.passRecs n).followItem { e.2.2 with flow := f } (.ref leaf iseq stx) h leaf iseq)

/-- One record, or one group of commits, at the standby's position; none while it has to wait. A REFUSE waits no longer
than 100 µs for its copy. -/
def State.applyOne (s : State) : Option State :=
  match s.headRec with
  | none => none
  | some (at_, r) =>
    let go (f : State → State) : Option State := some (f (s.passRecs 1))
    match r with
    | .admission stx leaf hc iseq f h => s.followAdmit stx leaf hc iseq f h
    | .stampX _ _ => go id
    | .admitCopy h i => go (fun s => (s.matchLocal i).followItem i .copy h 0 0)
    | .refuse _ leaf iseq =>
      if leaf = 0 then go id
      else if (s.ownCopy leaf iseq).isNone && decide (s.time.clk < at_ + 100 * usU) then none
      else go (·.followRefuse leaf iseq)
    | .resolve c q h => go (·.followResolve c q h)
    | .place q h after => go (·.followPlace q h after)
    | .timer k p a => go (·.followTimer k p a)
    | .decide o g sel _ _ => go (·.followDecide o g sel)
    | .close c g l => go (·.followClose c g l)
    | .ctrl k i ns sec => go (·.followCtrl k i ns sec)
    | .commit _ _ _ _ => (s.commitRun 0 (s.twin.store.length + 1)).map (fun l => (s.passRecs l.length).followCommits l)
    | .delta off size d atH => go (·.followDelta off size d atH)
    | .mark k _ => go (·.followMark k)
    | .qcopy q h after i => go (·.followQcopy q h after i)
    | .unknown t => go (fun s => if t.testBit 7 then s else s.leaveStep)

/-- Apply what can be applied; `n` bounds the records. Nothing is applied before the snapshot is loaded (R261). -/
def State.applyN (s : State) : Nat → State
  | 0 => s
  | n + 1 =>
    if !s.follows || !s.twin.loaded then s
    else match s.applyOne with | some t => t.applyN n | none => s

/-- Apply the log, and tell the active hub of a position that has risen (R248). -/
def State.applyLog (s : State) : State :=
  let t := s.applyN s.twin.store.length
  if t.role = 1 ∧ s.rd pgTWIN TWIN_LPOS_TX < t.rd pgTWIN TWIN_LPOS_TX then
    t.sendLanes 0x13 0 (beBytes 8 (t.rd pgTWIN TWIN_LPOS_TX + 2 ^ 64 - 1))
  else t

/-! ### The commands -/

/-- The records of a LOG frame join the log store. -/
def State.takeRecs (s : State) (first : Nat) (recs : List LogRec) : State :=
  if !s.follows then s
  else
    let s := s.add pgTWIN TWIN_C_REC_RX recs.length
    let new := (recs.zipIdx.map (fun e => (first + e.2, s.time.clk, e.1))).filter (fun e =>
      decide (!s.twin.loaded ∨ s.rd pgTWIN TWIN_LPOS_TX ≤ e.1) && !s.twin.store.any (fun x => x.1 == e.1))
    ({ s with twin := { s.twin with store := s.twin.store ++ new } }).applyLog

/-- LOG_FRAME (R244, R249): a LOG frame on a Ngato lane. -/
def execLogFrame (t : Nat) (lane lseq : Nat) (good : Bool) (firstLpos : Nat) (recs : List LogRec) (s : State) :
    Host.Outcome State Fault Refusal :=
  s.happen t (·.lanesIn (lane % 2) lseq good (·.takeRecs (firstLpos % 2 ^ 64) recs))

/-- DISPATCH (R40, R64): see `State.dispatch`. A record of the log may have waited for the candidate just built. -/
def execDispatch (t : Nat) (anvil port : Nat) (s : State) : Host.Outcome State Fault Refusal :=
  s.happen t (fun s =>
    let s := s.dispatch (anvil % 16) (port % 2048)
    if s.follows then s.applyLog else s)

/-- FETCH_TIMEOUT (R251): an ADMIT has waited 100 µs for its ITEM_IN copy; the item is asked for once. A REFUSE that has
waited as long is passed over. -/
def State.fetchLate (s : State) : State :=
  if !s.follows || !s.twin.loaded then s
  else
    let s := s.applyLog
    match s.headRec with
    | some (at_, .admission _ leaf _ iseq _ _) =>
      let n := s.rd pgTWIN TWIN_LPOS_TX
      if s.follows && s.twin.fetch.isNone && decide (at_ + 100 * usU ≤ s.time.clk) && (s.ownCopy leaf iseq).isNone then
        { (s.inc pgTWIN TWIN_C_MISS_FETCH).sendLanes 0x14 0 (beBytes 4 leaf ++ beBytes 4 iseq ++ beBytes 8 n) with
          twin := { s.twin with fetch := some n } }
      else s
    | _ => s

def execFetchTimeout (t : Nat) (s : State) : Host.Outcome State Fault Refusal :=
  s.happen t (·.fetchLate)

/-- Is a field part of the snapshot (R261): a settable field that the log carries (R250), or flow, group, quarantine or
slot state, or a field of a live table? -/
def snapCell (k : Nat) : Bool :=
  let a := k / 32 * 4
  let whole := [(0x100000, 0x220000), (0x240000, 0x260000), (0x270000, 0x271800), (0x288000, 0x2B0000), (0x600000, 0x8C0000)]
  whole.any (fun r => decide (r.1 ≤ a ∧ a < r.2)) ||
    match placeOf a with
    | some p => p.carried && (!p.isPage || decide (0x40 ≤ p.off)) &&
        (rowsIn p.rows p.off).any (fun rf => (rf.1.acc == .rw || rf.1.acc == .rwa) && fldKey p.base rf.2 == k)
    | none => false

/-- The reset value of the field at a bit address. -/
def cellRst (k : Nat) : Nat :=
  match placeOf (k / 32 * 4) with
  | some p => match (rowsIn p.rows p.off).find? (fun rf => fldKey p.base rf.2 == k) with | some rf => rf.2.rst | none => 0
  | none => 0

/-- A snapshot begins: what it replaces is cleared, with every item and reference this hub still held. -/
def State.bulkStart (s : State) (p0 : Nat) : State :=
  let s := s.each s.del.queues (fun s e => s.setQueue e.1 [])
  let s := { s with del := { s.del with items := [], holds := [], ports := s.del.ports.map (fun (e : Nat × LisPort) => (e.1, { e.2 with led := LisPort.fresh.led })) } }
  let s := (s.setCells 0).mirrorKeys
  let s := { s with regs := s.regs.filter (fun c => !snapCell c.1), conc := { s.conc with rounds := [] }, listPend := [], mlistPend := [] }
  { s with twin := { s.twin with p0 := p0, loaded := false } }

/-- One part of a BULK frame. -/
def State.bulkPart (s : State) (b : BulkPart) : State :=
  match b with
  | .start p0 => if s.role = 1 ∧ s.tstate = 2 then s.bulkStart p0 else s
  | .cells l =>
    if s.role = 1 ∧ s.tstate = 2 ∧ !s.twin.loaded then
      { s with regs := (l.filter (fun c => snapCell c.1)).foldl (fun r c => regPut r c.1 c.2 (cellRst c.1)) s.regs } else s
  | .round g r => if s.role = 1 ∧ s.tstate = 2 ∧ !s.twin.loaded then s.setRound (g % 512) (some r) else s
  | .ledger p l => if s.role = 1 ∧ s.tstate = 2 ∧ !s.twin.loaded then s.setLed (p % 2048) (fun _ => l) else s
  | .hold p k e =>
    if s.role = 1 ∧ s.tstate = 2 ∧ !s.twin.loaded then
      { s with del := { s.del with holds := s.del.holds ++ [(p % 2048, k, e)] } }.mirrorKeys else s
  | .numbering era h =>
    if s.role = 1 ∧ s.tstate = 2 ∧ !s.twin.loaded then
      { s.wr pgRING RING_ERA era with del := { s.del with nextHandle := h % 2 ^ 18 } } else s
  | .finish =>
    if s.role = 1 ∧ s.tstate = 2 ∧ !s.twin.loaded then
      { s.wr pgTWIN TWIN_LPOS_TX s.twin.p0 with tblGen := s.tblGen + 1, twin := { s.twin with loaded := true } } else s
  | .item leaf iseq i => if s.follows then { s with twin := { s.twin with fetched := s.twin.fetched ++ [(leaf, iseq, i)] } } else s
  | .record (.qcopy q h after i) => if s.follows && s.twin.loaded then s.followQcopy q h after i else s
  | .record _ => s

/-- BULK_FRAME (R244, R251, R261): its parts are taken in order, then the log is applied as far as it goes. -/
def State.takeBulk (s : State) (parts : List BulkPart) : State :=
  let s := s.each parts State.bulkPart
  if s.follows then s.applyLog else s

def execBulkFrame (t : Nat) (lane lseq : Nat) (good : Bool) (parts : List BulkPart) (s : State) : Host.Outcome State Fault Refusal :=
  s.happen t (·.lanesIn (lane % 2) lseq good (·.takeBulk parts))

end Sys2Proof.Machine
end

