-- ==== Sys2Proof/Machine/Dispatch.lean ====
section
/-! DEFINITION. Machine/Dispatch.lean: one arm per command, each a direct call of its meaning. -/

namespace Sys2Proof.Machine

def exec (i : Instr) (s : State) : Host.Outcome State Fault Refusal :=
  match i with
  | .registerWrite t addr wide value => Sys2Proof.Machine.execRegisterWrite t addr wide value s
  | .pgStatErrorClear t page => Sys2Proof.Machine.execPgStatErrorClear t page s
  | .pgEvtClear t page word => Sys2Proof.Machine.execPgEvtClear t page word s
  | .pgEvtEnWrite t page word => Sys2Proof.Machine.execPgEvtEnWrite t page word s
  | .pageLock t page key => Sys2Proof.Machine.execPageLock t page key s
  | .pageUnlock t page key => Sys2Proof.Machine.execPageUnlock t page key s
  | .enableWrite t page on => Sys2Proof.Machine.execEnableWrite t page on s
  | .softReset t page sent stamp => Sys2Proof.Machine.execSoftReset t page sent stamp s
  | .softResetDone t page np late => Sys2Proof.Machine.execSoftResetDone t page np late s
  | .blockFreeze t page on => Sys2Proof.Machine.execBlockFreeze t page on s
  | .testMode t page on => Sys2Proof.Machine.execTestMode t page on s
  | .unsupportedAccess t addr => Sys2Proof.Machine.execUnsupportedAccess t addr s
  | .holeAccess t addr => Sys2Proof.Machine.execHoleAccess t addr s
  | .poisonedWrite t => Sys2Proof.Machine.execPoisonedWrite t s
  | .powerOn t => Sys2Proof.Machine.execPowerOn t s
  | .resetPin t => Sys2Proof.Machine.execResetPin t s
  | .supplyReset t => Sys2Proof.Machine.execSupplyReset t s
  | .devrstArm t value => Sys2Proof.Machine.execDevrstArm t value s
  | .devrstArmExpiry t => Sys2Proof.Machine.execDevrstArmExpiry t s
  | .deviceSrst t => Sys2Proof.Machine.execDeviceSrst t s
  | .resetRelease t first wipe hold => Sys2Proof.Machine.execResetRelease t first wipe hold s
  | .bootStageDone t hdrBad bodyBad => Sys2Proof.Machine.execBootStageDone t hdrBad bodyBad s
  | .bootGo t => Sys2Proof.Machine.execBootGo t s
  | .cellarChannelTrained t channel trained tested => Sys2Proof.Machine.execCellarChannelTrained t channel trained tested s
  | .cellarInitDone t => Sys2Proof.Machine.execCellarInitDone t s
  | .wipeArm t value => Sys2Proof.Machine.execWipeArm t value s
  | .wipeArmExpiry t => Sys2Proof.Machine.execWipeArmExpiry t s
  | .wipeGo t => Sys2Proof.Machine.execWipeGo t s
  | .commit t page => Sys2Proof.Machine.execCommit t page s
  | .commitTaken t => Sys2Proof.Machine.execCommitTaken t s
  | .commitWritten t => Sys2Proof.Machine.execCommitWritten t s
  | .sleep t value => Sys2Proof.Machine.execSleep t value s
  | .sleepPowerOff t => Sys2Proof.Machine.execSleepPowerOff t s
  | .wakeNInput t => Sys2Proof.Machine.execWakeNInput t s
  | .wakeTimer t => Sys2Proof.Machine.execWakeTimer t s
  | .wakePowerUp t => Sys2Proof.Machine.execWakePowerUp t s
  | .powerDown t mask => Sys2Proof.Machine.execPowerDown t mask s
  | .powerDownDone t domain => Sys2Proof.Machine.execPowerDownDone t domain s
  | .powerUp t mask => Sys2Proof.Machine.execPowerUp t mask s
  | .testGo t slot word => Sys2Proof.Machine.execTestGo t slot word s
  | .testStart t slot => Sys2Proof.Machine.execTestStart t slot s
  | .testCancel t slot checked errs => Sys2Proof.Machine.execTestCancel t slot checked errs s
  | .testAbort t slot checked errs => Sys2Proof.Machine.execTestAbort t slot checked errs s
  | .testDurationEnd t slot checked errs => Sys2Proof.Machine.execTestDurationEnd t slot checked errs s
  | .testAck t slot => Sys2Proof.Machine.execTestAck t slot s
  | .tfClr t => Sys2Proof.Machine.execTfClr t s
  | .larderScrubPass t errs => Sys2Proof.Machine.execLarderScrubPass t errs s
  | .hostInterfaceReset t => Sys2Proof.Machine.execHostInterfaceReset t s
  | .msixHoldoffEnd t vec => Sys2Proof.Machine.execMsixHoldoffEnd t vec s
  | .msixUnmask t vec => Sys2Proof.Machine.execMsixUnmask t vec s
  | .popRead t => Sys2Proof.Machine.execPopRead t s
  | .ringEnable t ring rx word => Sys2Proof.Machine.execRingEnable t ring rx word s
  | .txRingDoorbell t ring tail => Sys2Proof.Machine.execTxRingDoorbell t ring tail s
  | .rxRingDoorbell t ring tail => Sys2Proof.Machine.execRxRingDoorbell t ring tail s
  | .descriptorFetchDone t rx ring idx raw hdr => Sys2Proof.Machine.execDescriptorFetchDone t rx ring idx raw hdr s
  | .bufferFetchDone t ring idx data => Sys2Proof.Machine.execBufferFetchDone t ring idx data s
  | .fetchError t rx ring idx => Sys2Proof.Machine.execFetchError t rx ring idx s
  | .rawFrameSent t ring idx ago => Sys2Proof.Machine.execRawFrameSent t ring idx ago s
  | .raGo t slot word => Sys2Proof.Machine.execRaGo t slot word s
  | .raAck t slot => Sys2Proof.Machine.execRaAck t slot s
  | .uartCharacter t port data badParity badStop allLow => Sys2Proof.Machine.execUartCharacter t port data badParity badStop allLow s
  | .ictoTimeout t port => Sys2Proof.Machine.execIctoTimeout t port s
  | .silenceTimeout t port => Sys2Proof.Machine.execSilenceTimeout t port s
  | .ingestPortCommit t port word => Sys2Proof.Machine.execIngestPortCommit t port word s
  | .sendBreak t port bits => Sys2Proof.Machine.execSendBreak t port bits s
  | .breakEnd t port => Sys2Proof.Machine.execBreakEnd t port s
  | .deHoldEnd t port => Sys2Proof.Machine.execDeHoldEnd t port s
  | .dispatch t anvil port => Sys2Proof.Machine.execDispatch t anvil port s
  | .goldenItem t anvil pass => Sys2Proof.Machine.execGoldenItem t anvil pass s
  | .goldFailedClear t anvil => Sys2Proof.Machine.execGoldFailedClear t anvil s
  | .admitItem t src => Sys2Proof.Machine.execAdmitItem t src s
  | .roundExpiry t group => Sys2Proof.Machine.execRoundExpiry t group s
  | .forceOut t group member both => Sys2Proof.Machine.execForceOut t group member both s
  | .forceIn t group member both => Sys2Proof.Machine.execForceIn t group member both s
  | .flCommit t index => Sys2Proof.Machine.execFlCommit t index s
  | .rlCommit t index => Sys2Proof.Machine.execRlCommit t index s
  | .gcCommit t index => Sys2Proof.Machine.execGcCommit t index s
  | .sbCommit t index => Sys2Proof.Machine.execSbCommit t index s
  | .mgCommit t index => Sys2Proof.Machine.execMgCommit t index s
  | .flowShadowSwap t => Sys2Proof.Machine.execFlowShadowSwap t s
  | .ruleShadowSwap t => Sys2Proof.Machine.execRuleShadowSwap t s
  | .concShadowSwap t => Sys2Proof.Machine.execConcShadowSwap t s
  | .bellShadowSwap t => Sys2Proof.Machine.execBellShadowSwap t s
  | .ringShadowSwap t => Sys2Proof.Machine.execRingShadowSwap t s
  | .tableSwapDone t page => Sys2Proof.Machine.execTableSwapDone t page s
  | .quarRelease t port both index => Sys2Proof.Machine.execQuarRelease t port both index s
  | .quarEnter t port both index => Sys2Proof.Machine.execQuarEnter t port both index s
  | .release t port more => Sys2Proof.Machine.execRelease t port more s
  | .itemTransmitted t port stamp => Sys2Proof.Machine.execItemTransmitted t port stamp s
  | .alignedReleaseTime t => Sys2Proof.Machine.execAlignedReleaseTime t s
  | .newestHoldEnd t port key => Sys2Proof.Machine.execNewestHoldEnd t port key s
  | .deadlineExpiry t handle => Sys2Proof.Machine.execDeadlineExpiry t handle s
  | .classBoundExpiry t queue handle => Sys2Proof.Machine.execClassBoundExpiry t queue handle s
  | .statusBoundary t port => Sys2Proof.Machine.execStatusBoundary t port s
  | .listenerPortCommit t port word => Sys2Proof.Machine.execListenerPortCommit t port word s
  | .qflush t port => Sys2Proof.Machine.execQflush t port s
  | .qflushComplete t port => Sys2Proof.Machine.execQflushComplete t port s
  | .qlimWrite t queue word => Sys2Proof.Machine.execQlimWrite t queue word s
  | .spillWriteDone t handle => Sys2Proof.Machine.execSpillWriteDone t handle s
  | .spillFetchDone t handle err addr => Sys2Proof.Machine.execSpillFetchDone t handle err addr s
  | .journalWriteDone t handle => Sys2Proof.Machine.execJournalWriteDone t handle s
  | .journalBlockClose t => Sys2Proof.Machine.execJournalBlockClose t s
  | .journalFreeze t => Sys2Proof.Machine.execJournalFreeze t s
  | .freezePostEnd t window => Sys2Proof.Machine.execFreezePostEnd t window s
  | .unfreeze t window => Sys2Proof.Machine.execUnfreeze t window s
  | .msUpdate t => Sys2Proof.Machine.execMsUpdate t s
  | .ppsInputEdge t input rising short => Sys2Proof.Machine.execPpsInputEdge t input rising short s
  | .ppsMiss t input => Sys2Proof.Machine.execPpsMiss t input s
  | .smpGo t domain => Sys2Proof.Machine.execSmpGo t domain s
  | .domainMissTimeout t domain => Sys2Proof.Machine.execDomainMissTimeout t domain s
  | .dreset t domain => Sys2Proof.Machine.execDreset t domain s
  | .setGo t => Sys2Proof.Machine.execSetGo t s
  | .stepGo t => Sys2Proof.Machine.execStepGo t s
  | .timeCap t => Sys2Proof.Machine.execTimeCap t s
  | .leap t => Sys2Proof.Machine.execLeap t s
  | .ppsOutputPulse t output target => Sys2Proof.Machine.execPpsOutputPulse t output target s
  | .timeSyncSend t => Sys2Proof.Machine.execTimeSyncSend t s
  | .axisStateSend t axis => Sys2Proof.Machine.execAxisStateSend t axis s
  | .encoderCount t encoder a b => Sys2Proof.Machine.execEncoderCount t encoder a b s
  | .encoderIndex t encoder => Sys2Proof.Machine.execEncoderIndex t encoder s
  | .axisStill t axis => Sys2Proof.Machine.execAxisStill t axis s
  | .axisEdges t => Sys2Proof.Machine.execAxisEdges t s
  | .axisConfigCommit t axis word => Sys2Proof.Machine.execAxisConfigCommit t axis word s
  | .axisCap t => Sys2Proof.Machine.execAxisCap t s
  | .slotWrite t slot word race => Sys2Proof.Machine.execSlotWrite t slot word race s
  | .slotFire t slot jump => Sys2Proof.Machine.execSlotFire t slot jump s
  | .signalDetect t lane => Sys2Proof.Machine.execSignalDetect t lane s
  | .blockLockTimeout t port => Sys2Proof.Machine.execBlockLockTimeout t port s
  | .trainSend t port bad => Sys2Proof.Machine.execTrainSend t port bad s
  | .trainFrame t port crcGood major low minor build credits => Sys2Proof.Machine.execTrainFrame t port crcGood major low minor build credits s
  | .helloSend t port => Sys2Proof.Machine.execHelloSend t port s
  | .helloFrame t port node hub ring side rtt => Sys2Proof.Machine.execHelloFrame t port node hub ring side rtt s
  | .lossOfLock t lane signal => Sys2Proof.Machine.execLossOfLock t lane signal s
  | .adminDown t port on => Sys2Proof.Machine.execAdminDown t port on s
  | .retrain t port => Sys2Proof.Machine.execRetrain t port s
  | .dataFrame t port ft vc lseq fate body => Sys2Proof.Machine.execDataFrame t port ft vc lseq fate body s
  | .ackFrame t port lseq => Sys2Proof.Machine.execAckFrame t port lseq s
  | .nakFrame t port lseq => Sys2Proof.Machine.execNakFrame t port lseq s
  | .replayTimeout t port => Sys2Proof.Machine.execReplayTimeout t port s
  | .creditFrame t port cpl req item => Sys2Proof.Machine.execCreditFrame t port cpl req item s
  | .creditSend t port => Sys2Proof.Machine.execCreditSend t port s
  | .probeSend t port => Sys2Proof.Machine.execProbeSend t port s
  | .probeFrame t port number reply t1 t2 t3 => Sys2Proof.Machine.execProbeFrame t port number reply t1 t2 t3 s
  | .packetReceive t port vc resid foreign => Sys2Proof.Machine.execPacketReceive t port vc resid foreign s
  | .itemIn t => Sys2Proof.Machine.execItemIn t s
  | .iseqTimeout t => Sys2Proof.Machine.execIseqTimeout t s
  | .linkDownSig t => Sys2Proof.Machine.execLinkDownSig t s
  | .linkUpSig t => Sys2Proof.Machine.execLinkUpSig t s
  | .leafReset t => Sys2Proof.Machine.execLeafReset t s
  | .interruptSig t => Sys2Proof.Machine.execInterruptSig t s
  | .lineCountsSig t => Sys2Proof.Machine.execLineCountsSig t s
  | .sigHoldTimeout t => Sys2Proof.Machine.execSigHoldTimeout t s
  | .hubBeatSend t => Sys2Proof.Machine.execHubBeatSend t s
  | .hubBeatRx t => Sys2Proof.Machine.execHubBeatRx t s
  | .beatAckRx t => Sys2Proof.Machine.execBeatAckRx t s
  | .discoverSend t => Sys2Proof.Machine.execDiscoverSend t s
  | .discoverReturn t => Sys2Proof.Machine.execDiscoverReturn t s
  | .discoverTimeout t => Sys2Proof.Machine.execDiscoverTimeout t s
  | .topoGo t => Sys2Proof.Machine.execTopoGo t s
  | .rdReqRx t => Sys2Proof.Machine.execRdReqRx t s
  | .wrReqRx t => Sys2Proof.Machine.execWrReqRx t s
  | .cplRx t => Sys2Proof.Machine.execCplRx t s
  | .cplTimeout t => Sys2Proof.Machine.execCplTimeout t s
  | .portMapWrite t port word => Sys2Proof.Machine.execPortMapWrite t port word s
  | .mbankSwitch t group => Sys2Proof.Machine.execMbankSwitch t group s
  | .beatSend t => Sys2Proof.Machine.execBeatSend t s
  | .beatRx t role tstate join epoch health lpos => Sys2Proof.Machine.execBeatRx t role tstate join epoch health lpos s
  | .pathTimeout t path => Sys2Proof.Machine.execPathTimeout t path s
  | .roleDecision t => Sys2Proof.Machine.execRoleDecision t s
  | .quorumCheck t => Sys2Proof.Machine.execQuorumCheck t s
  | .logFrame t lane lseq good firstLpos recs => Sys2Proof.Machine.execLogFrame t lane lseq good firstLpos recs s
  | .lackFrame t lpos => Sys2Proof.Machine.execLackFrame t lpos s
  | .logTimeout t => Sys2Proof.Machine.execLogTimeout t s
  | .fetchTimeout t => Sys2Proof.Machine.execFetchTimeout t s
  | .fetchFrame t leaf iseq lpos => Sys2Proof.Machine.execFetchFrame t leaf iseq lpos s
  | .bulkFrame t lane lseq good parts => Sys2Proof.Machine.execBulkFrame t lane lseq good parts s
  | .drainTimeout t => Sys2Proof.Machine.execDrainTimeout t s
  | .localHoldExpiry t port => Sys2Proof.Machine.execLocalHoldExpiry t port s
  | .timeXferSend t => Sys2Proof.Machine.execTimeXferSend t s
  | .timeXfer t reply t1 t2 t3 dom => Sys2Proof.Machine.execTimeXfer t reply t1 t2 t3 dom s
  | .healthFault t bit on => Sys2Proof.Machine.execHealthFault t bit on s
  | .relinquish t lpos => Sys2Proof.Machine.execRelinquish t lpos s
  | .takeover t => Sys2Proof.Machine.execTakeover t s
  | .busHoldEnd t => Sys2Proof.Machine.execBusHoldEnd t s
  | .seal t others => Sys2Proof.Machine.execSeal t others s
  | .rejoin t others => Sys2Proof.Machine.execRejoin t others s
  | .forceActive t others => Sys2Proof.Machine.execForceActive t others s
  | .handover t others => Sys2Proof.Machine.execHandover t others s
  | .handoverDrained t => Sys2Proof.Machine.execHandoverDrained t s
  | .canFrameRx t controller ago cause record => Sys2Proof.Machine.execCanFrameRx t controller ago cause record s
  | .canFrameTxDone t controller => Sys2Proof.Machine.execCanFrameTxDone t controller s
  | .canAttemptLost t controller cause => Sys2Proof.Machine.execCanAttemptLost t controller cause s
  | .canSubmit t controller entry word => Sys2Proof.Machine.execCanSubmit t controller entry word s
  | .canCancel t controller entry => Sys2Proof.Machine.execCanCancel t controller entry s
  | .canAck t controller entry => Sys2Proof.Machine.execCanAck t controller entry s
  | .canConfigCommit t controller word => Sys2Proof.Machine.execCanConfigCommit t controller word s
  | .canIntegration t controller => Sys2Proof.Machine.execCanIntegration t controller s
  | .canRecover t controller => Sys2Proof.Machine.execCanRecover t controller s
  | .busOffRecovery t controller => Sys2Proof.Machine.execBusOffRecovery t controller s
  | .vnEnable t controller node word => Sys2Proof.Machine.execVnEnable t controller node word s
  | .addrClaimTimeout t controller node => Sys2Proof.Machine.execAddrClaimTimeout t controller node s
  | .fpTimeout t => Sys2Proof.Machine.execFpTimeout t s
  | .tpTimeout t => Sys2Proof.Machine.execTpTimeout t s
  | .bamGap t controller => Sys2Proof.Machine.execBamGap t controller s
  | .canSleepEntry t controller => Sys2Proof.Machine.execCanSleepEntry t controller s
  | .canWake t controller low ago record => Sys2Proof.Machine.execCanWake t controller low ago record s
  | .ethFrameRx t port ago fcsGood frame => Sys2Proof.Machine.execEthFrameRx t port ago fcsGood frame s
  | .ethLinkUp t port speed => Sys2Proof.Machine.execEthLinkUp t port speed s
  | .ethLinkDown t port => Sys2Proof.Machine.execEthLinkDown t port s
  | .groupJoin t port groups => Sys2Proof.Machine.execGroupJoin t port groups s
  | .tongGo t engine lines => Sys2Proof.Machine.execTongGo t engine lines s
  | .tongAwait t engine lines => Sys2Proof.Machine.execTongAwait t engine lines s
  | .tongAwaitDone t engine lines ago => Sys2Proof.Machine.execTongAwaitDone t engine lines ago s
  | .tongPins t engine => Sys2Proof.Machine.execTongPins t engine s
  | .tongLoad t engine => Sys2Proof.Machine.execTongLoad t engine s
  | .tongAlu t engine => Sys2Proof.Machine.execTongAlu t engine s
  | .tongTimer t engine => Sys2Proof.Machine.execTongTimer t engine s
  | .tongShift t engine lines => Sys2Proof.Machine.execTongShift t engine lines s
  | .tongFetch t engine => Sys2Proof.Machine.execTongFetch t engine s
  | .tongStore t engine => Sys2Proof.Machine.execTongStore t engine s
  | .stallEnd t engine => Sys2Proof.Machine.execStallEnd t engine s
  | .tongLut t engine lines => Sys2Proof.Machine.execTongLut t engine lines s
  | .tongFlag t engine => Sys2Proof.Machine.execTongFlag t engine s
  | .engineEnable t engine => Sys2Proof.Machine.execEngineEnable t engine s
  | .engineDisable t engine => Sys2Proof.Machine.execEngineDisable t engine s
  | .grpEnSet t mask => Sys2Proof.Machine.execGrpEnSet t mask s
  | .grpEnClr t mask => Sys2Proof.Machine.execGrpEnClr t mask s
  | .grpClkrst t mask => Sys2Proof.Machine.execGrpClkrst t mask s
  | .tongShadowSwap t => Sys2Proof.Machine.execTongShadowSwap t s
  | .engineBankMove t engine => Sys2Proof.Machine.execEngineBankMove t engine s
  | .swapTimeout t => Sys2Proof.Machine.execSwapTimeout t s
  | .tongForce t => Sys2Proof.Machine.execTongForce t s
  | .rxFlush t port => Sys2Proof.Machine.execRxFlush t port s
  | .txFlush t port sent stamp => Sys2Proof.Machine.execTxFlush t port sent stamp s
  | .channelOos t channel => Sys2Proof.Machine.execChannelOos t channel s
  | .ueLimitExceeded t channel => Sys2Proof.Machine.execUeLimitExceeded t channel s
  | .cellarScrub t addr ce ceAddr ue ueAddr last => Sys2Proof.Machine.execCellarScrub t addr ce ceAddr ue ueAddr last s
  | .bar2Write t offset data => Sys2Proof.Machine.execBar2Write t offset data s
  | .loadClear t => Sys2Proof.Machine.execLoadClear t s
  | .derive t => Sys2Proof.Machine.execDerive t s
  | .revoke t => Sys2Proof.Machine.execRevoke t s
  | .erase t => Sys2Proof.Machine.execErase t s
  | .newRoot t => Sys2Proof.Machine.execNewRoot t s
  | .applyUpdate t => Sys2Proof.Machine.execApplyUpdate t s
  | .attest t => Sys2Proof.Machine.execAttest t s
  | .verifyImage t advance => Sys2Proof.Machine.execVerifyImage t advance s
  | .commandDone t => Sys2Proof.Machine.execCommandDone t s
  | .tamperAlarm t source => Sys2Proof.Machine.execTamperAlarm t source s
  | .tampArm t mask => Sys2Proof.Machine.execTampArm t mask s
  | .tampClr t => Sys2Proof.Machine.execTampClr t s
  | .clearLock t => Sys2Proof.Machine.execClearLock t s
  | .snap t page clear => Sys2Proof.Machine.execSnap t page clear s
  | .clear t page => Sys2Proof.Machine.execClear t page s
  | .psnap t port all clear => Sys2Proof.Machine.execPsnap t port all clear s
  | .pclear t port all => Sys2Proof.Machine.execPclear t port all s
  | .fsnap t rule index all clear => Sys2Proof.Machine.execFsnap t rule index all clear s
  | .fclear t rule index all => Sys2Proof.Machine.execFclear t rule index all s
  | .gsnap t group all clear => Sys2Proof.Machine.execGsnap t group all clear s
  | .gclear t group all => Sys2Proof.Machine.execGclear t group all s
  | .qsnap t queue all clear => Sys2Proof.Machine.execQsnap t queue all clear s
  | .qclear t queue all => Sys2Proof.Machine.execQclear t queue all s
  | .dispositionFsnap t flow all clear => Sys2Proof.Machine.execDispositionFsnap t flow all clear s
  | .dispositionFclear t flow all => Sys2Proof.Machine.execDispositionFclear t flow all s
  | .fifoFsnap t port clear => Sys2Proof.Machine.execFifoFsnap t port clear s
  | .fifoFclear t port => Sys2Proof.Machine.execFifoFclear t port s
  | .frameFsnap t port all clear => Sys2Proof.Machine.execFrameFsnap t port all clear s
  | .frameFclear t port all => Sys2Proof.Machine.execFrameFclear t port all s
  | .uartStartEdge t port => Sys2Proof.Machine.execUartStartEdge t port s
  | .lineGoesHigh t port => Sys2Proof.Machine.execLineGoesHigh t port s
  | .blockLock t port => Sys2Proof.Machine.execBlockLock t port s
  | .checkerLock t slot => Sys2Proof.Machine.execCheckerLock t slot s
  | .checkerLockLost t slot checked errs => Sys2Proof.Machine.execCheckerLockLost t slot checked errs s
  | .supplyWarning t rail low => Sys2Proof.Machine.execSupplyWarning t rail low s
  | .bankOutOfRange t bank => Sys2Proof.Machine.execBankOutOfRange t bank s
  | .canWakeInSleep t controller => Sys2Proof.Machine.execCanWakeInSleep t controller s
  | .jtagInstruction t instr => Sys2Proof.Machine.execJtagInstruction t instr s
  | .deltaAtH t => Sys2Proof.Machine.execDeltaAtH t s
  | .attemptStart t controller => Sys2Proof.Machine.execAttemptStart t controller s
  | .alignedFetch t port => Sys2Proof.Machine.execAlignedFetch t port s

end Sys2Proof.Machine
end

