-- ==== Sys2Proof/Safety.lean ====
section
/-! DEFINITION. Safety.lean: the terms that claims are stated in: what an event may write, what a command leaves alone,
which events are pending, and when a host write reaches its page. -/

namespace Sys2Proof

/-! ### When a command happens -/

/-- The instant of the reference clock at which a command happens. -/
def Instr.instant : Instr → Nat
  | .registerWrite t _ _ _ => t
  | .pgStatErrorClear t _ => t
  | .pgEvtClear t _ _ => t
  | .pgEvtEnWrite t _ _ => t
  | .pageLock t _ _ => t
  | .pageUnlock t _ _ => t
  | .enableWrite t _ _ => t
  | .softReset t _ _ _ => t
  | .softResetDone t _ _ _ => t
  | .blockFreeze t _ _ => t
  | .testMode t _ _ => t
  | .unsupportedAccess t _ => t
  | .holeAccess t _ => t
  | .poisonedWrite t => t
  | .powerOn t => t
  | .resetPin t => t
  | .supplyReset t => t
  | .devrstArm t _ => t
  | .devrstArmExpiry t => t
  | .deviceSrst t => t
  | .resetRelease t _ _ _ => t
  | .bootStageDone t _ _ => t
  | .bootGo t => t
  | .cellarChannelTrained t _ _ _ => t
  | .cellarInitDone t => t
  | .wipeArm t _ => t
  | .wipeArmExpiry t => t
  | .wipeGo t => t
  | .commit t _ => t
  | .commitTaken t => t
  | .commitWritten t => t
  | .sleep t _ => t
  | .sleepPowerOff t => t
  | .wakeNInput t => t
  | .wakeTimer t => t
  | .wakePowerUp t => t
  | .powerDown t _ => t
  | .powerDownDone t _ => t
  | .powerUp t _ => t
  | .testGo t _ _ => t
  | .testStart t _ => t
  | .testCancel t _ _ _ => t
  | .testAbort t _ _ _ => t
  | .testDurationEnd t _ _ _ => t
  | .testAck t _ => t
  | .tfClr t => t
  | .larderScrubPass t _ => t
  | .hostInterfaceReset t => t
  | .msixHoldoffEnd t _ => t
  | .msixUnmask t _ => t
  | .popRead t => t
  | .ringEnable t _ _ _ => t
  | .txRingDoorbell t _ _ => t
  | .rxRingDoorbell t _ _ => t
  | .descriptorFetchDone t _ _ _ _ _ => t
  | .bufferFetchDone t _ _ _ => t
  | .fetchError t _ _ _ => t
  | .rawFrameSent t _ _ _ => t
  | .raGo t _ _ => t
  | .raAck t _ => t
  | .uartCharacter t _ _ _ _ _ => t
  | .ictoTimeout t _ => t
  | .silenceTimeout t _ => t
  | .ingestPortCommit t _ _ => t
  | .sendBreak t _ _ => t
  | .breakEnd t _ => t
  | .deHoldEnd t _ => t
  | .dispatch t _ _ => t
  | .goldenItem t _ _ => t
  | .goldFailedClear t _ => t
  | .admitItem t _ => t
  | .roundExpiry t _ => t
  | .forceOut t _ _ _ => t
  | .forceIn t _ _ _ => t
  | .flCommit t _ => t
  | .rlCommit t _ => t
  | .gcCommit t _ => t
  | .sbCommit t _ => t
  | .mgCommit t _ => t
  | .flowShadowSwap t => t
  | .ruleShadowSwap t => t
  | .concShadowSwap t => t
  | .bellShadowSwap t => t
  | .ringShadowSwap t => t
  | .tableSwapDone t _ => t
  | .quarRelease t _ _ _ => t
  | .quarEnter t _ _ _ => t
  | .release t _ _ => t
  | .itemTransmitted t _ _ => t
  | .alignedReleaseTime t => t
  | .newestHoldEnd t _ _ => t
  | .deadlineExpiry t _ => t
  | .classBoundExpiry t _ _ => t
  | .statusBoundary t _ => t
  | .listenerPortCommit t _ _ => t
  | .qflush t _ => t
  | .qflushComplete t _ => t
  | .qlimWrite t _ _ => t
  | .spillWriteDone t _ => t
  | .spillFetchDone t _ _ _ => t
  | .journalWriteDone t _ => t
  | .journalBlockClose t => t
  | .journalFreeze t => t
  | .freezePostEnd t _ => t
  | .unfreeze t _ => t
  | .msUpdate t => t
  | .ppsInputEdge t _ _ _ => t
  | .ppsMiss t _ => t
  | .smpGo t _ => t
  | .domainMissTimeout t _ => t
  | .dreset t _ => t
  | .setGo t => t
  | .stepGo t => t
  | .timeCap t => t
  | .leap t => t
  | .ppsOutputPulse t _ _ => t
  | .timeSyncSend t => t
  | .axisStateSend t _ => t
  | .encoderCount t _ _ _ => t
  | .encoderIndex t _ => t
  | .axisStill t _ => t
  | .axisEdges t => t
  | .axisConfigCommit t _ _ => t
  | .axisCap t => t
  | .slotWrite t _ _ _ => t
  | .slotFire t _ _ => t
  | .signalDetect t _ => t
  | .blockLockTimeout t _ => t
  | .trainSend t _ _ => t
  | .trainFrame t _ _ _ _ _ _ _ => t
  | .helloSend t _ => t
  | .helloFrame t _ _ _ _ _ _ => t
  | .lossOfLock t _ _ => t
  | .adminDown t _ _ => t
  | .retrain t _ => t
  | .dataFrame t _ _ _ _ _ _ => t
  | .ackFrame t _ _ => t
  | .nakFrame t _ _ => t
  | .replayTimeout t _ => t
  | .creditFrame t _ _ _ _ => t
  | .creditSend t _ => t
  | .probeSend t _ => t
  | .probeFrame t _ _ _ _ _ _ => t
  | .packetReceive t _ _ _ _ => t
  | .itemIn t => t
  | .iseqTimeout t => t
  | .linkDownSig t => t
  | .linkUpSig t => t
  | .leafReset t => t
  | .interruptSig t => t
  | .lineCountsSig t => t
  | .sigHoldTimeout t => t
  | .hubBeatSend t => t
  | .hubBeatRx t => t
  | .beatAckRx t => t
  | .discoverSend t => t
  | .discoverReturn t => t
  | .discoverTimeout t => t
  | .topoGo t => t
  | .rdReqRx t => t
  | .wrReqRx t => t
  | .cplRx t => t
  | .cplTimeout t => t
  | .portMapWrite t _ _ => t
  | .mbankSwitch t _ => t
  | .beatSend t => t
  | .beatRx t _ _ _ _ _ _ => t
  | .pathTimeout t _ => t
  | .roleDecision t => t
  | .quorumCheck t => t
  | .logFrame t _ _ _ _ _ => t
  | .lackFrame t _ => t
  | .logTimeout t => t
  | .fetchTimeout t => t
  | .fetchFrame t _ _ _ => t
  | .bulkFrame t _ _ _ _ => t
  | .drainTimeout t => t
  | .localHoldExpiry t _ => t
  | .timeXferSend t => t
  | .timeXfer t _ _ _ _ _ => t
  | .healthFault t _ _ => t
  | .relinquish t _ => t
  | .takeover t => t
  | .busHoldEnd t => t
  | .seal t _ => t
  | .rejoin t _ => t
  | .forceActive t _ => t
  | .handover t _ => t
  | .handoverDrained t => t
  | .canFrameRx t _ _ _ _ => t
  | .canFrameTxDone t _ => t
  | .canAttemptLost t _ _ => t
  | .canSubmit t _ _ _ => t
  | .canCancel t _ _ => t
  | .canAck t _ _ => t
  | .canConfigCommit t _ _ => t
  | .canIntegration t _ => t
  | .canRecover t _ => t
  | .busOffRecovery t _ => t
  | .vnEnable t _ _ _ => t
  | .addrClaimTimeout t _ _ => t
  | .fpTimeout t => t
  | .tpTimeout t => t
  | .bamGap t _ => t
  | .canSleepEntry t _ => t
  | .canWake t _ _ _ _ => t
  | .ethFrameRx t _ _ _ _ => t
  | .ethLinkUp t _ _ => t
  | .ethLinkDown t _ => t
  | .groupJoin t _ _ => t
  | .tongGo t _ _ => t
  | .tongAwait t _ _ => t
  | .tongAwaitDone t _ _ _ => t
  | .tongPins t _ => t
  | .tongLoad t _ => t
  | .tongAlu t _ => t
  | .tongTimer t _ => t
  | .tongShift t _ _ => t
  | .tongFetch t _ => t
  | .tongStore t _ => t
  | .stallEnd t _ => t
  | .tongLut t _ _ => t
  | .tongFlag t _ => t
  | .engineEnable t _ => t
  | .engineDisable t _ => t
  | .grpEnSet t _ => t
  | .grpEnClr t _ => t
  | .grpClkrst t _ => t
  | .tongShadowSwap t => t
  | .engineBankMove t _ => t
  | .swapTimeout t => t
  | .tongForce t => t
  | .rxFlush t _ => t
  | .txFlush t _ _ _ => t
  | .channelOos t _ => t
  | .ueLimitExceeded t _ => t
  | .cellarScrub t _ _ _ _ _ _ => t
  | .bar2Write t _ _ => t
  | .loadClear t => t
  | .derive t => t
  | .revoke t => t
  | .erase t => t
  | .newRoot t => t
  | .applyUpdate t => t
  | .attest t => t
  | .verifyImage t _ => t
  | .commandDone t => t
  | .tamperAlarm t _ => t
  | .tampArm t _ => t
  | .tampClr t => t
  | .clearLock t => t
  | .snap t _ _ => t
  | .clear t _ => t
  | .psnap t _ _ _ => t
  | .pclear t _ _ => t
  | .fsnap t _ _ _ _ => t
  | .fclear t _ _ _ => t
  | .gsnap t _ _ _ => t
  | .gclear t _ _ => t
  | .qsnap t _ _ _ => t
  | .qclear t _ _ => t
  | .dispositionFsnap t _ _ _ => t
  | .dispositionFclear t _ _ => t
  | .fifoFsnap t _ _ => t
  | .fifoFclear t _ => t
  | .frameFsnap t _ _ _ => t
  | .frameFclear t _ _ => t
  | .uartStartEdge t _ => t
  | .lineGoesHigh t _ => t
  | .blockLock t _ => t
  | .checkerLock t _ => t
  | .checkerLockLost t _ _ _ => t
  | .supplyWarning t _ _ => t
  | .bankOutOfRange t _ => t
  | .canWakeInSleep t _ => t
  | .jtagInstruction t _ => t
  | .deltaAtH t => t
  | .attemptStart t _ => t
  | .alignedFetch t _ => t

end Sys2Proof

namespace Sys2Proof.Machine

/-! ### What events write -/

/-- The cells that raising an event of a page may write: the page's event bits and their summary (R383, R399), the pop
FIFO's level, its losses and the overflow event of page 0x001 (R393), messages sent and pending (R384). -/
def evtKey (page k : Nat) : Bool :=
  k == fldKey (pgAt page) PG_PG_EVT || k == fldKey pgSYS (sumFld SYS_EVT_SUM page) || k == fldKey pgHOST PG_PG_EVT ||
  k == fldKey pgSYS (sumFld SYS_EVT_SUM 1) || k == fldKey popAt POP_POP_LVL || k == fldKey pgHOST HOST_C_POP_LOST ||
  k == fldKey pgHOST HOST_C_MSIX_SENT || (decide (8 * 0x13F8 ≤ k) && decide (k < 8 * 0x13F8 + 64))

/-- An emission that is an MSI-X message. -/
def Emission.isMsix : Emission → Bool
  | .msix _ _ _ => true
  | _ => false

/-- Event `bit` of a page is set in PG_EVT. -/
def State.pends (s : State) (page bit : Nat) : Bool := (s.rd (pgAt page) PG_PG_EVT).testBit bit

/-! ### Frames -/

/-- The register file of `u` is that of `s` but for the fields listed and what events of the listed pages may write. -/
def RegsBut (fs : List (Nat × Fld)) (pages : List Nat) (s u : State) : Prop :=
  ∀ k, (∀ bf ∈ fs, k ≠ fldKey bf.1 bf.2) → (∀ p ∈ pages, evtKey p k = false) → regLook u.regs k = regLook s.regs k

/-- `u` is `s` but for the fields listed and for what raising events of the listed pages does: pop records, MSI-X
messages and their bookkeeping. Everything else (FIFOs, queues, buffers, modes, memory, what left) is as in `s`. -/
def Frame (fs : List (Nat × Fld)) (pages : List Nat) (s u : State) : Prop :=
  RegsBut fs pages s u ∧
  u = { s with
    regs := u.regs
    host := { s.host with pop := u.host.pop, popLost := u.host.popLost, vecLast := u.host.vecLast, vecWait := u.host.vecWait }
    out := u.out } ∧
  (∃ m : List Emission, u.out = s.out ++ m ∧ m.all Emission.isMsix = true) ∧
  (pages = [] → u.host = s.host ∧ u.out = s.out)

/-- The fields that a refused write to a page may write (R378, R399). -/
def refusalFields (page : Nat) : List (Nat × Fld) :=
  [(pgSYS, SYS_C_ERR_WRITES), (pgSYS, SYS_C_LOCK_REFUSED), (pgAt page, PG_ERROR), (pgAt page, PG_ERR_CODE),
   (pgSYS, sumFld SYS_ERR_SUM page)]

/-- The fields that show the receive side of a port: its FIFO's level and flags, and IN_CAND (R43, R323, R329). -/
def rxFields (p : Nat) : List (Nat × Fld) :=
  [(fifoAt p, FIFO_RX_LEVEL), (fifoAt p, FIFO_RX_EMPTY), (fifoAt p, FIFO_RX_FULL), (ingestAt p, INGEST_IN_CAND)]

/-! ### Invariants -/

/-- The frame numbers of every hop fit their 16 bits (R196, R243). -/
def State.linksFit (s : State) : Prop := ∀ l, (s.hop l).txSeq < 65536 ∧ (s.hop l).rxSeq < 65536

/-! ### Guards -/

/-- A word of a page's block registers, at address `a`, that REGISTER_WRITE keeps field by field: no word that a command
of its own writes, none that is held or shadowed until a commit, no buffer and no program word. -/
def Place.plain (p : Place) (a w : Nat) : Prop :=
  p.isPage = true ∧ 0x40 ≤ p.off ∧ p.off < 0x800 ∧ p.ro = false ∧ ownWord a = false ∧ startsOwn p w = false ∧
  heldWord a = false ∧ (shadowPlace a).isSome = false ∧ ¬(p.page = 0x70 ∧ 0x100 ≤ p.off ∧ p.off < 0x200) ∧
  ¬(p.page = 5 ∧ SBOX_STAGE.off ≤ p.off ∧ p.off < SBOX_INFO.off + 48) ∧ ¬(p.page = 1 ∧ 0x400 ≤ p.off)

/-- Some settable field of the word at `p` would hold a value that its register's table does not allow (R9). -/
def State.illegalAt (s : State) (p : Place) (w : Nat) : Prop :=
  s.wordLegal p.base (p.rows.filter (fun r => !ownFld p.page r.fld)) p.off w = false

/-- A block register write reaches its page: powered, ready, unlocked, and not a carried write on a standby in step
(R10, R250, R408, R419). -/
def State.reaches (s : State) (page : Nat) (carried : Bool) : Prop :=
  s.pageDown page = false ∧ s.pageReady page = true ∧ s.on (pgAt page) PG_LOCK = false ∧
  (carried = true → s.standbyInStep = false)

/-- A table window write reaches its entry: the windows are ready, and it is not a carried write on a standby in step. -/
def State.reachesWin (s : State) (carried : Bool) : Prop :=
  s.bootReady true = true ∧ (carried = true → s.standbyInStep = false)

/-- A PG_CTRL write that changes something reaches its page. -/
def State.reachesCtrl (s : State) (page : Nat) (carried : Bool) : Prop :=
  s.on (pgAt page) PG_LOCK = false ∧ (carried = true → s.standbyInStep = false)

/-- An Ethernet port takes frames: it has a mode and link, runs and is not in reset (R284, R285). -/
def State.ethHears (s : State) (e : Nat) : Prop :=
  s.rd (pgETH e) ETH_MODE ≠ 0 ∧ s.on (pgETH e) ETH_LINK = true ∧ s.portDown (40 + e) = false ∧ s.on (pgETH e) PG_IN_RESET = false

/-- A write reaches page 0x005, which takes commands in boot stages STRONGBOX and RECOVERY as well (R367, R406). -/
def State.reachesSbox (s : State) : Prop :=
  s.on pgSBOX PG_LOCK = false ∧ (s.rd pgPWR PWR_BOOT_STAGE = 2 ∨ s.rd pgPWR PWR_BOOT_STAGE = 3 ∨ s.reaches 5 false)

/-- A strongbox command in progress, with its arguments as they stand in `s` (R355). -/
def State.sbOpOf (s : State) (cmd : Nat) (adv : Bool) : SbOp :=
  { cmd := cmd, slot := s.rd pgSBOX SBOX_SLOT, src := s.rd pgSBOX SBOX_SRC_SLOT, alg := s.rd pgSBOX SBOX_ALG
    eng := s.rd pgSBOX SBOX_ENG, adv := adv, stage := s.sbBytes SBOX_STAGE 96
    salt := (s.sbBytes SBOX_SALT 48).take (s.rd pgSBOX SBOX_SALT_LEN)
    info := (s.sbBytes SBOX_INFO 48).take (s.rd pgSBOX SBOX_INFO_LEN) }

/-! ### Tongs engines -/

/-- Engine `n` executes the legal word `w` of OP `op` in this engine clock: it runs, is powered, does not wait for a bank,
and no FINE instant is kept (R300, R305, R311, R318). -/
def State.tongRuns (s : State) (n op w : Nat) : Prop :=
  s.rd (pgTONG n) TONG_STALL = 0 ∧ s.portDown 42 = false ∧ s.tongWaits n = false ∧ s.tongWord n = w ∧ tongOp w = op ∧
  tongLegal w = true ∧ (s.eng n).fine = none

/-- The word behind the engine's PC lies in its program region (R300). -/
def State.tongGoesOn (s : State) (n : Nat) : Prop :=
  s.tongInside n (s.rd (pgTONG n) TONG_PC + 1) = true ∧ s.rd (pgTONG n) TONG_PC + 1 < 64

/-- From `s` to `u` engine `n` completed its instruction of OP `op` and goes on with the next word (R300). -/
def State.tongWent (u s : State) (n op : Nat) : Prop :=
  u.rd (pgTONG n) TONG_PC = s.rd (pgTONG n) TONG_PC + 1 ∧ u.rd (pgTONG n) TONG_STALL = 0 ∧ u.rd (pgTONG n) TONG_LAST_OP = op

/-- The fields of an engine's page that completing an instruction writes. -/
def tongFields (n : Nat) : List (Nat × Fld) := [(pgTONG n, TONG_PC), (pgTONG n, TONG_STALL), (pgTONG n, TONG_LAST_OP)]

/-! ### Table commits -/

/-- From `s` to `u` entry `i` of table `tb` (numbered as in R249) was committed: the live entry holds what the shadow held,
PENDING is clear, GEN has counted in both copies, and one commit was counted (R86, R87). -/
def State.tookCommit (u s : State) (tb i : Nat) : Prop :=
  (∀ r ∈ tblRows tb, r.acc = .rwa → u.rd (tblLv tb i) r.fld = s.rd (tblSh tb i) r.fld % 2 ^ r.fld.width) ∧
  (∀ f ∈ (tblPend? tb).toList, u.rd (tblSh tb i) f = 0) ∧
  (∀ g ∈ (tblGen? tb).toList, u.rd (tblLv tb i) g = (s.rd (tblLv tb i) g + 1) % 2 ^ g.width ∧ u.rd (tblSh tb i) g = u.rd (tblLv tb i) g) ∧
  u.rd pgFLOW FLOW_C_COMMITS = (s.rd pgFLOW FLOW_C_COMMITS + 1) % 2 ^ 64 ∧ u.tblGen = s.tblGen + 1

end Sys2Proof.Machine
end

