-- ==== Sys2Proof/Certificates/Slice0/Obligations.lean ====
section
/-! DEFINITION. Certificates/Slice0/Obligations.lean: what is claimed of the model, one proposition for each. Each docstring
ends with the rules of the spec that it rests on. -/

open Sys2Proof Sys2Proof.Machine

/-- A step runs the command at the front of the queue on the state with the rest of the queue; on an empty queue
  nothing changes. (R380) -/
def Obligations.AStepTakesTheFrontCommand : Prop :=
  (∀ (s : State) (c : Instr) (rest : List Instr), s.pending = c :: rest → step s = exec c { s with pending := rest }) ∧
  (∀ (s : State), s.pending = [] → step s = .next s) ∧
  (∀ (s : State) (c : Instr), step { s with pending := c :: s.pending } = exec c s)

/-- Every command of the table answers a next state, leaves the queue of waiting commands alone, and moves the
  reference clock to its instant and never back. (R380) -/
def Obligations.EveryCommandCompletesAtItsInstant : Prop :=
  ∀ (s : State) (c : Instr), ∃ u, exec c s = .next u ∧ u.pending = s.pending ∧ u.time.clk = max s.time.clk c.instant

/-- From every state, as many steps as commands wait run them first in first out without a stop, the clock never goes
  back, and the device then idles. (R380) -/
def Obligations.WaitingCommandsRunInOrder : Prop :=
  (∀ (s : State) (n : Nat), n ≤ s.pending.length → ∃ u : State, Sys2Proof.core.run n s = .next u ∧ u.pending =
    s.pending.drop n ∧ u.time.clk = (s.pending.take n).foldl (fun k c => max k c.instant) s.time.clk) ∧
  (∀ (s u : State) (n : Nat) (c : Instr), Sys2Proof.core.run n s = .next u ∧ n < s.pending.length ∧ s.pending[n]? =
    some c → Sys2Proof.core.run (n + 1) s = exec c { u with pending := s.pending.drop (n + 1) }) ∧
  (∀ (s : State) (n : Nat), s.pending.length ≤ n → Sys2Proof.core.run n s = Sys2Proof.core.run s.pending.length s)

/-- Every step keeps the cellar's memory in canonical form: addresses strictly rising and no cell that holds the 0 of
  an unwritten byte. (R331, R341, R407) -/
def Obligations.StepsKeepTheCellarCanonical : Prop :=
  ∀ (s u : State), Memory.wf s.cells = true ∧ step s = .next u → Memory.wf u.cells = true

/-- Every step keeps the frame numbers of every ring hop and of the Ngato link within their 16 bits. (R196, R243) -/
def Obligations.StepsKeepLinkNumbersInRange : Prop :=
  ∀ (s u : State), s.linksFit ∧ step s = .next u → u.linksFit

/-- After power-on reset the boot is at stage RESET, H is 0 and not valid, every FIFO, queue and buffer is empty and
  the settings are factory-inert. (R160, R404, R409) -/
def Obligations.ResetLeavesTheDeviceInert : Prop :=
  (State.reset.pending = [] ∧ State.reset.rd pgPWR PWR_BOOT_STAGE = 0 ∧ State.reset.time.h = 0 ∧ State.reset.on
    pgTIME TIME_H_VALID = false ∧ State.reset.rx = [] ∧ State.reset.del.items = [] ∧ State.reset.del.queues = [] ∧
    State.reset.conc.rounds = [] ∧ State.reset.host.pop = [] ∧ State.reset.host.txd = [] ∧ State.reset.jrnl.blocks =
    [] ∧ State.reset.out = []) ∧
  (∀ (a : Nat), memGet State.reset.cells a = 0#8) ∧
  (∀ (b i : Nat), State.reset.on (tblLv 0 i) FL_VALID = false ∧ State.reset.rd (ingestAt b) INGEST_RX_EN = 0 ∧
    State.reset.rd (lportAt b) LPORT_TX_EN = 0 ∧ State.reset.rd (pgUART b) UART_DE_MODE = 2 ∧ State.reset.rd (pgCAN
    b) CAN_MODE = 0 ∧ State.reset.rd (pgETH b) ETH_MODE = 0 ∧ State.reset.rd (pgRINGP b) RINGP_RATE_CTL = 0 ∧
    State.reset.rd (pgRINGP b) RINGP_ADMIN_DOWN = 0 ∧ State.reset.rd (pgTONG 0) (lnF TONG_LN_OUT_OK b) = 0) ∧
  (Memory.wf State.reset.cells = true ∧ ∀ l, (State.reset.hop l).txSeq < 65536 ∧ (State.reset.hop l).rxSeq < 65536)

/-- A write that carries an undefined encoding is discarded whole, sets ERROR of its page, and records ILLEGAL_VALUE
  if ERROR was clear. (R9) -/
def Obligations.AnIllegalWriteIsDiscardedWhole : Prop :=
  (∀ (s : State) (t a : Nat) (v : BitVec 64) (p : Place), a < 2 ^ 24 ∧ a % 4 = 0 ∧ isHole a = false ∧ placeOf a =
    some p ∧ p.plain a (v.toNat % 2 ^ 32) → (if p.page = 5 then s.reachesSbox else s.reaches p.page p.carried) ∧
    s.illegalAt p (v.toNat % 2 ^ 32) → ∃ u, exec (.registerWrite t a false v) s = .next u ∧ Frame (refusalFields
    p.page) [0] (s.at t) u ∧ u.on (pgAt p.page) PG_ERROR = true ∧ u.rd (pgAt p.page) PG_ERR_CODE = (if s.on (pgAt
    p.page) PG_ERROR then s.rd (pgAt p.page) PG_ERR_CODE else 1) ∧ u.rd pgSYS SYS_C_ERR_WRITES = (s.rd pgSYS
    SYS_C_ERR_WRITES + 1) % 2 ^ 64) ∧
  (∀ (s : State) (t a : Nat) (v : BitVec 64) (p q : Place), a < 2 ^ 24 ∧ a % 8 = 0 ∧ isHole a = false ∧ placeOf a =
    some p ∧ placeOf (a + 4) = some q ∧ p.page = q.page ∧ 0x40 ≤ p.off ∧ q.plain (a + 4) (v.toNat / 2 ^ 32 % 2 ^ 32)
    → (if p.page = 5 then s.reachesSbox else s.reaches p.page p.carried) ∧ p.isPage = true ∧ s.illegalAt q (v.toNat /
    2 ^ 32 % 2 ^ 32) → ∃ u, exec (.registerWrite t a true v) s = .next u ∧ Frame (refusalFields p.page) [0] (s.at t)
    u ∧ u.on (pgAt p.page) PG_ERROR = true ∧ u.rd (pgAt p.page) PG_ERR_CODE = (if s.on (pgAt p.page) PG_ERROR then
    s.rd (pgAt p.page) PG_ERR_CODE else 1))

/-- Each 0 to 1 transition of an enabled event bit on a page with POP 1 pushes one pop record; one lost to a full
  FIFO is counted and shown by OVF. (R393) -/
def Obligations.EventsPushOnePopRecordEach : Prop :=
  (∀ (s : State) (page b : Nat), page < 256 ∧ pageListed page = true ∧ b < 32 ∧ s.pends page b = false ∧ (s.rd (pgAt
    page) PG_PG_EVT_EN).testBit b = true ∧ s.on (pgAt page) PG_POP = true ∧ s.host.pop.length < 256 → (s.raise page
    b).host.pop = s.host.pop ++ [⟨nsOf s.time.h, s.host.popLost, b, page⟩] ∧ (s.raise page b).host.popLost = false ∧
    (s.raise page b).pends page b = true ∧ (s.raise page b).rd popAt POP_POP_LVL = s.host.pop.length + 1) ∧
  (∀ (s : State) (page b : Nat), page < 256 ∧ pageListed page = true ∧ b < 32 ∧ (page = 1 → b ≠ 4) ∧ s.pends page b =
    false ∧ (s.rd (pgAt page) PG_PG_EVT_EN).testBit b = true ∧ s.on (pgAt page) PG_POP = true ∧ 256 ≤
    s.host.pop.length → (s.raise page b).host.pop = s.host.pop ∧ (s.raise page b).host.popLost = true ∧ (s.raise page
    b).pends page b = true ∧ (s.raise page b).pends 1 4 = true ∧ (s.raise page b).rd pgHOST HOST_C_POP_LOST = (s.rd
    pgHOST HOST_C_POP_LOST + 1 + (!s.pends 1 4 && (s.rd pgHOST PG_PG_EVT_EN).testBit 4 && s.on pgHOST PG_POP).toNat)
    % 2 ^ 64) ∧
  (∀ (s : State) (page b : Nat), page < 256 ∧ pageListed page = true ∧ b < 32 ∧ (s.pends page b = true ∨ (s.rd (pgAt
    page) PG_PG_EVT_EN).testBit b = false ∨ s.on (pgAt page) PG_POP = false) → (s.raise page b).host.pop = s.host.pop
    ∧ (s.raise page b).host.popLost = s.host.popLost ∧ (s.raise page b).pends page b = true ∧ (s.raise page b).rd
    pgHOST HOST_C_POP_LOST = s.rd pgHOST HOST_C_POP_LOST)

/-- SRST of pages 0x004, 0x006 to 0x008, 0x014 and 0x090 to 0x0A3 clears only ERROR, PG_EVT and PG_LOCK, and SRST of
  page 0x005 also aborts a command. (R418) -/
def Obligations.SrstOfSharedUnitsClearsTheHeader : Prop :=
  (∀ (s : State) (t page sent stamp : Nat), page < 256 ∧ srstLight page = true ∧ page ≠ 5 ∧ s.reachesCtrl page
    (pageCarried page) ∧ (pageCarried page = true → s.tstate < 2) → ∃ u, exec (.softReset t page sent stamp) s =
    .next u ∧ u.rd (pgAt page) PG_ERROR = 0 ∧ u.rd (pgAt page) PG_ERR_CODE = 0 ∧ u.rd (pgAt page) PG_PG_EVT = 0 ∧
    u.rd (pgAt page) PG_LOCK = 0 ∧ u.rd (pgAt page) PG_LKEY = 0 ∧ Frame ([PG_ERROR, PG_ERR_CODE, PG_PG_EVT, PG_LOCK,
    PG_LKEY].map (fun f => (pgAt page, f)) ++ (errV page).toList.map (fun f => (pgAt page, f)) ++ [(pgSYS, sumFld
    SYS_EVT_SUM page), (pgSYS, sumFld SYS_ERR_SUM page)]) [] (s.at t) u) ∧
  (∀ (s : State) (t sent stamp : Nat) (o : SbOp), s.reachesCtrl 5 false ∧ s.sbox.op = some o → ∃ u, exec (.softReset
    t 5 sent stamp) s = .next u ∧ u.sbox.op = none ∧ u.sbox.keys = s.sbox.keys ∧ u.rd pgSBOX SBOX_OP_STATUS = 7 ∧
    u.rd pgSBOX PG_ERROR = 0 ∧ u.rd pgSBOX PG_LOCK = 0 ∧ u.sbBytes SBOX_STAGE 96 = zeros 96 ∧ u.cells = s.cells ∧
    u.del = s.del)

/-- A sealed hub becomes STANDBY by REJOIN or an ACTIVE twin's beat with AUTO_REJOIN, ACTIVE by FORCE_ACTIVE, and
  stays SEALED under every other command of its role. (R260) -/
def Obligations.ASealedHubStaysSealed : Prop :=
  (∀ (s : State) (t : Nat), s.role = 3 ∧ s.reaches 8 false → ∃ u, exec (.rejoin t false) s = .next u ∧ u.role = 1) ∧
  (∀ (s : State) (t : Nat), s.role = 3 ∧ s.reaches 8 false → ∃ u, exec (.forceActive t false) s = .next u ∧ u.role =
    (if s.twin.clash || !s.forward then 3 else 2)) ∧
  (∀ (s : State) (t role ts epoch health lpos : Nat) (join : Bool), s.role = 3 ∧ role < 4 → ∃ u, exec (.beatRx t role
    ts join epoch health lpos) s = .next u ∧ u.role = (if s.rd pgTWIN TWIN_LANES ≠ 0 ∧ role = 2 ∧ s.on pgTWIN
    TWIN_AUTO_REJOIN then 1 else 3)) ∧
  (∀ (s : State) (t : Nat), s.role = 3 → ∃ u, exec (.roleDecision t) s = .next u ∧ u.role = 3) ∧
  (∀ (s : State) (t : Nat), s.role = 3 → ∃ u, exec (.quorumCheck t) s = .next u ∧ u.role = 3) ∧
  (∀ (s : State) (t path : Nat), s.role = 3 → ∃ u, exec (.pathTimeout t path) s = .next u ∧ u.role = 3) ∧
  (∀ (s : State) (t : Nat), s.role = 3 → ∃ u, exec (.takeover t) s = .next u ∧ u.role = 3) ∧
  (∀ (s : State) (t lpos : Nat), s.role = 3 → ∃ u, exec (.relinquish t lpos) s = .next u ∧ u.role = 3) ∧
  (∀ (s : State) (t : Nat), s.role = 3 → ∃ u, exec (.handoverDrained t) s = .next u ∧ u.role = 3) ∧
  (∀ (s : State) (t : Nat), s.role = 3 → ∃ u, exec (.busHoldEnd t) s = .next u ∧ u.role = 3) ∧
  (∀ (s : State) (t lpos : Nat), s.role = 3 → ∃ u, exec (.lackFrame t lpos) s = .next u ∧ u.role = 3) ∧
  (∀ (s : State) (t : Nat), s.role = 3 → ∃ u, exec (.logTimeout t) s = .next u ∧ u.role = 3) ∧
  (∀ (s : State) (t : Nat), s.role = 3 → ∃ u, exec (.drainTimeout t) s = .next u ∧ u.role = 3) ∧
  (∀ (s : State) (t bit : Nat) (on : Bool), s.role = 3 → ∃ u, exec (.healthFault t bit on) s = .next u ∧ u.role = 3) ∧
  (∀ (s : State) (t : Nat) (others : Bool), s.role = 3 → ∃ u, exec (.seal t others) s = .next u ∧ u.role = 3) ∧
  (∀ (s : State) (t : Nat) (others : Bool), s.role = 3 → ∃ u, exec (.handover t others) s = .next u ∧ u.role = 3)

/-- Clearing and enabling event bits, the end of a vector's holdoff, and unmasking a vector do what their rows say
  and nothing else. (R383, R384, R399) -/
def Obligations.HostEventCommandsComplete : Prop :=
  (∀ (s : State) (t page : Nat) (word : Word), page < 256 → pageListed page = true → ∃ u, exec (.pgEvtClear t page
    word) s = .next u ∧ Frame [(pgAt page, PG_PG_EVT), (pgSYS, sumFld SYS_EVT_SUM page)] [] (s.at t) u ∧ (∀ b : Nat,
    b < 32 → u.pends page b = (s.pends page b && !word.getLsbD b)) ∧ (u.rd pgSYS (sumFld SYS_EVT_SUM page)).testBit
    (page % 32) = (u.rd (pgAt page) PG_PG_EVT &&& u.rd (pgAt page) PG_PG_EVT_EN != 0)) ∧
  (∀ (s : State) (t page : Nat) (word : Word), page < 256 → pageListed page = true → ∃ u, exec (.pgEvtEnWrite t page
    word) s = .next u ∧ Frame [(pgAt page, PG_PG_EVT_EN)] [page] (s.at t) u ∧ u.rd (pgAt page) PG_PG_EVT_EN =
    word.toNat ∧ (∀ b : Nat, b < 32 → s.pends page b = true → u.pends page b = true)) ∧
  (∀ (s : State) (t page b : Nat), page < 256 → pageListed page = true → b < 32 → s.pends page b = true → s.rd (pgAt
    page) PG_PG_EVT_EN = 0 → s.on (pgAt page) PG_POP = true → s.on (pgAt page) PG_MSG = false → s.host.pop.length <
    256 → ∃ u, exec (.pgEvtEnWrite t page (BitVec.ofNat 32 (2 ^ b))) s = .next u ∧ u.host.pop = s.host.pop ++ [⟨nsOf
    (s.at t).time.h, s.host.popLost, b, page⟩] ∧ u.rd popAt POP_POP_LVL = s.host.pop.length + 1 ∧ u.out = s.out) ∧
  (∀ (s : State) (t v l : Nat), v < 64 → s.host.vecWait.contains v = true → tabGet? s.host.vecLast v = some l → l +
    s.rd pgHOST (HOST_VEC_HOLDOFF_US.at v 4) * usU ≤ max s.time.clk t → ∃ u, exec (.msixHoldoffEnd t v) s = .next u ∧
    Frame [] [1] (s.at t) u ∧ u.host.vecWait = s.host.vecWait.filter (· != v) ∧ u.out = s.out ++ (if !s.on pgHOST
    (msixMask v) && Config.busMaster (max s.time.clk t) && Config.msixEnabled (max s.time.clk t) then [.msix v (s.rd
    pgHOST (msixAddr v)) (s.rd pgHOST (msixData v))] else []) ∧ (s.on pgHOST (msixMask v) = true → u.rd pgHOST
    (pbaBit v) = 1)) ∧
  (∀ (s : State) (t v : Nat), v < 64 → s.reaches 1 false → s.on pgHOST (pbaBit v) = false → ∃ u, exec (.msixUnmask t
    v) s = .next u ∧ Frame [(pgHOST, msixMask v)] [] (s.at t) u ∧ u.rd pgHOST (msixMask v) = 0) ∧
  (∀ (s : State) (t v : Nat), v < 64 → s.reaches 1 false → s.on pgHOST (pbaBit v) = true → s.rd pgHOST
    (HOST_VEC_HOLDOFF_US.at v 4) = 0 → ∃ u, exec (.msixUnmask t v) s = .next u ∧ Frame [(pgHOST, msixMask v),
    (pgHOST, pbaBit v)] [1] (s.at t) u ∧ u.rd pgHOST (msixMask v) = 0 ∧ u.out = s.out ++ (if Config.busMaster (max
    s.time.clk t) && Config.msixEnabled (max s.time.clk t) then [.msix v (s.rd pgHOST (msixAddr v)) (s.rd pgHOST
    (msixData v))] else []))

/-- A pop read takes the oldest record with the next PSEQ; refused accesses are recorded, counted and raised. (R373,
  R379, R393, R394, R395) -/
def Obligations.PopWindowAndRefusedAccesses : Prop :=
  (∀ (s : State) (t : Nat) (r : PopRec) (l : List PopRec), s.host.pop = r :: l → ∃ u, exec (.popRead t) s = .next u ∧
    u.host.pop = l ∧ u.host.pseq = (s.host.pseq + 1) % 65536 ∧ u.out = s.out ++ [.popCpl (r.ns + 2 ^ 32 + 2 ^ 34 *
    r.ovf.toNat + 2 ^ 35 * r.bit + 2 ^ 40 * r.page + 2 ^ 48 * u.host.pseq)] ∧ u.rd popAt (POP_RECOV.at (u.host.pseq %
    16) 8) = popValue r u.host.pseq % 2 ^ 64 ∧ u.rd popAt POP_POP_LVL = l.length % 512 ∧ u.rd pgHOST HOST_C_POP_READS
    = (s.rd pgHOST HOST_C_POP_READS + 1) % 2 ^ 64 ∧ RegsBut [(popAt, POP_RECOV.at (u.host.pseq % 16) 8), (popAt,
    POP_POP_LVL), (pgHOST, HOST_C_POP_READS)] [] s u) ∧
  (∀ (s : State) (t : Nat), s.host.pop = [] → ∃ u, exec (.popRead t) s = .next u ∧ u.regs = s.regs ∧ u.host = s.host
    ∧ (∃ v < 2 ^ 48, v.testBit 32 = false ∧ u.out = s.out ++ [.popCpl (v + 2 ^ 48 * s.host.pseq)])) ∧
  (∀ (s : State) (t addr : Nat), ∃ u, exec (.unsupportedAccess t addr) s = .next u ∧ u.rd pgHOST HOST_UR_ADDR = addr
    % 2 ^ 24 ∧ u.rd pgHOST HOST_C_UR_CPL = (s.rd pgHOST HOST_C_UR_CPL + 1) % 2 ^ 64 ∧ u.pends 1 6 = true ∧
    (u.out.drop s.out.length).head? = some (.hostUR (addr % 2 ^ 24)) ∧ Frame [(pgHOST, HOST_UR_ADDR), (pgHOST,
    HOST_C_UR_CPL)] [1] ((s.at t).emit (.hostUR (addr % 2 ^ 24))) u) ∧
  (∀ (s : State) (t addr : Nat), ∃ u, exec (.holeAccess t addr) s = .next u ∧ u.rd pgHOST HOST_HOLE_ADDR = addr % 2 ^
    24 ∧ u.rd pgHOST HOST_C_HOLE_ACCESS = (s.rd pgHOST HOST_C_HOLE_ACCESS + 1) % 2 ^ 64 ∧ u.pends 1 5 = true ∧ Frame
    [(pgHOST, HOST_HOLE_ADDR), (pgHOST, HOST_C_HOLE_ACCESS)] [1] (s.at t) u) ∧
  (∀ (s : State) (t : Nat), ∃ u, exec (.poisonedWrite t) s = .next u ∧ u.rd pgHOST HOST_C_POISONED_WR = (s.rd pgHOST
    HOST_C_POISONED_WR + 1) % 2 ^ 64 ∧ Frame [(pgHOST, HOST_C_POISONED_WR)] [] (s.at t) u)

/-- Ring enables, doorbells, descriptor and buffer fetches, fetch errors and raw frames have their effects. (R374,
  R386, R387, R389, R390, R391) -/
def Obligations.DescriptorRingCommandsComplete : Prop :=
  (∀ (s : State) (t ring : Nat) (rx : Bool) (word : Word), ring < 64 → s.reachesWin false → (s.setWord (ringAt (ring
    + 64 * rx.toNat)) rows_TXRING 0 word.toNat).ringBad s (ring + 64 * rx.toNat) = false → ∃ u, exec (.ringEnable t
    ring rx word) s = .next u ∧ u.rd (ringAt (ring + 64 * rx.toNat)) TXRING_EN = word.toNat % 2 ∧ u.rd (ringAt (ring
    + 64 * rx.toNat)) TXRING_TYPE = word.toNat / 2 % 2 ∧ u.rd (ringAt (ring + 64 * rx.toNat)) TXRING_ETHP =
    word.toNat / 4 % 2 ∧ u.rd (ringAt (ring + 64 * rx.toNat)) TXRING_LOG2_SIZE = word.toNat / 16 % 16 ∧ u.rd (ringAt
    (ring + 64 * rx.toNat)) TXRING_VEC = word.toNat / 256 % 64 ∧ (s.on (ringAt (ring + 64 * rx.toNat)) TXRING_EN =
    false → word.toNat % 2 = 1 → u.rd (ringAt (ring + 64 * rx.toNat)) TXRING_FAULT = 0) ∧ RegsBut ([TXRING_EN,
    TXRING_TYPE, TXRING_ETHP, TXRING_FULL_MODE, TXRING_LOG2_SIZE, TXRING_VEC, TXRING_FAULT, TXRING_RUNNING,
    TXRING_HELD].map (fun f => (ringAt (ring + 64 * rx.toNat), f)) ++ [(pgHOST, HOST_OUTSTANDING)]) [] s u ∧ u.del =
    s.del ∧ u.rx = s.rx ∧ u.cells = s.cells) ∧
  (∀ (s : State) (t ring tail : Nat), ring < 64 → s.reachesWin false → tail < s.ringSize ring → s.rd (txringAt ring)
    TXRING_LOG2_SIZE ≤ 14 → ∃ u, exec (.txRingDoorbell t ring tail) s = .next u ∧ u.rd (txringAt ring) TXRING_TAIL =
    tail ∧ RegsBut [(txringAt ring, TXRING_TAIL), (txringAt ring, TXRING_RUNNING), (txringAt ring, TXRING_HELD),
    (pgHOST, HOST_OUTSTANDING)] [] s u ∧ u.del = s.del ∧ u.rx = s.rx ∧ u.cells = s.cells) ∧
  (∀ (s : State) (t ring tail : Nat), ring < 64 → s.reachesWin false → tail < s.ringSize (64 + ring) → s.rd (rxringAt
    ring) TXRING_LOG2_SIZE ≤ 14 → ∃ u, exec (.rxRingDoorbell t ring tail) s = .next u ∧ u.rd (rxringAt ring)
    TXRING_TAIL = tail ∧ RegsBut [(rxringAt ring, TXRING_TAIL), (rxringAt ring, TXRING_RUNNING), (rxringAt ring,
    TXRING_HELD)] [] s u ∧ u.del = s.del ∧ u.rx = s.rx ∧ u.cells = s.cells) ∧
  (∀ (s : State) (t ring tail : Nat), ring < 64 → s.reachesWin false → s.ringSize ring ≤ tail → tail < 32768 → ∃ u,
    exec (.txRingDoorbell t ring tail) s = .next u ∧ Frame (refusalFields 1) [0] (s.at t) u ∧ u.on pgHOST PG_ERROR =
    true ∧ u.pends 0 0 = true) ∧
  (∀ (s : State) (t ring idx : Nat) (d : TxDesc) (raw hdr : List Byte), ring < 64 → s.txDesc? ring idx = some d →
    d.phase = 0 → s.ringRaw d.ring = false → raw.length = 16 → hdr.length = 32 → 1 ≤ leAt hdr 2 1 → leAt hdr 2 1 ≤ 8
    → leAt hdr 0 2 ≤ 2040 → leAt raw 8 2 = 32 + leAt hdr 0 2 → ∃ u, exec (.descriptorFetchDone t false ring idx raw
    hdr) s = .next u ∧ u.rd pgHOST HOST_C_DESC_FETCHED = (s.rd pgHOST HOST_C_DESC_FETCHED + 1) % 2 ^ 64 ∧ u.rd
    (ingestCtrAt 59) (ctr icITEMS) = (s.rd (ingestCtrAt 59) (ctr icITEMS) + 1) % 2 ^ 64 ∧ u.txDesc? ring idx = some
    { d with raw := raw, hdr := hdr, phase := 1 } ∧ Frame [(pgHOST, HOST_C_DESC_FETCHED), (ingestCtrAt 59, ctr
    icCAND), (ingestCtrAt 59, ctr icITEMS)] [] (s.at t) { u with host := s.host }) ∧
  (∀ (s : State) (t ring idx : Nat) (d : RxDesc) (raw hdr : List Byte), ring < 64 → s.rxDesc? ring idx = some d →
    d.ready = false → s.ringRaw (64 + ring) = false → 2072 ≤ leAt raw 8 2 → ∃ u, exec (.descriptorFetchDone t true
    ring idx raw hdr) s = .next u ∧ u.rd pgHOST HOST_C_DESC_FETCHED = (s.rd pgHOST HOST_C_DESC_FETCHED + 1) % 2 ^ 64
    ∧ u.rxDesc? ring idx = some { d with addr := leAt raw 0 8, len := leAt raw 8 2, ready := true } ∧ Frame [(pgHOST,
    HOST_C_DESC_FETCHED)] [] (s.at t) { u with host := s.host }) ∧
  (∀ (s : State) (t ring idx : Nat) (d : TxDesc) (data : List Byte), ring < 64 → s.txDesc? ring idx = some d →
    d.phase = 1 → s.ringRaw d.ring = false → ∃ u, exec (.bufferFetchDone t ring idx data) s = .next u ∧ u.rd pgHOST
    HOST_C_SUBMITTED = (s.rd pgHOST HOST_C_SUBMITTED + 1) % 2 ^ 64 ∧ (∃ c, (u.rxOf 59).cands = (s.rxOf 59).cands ++
    [c] ∧ c.port = 59 ∧ c.id = s.candNo ∧ c.body = fixLen (leAt d.hdr 0 2) data ∧ c.ingest = (s.at t).time.h ∧ c.dom
    = d.dom ∧ c.host = [leAt d.hdr 3 1 % 8, leAt d.hdr 24 4, leAt d.hdr 28 2, leAt d.hdr 2 1, d.ring, d.idx]) ∧
    u.candNo = s.candNo + 1 ∧ Frame ([(pgHOST, HOST_C_SUBMITTED), (ingestCtrAt 59, ctr icBYTES)] ++ rxFields 59) []
    (s.at t) { u with host := s.host, rx := s.rx, candNo := s.candNo }) ∧
  (∀ (s : State) (t ring idx : Nat) (d : TxDesc), ring < 64 → s.txDesc? ring idx = some d → d.phase < 2 → ∃ u, exec
    (.fetchError t false ring idx) s = .next u ∧ u.rd pgHOST HOST_C_FETCH_ERR = (s.rd pgHOST HOST_C_FETCH_ERR + 1) %
    2 ^ 64 ∧ u.rd (txringAt ring) TXRING_FAULT = 1 ∧ u.pends 1 0 = true ∧ u.txDesc? ring idx = none) ∧
  (∀ (s : State) (t ring idx : Nat) (d : RxDesc), ring < 64 → s.rxDesc? ring idx = some d → d.ready = false → ∃ u,
    exec (.fetchError t true ring idx) s = .next u ∧ u.rd pgHOST HOST_C_FETCH_ERR = (s.rd pgHOST HOST_C_FETCH_ERR +
    1) % 2 ^ 64 ∧ u.rd (rxringAt ring) TXRING_FAULT = 1 ∧ u.pends 1 0 = true ∧ u.rxDesc? ring idx = none) ∧
  (∀ (s : State) (t ring idx ago : Nat) (d : TxDesc), ring < 64 → s.txDesc? ring idx = some d → d.phase = 2 → d.ring
    = ring ∧ d.idx = idx → s.ringRaw ring = true → s.rd (ringAt ring) TXRING_ETHP = 0 → s.rd (pgETH 0) ETH_MODE ≠ 0 ∧
    s.portDown 40 = false ∧ s.on (pgETH 0) ETH_LINK = true ∧ s.on (pgETH 0) ETH_MACSEC_EN = false → d.hdr.length + 4
    ≤ s.rd (pgETH 0) ETH_MAX_FRAME → s.ethPaused 0 ((s.at t).time.h - ago) = false → ∃ u, exec (.rawFrameSent t ring
    idx ago) s = .next u ∧ (u.out.drop s.out.length).head? = some (.ethTx 40 (padFrame d.hdr)) ∧ u.rd (pgETH 0)
    ETH_C_FRAMES_TX = (s.rd (pgETH 0) ETH_C_FRAMES_TX + 1) % 2 ^ 64 ∧ u.rd pgHOST HOST_C_RAW_TX = (s.rd pgHOST
    HOST_C_RAW_TX + 1) % 2 ^ 64 ∧ (∀ e, u.txDesc? ring idx = some e → e.phase = 0))

/-- A remote access slot sends its request and returns to IDLE when acknowledged; a host interface reset discards
  what the host handed over. (R221, R222, R374, R396, R397, R398) -/
def Obligations.RemoteAccessAndHostReset : Prop :=
  (∀ (s : State) (t slot g : Nat) (word : Word), slot < 32 → s.reachesWin false → s.rd (raAt slot) RA_STATE = 0 → 1 ≤
    word.toNat / 256 % 256 ∧ word.toNat / 256 % 256 ≤ 250 → word.toNat / 4 % 2 = 0 → word.toNat / 65536 % 128 = 8 →
    s.rd (raAt slot) RA_ADDR % 8 = 0 → s.reachable (word.toNat / 256 % 256) = true → s.ring.waiting = [] ∧ s.freeTag
    = some g → ∃ u, exec (.raGo t slot word) s = .next u ∧ u.rd (raAt slot) RA_STATE = 1 ∧ u.rd (raAt slot) RA_TAG =
    g ∧ u.rd pgHOST HOST_C_RA_ISSUED = (s.rd pgHOST HOST_C_RA_ISSUED + 1) % 2 ^ 64 ∧ u.rd pgRING RING_C_REQ_ISSUED =
    (s.rd pgRING RING_C_REQ_ISSUED + 1) % 2 ^ 64 ∧ u.ring.tags = s.ring.tags ++ [(g, max s.time.clk t, ⟨word.toNat /
    256 % 256, false, 8, s.rd (raAt slot) RA_ADDR, [], .ra slot⟩)]) ∧
  (∀ (s : State) (t slot : Nat) (word : Word), slot < 32 → s.reachesWin false → (s.rd (raAt slot) RA_STATE ≠ 0 ∨
    word.toNat / 256 % 256 = 0 ∨ 250 < word.toNat / 256 % 256) → ∃ u, exec (.raGo t slot word) s = .next u ∧ Frame
    (refusalFields 1) [0] (s.at t) u ∧ u.on pgHOST PG_ERROR = true) ∧
  (∀ (s : State) (t slot : Nat), slot < 32 → s.reachesWin false → s.rd (raAt slot) RA_STATE = 2 → ∃ u, exec (.raAck t
    slot) s = .next u ∧ u.rd (raAt slot) RA_STATE = 0 ∧ u.rd pgHOST HOST_SLOTS_BUSY = (s.rd pgHOST HOST_SLOTS_BUSY +
    31) % 32 ∧ Frame [(raAt slot, RA_STATE), (pgHOST, HOST_SLOTS_BUSY)] [] (s.at t) u) ∧
  (∀ (s : State) (t : Nat), ∃ u, exec (.hostInterfaceReset t) s = .next u ∧ u.host.txd = [] ∧ u.host.rxd = [] ∧
    u.host.next = [] ∧ u.host.bells = [] ∧ (s.on pgHOST PG_POP = false → u.host.pop = s.host.pop) ∧ (∀ v : Nat, v <
    64 → u.on pgHOST (msixMask v) = true) ∧ (∀ k : Nat, k < 32 → u.rd (raAt k) RA_STATE = 0) ∧ (∀ r : Nat, r < 64 →
    u.rd (txringAt r) TXRING_EN = 0 ∧ u.rd (rxringAt r) TXRING_EN = 0) ∧ u.rd pgHOST HOST_SLOTS_BUSY = 0 ∧ u.pends 1
    7 = true ∧ u.cells = s.cells ∧ u.del.queues = s.del.queues ∧ u.conc = s.conc ∧ u.time.h = (s.at t).time.h)

/-- Clearing ERROR, locking and unlocking a page, and ENABLE, FREEZE and TEST_MODE writes have their effects; a wrong
  key and a locked page are refused. (R10, R11, R367, R375, R376, R377) -/
def Obligations.PageHeaderCommandsComplete : Prop :=
  (∀ (s : State) (t page : Nat), page < 256 → pageListed page = true → ∃ u, exec (.pgStatErrorClear t page) s = .next
    u ∧ u.rd (pgAt page) PG_ERROR = 0 ∧ u.rd (pgAt page) PG_ERR_CODE = 0 ∧ (u.rd pgSYS (sumFld SYS_ERR_SUM
    page)).testBit (page % 32) = false ∧ u.host = s.host ∧ u.out = s.out ∧ u.del = s.del) ∧
  (∀ (s : State) (t page key : Nat), page < 256 → pageListed page = true → s.on (pgAt page) PG_LOCK = false → ∃ u,
    exec (.pageLock t page key) s = .next u ∧ u.rd (pgAt page) PG_LOCK = 1 ∧ u.rd (pgAt page) PG_LKEY = key % 65536 ∧
    Frame [(pgAt page, PG_LOCK), (pgAt page, PG_LKEY)] [] (s.at t) u) ∧
  (∀ (s : State) (t page key : Nat), page < 256 → pageListed page = true → s.on (pgAt page) PG_LOCK = true → ∃ u,
    exec (.pageLock t page key) s = .next u ∧ Frame (refusalFields page) [0] (s.at t) u ∧ u.on (pgAt page) PG_ERROR =
    true) ∧
  (∀ (s : State) (t page key : Nat), page < 256 → pageListed page = true → s.on (pgAt page) PG_LOCK = true → s.rd
    (pgAt page) PG_LKEY = key % 65536 → ∃ u, exec (.pageUnlock t page key) s = .next u ∧ u.rd (pgAt page) PG_LOCK = 0
    ∧ u.rd (pgAt page) PG_LKEY = 0 ∧ Frame [(pgAt page, PG_LOCK), (pgAt page, PG_LKEY)] [] (s.at t) u) ∧
  (∀ (s : State) (t page key : Nat), page < 256 → pageListed page = true → s.on (pgAt page) PG_LOCK = true → s.rd
    (pgAt page) PG_LKEY ≠ key % 65536 → ∃ u, exec (.pageUnlock t page key) s = .next u ∧ Frame (refusalFields page)
    [0] (s.at t) u ∧ u.on (pgAt page) PG_ERROR = true ∧ u.on (pgAt page) PG_LOCK = true ∧ u.rd pgSYS
    SYS_C_LOCK_REFUSED = (s.rd pgSYS SYS_C_LOCK_REFUSED + 1) % 2 ^ 64) ∧
  (∀ (s : State) (t page : Nat) (on : Bool), page < 256 → pageListed page = true → s.reachesCtrl page (pageCarried
    page) → ∃ u, exec (.enableWrite t page on) s = .next u ∧ u.rd (pgAt page) PG_ENABLE = on.toNat ∧ u.cells =
    s.cells ∧ u.del.items = s.del.items) ∧
  (∀ (s : State) (t page : Nat) (on : Bool), page < 256 → pageListed page = true → s.on (pgAt page) PG_LOCK = true →
    s.on (pgAt page) PG_ENABLE ≠ on → ∃ u, exec (.enableWrite t page on) s = .next u ∧ Frame (refusalFields page) [0]
    (s.at t) u ∧ u.on (pgAt page) PG_ERROR = true) ∧
  (∀ (s : State) (t n : Nat) (on : Bool), n < 16 → s.reachesCtrl (0x60 + n) false → ∃ u, exec (.blockFreeze t (0x60 +
    n) on) s = .next u ∧ u.rd (pgTONG n) PG_FREEZE = on.toNat ∧ u.cells = s.cells ∧ u.del.items = s.del.items ∧ u.rx
    = s.rx) ∧
  (∀ (s : State) (t : Nat) (on : Bool), s.reachesCtrl 5 false → s.on pgSBOX PG_TEST_MODE = !on → (s.rd pgSBOX
    SBOX_SB_STATE = 1 ∨ s.rd pgSBOX SBOX_SB_STATE = 3) → ∃ u, exec (.testMode t 5 on) s = .next u ∧ u.on pgSBOX
    PG_TEST_MODE = on ∧ (u.rd pgSBOX SBOX_SB_STATE = if on then 3 else 1) ∧ Frame [(pgSBOX, PG_TEST_MODE), (pgSBOX,
    SBOX_SB_STATE)] [] (s.at t) u)

/-- SRST puts one block in reset and leaves its neighbours, its completion ends it, and power domains go down and
  come up. (R376, R417, R418, R419) -/
def Obligations.BlockResetAndPowerDomains : Prop :=
  (∀ (s : State) (t page sent stamp : Nat), page < 256 → pageListed page = true → page ≠ 0 ∧ page ≠ 1 ∧ srstLight
    page = false → s.reachesCtrl page false → s.pageDown page = false → ∃ u, exec (.softReset t page sent stamp) s =
    .next u ∧ u.rd (pgAt page) PG_IN_RESET = 1) ∧
  (∀ (s : State) (t page sent stamp : Nat), (page = 2 ∨ page = 0x70) → s.reachesCtrl page false → s.pageDown page =
    false → ∃ u, exec (.softReset t page sent stamp) s = .next u ∧ u.rd (pgAt page) PG_IN_RESET = 1 ∧ u.rd (pgAt
    page) PG_ERROR = 0 ∧ u.rd (pgAt page) PG_PG_EVT = 0 ∧ u.rd pgPWR PWR_C_SRSTS = (s.rd pgPWR PWR_C_SRSTS + 1) % 2 ^
    64 ∧ Frame ([PG_IN_RESET, PG_ERROR, PG_ERR_CODE, PG_PG_EVT, PG_LOCK, PG_LKEY].map (fun f => (pgAt page, f)) ++
    [(pgPWR, PWR_C_SRSTS), (pgSYS, sumFld SYS_ERR_SUM page), (pgSYS, sumFld SYS_EVT_SUM page)]) [] (s.at t) u) ∧
  (∀ (s : State) (t page sent stamp : Nat), page < 256 → pageListed page = true → page ≠ 5 ∧ srstLight page = true →
    s.reachesCtrl page (pageCarried page) → s.tstate < 2 → ∃ u, exec (.softReset t page sent stamp) s = .next u ∧
    u.rd (pgAt page) PG_ERROR = 0 ∧ u.rd (pgAt page) PG_PG_EVT = 0 ∧ u.rd (pgAt page) PG_LOCK = 0 ∧ u.rd (pgAt page)
    PG_IN_RESET = s.rd (pgAt page) PG_IN_RESET ∧ u.del = s.del ∧ u.conc = s.conc ∧ u.cells = s.cells ∧ u.time = (s.at
    t).time) ∧
  (∀ (s : State) (t page np late : Nat), page < 256 → s.on (pgAt page) PG_IN_RESET = true → ∃ u, exec (.softResetDone
    t page np late) s = .next u ∧ u.rd (pgAt page) PG_IN_RESET = 0 ∧ u.rd pgPWR PWR_C_RST_NP_CPL = (s.rd pgPWR
    PWR_C_RST_NP_CPL + np) % 2 ^ 64 ∧ u.rd pgPWR PWR_C_RST_LATE_CPL = (s.rd pgPWR PWR_C_RST_LATE_CPL + late) % 2 ^ 64
    ∧ (np ≠ 0 → u.pends 2 4 = true ∧ u.rd pgPWR PWR_BLK_LAST = page) ∧ u.cells = s.cells) ∧
  (∀ (s : State) (t mask : Nat), s.reaches 2 false → s.rd pgPWR PWR_PD = 0 → ∃ u, exec (.powerDown t mask) s = .next
    u ∧ (∀ d : Nat, d < 11 → (u.rd pgPWR PWR_PD).testBit d = ((domsOf mask).contains d)) ∧ (∀ d ∈ domsOf mask, ∀ p ∈
    domPages d, u.rd (pgAt p) PG_IN_RESET = 1) ∧ u.rd pgPWR PWR_PD_STAT = s.rd pgPWR PWR_PD_STAT ∧ u.cells = s.cells) ∧
  (∀ (s : State) (t d : Nat), d < 11 ∧ d ≠ 5 → (s.rd pgPWR PWR_PD).testBit d = true → (s.rd pgPWR
    PWR_PD_STAT).testBit d = false → s.rd pgPWR PWR_PD_STAT < 2 ^ 11 → ∃ u, exec (.powerDownDone t d) s = .next u ∧
    u.rd pgPWR PWR_PD_STAT = s.rd pgPWR PWR_PD_STAT + 2 ^ d ∧ u.pends 2 1 = true ∧ (∀ p ∈ domPages d, u.rd (pgAt p)
    PG_IN_RESET ≠ 1) ∧ u.cells = s.cells) ∧
  (∀ (s : State) (t mask : Nat), s.reaches 2 false → ∃ u, exec (.powerUp t mask) s = .next u ∧ (∀ d ∈ domsOf mask,
    (u.rd pgPWR PWR_PD).testBit d = false) ∧ (∀ d ∈ domsOf mask, (s.rd pgPWR PWR_PD).testBit d = true → (u.rd pgPWR
    PWR_PD_STAT).testBit d = false) ∧ u.cells = s.cells)

/-- Every device reset restarts the boot with its cause, empties the queues and keeps keys, attic and cellar; arms
  guard SRST and the wipe. (R352, R400, R404, R405, R414, R431, R432) -/
def Obligations.DeviceResetsRestartTheBoot : Prop :=
  (∀ (s : State) (t : Nat), ∃ u, exec (.powerOn t) s = .next u ∧ u.rd pgPWR PWR_BOOT_STAGE = 0 ∧ u.rd pgSYS
    SYS_RST_CAUSE = 1 ∧ u.rd pgSBOX SBOX_TAMP_LATCH = 0 ∧ u.del = State.reset.del ∧ u.rx = [] ∧ u.anvils = [] ∧
    u.conc = State.reset.conc ∧ u.host = State.reset.host ∧ u.jrnl = State.reset.jrnl ∧ u.ring = State.reset.ring ∧
    u.sbox.keys = s.sbox.keys ∧ u.attic.images = s.attic.images ∧ u.cells = s.cells ∧ u.time.h = 0) ∧
  (∀ (s : State) (t : Nat), s.sys.rstAt = none → ∃ u, exec (.resetPin t) s = .next u ∧ u.rd pgPWR PWR_BOOT_STAGE = 0
    ∧ u.rd pgSYS SYS_RST_CAUSE = 2 ∧ u.rd pgSBOX SBOX_TAMP_LATCH = s.rd pgSBOX SBOX_TAMP_LATCH ∧ u.del =
    State.reset.del ∧ u.rx = [] ∧ u.anvils = [] ∧ u.conc = State.reset.conc ∧ u.host = State.reset.host ∧ u.jrnl =
    State.reset.jrnl ∧ u.ring = State.reset.ring ∧ u.sbox.keys = s.sbox.keys ∧ u.attic.images = s.attic.images ∧
    u.cells = s.cells ∧ u.out = s.out ++ s.tong.balls.map (fun b => .tongPin b.1 none (s.at t).time.h) ++ (if
    s.sys.offAt.isSome && !s.sys.jtag then [.pwrHold true] else [])) ∧
  (∀ (s : State) (t : Nat), s.sys.rstAt = none → s.sys.offAt = none → ∃ u, exec (.supplyReset t) s = .next u ∧ u.rd
    pgPWR PWR_BOOT_STAGE = 0 ∧ u.rd pgSYS SYS_RST_CAUSE = 4 ∧ u.del = State.reset.del ∧ u.rx = [] ∧ u.anvils = [] ∧
    u.host = State.reset.host ∧ u.ring = State.reset.ring ∧ u.sbox.keys = s.sbox.keys ∧ u.attic.images =
    s.attic.images ∧ u.cells = s.cells) ∧
  (∀ (s : State) (t a : Nat), s.reachesCtrl 0 false → s.sys.devArm = some a → max s.time.clk t < a + msU →
    s.sys.rstAt = none → ∃ u, exec (.deviceSrst t) s = .next u ∧ u.rd pgPWR PWR_BOOT_STAGE = 0 ∧ u.rd pgSYS
    SYS_RST_CAUSE = 3 ∧ u.sys.devArm = none ∧ u.del = State.reset.del ∧ u.rx = [] ∧ u.anvils = [] ∧ u.host =
    State.reset.host ∧ u.ring = State.reset.ring ∧ u.sbox.keys = s.sbox.keys ∧ u.attic.images = s.attic.images ∧
    u.cells = s.cells) ∧
  (∀ (s : State) (t : Nat), s.reachesCtrl 0 false → s.sys.devArm = none → ∃ u, exec (.deviceSrst t) s = .next u ∧
    Frame (refusalFields 0) [0] (s.at t) u ∧ u.on pgSYS PG_ERROR = true) ∧
  (∀ (s : State) (t v : Nat), s.reaches 0 false → ∃ u, exec (.devrstArm t v) s = .next u ∧ u.sys.devArm = (if v %
    65536 = 0x5253 then some (max s.time.clk t) else none) ∧ Frame [] [] (s.at t) { u with sys := s.sys }) ∧
  (∀ (s : State) (t a : Nat), s.sys.devArm = some a → a + msU ≤ max s.time.clk t → ∃ u, exec (.devrstArmExpiry t) s =
    .next u ∧ u = { s.at t with sys := { s.sys with devArm := none } }) ∧
  (∀ (s : State) (t : Nat), s.reaches 4 false → ∃ u, exec (.wipeArm t 0x5749) s = .next u ∧ u.sys.wipeArm = some (max
    s.time.clk t) ∧ Frame [] [] (s.at t) { u with sys := s.sys }) ∧
  (∀ (s : State) (t a : Nat), s.sys.wipeArm = some a → a + msU ≤ max s.time.clk t → ∃ u, exec (.wipeArmExpiry t) s =
    .next u ∧ u = { s.at t with sys := { s.sys with wipeArm := none } }) ∧
  (∀ (s : State) (t a : Nat), s.reaches 4 false → s.sys.wipeArm = some a → max s.time.clk t < a + msU → s.sys.rstAt =
    none → ∃ u, exec (.wipeGo t) s = .next u ∧ u.attic.images = [] ∧ u.rd pgPWR PWR_BOOT_STAGE = 0 ∧ u.rd pgSYS
    SYS_RST_CAUSE = 6 ∧ u.del = State.reset.del ∧ u.rx = [] ∧ u.sbox.keys = s.sbox.keys) ∧
  (∀ (s : State) (t : Nat), s.reaches 4 false → s.sys.wipeArm = none → ∃ u, exec (.wipeGo t) s = .next u ∧ Frame
    (refusalFields 4) [0] (s.at t) u ∧ u.on pgATTC PG_ERROR = true ∧ u.attic.images = s.attic.images) ∧
  (∀ (s : State) (t : Nat) (first wipe hold : Bool), s.rd pgPWR PWR_BOOT_STAGE = 0 → ∃ u, exec (.resetRelease t first
    wipe hold) s = .next u ∧ u.rd pgPWR PWR_BOOT_STAGE = 1 ∧ u.on pgSYS SYS_FIRST = first ∧ u.rd pgSYS SYS_STRAPS =
    wipe.toNat + 2 * hold.toNat ∧ u.time = TimeBase.fresh (max s.time.clk t) ∧ Frame [(pgPWR, PWR_BOOT_STAGE),
    (pgSYS, SYS_FIRST), (pgSYS, SYS_STRAPS)] [] s { u with time := s.time })

/-- The boot's stages follow one another, a held boot goes on at BOOT_GO, and a commit waits, is taken at its point
  and is current once written. (R406, R408, R410, R411, R412, R413) -/
def Obligations.BootAndAtticCommitsComplete : Prop :=
  (∀ (s : State) (t : Nat) (a b : BitVec 16), s.rd pgPWR PWR_BOOT_STAGE = 1 → s.ring.hops = [] → ∃ u, exec
    (.bootStageDone t a b) s = .next u ∧ u.rd pgPWR PWR_BOOT_STAGE = 2 ∧ u.del = s.del ∧ u.cells = s.cells ∧ u.sbox =
    s.sbox ∧ u.attic = s.attic) ∧
  (∀ (s : State) (t : Nat) (a b : BitVec 16), s.rd pgPWR PWR_BOOT_STAGE = 4 → s.attic.images = [] → s.rd pgSYS
    SYS_STRAPS = 0 → s.sbox.sealKey = none → ∃ u, exec (.bootStageDone t a b) s = .next u ∧ u.rd pgPWR PWR_BOOT_STAGE
    = 5 ∧ u.rd pgATTC ATTC_STATE = 0 ∧ u.rd pgATTC ATTC_INERT_CAUSE = (if s.rd pgSYS SYS_RST_CAUSE = 6 then 3 else 1)
    ∧ u.pends 4 2 = true) ∧
  (∀ (s : State) (t : Nat) (a b : BitVec 16), s.rd pgPWR PWR_BOOT_STAGE = 5 → s.rd pgCELL CELL_CH0_STATE ≠ 1 ∧ s.rd
    pgCELL CELL_CH1_STATE ≠ 1 → (s.rd pgSYS SYS_STRAPS).testBit 1 = true → ∃ u, exec (.bootStageDone t a b) s = .next
    u ∧ u.rd pgPWR PWR_BOOT_STAGE = 6 ∧ u.pends 2 2 = true) ∧
  (∀ (s : State) (t : Nat) (a b : BitVec 16), s.rd pgPWR PWR_BOOT_STAGE = 5 → s.rd pgCELL CELL_CH0_STATE ≠ 1 ∧ s.rd
    pgCELL CELL_CH1_STATE ≠ 1 → (s.rd pgSYS SYS_STRAPS).testBit 1 = false → ∃ u, exec (.bootStageDone t a b) s =
    .next u ∧ u.rd pgPWR PWR_BOOT_STAGE = 7 ∧ u.twin.startAt = max s.time.clk t) ∧
  (∀ (s : State) (t : Nat), s.reachesCtrl 2 false → s.rd pgPWR PWR_BOOT_STAGE = 6 → ∃ u, exec (.bootGo t) s = .next u
    ∧ u.rd pgPWR PWR_BOOT_STAGE = 7 ∧ u.twin.startAt = max s.time.clk t) ∧
  (∀ (s : State) (t : Nat), s.reachesCtrl 2 false → s.rd pgPWR PWR_BOOT_STAGE ≠ 6 → ∃ u, exec (.bootGo t) s = .next u
    ∧ Frame (refusalFields 2) [0] (s.at t) u ∧ u.on pgPWR PG_ERROR = true) ∧
  (∀ (s : State) (t page : Nat), page < 256 → pageListed page = true → ∃ u, exec (.commit t page) s = .next u ∧
    u.attic = { s.attic with waiting := true } ∧ u.rd pgATTC ATTC_C_COMMITS_MERGED = (s.rd pgATTC
    ATTC_C_COMMITS_MERGED + (s.attic.waiting || s.attic.writing.isSome).toNat) % 2 ^ 64 ∧ Frame [(pgATTC,
    ATTC_C_COMMITS_MERGED)] [] (s.at t) { u with attic := s.attic }) ∧
  (∀ (s : State) (t : Nat), s.attic.waiting = true ∧ s.attic.writing = none → s.attic.lastPoint.all (fun l => decide
    (l + 100 * msU ≤ max s.time.clk t)) = true → s.bootReady true = true → ∃ u, exec (.commitTaken t) s = .next u ∧
    (∃ i, u.attic.images.getLast? = some i ∧ u.attic.writing = some i.gen ∧ i.whole = false ∧ i.fields =
    s.regs.filter (fun c => retained c.1) ∧ (∀ o ∈ s.attic.images, o.gen < i.gen) ∧ i.cpS = secOf (s.at t).time.h ∧
    i.cpNs = nsOf (s.at t).time.h) ∧ u.attic.waiting = false ∧ u.attic.lastPoint = some (max s.time.clk t) ∧ u.del =
    s.del ∧ u.cells = s.cells ∧ u.time = (s.at t).time) ∧
  (∀ (s : State) (t g : Nat) (i : AtImage), s.attic.writing = some g → s.attic.images.find? (fun i => i.gen == g) =
    some i → i.gen < 2 ^ 64 → ∃ u, exec (.commitWritten t) s = .next u ∧ u.attic.writing = none ∧ u.rd pgATTC
    ATTC_GEN = i.gen % 2 ^ ATTC_GEN.width ∧ u.rd pgATTC ATTC_FIRST_BANK = i.first % 2 ^ ATTC_FIRST_BANK.width ∧ u.rd
    pgATTC ATTC_C_COMMITS = (s.rd pgATTC ATTC_C_COMMITS + 1) % 2 ^ 64 ∧ u.pends 4 0 = true ∧ (∀ o ∈ u.attic.images,
    o.gen = g → o.whole = true) ∧ Frame ([ATTC_GEN, ATTC_FIRST_BANK, ATTC_BANK_CNT, ATTC_IMG_BYTES, ATTC_CP_S,
    ATTC_CP_NS, ATTC_C_COMMITS].map (fun f => (pgATTC, f))) [4] (s.at t) { u with attic := s.attic })

/-- The events of a UART's receive line capture, append, rewind and time out as R45 and R46 say. (R39, R41, R45, R46,
  R47, R55) -/
def Obligations.UartLineEventsComplete : Prop :=
  (∀ (s : State) (t p : Nat), p < 32 → s.on (ingestAt p) INGEST_BREAK_NOW = false → ∃ u, exec (.uartStartEdge t p) s
    = .next u ∧ (u.rxOf p).edge = (s.at t).time.h ∧ (u.rxOf p).edgeDom = s.rd pgTIME TIME_SEL_DOM ∧ (u.rxOf p).inChar
    = true ∧ (u.rxOf p).silFrom = max s.time.clk t ∧ (u.rxOf p).cands = (s.rxOf p).cands ∧ (u.rxOf p).openC = (s.rxOf
    p).openC ∧ u.rd (pgUART p) UART_RXD = 0 ∧ (s.uartHears p = true → u.rd (ingestAt p) INGEST_SILENT = 0) ∧ Frame
    ([(pgUART p, UART_RXD), (ingestAt p, INGEST_SILENT)] ++ rxFields p) [] (s.at t) { u with rx := s.rx }) ∧
  (∀ (s : State) (t p : Nat) (b : Byte), p < 32 → (s.rxOf p).inChar = true → s.uartHears p = true → ∃ u, exec
    (.uartCharacter t p b false false true) s = .next u ∧ u.rd (ingestAt p) INGEST_BREAK_NOW = 1 ∧ (u.rxOf p).openC =
    none ∧ (u.rxOf p).inChar = false ∧ (u.rxOf p).cands = (s.rxOf p).cands ∧ u.rd (ingestCtrAt p) (ctr icBREAK) =
    (s.rd (ingestCtrAt p) (ctr icBREAK) + 1) % 2 ^ 64 ∧ Frame ([(pgUART p, UART_RXD), (ingestAt p, INGEST_BREAK_NOW),
    (ingestCtrAt p, ctr icBREAK)] ++ rxFields p) [] (s.at t) { u with rx := s.rx }) ∧
  (∀ (s : State) (t p : Nat) (b : Byte) (par : Bool), p < 32 → (s.rxOf p).inChar = true → s.uartHears p = true → ∃ u,
    exec (.uartCharacter t p b par true false) s = .next u ∧ (u.rxOf p).openC = none ∧ (u.rxOf p).inChar = false ∧
    (u.rxOf p).cands = (s.rxOf p).cands ∧ u.rd (ingestCtrAt p) (ctr icLINE_ERR) = (s.rd (ingestCtrAt p) (ctr
    icLINE_ERR) + 1) % 2 ^ 64 ∧ u.rd (ingestCtrAt p) (ctr icBYTES) = (s.rd (ingestCtrAt p) (ctr icBYTES) + 1) % 2 ^
    64) ∧
  (∀ (s : State) (t p : Nat) (b : Byte), p < 32 → (s.rxOf p).inChar = true → s.uartHears p = true → (s.rxOf p).openC
    = none → (s.rxOf p).fr = frHunt → (b = 36#8 ∨ b = 33#8) → s.on (ingestAt p) INGEST_DATA7 = false → (s.rxOf
    p).level < 512 → ∃ u, exec (.uartCharacter t p b false false false) s = .next u ∧ (u.rxOf p).openC = some ⟨[b],
    s.portCfg p, (s.rxOf p).edge, (s.rxOf p).edgeDom, (s.rxOf p).edge, (s.rxOf p).edgeDom⟩ ∧ (u.rxOf p).wp = (s.rxOf
    p).wp + 1 ∧ (u.rxOf p).cands = (s.rxOf p).cands ∧ u.rd (ingestCtrAt p) (ctr icBYTES) = (s.rd (ingestCtrAt p) (ctr
    icBYTES) + 1) % 2 ^ 64 ∧ u.del = s.del ∧ u.anvils = s.anvils ∧ u.cells = s.cells ∧ u.out = s.out) ∧
  (∀ (s : State) (t p : Nat) (b : Byte) (o : OpenCand), p < 32 → (s.rxOf p).inChar = true → s.uartHears p = true →
    (s.rxOf p).openC = some o ∧ o.cfg.data7 = false ∧ s.on (ingestAt p) INGEST_DATA7 = false → o.bytes.length % 8 ≠ 0
    → (frStep o.cfg (s.rxOf p).fr b).2 = .appends → (s.rxOf p).fr.st ≠ .tagx → ∃ u, exec (.uartCharacter t p b false
    false false) s = .next u ∧ (u.rxOf p).openC = some { o with bytes := o.bytes ++ [b] } ∧ (u.rxOf p).fr = (frStep
    o.cfg (s.rxOf p).fr b).1 ∧ (u.rxOf p).cands = (s.rxOf p).cands ∧ (u.rxOf p).wp = (s.rxOf p).wp) ∧
  (∀ (s : State) (t p : Nat) (o : OpenCand), p < 32 → (s.rxOf p).openC = some o → o.cfg.icto ≠ 0 ∧ (s.rxOf p).inChar
    = false → o.cfg.icto * cfgBit3 o.cfg ≤ 3 * (max s.time.clk t - (s.rxOf p).stopAt) → ∃ u, exec (.ictoTimeout t p)
    s = .next u ∧ (u.rxOf p).openC = none ∧ (u.rxOf p).wp = (s.rxOf p).cp ∧ (u.rxOf p).fr = frHunt ∧ (u.rxOf p).cands
    = (s.rxOf p).cands ∧ u.rd (ingestCtrAt p) (ctr icICTO) = (s.rd (ingestCtrAt p) (ctr icICTO) + 1) % 2 ^ 64 ∧ Frame
    ([(ingestCtrAt p, ctr icICTO)] ++ rxFields p) [] (s.at t) { u with rx := s.rx }) ∧
  (∀ (s : State) (t p : Nat), p < 32 → s.rd (ingestAt p) INGEST_SILENT_MS ≠ 0 → s.uartHears p = true → s.on (ingestAt
    p) INGEST_SILENT = false → max (s.rxOf p).silFrom s.time.relClk + s.rd (ingestAt p) INGEST_SILENT_MS * msU ≤ max
    s.time.clk t → ∃ u, exec (.silenceTimeout t p) s = .next u ∧ u.rd (ingestAt p) INGEST_SILENT = 1 ∧ u.rd
    (ingestCtrAt p) (ctr icSILENT) = (s.rd (ingestCtrAt p) (ctr icSILENT) + 1) % 2 ^ 64 ∧ Frame [(ingestAt p,
    INGEST_SILENT), (ingestCtrAt p, ctr icSILENT)] [] (s.at t) u) ∧
  (∀ (s : State) (t p : Nat), p < 32 → ∃ u, exec (.lineGoesHigh t p) s = .next u ∧ u.rd (ingestAt p) INGEST_BREAK_NOW
    = 0 ∧ u.rd (pgUART p) UART_RXD = 1 ∧ Frame [(ingestAt p, INGEST_BREAK_NOW), (pgUART p, UART_RXD)] [] (s.at t) u)

/-- An ingest entry commits whole or not at all, and a UART sends breaks and releases its driver. (R41, R42, R43,
  R403) -/
def Obligations.IngestCommitAndUartDriver : Prop :=
  (∀ (s : State) (t p : Nat) (word : Word), p < 58 → s.reachesWin true → s.tstate < 2 → (((s.applyHeld (ingestAt p)
    rows_INGEST ingestHeld).setWord (ingestAt p) rows_INGEST 0 word.toNat).ingestLegal p) = true → ∃ u, exec
    (.ingestPortCommit t p word) s = .next u ∧ u.rd (ingestAt p) INGEST_RX_EN = word.toNat % 2 ∧ u.rd (ingestAt p)
    INGEST_TYPE = word.toNat / 2 % 8 ∧ u.rd (ingestAt p) INGEST_SMAX = word.toNat / 65536 % 2048 ∧ (∀ o ∈ ingestHeld,
    u.heldWord? (ingestAt p + o) = none) ∧ (s.heldWord? (ingestAt p + 4)).all (fun w => u.rd (ingestAt p)
    INGEST_BAUD_DIV == w % 2 ^ 24 && u.rd (ingestAt p) INGEST_PARITY == w / 2 ^ 24 % 4) = true ∧ u.del = s.del ∧
    u.cells = s.cells ∧ (u.rxOf p).cands = (s.rxOf p).cands) ∧
  (∀ (s : State) (t p : Nat) (word : Word), p < 58 → s.reachesWin true → (((s.applyHeld (ingestAt p) rows_INGEST
    ingestHeld).setWord (ingestAt p) rows_INGEST 0 word.toNat).ingestLegal p) = false → ∃ u, exec (.ingestPortCommit
    t p word) s = .next u ∧ Frame (refusalFields 0x80) [0] (s.at t) { u with held := s.held } ∧ u.on (pgAt 0x80)
    PG_ERROR = true ∧ (∀ o ∈ ingestHeld, u.heldWord? (ingestAt p + o) = none)) ∧
  (∀ (s : State) (t p : Nat) (word : Word), p < 2048 → s.bootReady true = true → s.standbyInStep = true → ∃ u, exec
    (.ingestPortCommit t p word) s = .next u ∧ Frame (refusalFields 0x80) [0] (s.at t) u ∧ u.on (pgAt 0x80) PG_ERROR
    = true) ∧
  (∀ (s : State) (t p : Nat) (word : Word), 58 ≤ p ∧ p < 64 → s.reachesWin true → ∃ u, exec (.ingestPortCommit t p
    word) s = .next u ∧ u = s.at t) ∧
  (∀ (s : State) (t p bits : Nat), p < 32 → s.reaches (0x40 + p) false → (s.lisOf p).brk = 0 → 1 ≤ bits ∧ bits <
    65536 → ∃ u, exec (.sendBreak t p bits) s = .next u ∧ (u.lisOf p).brk = bits ∧ (u.lisOf p).tx = (s.lisOf p).tx ∧
    u.rd (pgUART p) UART_TX_BUSY = 1 ∧ (s.rd (pgUART p) UART_DE_MODE = 1 → s.deAllowed = true → u.rd (pgUART p)
    UART_DE = 1)) ∧
  (∀ (s : State) (t p bits : Nat), p < 32 → s.reaches (0x40 + p) false → (s.lisOf p).brk ≠ 0 → ∃ u, exec (.sendBreak
    t p bits) s = .next u ∧ Frame (refusalFields (0x40 + p)) [0] (s.at t) u ∧ u.on (pgUART p) PG_ERROR = true) ∧
  (∀ (s : State) (t p : Nat), p < 32 → (s.lisOf p).brk ≠ 0 → s.on (pgUART p) UART_LOOP = false → s.sys.jtag = false ∧
    s.sys.banksOff.testBit 0 = false → ∃ u, exec (.breakEnd t p) s = .next u ∧ (u.lisOf p).brk = 0 ∧ u.rd (pgUART p)
    UART_C_BREAKS_SENT = (s.rd (pgUART p) UART_C_BREAKS_SENT + 1) % 2 ^ 64 ∧ u.pends (0x40 + p) 0 = true ∧
    (u.out.drop s.out.length).head? = some (.uartBreak p (s.lisOf p).brk) ∧ u.rx = s.rx ∧ u.cells = s.cells ∧
    u.del.queues = s.del.queues) ∧
  (∀ (s : State) (t p : Nat), p < 32 → s.rd (pgUART p) UART_DE_MODE = 1 ∧ s.on (pgUART p) UART_TX_BUSY = false → s.rd
    (pgUART p) UART_DE_HOLD * cfgBit3 (s.portCfg p) ≤ 3 * (max s.time.clk t - (s.lisOf p).endAt) → ∃ u, exec
    (.deHoldEnd t p) s = .next u ∧ u.rd (pgUART p) UART_DE = 0 ∧ Frame [(pgUART p, UART_DE)] [] (s.at t) u)

/-- Every snapshot command copies its counters to their snapshots at one instant, every clear zeroes them, and no
  other register changes. (R63, R65, R66, R90, R91, R111, R152, R293, R329) -/
def Obligations.CounterSnapshotsCopyAndClear : Prop :=
  (∀ (s : State) (t page : Nat) (clear : Bool), page < 256 → (snapFld page).isSome = true → s.reaches page
    (pageCarried page) → s.tstate < 2 → ∃ u, exec (.snap t page clear) s = .next u ∧ (∀ i : Nat, i < 128 → u.rd (pgAt
    page) ⟨0xC00 + 8 * i, 0, 64, 0⟩ = s.rd (pgAt page) ⟨0x800 + 8 * i, 0, 64, 0⟩ ∧ u.rd (pgAt page) ⟨0x800 + 8 * i,
    0, 64, 0⟩ = (if clear then 0 else s.rd (pgAt page) ⟨0x800 + 8 * i, 0, 64, 0⟩)) ∧ (∀ k : Nat, k / 8 < pgAt page +
    0x800 ∨ pgAt page + 0x1000 ≤ k / 8 → regLook u.regs k = regLook s.regs k) ∧ u.del = s.del ∧ u.rx = s.rx ∧ u.cells
    = s.cells ∧ u.out = s.out) ∧
  (∀ (s : State) (t page : Nat), page < 256 → (snapFld page).isSome = true → s.reaches page (pageCarried page) →
    s.tstate < 2 → ∃ u, exec (.clear t page) s = .next u ∧ (∀ i : Nat, i < 128 → u.rd (pgAt page) ⟨0x800 + 8 * i, 0,
    64, 0⟩ = 0) ∧ (∀ k : Nat, k / 8 < pgAt page + 0x800 ∨ pgAt page + 0xC00 ≤ k / 8 → regLook u.regs k = regLook
    s.regs k) ∧ u.del = s.del ∧ u.rx = s.rx ∧ u.cells = s.cells ∧ u.out = s.out) ∧
  (∀ (s : State) (t p : Nat) (all clear : Bool), p < 2048 → s.reaches 0x80 true → s.tstate < 2 → ∃ u, exec (.psnap t
    p all clear) s = .next u ∧ (∀ q ∈ [p, 0, 63, 2047], (q = p ∨ all = true) → ∀ i : Nat, i < 32 → u.rd (ingestCtrAt
    q) ⟨256 + 8 * i, 0, 64, 0⟩ = s.rd (ingestCtrAt q) (ctr i) ∧ u.rd (ingestCtrAt q) (ctr i) = (if clear then 0 else
    s.rd (ingestCtrAt q) (ctr i))) ∧ (∀ q : Nat, q < 2048 → q = p ∨ all = true → ∀ i : Nat, i < 32 → u.rd
    (ingestCtrAt q) ⟨256 + 8 * i, 0, 64, 0⟩ = s.rd (ingestCtrAt q) (ctr i)) ∧ (∀ k : Nat, k / 8 < 0x400000 ∨ 0x500000
    ≤ k / 8 → regLook u.regs k = regLook s.regs k)) ∧
  (∀ (s : State) (t p : Nat) (all : Bool), p < 2048 → s.reaches 0x80 true → s.tstate < 2 → ∃ u, exec (.pclear t p
    all) s = .next u ∧ (∀ i : Nat, i < 32 → u.rd (ingestCtrAt p) (ctr i) = 0 ∧ u.rd (ingestCtrAt p) ⟨256 + 8 * i, 0,
    64, 0⟩ = s.rd (ingestCtrAt p) ⟨256 + 8 * i, 0, 64, 0⟩) ∧ (∀ k : Nat, k / 8 < 0x400000 ∨ 0x500000 ≤ k / 8 →
    regLook u.regs k = regLook s.regs k)) ∧
  (∀ (s : State) (t f : Nat) (all clear : Bool), f < 16384 → s.reaches 0x90 true → s.tstate < 2 → ∃ u, exec (.fsnap t
    false f all clear) s = .next u ∧ (∀ i : Nat, i < 4 → u.rd (flowSnapAt f) (ctr i) = s.rd (flowCtrAt f) (ctr i) ∧
    u.rd (flowCtrAt f) (ctr i) = (if clear then 0 else s.rd (flowCtrAt f) (ctr i))) ∧ (∀ k : Nat, k / 8 < 0x500000 ∨
    0x600000 ≤ k / 8 → regLook u.regs k = regLook s.regs k)) ∧
  (∀ (s : State) (t r : Nat) (all clear : Bool), r < 2048 → s.reaches 0x91 true → s.tstate < 2 → ∃ u, exec (.fsnap t
    true r all clear) s = .next u ∧ (∀ i : Nat, i < 4 → u.rd (ruleSnapAt r) (ctr i) = s.rd (ruleCtrAt r) (ctr i) ∧
    u.rd (ruleCtrAt r) (ctr i) = (if clear then 0 else s.rd (ruleCtrAt r) (ctr i))) ∧ (∀ k : Nat, k / 8 < 0x220000 ∨
    0x240000 ≤ k / 8 → regLook u.regs k = regLook s.regs k)) ∧
  (∀ (s : State) (t f : Nat) (rule all : Bool), f < 2048 → s.reaches 0x90 true ∧ s.reaches 0x91 true → s.tstate < 2 →
    ∃ u, exec (.fclear t rule f all) s = .next u ∧ (∀ i : Nat, i < 4 → u.rd (if rule then ruleCtrAt f else flowCtrAt
    f) (ctr i) = 0) ∧ (∀ k : Nat, (k / 8 < 0x220000 ∨ 0x230000 ≤ k / 8) → (k / 8 < 0x500000 ∨ 0x580000 ≤ k / 8) →
    regLook u.regs k = regLook s.regs k)) ∧
  (∀ (s : State) (t g : Nat) (all clear : Bool), g < 512 → s.reaches 0x92 true → s.tstate < 2 → ∃ u, exec (.gsnap t g
    all clear) s = .next u ∧ (∀ i : Nat, i < 8 → u.rd (groupSnapAt g) (ctr i) = s.rd (groupCtrAt g) (ctr i) ∧ u.rd
    (groupCtrAt g) (ctr i) = (if clear then 0 else s.rd (groupCtrAt g) (ctr i))) ∧ (∀ k : Nat, k / 8 < 0x260000 ∨
    0x270000 ≤ k / 8 → regLook u.regs k = regLook s.regs k)) ∧
  (∀ (s : State) (t g : Nat) (all : Bool), g < 512 → s.reaches 0x92 true → s.tstate < 2 → ∃ u, exec (.gclear t g all)
    s = .next u ∧ (∀ i : Nat, i < 8 → u.rd (groupCtrAt g) (ctr i) = 0 ∧ u.rd (groupSnapAt g) (ctr i) = s.rd
    (groupSnapAt g) (ctr i))) ∧
  (∀ (s : State) (t q : Nat) (all : Bool), q < 16384 → s.reaches 0xA1 true → s.tstate < 2 → ∃ u, exec (.qsnap t q all
    false) s = .next u ∧ (∀ i : Nat, i < 8 → u.rd (queueSnapAt q) (ctr i) = s.rd (queueCtrAt q) (ctr i) ∧ u.rd
    (queueCtrAt q) (ctr i) = s.rd (queueCtrAt q) (ctr i)) ∧ (∀ k : Nat, k / 8 < 0xA00000 ∨ 0xC00000 ≤ k / 8 → regLook
    u.regs k = regLook s.regs k)) ∧
  (∀ (s : State) (t q : Nat) (all : Bool), q < 16384 → s.reaches 0xA1 true → s.tstate < 2 → ∃ u, exec (.qclear t q
    all) s = .next u ∧ (∀ i : Nat, i < 8 → u.rd (queueCtrAt q) (ctr i) = 0 ∧ u.rd (queueSnapAt q) (ctr i) = s.rd
    (queueSnapAt q) (ctr i))) ∧
  (∀ (s : State) (t f : Nat) (all clear : Bool), f < 16384 → s.reaches 0xA1 true → s.tstate < 2 → ∃ u, exec
    (.dispositionFsnap t f all clear) s = .next u ∧ (∀ i : Nat, i < 8 → u.rd (dispSnapAt f) (ctr i) = s.rd (dispCtrAt
    f) (ctr i) ∧ u.rd (dispCtrAt f) (ctr i) = (if clear then 0 else s.rd (dispCtrAt f) (ctr i))) ∧ (∀ k : Nat, k / 8
    < 0xC00000 ∨ 0xE00000 ≤ k / 8 → regLook u.regs k = regLook s.regs k)) ∧
  (∀ (s : State) (t f : Nat) (all : Bool), f < 16384 → s.reaches 0xA1 true → s.tstate < 2 → ∃ u, exec
    (.dispositionFclear t f all) s = .next u ∧ (∀ i : Nat, i < 8 → u.rd (dispCtrAt f) (ctr i) = 0 ∧ u.rd (dispSnapAt
    f) (ctr i) = s.rd (dispSnapAt f) (ctr i))) ∧
  (∀ (s : State) (t p : Nat) (clear : Bool), p < 2048 → (p < 58 ∨ 64 ≤ p) → s.reachesWin false → ∃ u, exec
    (.fifoFsnap t p clear) s = .next u ∧ u.rd (fifoAt p) FIFO_RX_FLUSHED_SNAP = s.rd (fifoAt p) FIFO_RX_FLUSHED ∧
    u.rd (fifoAt p) FIFO_TX_FLUSHED_SNAP = s.rd (fifoAt p) FIFO_TX_FLUSHED ∧ u.rd (fifoAt p) FIFO_RX_FLUSHED = (if
    clear then 0 else s.rd (fifoAt p) FIFO_RX_FLUSHED) ∧ u.rd (fifoAt p) FIFO_TX_FLUSHED = (if clear then 0 else s.rd
    (fifoAt p) FIFO_TX_FLUSHED) ∧ (∀ k : Nat, k / 8 < fifoAt p + 0x20 ∨ fifoAt p + 0x40 ≤ k / 8 → regLook u.regs k =
    regLook s.regs k)) ∧
  (∀ (s : State) (t p : Nat), p < 2048 → (p < 58 ∨ 64 ≤ p) → s.reachesWin false → ∃ u, exec (.fifoFclear t p) s =
    .next u ∧ u.rd (fifoAt p) FIFO_RX_FLUSHED = 0 ∧ u.rd (fifoAt p) FIFO_TX_FLUSHED = 0 ∧ Frame [(fifoAt p,
    FIFO_RX_FLUSHED), (fifoAt p, FIFO_TX_FLUSHED)] [] (s.at t) u) ∧
  (∀ (s : State) (t p : Nat) (all clear : Bool), p < 2048 → s.reaches 0x20 false → ∃ u, exec (.frameFsnap t p all
    clear) s = .next u ∧ (∀ i : Nat, i < 8 → u.rd (frameCtrAt p) ⟨64 + 8 * i, 0, 64, 0⟩ = s.rd (frameCtrAt p) (ctr i)
    % 2 ^ 64 ∧ u.rd (frameCtrAt p) (ctr i) = (if clear then 0 else s.rd (frameCtrAt p) (ctr i))) ∧ (∀ k : Nat, k / 8
    < 0xE00000 ∨ 0xE40000 ≤ k / 8 → regLook u.regs k = regLook s.regs k)) ∧
  (∀ (s : State) (t p : Nat) (all : Bool), p < 2048 → s.reaches 0x20 false → ∃ u, exec (.frameFclear t p all) s =
    .next u ∧ (∀ i : Nat, i < 8 → u.rd (frameCtrAt p) (ctr i) = 0 ∧ u.rd (frameCtrAt p) ⟨64 + 8 * i, 0, 64, 0⟩ = s.rd
    (frameCtrAt p) ⟨64 + 8 * i, 0, 64, 0⟩))

/-- SLEEP carries the wake settings over, power off keeps only what the always-on domain holds, wake causes latch
  under WAKE_EN, and the wake resets with cause WAKE. (R139, R283, R368, R369, R415, R416) -/
def Obligations.SleepAndWakeComplete : Prop :=
  (∀ (s : State) (t value : Nat), s.reaches 2 false → value % 65536 = 0x534C → s.asleep = false → s.active = false →
    s.del.queues = [] → (∀ k : Nat, k < 4 → s.rd pgTEST (TEST_SL_RSTATE.at k 32) ≠ 2) → ∃ u, exec (.sleep t value) s
    = .next u ∧ Frame [(pgPWR, PWR_BOOT_STAGE), (pgPWR, PWR_C_SLEEPS)] [] (s.at t) { u with sys := s.sys } ∧ u.sys =
    { s.sys with wakeEn := s.rd pgPWR PWR_WAKE_EN, wakeAt := s.rd pgPWR PWR_WAKE_AT, canWake := s.canOffersWake, causes := 0 }
    ∧ u.rd pgPWR PWR_BOOT_STAGE = 8 ∧ u.rd pgPWR PWR_C_SLEEPS = (s.rd pgPWR PWR_C_SLEEPS + 1) % 2 ^ 64) ∧
  (∀ (s : State) (t value : Nat), s.reaches 2 false → value % 65536 ≠ 0x534C → ∃ u, exec (.sleep t value) s = .next u
    ∧ Frame [] [] (s.at t) u) ∧
  (∀ (s : State) (t : Nat), s.reaches 2 false → s.asleep = false → s.active = true → s.inStep = true → ∃ u, exec
    (.sleep t 0x534C) s = .next u ∧ Frame (refusalFields 2) [0] (s.at t) u ∧ u.on (pgAt 2) PG_ERROR = true) ∧
  (∀ (s : State) (t : Nat), s.asleep = true → s.sys.offAt = none → ∃ u, exec (.sleepPowerOff t) s = .next u ∧ u.del =
    State.reset.del ∧ u.rx = [] ∧ u.anvils = [] ∧ u.cells = [] ∧ u.ring = State.reset.ring ∧ u.jrnl =
    State.reset.jrnl ∧ u.sys.offAt = some (max s.time.clk t) ∧ u.sys.wakeEn = s.sys.wakeEn ∧ u.sys.causes =
    s.sys.causes ∧ u.sys.aoBase = s.sys.aoBase ∧ u.rd pgPWR PWR_BOOT_STAGE = 8 ∧ u.rd pgSBOX SBOX_TAMP_LATCH = s.rd
    pgSBOX SBOX_TAMP_LATCH ∧ u.sbox.keys = s.sbox.keys ∧ u.attic.images = s.attic.images ∧ u.out = s.out ++ (if
    s.sys.jtag then [] else [.pwrHold false]) ++ s.tong.balls.map (fun b => .tongPin b.1 none (s.at t).time.h)) ∧
  (∀ (s : State) (t : Nat), s.asleep = true → s.sys.wakeEn.testBit 0 = true → ∃ u, exec (.wakeNInput t) s = .next u ∧
    Frame [] [] (s.at t) { u with sys := s.sys } ∧ u.sys = { s.sys with causes := s.sys.causes ||| 1 }) ∧
  (∀ (s : State) (t n : Nat), n < 8 → s.asleep = true → s.sys.canWake.testBit n = true → ∃ u, exec (.canWakeInSleep t
    n) s = .next u ∧ Frame [] [] (s.at t) { u with sys := s.sys } ∧ u.sys =
    { s.sys with causes := if s.sys.wakeEn.testBit (1 + n) then s.sys.causes ||| 2 ^ (1 + n) else s.sys.causes }) ∧
  (∀ (s : State) (t : Nat), s.asleep = true → s.sys.wakeEn.testBit 9 = true → s.sys.wakeAt ≤ (max s.time.clk t -
    s.sys.aoBase) * 32768 / secU % 2 ^ 48 → ∃ u, exec (.wakeTimer t) s = .next u ∧ Frame [] [] (s.at t)
    { u with sys := s.sys } ∧ u.sys = { s.sys with causes := s.sys.causes ||| 2 ^ 9 }) ∧
  (∀ (s : State) (t off : Nat), s.sys.causes ≠ 0 → s.sys.offAt = some off → off + 50 * msU ≤ max s.time.clk t →
    s.sys.rstAt = none → ∃ u, exec (.wakePowerUp t) s = .next u ∧ u.rd pgPWR PWR_BOOT_STAGE = 0 ∧ u.rd pgSYS
    SYS_RST_CAUSE = 5 ∧ u.rd pgPWR PWR_WAKE_CAUSE = s.sys.causes % 2 ^ 11 ∧ u.rd pgPWR PWR_C_WAKES = 1 ∧ u.sys.offAt
    = none ∧ u.sys.causes = 0 ∧ u.sys.aoBase = s.sys.aoBase ∧ u.rd pgSBOX SBOX_TAMP_LATCH = s.rd pgSBOX
    SBOX_TAMP_LATCH ∧ u.out = s.out ++ s.tong.balls.map (fun b => .tongPin b.1 none (s.at t).time.h) ++ (if
    s.sys.jtag then [] else [.pwrHold true])) ∧
  (∀ (s : State) (t src : Nat), src < 5 → (s.rd pgSBOX SBOX_TAMP_EN).testBit src = false → ∃ u, exec (.tamperAlarm t
    src) s = .next u ∧ Frame [(pgSBOX, SBOX_TAMP_LATCH), (pgTWIN, TWIN_HEALTH)] [] (s.at t) u ∧ u.rd pgSBOX
    SBOX_TAMP_LATCH = (s.rd pgSBOX SBOX_TAMP_LATCH ||| 2 ^ src) % 32) ∧
  (∀ (s : State) (t src : Nat), src < 5 → (s.rd pgSBOX SBOX_TAMP_EN).testBit src = true → s.asleep = true →
    s.sys.wakeEn.testBit 10 = true → ∃ u, exec (.tamperAlarm t src) s = .next u ∧ Frame [(pgSBOX, SBOX_TAMP_LATCH),
    (pgTWIN, TWIN_HEALTH)] [] (s.at t) { u with sys := s.sys, sbox := s.sbox } ∧ u.rd pgSBOX SBOX_TAMP_LATCH = (s.rd
    pgSBOX SBOX_TAMP_LATCH ||| 2 ^ src) % 32 ∧ u.sys = { s.sys with causes := s.sys.causes ||| 2 ^ 10 } ∧ u.sbox =
    { s.sbox with owed := s.sbox.owed || s.rd pgSBOX SBOX_TAMP_LATCH &&& s.rd pgSBOX SBOX_TAMP_EN == 0 })

/-- A supply warning sets and clears its SUP_WARNB bit with its event and HEALTH, a bank out of range loses its
  balls, and EXTEST, CLAMP and HIGHZ take the balls. (R253, R429, R435, R441) -/
def Obligations.SuppliesAndBoundaryScan : Prop :=
  (∀ (s : State) (t rail : Nat) (low : Bool), rail < 6 → (s.rd pgPWR PWR_SUP_WARNB).testBit rail = !low → s.rd pgPWR
    PWR_SUP_WARNB < 64 → ∃ u, exec (.supplyWarning t rail low) s = .next u ∧ Frame [(pgPWR, PWR_SUP_WARNB), (pgPWR,
    PWR_C_SUP_WARNS), (pgTWIN, TWIN_HEALTH)] [2] (s.at t) u ∧ (∀ b : Nat, b < 6 → (u.rd pgPWR PWR_SUP_WARNB).testBit
    b = (if b = rail then low else (s.rd pgPWR PWR_SUP_WARNB).testBit b)) ∧ u.rd pgPWR PWR_C_SUP_WARNS = (s.rd pgPWR
    PWR_C_SUP_WARNS + 1) % 2 ^ 64 ∧ u.pends 2 0 = true ∧ (u.rd pgTWIN TWIN_HEALTH).testBit 1 = (u.rd pgPWR
    PWR_SUP_WARNB != 0)) ∧
  (∀ (s : State) (t bank : Nat), bank < 4 → ∃ u, exec (.bankOutOfRange t bank) s = .next u ∧ u.sys =
    { s.sys with banksOff := s.sys.banksOff ||| 2 ^ bank } ∧ (u.rd pgPWR PWR_SUP_OK).testBit 5 = false ∧ RegsBut
    ([(pgPWR, PWR_SUP_OK)] ++ (List.range 64).map (fun l => (pgTONG 0, lnF TONG_LN_DRIVING l))) [] s u ∧ u.del =
    s.del ∧ u.rx = s.rx ∧ u.cells = s.cells ∧ u.ring = s.ring ∧ u.host = s.host ∧ u.can = s.can ∧ (bank = 2 → ∀ l :
    Nat, l < 64 → tabGet? u.tong.balls l = none)) ∧
  (∀ (s : State) (t instr : Nat), instr < 6 → ∃ u, exec (.jtagInstruction t instr) s = .next u ∧ (3 ≤ instr → ∀ l :
    Nat, l < 64 → tabGet? u.tong.balls l = none) ∧ u.sys = { s.sys with jtag := decide (3 ≤ instr) } ∧ RegsBut
    ((List.range 64).map (fun l => (pgTONG 0, lnF TONG_LN_DRIVING l))) [] s u ∧ u.del = s.del ∧ u.rx = s.rx ∧ u.cells
    = s.cells ∧ u.ring = s.ring ∧ u.host = s.host ∧ u.can = s.can)

/-- DISPATCH gives an anvil its port's next candidate, which it builds under the flow that its lookup finds, and a
  candidate that fails a check is refused. (R40, R52, R63, R64, R66, R69, R71) -/
def Obligations.DispatchBuildsAndChecksCandidates : Prop :=
  (∀ (s : State) (t a p f : Nat) (c : Cand), a < 16 ∧ p < 58 → s.nextCand p = some c → s.mayDispatch a p = true →
    s.follows = false → (c.src = .can ∨ c.src = .pgn ∨ c.src = .tongs) → c.remote = false ∧ c.timeOk = true ∧ c.port
    = p ∧ c.body.length ≤ 2040 → f < 16384 → s.lookupFlow (lookKey (kindOf c) p c.body) = some f → s.rd (flowAt f)
    FL_DISC_FLD = 0 → ∃ u, exec (.dispatch t a p) s = .next u ∧ tabGet? u.anvils a = some ⟨c, kindOf c, s.stampOf c,
    c.dom, false, none, none, some f, s.tblGen, max s.time.clk t⟩ ∧ u.rd (pgANV a) ANV_BUSY = 1 ∧ u.rd (pgANV a)
    ANV_CUR_PORT = p ∧ u.rd pgFLOW FLOW_C_LOOKUPS = (s.rd pgFLOW FLOW_C_LOOKUPS + 1) % 2 ^ 64 ∧ u.rd (flowCtrAt f)
    (ctr 0) = (s.rd (flowCtrAt f) (ctr 0) + 1) % 2 ^ 64 ∧ u.rd (ingestCtrAt p) (ctr icITEMS) = (s.rd (ingestCtrAt p)
    (ctr icITEMS) + 1) % 2 ^ 64 ∧ (u.rxOf p).cands = (s.rxOf p).cands ∧ (u.rxOf p).rp = (s.rxOf p).rp + c.words ∧
    RegsBut ([(pgANV a, ANV_BUSY), (pgANV a, ANV_CUR_PORT), (pgANV a, ANV_C_ITEMS_BUILT), (pgFLOW, FLOW_C_LOOKUPS),
    (flowCtrAt f, ctr 0), (ingestCtrAt p, ctr icITEMS)] ++ rxFields p) [] s u ∧ u.del = s.del ∧ u.out = s.out ∧
    u.cells = s.cells ∧ u.host = s.host) ∧
  (∀ (s : State) (t a p : Nat) (c : Cand), a < 16 ∧ p < 58 → s.nextCand p = some c → s.mayDispatch a p = true →
    s.follows = false ∧ s.active = false → (c.src = .can ∨ c.src = .pgn ∨ c.src = .tongs) → c.remote = false ∧
    c.timeOk = true ∧ c.port = p ∧ c.body.length ≤ 2040 ∧ c.cfg.passBad = false → s.lookupFlow (lookKey (kindOf c) p
    c.body) = none → ∃ u, exec (.dispatch t a p) s = .next u ∧ tabGet? u.anvils a = some ⟨c, kindOf c, s.stampOf c,
    c.dom, false, none, some (some 0x80), none, s.tblGen, max s.time.clk t⟩ ∧ u.rd pgFLOW FLOW_C_NO_FLOW = (s.rd
    pgFLOW FLOW_C_NO_FLOW + 1) % 2 ^ 64 ∧ u.rd pgFLOW FLOW_NOMATCH_LAST = p ∧ u.pends 0x90 2 = true ∧ (u.rxOf
    p).cands = (s.rxOf p).cands) ∧
  (∀ (s : State) (t a p : Nat) (c : Cand), a < 16 ∧ p < 58 → s.nextCand p = some c → s.mayDispatch a p = true →
    s.active = true ∧ s.tstate < 2 → c.port = p ∧ 2040 < c.body.length → (∀ e ∈ s.anvils, e.2.cand.id ≠ c.id) → ∃ u,
    exec (.dispatch t a p) s = .next u ∧ tabGet? u.anvils a = none ∧ u.rd (pgANV a) ANV_BUSY = 0 ∧ (u.rxOf p).cands =
    (s.rxOf p).cands.filter (fun x => !(x.id == c.id)) ∧ (u.rxOf p).fp = (s.rxOf p).fp + c.words ∧ u.rd (ingestCtrAt
    p) (ctr icREFUSED_SIZE) = (s.rd (ingestCtrAt p) (ctr icREFUSED_SIZE) + 1) % 2 ^ 64 ∧ u.rd (pgANV a)
    ANV_C_CAND_REFUSED = (s.rd (pgANV a) ANV_C_CAND_REFUSED + 1) % 2 ^ 64 ∧ u.del = s.del ∧ u.out = s.out) ∧
  (∀ (s : State) (t a p : Nat), a < 16 ∧ p < 2048 → (s.nextCand p = none ∨ s.on (pgANV a) ANV_IN_DISPATCH = false) →
    s.follows = false → ∃ u, exec (.dispatch t a p) s = .next u ∧ u = s.at t)

/-- ADMIT takes an anvil's candidate only if it is its port's oldest, numbers it, charges its cells and queues one
  reference, or refuses it. (R22, R40, R52, R84, R112, R118, R119, R139) -/
def Obligations.AdmissionTakesTheOldestCandidate : Prop :=
  (∀ (s : State) (t a f p : Nat) (b : Built), a < 16 ∧ f < 16384 ∧ p < 58 → s.forward = true ∧ s.active = true ∧
    s.tstate < 2 ∧ s.twin.wait = [] → tabGet? s.anvils a = some b ∧ b.cand.port = p ∧ b.cand.src ≠ .host ∧ s.isOldest
    b.cand = true → b.gen = s.tblGen ∧ b.passed = none ∧ b.refuse = none ∧ b.flow = some f ∧ b.kind ≠ 7 → s.quarGet
    false f = none ∧ s.quarGet true p = none ∧ s.rd (flowAt f) FL_RULE_CNT = 0 → s.on (flowAt f) FL_CONC_EN = false ∧
    s.rd pgCONC CONC_CLASH_WIN_MS = 0 → s.jBlocks = 0 ∧ s.jrnl.cur = none → s.cellFit (s.rd (flowAt f) FL_PRIO)
    (cellsFor b.cand.body.length) = .ok → s.listeners f = [] → s.on pgLARD LARD_SPILLING = false ∧ s.on pgLARD
    LARD_SPILL_FULL = false ∧ s.rd pgLARD LARD_CELLS_USED + cellsFor b.cand.body.length < s.rd pgLARD LARD_SPILL_HI →
    ∃ u, exec (.admitItem t a) s = .next u ∧ u.rd (fstateAt f) FSTATE_NEXT_SEQ = (s.rd (fstateAt f) FSTATE_NEXT_SEQ +
    1) % 2 ^ 32 ∧ (u.rxOf p).cands = (s.rxOf p).cands.filter (fun x => !(x.id == b.cand.id)) ∧ (∀ e ∈ s.anvils, e.1 =
    a ∨ e ∈ u.anvils) ∧ u.rd pgBELL BELL_C_NO_LISTENER = (s.rd pgBELL BELL_C_NO_LISTENER + 1) % 2 ^ 64 ∧ u.rd
    (dispCtrAt f) (ctr 7) = (s.rd (dispCtrAt f) (ctr 7) + 1) % 2 ^ 64 ∧ u.del.queues = s.del.queues ∧ u.del.admNo =
    s.del.admNo + 1 ∧ u.rd pgLARD LARD_CELLS_USED = s.rd pgLARD LARD_CELLS_USED ∧ u.rd (fstateAt f) FSTATE_LAST_V = 1
    ∧ u.rd (fstateAt f) FSTATE_LAST_NS = b.stamp % 1000000000) ∧
  (∀ (s : State) (t a f p l : Nat) (b : Built), a < 16 ∧ f < 16384 ∧ p < 58 ∧ 42 ≤ l ∧ l < 58 → s.forward = true ∧
    s.active = true ∧ s.tstate < 2 ∧ s.twin.wait = [] → tabGet? s.anvils a = some b ∧ b.cand.port = p ∧ b.cand.src =
    .tongs ∧ s.isOldest b.cand = true → b.gen = s.tblGen ∧ b.passed = none ∧ b.refuse = none ∧ b.flow = some f ∧
    b.kind = 6 → s.quarGet false f = none ∧ s.quarGet true p = none ∧ s.rd (flowAt f) FL_RULE_CNT = 0 → s.on (flowAt
    f) FL_CONC_EN = false ∧ s.rd pgCONC CONC_CLASH_WIN_MS = 0 → s.jBlocks = 0 ∧ s.jrnl.cur = none → s.cellFit (s.rd
    (flowAt f) FL_PRIO) (cellsFor b.cand.body.length) = .ok → s.listeners f = [l] ∧ s.rd (flowAt f) FL_REL_MODE = 0 ∧
    s.rd (flowAt f) FL_DEADLINE = 0 → s.on (lportAt l) LPORT_TX_EN = true ∧ s.on (lportAt l) LPORT_FLUSHING = false ∧
    s.rd (ingestAt l) INGEST_TYPE = 4 → b.cand.body.length ≤ s.rd (lportAt l) LPORT_TX_MAX ∧ tongWords
    b.cand.body.length ≤ s.rd (pgTONG (l - 42)) TONG_TX_LIMIT → s.rd pgBELL (BELL_POLICY.at (s.rd (flowAt f) FL_PRIO
    % 8) 4) = 0 ∧ s.rd pgLARD LARD_TALLY_USED < 262144 → (s.queueOf (8 * l + s.rd (flowAt f) FL_PRIO)).length < s.rd
    (queueAt (8 * l + s.rd (flowAt f) FL_PRIO)) QUEUE_QLIM → s.on pgLARD LARD_SPILLING = false ∧ s.on pgLARD
    LARD_SPILL_FULL = false ∧ s.rd pgLARD LARD_CELLS_USED + cellsFor b.cand.body.length < s.rd pgLARD LARD_SPILL_HI →
    ∃ u, exec (.admitItem t a) s = .next u ∧ (u.queueOf (8 * l + s.rd (flowAt f) FL_PRIO)).dropLast = s.queueOf (8 *
    l + s.rd (flowAt f) FL_PRIO) ∧ (u.queueOf (8 * l + s.rd (flowAt f) FL_PRIO)).getLast?.map (fun r => (r.flow,
    r.seq, (u.item? r.handle).map (fun x => (x.item.body, x.item.seq)))) = some (f, s.rd (fstateAt f)
    FSTATE_NEXT_SEQ, some (b.cand.body, s.rd (fstateAt f) FSTATE_NEXT_SEQ)) ∧ u.rd (fstateAt f) FSTATE_NEXT_SEQ =
    (s.rd (fstateAt f) FSTATE_NEXT_SEQ + 1) % 2 ^ 32 ∧ u.rd pgLARD LARD_CELLS_USED = s.rd pgLARD LARD_CELLS_USED +
    cellsFor b.cand.body.length) ∧
  (∀ (s : State) (t a p : Nat) (b : Built) (cause : Option Nat), a < 16 ∧ p < 2048 → s.forward = true ∧ s.active =
    true ∧ s.tstate < 2 ∧ s.twin.wait = [] → tabGet? s.anvils a = some b ∧ b.cand.port = p ∧ s.isOldest b.cand = true
    → b.refuse = some cause → ∃ u, exec (.admitItem t a) s = .next u ∧ (u.rxOf p).cands = (s.rxOf p).cands.filter
    (fun x => !(x.id == b.cand.id)) ∧ (u.rxOf p).fp = (s.rxOf p).fp + b.cand.words ∧ u.del = s.del ∧ u.conc = s.conc
    ∧ u.out = s.out) ∧
  (∀ (s : State) (t a : Nat) (b : Built), a < 16 → tabGet? s.anvils a = some b ∧ (s.isOldest b.cand = false ∨
    s.active = false) → ∃ u, exec (.admitItem t a) s = .next u ∧ u = s.at t)

/-- Golden items test an idle anvil and take a failing one out of dispatch; RX_FLUSH and TX_FLUSH empty exactly their
  port's FIFO and count the bytes. (R63, R64, R273, R325, R327, R390) -/
def Obligations.GoldenItemsAndFlushes : Prop :=
  (∀ (s : State) (t a : Nat), a < 16 → s.on (pgANV a) ANV_IN_DISPATCH = true ∧ tabGet? s.anvils a = none ∧ s.rd
    (pgANV a) ANV_GOLD_PERIOD ≠ 0 → ∃ u, exec (.goldenItem t a true) s = .next u ∧ Frame [(pgANV a, ANV_C_GOLD_RUN)]
    [] (s.at t) u ∧ u.rd (pgANV a) ANV_C_GOLD_RUN = (s.rd (pgANV a) ANV_C_GOLD_RUN + 1) % 2 ^ 64) ∧
  (∀ (s : State) (t a : Nat), a < 16 → s.on (pgANV a) ANV_IN_DISPATCH = true ∧ tabGet? s.anvils a = none ∧ s.rd
    (pgANV a) ANV_GOLD_PERIOD ≠ 0 → ∃ u, exec (.goldenItem t a false) s = .next u ∧ Frame ([(pgANV a,
    ANV_C_GOLD_RUN), (pgANV a, ANV_C_GOLD_FAIL), (pgANV a, ANV_GOLD_FAILED), (pgTWIN, TWIN_HEALTH)] ++ (List.range
    16).map (fun k => (pgANV k, ANV_IN_DISPATCH))) [0x80 + a] (s.at t) u ∧ u.rd (pgANV a) ANV_GOLD_FAILED = 1 ∧ u.rd
    (pgANV a) ANV_IN_DISPATCH = 0 ∧ u.pends (0x80 + a) 0 = true ∧ u.rd (pgANV a) ANV_C_GOLD_RUN = (s.rd (pgANV a)
    ANV_C_GOLD_RUN + 1) % 2 ^ 64 ∧ u.rd (pgANV a) ANV_C_GOLD_FAIL = (s.rd (pgANV a) ANV_C_GOLD_FAIL + 1) % 2 ^ 64) ∧
  (∀ (s : State) (t a : Nat), a < 16 → s.reaches (0x80 + a) false → ∃ u, exec (.goldFailedClear t a) s = .next u ∧
    Frame ([(pgANV a, ANV_GOLD_FAILED), (pgTWIN, TWIN_HEALTH)] ++ (List.range 16).map (fun k => (pgANV k,
    ANV_IN_DISPATCH))) [] (s.at t) u ∧ u.rd (pgANV a) ANV_GOLD_FAILED = 0 ∧ u.on (pgANV a) ANV_IN_DISPATCH =
    (s.forward && s.on (pgANV a) PG_ENABLE && !s.on (pgANV a) PG_IN_RESET)) ∧
  (∀ (s : State) (t p : Nat), (p < 58 ∨ (64 ≤ p ∧ p < 2048)) → s.reachesWin false → ∃ u, exec (.rxFlush t p) s =
    .next u ∧ (u.rxOf p).openC = none ∧ (u.rxOf p).cands = (s.rxOf p).cands.filter (fun c => s.anvilHolds c.id) ∧
    u.rd (fifoAt p) FIFO_RX_FLUSHED = (s.rd (fifoAt p) FIFO_RX_FLUSHED + (((s.rxOf p).cands.filter (fun c =>
    !s.anvilHolds c.id)).map (fun c => c.body.length)).sum + ((s.rxOf p).openC.map (fun o => o.bytes.length)).getD 0)
    % 2 ^ FIFO_RX_FLUSHED.width ∧ RegsBut ((fifoAt p, FIFO_RX_FLUSHED) :: rxFields p) [] s u ∧ u.del = s.del ∧ u.out
    = s.out ∧ u.host = s.host ∧ u.cells = s.cells ∧ u.anvils = s.anvils) ∧
  (∀ (s : State) (t p sent stamp : Nat) (k : TxPkt), p < 32 → s.reachesWin false → (s.lisOf p).tx = [k] ∧ (s.lisOf
    p).brk = 0 ∧ s.item? k.handle = none → 1 ≤ sent ∧ sent ≤ k.body.length → s.on (pgUART p) UART_LOOP = false ∧
    s.sys.jtag = false ∧ s.sys.banksOff.testBit 0 = false → ∃ u, exec (.txFlush t p sent stamp) s = .next u ∧
    (u.lisOf p).tx = [] ∧ u.rd (pgUART p) UART_TX_BUSY = 0 ∧ u.out = s.out ++ [.uartTx p (k.body.take sent)] ∧ u.rd
    (fifoAt p) FIFO_TX_FLUSHED = (s.rd (fifoAt p) FIFO_TX_FLUSHED + (k.body.length - sent)) % 2 ^
    FIFO_TX_FLUSHED.width ∧ u.rd (pgUART p) UART_C_TX_CHARS = (s.rd (pgUART p) UART_C_TX_CHARS + sent) % 2 ^ 64 ∧
    u.rx = s.rx ∧ u.cells = s.cells ∧ u.host = s.host ∧ u.del.queues = s.del.queues)

/-- RELEASE hands the reference in turn to its listener, resolves it SENT and takes it out of its queue; with no turn
  it changes nothing. (R123, R124, R127, R134, R140, R148, R322) -/
def Obligations.ReleaseHandsTheChosenItemOver : Prop :=
  (∀ (s : State) (t p q : Nat) (more : List Nat) (r : Ref) (i : Item) (e : EgBody), 42 ≤ p ∧ p < 58 → s.mayRelease =
    true ∧ s.tstate < 2 → (s.at t).turn p = .send q r i e → q / 8 = p ∧ r.stat = none ∧ r.mode = 0 ∧ i.deadline = 0 ∧
    s.on (pgAt (portPage p)) PG_IN_RESET = false → (s.item? r.handle).map (·.wb) = some none → s.leafOf i.port = none
    → ∃ u, exec (.release t p more) s = .next u ∧ (u.lisOf p).tx = (s.lisOf p).tx ++ [⟨r.handle, i.kind, i.body,
    txWords p i.body.length⟩] ∧ u.queueOf q = (s.queueOf q).filter (fun x => x.no != r.no) ∧ u.rd pgBELL
    BELL_C_RELEASES = (s.rd pgBELL BELL_C_RELEASES + 1) % 2 ^ 64 ∧ u.rd (queueCtrAt q) (ctr 0) = (s.rd (queueCtrAt q)
    (ctr 0) + 1) % 2 ^ 64 ∧ u.rx = s.rx ∧ u.cells = s.cells ∧ u.anvils = s.anvils ∧ u.conc = s.conc) ∧
  (∀ (s : State) (t p q : Nat) (leaf : Nat) (r : Ref) (i : Item) (e : EgBody), 64 ≤ p ∧ p < 2048 → s.mayRelease =
    true ∧ s.tstate < 2 → (s.at t).turn p = .send q r i e → q / 8 = p ∧ r.stat = none ∧ r.mode = 0 ∧ i.deadline = 0 ∧
    s.groupOf r.flow = none ∧ s.on pgSBOX SBOX_RA_ITEM = false → (s.item? r.handle).map (·.wb) = some none ∧ s.leafOf
    p = some leaf → ∃ u, exec (.release t p []) s = .next u ∧ u.queueOf q = (s.queueOf q).filter (fun x => x.no !=
    r.no) ∧ u.rd pgBELL BELL_C_RELEASES = (s.rd pgBELL BELL_C_RELEASES + 1) % 2 ^ 64 ∧ u.rd pgBELL BELL_C_UCAST_PKTS
    = (s.rd pgBELL BELL_C_UCAST_PKTS + 1) % 2 ^ 64 ∧ u.rd (queueCtrAt q) (ctr 0) = (s.rd (queueCtrAt q) (ctr 0) + 1)
    % 2 ^ 64 ∧ u.rx = s.rx ∧ u.cells = s.cells ∧ u.anvils = s.anvils ∧ u.conc = s.conc) ∧
  (∀ (s : State) (t p : Nat) (more : List Nat), p < 2048 → (s.mayRelease = false ∨ (s.at t).turn p = .none) → ∃ u,
    exec (.release t p more) s = .next u ∧ u = s.at t) ∧
  (∀ (s : State) (t p stamp : Nat) (k : TxPkt) (l : List TxPkt), p < 32 → (s.lisOf p).tx = k :: l ∧ s.item? k.handle
    = none → s.on (pgUART p) UART_LOOP = false ∧ s.sys.jtag = false ∧ s.sys.banksOff.testBit 0 = false → ∃ u, exec
    (.itemTransmitted t p stamp) s = .next u ∧ u.out = s.out ++ [.uartTx p k.body] ∧ (u.lisOf p).tx = l ∧ (u.lisOf
    p).endAt = max s.time.clk t ∧ u.rd (pgUART p) UART_C_TX_CHARS = (s.rd (pgUART p) UART_C_TX_CHARS + k.body.length)
    % 2 ^ 64 ∧ ((s.lisOf p).onWire = true → (u.lisOf p).onWire = false ∧ (u.lisOf p).nextOk = max s.time.clk t +
    (s.lisOf p).gap) ∧ (l = [] → (s.lisOf p).brk = 0 → u.rd (pgUART p) UART_TX_BUSY = 0) ∧ RegsBut [(pgUART p,
    UART_C_TX_CHARS), (pgUART p, UART_TX_BUSY), (fifoAt p, FIFO_TX_LEVEL), (fifoAt p, FIFO_TX_EMPTY), (fifoAt p,
    FIFO_TX_FULL)] [] s u)

/-- Expiry and class bound resolve references by their policy, holds end, boundaries are taken once, and an ALIGNED
  item near its time is fetched. (R121, R131, R132, R134, R136, R140, R142) -/
def Obligations.DeliveryTimersResolveReferences : Prop :=
  (∀ (s : State) (t : Nat), ∃ u, exec (.alignedReleaseTime t) s = .next u ∧ u = s.at t ∧ (∀ (p : Nat) (r : Ref),
    r.mode = 1 → r.inst ≤ (s.at t).time.h + (s.at t).lead p → u.alignedDue p r = true)) ∧
  (∀ (s : State) (t p h : Nat) (r : Ref) (i : LItem), p < 2048 → s.portRefs p = [r] ∧ r.mode = 1 ∧ r.stat = none ∧
    r.handle = h → s.item? h = some i ∧ i.loc = .spilled ∧ itemCells i.item ≤ s.cellsFree → r.inst ≤ (s.at t).time.h
    + (s.at t).lead p + 100 * usU → s.on pgLARD LARD_SPILLING = false ∧ s.on pgLARD LARD_SPILL_FULL = false ∧ s.rd
    pgLARD LARD_CELLS_USED + itemCells i.item < s.rd pgLARD LARD_SPILL_HI → ∃ u, exec (.alignedFetch t p) s = .next u
    ∧ u.item? h = some { i with loc := .fetching } ∧ u.rd pgLARD LARD_CELLS_USED = s.rd pgLARD LARD_CELLS_USED +
    itemCells i.item ∧ Frame [(pgLARD, LARD_CELLS_USED), (pgLARD, LARD_RESERVE_ACT), (pgLARD, LARD_C_CELLS_ALLOC)] []
    (s.at t) { u with del := s.del }) ∧
  (∀ (s : State) (t p k e : Nat), p < 2048 → s.holdOf p k = some e ∧ e ≤ (s.at t).time.h ∧ s.tstate < 2 → ∃ u, exec
    (.newestHoldEnd t p k) s = .next u ∧ u.holdOf p k = none ∧ u.del.holds = s.del.holds.filter (fun h => !(h.1 == p
    && h.2.1 == k)) ∧ Frame [(pgBELL, BELL_KEYIDX_USED)] [] (s.at t) { u with del := s.del, free := s.free }) ∧
  (∀ (s : State) (t h q : Nat) (r : Ref) (i : LItem), s.item? h = some i ∧ i.wb = none ∧ i.jrnl = true ∧ i.loc =
    .larder → s.del.queues = [(q, [r])] ∧ r.handle = h ∧ r.stat = none ∧ q < 16384 ∧ r.flow < 16384 → itemExpired
    i.item (s.at t).time.h = true ∧ s.tstate < 2 → ∃ u, exec (.deadlineExpiry t h) s = .next u ∧ u.queueOf q = [] ∧
    u.item? h = none ∧ u.rd (queueCtrAt q) (ctr 4) = (s.rd (queueCtrAt q) (ctr 4) + 1) % 2 ^ 64 ∧ u.rd pgBELL
    BELL_C_REFUSED_DEADLINE = (s.rd pgBELL BELL_C_REFUSED_DEADLINE + 1) % 2 ^ 64 ∧ u.rd (dispCtrAt r.flow) (ctr 4) =
    (s.rd (dispCtrAt r.flow) (ctr 4) + 1) % 2 ^ 64 ∧ u.rx = s.rx ∧ u.cells = s.cells ∧ u.conc = s.conc) ∧
  (∀ (s : State) (t h : Nat) (i : LItem), s.item? h = some i ∧ itemExpired i.item (s.at t).time.h = false → ∃ u, exec
    (.deadlineExpiry t h) s = .next u ∧ u = s.at t) ∧
  (∀ (s : State) (t q h code : Nat) (r : Ref) (i : LItem), q < 16384 ∧ q % 8 < 4 ∧ r.flow < 16384 → s.queueOf q = [r]
    ∧ r.handle = h ∧ r.stat = none → s.item? h = some i ∧ i.wb = none ∧ i.born + msU ≤ max s.time.clk t ∧ s.tstate <
    2 → code = (if s.rd pgBELL (BELL_POLICY.at (q % 8) 4) < 2 then 4 else 3) → ∃ u, exec (.classBoundExpiry t q h) s
    = .next u ∧ u.queueOf q = [] ∧ u.rd pgBELL BELL_C_BOUND_REFUSED = (s.rd pgBELL BELL_C_BOUND_REFUSED + 1) % 2 ^ 64
    ∧ u.rd (queueCtrAt q) (ctr code) = (s.rd (queueCtrAt q) (ctr code) + 1) % 2 ^ 64 ∧ u.rd (dispCtrAt r.flow) (ctr
    code) = (s.rd (dispCtrAt r.flow) (ctr code) + 1) % 2 ^ 64 ∧ u.pends 0xA1 2 = true ∧ u.rx = s.rx ∧ u.cells =
    s.cells ∧ u.conc = s.conc) ∧
  (∀ (s : State) (t p : Nat), p < 2048 → s.tstate < 2 ∧ s.rd (lportAt p) LPORT_STAT_PERIOD_S ≠ 0 ∧ secOf (s.at
    t).time.h % s.rd (lportAt p) LPORT_STAT_PERIOD_S = 0 → (∀ b ∈ (s.lisOf p).led.lastB.toList, b < secOf (s.at
    t).time.h) → s.on (lportAt p) LPORT_STAT_EN = false → ∃ u, exec (.statusBoundary t p) s = .next u ∧ (u.lisOf
    p).led = { (s.lisOf p).led with lastB := some (secOf (s.at t).time.h) } ∧ u.regs = s.regs ∧ u.out = s.out ∧
    u.del.queues = s.del.queues) ∧
  (∀ (s : State) (t p : Nat), p < 2048 → (s.follows = true ∨ s.rd (lportAt p) LPORT_STAT_PERIOD_S = 0 ∨ secOf (s.at
    t).time.h % s.rd (lportAt p) LPORT_STAT_PERIOD_S ≠ 0) → ∃ u, exec (.statusBoundary t p) s = .next u ∧ u = s.at t)

/-- A listener entry commits whole or is discarded, a flush resolves every queued reference REFUSED_FULL, and QLIM
  takes effect at once. (R9, R117, R126, R139, R140, R143) -/
def Obligations.ListenerSettingsAndFlushes : Prop :=
  (∀ (s : State) (t p : Nat) (word : Word), p < 58 ∧ s.reachesWin true ∧ s.tstate < 2 → ((s.applyHeld (lportAt p)
    rows_LPORT lportHeld).setWord (lportAt p) rows_LPORT 0 word.toNat).lportLegal p = true → word.getLsbD 7 = false ∧
    word.getLsbD 0 = true → ∃ u, exec (.listenerPortCommit t p word) s = .next u ∧ u = (((s.applyHeld (lportAt p)
    rows_LPORT lportHeld).setWord (lportAt p) rows_LPORT 0 word.toNat).at t) ∧ u.rd (lportAt p) LPORT_TX_EN = 1 ∧
    u.rd (lportAt p) LPORT_STAT_CLASS = (word.toNat / 256) % 8) ∧
  (∀ (s : State) (t p : Nat) (word : Word), p < 58 ∧ s.reachesWin true → ((s.applyHeld (lportAt p) rows_LPORT
    lportHeld).setWord (lportAt p) rows_LPORT 0 word.toNat).lportLegal p = false → ∃ u, exec (.listenerPortCommit t p
    word) s = .next u ∧ Frame (refusalFields 0xA1) [0] (s.at t) { u with held := s.held } ∧ u.on (pgAt 0xA1) PG_ERROR
    = true ∧ (∀ o ∈ lportHeld, u.heldWord? (lportAt p + o) = none)) ∧
  (∀ (s : State) (t p : Nat) (word : Word), (p = 58 ∨ (60 ≤ p ∧ p < 64)) → s.reachesWin true → ∃ u, exec
    (.listenerPortCommit t p word) s = .next u ∧ u = s.at t) ∧
  (∀ (s : State) (t p q : Nat) (r : Ref) (i : LItem), p < 58 ∧ s.reachesWin true ∧ s.tstate < 2 → s.del.queues = [(q,
    [r])] ∧ q / 8 = p ∧ r.stat = none ∧ r.flow < 16384 → s.item? r.handle = some i ∧ i.wb = none ∧ i.jrnl = true ∧
    i.loc = .larder → ∃ u, exec (.qflush t p) s = .next u ∧ u.del.queues = [] ∧ u.rd (lportAt p) LPORT_FLUSHING = 1 ∧
    u.rd (queueCtrAt q) (ctr 3) = (s.rd (queueCtrAt q) (ctr 3) + 1) % 2 ^ 64 ∧ u.rd pgBELL BELL_C_REFUSED_FULL =
    (s.rd pgBELL BELL_C_REFUSED_FULL + 1) % 2 ^ 64 ∧ u.rx = s.rx ∧ u.cells = s.cells ∧ u.conc = s.conc) ∧
  (∀ (s : State) (t p : Nat), p < 2048 → ∃ u, exec (.qflushComplete t p) s = .next u ∧ Frame [(lportAt p,
    LPORT_FLUSHING)] [] (s.at t) u ∧ u.rd (lportAt p) LPORT_FLUSHING = 0) ∧
  (∀ (s : State) (t q : Nat) (word : Word), q < 16384 ∧ s.reachesWin true ∧ s.tstate < 2 → word.toNat % 65536 ≠ 0 →
    s.on pgBELL (BELL_BP_EN.at (q % 8) 4) = false ∧ s.on (queueAt q) QUEUE_BP = false → ∃ u, exec (.qlimWrite t q
    word) s = .next u ∧ Frame [(queueAt q, QUEUE_QLIM), (queueAt q, QUEUE_AT_LIMIT)] [] (s.at t) u ∧ u.rd (queueAt q)
    QUEUE_QLIM = word.toNat % 65536 ∧ u.on (queueAt q) QUEUE_AT_LIMIT = decide (word.toNat % 65536 ≤ (s.queueOf
    q).length)) ∧
  (∀ (s : State) (t q : Nat) (word : Word), q < 16384 ∧ s.reachesWin true → word.toNat % 65536 = 0 → ∃ u, exec
    (.qlimWrite t q word) s = .next u ∧ Frame (refusalFields 0xA1) [0] (s.at t) u ∧ u.on (pgAt 0xA1) PG_ERROR = true)

/-- A spill write frees the larder cells of its item, and a fetch brings the item back, poisoned by an uncorrectable
  body word and discarded by an unreadable header. (R24, R33, R120, R121, R122, R334, R336) -/
def Obligations.SpillWritesAndFetches : Prop :=
  (∀ (s : State) (t h q : Nat) (r : Ref) (i : LItem), s.item? h = some i ∧ i.loc = .spilling → s.del.queues = [(q,
    [r])] ∧ r.handle = h ∧ r.stat = none ∧ q < 16384 → s.del.items = [(h, i)] ∧ s.on pgLARD LARD_SPILLING = false ∧
    s.rd pgLARD LARD_FETCH_AHEAD = 0 → s.rd pgLARD LARD_CELLS_USED ≤ 49152 → ∃ u, exec (.spillWriteDone t h) s =
    .next u ∧ u.item? h = some { i with loc := .spilled } ∧ u.rd pgLARD LARD_CELLS_USED = s.rd pgLARD LARD_CELLS_USED
    - itemCells i.item ∧ u.rd (queueAt q) QUEUE_SPILLED = 1 ∧ u.rd pgLARD LARD_C_SPILLED = (s.rd pgLARD
    LARD_C_SPILLED + 1) % 2 ^ 64 ∧ Frame [(pgLARD, LARD_CELLS_USED), (pgLARD, LARD_RESERVE_ACT), (pgLARD,
    LARD_C_SPILLED), (queueAt q, QUEUE_SPILLED), (pgCELL, CELL_C_WR_BYTES)] [] (s.at t) { u with del := s.del }) ∧
  (∀ (s : State) (t h : Nat) (i : LItem), s.item? h = some i ∧ i.loc ≠ .spilling → ∃ u, exec (.spillWriteDone t h) s
    = .next u ∧ u = s.at t) ∧
  (∀ (s : State) (t h q a : Nat) (r : Ref) (i : LItem), s.item? h = some i ∧ i.loc = .fetching → s.del.queues = [(q,
    [r])] ∧ r.handle = h ∧ r.stat = none ∧ q < 16384 → s.on pgLARD LARD_SPILL_FULL = false → ∃ u, exec
    (.spillFetchDone t h 0 a) s = .next u ∧ u.item? h = some { i with loc := .larder } ∧ u.rd (queueAt q)
    QUEUE_SPILLED = 0 ∧ u.rd pgLARD LARD_C_FETCHED = (s.rd pgLARD LARD_C_FETCHED + 1) % 2 ^ 64 ∧ Frame [(pgLARD,
    LARD_C_FETCHED), (queueAt q, QUEUE_SPILLED), (pgCELL, CELL_C_RD_BYTES)] [] (s.at t) { u with del := s.del }) ∧
  (∀ (s : State) (t h q a : Nat) (r : Ref) (i : LItem), s.item? h = some i ∧ i.loc = .fetching → s.del.queues = [(q,
    [r])] ∧ r.handle = h ∧ r.stat = none ∧ q < 16384 → s.on pgLARD LARD_SPILL_FULL = false → ∃ u, exec
    (.spillFetchDone t h 1 a) s = .next u ∧ u.item? h = some
    { i with loc := .larder, item := { i.item with poison := true } } ∧ u.rd pgCELL CELL_C_UE_WORDS = (s.rd pgCELL
    CELL_C_UE_WORDS + 1) % 2 ^ 64 ∧ u.rd pgCELL CELL_UE_ADDR = a % 2 ^ CELL_UE_ADDR.width ∧ u.pends 0xA2 1 = true) ∧
  (∀ (s : State) (t h q a : Nat) (r : Ref) (i : LItem), s.item? h = some i ∧ i.loc = .fetching ∧ i.wb = none ∧ i.jrnl
    = true → s.del.queues = [(q, [r])] ∧ r.handle = h ∧ r.stat = none ∧ q < 16384 ∧ r.flow < 16384 → s.on pgLARD
    LARD_SPILL_FULL = false ∧ s.tstate < 2 → ∃ u, exec (.spillFetchDone t h 2 a) s = .next u ∧ u.item? h = none ∧
    u.queueOf q = [] ∧ u.rd pgLARD LARD_C_HDR_DISCARD = (s.rd pgLARD LARD_C_HDR_DISCARD + 1) % 2 ^ 64 ∧ u.rd pgCELL
    CELL_C_CH_LOST = (s.rd pgCELL CELL_C_CH_LOST + 1) % 2 ^ 64 ∧ u.rd (queueCtrAt q) (ctr 3) = (s.rd (queueCtrAt q)
    (ctr 3) + 1) % 2 ^ 64)

/-- A commit of one entry copies its whole shadow to the live table, clears PENDING, counts GEN and raises
  COMMIT_DONE; a refused one changes no table. (R80, R86, R87, R90, R93, R114, R230, R249) -/
def Obligations.TableCommitsTakeEffectWhole : Prop :=
  (∀ (s : State) (t i : Nat), i < 16384 ∧ s.reaches 0x90 true ∧ s.swapping = false ∧ s.tstate < 2 → (s.copyEntry 1
    i).judgeEntry s 1 i = none → s.on (flowShAt i) FL_CONC_EN = false ∧ s.on (flowAt i) FL_CONC_EN = false → ∃ u,
    exec (.flCommit t i) s = .next u ∧ u.tookCommit s 1 i ∧ u.pends 0x90 3 = true ∧ u.del = s.del ∧ u.rx = s.rx ∧
    u.cells = s.cells ∧ u.conc = s.conc ∧ u.ring = s.ring) ∧
  (∀ (s : State) (t i : Nat), i < 2048 ∧ s.reaches 0x91 true ∧ s.swapping = false ∧ s.tstate < 2 → (s.copyEntry 2
    i).judgeEntry s 2 i = none → ∃ u, exec (.rlCommit t i) s = .next u ∧ u.tookCommit s 2 i ∧ u.pends 0x91 0 = true ∧
    u.del = s.del ∧ u.rx = s.rx ∧ u.cells = s.cells ∧ u.conc = s.conc ∧ u.ring = s.ring) ∧
  (∀ (s : State) (t i : Nat), i < 512 ∧ s.reaches 0x92 true ∧ s.swapping = false ∧ s.tstate < 2 → (s.copyEntry 3
    i).judgeEntry s 3 i = none → s.roundOf i = none → ∃ u, exec (.gcCommit t i) s = .next u ∧ u.tookCommit s 3 i ∧
    u.pends 0x92 4 = true ∧ u.del = s.del ∧ u.rx = s.rx ∧ u.cells = s.cells ∧ u.conc = s.conc ∧ u.ring = s.ring) ∧
  (∀ (s : State) (t i : Nat), i < 16384 ∧ s.reaches 0xA1 true ∧ s.swapping = false ∧ s.tstate < 2 → (s.copyEntry 4
    i).judgeEntry s 4 i = none → s.listPend = [] → ∃ u, exec (.sbCommit t i) s = .next u ∧ u.tookCommit s 4 i ∧
    u.pends 0xA1 4 = true ∧ u.del = s.del ∧ u.rx = s.rx ∧ u.cells = s.cells ∧ u.conc = s.conc ∧ u.ring = s.ring) ∧
  (∀ (s : State) (t i : Nat), i < 4096 ∧ s.reaches 0x14 true ∧ s.swapping = false ∧ s.tstate < 2 → (s.copyEntry 6
    i).judgeEntry s 6 i = none → s.mlistPend = [] ∧ s.active = false → ∃ u, exec (.mgCommit t i) s = .next u ∧
    u.tookCommit s 6 i ∧ u.pends 0x14 10 = true ∧ u.del = s.del ∧ u.rx = s.rx ∧ u.cells = s.cells ∧ u.conc = s.conc ∧
    u.ring.hops = s.ring.hops ∧ u.ring.tags = s.ring.tags) ∧
  (∀ (s : State) (t i : Nat), i < 16384 ∧ s.reaches 0x90 true ∧ s.swapping = false → ((s.copyEntry 1 i).judgeEntry s
    1 i).isSome = true → ∃ u, exec (.flCommit t i) s = .next u ∧ Frame ([(pgFLOW, FLOW_C_COMMIT_REFUSED), (pgFLOW,
    FLOW_ERR_INDEX), (pgFLOW, FLOW_ERR_V), (pgFLOW, FLOW_DUP), (pgFLOW, FLOW_DUP_OF)] ++ refusalFields 0x90) [0]
    (s.at t) u ∧ u.rd pgFLOW FLOW_ERR_INDEX = i ∧ u.rd pgFLOW FLOW_ERR_V = 1 ∧ u.on (pgAt 0x90) PG_ERROR = true) ∧
  (∀ (s : State) (t i : Nat), i < 2048 ∧ s.reaches 0x91 true ∧ s.swapping = false → ((s.copyEntry 2 i).judgeEntry s 2
    i).isSome = true → ∃ u, exec (.rlCommit t i) s = .next u ∧ Frame ([(pgFLOW, FLOW_C_COMMIT_REFUSED), (pgRULE,
    RULE_ERR_INDEX), (pgRULE, RULE_ERR_V)] ++ refusalFields 0x91) [0] (s.at t) u ∧ u.rd pgRULE RULE_ERR_INDEX = i ∧
    u.rd pgRULE RULE_ERR_V = 1 ∧ u.on (pgAt 0x91) PG_ERROR = true) ∧
  (∀ (s : State) (t i : Nat), i < 16384 ∧ s.reaches 0x90 true ∧ s.swapping = true → ∃ u, exec (.flCommit t i) s =
    .next u ∧ Frame [] [] (s.at t) { u with swapHeld := s.swapHeld } ∧ u.swapHeld = s.swapHeld ++ [(pgFLOW + 0x40,
    i)])

/-- SHADOW_SWAP commits the pending entries of its page's tables together and reads 1 until the swap is done, which
  raises COMMIT_DONE and applies what was held. (R86, R87, R90, R91, R111, R150, R230) -/
def Obligations.BatchSwapsCommitEveryPendingEntry : Prop :=
  (∀ (s : State) (t i : Nat), s.reachesCtrl 0x90 true ∧ s.swapping = false ∧ s.tstate < 2 → [1, 2, 3, 4, 5, 6,
    7].flatMap s.pendOf = [(1, i)] → (s.copyEntry 1 i).judgeEntry s 1 i = none → i < 16384 ∧ s.on (flowShAt i)
    FL_CONC_EN = false ∧ s.on (flowAt i) FL_CONC_EN = false → ∃ u, exec (.flowShadowSwap t) s = .next u ∧
    u.tookCommit s 1 i ∧ u.rd (pgAt 0x90) PG_SHADOW_SWAP = 1 ∧ u.del = s.del ∧ u.rx = s.rx ∧ u.cells = s.cells ∧
    u.conc = s.conc) ∧
  (∀ (s : State) (t i : Nat), s.reachesCtrl 0x92 true ∧ s.swapping = false ∧ s.tstate < 2 → s.pendOf 3 = [(3, i)] →
    (s.copyEntry 3 i).judgeEntry s 3 i = none → i < 512 ∧ s.roundOf i = none → ∃ u, exec (.concShadowSwap t) s =
    .next u ∧ u.tookCommit s 3 i ∧ u.rd (pgAt 0x92) PG_SHADOW_SWAP = 1 ∧ u.del = s.del ∧ u.rx = s.rx ∧ u.cells =
    s.cells ∧ u.conc = s.conc) ∧
  (∀ (s : State) (t i : Nat), s.reachesCtrl 0xA1 true ∧ s.swapping = false ∧ s.tstate < 2 → s.pendOf 4 = [(4, i)] →
    (s.copyEntry 4 i).judgeEntry s 4 i = none → i < 16384 ∧ s.listPend = [] → ∃ u, exec (.bellShadowSwap t) s = .next
    u ∧ u.tookCommit s 4 i ∧ u.rd (pgAt 0xA1) PG_SHADOW_SWAP = 1 ∧ u.del = s.del ∧ u.rx = s.rx ∧ u.cells = s.cells ∧
    u.conc = s.conc) ∧
  (∀ (s : State) (t i : Nat), s.reachesCtrl 0x14 true ∧ s.swapping = false ∧ s.tstate < 2 → s.pendOf 6 = [(6, i)] →
    (s.copyEntry 6 i).judgeEntry s 6 i = none → i < 4096 ∧ s.mlistPend = [] ∧ s.active = false → ∃ u, exec
    (.ringShadowSwap t) s = .next u ∧ u.tookCommit s 6 i ∧ u.rd (pgAt 0x14) PG_SHADOW_SWAP = 1 ∧ u.del = s.del ∧ u.rx
    = s.rx ∧ u.cells = s.cells ∧ u.conc = s.conc) ∧
  (∀ (s : State) (t : Nat), s.reachesCtrl 0x91 true ∧ s.swapping = false ∧ s.tstate < 2 → (∀ e ∈ s.pendOf 2,
    ((s.pendOf 2).foldl (fun x e => x.copyEntry e.1 e.2) s).judgeEntry s e.1 e.2 = none) → (s.pendOf 2).Nodup → ∃ u,
    exec (.ruleShadowSwap t) s = .next u ∧ (∀ e ∈ s.pendOf 2, (∀ r ∈ rows_RL, r.acc = .rwa → u.rd (ruleAt e.2) r.fld
    = s.rd (ruleShAt e.2) r.fld % 2 ^ r.fld.width) ∧ u.rd (ruleShAt e.2) RL_PENDING = 0 ∧ u.rd (ruleAt e.2) RL_GEN =
    (s.rd (ruleAt e.2) RL_GEN + 1) % 2 ^ RL_GEN.width) ∧ u.rd (pgAt 0x91) PG_SHADOW_SWAP = 1 ∧ u.tblGen = s.tblGen +
    1 ∧ u.del = s.del ∧ u.rx = s.rx ∧ u.conc = s.conc) ∧
  (∀ (s : State) (t : Nat), s.reachesCtrl 0x90 true ∧ s.swapping = true → ∃ u, exec (.flowShadowSwap t) s = .next u ∧
    u = s.at t) ∧
  (∀ (s : State) (t page : Nat), page ∈ swapPages ∧ s.on (pgAt page) PG_SHADOW_SWAP = true ∧ s.swapHeld = [] → ∃ u,
    exec (.tableSwapDone t page) s = .next u ∧ Frame [(pgAt page, PG_SHADOW_SWAP)] [page] (s.at t) u ∧ u.rd (pgAt
    page) PG_SHADOW_SWAP = 0 ∧ u.pends page (doneBit page) = true)

/-- An expired round closes with its outcome, FORCE_OUT and FORCE_IN set one member's LIVE bit and clear its runs,
  and QUAR_CTRL starts and ends quarantines. (R84, R85, R90, R95, R97, R99, R100, R106, R111) -/
def Obligations.ConcordRoundsAndQuarantines : Prop :=
  (∀ (s : State) (t g o : Nat) (r : Round), g < 512 ∧ s.roundOf g = some r ∧ r.outcome = some o ∧ o < 6 ∧ r.exp ≤
    (s.at t).time.h ∧ s.tstate < 2 → s.rd (groupAt g) GROUP_PROV < 2 ∧ s.rd (groupAt g) GROUP_STAT_MODE = 0 → ∃ u,
    exec (.roundExpiry t g) s = .next u ∧ u.roundOf g = none ∧ u.rd (gstateAt g) GSTATE_OPEN = 0 ∧ u.rd (gstateAt g)
    GSTATE_OUTCOME = o % 2 ^ GSTATE_OUTCOME.width ∧ u.rd (gstateAt g) GSTATE_ROUND = (s.rd (gstateAt g) GSTATE_ROUND
    + 1) % 2 ^ GSTATE_ROUND.width ∧ u.rd (groupCtrAt g) (ctr 0) = (s.rd (groupCtrAt g) (ctr 0) + 1) % 2 ^ 64 ∧ (o =
    ocNO_QUORUM ∨ o = ocDISAGREE → u.pends 0x92 2 = true) ∧ u.del = s.del ∧ u.rx = s.rx ∧ u.cells = s.cells ∧
    u.anvils = s.anvils) ∧
  (∀ (s : State) (t g : Nat) (r : Round), g < 512 ∧ s.roundOf g = some r ∧ r.outcome = none ∧ r.exp ≤ (s.at t).time.h
    ∧ s.tstate < 2 → s.choose (s.liveGroup g) r = (ocNO_QUORUM, none) → s.rd (groupAt g) GROUP_PROV < 2 ∧ s.rd
    (groupAt g) GROUP_STAT_MODE = 0 → ∃ u, exec (.roundExpiry t g) s = .next u ∧ u.roundOf g = none ∧ u.rd (gstateAt
    g) GSTATE_OUTCOME = ocNO_QUORUM ∧ u.pends 0x92 2 = true ∧ u.rd (groupCtrAt g) (ctr 2) = (s.rd (groupCtrAt g) (ctr
    2) + 1) % 2 ^ 64 ∧ u.del = s.del ∧ u.rx = s.rx ∧ u.cells = s.cells) ∧
  (∀ (s : State) (t g : Nat) (r : Round), g < 512 ∧ s.roundOf g = some r ∧ (s.at t).time.h < r.exp → ∃ u, exec
    (.roundExpiry t g) s = .next u ∧ u = s.at t) ∧
  (∀ (s : State) (t g m : Nat), g < 512 ∧ m < 4 ∧ s.reaches 0x92 true ∧ s.tstate < 2 → (s.liveGroup g).valid = true ∧
    (s.groupMembers g).any (fun x => x.1 == m) = true ∧ s.rd (gstateAt g) GSTATE_LIVE < 16 → ∃ u, exec (.forceOut t g
    m false) s = .next u ∧ Frame [(gstateAt g, GSTATE_LIVE), (gstateAt g, GSTATE_RUNS)] [] (s.at t) u ∧ (∀ k : Nat, k
    < 4 → (u.rd (gstateAt g) GSTATE_LIVE).testBit k = (if k = m then false else (s.rd (gstateAt g)
    GSTATE_LIVE).testBit k)) ∧ missRun (u.rd (gstateAt g) GSTATE_RUNS) m = 0 ∧ backRun (u.rd (gstateAt g)
    GSTATE_RUNS) m = 0) ∧
  (∀ (s : State) (t g m : Nat) (both : Bool), g < 512 ∧ m < 4 ∧ s.reaches 0x92 true → (both = true ∨ (s.liveGroup
    g).valid = false ∨ (s.groupMembers g).any (fun x => x.1 == m) = false) → ∃ u, exec (.forceOut t g m both) s =
    .next u ∧ Frame (refusalFields 0x92) [0] (s.at t) u ∧ u.on (pgAt 0x92) PG_ERROR = true) ∧
  (∀ (s : State) (t g m : Nat), g < 512 ∧ m < 4 ∧ s.reaches 0x92 true ∧ s.tstate < 2 → (s.liveGroup g).valid = true ∧
    (s.groupMembers g).any (fun x => x.1 == m) = true ∧ s.rd (gstateAt g) GSTATE_LIVE < 16 → ∃ u, exec (.forceIn t g
    m false) s = .next u ∧ Frame [(gstateAt g, GSTATE_LIVE), (gstateAt g, GSTATE_RUNS)] [] (s.at t) u ∧ (∀ k : Nat, k
    < 4 → (u.rd (gstateAt g) GSTATE_LIVE).testBit k = (if k = m then true else (s.rd (gstateAt g)
    GSTATE_LIVE).testBit k)) ∧ missRun (u.rd (gstateAt g) GSTATE_RUNS) m = 0 ∧ backRun (u.rd (gstateAt g)
    GSTATE_RUNS) m = 0) ∧
  (∀ (s : State) (t g m : Nat) (both : Bool), g < 512 ∧ m < 4 ∧ s.reaches 0x92 true → (both = true ∨ (s.liveGroup
    g).valid = false ∨ (s.groupMembers g).any (fun x => x.1 == m) = false) → ∃ u, exec (.forceIn t g m both) s =
    .next u ∧ Frame (refusalFields 0x92) [0] (s.at t) u ∧ u.on (pgAt 0x92) PG_ERROR = true) ∧
  (∀ (s : State) (t i : Nat), i < 16384 ∧ s.reaches 0x90 true ∧ s.tstate < 2 → ∃ u, exec (.quarEnter t false false i)
    s = .next u ∧ (s.quarGet false i = none → u.quarGet false i = some none) ∧ u.rd pgFLOW FLOW_QUAR_LAST = i ∧ u.rd
    pgFLOW FLOW_QUAR_LAST_PORT = 0 ∧ u.pends 0x90 0 = true ∧ Frame ([(pgFLOW, FLOW_QUAR_LAST), (pgFLOW,
    FLOW_QUAR_LAST_PORT), (flowCtrAt i, ctr 2)] ++ [FSTATE_QUAR, FSTATE_QEND_NS, FSTATE_QEND_S, FSTATE_SLOT0_V,
    FSTATE_SLOT1_V, FSTATE_LAST_V, FSTATE_FRUN0, FSTATE_FRUN1].map (fun f => (fstateAt i, f))) [0x90] (s.at t) u) ∧
  (∀ (s : State) (t i : Nat), i < 2048 ∧ s.reaches 0x90 true ∧ s.tstate < 2 → ∃ u, exec (.quarEnter t true false i) s
    = .next u ∧ (s.quarGet true i = none → u.quarGet true i = some none) ∧ u.rd pgFLOW FLOW_QUAR_LAST = i ∧ u.rd
    pgFLOW FLOW_QUAR_LAST_PORT = 1 ∧ u.pends 0x90 0 = true ∧ Frame [(pgFLOW, FLOW_QUAR_LAST), (pgFLOW,
    FLOW_QUAR_LAST_PORT), (pquarAt i, PQUAR_V), (pquarAt i, PQUAR_NS), (pquarAt i, PQUAR_S)] [0x90] (s.at t) u) ∧
  (∀ (s : State) (t i : Nat), i < 16384 ∧ s.reaches 0x90 true ∧ s.tstate < 2 ∧ (s.quarGet false i).isSome = true → ∃
    u, exec (.quarRelease t false false i) s = .next u ∧ u.quarGet false i = none ∧ u.pends 0x90 1 = true ∧ Frame
    [(fstateAt i, FSTATE_QUAR)] [0x90] (s.at t) u) ∧
  (∀ (s : State) (t i : Nat), i < 2048 ∧ s.reaches 0x90 true ∧ s.tstate < 2 ∧ (s.quarGet true i).isSome = true → ∃ u,
    exec (.quarRelease t true false i) s = .next u ∧ u.quarGet true i = none ∧ u.pends 0x90 1 = true ∧ Frame
    [(pquarAt i, PQUAR_V)] [0x90] (s.at t) u) ∧
  (∀ (s : State) (t i : Nat) (port both : Bool), s.reaches 0x90 true → (both = true ∨ (if port then 2048 else 16384)
    ≤ i) → ∃ u, exec (.quarEnter t port both i) s = .next u ∧ Frame (refusalFields 0x90) [0] (s.at t) u ∧ u.on (pgAt
    0x90) PG_ERROR = true) ∧
  (∀ (s : State) (t i : Nat) (port both : Bool), s.reaches 0x90 true → (both = true ∨ (if port then 2048 else 16384)
    ≤ i) → ∃ u, exec (.quarRelease t port both i) s = .next u ∧ Frame (refusalFields 0x90) [0] (s.at t) u ∧ u.on
    (pgAt 0x90) PG_ERROR = true)

/-- H is set once, stepped at the millisecond update, captured and sent in TIME_SYNC, and no set or step moves a
  domain's time. (R15, R154, R155, R160, R161, R167, R178, R184) -/
def Obligations.TimeBaseIsSetSteppedAndCaptured : Prop :=
  (∀ (s : State) (t d : Nat), s.reaches 6 false ∧ s.on pgTIME TIME_H_VALID = false → d = instant (s.rd pgTIME
    TIME_SET_S) (s.rd pgTIME TIME_SET_NS) 0 → ∃ u, exec (.setGo t) s = .next u ∧ u.time =
    { (s.at t).time with h := d } ∧ u.rd pgTIME TIME_H_VALID = 1 ∧ u.pends 6 0 = true ∧ (∀ x : Nat, x < 2 → u.rd
    pgTIME (domF TIME_DOM_OFS x) = ofSigned 64 (s.ofs x - ((d : Int) - (s.at t).time.h)) % 2 ^ 64) ∧ Frame [(pgTIME,
    TIME_H_VALID), (pgTIME, domF TIME_DOM_OFS 0), (pgTIME, domF TIME_DOM_OFS 1)] [6] (s.at t)
    { u with time := (s.at t).time }) ∧
  (∀ (s : State) (t : Nat), s.reaches 6 false ∧ s.on pgTIME TIME_H_VALID = true → ∃ u, exec (.setGo t) s = .next u ∧
    Frame (refusalFields 6) [0] (s.at t) u ∧ u.on (pgAt 6) PG_ERROR = true) ∧
  (∀ (s : State) (t : Nat), s.reaches 6 false ∧ s.on pgTIME TIME_H_VALID = true ∧ s.on pgTIME TIME_H_SRC = false ∧
    s.on pgTIME TIME_STEP_PEND = false → (s.rdI pgTIME TIME_STEP_NS).natAbs < 1000000000 → ∃ u, exec (.stepGo t) s =
    .next u ∧ u.time.step = some (s.rdI pgTIME TIME_STEP_S * secU + s.rdI pgTIME TIME_STEP_NS * nsU) ∧ u.rd pgTIME
    TIME_STEP_PEND = 1 ∧ u.time.h = (s.at t).time.h ∧ Frame [(pgTIME, TIME_STEP_PEND)] [] (s.at t)
    { u with time := (s.at t).time }) ∧
  (∀ (s : State) (t : Nat), s.reaches 6 false → (s.on pgTIME TIME_H_VALID = false ∨ s.on pgTIME TIME_H_SRC = true ∨
    s.on pgTIME TIME_STEP_PEND = true ∨ 1000000000 ≤ (s.rdI pgTIME TIME_STEP_NS).natAbs) → ∃ u, exec (.stepGo t) s =
    .next u ∧ Frame (refusalFields 6) [0] (s.at t) u ∧ u.on (pgAt 6) PG_ERROR = true) ∧
  (∀ (s : State) (t : Nat) (d : Int), s.time.step = some d → ∃ u, exec (.msUpdate t) s = .next u ∧ u.time.step = none
    ∧ u.time.h = ((s.at t).time.h + d).toNat ∧ u.rd pgTIME TIME_STEP_PEND = 0 ∧ u.rd pgTIME TIME_C_STEPS = (s.rd
    pgTIME TIME_C_STEPS + 1) % 2 ^ 64 ∧ u.pends 6 1 = true ∧ u.del = s.del ∧ u.rx = s.rx ∧ u.cells = s.cells ∧ u.axis
    = s.axis) ∧
  (∀ (s : State) (t x : Nat), s.time.step = none ∧ s.on pgTIME TIME_H_SRC = false → x < 2 ∧ s.rd pgTIME TIME_SEL_MODE
    = x ∧ s.selDom = x ∧ s.domState x = 0 → ∃ u, exec (.msUpdate t) s = .next u ∧ u.time =
    { (s.at t).time with y := s.rate x } ∧ u.rd pgTIME TIME_SLEWING = 0 ∧ Frame [(pgTIME, TIME_SLEWING), (pgTIME,
    domF TIME_DOM_OFS 0), (pgTIME, domF TIME_DOM_OFS 1)] [] (s.at t) { u with time := (s.at t).time }) ∧
  (∀ (s : State) (t : Nat), s.reaches 6 false → ∃ u, exec (.timeCap t) s = .next u ∧ u.rd pgTIME TIME_CAP_S = secOf
    (s.at t).time.h % 2 ^ 64 ∧ u.rd pgTIME TIME_CAP_NS = nsOf (s.at t).time.h ∧ u.rd pgTIME TIME_CAP_FRAC = fracOf
    (s.at t).time.h ∧ u.on pgTIME TIME_CAP_DOM = (s.selDom % 2 == 1) ∧ u.rd pgTIME TIME_CAP_OFS_A = ofSigned 64
    (s.ofs 0) % 2 ^ 64 ∧ u.rd pgTIME TIME_CAP_OFS_B = ofSigned 64 (s.ofs 1) % 2 ^ 64 ∧ Frame [(pgTIME, TIME_CAP_S),
    (pgTIME, TIME_CAP_NS), (pgTIME, TIME_CAP_FRAC), (pgTIME, TIME_CAP_DOM), (pgTIME, TIME_CAP_OFS_A), (pgTIME,
    TIME_CAP_OFS_B)] [] (s.at t) u) ∧
  (∀ (s : State) (t : Nat), s.on pgTIME TIME_LEAP_V = true ∧ s.rd pgTIME TIME_LEAP_S ≤ secOf (s.at t).time.h → ∃ u,
    exec (.leap t) s = .next u ∧ u.rd pgTIME TIME_UTC_OFS = s.rd pgTIME TIME_LEAP_OFS % 2 ^ TIME_UTC_OFS.width ∧ u.rd
    pgTIME TIME_LEAP_V = 0 ∧ u.pends 6 6 = true ∧ Frame [(pgTIME, TIME_UTC_OFS), (pgTIME, TIME_LEAP_V)] [6] (s.at t)
    u) ∧
  (∀ (s : State) (t : Nat), (s.on pgTIME TIME_LEAP_V = false ∨ secOf (s.at t).time.h < s.rd pgTIME TIME_LEAP_S) → ∃
    u, exec (.leap t) s = .next u ∧ u = s.at t) ∧
  (∀ (s : State) (t : Nat), s.active = true ∧ s.on pgTIME TIME_H_VALID = true → ∃ u, exec (.timeSyncSend t) s = .next
    u ∧ u.out = s.out ++ ((List.range 4).filter s.portUp).map (fun p => .lineTx p (frameBytes ftTIMED vcTIME 0
    (pktBytes (mkPkt s.nodeId 0x30 3 0 0 ((s.at t).syncPayload ((tabGet? s.time.syncSeq p).getD 0)))))) ∧ (∀ p : Nat,
    p < 4 → s.portUp p = true → tabGet? u.time.syncSeq p = some (((tabGet? s.time.syncSeq p).getD 0 + 1) % 65536) ∧
    u.rd (pgRINGP p) RINGP_C_FRAMES_TX = (s.rd (pgRINGP p) RINGP_C_FRAMES_TX + 1) % 2 ^ 64) ∧ RegsBut ((pgTIME,
    TIME_C_SYNC_SENT) :: (List.range 4).map (fun p => (pgRINGP p, RINGP_C_FRAMES_TX))) [] s u ∧ u.del = s.del ∧ u.rx
    = s.rx ∧ u.ring = s.ring ∧ u.time.h = (s.at t).time.h) ∧
  (∀ (s : State) (t : Nat), (s.active = false ∨ s.on pgTIME TIME_H_VALID = false) → ∃ u, exec (.timeSyncSend t) s =
    .next u ∧ u = s.at t)

/-- Samples drive a domain's states, missing samples drop them, PPS edges are captured, and PPS outputs pulse at
  whole multiples while their gate holds. (R156, R157, R159, R160, R165, R166) -/
def Obligations.DomainSamplesAndPulsePerSecond : Prop :=
  (∀ (s : State) (t x a : Nat), x < 2 ∧ s.reaches 6 false ∧ s.domState x = 0 ∧ s.rd pgTIME (domF TIME_DOM_SRC x) = 3
    → s.rd pgTIME (domF TIME_DOM_SMP_NS x) < 1000000000 → a = instant (s.rd pgTIME (domF TIME_DOM_SMP_S x)) (s.rd
    pgTIME (domF TIME_DOM_SMP_NS x)) 0 → (s.at t).time.h ≤ a + 2 * secU ∧ a ≤ (s.at t).time.h ∧ (s.dom x).last = none
    → ∃ u, exec (.smpGo t x) s = .next u ∧ u.domState x = 1 ∧ (u.dom x).last = some a ∧ u.pends 6 (3 + x) = true ∧
    u.rd pgTIME (domF TIME_DOM_OFS x) = ofSigned 64 (s.rdI pgTIME (domF TIME_DOM_SMP_OFS x) * 65536 + s.rd pgTIME
    (domF TIME_DOM_SMP_FRAC x)) % 2 ^ 64 ∧ u.time.h = (s.at t).time.h ∧ u.rd pgTIME (if x = 0 then TIME_C_SMP_A else
    TIME_C_SMP_B) = (s.rd pgTIME (if x = 0 then TIME_C_SMP_A else TIME_C_SMP_B) + 1) % 2 ^ 64 ∧ Frame [(pgTIME,
    stateFld x), (pgTIME, domF TIME_DOM_OFS x), (pgTIME, if x = 0 then TIME_C_SMP_A else TIME_C_SMP_B)] [6] (s.at t)
    { u with time := (s.at t).time }) ∧
  (∀ (s : State) (t x : Nat), x < 2 ∧ s.reaches 6 false ∧ s.rd pgTIME (domF TIME_DOM_SRC x) = 3 → s.rd pgTIME (domF
    TIME_DOM_SMP_NS x) < 1000000000 ∧ (s.at t).time.h < instant (s.rd pgTIME (domF TIME_DOM_SMP_S x)) (s.rd pgTIME
    (domF TIME_DOM_SMP_NS x)) 0 → ∃ u, exec (.smpGo t x) s = .next u ∧ Frame [(pgTIME, TIME_C_STALE_SMP)] [] (s.at t)
    u ∧ u.rd pgTIME TIME_C_STALE_SMP = (s.rd pgTIME TIME_C_STALE_SMP + 1) % 2 ^ 64) ∧
  (∀ (s : State) (t x : Nat), x < 2 ∧ s.reaches 6 false ∧ 1000000000 ≤ s.rd pgTIME (domF TIME_DOM_SMP_NS x) → ∃ u,
    exec (.smpGo t x) s = .next u ∧ Frame (refusalFields 6) [0] (s.at t) u ∧ u.on (pgAt 6) PG_ERROR = true) ∧
  (∀ (s : State) (t x : Nat), x < 2 ∧ (s.dom x).heard + s.rd pgTIME (domF TIME_DOM_MISS_MS x) * msU ≤ max s.time.clk
    t → ∃ u, exec (.domainMissTimeout t x) s = .next u ∧ u.domState x = (if s.domState x = 1 then 0 else if
    s.domState x = 2 then 3 else s.domState x) ∧ (s.domState x = 1 ∨ s.domState x = 2 → u.pends 6 (3 + x) = true) ∧
    Frame [(pgTIME, stateFld x)] [6] (s.at t) { u with time := (s.at t).time } ∧ u.time.h = (s.at t).time.h) ∧
  (∀ (s : State) (t x : Nat), x < 2 ∧ s.reaches 6 false → ∃ u, exec (.dreset t x) s = .next u ∧ u.domState x = 0 ∧
    (u.dom x).good = 0 ∧ (u.dom x).last = (s.dom x).last ∧ u.time.h = (s.at t).time.h ∧ Frame [(pgTIME, stateFld x)]
    [6] (s.at t) { u with time := (s.at t).time }) ∧
  (∀ (s : State) (t n : Nat) (fall : Bool), n < 2 ∧ s.on pgTIME (ppsF TIME_PPSI_EN n) = true ∧ s.on pgTIME (ppsF
    TIME_PPSI_FALL n) = fall → (∀ l ∈ (tabGet? s.time.ppsAt n).toList, l + secU / 2 ≤ max s.time.clk t) → s.rd pgTIME
    (domF TIME_DOM_SRC 0) ≠ n + 1 ∧ s.rd pgTIME (domF TIME_DOM_SRC 1) ≠ n + 1 → ∃ u, exec (.ppsInputEdge t n (!fall)
    false) s = .next u ∧ u.rd pgTIME (ppsF TIME_PPSI_LAST_NS n) = nsOf ((s.at t).time.h - s.rd pgTIME (ppsF
    TIME_PPSI_CABLE_NS n) * nsU) ∧ u.rd pgTIME (ppsF TIME_PPSI_LAST_FRAC n) = fracOf ((s.at t).time.h - s.rd pgTIME
    (ppsF TIME_PPSI_CABLE_NS n) * nsU) ∧ tabGet? u.time.ppsAt n = some (max s.time.clk t) ∧ u.rd pgTIME (if n = 0
    then TIME_C_PPS_EDGES0 else TIME_C_PPS_EDGES1) = (s.rd pgTIME (if n = 0 then TIME_C_PPS_EDGES0 else
    TIME_C_PPS_EDGES1) + 1) % 2 ^ 64 ∧ Frame [(pgTIME, ppsF TIME_PPSI_LAST_S n), (pgTIME, ppsF TIME_PPSI_LAST_NS n),
    (pgTIME, ppsF TIME_PPSI_LAST_FRAC n), (pgTIME, if n = 0 then TIME_C_PPS_EDGES0 else TIME_C_PPS_EDGES1)] [] (s.at
    t) { u with time := (s.at t).time }) ∧
  (∀ (s : State) (t n : Nat) (rising short : Bool), n < 2 ∧ (s.on pgTIME (ppsF TIME_PPSI_EN n) = false ∨ short =
    true) → ∃ u, exec (.ppsInputEdge t n rising short) s = .next u ∧ u = s.at t) ∧
  (∀ (s : State) (t n l : Nat) (fall : Bool), n < 2 ∧ s.on pgTIME (ppsF TIME_PPSI_EN n) = true ∧ s.on pgTIME (ppsF
    TIME_PPSI_FALL n) = fall → tabGet? s.time.ppsAt n = some l ∧ max s.time.clk t < l + secU / 2 → ∃ u, exec
    (.ppsInputEdge t n (!fall) false) s = .next u ∧ Frame [(pgTIME, TIME_C_PPS_EXTRA)] [] (s.at t) u ∧ u.rd pgTIME
    TIME_C_PPS_EXTRA = (s.rd pgTIME TIME_C_PPS_EXTRA + 1) % 2 ^ 64) ∧
  (∀ (s : State) (t n : Nat), n < 2 ∧ s.on pgTIME (ppsF TIME_PPSI_EN n) = true ∧ s.time.ppsGap.contains n = false →
    (tabGet? s.time.ppsAt n).getD s.time.relClk + 3 * secU / 2 ≤ max s.time.clk t → ∃ u, exec (.ppsMiss t n) s =
    .next u ∧ u.time.ppsGap.contains n = true ∧ u.rd pgTIME TIME_C_PPS_MISS = (s.rd pgTIME TIME_C_PPS_MISS + 1) % 2 ^
    64 ∧ u.pends 6 7 = true ∧ Frame [(pgTIME, TIME_C_PPS_MISS)] [6] (s.at t) { u with time := (s.at t).time }) ∧
  (∀ (s : State) (t n : Nat), n < 2 ∧ s.time.ppsGap.contains n = true → ∃ u, exec (.ppsMiss t n) s = .next u ∧ u =
    s.at t) ∧
  (∀ (s : State) (t n g : Nat), n < 2 ∧ s.on pgTIME (ppsF TIME_PPSO_EN n) = true ∧ s.on pgTIME TIME_H_VALID = true ∧
    s.ppsGate n = true → s.rd pgTIME (ppsF TIME_PPSO_SRC n) = 0 ∧ g % 1000000000 % s.rd pgTIME (ppsF
    TIME_PPSO_PERIOD_NS n) = 0 ∧ s.time.ppsWait.contains n = false → s.sys.jtag = false ∧ s.sys.banksOff.testBit 1 =
    false → ∃ u, exec (.ppsOutputPulse t n g) s = .next u ∧ u.out = s.out ++ [.ppsPulse n ((g * nsU : Int) - s.rdI
    pgTIME (ppsF TIME_PPSO_ADV_NS n) * nsU).toNat (s.rd pgTIME (ppsF TIME_PPSO_WIDTH_NS n)) (s.rd pgTIME (ppsF
    TIME_PPSO_POL n) == 0)] ∧ u.regs = s.regs ∧ u.del = s.del ∧ u.rx = s.rx) ∧
  (∀ (s : State) (t n g : Nat), n < 2 ∧ s.on pgTIME (ppsF TIME_PPSO_EN n) = true ∧ s.on pgTIME TIME_H_VALID = true ∧
    s.ppsGate n = false → ∃ u, exec (.ppsOutputPulse t n g) s = .next u ∧ u.time.ppsWait.contains n = true ∧ u.out =
    s.out ∧ u.regs = s.regs)

/-- Encoder edges count by mode, both lines at once are an error, an index homes, standstill stops, settings restart
  the model, positions are reported. (R168, R169, R170, R171, R172, R173, R179, R180, R186) -/
def Obligations.EncodersAndAxesFollowTheirLines : Prop :=
  (∀ (s : State) (t n : Nat) (a b : Bool) (e : Enc) (d : Int), n < 8 ∧ s.enc n = e ∧ s.rd pgAXIS (encF AXIS_ENC_MODE
    n) ≠ 0 → (e.a = a ∨ e.b = b) ∧ encStep (s.rd pgAXIS (encF AXIS_ENC_MODE n)) e.a e.b a b ≠ 0 → d = (if s.on pgAXIS
    (encF AXIS_ENC_INV n) then -encStep (s.rd pgAXIS (encF AXIS_ENC_MODE n)) e.a e.b a b else encStep (s.rd pgAXIS
    (encF AXIS_ENC_MODE n)) e.a e.b a b) → ∃ u, exec (.encoderCount t n a b) s = .next u ∧ u.enc n =
    { e with a := a, b := b, cnt := e.cnt + d } ∧ u.rd pgAXIS (encF AXIS_ENC_ERR n) = 0 ∧ (∀ k : Nat, k < 14 → if
    s.axSrc (k + 2) == 1 && s.rd pgAXIS (axF AXIS_AX_ENC (k + 2)) == n then (u.ax (k + 2)).cnt = e.cnt + d ∧ (u.ax (k
    + 2)).stopped = false ∧ (u.ax (k + 2)).countAt = max s.time.clk t else u.ax (k + 2) = s.ax (k + 2)) ∧ Frame
    ((pgAXIS, encF AXIS_ENC_ERR n) :: (List.range 14).map (fun k => (pgAXIS, axF AXIS_AX_STATE (k + 2)))) [] (s.at t)
    { u with axis := s.axis }) ∧
  (∀ (s : State) (t n : Nat) (a b : Bool) (e : Enc), n < 8 ∧ s.enc n = e ∧ s.rd pgAXIS (encF AXIS_ENC_MODE n) ≠ 0 ∧
    e.a ≠ a ∧ e.b ≠ b → ∃ u, exec (.encoderCount t n a b) s = .next u ∧ u.enc n = { e with a := a, b := b } ∧ u.rd
    pgAXIS (encF AXIS_ENC_ERR n) = 1 ∧ u.rd pgAXIS AXIS_C_QERR = (s.rd pgAXIS AXIS_C_QERR + 1) % 2 ^ 64 ∧ u.pends 7 2
    = true ∧ Frame ([(pgAXIS, encF AXIS_ENC_ERR n), (pgAXIS, AXIS_C_QERR)] ++ (List.range 14).map (fun k => (pgAXIS,
    axF AXIS_AX_STATE (k + 2)))) [7] (s.at t) { u with axis := s.axis }) ∧
  (∀ (s : State) (t n : Nat) (a b : Bool), n < 8 ∧ s.rd pgAXIS (encF AXIS_ENC_MODE n) = 0 → ∃ u, exec (.encoderCount
    t n a b) s = .next u ∧ u.enc n = { s.enc n with a := a, b := b } ∧ u.regs = s.regs ∧ u.out = s.out) ∧
  (∀ (s : State) (t n : Nat), n < 8 ∧ s.rd pgAXIS (encF AXIS_ENC_MODE n) ≠ 0 ∧ s.rd pgAXIS (encF AXIS_ENC_Z_MODE n) =
    1 ∧ s.on pgAXIS (encF AXIS_ENC_HOMED n) = false → ∃ u, exec (.encoderIndex t n) s = .next u ∧ (u.enc n).cnt = 0 ∧
    (u.enc n).ref = some 0 ∧ u.rd pgAXIS (encF AXIS_ENC_HOMED n) = 1 ∧ u.pends 7 0 = true ∧ Frame ((pgAXIS, encF
    AXIS_ENC_HOMED n) :: (List.range 14).map (fun k => (pgAXIS, axF AXIS_AX_STATE (k + 2)))) [7] (s.at t)
    { u with axis := s.axis }) ∧
  (∀ (s : State) (t n : Nat), n < 8 ∧ (s.rd pgAXIS (encF AXIS_ENC_MODE n) = 0 ∨ s.rd pgAXIS (encF AXIS_ENC_Z_MODE n)
    = 0) → ∃ u, exec (.encoderIndex t n) s = .next u ∧ u = s.at t) ∧
  (∀ (s : State) (t k : Nat), k < 14 ∧ s.axSrc (k + 2) ≠ 0 ∧ (s.ax (k + 2)).stopped = false → (s.ax (k + 2)).countAt
    + s.rd pgAXIS (axF AXIS_AX_STILL_MS (k + 2)) * msU ≤ max s.time.clk t → ∃ u, exec (.axisStill t k) s = .next u ∧
    u.ax (k + 2) = { s.ax (k + 2) with stopped := true } ∧ u.axVel (k + 2) = 0 ∧ u.axPos (k + 2) = s.posOf (k + 2)
    (s.ax (k + 2)).cnt ∧ Frame [(pgAXIS, axF AXIS_AX_STATE (k + 2))] [] (s.at t) { u with axis := s.axis }) ∧
  (∀ (s : State) (t k : Nat) (word : Word), k < 14 ∧ s.reaches 7 true ∧ s.tstate < 2 ∧ s.held = [] → (s.setWord
    pgAXIS rows_AXIS (axBase (k + 2)) word.toNat).axLegal (k + 2) = true → ∃ u, exec (.axisConfigCommit t k word) s =
    .next u ∧ (u.ax (k + 2)).hist = [] ∧ (u.ax (k + 2)).stopped = false ∧ (u.ax (k + 2)).err = false ∧ u.axVel (k +
    2) = 0 ∧ u.axSrc (k + 2) = (s.setWord pgAXIS rows_AXIS (axBase (k + 2)) word.toNat).axSrc (k + 2) ∧ u.del = s.del
    ∧ u.rx = s.rx ∧ u.time = (s.at t).time ∧ u.out = s.out) ∧
  (∀ (s : State) (t k : Nat) (word : Word), k < 14 ∧ s.reaches 7 true ∧ s.held = [] → (s.setWord pgAXIS rows_AXIS
    (axBase (k + 2)) word.toNat).axLegal (k + 2) = false → ∃ u, exec (.axisConfigCommit t k word) s = .next u ∧ Frame
    (refusalFields 7) [0] (s.at t) u ∧ u.on (pgAt 7) PG_ERROR = true) ∧
  (∀ (s : State) (t : Nat), s.reaches 7 true ∧ s.tstate < 2 → ∃ u, exec (.axisCap t) s = .next u ∧ u.rd pgAXIS
    AXIS_CAP_S = secOf (s.at t).time.h % 2 ^ 64 ∧ u.rd pgAXIS AXIS_CAP_NS = nsOf (s.at t).time.h ∧ (∀ n : Nat, n < 8
    → u.rd pgAXIS (encF AXIS_ENC_CAP_COUNT n) = ofSigned 32 (s.enc n).cnt) ∧ (∀ k : Nat, k < 14 → s.axSrc (k + 2) ≠ 0
    → u.rd pgAXIS (axF AXIS_AX_CAP_POS (k + 2)) = (s.at t).axPos (k + 2) ∧ u.rdI pgAXIS (axF AXIS_AX_CAP_VEL (k + 2))
    = toSigned 64 (ofSigned 64 (s.axVel (k + 2)))) ∧ Frame ([(pgAXIS, AXIS_CAP_S), (pgAXIS, AXIS_CAP_NS)] ++
    (List.range 8).map (fun n => (pgAXIS, encF AXIS_ENC_CAP_COUNT n)) ++ (List.range 14).flatMap (fun k => [(pgAXIS,
    axF AXIS_AX_CAP_POS (k + 2)), (pgAXIS, axF AXIS_AX_CAP_VEL (k + 2))])) [] (s.at t) u) ∧
  (∀ (s : State) (t k : Nat), k < 14 ∧ s.active = true ∧ s.on pgTIME TIME_H_VALID = true ∧ s.axSrc (k + 2) ≠ 0 ∧ s.rd
    pgAXIS (axF AXIS_AX_TX_US (k + 2)) ≠ 0 → ∃ u, exec (.axisStateSend t k) s = .next u ∧ u.out.length = s.out.length
    + ((List.range 4).filter s.portUp).length ∧ u.rd pgAXIS AXIS_C_STATE_SENT = (s.rd pgAXIS AXIS_C_STATE_SENT +
    ((List.range 4).filter s.portUp).length) % 2 ^ 64 ∧ RegsBut ((pgAXIS, AXIS_C_STATE_SENT) :: (List.range 4).map
    (fun p => (pgRINGP p, RINGP_C_FRAMES_TX))) [] s u ∧ u.del = s.del ∧ u.rx = s.rx ∧ u.ring = s.ring ∧ u.axis =
    s.axis) ∧
  (∀ (s : State) (t r at_ : Nat) (k : RingPkt), s.ring.inbox = [(r, at_, k)] ∧ k.pt = 0x30 → (s.axesRemote k.src
    (beAt k.payload 1 1 % 8) = [] ∨ s.reachable k.src = false) → ∃ u, exec (.axisEdges t) s = .next u ∧ u.ring =
    { s.ring with inbox := [] } ∧ u.axis = s.axis ∧ u.regs = s.regs ∧ u.out = s.out) ∧
  (∀ (s : State) (t r at_ x : Nat) (k : RingPkt), s.ring.inbox = [(r, at_, k)] ∧ k.pt = 0x30 ∧ s.reachable k.src =
    true → s.axesRemote k.src (beAt k.payload 1 1 % 8) = [x] → tabGet? s.axis.edgeSeq (k.src * 8 + beAt k.payload 1 1
    % 8) = none → (beAt k.payload 3 1).testBit 1 = true ∧ k.payload.length = 36 ∧ beAt k.payload 2 1 = 1 ∧ (beAt
    k.payload 35 1).testBit 2 = false → (s.ax x).hist = [] → ∃ u, exec (.axisEdges t) s = .next u ∧ (u.ax x).cnt =
    toSigned 64 (beAt k.payload 8 8) + toSigned 16 (beAt k.payload 32 2) ∧ (u.ax x).homed = (beAt k.payload 3
    1).testBit 0 ∧ (u.ax x).hist.map (·.2) = [instant (beAt k.payload 16 8) (beAt k.payload 24 4) 0 + beAt k.payload
    28 4 * nsU + beAt k.payload 34 1 * 256] ∧ tabGet? u.axis.edgeSeq (k.src * 8 + beAt k.payload 1 1 % 8) = some
    (beAt k.payload 4 2) ∧ Frame [(pgAXIS, AXIS_C_EDGE_MSGS), (pgAXIS, axF AXIS_AX_STATE x)] [] (s.at t)
    { u with axis := s.axis, ring := s.ring })

/-- A slot fires once its target is reached, records the fire, repeats or disarms, and a write arms it, disarms it or
  is refused. (R174, R175, R176, R177, R187, R249) -/
def Obligations.EventSlotsFireAndRepeat : Prop :=
  (∀ (s : State) (t k : Nat), k < 64 ∧ s.on (slotAt k) SLOT_ARMED = true ∧ s.on pgTIME TIME_H_VALID = true → s.rd
    (slotAt k) SLOT_AXIS < 2 ∧ s.rd (slotAt k) SLOT_DIR = 1 ∧ s.slotTarget k ≤ (s.at t).slotNow k → s.on (slotAt k)
    SLOT_TO_HOST = true ∧ s.on (slotAt k) SLOT_TO_TONGS = false ∧ s.rd (slotAt k) SLOT_PERIOD = 0 ∧ s.rd (slotAt k)
    SLOT_COUNT = 0 → ∃ u, exec (.slotFire t k false) s = .next u ∧ u.rd (slotAt k) SLOT_ARMED = 0 ∧ u.rd (slotAt k)
    SLOT_ARM = 0 ∧ u.pends 7 3 = true ∧ u.rd (slotStatAt k) SLOTSTAT_LAST_NS = nsOf (s.at t).time.h ∧ u.rdI
    (slotStatAt k) SLOTSTAT_LAST_POS = toSigned 64 (ofSigned 64 ((s.at t).slotNow k)) ∧ u.rd (slotStatAt k)
    SLOTSTAT_FIRES = (s.rd (slotStatAt k) SLOTSTAT_FIRES + 1) % 2 ^ SLOTSTAT_FIRES.width ∧ u.rd pgAXIS
    AXIS_C_EVT_FIRES = (s.rd pgAXIS AXIS_C_EVT_FIRES + 1) % 2 ^ 64 ∧ Frame [(slotAt k, SLOT_ARMED), (slotAt k,
    SLOT_ARM), (slotStatAt k, SLOTSTAT_LAST_S), (slotStatAt k, SLOTSTAT_LAST_NS), (slotStatAt k, SLOTSTAT_LAST_POS),
    (slotStatAt k, SLOTSTAT_FIRES), (pgAXIS, AXIS_C_EVT_FIRES)] [7] (s.at t) u) ∧
  (∀ (s : State) (t k : Nat) (jump : Bool), k < 64 ∧ s.rd (slotAt k) SLOT_AXIS < 2 → (s.on (slotAt k) SLOT_ARMED =
    false ∨ s.on pgTIME TIME_H_VALID = false ∨ (s.rd (slotAt k) SLOT_DIR = 1 ∧ (s.at t).slotNow k < s.slotTarget k))
    → ∃ u, exec (.slotFire t k jump) s = .next u ∧ u = s.at t) ∧
  (∀ (s : State) (t k : Nat) (word : Word), k < 64 ∧ s.reachesWin true ∧ s.tstate < 2 → (s.slotSet k
    word.toNat).slotLegal k = true ∧ (s.slotSet k word.toNat).on (slotAt k) SLOT_ARM = false → ∃ u, exec (.slotWrite
    t k word false) s = .next u ∧ u = ((s.slotSet k word.toNat).wr (slotAt k) SLOT_ARMED 0).at t) ∧
  (∀ (s : State) (t k : Nat) (word : Word), k < 64 ∧ s.reachesWin true ∧ s.tstate < 2 → (s.slotSet k
    word.toNat).slotLegal k = true ∧ (s.slotSet k word.toNat).on (slotAt k) SLOT_ARM = true → (((s.slotSet k
    word.toNat).at t).slotWaits k = true ∨ ((s.slotSet k word.toNat).at t).slotPast k ((s.slotSet k
    word.toNat).slotTarget k) = false) → ∃ u, exec (.slotWrite t k word false) s = .next u ∧ u.rd (slotAt k)
    SLOT_ARMED = 1 ∧ u.rd (slotAt k) SLOT_LEFT = (s.slotSet k word.toNat).rd (slotAt k) SLOT_COUNT % 2 ^
    SLOT_LEFT.width ∧ u.out = s.out ∧ u.del = s.del ∧ u.tong = s.tong) ∧
  (∀ (s : State) (t k : Nat) (word : Word), k < 64 ∧ s.reachesWin true ∧ (s.slotSet k word.toNat).slotLegal k = false
    → ∃ u, exec (.slotWrite t k word false) s = .next u ∧ Frame (refusalFields 7) [0] (s.at t)
    { u with held := s.held } ∧ u.on (pgAt 7) PG_ERROR = true ∧ (∀ o ∈ slotHeld, u.heldWord? (slotAt k + o) = none)) ∧
  (∀ (s : State) (t h k w : Nat), k < 64 ∧ s.twin.atH = [(h, slotAt k, w)] ∧ h ≤ (s.at t).time.h → ∃ u, exec
    (.deltaAtH t) s = .next u ∧ u.twin = { s.twin with atH := [] } ∧ ((s.slotSet k w).on (slotAt k) SLOT_ARM = false
    → u.rd (slotAt k) SLOT_ARMED = 0 ∧ u.regs = ((s.slotSet k w).wr (slotAt k) SLOT_ARMED 0).regs))

/-- A lane with signal trains, locks, sends TRAIN, agrees after three equal good frames, and a fitting HELLO brings a
  ring port or Ngato lane UP. (R193, R195, R198, R208, R213, R241, R243) -/
def Obligations.LanesTrainAndAgree : Prop :=
  (∀ (s : State) (t p : Nat), p < 4 ∧ s.lstate p = 0 ∧
    ({ s.setHop p { s.hop p with signal := true } with out := s.out }).mayTrain p = true → ∃ u, exec (.signalDetect t
    p) s = .next u ∧ u.lstate p = 1 ∧ u.hop p =
    { s.hop p with signal := true, lock := false, slow := s.startSlow p, trainAt := max s.time.clk t, trains := 0, hello := false }
    ∧ Frame [(pgRINGP p, RINGP_LSTATE), (pgRINGP p, RINGP_RATE)] [] (s.at t) { u with ring := s.ring }) ∧
  (∀ (s : State) (t e : Nat), e < 2 → ∃ u, exec (.signalDetect t (6 + e)) s = .next u ∧ (u.ethOf e) =
    { s.ethOf e with signal := true } ∧ u.regs = s.regs ∧ u.out = s.out) ∧
  (∀ (s : State) (t p : Nat), p < 4 ∧ s.training p = true ∧ (s.hop p).lock = false → ∃ u, exec (.blockLock t p) s =
    .next u ∧ u.hop p = { s.hop p with lock := true, trainAt := max s.time.clk t, trains := 0 } ∧ u.out = s.out ++
    [.lineTx p (frameBytes ftTRAIN 0 0 (Config.trainBody (s.trainFields p)))] ∧ RegsBut [(pgRINGP p,
    RINGP_C_FRAMES_TX)] [] s u) ∧
  (∀ (s : State) (t p : Nat), p < 4 ∧ s.training p = true ∧ (s.hop p).lock = false ∧ (s.hop p).trainAt + 2 * msU ≤
    max s.time.clk t → ∃ u, exec (.blockLockTimeout t p) s = .next u ∧ (u.hop p).slow = (if s.rd (pgRINGP p)
    RINGP_RATE_CTL == 0 then !(s.hop p).slow else (s.hop p).slow) ∧ (u.hop p).trainAt = max s.time.clk t ∧ u.lstate p
    = 1 ∧ Frame [(pgRINGP p, RINGP_LSTATE), (pgRINGP p, RINGP_RATE)] [] (s.at t) { u with ring := s.ring }) ∧
  (∀ (s : State) (t p bad : Nat), p < 4 ∧ s.training p = true ∧ (s.hop p).lock = true ∧ bad ≤ 16 → ∃ u, exec
    (.trainSend t p bad) s = .next u ∧ u.out = s.out ++ [.lineTx p (frameBytes ftTRAIN 0 0 (Config.trainBody
    (s.trainFields p)))] ∧ RegsBut [(pgRINGP p, RINGP_C_FRAMES_TX)] [] s u ∧ u.ring = s.ring ∧ u.del = s.del) ∧
  (∀ (s : State) (t p minor build : Nat) (cred : List Nat), p < 4 ∧ s.training p = true ∧ (s.hop p).lock = true ∧
    (s.hop p).trains = 2 → minor < 256 ∧ build < 65536 ∧ cred.length = 3 ∧ (∀ c ∈ cred, 38 ≤ c ∧ c < 65536) → (s.hop
    p).peerMax = 3 ∧ (s.hop p).peerMin = 2 ∧ (s.hop p).peerMinor = minor ∧ (s.hop p).peerCred = cred → ∃ u, exec
    (.trainFrame t p true 3 2 minor build cred) s = .next u ∧ u.hop p = { s.hop p with trains := 3, hello := true } ∧
    u.rd (pgRINGP p) RINGP_VER_MAJ = 3 ∧ Frame [(pgRINGP p, RINGP_C_FRAMES_RX), (pgRINGP p, RINGP_VER_MAJ), (pgRINGP
    p, RINGP_VER_MIN)] [] (s.at t) { u with ring := s.ring }) ∧
  (∀ (s : State) (t p mx mn minor build : Nat) (cred : List Nat), p < 4 ∧ s.training p = true ∧ (s.hop p).lock = true
    ∧ 3 < mn ∧ mn ≤ mx ∧ mx < 256 → ∃ u, exec (.trainFrame t p true mx mn minor build cred) s = .next u ∧ (u.hop
    p).trains = 0 ∧ u.rd (pgRINGP p) RINGP_CAUSE = 4 ∧ u.pends (0x10 + p) 3 = true ∧ u.lstate p = 1) ∧
  (∀ (s : State) (t p mx mn minor build : Nat) (cred : List Nat), p < 4 ∧ s.training p = true ∧ (s.hop p).lock = true
    ∧ s.mayFall p = false → ((s.hop p).trainAt + msU ≤ s.time.clk ∨ (s.hop p).slow = true ∨ s.rd (pgRINGP p)
    RINGP_RATE_CTL ≠ 0) → ∃ u, exec (.trainFrame t p false mx mn minor build cred) s = .next u ∧ u.hop p =
    { s.hop p with trains := 0 } ∧ Frame [(pgRINGP p, RINGP_C_LCRC_ERR)] [] (s.at t) { u with ring := s.ring }) ∧
  (∀ (s : State) (t p : Nat), p < 4 ∧ (s.hop p).hello = true → ∃ u, exec (.helloSend t p) s = .next u ∧ u.out = s.out
    ++ [.lineTx p (frameBytes ftHELLO 0 0 (Config.helloBody [s.nodeId, 1, p / 2, p % 2, Config.incarn (s.rd pgSBOX
    SBOX_BOOT), 3, Config.ringMinor]))] ∧ RegsBut [(pgRINGP p, RINGP_C_FRAMES_TX)] [] s u ∧ u.ring = s.ring ∧ u.del =
    s.del) ∧
  (∀ (s : State) (t p id rtt : Nat), p < 4 ∧ (s.hop p).hello = true ∧ s.lstate p = 1 ∧ 1 ≤ id ∧ id ≤ 250 ∧ (s.hop
    p).queue = [] → s.portUp (otherPort p) = false ∧ s.portUp (2 * (1 - p / 2)) = false ∧ s.portUp (2 * (1 - p / 2) +
    1) = false → ∃ u, exec (.helloFrame t p id false (p / 2) (1 - p % 2) rtt) s = .next u ∧ u.lstate p = 2 ∧ u.rd
    (pgRINGP p) RINGP_CAUSE = 0 ∧ u.rd (pgRINGP p) RINGP_PEER_ID = id ∧ u.rd (pgRINGP p) RINGP_RTT_NS = rtt % 2 ^
    RINGP_RTT_NS.width ∧ (u.hop p).rxSeq = 0 ∧ (u.hop p).rxq = [] ∧ u.pends (0x10 + p) 0 = true ∧ u.del = s.del ∧
    u.rx = s.rx ∧ u.cells = s.cells) ∧
  (∀ (s : State) (t p id ring side rtt : Nat), p < 4 ∧ (s.hop p).hello = true ∧ s.lstate p = 1 ∧ ring < 2 ∧ ring ≠ p
    / 2 ∧ s.rd (pgRINGP p) RINGP_CAUSE ≠ 5 → ∃ u, exec (.helloFrame t p id false ring side rtt) s = .next u ∧
    u.lstate p = 3 ∧ u.rd (pgRINGP p) RINGP_CAUSE = 1 ∧ u.pends (0x10 + p) 3 = true ∧ Frame [(pgRINGP p,
    RINGP_C_FRAMES_RX), (pgRINGP p, RINGP_LSTATE), (pgRINGP p, RINGP_CAUSE)] [0x10 + p] (s.at t) u) ∧
  (∀ (s : State) (t l id ring side rtt : Nat), l < 2 ∧ (s.hop (4 + l)).hello = true ∧ s.laneUp l = false ∧ id < 256 ∧
    id ≠ s.nodeId → ∃ u, exec (.helloFrame t (4 + l) id true ring side rtt) s = .next u ∧ u.laneUp l = true ∧
    (u.laneUp (1 - l) = s.laneUp (1 - l)) ∧ Frame [(pgTWIN, TWIN_LANES)] [] (s.at t) { u with ring := s.ring })

/-- A ring port that loses lock, is held down or is retrained counts LINK_DOWN once, wraps and trains again or stays
  down. (R10, R190, R193, R198, R213, R227, R243, R253, R284) -/
def Obligations.HopsGoDownAndRetrain : Prop :=
  (∀ (s : State) (t p : Nat) (signal : Bool), p < 4 ∧ s.portUp p = true ∧ (s.hop p).queue = [] ∧ (s.hop p).replay =
    [] ∧ s.on (pgRINGP p) RINGP_ADMIN_DOWN = false → (∀ k : Nat, k < 4 → k = p ∨ s.portUp k = false) → ∃ u, exec
    (.lossOfLock t p signal) s = .next u ∧ (u.hop p).lock = false ∧ u.portUp p = false ∧ u.rd (pgRINGP p) RINGP_CAUSE
    = 0 ∧ u.rd (pgRINGP p) RINGP_C_LINK_DOWNS = (s.rd (pgRINGP p) RINGP_C_LINK_DOWNS + 1) % 2 ^ 64 ∧ u.pends (0x10 +
    p) 1 = true ∧ u.del = s.del ∧ u.rx = s.rx ∧ u.cells = s.cells) ∧
  (∀ (s : State) (t e : Nat) (signal : Bool), e < 2 ∧ s.on (pgETH e) ETH_LINK = true → ∃ u, exec (.lossOfLock t (6 +
    e) signal) s = .next u ∧ u.rd (pgETH e) ETH_LINK = 0 ∧ u.rd (pgETH e) ETH_AN_DONE = 0 ∧ u.pends (0x18 + e) 1 =
    true ∧ (u.ethOf e).signal = ((s.ethOf e).signal && !signal) ∧ Frame [(pgETH e, ETH_LINK), (pgETH e, ETH_AN_DONE)]
    [0x18 + e] (s.at t) { u with eth := s.eth }) ∧
  (∀ (s : State) (t p : Nat), p < 4 ∧ s.reaches (0x10 + p) false ∧ s.portUp p = false → ∃ u, exec (.adminDown t p
    true) s = .next u ∧ u.rd (pgRINGP p) RINGP_ADMIN_DOWN = 1 ∧ u.lstate p = 0 ∧ Frame [(pgRINGP p,
    RINGP_ADMIN_DOWN), (pgRINGP p, RINGP_LSTATE)] [] (s.at t) u) ∧
  (∀ (s : State) (t p : Nat), p < 4 ∧ s.reaches (0x10 + p) false ∧ s.portUp p = false ∧ s.mayTrain p = true → ∃ u,
    exec (.retrain t p) s = .next u ∧ u.lstate p = 1 ∧ u.rd (pgRINGP p) RINGP_CAUSE = 0 ∧ (u.hop p).lock = false ∧
    (u.hop p).trains = 0 ∧ (u.hop p).trainAt = max s.time.clk t ∧ Frame [(pgRINGP p, RINGP_LSTATE), (pgRINGP p,
    RINGP_CAUSE), (pgRINGP p, RINGP_RATE)] [] (s.at t) { u with ring := s.ring }) ∧
  (∀ (s : State) (t p : Nat), p < 4 ∧ s.portUp p = true ∧ (s.hop p).replay ≠ [] ∧ (s.hop p).stuck + 1 < 8 → (s.hop
    p).progAt + s.rd (pgRINGP p) RINGP_REPLAY_US * usU ≤ max s.time.clk t → ∃ u, exec (.replayTimeout t p) s = .next
    u ∧ u.out = s.out ++ (s.hop p).replay.map (fun e => .lineTx p (frameBytes ftDATA e.2.1 e.1 e.2.2)) ∧ u.hop p =
    { s.hop p with stuck := (s.hop p).stuck + 1, progAt := max s.time.clk t } ∧ u.rd (pgRINGP p) RINGP_C_REPLAY_TO =
    (s.rd (pgRINGP p) RINGP_C_REPLAY_TO + 1) % 2 ^ 64 ∧ u.rd (pgRINGP p) RINGP_C_REPLAYED = (s.rd (pgRINGP p)
    RINGP_C_REPLAYED + (s.hop p).replay.length) % 2 ^ 64 ∧ RegsBut [(pgRINGP p, RINGP_C_REPLAY_TO), (pgRINGP p,
    RINGP_C_REPLAYED), (pgRINGP p, RINGP_C_FRAMES_TX)] [] s u) ∧
  (∀ (s : State) (t p : Nat), p < 4 ∧ (s.portUp p = false ∨ (s.hop p).replay = [] ∨ max s.time.clk t < (s.hop
    p).progAt + s.rd (pgRINGP p) RINGP_REPLAY_US * usU) → ∃ u, exec (.replayTimeout t p) s = .next u ∧ u = s.at t)

/-- A good frame in order is buffered and acknowledged, a bad one gets one NAK, acknowledgements empty the replay
  buffer, credits add up, probes measure. (R190, R192, R196, R197, R199, R206) -/
def Obligations.NumberedFramesAreAcknowledged : Prop :=
  (∀ (s : State) (t p vc : Nat) (body : List Byte), p < 4 ∧ s.portUp p = true ∧ (s.hop p).rxSeq < 65536 ∧ vc < 4 ∧ 8
    ≤ body.length ∧ body.length ≤ 2368 → ∃ u, exec (.dataFrame t p 1 vc (s.hop p).rxSeq 0 body) s = .next u ∧ u.hop p
    = { s.hop p with rxSeq := ((s.hop p).rxSeq + 1) % 65536, nakAt := none, rxq := (s.hop p).rxq ++ [(vc, body)] } ∧
    u.out = s.out ++ [.lineTx p (frameBytes ftACK 0 (s.hop p).rxSeq (leBytes 8 0))] ∧ u.rd (pgRINGP p)
    RINGP_C_FRAMES_RX = (s.rd (pgRINGP p) RINGP_C_FRAMES_RX + 1) % 2 ^ 64 ∧ RegsBut [(pgRINGP p, RINGP_C_FRAMES_RX),
    (pgRINGP p, RINGP_C_FRAMES_TX)] [] s u) ∧
  (∀ (s : State) (t p vc lseq : Nat) (body : List Byte), p < 4 ∧ s.portUp p = true ∧ 8 ≤ body.length ∧ body.length ≤
    2368 → 32768 ≤ (lseq % 65536 + 65536 - (s.hop p).rxSeq) % 65536 → ∃ u, exec (.dataFrame t p 1 vc lseq 0 body) s =
    .next u ∧ u.ring = s.ring ∧ u.rd (pgRINGP p) RINGP_C_LSEQ_DUP = (s.rd (pgRINGP p) RINGP_C_LSEQ_DUP + 1) % 2 ^ 64
    ∧ u.out = s.out ++ [.lineTx p (frameBytes ftACK 0 (((s.hop p).rxSeq + 65535) % 65536) (leBytes 8 0))]) ∧
  (∀ (s : State) (t p vc lseq : Nat) (body : List Byte), p < 4 ∧ s.portUp p = true ∧ (s.hop p).nakAt = none → ∃ u,
    exec (.dataFrame t p 1 vc lseq 1 body) s = .next u ∧ u.hop p = { s.hop p with nakAt := some (max s.time.clk t) }
    ∧ u.out = s.out ++ [.lineTx p (frameBytes ftNAK 0 (((s.hop p).rxSeq + 65535) % 65536) (leBytes 8 0))] ∧ u.rd
    (pgRINGP p) RINGP_C_LCRC_ERR = (s.rd (pgRINGP p) RINGP_C_LCRC_ERR + 1) % 2 ^ 64 ∧ u.rd (pgRINGP p) RINGP_C_NAK_TX
    = (s.rd (pgRINGP p) RINGP_C_NAK_TX + 1) % 2 ^ 64) ∧
  (∀ (s : State) (t p ft vc lseq fate : Nat) (body : List Byte), p < 4 ∧ s.portUp p = false → ∃ u, exec (.dataFrame t
    p ft vc lseq fate body) s = .next u ∧ u = s.at t) ∧
  (∀ (s : State) (t p ft vc lseq : Nat) (body : List Byte), p < 4 ∧ s.portUp p = true → ∃ u, exec (.dataFrame t p ft
    vc lseq 2 body) s = .next u ∧ Frame [(pgRINGP p, RINGP_C_BLOCK_ERR)] [] (s.at t) u ∧ u.rd (pgRINGP p)
    RINGP_C_BLOCK_ERR = (s.rd (pgRINGP p) RINGP_C_BLOCK_ERR + 1) % 2 ^ 64) ∧
  (∀ (s : State) (t p k : Nat) (l : List (Nat × Nat × List Byte)), p < 4 ∧ s.portUp p = true ∧ (s.hop p).queue = [] ∧
    (s.hop p).stallAt = none ∧ ackRest (k % 65536) (s.hop p).replay = some l → ∃ u, exec (.ackFrame t p k) s = .next
    u ∧ u.hop p = { s.hop p with replay := l, progAt := max s.time.clk t, stuck := 0 } ∧ u.rd (pgRINGP p)
    RINGP_REPLAY_BYTES = replayBytes l % 2 ^ RINGP_REPLAY_BYTES.width ∧ RegsBut [(pgRINGP p, RINGP_C_FRAMES_RX),
    (pgRINGP p, RINGP_TX_LSEQ), (pgRINGP p, RINGP_ACK_LSEQ), (pgRINGP p, RINGP_REPLAY_BYTES)] [] s u ∧ u.out = s.out
    ∧ u.del = s.del) ∧
  (∀ (s : State) (t p k : Nat), p < 4 ∧ s.portUp p = true ∧ ackRest (k % 65536) (s.hop p).replay = none → ∃ u, exec
    (.ackFrame t p k) s = .next u ∧ Frame [(pgRINGP p, RINGP_C_FRAMES_RX)] [] (s.at t) u) ∧
  (∀ (s : State) (t p k : Nat), p < 4 ∧ s.portUp p = true ∧ ackRest (k % 65536) (s.hop p).replay = none → ∃ u, exec
    (.nakFrame t p k) s = .next u ∧ u.out = s.out ++ (s.hop p).replay.map (fun e => .lineTx p (frameBytes ftDATA
    e.2.1 e.1 e.2.2)) ∧ u.ring = s.ring ∧ u.rd (pgRINGP p) RINGP_C_NAK_RX = (s.rd (pgRINGP p) RINGP_C_NAK_RX + 1) % 2
    ^ 64 ∧ u.rd (pgRINGP p) RINGP_C_REPLAYED = (s.rd (pgRINGP p) RINGP_C_REPLAYED + (s.hop p).replay.length) % 2 ^
    64) ∧
  (∀ (s : State) (t p a b c a0 b0 c0 : Nat), p < 4 ∧ s.portUp p = true ∧ (s.hop p).queue = [] ∧ (s.hop p).stallAt =
    none → a < 65536 ∧ b < 65536 ∧ c < 65536 ∧ (s.hop p).peerFreed = [a0, b0, c0] ∧ a0 ≤ a ∧ b0 ≤ b ∧ c0 ≤ c → ∃ u,
    exec (.creditFrame t p a b c) s = .next u ∧ u.hop p = { s.hop p with peerFreed := [a, b, c] } ∧ u.rd (pgRINGP p)
    RINGP_CR_CPL = (s.rd (pgRINGP p) RINGP_CR_CPL + (a - a0)) % 2 ^ RINGP_CR_CPL.width ∧ u.rd (pgRINGP p)
    RINGP_CR_REQ = (s.rd (pgRINGP p) RINGP_CR_REQ + (b - b0)) % 2 ^ RINGP_CR_REQ.width ∧ u.rd (pgRINGP p)
    RINGP_CR_ITEM = (s.rd (pgRINGP p) RINGP_CR_ITEM + (c - c0)) % 2 ^ RINGP_CR_ITEM.width ∧ RegsBut [(pgRINGP p,
    RINGP_C_FRAMES_RX), (pgRINGP p, RINGP_CR_CPL), (pgRINGP p, RINGP_CR_REQ), (pgRINGP p, RINGP_CR_ITEM)] [] s u) ∧
  (∀ (s : State) (t p : Nat), p < 4 ∧ s.portUp p = true → ∃ u, exec (.creditSend t p) s = .next u ∧ u.hop p =
    { s.hop p with freedSent := (s.hop p).freed } ∧ u.out = s.out ++ [.lineTx p (frameBytes ftCREDIT 0 0 ((s.hop
    p).freed.flatMap (beBytes 2) ++ beBytes 2 0))] ∧ RegsBut [(pgRINGP p, RINGP_C_FRAMES_TX)] [] s u) ∧
  (∀ (s : State) (t p : Nat), p < 4 ∧ s.portUp p = true → ∃ u, exec (.probeSend t p) s = .next u ∧ u.hop p =
    { s.hop p with probeNo := ((s.hop p).probeNo + 1) % 65536 } ∧ u.out = s.out ++ [.lineTx p (frameBytes ftPROBE 0
    (((s.hop p).probeNo + 1) % 65536) (probeBody false (max s.time.clk t) 0 0))] ∧ RegsBut [(pgRINGP p,
    RINGP_C_FRAMES_TX)] [] s u) ∧
  (∀ (s : State) (t p n t1 t2 t3 : Nat), p < 4 ∧ s.portUp p = true → ∃ u, exec (.probeFrame t p n false t1 t2 t3) s =
    .next u ∧ u.out = s.out ++ [.lineTx p (frameBytes ftPROBE 0 n (probeBody true t1 (max s.time.clk t) (max
    s.time.clk t)))] ∧ u.ring = s.ring ∧ RegsBut [(pgRINGP p, RINGP_C_FRAMES_TX), (pgRINGP p, RINGP_C_FRAMES_RX)] []
    s u) ∧
  (∀ (s : State) (t p t1 t2 t3 : Nat), p < 4 ∧ s.portUp p = true ∧ (s.hop p).hopRes.length < 16 → t1 ≤ max s.time.clk
    t ∧ max s.time.clk t < 2 ^ 63 ∧ t2 ≤ t3 ∧ t3 < 2 ^ 63 → ∃ u, exec (.probeFrame t p (s.hop p).probeNo true t1 t2
    t3) s = .next u ∧ (u.hop p).hopRes = (s.hop p).hopRes ++ [((max s.time.clk t : Int) - t1) - ((t3 : Int) - t2)] ∧
    Frame [(pgRINGP p, RINGP_C_FRAMES_RX), (pgRINGP p, RINGP_HOP_NS)] [] (s.at t) { u with ring := s.ring })

/-- A packet leaves its buffer and frees its credits, is taken or goes on with one hop less; items keep one copy;
  requests and completions are answered. (R203, R204, R209, R210, R217, R218, R219, R222, R223, R226, R227) -/
def Obligations.PacketsReachTheirHubAndGoOn : Prop :=
  (∀ (s : State) (t p vc resid : Nat) (foreign : Bool), p < 4 ∧ vc < 4 ∧ (∀ e ∈ (s.hop p).rxq, e.1 ≠ vc) → ∃ u, exec
    (.packetReceive t p vc resid foreign) s = .next u ∧ u = s.at t) ∧
  (∀ (s : State) (t p vc resid : Nat) (foreign : Bool) (body : List Byte) (l : List (Nat × List Byte)), p < 4 ∧ vc <
    4 ∧ (s.hop p).rxq = (vc, body) :: l ∧ pktOf body = none → ∃ u, exec (.packetReceive t p vc resid foreign) s =
    .next u ∧ u.hop p = { s.hop p with rxq := l, freed := freeCred (s.hop p).freed vc (frameCred body) } ∧ u.rd
    pgRING RING_C_PT_ERR = (s.rd pgRING RING_C_PT_ERR + 1) % 2 ^ 64 ∧ Frame [(pgRING, RING_C_PT_ERR)] [] (s.at t)
    { u with ring := s.ring }) ∧
  (∀ (s : State) (t p vc resid : Nat) (body : List Byte) (l : List (Nat × List Byte)) (k : RingPkt), p < 4 ∧ vc < 4 ∧
    (s.hop p).rxq = (vc, body) :: l ∧ pktOf body = some k → k.wr = false ∧ k.dmode = 0 ∧ k.dst = s.nodeId ∧ k.src ≠
    s.nodeId ∧ 2 ≤ k.hops ∧ (k.pt = 1 ∨ k.pt = 16 ∨ k.pt = 17 ∨ k.pt = 32) → ∃ u, exec (.packetReceive t p vc resid
    false) s = .next u ∧ u.ring.inbox = s.ring.inbox ++ [(p / 2, max s.time.clk t, k)] ∧ u.hop p =
    { s.hop p with rxq := l, freed := freeCred (s.hop p).freed vc (frameCred body) } ∧ u.regs = s.regs ∧ u.out =
    s.out ∧ u.del = s.del ∧ u.rx = s.rx) ∧
  (∀ (s : State) (t p vc resid : Nat) (body : List Byte) (l : List (Nat × List Byte)) (k : RingPkt) (q : Nat), p < 4
    ∧ vc < 4 ∧ q = otherPort p ∧ (s.hop p).rxq = (vc, body) :: l ∧ pktOf body = some k → k.wr = false ∧ k.dmode = 0 ∧
    k.dst ≠ s.nodeId ∧ k.src ≠ s.nodeId ∧ 2 ≤ k.hops ∧ k.pt = 32 → s.portUp q = true ∧ (s.hop q).queue = [] ∧ (s.hop
    q).stallAt = none ∧ s.mayGo q 1 false (pktBytes { k with hops := k.hops - 1 }) = true → ∃ u, exec (.packetReceive
    t p vc resid false) s = .next u ∧ u.out = s.out ++ [.lineTx q (frameBytes ftDATA 1 (s.hop q).txSeq (pktBytes
    { k with hops := k.hops - 1 }))] ∧ u.ring.inbox = s.ring.inbox ∧ u.hop p =
    { s.hop p with rxq := l, freed := freeCred (s.hop p).freed vc (frameCred body) } ∧ (u.hop q).txSeq = ((s.hop
    q).txSeq + 1) % 65536 ∧ u.rd (pgRINGP q) RINGP_CR_CPL = s.rd (pgRINGP q) RINGP_CR_CPL - frameCred (pktBytes
    { k with hops := k.hops - 1 })) ∧
  (∀ (s : State) (t r at_ : Nat) (k : RingPkt), s.ring.inbox = [(r, at_, k)] ∧ k.pt = 1 ∧ s.admitted r k.src = false
    → ∃ u, exec (.itemIn t) s = .next u ∧ u.rd pgRING RING_C_NOT_ADMITTED_DROP = (s.rd pgRING
    RING_C_NOT_ADMITTED_DROP + 1) % 2 ^ 64 ∧ u.ring = { s.ring with inbox := [] } ∧ Frame [(pgRING,
    RING_C_NOT_ADMITTED_DROP)] [] (s.at t) { u with ring := s.ring }) ∧
  (∀ (s : State) (t r at_ : Nat) (k : RingPkt) (w : IseqWin), s.ring.inbox = [(r, at_, k)] ∧ k.pt = 1 ∧ s.admitted r
    k.src = true → tabGet? s.ring.iseq k.src = some w ∧ w.top = beAt k.payload 0 4 ∧ (∀ m ∈ w.miss, m.1 ≠ w.top) ∧
    w.lost.contains w.top = false → ∃ u, exec (.itemIn t) s = .next u ∧ u.rd pgRING RING_C_DUP_COPY = (s.rd pgRING
    RING_C_DUP_COPY + 1) % 2 ^ 64 ∧ u.ring = { s.ring with inbox := [] } ∧ Frame [(pgRING, RING_C_DUP_COPY)] [] (s.at
    t) { u with ring := s.ring }) ∧
  (∀ (s : State) (t r at_ : Nat) (k : RingPkt), s.ring.inbox = [(r, at_, k)] ∧ r < 2 ∧ k.pt = 1 ∧ s.admitted r k.src
    = true ∧ tabGet? s.ring.iseq k.src = none → s.portOf k.src (leAt k.payload 4 1) = none ∧ s.ring.sigHeld = [] → ∃
    u, exec (.itemIn t) s = .next u ∧ tabGet? u.ring.iseq k.src = some ⟨beAt k.payload 0 4, beAt k.payload 0 4, [],
    [], []⟩ ∧ u.ring.inbox = [] ∧ u.rd pgRING RING_C_KEPT_A = (s.rd pgRING RING_C_KEPT_A + (if r = 0 then 1 else 0))
    % 2 ^ 64 ∧ u.rd pgRING RING_C_KEPT_B = (s.rd pgRING RING_C_KEPT_B + r) % 2 ^ 64 ∧ u.rd pgRING RING_C_UNMAPPED_IN
    = (s.rd pgRING RING_C_UNMAPPED_IN + 1) % 2 ^ 64 ∧ RegsBut [(pgRING, RING_C_KEPT_A), (pgRING, RING_C_KEPT_B),
    (pgRING, RING_C_UNMAPPED_IN)] [] s u ∧ u.rx = s.rx ∧ u.out = s.out) ∧
  (∀ (s : State) (t n : Nat) (w : IseqWin), s.ring.iseq = [(n, w)] → ∃ u, exec (.iseqTimeout t) s = .next u ∧
    u.ring.iseq = [(n, (w.sweep (max s.time.clk t)).2)] ∧ u.rd pgRING RING_C_ISEQ_LOST = (s.rd pgRING
    RING_C_ISEQ_LOST + (w.miss.filter (fun m => decide (m.2 + 100 * usU ≤ max s.time.clk t))).length) % 2 ^ 64 ∧
    Frame [(pgRING, RING_C_ISEQ_LOST)] [] (s.at t) { u with ring := s.ring }) ∧
  (∀ (s : State) (t r0 at_ r h q d : Nat) (k c : RingPkt), s.ring.inbox = [(r0, at_, k)] ∧ k.pt = 17 ∧ s.nearest
    k.src = some (r, d, h) ∧ s.egressTo r k.src = some (d, h) → c =
    { mkPkt s.nodeId 0x20 0 k.src 0 (k.payload.take 2 ++ [8#8, 0#8]) with hops := h } ∧ q = ringPort r d ∧ q < 4 →
    s.portUp q = true ∧ (s.hop q).queue = [] ∧ (s.hop q).stallAt = none ∧ s.mayGo q 1 true (pktBytes c) = true → ∃ u,
    exec (.wrReqRx t) s = .next u ∧ u.out = s.out ++ [.lineTx q (frameBytes ftDATA 1 (s.hop q).txSeq (pktBytes c))] ∧
    u.rd pgRING RING_C_LEAF_WR_REFUSED = (s.rd pgRING RING_C_LEAF_WR_REFUSED + 1) % 2 ^ 64 ∧ u.ring.inbox = [] ∧
    u.del = s.del ∧ u.rx = s.rx ∧ u.cells = s.cells) ∧
  (∀ (s : State) (t r0 at_ r h q d : Nat) (k c : RingPkt), s.ring.inbox = [(r0, at_, k)] ∧ k.pt = 16 ∧ s.nearest
    k.src = some (r, d, h) ∧ s.egressTo r k.src = some (d, h) → s.reachable k.src = true ∧ leAt k.payload 2 1 ≠ 4 ∧
    leAt k.payload 2 1 ≠ 8 ∧ leAt k.payload 2 1 ≠ 16 ∧ leAt k.payload 2 1 ≠ 32 ∧ leAt k.payload 2 1 ≠ 64 → c =
    { mkPkt s.nodeId 0x20 0 k.src 0 (k.payload.take 2 ++ [1#8, 0#8]) with hops := h } ∧ q = ringPort r d ∧ q < 4 →
    s.portUp q = true ∧ (s.hop q).queue = [] ∧ (s.hop q).stallAt = none ∧ s.mayGo q 1 true (pktBytes c) = true → ∃ u,
    exec (.rdReqRx t) s = .next u ∧ u.out = s.out ++ [.lineTx q (frameBytes ftDATA 1 (s.hop q).txSeq (pktBytes c))] ∧
    u.del = s.del ∧ u.rx = s.rx ∧ u.cells = s.cells ∧ u.ring.inbox = []) ∧
  (∀ (s : State) (t r at_ : Nat) (k : RingPkt), s.ring.inbox = [(r, at_, k)] ∧ k.pt = 32 ∧ tabGet? s.ring.tags (beAt
    k.payload 0 2 % 1024) = none → ∃ u, exec (.cplRx t) s = .next u ∧ u.rd pgRING RING_C_CPL_STALE = (s.rd pgRING
    RING_C_CPL_STALE + 1) % 2 ^ 64 ∧ u.ring = { s.ring with inbox := [] } ∧ Frame [(pgRING, RING_C_CPL_STALE)] []
    (s.at t) { u with ring := s.ring }) ∧
  (∀ (s : State) (t r at_ at1 g n : Nat) (k : RingPkt) (q : Req), s.ring.inbox = [(r, at_, k)] ∧ k.pt = 32 ∧ beAt
    k.payload 0 2 % 1024 = g ∧ s.ring.tags = [(g, at1, q)] ∧ s.ring.waiting = [] → q.origin = .ra n ∧ n < 32 ∧
    q.write = true ∧ leAt k.payload 2 1 = 0 ∧ s.on (raAt n) RA_IRQ = false → beAt k.payload 0 2 / 1024 % 4 =
    ((tabGet? s.ring.tgen g).getD 0 + 3) % 4 → ∃ u, exec (.cplRx t) s = .next u ∧ u.rd (raAt n) RA_STATE = 2 ∧ u.rd
    (raAt n) RA_STATUS = 0 ∧ u.ring = { s.ring with inbox := [], tags := [] } ∧ u.rd pgRING RING_TAGS_USED = 0 ∧
    Frame [(raAt n, RA_STATE), (raAt n, RA_STATUS), (raAt n, RA_LAT_NS), (pgRING, RING_TAGS_USED)] [] (s.at t)
    { u with ring := s.ring, host := s.host }) ∧
  (∀ (s : State) (t at_ g n : Nat) (q : Req), s.ring.tags = [(g, at_, q)] ∧ s.ring.waiting = [] ∧ q.origin = .ra n ∧
    n < 32 ∧ s.on (raAt n) RA_IRQ = false → at_ + s.rd pgRING RING_CPL_TO_US * usU ≤ max s.time.clk t → ∃ u, exec
    (.cplTimeout t) s = .next u ∧ u.rd (raAt n) RA_STATE = 2 ∧ u.rd (raAt n) RA_STATUS = 5 ∧ u.ring =
    { s.ring with tags := [] } ∧ u.rd pgRING RING_C_CPL_TIMEOUT = (s.rd pgRING RING_C_CPL_TIMEOUT + 1) % 2 ^ 64 ∧
    u.pends 0x14 8 = true ∧ Frame [(raAt n, RA_STATE), (raAt n, RA_STATUS), (raAt n, RA_LAT_NS), (pgRING,
    RING_TAGS_USED), (pgRING, RING_C_CPL_TIMEOUT)] [0x14] (s.at t)
    { u with ring := s.ring, host := { u.host with raAt := s.host.raAt } })

/-- SIG messages act once by type, a returned pass admits its leaves, a late pass is sent again, map entries are
  judged, and a multicast bank switches whole. (R189, R209, R210, R215, R216, R227, R228, R231, R232, R236, R241,
  R245) -/
def Obligations.SignalsBeatsAndDiscovery : Prop :=
  (∀ (s : State) (t at_ r : Nat) (k : RingPkt), s.ring.inbox = [(r, at_, k)] ∧ k.pt = 3 ∧ leAt k.payload 4 1 = 1 ∧
    isLeafId k.src = false → ∃ u, exec (.linkDownSig t) s = .next u ∧ tabGet? u.ring.passAt 0 = some (max s.time.clk
    t) ∧ tabGet? u.ring.passAt 1 = some (max s.time.clk t) ∧ u.ring.inbox = [] ∧ u.del = s.del ∧ u.rx = s.rx ∧
    u.ring.iseq = s.ring.iseq) ∧
  (∀ (s : State) (t at_ r : Nat) (k : RingPkt), s.ring.inbox = [(r, at_, k)] ∧ k.pt = 3 ∧ leAt k.payload 4 1 = 1 ∧
    isLeafId k.src = true ∧ s.admitted r k.src = false → ∃ u, exec (.linkDownSig t) s = .next u ∧ u.rd pgRING
    RING_C_NOT_ADMITTED_DROP = (s.rd pgRING RING_C_NOT_ADMITTED_DROP + 1) % 2 ^ 64 ∧ u.ring =
    { s.ring with inbox := [] } ∧ Frame [(pgRING, RING_C_NOT_ADMITTED_DROP)] [] (s.at t) { u with ring := s.ring }) ∧
  (∀ (s : State) (t at_ r : Nat) (k : RingPkt), s.ring.inbox = [(r, at_, k)] ∧ k.pt = 3 ∧ leAt k.payload 4 1 = 2 ∧
    isLeafId k.src = false → ∃ u, exec (.linkUpSig t) s = .next u ∧ tabGet? u.ring.passAt 0 = some (max s.time.clk t)
    ∧ tabGet? u.ring.passAt 1 = some (max s.time.clk t) ∧ u.ring.inbox = []) ∧
  (∀ (s : State) (t at_ r : Nat) (k : RingPkt), s.ring.inbox = [(r, at_, k)] ∧ k.pt = 3 ∧ leAt k.payload 4 1 = 3 ∧
    isLeafId k.src = true ∧ k.src < 256 ∧ s.admitted r k.src = true → s.rd (nodeAt k.src) NODE_INCARN ≠ beAt
    k.payload 10 2 ∧ s.active = false ∧ s.ring.tags = [] ∧ s.ring.waiting = [] ∧ s.ring.sigHeld = [] → ∃ u, exec
    (.leafReset t) s = .next u ∧ u.rd (nodeAt k.src) NODE_INCARN = beAt k.payload 10 2 ∧ u.pends 0x14 3 = true ∧ u.rd
    pgRING RING_SIG_NODE = k.src ∧ u.rd pgRING RING_SIG_TYPE = 3 ∧ u.rd pgRING RING_SIG_CAUSE = beAt k.payload 8 2 ∧
    tabGet? u.ring.iseq k.src = some ⟨beAt k.payload 0 4, beAt k.payload 0 4, [], [], []⟩ ∧ tabGet? u.ring.passAt 0 =
    some (max s.time.clk t)) ∧
  (∀ (s : State) (t at_ r : Nat) (k : RingPkt), s.ring.inbox = [(r, at_, k)] ∧ k.pt = 3 ∧ leAt k.payload 4 1 = 5 ∧
    isLeafId k.src = true ∧ k.src < 256 ∧ s.admitted r k.src = true → tabGet? s.ring.iseq k.src = none ∧
    s.ring.sigHeld = [] → ∃ u, exec (.interruptSig t) s = .next u ∧ u.rd pgRING RING_SIG_NODE = k.src ∧ u.rd pgRING
    RING_SIG_TYPE = 5 ∧ u.rd pgRING RING_SIG_CAUSE = beAt k.payload 8 2 ∧ u.pends 0x14 9 = true ∧ Frame [(pgRING,
    RING_SIG_NODE), (pgRING, RING_SIG_TYPE), (pgRING, RING_SIG_CAUSE)] [0x14] (s.at t) { u with ring := s.ring }) ∧
  (∀ (s : State) (t at_ r p : Nat) (k : RingPkt), s.ring.inbox = [(r, at_, k)] ∧ k.pt = 3 ∧ leAt k.payload 4 1 = 6 ∧
    isLeafId k.src = true ∧ s.admitted r k.src = true → tabGet? s.ring.iseq k.src = none ∧ s.ring.sigHeld = [] ∧
    s.portOf k.src (leAt k.payload 8 1) = some p → ∃ u, exec (.lineCountsSig t) s = .next u ∧ (∀ i : Nat, i < 9 →
    u.rd (ingestCtrAt p) (ctr (lineCtrs.getD i 0)) = (s.rd (ingestCtrAt p) (ctr (lineCtrs.getD i 0)) + beAt k.payload
    (9 + 4 * i) 4) % 2 ^ 64) ∧ Frame (lineCtrs.map (fun i => (ingestCtrAt p, ctr i))) [] (s.at t)
    { u with ring := s.ring }) ∧
  (∀ (s : State) (t at_ : Nat) (k : RingPkt), s.ring.sigHeld = [(at_, k)] ∧ max s.time.clk t < at_ + 100 * usU → ∃ u,
    exec (.sigHoldTimeout t) s = .next u ∧ u = s.at t) ∧
  (∀ (s : State) (t at_ : Nat) (k : RingPkt), s.ring.sigHeld = [(at_, k)] ∧ at_ + 100 * usU ≤ max s.time.clk t ∧ leAt
    k.payload 4 1 = 5 → ∃ u, exec (.sigHoldTimeout t) s = .next u ∧ u.pends 0x14 9 = true ∧ u.ring =
    { s.ring with sigHeld := [] } ∧ Frame [(pgRING, RING_SIG_NODE), (pgRING, RING_SIG_TYPE), (pgRING,
    RING_SIG_CAUSE)] [0x14] (s.at t) { u with ring := s.ring }) ∧
  (∀ (s : State) (t at_ r : Nat) (k : RingPkt), s.ring.inbox = [(r, at_, k)] ∧ k.pt = 3 ∧ leAt k.payload 4 1 = 16 ∧
    k.src = s.nodeId ∧ s.role ≠ 0 → ∃ u, exec (.hubBeatRx t) s = .next u ∧ u.pends 8 11 = true ∧ u.ring =
    { s.ring with inbox := [] } ∧ Frame [] [8] (s.at t) { u with ring := s.ring }) ∧
  (∀ (s : State) (t at_ r : Nat) (k : RingPkt), s.ring.inbox = [(r, at_, k)] ∧ k.pt = 3 ∧ leAt k.payload 4 1 = 17 ∧
    isLeafId k.src = true ∧ s.admitted r k.src = true → tabGet? s.ring.iseq k.src = none ∧ s.ring.sigHeld = [] ∧ beAt
    k.payload 10 4 = 0 → ∃ u, exec (.beatAckRx t) s = .next u ∧ tabGet? u.ring.acks k.src = some (max s.time.clk t) ∧
    u.rd pgTWIN TWIN_ACK_LEAVES = u.ackLeaves % 2 ^ TWIN_ACK_LEAVES.width ∧ Frame [(pgTWIN, TWIN_ACK_LEAVES)] []
    (s.at t) { u with ring := s.ring }) ∧
  (∀ (s : State) (t : Nat), s.beats = false → ∃ u, exec (.hubBeatSend t) s = .next u ∧ u = s.at t) ∧
  (∀ (s : State) (t : Nat), s.beats = true → ∃ u, exec (.hubBeatSend t) s = .next u ∧ u.ring.beatNo = (s.ring.beatNo
    + 1) % 65536 ∧ u.ring.sigNo = (s.ring.sigNo + 1) % 2 ^ 32 ∧ ((∀ p : Nat, p < 4 → s.portUp p = false) → u.out =
    s.out) ∧ u.del = s.del ∧ u.rx = s.rx ∧ u.ring.inbox = s.ring.inbox) ∧
  (∀ (s : State) (t : Nat), ∃ u, exec (.discoverSend t) s = .next u ∧ tabGet? u.ring.passAt 0 = some (max s.time.clk
    t) ∧ tabGet? u.ring.passAt 1 = some (max s.time.clk t) ∧ u.del = s.del ∧ u.rx = s.rx ∧ u.ring.inbox =
    s.ring.inbox) ∧
  (∀ (s : State) (t : Nat), s.reaches 0x14 false → ∃ u, exec (.topoGo t) s = .next u ∧ tabGet? u.ring.passAt 0 = some
    (max s.time.clk t) ∧ tabGet? u.ring.passAt 1 = some (max s.time.clk t) ∧ u.del = s.del ∧ u.rx = s.rx ∧
    u.ring.inbox = s.ring.inbox) ∧
  (∀ (s : State) (t at_ : Nat) (k : RingPkt) (d : DiscRec), s.ring.inbox = [(0, at_, k)] ∧ k.pt = 4 ∧ discRecs 256
    k.payload = [d] ∧ d.hub = false ∧ 1 ≤ d.id ∧ d.id ≤ 250 → s.passOf 0 = [] ∧ s.passOf 1 = [] ∧ s.active = false ∧
    s.ring.tags = [] ∧ s.ring.waiting = [] → s.on (nodeAt d.id) NODE_ADM_A = false ∧ s.on (nodeAt d.id) NODE_ADM_B =
    false → ∃ u, exec (.discoverReturn t) s = .next u ∧ u.on (nodeAt d.id) NODE_ADM_A = true ∧ u.on (nodeAt d.id)
    NODE_ADM_B = false ∧ u.on (nodeAt d.id) NODE_SINGLE = true ∧ u.on (nodeAt d.id) NODE_LOST = false ∧ u.rd (nodeAt
    d.id) NODE_INCARN = d.incarn % 2 ^ NODE_INCARN.width ∧ u.rd pgRING RING_LEAVES_A = 1 ∧ u.rd pgRING RING_LEAVES_B
    = 0 ∧ u.pends 0x14 0 = true ∧ u.rd pgRING RING_C_TOPO_PASSES = (s.rd pgRING RING_C_TOPO_PASSES + 1) % 2 ^ 64 ∧
    tabGet? u.ring.topo 0 = some [d] ∧ tabGet? u.ring.passAt 0 = none ∧ u.del = s.del) ∧
  (∀ (s : State) (t at_ : Nat), s.ring.passAt = [(0, at_)] → ∃ u, exec (.discoverTimeout t) s = .next u ∧ (if at_ +
    msU ≤ max s.time.clk t then tabGet? u.ring.passAt 0 = some (max s.time.clk t) ∧ u.rd pgRING RING_C_TOPO_LOST =
    (s.rd pgRING RING_C_TOPO_LOST + 1) % 2 ^ 64 else u = s.at t)) ∧
  (∀ (s : State) (t p : Nat) (word : Word), p < 64 → ∃ u, exec (.portMapWrite t p word) s = .next u ∧ u = s.at t) ∧
  (∀ (s : State) (t p : Nat) (word : Word), 64 ≤ p ∧ p < 2048 ∧ s.reachesWin true ∧ s.portMapBad p word.toNat = true
    → ∃ u, exec (.portMapWrite t p word) s = .next u ∧ Frame (refusalFields 0x14) [0] (s.at t) u ∧ u.on (pgAt 0x14)
    PG_ERROR = true) ∧
  (∀ (s : State) (t p : Nat) (word : Word), 64 ≤ p ∧ p < 2048 ∧ s.reachesWin true ∧ s.portMapBad p word.toNat = false
    ∧ s.tstate < 2 ∧ s.ring.info = [] → ∃ u, exec (.portMapWrite t p word) s = .next u ∧ u.on (portmapAt p)
    PORTMAP_VALID = word.toNat.testBit 0 ∧ u.rd (portmapAt p) PORTMAP_LEAF = word.toNat / 256 % 2 ^
    PORTMAP_LEAF.width ∧ u.rd (portmapAt p) PORTMAP_LPORT = word.toNat / 65536 % 2 ^ PORTMAP_LPORT.width ∧ u.on
    (portmapAt p) PORTMAP_REACH_A = (word.toNat.testBit 0 && s.admitted 0 (word.toNat / 256 % 256)) ∧ u.on (portmapAt
    p) PORTMAP_REACH_B = (word.toNat.testBit 0 && s.admitted 1 (word.toNat / 256 % 256)) ∧ Frame ([PORTMAP_VALID,
    PORTMAP_LEAF, PORTMAP_LPORT, PORTMAP_CFG_OK, PORTMAP_CFG_FAIL, PORTMAP_REACH_A, PORTMAP_REACH_B].map (fun f =>
    (portmapAt p, f))) [] (s.at t) u) ∧
  (∀ (s : State) (t g : Nat), g < 4096 ∧ tabGet? s.ring.switching g = none → ∃ u, exec (.mbankSwitch t g) s = .next u
    ∧ u = s.at t) ∧
  (∀ (s : State) (t g : Nat) (b : BankSwitch), g < 4096 ∧ tabGet? s.ring.switching g = some b ∧ b.waits = 0 ∧
    b.missed = [] ∧ b.again = false → (∀ x ∈ s.ring.grpSlots, x.group = g → x.bank ≠ s.rd (mgroupAt g) MGROUP_MBANK)
    → ∃ u, exec (.mbankSwitch t g) s = .next u ∧ u.rd (mgroupAt g) MGROUP_MBANK = (1 - s.rd (mgroupAt g)
    MGROUP_MBANK) % 2 ∧ u.rd (mgroupAt g) MGROUP_SWITCHING = 0 ∧ tabGet? u.ring.banks g = some b.ports ∧ tabGet?
    u.ring.switching g = none ∧ u.ring.grpSlots = s.ring.grpSlots ∧ Frame [(mgroupAt g, MGROUP_MBANK), (mgroupAt g,
    MGROUP_SWITCHING)] [] (s.at t) { u with ring := s.ring })

/-- Beats show the twin and its role; lost paths, the quorum rule, takeover, relinquishing, handover and the writes
  of page 0x008 change this hub's role. (R232, R241, R245, R246, R247, R250, R253, R254, R255, R257, R258, R263) -/
def Obligations.RolesFollowBeatsAndTheQuorum : Prop :=
  (∀ (s : State) (t : Nat), s.beats = true ∧ s.active = true ∧ s.rd pgTWIN TWIN_LANES = 1 → ∃ u, exec (.beatSend t) s
    = .next u ∧ u.out = s.out ++ [.lineTx 4 (frameBytes 0x10 0 0 (beBytes 1 2 ++ beBytes 1 s.tstate ++ beBytes 1
    (s.rd pgSYS SYS_FIRST) ++ beBytes 1 (s.at t).ackLeaves ++ beBytes 4 (s.rd pgRING RING_EPOCH) ++ beBytes 2
    s.twin.beatNo ++ beBytes 2 0 ++ beBytes 4 (s.rd pgTWIN TWIN_HEALTH) ++ beBytes 8 (s.rd pgTWIN TWIN_LPOS_TX) ++
    beBytes 8 0))] ∧ RegsBut [(pgTWIN, TWIN_ACK_LEAVES)] [] s u ∧ u.twin =
    { s.twin with beatNo := (s.twin.beatNo + 1) % 65536 }) ∧
  (∀ (s : State) (t : Nat), s.beats = false → ∃ u, exec (.beatSend t) s = .next u ∧ u = s.at t) ∧
  (∀ (s : State) (t role ts epoch health lpos : Nat) (join : Bool), s.rd pgTWIN TWIN_LANES = 0 → ∃ u, exec (.beatRx t
    role ts join epoch health lpos) s = .next u ∧ u = s.at t) ∧
  (∀ (s : State) (t health lpos : Nat) (join : Bool), s.rd pgTWIN TWIN_LANES ≠ 0 ∧ s.role = 1 ∧ s.tstate = 1 ∧ health
    < 4096 ∧ s.rd pgTWIN TWIN_PEER_HEALTH = health → ∃ u, exec (.beatRx t 2 3 join 0 health lpos) s = .next u ∧ u.rd
    pgTWIN TWIN_PEER_ROLE = 2 ∧ (u.rd pgTWIN TWIN_PATHS).testBit 0 = true ∧ tabGet? u.twin.beatAt 0 = some (max
    s.time.clk t) ∧ u.twin.activeAt = some (max s.time.clk t) ∧ Frame [(pgTWIN, TWIN_PEER_ROLE), (pgTWIN,
    TWIN_PATHS)] [] (s.at t) { u with twin := s.twin }) ∧
  (∀ (s : State) (t epoch health lpos : Nat) (join : Bool), s.rd pgTWIN TWIN_LANES ≠ 0 ∧ s.role = 2 ∧ s.tstate = 1 ∧
    health < 4096 ∧ s.rd pgTWIN TWIN_PEER_HEALTH = health → epoch < 2 ^ 32 ∧ epoch % 256 ≠ s.nodeId ∧ tokenHigher
    epoch (s.rd pgRING RING_EPOCH) = true → s.on pgJRNL JRNL_TRIG_DUAL = false ∧ s.on pgJRNL JRNL_TRIG_SEALED = false
    → ∃ u, exec (.beatRx t 2 1 join epoch health lpos) s = .next u ∧ u.role = 3 ∧ u.rd pgTWIN TWIN_SEAL_CAUSE = 3 ∧
    u.pends 8 8 = true ∧ u.pends 8 2 = true ∧ u.rd pgTWIN TWIN_C_DUAL_ACTIVE = (s.rd pgTWIN TWIN_C_DUAL_ACTIVE + 1) %
    2 ^ 64 ∧ u.rd pgTWIN TWIN_C_SEALS = (s.rd pgTWIN TWIN_C_SEALS + 1) % 2 ^ 64) ∧
  (∀ (s : State) (t health lpos : Nat) (join : Bool), s.rd pgTWIN TWIN_LANES ≠ 0 ∧ s.role = 1 ∧ s.tstate = 1 ∧ health
    < 4096 ∧ s.rd pgTWIN TWIN_PEER_HEALTH = health ∧ s.rd pgTWIN TWIN_PEER_ROLE = 2 ∧ s.twin.relq = none → ∃ u, exec
    (.beatRx t 0 1 join 0 health lpos) s = .next u ∧ u.twin.relq = some (1, s.rd pgTWIN TWIN_LPOS_TX + 1, max
    s.time.clk t + 20 * usU) ∧ u.rd pgTWIN TWIN_PEER_ROLE = 0) ∧
  (∀ (s : State) (t p : Nat), p < 3 ∧ s.pathSeen p = true ∧ (tabGet? s.twin.beatAt p).getD 0 + s.rd pgTWIN
    TWIN_PATH_TO_US * usU ≤ max s.time.clk t → s.rd pgTWIN TWIN_PATHS &&& (7 - 2 ^ p) ≠ 0 → ∃ u, exec (.pathTimeout t
    p) s = .next u ∧ u.rd pgTWIN TWIN_PATHS = s.rd pgTWIN TWIN_PATHS &&& (7 - 2 ^ p) ∧ u.pends 8 5 = true ∧ u.rd
    pgTWIN (pathCtr p) = (s.rd pgTWIN (pathCtr p) + 1) % 2 ^ 64 ∧ Frame [(pgTWIN, TWIN_PATHS), (pgTWIN, pathCtr p)]
    [8] (s.at t) u) ∧
  (∀ (s : State) (t p : Nat), p < 3 ∧ (s.pathSeen p = false ∨ max s.time.clk t < (tabGet? s.twin.beatAt p).getD 0 +
    s.rd pgTWIN TWIN_PATH_TO_US * usU) → ∃ u, exec (.pathTimeout t p) s = .next u ∧ u = s.at t) ∧
  (∀ (s : State) (t : Nat), s.role = 0 ∧ s.twin.clash = false ∧ s.forward = true ∧ s.twin.startAt + 20 * msU ≤ max
    s.time.clk t ∧ s.rd pgTWIN TWIN_PATHS = 0 → (s.at t).quorum = true ∧ s.leaves = [] ∧ s.on pgJRNL
    JRNL_TRIG_TAKEOVER = false → ∃ u, exec (.roleDecision t) s = .next u ∧ u.role = 2 ∧ u.rd pgRING RING_EPOCH =
    s.nextToken ∧ u.rd pgTWIN TWIN_TKO_CAUSE = 5 ∧ u.rd pgTWIN TWIN_HOLD_BUS = 1 ∧ u.pends 8 0 = true ∧ u.rd pgTWIN
    TWIN_C_TAKEOVERS = (s.rd pgTWIN TWIN_C_TAKEOVERS + 1) % 2 ^ 64 ∧ u.twin.holdTo = max s.time.clk t + 2 * msU) ∧
  (∀ (s : State) (t : Nat), s.role = 0 ∧ s.twin.clash = false ∧ s.forward = true ∧ s.twin.startAt + 20 * msU ≤ max
    s.time.clk t ∧ s.rd pgTWIN TWIN_PATHS ≠ 0 ∧ s.rd pgTWIN TWIN_PEER_ROLE = 2 → ∃ u, exec (.roleDecision t) s =
    .next u ∧ u.role = 1 ∧ Frame [(pgTWIN, TWIN_ROLE), (pgTWIN, TWIN_ACK_LEAVES)] [] (s.at t) u) ∧
  (∀ (s : State) (t : Nat), s.active = true ∧ s.rd pgTWIN TWIN_PATHS = 0 ∧ (s.at t).quorum = false ∧ s.on pgJRNL
    JRNL_TRIG_SEALED = false → ∃ u, exec (.quorumCheck t) s = .next u ∧ u.role = 3 ∧ u.rd pgTWIN TWIN_SEAL_CAUSE = 2
    ∧ u.pends 8 2 = true) ∧
  (∀ (s : State) (t : Nat), (s.rd pgTWIN TWIN_PATHS ≠ 0 ∨ s.active = true ∧ (s.at t).quorum = true ∨ s.role = 0 ∨
    s.role = 3 ∨ s.role = 1 ∧ s.twin.relq.isSome = true) → ∃ u, exec (.quorumCheck t) s = .next u ∧ Frame [(pgTWIN,
    TWIN_ACK_LEAVES)] [] (s.at t) u) ∧
  (∀ (s : State) (t : Nat), s.role = 1 ∧ s.rd pgTWIN TWIN_PATHS = 0 ∧ s.tstate < 2 ∧ s.twin.relq = none ∧ (s.at
    t).quorum = true → ∃ u, exec (.quorumCheck t) s = .next u ∧ u.twin.relq = some (2, 0, max s.time.clk t) ∧ u.role
    = 1 ∧ u.tstate = 0 ∧ Frame [(pgTWIN, TWIN_ACK_LEAVES), (pgTWIN, TWIN_TSTATE)] [] (s.at t)
    { u with twin := s.twin }) ∧
  (∀ (s : State) (t : Nat), s.role = 1 ∧ s.rd pgTWIN TWIN_PATHS = 0 ∧ s.tstate < 2 ∧ s.twin.relq = none ∧ (s.at
    t).quorum = false ∧ s.on pgJRNL JRNL_TRIG_SEALED = false → ∃ u, exec (.quorumCheck t) s = .next u ∧ u.role = 3 ∧
    u.rd pgTWIN TWIN_SEAL_CAUSE = 2 ∧ u.pends 8 2 = true) ∧
  (∀ (s : State) (t bit : Nat) (on : Bool), bit < 12 ∧ healthOwn.testBit bit = false ∧ (s.active = false ∨ on =
    false) → ∃ u, exec (.healthFault t bit on) s = .next u ∧ (u.rd pgTWIN TWIN_HEALTH).testBit bit = on ∧ (∀ b : Nat,
    b < 12 → b ≠ bit → (u.rd pgTWIN TWIN_HEALTH).testBit b = (s.rd pgTWIN TWIN_HEALTH).testBit b) ∧ Frame [(pgTWIN,
    TWIN_HEALTH)] [] (s.at t) u) ∧
  (∀ (s : State) (t bit : Nat), bit < 11 ∧ healthOwn.testBit bit = false ∧ s.active = true ∧ (s.rd pgTWIN
    TWIN_RELQ_MASK).testBit bit = true ∧ s.inStep = true ∧ s.twinHealthy = true → s.rd pgTWIN TWIN_LANES = 0 ∧ (∀ p :
    Nat, p < 4 → s.portUp p = false) ∧ s.on pgJRNL JRNL_TRIG_SEALED = false → ∃ u, exec (.healthFault t bit true) s =
    .next u ∧ u.role = 3 ∧ u.rd pgTWIN TWIN_SEAL_CAUSE = 1 ∧ u.pends 8 1 = true ∧ u.rd pgTWIN TWIN_C_RELINQUISHES =
    (s.rd pgTWIN TWIN_C_RELINQUISHES + 1) % 2 ^ 64) ∧
  (∀ (s : State) (t lpos : Nat), s.role = 1 ∧ s.inStep = true ∧ lpos < 2 ^ 64 - 1 → ∃ u, exec (.relinquish t lpos) s
    = .next u ∧ u.twin = { s.twin with relq := some (1, lpos + 1, max s.time.clk t + 20 * usU) } ∧ u.regs = s.regs ∧
    u.out = s.out) ∧
  (∀ (s : State) (t lpos : Nat), (s.role ≠ 1 ∨ s.inStep = false) → ∃ u, exec (.relinquish t lpos) s = .next u ∧ u =
    s.at t) ∧
  (∀ (s : State) (t upTo until_ : Nat), s.twin.relq = some (2, upTo, until_) ∧ s.role = 1 ∧ (upTo ≤ s.rd pgTWIN
    TWIN_LPOS_TX ∨ until_ ≤ max s.time.clk t) ∧ s.tstate < 2 → s.leaves = [] ∧ s.on pgJRNL JRNL_TRIG_TAKEOVER = false
    ∧ (∀ p : Nat, p < 4 → s.portUp p = false) → ∃ u, exec (.takeover t) s = .next u ∧ u.role = 2 ∧ u.rd pgRING
    RING_EPOCH = s.nextToken ∧ u.rd pgTWIN TWIN_TKO_CAUSE = 2 ∧ u.rd pgTWIN TWIN_HOLD_BUS = 1 ∧ u.twin.relq = none ∧
    u.rd pgTWIN TWIN_TKO_LPOS = (s.rd pgTWIN TWIN_LPOS_TX + 2 ^ 64 - 1) % 2 ^ 64 ∧ u.pends 8 0 = true) ∧
  (∀ (s : State) (t : Nat), s.twin.relq = none → ∃ u, exec (.takeover t) s = .next u ∧ u = s.at t) ∧
  (∀ (s : State) (t : Nat), s.on pgTWIN TWIN_HOLD_BUS = true ∧ s.twin.holdTo ≤ max s.time.clk t ∧ s.twin.activeAt =
    none → ∃ u, exec (.busHoldEnd t) s = .next u ∧ u.on pgTWIN TWIN_HOLD_BUS = false ∧ u.twin = s.twin ∧ u.rx = s.rx) ∧
  (∀ (s : State) (t : Nat), (s.on pgTWIN TWIN_HOLD_BUS = false ∨ max s.time.clk t < s.twin.holdTo) → ∃ u, exec
    (.busHoldEnd t) s = .next u ∧ u = s.at t) ∧
  (∀ (s : State) (t : Nat), s.reaches 8 false → ∃ u, exec (.seal t true) s = .next u ∧ Frame (refusalFields 8) [0]
    (s.at t) u ∧ u.on (pgAt 8) PG_ERROR = true) ∧
  (∀ (s : State) (t : Nat), s.reaches 8 false → ∃ u, exec (.rejoin t true) s = .next u ∧ Frame (refusalFields 8) [0]
    (s.at t) u ∧ u.on (pgAt 8) PG_ERROR = true) ∧
  (∀ (s : State) (t : Nat), s.reaches 8 false → ∃ u, exec (.forceActive t true) s = .next u ∧ Frame (refusalFields 8)
    [0] (s.at t) u ∧ u.on (pgAt 8) PG_ERROR = true) ∧
  (∀ (s : State) (t : Nat), s.reaches 8 false → ∃ u, exec (.handover t true) s = .next u ∧ Frame (refusalFields 8)
    [0] (s.at t) u ∧ u.on (pgAt 8) PG_ERROR = true) ∧
  (∀ (s : State) (t : Nat), s.reaches 8 false ∧ s.role ≠ 3 ∧ (s.active = false ∨ s.inStep = false) ∧ s.on pgJRNL
    JRNL_TRIG_SEALED = false → ∃ u, exec (.seal t false) s = .next u ∧ u.role = 3 ∧ u.rd pgTWIN TWIN_SEAL_CAUSE = 4 ∧
    u.pends 8 2 = true) ∧
  (∀ (s : State) (t : Nat), s.reaches 8 false → ∃ u, exec (.rejoin t false) s = .next u ∧ (if s.role = 3 then u.role
    = 1 ∧ Frame [(pgTWIN, TWIN_ROLE)] [] (s.at t) u else Frame (refusalFields 8) [0] (s.at t) u ∧ u.on (pgAt 8)
    PG_ERROR = true)) ∧
  (∀ (s : State) (t : Nat), s.reaches 8 false ∧ (s.role = 0 ∨ s.role = 3) ∧ s.twin.clash = false ∧ s.forward = true ∧
    s.leaves = [] ∧ s.on pgJRNL JRNL_TRIG_TAKEOVER = false → ∃ u, exec (.forceActive t false) s = .next u ∧ u.role =
    2 ∧ u.rd pgRING RING_EPOCH = s.nextToken ∧ u.rd pgTWIN TWIN_TKO_CAUSE = 4) ∧
  (∀ (s : State) (t : Nat), s.reaches 8 false ∧ (s.role = 1 ∨ s.role = 2) → ∃ u, exec (.forceActive t false) s =
    .next u ∧ Frame (refusalFields 8) [0] (s.at t) u ∧ u.on (pgAt 8) PG_ERROR = true) ∧
  (∀ (s : State) (t : Nat), s.reaches 8 false → ∃ u, exec (.handover t false) s = .next u ∧ (if s.active && s.inStep
    && s.twinHealthy then u = { s.at t with twin := { s.twin with stopped := true, handing := true } } else Frame
    (refusalFields 8) [0] (s.at t) u ∧ u.on (pgAt 8) PG_ERROR = true)) ∧
  (∀ (s : State) (t : Nat), s.active = true ∧ s.twin.handing = true ∧ s.twin.acked = s.rd pgTWIN TWIN_LPOS_TX → ∃ u,
    exec (.handoverDrained t) s = .next u ∧ u.role = 1 ∧ u.rd pgTIME TIME_H_SRC = 1 ∧ u.twin.handing = false ∧
    u.twin.loaded = true ∧ u.twin.recs = []) ∧
  (∀ (s : State) (t : Nat), (s.active = false ∨ s.twin.handing = false ∨ s.twin.acked ≠ s.rd pgTWIN TWIN_LPOS_TX) → ∃
    u, exec (.handoverDrained t) s = .next u ∧ u = s.at t)

/-- LOG and BULK frames in order are acknowledged and applied in LPOS order, acknowledgements release records, stalls
  leave step, and H follows the active hub. (R197, R243, R244, R248, R249, R250, R251, R252, R261, R262) -/
def Obligations.TheLogIsSentAckedAndApplied : Prop :=
  (∀ (s : State) (t l lseq first : Nat) (good : Bool) (recs : List LogRec), l < 2 ∧ s.laneUp l = false → ∃ u, exec
    (.logFrame t l lseq good first recs) s = .next u ∧ u = s.at t) ∧
  (∀ (s : State) (t lseq first : Nat) (recs : List LogRec), s.rd pgTWIN TWIN_LANES = 1 ∧ (s.hop 4).nakAt = none → ∃
    u, exec (.logFrame t 0 lseq false first recs) s = .next u ∧ u.hop 4 =
    { s.hop 4 with nakAt := some (max s.time.clk t) } ∧ u.regs = s.regs ∧ u.twin = s.twin ∧ u.out = s.out ++ [.lineTx
    4 (frameBytes ftNAK 0 (((s.hop 4).rxSeq + 65535) % 65536) (leBytes 8 0))]) ∧
  (∀ (s : State) (t first : Nat) (recs : List LogRec), s.rd pgTWIN TWIN_LANES = 1 ∧ (s.hop 4).rxSeq < 65536 ∧ s.role
    = 1 ∧ s.tstate = 2 ∧ s.twin.loaded = false ∧ s.twin.store = [] ∧ first < 2 ^ 64 → ∃ u, exec (.logFrame t 0 (s.hop
    4).rxSeq true first recs) s = .next u ∧ u.hop 4 =
    { s.hop 4 with rxSeq := ((s.hop 4).rxSeq + 1) % 65536, nakAt := none } ∧ u.out = s.out ++ [.lineTx 4 (frameBytes
    ftACK 0 (s.hop 4).rxSeq (leBytes 8 0))] ∧ u.twin =
    { s.twin with store := recs.zipIdx.map (fun e => (first + e.2, max s.time.clk t, e.1)) } ∧ RegsBut [(pgTWIN,
    TWIN_C_REC_RX)] [] s u ∧ u.rd pgTWIN TWIN_C_REC_RX = (s.rd pgTWIN TWIN_C_REC_RX + recs.length) % 2 ^ 64) ∧
  (∀ (s : State) (t n ty : Nat), s.rd pgTWIN TWIN_LANES = 1 ∧ (s.hop 4).rxSeq < 65536 ∧ s.role = 1 ∧ s.tstate = 3 ∧
    s.twin.loaded = true ∧ s.twin.store = [] → n = s.rd pgTWIN TWIN_LPOS_TX ∧ n < 2 ^ 64 - 1 ∧ ty.testBit 7 = true →
    ∃ u, exec (.logFrame t 0 (s.hop 4).rxSeq true n [.unknown ty]) s = .next u ∧ u.rd pgTWIN TWIN_LPOS_TX = n + 1 ∧
    u.twin = { s.twin with fetch := none } ∧ u.out = s.out ++ [.lineTx 4 (frameBytes ftACK 0 (s.hop 4).rxSeq (leBytes
    8 0)), .lineTx 4 (frameBytes 0x13 0 0 (beBytes 8 n))] ∧ RegsBut [(pgTWIN, TWIN_C_REC_RX), (pgTWIN, TWIN_LPOS_TX)]
    [] s u) ∧
  (∀ (s : State) (t n : Nat), s.active = true ∧ 2 ≤ s.tstate ∧ s.twin.acked ≤ n ∧ n < s.rd pgTWIN TWIN_LPOS_TX → ∃ u,
    exec (.lackFrame t n) s = .next u ∧ u.twin =
    { s.twin with acked := n + 1, ackAt := max s.time.clk t, recs := s.twin.recs.filter (fun e => decide (n < e.1)) }
    ∧ u.rd pgTWIN TWIN_LPOS_ACK = n ∧ Frame [(pgTWIN, TWIN_LPOS_ACK), (pgTWIN, TWIN_LOG_LAG_US)] [] (s.at t)
    { u with twin := s.twin }) ∧
  (∀ (s : State) (t n : Nat), (s.active = false ∨ s.tstate < 2) → ∃ u, exec (.lackFrame t n) s = .next u ∧ u = s.at
    t) ∧
  (∀ (s : State) (t a b : Nat) (r : LogRec) (l : List (Nat × Nat × LogRec)), s.twin.recs = (a, b, r) :: l ∧ s.active
    = true ∧ s.inStep = true ∧ max b s.twin.ackAt + s.rd pgTWIN TWIN_LOG_TO_US * usU ≤ max s.time.clk t → ∃ u, exec
    (.logTimeout t) s = .next u ∧ u.tstate = 1 ∧ u.pends 8 4 = true ∧ u.rd pgTWIN TWIN_C_LOG_STALLS = (s.rd pgTWIN
    TWIN_C_LOG_STALLS + 1) % 2 ^ 64 ∧ u.twin.recs = [] ∧ Frame [(pgTWIN, TWIN_TSTATE), (pgTWIN, TWIN_C_LOG_STALLS)]
    [8] (s.at t) { u with twin := s.twin }) ∧
  (∀ (s : State) (t : Nat), s.twin.recs = [] → ∃ u, exec (.logTimeout t) s = .next u ∧ u = s.at t) ∧
  (∀ (s : State) (t at_ leaf hc iseq f h : Nat), s.role = 1 ∧ s.tstate = 3 ∧ s.twin.loaded = true ∧ s.twin.fetch =
    none ∧ s.twin.fetched = [] ∧ s.anvils = [] ∧ s.rx = [] ∧ s.rd pgTWIN TWIN_LANES = 2 → s.twin.store = [(s.rd
    pgTWIN TWIN_LPOS_TX, at_, .admission false leaf hc iseq f h)] ∧ at_ + 100 * usU ≤ max s.time.clk t → ∃ u, exec
    (.fetchTimeout t) s = .next u ∧ u.twin = { s.twin with fetch := some (s.rd pgTWIN TWIN_LPOS_TX) } ∧ u.rd pgTWIN
    TWIN_C_MISS_FETCH = (s.rd pgTWIN TWIN_C_MISS_FETCH + 1) % 2 ^ 64 ∧ u.out = s.out ++ [.lineTx 5 (frameBytes 0x14 0
    0 (beBytes 4 leaf ++ beBytes 4 iseq ++ beBytes 8 (s.rd pgTWIN TWIN_LPOS_TX)))] ∧ RegsBut [(pgTWIN,
    TWIN_C_MISS_FETCH)] [] s u) ∧
  (∀ (s : State) (t : Nat), (s.role ≠ 1 ∨ s.tstate < 2 ∨ s.twin.loaded = false) → ∃ u, exec (.fetchTimeout t) s =
    .next u ∧ u = s.at t) ∧
  (∀ (s : State) (t leaf iseq lpos h : Nat) (li : LItem), s.active = true ∧ s.del.items = [(h, li)] ∧ li.leaf = leaf
    ∧ li.iseq = iseq ∧ li.lpos = lpos + 1 ∧ s.twin.wait = [] ∧ s.rd pgTWIN TWIN_LANES = 0 → ∃ u, exec (.fetchFrame t
    leaf iseq lpos) s = .next u ∧ (if s.lanesTake (Config.bulkItem (itemHeader li.item ++ li.item.body)) then
    u.twin.wait = [] ∧ (u.hop 4).txSeq = ((s.hop 4).txSeq + 1) % 65536 else u.twin.wait = [(2, Config.bulkItem
    (itemHeader li.item ++ li.item.body))]) ∧ u.regs = s.regs ∧ u.del = s.del ∧ u.out = s.out) ∧
  (∀ (s : State) (t leaf iseq lpos : Nat), s.active = false → ∃ u, exec (.fetchFrame t leaf iseq lpos) s = .next u ∧
    u = s.at t) ∧
  (∀ (s : State) (t p0 : Nat), s.rd pgTWIN TWIN_LANES = 1 ∧ (s.hop 4).rxSeq < 65536 ∧ s.role = 1 ∧ s.tstate = 2 → ∃
    u, exec (.bulkFrame t 0 (s.hop 4).rxSeq true [.start p0]) s = .next u ∧ u.twin =
    { s.twin with p0 := p0, loaded := false } ∧ u.del.items = [] ∧ u.del.holds = [] ∧ u.conc.rounds = [] ∧ u.regs.all
    (fun c => !snapCell c.1) = true ∧ u.out = s.out ++ [.lineTx 4 (frameBytes ftACK 0 (s.hop 4).rxSeq (leBytes 8 0))]
    ∧ u.role = 1 ∧ u.tstate = 2 ∧ u.rx = s.rx) ∧
  (∀ (s : State) (t leaf iseq : Nat) (i : Item), s.rd pgTWIN TWIN_LANES = 1 ∧ (s.hop 4).rxSeq < 65536 ∧ s.role = 1 ∧
    s.tstate = 2 ∧ s.twin.loaded = false ∧ s.twin.store = [] → ∃ u, exec (.bulkFrame t 0 (s.hop 4).rxSeq true [.item
    leaf iseq i, .finish]) s = .next u ∧ u.twin =
    { s.twin with fetched := s.twin.fetched ++ [(leaf, iseq, i)], loaded := true } ∧ u.rd pgTWIN TWIN_LPOS_TX =
    s.twin.p0 % 2 ^ 64 ∧ u.tblGen = s.tblGen + 1 ∧ (∃ x, u.out = s.out ++ .lineTx 4 (frameBytes ftACK 0 (s.hop
    4).rxSeq (leBytes 8 0)) :: x) ∧ RegsBut [(pgTWIN, TWIN_LPOS_TX)] [] s u) ∧
  (∀ (s : State) (t d : Nat), s.active = true ∧ s.tstate = 2 ∧ s.twin.drainAt = some d ∧ d ≤ max s.time.clk t ∧
    s.oldRefs = [] → ∃ u, exec (.drainTimeout t) s = .next u ∧ u.tstate = 3 ∧ u.twin.drained = true ∧ u.pends 8 3 =
    true ∧ u.rd pgTWIN TWIN_C_RESYNCS = (s.rd pgTWIN TWIN_C_RESYNCS + 1) % 2 ^ 64 ∧ u.twin.recs.length =
    s.twin.recs.length + 2 ∧ u.rd pgTWIN TWIN_LPOS_TX = (s.rd pgTWIN TWIN_LPOS_TX + 2) % 2 ^ 64 ∧ u.del = s.del) ∧
  (∀ (s : State) (t : Nat), (s.active = false ∨ s.tstate ≠ 2 ∨ s.twin.drainAt = none) → ∃ u, exec (.drainTimeout t) s
    = .next u ∧ u = s.at t) ∧
  (∀ (s : State) (t p : Nat) (c : Cand), p < 58 ∧ (s.rxOf p).cands = [c] ∧ c.port = p ∧ s.standbyInStep = true ∧
    c.born + 2 * msU ≤ max s.time.clk t ∧ s.anvils = [] → ∃ u, exec (.localHoldExpiry t p) s = .next u ∧ (u.rxOf
    p).cands = [] ∧ (u.rxOf p).fp = (s.rxOf p).fp + c.words ∧ u.rd pgTWIN TWIN_C_LOCAL_UNMATCHED = (s.rd pgTWIN
    TWIN_C_LOCAL_UNMATCHED + 1) % 2 ^ 64 ∧ Frame ((pgTWIN, TWIN_C_LOCAL_UNMATCHED) :: rxFields p) [] (s.at t)
    { u with rx := s.rx }) ∧
  (∀ (s : State) (t p : Nat), p < 58 ∧ ((s.rxOf p).cands = [] ∨ s.standbyInStep = false) → ∃ u, exec
    (.localHoldExpiry t p) s = .next u ∧ u = s.at t) ∧
  (∀ (s : State) (t : Nat), s.rd pgTWIN TWIN_LANES = 1 → ∃ u, exec (.timeXferSend t) s = .next u ∧ u.out = s.out ++
    [.lineTx 4 (frameBytes 0x12 0 0 (probeBody false (s.at t).time.h 0 0))] ∧ u.time =
    { (s.at t).time with xferT1 := (s.at t).time.h % 2 ^ 64 } ∧ u.regs = s.regs) ∧
  (∀ (s : State) (t t1 t2 t3 dom : Nat), s.rd pgTWIN TWIN_LANES = 1 → ∃ u, exec (.timeXfer t false t1 t2 t3 dom) s =
    .next u ∧ u.out = s.out ++ [.lineTx 4 (frameBytes 0x12 0 0 (probeBody true t1 (s.at t).time.h (s.at t).time.h))]
    ∧ u.regs = s.regs ∧ u.time = (s.at t).time) ∧
  (∀ (s : State) (t t1 t2 t3 dom : Nat), (s.follows = false ∨ t1 ≠ (s.at t).time.xferT1) → ∃ u, exec (.timeXfer t
    true t1 t2 t3 dom) s = .next u ∧ u = s.at t) ∧
  (∀ (s : State) (t t1 t2 t3 : Nat) (e : Int), s.follows = true ∧ t1 = s.time.xferT1 ∧ s.on pgTIME TIME_H_VALID =
    true ∧ t1 < 2 ^ 63 ∧ t2 < 2 ^ 63 ∧ t3 < 2 ^ 63 ∧ (s.at t).time.h < 2 ^ 63 → e = roundI (((t2 : Int) - t1) -
    ((s.at t).time.h - t3)) 2 + s.rdI pgTWIN TWIN_NGATO_ASYM * nsU ∧ e.natAbs ≤ 1000 * nsU → ∃ u, exec (.timeXfer t
    true t1 t2 t3 s.selDom) s = .next u ∧ u.time = { (s.at t).time with twinOfs := e } ∧ u.rd pgTIME TIME_H_SRC = 1 ∧
    Frame [(pgTIME, TIME_H_SRC)] [] (s.at t) { u with time := (s.at t).time })

/-- A free controller sends its best frame, a completed one is DONE with its SOF stamp, a lost attempt is counted,
  and what is heard is counted and kept. (R268, R269, R271, R272, R273, R274, R275) -/
def Obligations.ControllersSendAndHearFrames : Prop :=
  (∀ (s : State) (t n e : Nat), n < 8 ∧ e < 16 ∧ s.canFree n = true ∧ (s.ctl n).segs = none ∧ (s.lisOf (32 + n)).tx =
    [] ∧ (s.ctl n).own = [] → (∀ k : Nat, k < 16 → (s.rd (pgCAN n) (qF CAN_Q_STATE k) = 1 ↔ k = e)) → ∃ u, exec
    (.attemptStart t n) s = .next u ∧ (u.ctl n).att = some ⟨e, (s.at t).time.h, s.qRec n e, false⟩ ∧ u.rd (pgCAN n)
    (qF CAN_Q_ATTEMPTS e) = min (s.rd (pgCAN n) (qF CAN_Q_ATTEMPTS e) + 1) 255 ∧ Frame [(pgCAN n, qF CAN_Q_ATTEMPTS
    e)] [] (s.at t) { u with can := s.can }) ∧
  (∀ (s : State) (t n : Nat), n < 8 ∧ s.canFree n = false → ∃ u, exec (.attemptStart t n) s = .next u ∧ u = s.at t) ∧
  (∀ (s : State) (t n e sof : Nat) (f : List Byte), n < 8 ∧ e < 16 ∧ (s.ctl n).att = some ⟨e, sof, f, false⟩ ∧ s.rd
    (pgCAN n) (qF CAN_Q_STATE e) = 1 ∧ (s.ctl n).run = 1 → (s.ctl n).dirty = false ∧ (s.ctl n).tec < 128 ∧ (s.ctl
    n).rec_ < 128 ∧ s.rd (pgCAN n) CAN_ESTATE = 0 ∧ s.sys.jtag = false ∧ s.sys.banksOff.testBit 1 = false → ∃ u, exec
    (.canFrameTxDone t n) s = .next u ∧ u.rd (pgCAN n) (qF CAN_Q_STATE e) = 2 ∧ u.rd (pgCAN n) (qF CAN_Q_RESULT e) =
    1 ∧ u.rd (pgCAN n) (qF CAN_Q_CRES e) = 0 ∧ u.rd (pgCAN n) (qF CAN_Q_TX_S e) = secOf sof % 2 ^ CAN_Q_TX_S.width ∧
    u.rd (pgCAN n) (qF CAN_Q_TX_NS e) = nsOf sof % 2 ^ CAN_Q_TX_NS.width ∧ (u.ctl n).att = none ∧ (u.ctl n).tec =
    (s.ctl n).tec - 1 ∧ u.rd (pgCAN n) CAN_C_FRAMES_TX = (s.rd (pgCAN n) CAN_C_FRAMES_TX + 1) % 2 ^ 64 ∧ u.out.take
    (s.out.length + 1) = s.out ++ [.canTx (32 + n) f] ∧ u.pends (0x20 + n) 6 = true ∧ u.rd (pgCAN n) CAN_ESTATE = 0 ∧
    RegsBut ([CAN_Q_STATE, CAN_Q_RESULT, CAN_Q_CRES, CAN_Q_TX_S, CAN_Q_TX_NS].map (fun x => (pgCAN n, qF x e)) ++
    [CAN_TEC, CAN_REC, CAN_ESTATE, CAN_C_FRAMES_TX].map (fun x => (pgCAN n, x))) [0x20 + n] s u) ∧
  (∀ (s : State) (t n : Nat), n < 8 ∧ (s.ctl n).att = none → ∃ u, exec (.canFrameTxDone t n) s = .next u ∧ u = s.at
    t) ∧
  (∀ (s : State) (t n e sof : Nat) (f : List Byte), n < 8 ∧ e < 16 ∧ (s.ctl n).att = some ⟨e, sof, f, false⟩ ∧ s.on
    (pgCAN n) (qF CAN_Q_ONESHOT e) = false ∧ (s.ctl n).dirty = false → ∃ u, exec (.canAttemptLost t n 0) s = .next u
    ∧ u.ctl n = { s.ctl n with att := none, errRun := 0, errFrame := [] } ∧ u.rd (pgCAN n) CAN_C_ARB_LOST = (s.rd
    (pgCAN n) CAN_C_ARB_LOST + 1) % 2 ^ 64 ∧ Frame [(pgCAN n, CAN_C_ARB_LOST)] [] (s.at t) { u with can := s.can }) ∧
  (∀ (s : State) (t n e sof : Nat) (f : List Byte), n < 8 ∧ e < 16 ∧ (s.ctl n).att = some ⟨e, sof, f, false⟩ ∧ s.on
    (pgCAN n) (qF CAN_Q_ONESHOT e) = true ∧ (s.ctl n).dirty = false ∧ s.rd (pgCAN n) (qF CAN_Q_STATE e) = 1 → ∃ u,
    exec (.canAttemptLost t n 4) s = .next u ∧ u.rd (pgCAN n) (qF CAN_Q_STATE e) = 2 ∧ u.rd (pgCAN n) (qF
    CAN_Q_RESULT e) = 3 ∧ u.pends (0x20 + n) 6 = true ∧ (u.ctl n).tec = (s.ctl n).tec + 8 ∧ u.rd (pgCAN n) CAN_TEC =
    min ((s.ctl n).tec + 8) 255 ∧ (u.ctl n).att = none ∧ u.rd (pgCAN n) CAN_C_FORM_ERR = (s.rd (pgCAN n)
    CAN_C_FORM_ERR + 1) % 2 ^ 64) ∧
  (∀ (s : State) (t n ago cause : Nat) (r : List Byte), n < 8 ∧ s.canHears n = false → ∃ u, exec (.canFrameRx t n ago
    cause r) s = .next u ∧ u = s.at t) ∧
  (∀ (s : State) (t n ago : Nat) (r : List Byte), n < 8 ∧ s.canHears n = true ∧ s.on (pgCAN n) CAN_EFF_MON = true → ∃
    u, exec (.canFrameRx t n ago 4 r) s = .next u ∧ Frame [(pgCAN n, CAN_C_CRC_ERR)] [] (s.at t) u ∧ u.rd (pgCAN n)
    CAN_C_CRC_ERR = (s.rd (pgCAN n) CAN_C_CRC_ERR + 1) % 2 ^ 64) ∧
  (∀ (s : State) (t n ago : Nat) (r : List Byte), n < 8 ∧ s.canHears n = true ∧ (s.ctl n).run = 1 ∧ (s.ctl n).rec_ +
    1 < 128 ∧ s.rd (pgCAN n) CAN_ESTATE = 0 ∧ (s.ctl n).tec < 128 ∧ s.on (pgCAN n) CAN_EFF_MON = false → ∃ u, exec
    (.canFrameRx t n ago 4 r) s = .next u ∧ (u.ctl n) = { s.ctl n with rec_ := (s.ctl n).rec_ + 1 } ∧ u.rd (pgCAN n)
    CAN_REC = (s.ctl n).rec_ + 1 ∧ u.rd (pgCAN n) CAN_C_CRC_ERR = (s.rd (pgCAN n) CAN_C_CRC_ERR + 1) % 2 ^ 64 ∧ u.rd
    (pgCAN n) CAN_TEC = (s.ctl n).tec ∧ u.rd (pgCAN n) CAN_ESTATE = 0 ∧ Frame [(pgCAN n, CAN_C_CRC_ERR), (pgCAN n,
    CAN_REC), (pgCAN n, CAN_TEC), (pgCAN n, CAN_ESTATE)] [] (s.at t) { u with can := s.can }) ∧
  (∀ (s : State) (t n ago : Nat) (r : List Byte), n < 8 ∧ s.canHears n = true ∧ recExt r = false ∧ (leAt r 4
    1).testBit 0 = false ∧ s.on (ingestAt (32 + n)) INGEST_RX_EN = true ∧ s.rxRoom (32 + n) (wordsOf r.length) = true
    → ∃ u, exec (.canFrameRx t n ago 0 r) s = .next u ∧ (u.rxOf (32 + n)).cands.map (·.body) = (s.rxOf (32 +
    n)).cands.map (·.body) ++ [r] ∧ (u.rxOf (32 + n)).cp = (s.rxOf (32 + n)).cp + wordsOf r.length ∧ u.candNo =
    s.candNo + 1 ∧ u.rd (pgCAN n) CAN_C_FRAMES_RX = (s.rd (pgCAN n) CAN_C_FRAMES_RX + 1) % 2 ^ 64 ∧ RegsBut
    ([CAN_C_FRAMES_RX, CAN_REC, CAN_TEC, CAN_ESTATE].map (fun x => (pgCAN n, x)) ++ rxFields (32 + n) ++
    [(ingestCtrAt (32 + n), ctr icCAND), (ingestCtrAt (32 + n), ctr icBYTES)]) [0x20 + n] s u) ∧
  (∀ (s : State) (t n e : Nat) (word : Word), n < 8 ∧ e < 16 ∧ s.reaches (0x20 + n) false ∧ s.rd (pgCAN n) (qF
    CAN_Q_STATE e) ≠ 0 → ∃ u, exec (.canSubmit t n e word) s = .next u ∧ Frame (refusalFields (0x20 + n)) [0] (s.at
    t) u ∧ u.on (pgAt (0x20 + n)) PG_ERROR = true) ∧
  (∀ (s : State) (t n e : Nat), n < 8 ∧ e < 16 ∧ s.reaches (0x20 + n) false ∧ s.rd (pgCAN n) (qF CAN_Q_STATE e) = 0 ∧
    s.rd (pgCAN n) (qF CAN_Q_ID e) ≤ 0x7FF → ∃ u, exec (.canSubmit t n e 1#32) s = .next u ∧ u.rd (pgCAN n) (qF
    CAN_Q_STATE e) = 1 ∧ u.rd (pgCAN n) (qF CAN_Q_RESULT e) = 0 ∧ u.rd (pgCAN n) (qF CAN_Q_CRES e) = 0 ∧ u.rd (pgCAN
    n) (qF CAN_Q_ATTEMPTS e) = 0 ∧ u.can = s.can ∧ u.out = s.out ∧ u.rx = s.rx) ∧
  (∀ (s : State) (t n e : Nat), n < 8 ∧ e < 16 ∧ s.reaches (0x20 + n) false ∧ s.rd (pgCAN n) (qF CAN_Q_STATE e) = 1 ∧
    (s.ctl n).att = none → ∃ u, exec (.canCancel t n e) s = .next u ∧ u.rd (pgCAN n) (qF CAN_Q_STATE e) = 2 ∧ u.rd
    (pgCAN n) (qF CAN_Q_RESULT e) = 2 ∧ u.rd (pgCAN n) (qF CAN_Q_CRES e) = 1 ∧ u.pends (0x20 + n) 6 = true ∧ Frame
    ([CAN_Q_STATE, CAN_Q_RESULT, CAN_Q_CRES].map (fun x => (pgCAN n, qF x e))) [0x20 + n] (s.at t) u) ∧
  (∀ (s : State) (t n e : Nat) (a : CanAtt), n < 8 ∧ e < 16 ∧ s.reaches (0x20 + n) false ∧ s.rd (pgCAN n) (qF
    CAN_Q_STATE e) = 1 ∧ (s.ctl n).att = some a ∧ a.src = e → ∃ u, exec (.canCancel t n e) s = .next u ∧ u.ctl n =
    { s.ctl n with att := some { a with cancelled := true } } ∧ u.regs = s.regs ∧ u.out = s.out) ∧
  (∀ (s : State) (t n e : Nat), n < 8 ∧ e < 16 ∧ s.reaches (0x20 + n) false → ∃ u, exec (.canAck t n e) s = .next u ∧
    u.rd (pgCAN n) (qF CAN_Q_STATE e) = (if s.rd (pgCAN n) (qF CAN_Q_STATE e) = 2 then 0 else s.rd (pgCAN n) (qF
    CAN_Q_STATE e)) ∧ Frame [(pgCAN n, qF CAN_Q_STATE e)] [] (s.at t) u)

/-- A legal setting takes the controller off the bus until it integrates; bus-off ends, virtual nodes claim and stop,
  sessions time out, MODE sleeps and wakes. (R266, R267, R268, R277, R279, R280, R281, R282) -/
def Obligations.ControllersConfigureClaimAndSleep : Prop :=
  (∀ (s : State) (t n : Nat) (word : Word), n < 8 ∧ s.reaches (0x20 + n) false ∧ s.held = [] ∧ (s.setWord (pgCAN n)
    rows_CAN 0x040 word.toNat).canLegal n = false → ∃ u, exec (.canConfigCommit t n word) s = .next u ∧ Frame
    (refusalFields (0x20 + n)) [0] (s.at t) u ∧ u.on (pgAt (0x20 + n)) PG_ERROR = true) ∧
  (∀ (s : State) (t n m : Nat), n < 8 ∧ m ≤ 5 ∧ s.reaches (0x20 + n) false ∧ s.held = [] ∧ (s.setWord (pgCAN n)
    rows_CAN 0x040 m).canLegal n = true ∧ (s.ctl n).att = none → ∃ u, exec (.canConfigCommit t n (BitVec.ofNat 32 m))
    s = .next u ∧ u.rd (pgCAN n) CAN_MODE = m ∧ u.rd (pgCAN n) CAN_ASLEEP = 0 ∧ u.ctl n =
    { s.ctl n with dirty := false, integ := m != 0, run := 0 } ∧ u.out = s.out ∧ u.rx = s.rx ∧ u.del = s.del) ∧
  (∀ (s : State) (t n : Nat), n < 8 ∧ s.rd (pgCAN n) CAN_MODE ≠ 6 ∧ (s.ctl n).att = none ∧ (s.ctl n).integ = true → ∃
    u, exec (.canIntegration t n) s = .next u ∧ u.ctl n =
    { s.ctl n with integ := false, run := s.rd (pgCAN n) CAN_MODE } ∧ u.on (pgCAN n) CAN_EFF_MON = s.canMustMon n ∧
    Frame [(pgCAN n, CAN_EFF_MON)] [] (s.at t) { u with can := s.can }) ∧
  (∀ (s : State) (t n : Nat), n < 8 ∧ ((s.ctl n).att ≠ none ∨ ((s.ctl n).integ = false ∧ s.on (pgCAN n) CAN_EFF_MON =
    false)) → ∃ u, exec (.canIntegration t n) s = .next u ∧ u = s.at t) ∧
  (∀ (s : State) (t n : Nat), n < 8 ∧ s.reaches (0x20 + n) false ∧ s.rd (pgCAN n) CAN_ESTATE = 2 → ∃ u, exec
    (.canRecover t n) s = .next u ∧ u.ctl n = { s.ctl n with tec := 0, rec_ := 0 } ∧ u.rd (pgCAN n) CAN_ESTATE = 0 ∧
    u.rd (pgCAN n) CAN_TEC = 0 ∧ u.rd (pgCAN n) CAN_REC = 0 ∧ Frame [(pgCAN n, CAN_ESTATE), (pgCAN n, CAN_TEC),
    (pgCAN n, CAN_REC)] [] (s.at t) { u with can := s.can }) ∧
  (∀ (s : State) (t n : Nat), n < 8 ∧ s.reaches (0x20 + n) false ∧ s.rd (pgCAN n) CAN_ESTATE ≠ 2 → ∃ u, exec
    (.canRecover t n) s = .next u ∧ u = s.at t) ∧
  (∀ (s : State) (t n : Nat), n < 8 ∧ s.on (pgCAN n) CAN_BO_AUTO = true ∧ s.rd (pgCAN n) CAN_ESTATE = 2 → ∃ u, exec
    (.busOffRecovery t n) s = .next u ∧ u.ctl n = { s.ctl n with tec := 0, rec_ := 0 } ∧ u.rd (pgCAN n) CAN_ESTATE =
    0 ∧ Frame [(pgCAN n, CAN_ESTATE), (pgCAN n, CAN_TEC), (pgCAN n, CAN_REC)] [] (s.at t) { u with can := s.can }) ∧
  (∀ (s : State) (t n : Nat), n < 8 ∧ s.on (pgCAN n) CAN_BO_AUTO = false → ∃ u, exec (.busOffRecovery t n) s = .next
    u ∧ u = s.at t) ∧
  (∀ (s : State) (t n v a : Nat), n < 8 ∧ v < 8 ∧ a < 254 ∧ s.reaches (0x20 + n) false ∧ s.on (pgCAN n) (vnF
    CAN_VN_EN v) = false ∧ s.vnAddr n v = 254 ∧ s.canSpeaks n = true → ∃ u, exec (.vnEnable t n v (BitVec.ofNat 32 (a
    + 256))) s = .next u ∧ u.on (pgCAN n) (vnF CAN_VN_EN v) = true ∧ u.rd (pgCAN n) (vnF CAN_PREF_SA v) = a ∧ u.rd
    (pgCAN n) (vnF CAN_VSTATE v) = 1 ∧ (u.ctl n).claims = (s.ctl n).claims.filter (fun e => e.1 != v) ++ [(v, a, max
    s.time.clk t)] ∧ (u.ctl n).own = (s.ctl n).own ++ [extRec (mkId 6 0xEE00 255 a) (leBytes 8 (s.vnName n v))] ∧
    Frame [(pgCAN n, vnF CAN_VN_EN v), (pgCAN n, vnF CAN_PREF_SA v), (pgCAN n, vnF CAN_CUR_SA v), (pgCAN n, vnF
    CAN_VSTATE v)] [] (s.at t) { u with can := s.can }) ∧
  (∀ (s : State) (t n v a : Nat), n < 8 ∧ v < 8 ∧ a < 254 ∧ s.reaches (0x20 + n) false ∧ s.on (pgCAN n) (vnF
    CAN_VN_EN v) = true ∧ s.rd (pgCAN n) (vnF CAN_PREF_SA v) = a → ∃ u, exec (.vnEnable t n v (BitVec.ofNat 32 a)) s
    = .next u ∧ u.on (pgCAN n) (vnF CAN_VN_EN v) = false ∧ u.rd (pgCAN n) (vnF CAN_VSTATE v) = 0 ∧ u.rd (pgCAN n)
    (vnF CAN_CUR_SA v) = 254 ∧ Frame [(pgCAN n, vnF CAN_VN_EN v), (pgCAN n, vnF CAN_CUR_SA v), (pgCAN n, vnF
    CAN_VSTATE v)] [] (s.at t) { u with can := s.can }) ∧
  (∀ (s : State) (t n v : Nat) (word : Word), n < 8 ∧ v < 8 ∧ s.reaches (0x20 + n) false ∧ s.on (pgCAN n) (vnF
    CAN_VN_EN v) = true ∧ s.rd (pgCAN n) (vnF CAN_PREF_SA v) ≠ word.toNat % 256 → ∃ u, exec (.vnEnable t n v word) s
    = .next u ∧ Frame (refusalFields (0x20 + n)) [0] (s.at t) u ∧ u.on (pgAt (0x20 + n)) PG_ERROR = true) ∧
  (∀ (s : State) (t n v sa since : Nat), n < 8 ∧ v < 8 ∧ (s.ctl n).claims = [(v, sa, since)] ∧ since + 250 * msU ≤
    max s.time.clk t ∧ sa < 256 → ∃ u, exec (.addrClaimTimeout t n v) s = .next u ∧ u.ctl n =
    { s.ctl n with claims := [] } ∧ u.rd (pgCAN n) (vnF CAN_VSTATE v) = 2 ∧ u.rd (pgCAN n) (vnF CAN_CUR_SA v) = sa ∧
    Frame [(pgCAN n, vnF CAN_CUR_SA v), (pgCAN n, vnF CAN_VSTATE v)] [] (s.at t) { u with can := s.can }) ∧
  (∀ (s : State) (t n v : Nat), n < 8 ∧ v < 8 ∧ (s.ctl n).claims = [] → ∃ u, exec (.addrClaimTimeout t n v) s = .next
    u ∧ u = s.at t) ∧
  (∀ (s : State) (t : Nat) (x : FpSess), s.can.fps = [x] → ∃ u, exec (.fpTimeout t) s = .next u ∧ (if x.lastAt + s.rd
    (pgCAN 0) CAN_FP_TO_MS * msU ≤ max s.time.clk t then u.can = { s.can with fps := [] } ∧ u.rd (frameCtrAt x.port)
    (ctr fcTIMEOUT) = (s.rd (frameCtrAt x.port) (ctr fcTIMEOUT) + 1) % 2 ^ 64 else u = s.at t) ∧ Frame [(frameCtrAt
    x.port, ctr fcTIMEOUT)] [] (s.at t) { u with can := s.can }) ∧
  (∀ (s : State) (t : Nat) (x : TpSess), s.can.tps = [x] ∧ x.own = false ∧ (∀ n : Nat, n < 8 → (s.ctl n).tp = none) →
    ∃ u, exec (.tpTimeout t) s = .next u ∧ (if x.due ≤ max s.time.clk t then u.can = { s.can with tps := [] } ∧ u.rd
    (frameCtrAt x.port) (ctr fcTIMEOUT) = (s.rd (frameCtrAt x.port) (ctr fcTIMEOUT) + 1) % 2 ^ 64 else u = s.at t) ∧
    Frame [(frameCtrAt x.port, ctr fcTIMEOUT)] [] (s.at t) { u with can := s.can }) ∧
  (∀ (s : State) (t n a : Nat), n < 8 ∧ (s.ctl n).bamAt = some a → ∃ u, exec (.bamGap t n) s = .next u ∧ (u.ctl
    n).bamAt = (if a ≤ max s.time.clk t then none else some a) ∧ u.regs = s.regs ∧ u.out = s.out) ∧
  (∀ (s : State) (t n : Nat), n < 8 ∧ s.rd (pgCAN n) CAN_MODE = 6 ∧ (s.ctl n).att = none → ∃ u, exec (.canSleepEntry
    t n) s = .next u ∧ u.ctl n = { s.ctl n with run := 6, integ := false } ∧ u.rd (pgCAN n) CAN_ASLEEP = 1 ∧ Frame
    [(pgCAN n, CAN_ASLEEP)] [] (s.at t) { u with can := s.can }) ∧
  (∀ (s : State) (t n : Nat), n < 8 ∧ (s.rd (pgCAN n) CAN_MODE ≠ 6 ∨ (s.ctl n).att ≠ none) → ∃ u, exec
    (.canSleepEntry t n) s = .next u ∧ u = s.at t) ∧
  (∀ (s : State) (t n low ago : Nat) (r : List Byte), n < 8 ∧ s.on (pgCAN n) CAN_ASLEEP = true ∧ s.rd (pgCAN n)
    CAN_WAKE_MODE = 1 ∧ s.rd (pgCAN n) CAN_WAKE_FILT_US * usU ≤ low → ∃ u, exec (.canWake t n low ago r) s = .next u
    ∧ u.rd (pgCAN n) CAN_MODE = 1 ∧ u.on (pgCAN n) CAN_ASLEEP = false ∧ u.ctl n =
    { s.ctl n with dirty := false, integ := true, run := 0 } ∧ u.pends (0x20 + n) 5 = true ∧ u.rd (pgCAN n)
    CAN_C_WAKES = (s.rd (pgCAN n) CAN_C_WAKES + 1) % 2 ^ 64 ∧ Frame [(pgCAN n, CAN_MODE), (pgCAN n, CAN_ASLEEP),
    (pgCAN n, CAN_C_WAKES), (pgCAN n, CAN_EFF_MON)] [0x20 + n] (s.at t) { u with can := s.can }) ∧
  (∀ (s : State) (t n low ago : Nat) (r : List Byte), n < 8 ∧ (s.on (pgCAN n) CAN_ASLEEP = false ∨ s.rd (pgCAN n)
    CAN_WAKE_MODE = 0) → ∃ u, exec (.canWake t n low ago r) s = .next u ∧ u = s.at t)

/-- Frames are checked in the order of R285, counted by their first fault and given to the port; PAUSE holds the
  transmitter; links come up and go down. (R284, R285, R286, R287, R288, R289) -/
def Obligations.EthernetPortsReceiveAndLink : Prop :=
  (∀ (s : State) (t e ago : Nat) (good : Bool) (frame : List Byte), e < 2 ∧ (s.rd (pgETH e) ETH_MODE = 0 ∨ s.on
    (pgETH e) ETH_LINK = false) → ∃ u, exec (.ethFrameRx t e ago good frame) s = .next u ∧ u = s.at t) ∧
  (∀ (s : State) (t e ago : Nat) (frame : List Byte), e < 2 ∧ s.ethHears e → ∃ u, exec (.ethFrameRx t e ago false
    frame) s = .next u ∧ u.rd (pgETH e) ETH_C_FRAMES_RX = (s.rd (pgETH e) ETH_C_FRAMES_RX + 1) % 2 ^ 64 ∧ u.rd (pgETH
    e) ETH_C_FCS_ERR = (s.rd (pgETH e) ETH_C_FCS_ERR + 1) % 2 ^ 64 ∧ Frame [(pgETH e, ETH_C_FRAMES_RX), (pgETH e,
    ETH_C_FCS_ERR), (ingestCtrAt (40 + e), ctr icBYTES)] [] (s.at t) u) ∧
  (∀ (s : State) (t e ago : Nat) (frame : List Byte), e < 2 ∧ s.ethHears e ∧ frame.length < 60 → ∃ u, exec
    (.ethFrameRx t e ago true frame) s = .next u ∧ u.rd (pgETH e) ETH_C_RUNT = (s.rd (pgETH e) ETH_C_RUNT + 1) % 2 ^
    64 ∧ Frame [(pgETH e, ETH_C_FRAMES_RX), (pgETH e, ETH_C_RUNT), (ingestCtrAt (40 + e), ctr icBYTES)] [] (s.at t)
    u) ∧
  (∀ (s : State) (t e ago : Nat) (frame : List Byte), e < 2 ∧ s.ethHears e ∧ 60 ≤ frame.length ∧ beAt frame 12 2 ≠
    0x8100 ∧ s.rd (pgETH e) ETH_MAX_FRAME < frame.length + 4 → ∃ u, exec (.ethFrameRx t e ago true frame) s = .next u
    ∧ u.rd (pgETH e) ETH_C_OVERSIZE = (s.rd (pgETH e) ETH_C_OVERSIZE + 1) % 2 ^ 64 ∧ Frame [(pgETH e,
    ETH_C_FRAMES_RX), (pgETH e, ETH_C_OVERSIZE), (ingestCtrAt (40 + e), ctr icBYTES)] [] (s.at t) u) ∧
  (∀ (s : State) (t e ago : Nat) (frame : List Byte), e < 2 ∧ s.ethHears e ∧ 60 ≤ frame.length ∧ frame.length + 4 ≤
    s.rd (pgETH e) ETH_MAX_FRAME ∧ s.on (pgETH e) ETH_PAUSE_RX = true ∧ isPause frame = true → ∃ u, exec (.ethFrameRx
    t e ago true frame) s = .next u ∧ u.ethOf e =
    { s.ethOf e with pauseFrom := (s.at t).time.h, pauseTo := (s.at t).time.h + beAt frame 16 2 * 64 * s.byteTime10 e * nsU / 10 }
    ∧ u.rd (pgETH e) ETH_C_PAUSE_RX = (s.rd (pgETH e) ETH_C_PAUSE_RX + 1) % 2 ^ 64 ∧ Frame [(pgETH e,
    ETH_C_FRAMES_RX), (pgETH e, ETH_C_PAUSE_RX), (ingestCtrAt (40 + e), ctr icBYTES)] [] (s.at t)
    { u with eth := s.eth }) ∧
  (∀ (s : State) (t e ago : Nat) (frame : List Byte), e < 2 ∧ s.ethHears e ∧ 60 ≤ frame.length ∧ frame.length + 4 ≤
    s.rd (pgETH e) ETH_MAX_FRAME ∧ s.on (pgETH e) ETH_PAUSE_RX = false → s.on (pgETH e) ETH_MACSEC_EN = true ∧ s.rd
    (pgETH e) ETH_VALIDATE = 2 ∧ beAt frame 12 2 ≠ 0x88E5 → ∃ u, exec (.ethFrameRx t e ago true frame) s = .next u ∧
    u.rd (pgETH e) ETH_C_MS_UNSEC = (s.rd (pgETH e) ETH_C_MS_UNSEC + 1) % 2 ^ 64 ∧ Frame [(pgETH e, ETH_C_FRAMES_RX),
    (pgETH e, ETH_C_MS_UNSEC), (ingestCtrAt (40 + e), ctr icBYTES)] [] (s.at t) u) ∧
  (∀ (s : State) (t e ago : Nat) (frame : List Byte), e < 2 ∧ s.ethHears e ∧ 60 ≤ frame.length ∧ frame.length + 4 ≤
    s.rd (pgETH e) ETH_MAX_FRAME ∧ s.on (pgETH e) ETH_PAUSE_RX = false → s.on (pgETH e) ETH_MACSEC_EN = false ∧ s.on
    (pgETH e) ETH_RAW_OTHER = false ∧ beAt frame 12 2 ≠ 0x8100 ∧ beAt frame 12 2 ≠ 0x88F7 ∧ beAt frame 12 2 ≠ 0x0800
    → ∃ u, exec (.ethFrameRx t e ago true frame) s = .next u ∧ u.rd (pgETH e) ETH_C_NOT_FOR_US = (s.rd (pgETH e)
    ETH_C_NOT_FOR_US + 1) % 2 ^ 64 ∧ Frame [(pgETH e, ETH_C_FRAMES_RX), (pgETH e, ETH_C_NOT_FOR_US), (ingestCtrAt (40
    + e), ctr icBYTES)] [] (s.at t) u) ∧
  (∀ (s : State) (t e ago src dst : Nat) (frame pay body : List Byte), e < 2 ∧ s.ethHears e ∧ 60 ≤ frame.length ∧
    frame.length + 4 ≤ s.rd (pgETH e) ETH_MAX_FRAME ∧ s.on (pgETH e) ETH_PAUSE_RX = false ∧ s.on (pgETH e)
    ETH_MACSEC_EN = false ∧ s.on (pgETH e) ETH_VLAN_EN = false → beAt frame 12 2 = 0x0800 ∧ ipSound (frame.drop 14) =
    true ∧ ptpUdp (frame.drop 14) = false ∧ beAt (frame.drop 14) 6 2 % 16384 = 0 → ipParts (frame.drop 14) = (17,
    src, dst, pay) ∧ udpSound pay = true ∧ s.dgForUs e dst (beAt pay 2 2) = true ∧ beAt pay 6 2 = 0 → body =
    (pay.take (beAt pay 4 2)).drop 8 ∧ body.take 6 = tokUdPbC ∧ body.length ≤ 2040 ∧ s.on (ingestAt (40 + e))
    INGEST_RX_EN = true ∧ s.rxRoom (40 + e) (wordsOf body.length) = true → ∃ u, exec (.ethFrameRx t e ago true frame)
    s = .next u ∧ (u.rxOf (40 + e)).cands.map (·.body) = (s.rxOf (40 + e)).cands.map (·.body) ++ [body] ∧ u.candNo =
    s.candNo + 1 ∧ RegsBut ([(pgETH e, ETH_C_FRAMES_RX), (ingestCtrAt (40 + e), ctr icBYTES), (ingestCtrAt (40 + e),
    ctr icCAND), (frameCtrAt (40 + e), ctr 0)] ++ rxFields (40 + e)) [] s u ∧ u.eth = s.eth ∧ u.out = s.out) ∧
  (∀ (s : State) (t e speed : Nat), e < 2 ∧ speed < 3 ∧ s.on (pgETH e) ETH_LINK = false ∧ s.portDown (40 + e) = false
    ∧ s.on (pgETH e) PG_IN_RESET = false ∧ s.rd (pgETH e) ETH_MODE = 2 → ∃ u, exec (.ethLinkUp t e speed) s = .next u
    ∧ u.on (pgETH e) ETH_LINK = true ∧ u.rd (pgETH e) ETH_SPEED = speed ∧ u.on (pgETH e) ETH_AN_DONE = s.on (pgETH e)
    ETH_AN_EN ∧ u.pends (0x18 + e) 0 = true ∧ u.ethOf e = { s.ethOf e with signal := true } ∧ Frame [(pgETH e,
    ETH_LINK), (pgETH e, ETH_SPEED), (pgETH e, ETH_AN_DONE)] [0x18 + e] (s.at t) { u with eth := s.eth }) ∧
  (∀ (s : State) (t e speed : Nat), e < 2 ∧ (s.rd (pgETH e) ETH_MODE = 0 ∨ s.on (pgETH e) ETH_LINK = true) → ∃ u,
    exec (.ethLinkUp t e speed) s = .next u ∧ u = s.at t) ∧
  (∀ (s : State) (t e : Nat), e < 2 → ∃ u, exec (.ethLinkDown t e) s = .next u ∧ u.on (pgETH e) ETH_LINK = false ∧
    (s.on (pgETH e) ETH_LINK = true → u.pends (0x18 + e) 1 = true ∧ u.on (pgETH e) ETH_AN_DONE = false) ∧ Frame (if
    s.on (pgETH e) ETH_LINK then [(pgETH e, ETH_LINK), (pgETH e, ETH_AN_DONE)] else []) (if s.on (pgETH e) ETH_LINK
    then [0x18 + e] else []) (s.at t) u) ∧
  (∀ (s : State) (t e : Nat) (g : Word), e < 2 ∧ s.reaches (0x18 + e) false ∧ (s.on (pgETH e) ETH_IGMP_EN = false ∨
    s.on (pgETH e) ETH_LINK = false) → ∃ u, exec (.groupJoin t e g) s = .next u ∧ u.rd (pgETH e) ETH_RX_GRP = g.toNat
    ∧ Frame [(pgETH e, ETH_RX_GRP)] [] (s.at t) u) ∧
  (∀ (s : State) (t e : Nat) (g : Word), e < 2 ∧ s.on (pgAt (0x18 + e)) PG_LOCK = true ∧ s.pageDown (0x18 + e) =
    false ∧ s.pageReady (0x18 + e) = true → ∃ u, exec (.groupJoin t e g) s = .next u ∧ Frame (refusalFields (0x18 +
    e)) [0] (s.at t) u ∧ u.on (pgAt (0x18 + e)) PG_ERROR = true)

/-- Each tongs instruction has its effect on its engine's registers, SR, FIFOs and lines, then goes on or stalls; a
  bad word or target faults. (R300, R301, R302, R303, R304, R305, R306, R307, R308, R310, R312) -/
def Obligations.TongsInstructionsActOnTheirEngine : Prop :=
  (∀ (s : State) (t n w : Nat) (lines : BitVec 64), n < 16 ∧ s.tongRuns n 0 w ∧ bits w 27 24 = 0 ∧ s.tongInside n
    (bits w 5 0) = true → ∃ u, exec (.tongGo t n lines) s = .next u ∧ u.rd (pgTONG n) TONG_PC = bits w 5 0 ∧ u.rd
    (pgTONG n) TONG_STALL = 0 ∧ u.rd (pgTONG n) TONG_LAST_OP = 0 ∧ Frame (tongFields n) [] (s.at t)
    { u with tong := s.tong } ∧ u.tong.lines = lines.toNat ∧ u.eng n = s.eng n) ∧
  (∀ (s : State) (t n w : Nat) (lines : BitVec 64), n < 16 ∧ s.tongRuns n 0 w ∧ s.tongGoesOn n ∧ bits w 27 24 = 1 ∧
    s.tongInside n (bits w 5 0) = true ∧ s.rd (pgTONG n) (tongW (bits w 19 18)) ≠ 0 → ∃ u, exec (.tongGo t n lines) s
    = .next u ∧ u.tongWent s n 0 ∧ Frame (tongFields n) [] (s.at t) { u with tong := s.tong }) ∧
  (∀ (s : State) (t n w : Nat) (lines : BitVec 64), n < 16 ∧ s.tongRuns n 0 w ∧ s.tongInside n (bits w 5 0) = false →
    ∃ u, exec (.tongGo t n lines) s = .next u ∧ u.rd (pgTONG n) TONG_FAULT = 2 ∧ u.rd (pgTONG n) TONG_STALL = 6 ∧
    u.pends (0x60 + n) 0 = true ∧ Frame [(pgTONG n, TONG_FAULT), (pgTONG n, TONG_STALL)] [0x60 + n] (s.at t)
    { u with tong := s.tong }) ∧
  (∀ (s : State) (t n w : Nat) (lines : BitVec 64), n < 16 ∧ s.rd (pgTONG n) TONG_STALL = 0 ∧ s.portDown 42 = false ∧
    s.tongWaits n = false ∧ s.tongWord n = w ∧ 10 < tongOp w → ∃ u, exec (.tongGo t n lines) s = .next u ∧ u.rd
    (pgTONG n) TONG_FAULT = 1 ∧ u.rd (pgTONG n) TONG_STALL = 6 ∧ u.pends (0x60 + n) 0 = true ∧ u.rd (pgTONG n)
    TONG_PC = s.rd (pgTONG n) TONG_PC) ∧
  (∀ (s : State) (t n w : Nat), n < 16 ∧ s.tongRuns n 3 w ∧ s.tongGoesOn n ∧ w.testBit 25 = false → ∃ u, exec
    (.tongLoad t n) s = .next u ∧ u.tongWent s n 3 ∧ u.rd (pgTONG n) (tongW (bits w 27 26)) = bits w 15 0 ∧ Frame
    ((pgTONG n, tongW (bits w 27 26)) :: tongFields n) [] (s.at t) { u with tong := s.tong }) ∧
  (∀ (s : State) (t n w : Nat), n < 16 ∧ s.tongRuns n 3 w ∧ s.tongGoesOn n ∧ w.testBit 25 = true → ∃ u, exec
    (.tongLoad t n) s = .next u ∧ u.tongWent s n 3 ∧ u.rd (pgTONG n) (tongW (bits w 27 26)) = bits w 15 0 * 65536 +
    s.rd (pgTONG n) (tongW (bits w 27 26)) % 65536) ∧
  (∀ (s : State) (t n w : Nat), n < 16 ∧ s.tongRuns n 4 w ∧ s.tongGoesOn n ∧ w.testBit 20 = true ∧ w.testBit 19 =
    false → ∃ u, exec (.tongAlu t n) s = .next u ∧ u.tongWent s n 4 ∧ u.rd (pgTONG n) (tongW (bits w 24 23)) =
    tongAluOp (bits w 27 25) (s.rd (pgTONG n) (tongW (bits w 24 23))) (bits w 7 0) % 2 ^ 32 ∧ Frame ((pgTONG n, tongW
    (bits w 24 23)) :: tongFields n) [] (s.at t) { u with tong := s.tong }) ∧
  (∀ (s : State) (t n w : Nat), n < 16 ∧ s.tongRuns n 4 w ∧ s.tongGoesOn n ∧ w.testBit 20 = false ∧ w.testBit 19 =
    true → ∃ u, exec (.tongAlu t n) s = .next u ∧ u.tongWent s n 4 ∧ u.rd (pgTONG n) TONG_ST = tongAluOp (bits w 27
    25) (s.rd (pgTONG n) (tongW (bits w 24 23))) (s.rd (pgTONG n) (tongW (bits w 22 21))) % 256 ∧ Frame ((pgTONG n,
    TONG_ST) :: tongFields n) [] (s.at t) { u with tong := s.tong }) ∧
  (∀ (s : State) (t n w : Nat), n < 16 ∧ s.tongRuns n 5 w ∧ s.tongGoesOn n → ∃ u, exec (.tongTimer t n) s = .next u ∧
    u.tongWent s n 5 ∧ (u.eng n).tmr = (if w.testBit 27 then s.rd (pgTONG n) (tongW (bits w 25 24)) else bits w 23 0)
    ∧ (u.eng n).tmrK = (s.at t).tongIdx n + 1 ∧ Frame (tongFields n) [] (s.at t) { u with tong := s.tong }) ∧
  (∀ (s : State) (t n w : Nat), n < 16 ∧ s.tongRuns n 10 w ∧ s.tongGoesOn n ∧ bits w 27 26 = 0 → ∃ u, exec (.tongFlag
    t n) s = .next u ∧ u.tongWent s n 10 ∧ (∀ i : Nat, i < 16 → (u.rd (pgTONG 0) TONG_FLAGS).testBit i = ((s.rd
    (pgTONG 0) TONG_FLAGS).testBit i || i == bits w 3 0)) ∧ Frame ((pgTONG 0, TONG_FLAGS) :: tongFields n) [] (s.at
    t) { u with tong := s.tong }) ∧
  (∀ (s : State) (t n w : Nat), n < 16 ∧ s.tongRuns n 10 w ∧ s.tongGoesOn n ∧ bits w 27 26 = 2 → ∃ u, exec (.tongFlag
    t n) s = .next u ∧ u.tongWent s n 10 ∧ u.rd (pgTONG n) TONG_HOST_CODE = bits w 7 0 ∧ u.pends (0x60 + n) 1 = true
    ∧ Frame ((pgTONG n, TONG_HOST_CODE) :: tongFields n) [0x60 + n] (s.at t) { u with tong := s.tong }) ∧
  (∀ (s : State) (t n w : Nat) (lines : BitVec 64), n < 16 ∧ s.tongRuns n 9 w ∧ s.tongGoesOn n ∧ bits w 27 26 = 0 ∧
    w.testBit 23 = false ∧ w.testBit 22 = true → ∃ u, exec (.tongLut t n lines) s = .next u ∧ u.tongWent s n 9 ∧ u.rd
    (pgTONG n) (tongW (bits w 25 24)) = s.tongLut n (s.rd (pgTONG n) TONG_ST % 16 * 16 + s.rd (pgTONG n) (tongW (bits
    w 25 24)) % 16) ∧ Frame ((pgTONG n, tongW (bits w 25 24)) :: tongFields n) [] (s.at t) { u with tong := s.tong }) ∧
  (∀ (s : State) (t n w : Nat), n < 16 ∧ s.tongRuns n 2 w ∧ s.tongGoesOn n ∧ bits w 27 26 = 0 ∧ w.testBit 16 = false
    ∧ bits w 15 8 = 1 ∧ 1 ≤ s.rd (pgTONG n) TONG_PIN_CNT → s.rd (pgTONG 0) (lnF TONG_LN_OWNER (s.winLine n 0)) = n →
    ∃ u, exec (.tongPins t n) s = .next u ∧ u.tongWent s n 2 ∧ u.on (pgTONG 0) (lnF TONG_LN_OUT (s.winLine n 0)) =
    w.testBit 0 ∧ RegsBut ((pgTONG 0, lnF TONG_LN_OUT (s.winLine n 0)) :: (pgTONG 0, lnF TONG_LN_DRIVING (s.winLine n
    0)) :: tongFields n) [] s u) ∧
  (∀ (s : State) (t n w : Nat), n < 16 ∧ s.tongRuns n 2 w ∧ s.tongGoesOn n ∧ bits w 27 26 = 0 ∧ w.testBit 16 = false
    ∧ bits w 15 8 = 1 ∧ 1 ≤ s.rd (pgTONG n) TONG_PIN_CNT → s.rd (pgTONG 0) (lnF TONG_LN_OWNER (s.winLine n 0)) ≠ n →
    ∃ u, exec (.tongPins t n) s = .next u ∧ u.tongWent s n 2 ∧ u.rd (pgTONG n) TONG_C_PIN_DENIED = (s.rd (pgTONG n)
    TONG_C_PIN_DENIED + 1) % 2 ^ 64 ∧ u.pends (0x60 + n) 4 = true ∧ Frame ((pgTONG n, TONG_C_PIN_DENIED) ::
    tongFields n) [0x60 + n] (s.at t) { u with tong := s.tong }) ∧
  (∀ (s : State) (t n w : Nat) (lines : BitVec 64), n < 16 ∧ s.tongRuns n 6 w ∧ s.tongGoesOn n ∧ bits w 27 26 = 1 ∧
    (s.eng n).sr = [] → ∃ u, exec (.tongShift t n lines) s = .next u ∧ u.tongWent s n 6 ∧ (u.eng n).sr.length = bits
    w 5 0 ∧ u.rd (pgTONG n) TONG_SR_CNT = bits w 5 0 ∧ srWord (u.eng n).sr = s.rd (pgTONG n) (tongW (bits w 19 18)) %
    2 ^ bits w 5 0 ∧ Frame ((pgTONG n, TONG_SR_CNT) :: tongFields n) [] (s.at t) { u with tong := s.tong }) ∧
  (∀ (s : State) (t n w : Nat) (lines : BitVec 64), n < 16 ∧ s.tongRuns n 6 w ∧ bits w 27 26 = 0 ∧ (s.eng n).phase =
    0 ∧ w.testBit 22 = false ∧ w.testBit 23 = false → ∃ u, exec (.tongShift t n lines) s = .next u ∧ (u.eng n).phase
    = 1 ∧ u.rd (pgTONG n) TONG_SHIFTING = 1 ∧ u.rd (pgTONG n) TONG_PC = s.rd (pgTONG n) TONG_PC ∧ Frame [(pgTONG n,
    TONG_SHIFTING)] [] (s.at t) { u with tong := s.tong }) ∧
  (∀ (s : State) (t n w : Nat) (k : TxPkt) (l : List TxPkt), n < 16 ∧ s.tongRuns n 7 w ∧ s.tongGoesOn n ∧ w.testBit
    26 = false ∧ (s.lisOf (tongPort n)).tx = k :: l ∧ (s.lisOf (tongPort n)).txp + 1 < k.words → ∃ u, exec
    (.tongFetch t n) s = .next u ∧ u.tongWent s n 7 ∧ u.rd (pgTONG n) (tongW (bits w 25 24)) = leAt k.body (4 *
    (s.lisOf (tongPort n)).txp) 4 ∧ u.on (pgTONG n) TONG_LASTF = false ∧ u.lisOf (tongPort n) =
    { s.lisOf (tongPort n) with txp := (s.lisOf (tongPort n)).txp + 1 } ∧ u.rd (pgTONG n) TONG_C_TX_WORDS = (s.rd
    (pgTONG n) TONG_C_TX_WORDS + 1) % 2 ^ 64) ∧
  (∀ (s : State) (t n w : Nat), n < 16 ∧ s.tongRuns n 7 w ∧ w.testBit 27 = true ∧ (s.lisOf (tongPort n)).tx = [] → ∃
    u, exec (.tongFetch t n) s = .next u ∧ u.rd (pgTONG n) TONG_STALL = 3 ∧ (u.eng n).stallK = (s.at t).tongIdx n ∧
    Frame [(pgTONG n, TONG_STALL)] [] (s.at t) { u with tong := s.tong }) ∧
  (∀ (s : State) (t n w : Nat), n < 16 ∧ s.tongRuns n 8 w ∧ s.tongGoesOn n ∧ bits w 27 26 = 0 ∧ w.testBit 23 = false
    ∧ (s.eng n).skip = false ∧ (s.eng n).mark = none → s.on (ingestAt (tongPort n)) INGEST_RX_EN = true ∧ s.rxRoom
    (tongPort n) 1 = true ∧ (s.rxOf (tongPort n)).openC = none → ∃ u, exec (.tongStore t n) s = .next u ∧ u.tongWent
    s n 8 ∧ (u.rxOf (tongPort n)).openC.map (·.bytes) = some (leBytes 4 (s.rd (pgTONG n) (tongW (bits w 25 24)))) ∧
    (u.rxOf (tongPort n)).wp = (s.rxOf (tongPort n)).wp + 1 ∧ u.rd (pgTONG n) TONG_C_RX_WORDS = (s.rd (pgTONG n)
    TONG_C_RX_WORDS + 1) % 2 ^ 64) ∧
  (∀ (s : State) (t n w : Nat), n < 16 ∧ s.tongRuns n 8 w ∧ w.testBit 27 = true ∧ (s.eng n).skip = false ∧ s.on
    (ingestAt (tongPort n)) INGEST_RX_EN = true ∧ s.rxRoom (tongPort n) 1 = false → ∃ u, exec (.tongStore t n) s =
    .next u ∧ u.rd (pgTONG n) TONG_STALL = 2 ∧ Frame [(pgTONG n, TONG_STALL)] [] (s.at t) { u with tong := s.tong }) ∧
  (∀ (s : State) (t n : Nat) (k : TxPkt) (l : List TxPkt), n < 16 ∧ s.rd (pgTONG n) TONG_STALL = 3 ∧ s.tongLive n =
    true ∧ s.tongGoesOn n ∧ (s.tongWord n).testBit 26 = false ∧ (s.lisOf (tongPort n)).tx = k :: l ∧ (s.lisOf
    (tongPort n)).txp + 1 < k.words → ∃ u, exec (.stallEnd t n) s = .next u ∧ u.tongWent s n 7 ∧ u.rd (pgTONG n)
    (tongW (bits (s.tongWord n) 25 24)) = leAt k.body (4 * (s.lisOf (tongPort n)).txp) 4) ∧
  (∀ (s : State) (t n : Nat), n < 16 ∧ s.rd (pgTONG n) TONG_STALL = 3 ∧ (s.lisOf (tongPort n)).tx = [] → ∃ u, exec
    (.stallEnd t n) s = .next u ∧ u = s.at t) ∧
  (∀ (s : State) (t n w : Nat) (lines : BitVec 64), n < 16 ∧ s.tongRuns n 1 w ∧ bits w 27 25 = 4 ∧ (s.at t).tongTmr n
    ≠ 0 → ∃ u, exec (.tongAwait t n lines) s = .next u ∧ u.rd (pgTONG n) TONG_STALL = 1 ∧ (u.eng n).waitH = (s.at
    t).time.h ∧ Frame [(pgTONG n, TONG_STALL)] [] (s.at t) { u with tong := s.tong }) ∧
  (∀ (s : State) (t n w : Nat) (lines : BitVec 64), n < 16 ∧ s.tongRuns n 1 w ∧ s.tongGoesOn n ∧ bits w 27 25 = 4 ∧
    (s.at t).tongTmr n = 0 → ∃ u, exec (.tongAwait t n lines) s = .next u ∧ u.tongWent s n 1 ∧ Frame (tongFields n)
    [] (s.at t) { u with tong := s.tong }) ∧
  (∀ (s : State) (t n ago : Nat) (lines : BitVec 64), n < 16 ∧ s.rd (pgTONG n) TONG_STALL = 1 ∧ s.tongLive n = true ∧
    bits (s.tongWord n) 27 25 = 3 ∧ s.tongGoesOn n → ∃ u, exec (.tongAwaitDone t n lines ago) s = .next u ∧ (if (s.rd
    (pgTONG 0) TONG_FLAGS).testBit (bits (s.tongWord n) 5 0 % 16) = (s.tongWord n).testBit 24 then u.tongWent s n 1
    else u.regs = s.regs) ∧ Frame ((pgTONG n, TONG_C_STALL_CLOCKS) :: tongFields n) [] (s.at t)
    { u with tong := s.tong })

/-- Enabling starts an engine at ENTRY or holds it, disabling stops it, groups act together, a swap exchanges the
  banks, waiting engines move. (R300, R313, R314, R315, R316, R317, R318) -/
def Obligations.EnginesStartStopAndSwapPrograms : Prop :=
  (∀ (s : State) (t n : Nat), n < 16 ∧ s.reachesCtrl (0x60 + n) false ∧ s.on (pgTONG n) PG_ENABLE = false ∧
    s.tongAwake n = true ∧ s.tongMustHold n = false ∧ s.tongInside n (s.rd (pgTONG n) TONG_ENTRY) = true → ∃ u, exec
    (.engineEnable t n) s = .next u ∧ u.on (pgTONG n) PG_ENABLE = true ∧ u.rd (pgTONG n) TONG_PC = s.rd (pgTONG n)
    TONG_ENTRY ∧ u.rd (pgTONG n) TONG_STALL = (if s.on (pgTONG n) PG_FREEZE then 4 else 0) ∧ u.rd (pgTONG n)
    TONG_BANK = s.rd pgTONGS TONGS_LIVE_BANK ∧ u.rd (pgTONG n) TONG_W0 = 0 ∧ u.rd (pgTONG n) TONG_W3 = 0 ∧ u.rd
    (pgTONG n) TONG_ST = 0 ∧ (u.eng n).sr = [] ∧ (u.eng n).divAt = max s.time.clk t ∧ (u.eng n).tmr = 0 ∧ Frame
    ([TONG_W0, TONG_W1, TONG_W2, TONG_W3, TONG_ST, TONG_SR_CNT, TONG_SHIFTING, TONG_LASTF, TONG_HELD, TONG_PC,
    TONG_BANK, TONG_STALL, PG_ENABLE].map (fun f => (pgTONG n, f))) [] (s.at t) { u with tong := s.tong }) ∧
  (∀ (s : State) (t n : Nat), n < 16 ∧ s.reachesCtrl (0x60 + n) false ∧ s.on (pgTONG n) PG_ENABLE = false ∧
    s.tongAwake n = true ∧ s.tongMustHold n = true → ∃ u, exec (.engineEnable t n) s = .next u ∧ u.on (pgTONG n)
    PG_ENABLE = true ∧ u.on (pgTONG n) TONG_HELD = true ∧ u.rd (pgTONG n) TONG_STALL = 5 ∧ u.rd (pgTONG n) TONG_PC =
    s.rd (pgTONG n) TONG_ENTRY ∧ Frame ([TONG_HELD, TONG_PC, TONG_BANK, TONG_STALL, PG_ENABLE].map (fun f => (pgTONG
    n, f))) [] (s.at t) { u with tong := s.tong }) ∧
  (∀ (s : State) (t n : Nat), n < 16 ∧ s.reachesCtrl (0x60 + n) false ∧ s.on (pgTONG n) PG_ENABLE = true → ∃ u, exec
    (.engineEnable t n) s = .next u ∧ u = s.at t) ∧
  (∀ (s : State) (t n : Nat), n < 16 ∧ s.reachesCtrl (0x60 + n) false ∧ s.on (pgTONG n) PG_ENABLE = true ∧
    s.tongWaits n = false → ∃ u, exec (.engineDisable t n) s = .next u ∧ u.on (pgTONG n) PG_ENABLE = false ∧ u.rd
    (pgTONG n) TONG_STALL = 7 ∧ u.rd (pgTONG n) TONG_FAULT = 0 ∧ u.on (pgTONG n) TONG_HELD = false ∧ (u.eng n).sr =
    [] ∧ u.rd (pgTONG n) TONG_SR_CNT = 0 ∧ (u.rxOf (tongPort n)).openC = none) ∧
  (∀ (s : State) (t n : Nat), n < 16 ∧ s.reachesCtrl (0x60 + n) false ∧ s.on (pgTONG n) PG_ENABLE = false → ∃ u, exec
    (.engineDisable t n) s = .next u ∧ u = s.at t) ∧
  (∀ (s : State) (t : Nat) (mask : BitVec 16), s.reaches 0x60 false → ∃ u, exec (.grpEnSet t mask) s = .next u ∧ (∀ n
    : Nat, n < 16 → u.on (pgTONG n) PG_ENABLE = (s.on (pgTONG n) PG_ENABLE || mask.toNat.testBit n)) ∧ u.del = s.del
    ∧ u.rx = s.rx ∧ u.time = (s.at t).time) ∧
  (∀ (s : State) (t : Nat) (mask : BitVec 16), s.reaches 0x60 false ∧ s.rd pgTONGS TONGS_WAITING = 0 → ∃ u, exec
    (.grpEnClr t mask) s = .next u ∧ (∀ n : Nat, n < 16 → u.on (pgTONG n) PG_ENABLE = (s.on (pgTONG n) PG_ENABLE &&
    !mask.toNat.testBit n)) ∧ u.time = (s.at t).time ∧ u.twin = s.twin) ∧
  (∀ (s : State) (t : Nat) (mask : BitVec 16), s.reaches 0x60 false → ∃ u, exec (.grpClkrst t mask) s = .next u ∧ (∀
    n : Nat, n < 16 → (u.eng n).divAt = (if mask.toNat.testBit n && s.on (pgTONG n) PG_ENABLE then max s.time.clk t
    else (s.eng n).divAt)) ∧ u.del = s.del ∧ u.rx = s.rx ∧ u.out = s.out) ∧
  (∀ (s : State) (t : Nat), s.reachesCtrl 0x70 false ∧ s.on pgTONGS PG_SHADOW_SWAP = false ∧ s.tong.held = [] ∧ (∀ n
    : Nat, n < 16 → s.on (pgTONG n) PG_ENABLE = false) → ∃ u, exec (.tongShadowSwap t) s = .next u ∧ (∀ a : Nat, a <
    64 → u.rd pgTONGS (TONGS_LIVE.at a 4) = s.rd pgTONGS (TONGS_SHADOW.at a 4) ∧ u.rd pgTONGS (TONGS_SHADOW.at a 4) =
    s.rd pgTONGS (TONGS_SHADOW.at a 4)) ∧ u.rd pgTONGS TONGS_LIVE_BANK = (1 - s.rd pgTONGS TONGS_LIVE_BANK) % 2 ∧
    u.on pgTONGS PG_SHADOW_SWAP = false ∧ u.rd pgTONGS TONGS_WAITING = 0 ∧ u.rd pgTONGS TONGS_C_SWAPS = (s.rd pgTONGS
    TONGS_C_SWAPS + 1) % 2 ^ 64) ∧
  (∀ (s : State) (t n : Nat), s.reachesCtrl 0x70 false ∧ s.on pgTONGS PG_SHADOW_SWAP = false ∧ n < 16 ∧ s.on (pgTONG
    n) PG_ENABLE = true ∧ s.on (pgTONG n) TONG_HELD = false ∧ s.rd (pgTONG n) TONG_FAULT = 0 → ∃ u, exec
    (.tongShadowSwap t) s = .next u ∧ u.on pgTONGS PG_SHADOW_SWAP = true ∧ u.tongWaits n = true ∧ u.rd (pgTONG n)
    TONG_BANK = s.rd (pgTONG n) TONG_BANK ∧ u.rd (pgTONG n) TONG_PC = s.rd (pgTONG n) TONG_PC ∧ u.tong.swapAt = max
    s.time.clk t ∧ u.rd pgTONGS TONGS_LIVE_BANK = (1 - s.rd pgTONGS TONGS_LIVE_BANK) % 2) ∧
  (∀ (s : State) (t n : Nat), n < 16 ∧ s.rd pgTONGS TONGS_WAITING = 2 ^ n ∧ s.tongBoundary n = true ∧ s.rd (pgTONG n)
    TONG_STALL = 0 ∧ s.on pgTONGS PG_SHADOW_SWAP = true ∧ s.tong.held = [] → ∃ u, exec (.engineBankMove t n) s =
    .next u ∧ u.rd (pgTONG n) TONG_BANK = s.rd pgTONGS TONGS_LIVE_BANK ∧ u.rd (pgTONG n) TONG_ENTRY = bits (s.rd
    (pgTONG n) TONG_PROG_NEXT) 5 0 ∧ u.rd (pgTONG n) TONG_PC = bits (s.rd (pgTONG n) TONG_PROG_NEXT) 5 0 ∧ u.rd
    pgTONGS TONGS_WAITING = 0 ∧ u.on pgTONGS PG_SHADOW_SWAP = false ∧ u.rd pgTONGS TONGS_C_SWAPS = (s.rd pgTONGS
    TONGS_C_SWAPS + 1) % 2 ^ 64) ∧
  (∀ (s : State) (t n : Nat), n < 16 ∧ (s.tongWaits n = false ∨ s.tongBoundary n = false) → ∃ u, exec
    (.engineBankMove t n) s = .next u ∧ u = s.at t) ∧
  (∀ (s : State) (t : Nat), (s.on pgTONGS PG_SHADOW_SWAP = false ∨ s.on pgTONGS TONGS_AUTO_FORCE = false ∨ max
    s.time.clk t < s.tong.swapAt + s.rd pgTONGS TONGS_SWAP_TO_US * usU) → ∃ u, exec (.swapTimeout t) s = .next u ∧ u
    = s.at t) ∧
  (∀ (s : State) (t n : Nat), n < 16 ∧ s.rd pgTONGS TONGS_WAITING = 2 ^ n ∧ s.rd (pgTONG n) TONG_STALL = 0 ∧ s.on
    pgTONGS PG_SHADOW_SWAP = true ∧ s.tong.held = [] → s.on pgTONGS TONGS_AUTO_FORCE = true ∧ s.rd pgTONGS
    TONGS_SWAP_TO_US ≠ 0 ∧ s.tong.swapAt + s.rd pgTONGS TONGS_SWAP_TO_US * usU ≤ max s.time.clk t → ∃ u, exec
    (.swapTimeout t) s = .next u ∧ u.rd (pgTONG n) TONG_PC = bits (s.rd (pgTONG n) TONG_PROG_NEXT) 5 0 ∧ u.rd pgTONGS
    TONGS_WAITING = 0 ∧ u.on pgTONGS PG_SHADOW_SWAP = false ∧ u.pends (0x60 + n) 3 = true) ∧
  (∀ (s : State) (t n : Nat), n < 16 ∧ s.reaches 0x70 false ∧ s.rd pgTONGS TONGS_WAITING = 2 ^ n ∧ s.rd (pgTONG n)
    TONG_STALL = 0 ∧ s.on pgTONGS PG_SHADOW_SWAP = true ∧ s.tong.held = [] → ∃ u, exec (.tongForce t) s = .next u ∧
    u.rd (pgTONG n) TONG_PC = bits (s.rd (pgTONG n) TONG_PROG_NEXT) 5 0 ∧ u.rd pgTONGS TONGS_WAITING = 0 ∧ u.on
    pgTONGS PG_SHADOW_SWAP = false ∧ u.pends (0x60 + n) 3 = true ∧ u.rd (pgTONG n) TONG_C_FORCED_SWAPS = (s.rd
    (pgTONG n) TONG_C_FORCED_SWAPS + 1) % 2 ^ 64 ∧ u.rd pgTONGS TONGS_C_FORCED = (s.rd pgTONGS TONGS_C_FORCED + 1) %
    2 ^ 64)

/-- A channel enters or leaves service with its cause, initialised memory reads 0, scrubs count and retire, a window
  write changes its own bytes only. (R331, R332, R333, R334, R335, R341, R407) -/
def Obligations.CellarChannelsScrubAndWindow : Prop :=
  (∀ (s : State) (t c : Nat), c < 2 ∧ s.rd pgCELL (chState c) = 1 → ∃ u, exec (.cellarChannelTrained t c true true) s
    = .next u ∧ u.rd pgCELL (chState c) = 2 ∧ u.cel = (if c = 0 then { s.cel with cap0 := s.orgBytes 0 } else
    { s.cel with cap1 := s.orgBytes 1 }) ∧ Frame [(pgCELL, chState c)] [] (s.at t) { u with cel := s.cel }) ∧
  (∀ (s : State) (t c : Nat) (tr te : Bool), c < 2 ∧ s.rd pgCELL (chState c) = 1 ∧ (tr = false ∨ te = false) → ∃ u,
    exec (.cellarChannelTrained t c tr te) s = .next u ∧ u.rd pgCELL (chState c) = 3 ∧ u.rd pgCELL (chCause c) = (if
    tr then 2 else 1) ∧ u.pends 0xA2 2 = true ∧ (u.rd pgTWIN TWIN_HEALTH).testBit 4 = true ∧ Frame [(pgCELL, chState
    c), (pgCELL, chCause c), (pgTWIN, TWIN_HEALTH)] [0xA2] (s.at t) u) ∧
  (∀ (s : State) (t c : Nat) (tr te : Bool), c < 2 ∧ s.rd pgCELL (chState c) ≠ 1 → ∃ u, exec (.cellarChannelTrained t
    c tr te) s = .next u ∧ u = s.at t) ∧
  (∀ (s : State) (t : Nat), ∃ u, exec (.cellarInitDone t) s = .next u ∧ u.cel = { s.cel with inited := s.celCap } ∧
    u.regs = s.regs ∧ u.out = s.out ∧ (∀ a : Nat, memGet u.cells a = if a < s.cel.inited then memGet s.cells a else
    0#8) ∧ (Memory.wf s.cells = true → Memory.wf u.cells = true)) ∧
  (∀ (s : State) (t c : Nat), c < 2 ∧ s.reaches 0xA2 false ∧ s.chInService c = true → ∃ u, exec (.channelOos t c) s =
    .next u ∧ u.rd pgCELL (chState c) = 3 ∧ u.rd pgCELL (chCause c) = 4 ∧ u.pends 0xA2 2 = true ∧ Frame [(pgCELL,
    chState c), (pgCELL, chCause c), (pgTWIN, TWIN_HEALTH)] [0xA2] (s.at t) u) ∧
  (∀ (s : State) (t c : Nat), c < 2 ∧ s.reaches 0xA2 false ∧ s.chInService c = false → ∃ u, exec (.channelOos t c) s
    = .next u ∧ u = s.at t) ∧
  (∀ (s : State) (t c : Nat), c < 2 ∧ s.chInService c = true ∧ s.rd pgCELL CELL_UE_LIMIT < (if c = 0 then s.cel.ue0
    else s.cel.ue1) → ∃ u, exec (.ueLimitExceeded t c) s = .next u ∧ u.rd pgCELL (chState c) = 3 ∧ u.rd pgCELL
    (chCause c) = 3 ∧ u.pends 0xA2 2 = true ∧ Frame [(pgCELL, chState c), (pgCELL, chCause c), (pgTWIN, TWIN_HEALTH)]
    [0xA2] (s.at t) u) ∧
  (∀ (s : State) (t c : Nat), c < 2 ∧ (s.chInService c = false ∨ (if c = 0 then s.cel.ue0 else s.cel.ue1) ≤ s.rd
    pgCELL CELL_UE_LIMIT) → ∃ u, exec (.ueLimitExceeded t c) s = .next u ∧ u = s.at t) ∧
  (∀ (s : State) (t a b c : Nat) (last : Bool), ∃ u, exec (.cellarScrub t a 0 b 0 c last) s = .next u ∧ u.rd pgCELL
    CELL_C_SCRUB_PASSES = (s.rd pgCELL CELL_C_SCRUB_PASSES + last.toNat) % 2 ^ 64 ∧ Frame [(pgCELL,
    CELL_C_SCRUB_PASSES)] [] (s.at t) u) ∧
  (∀ (s : State) (t a ce b c : Nat), 1 ≤ ce ∧ ce ≤ s.rd pgCELL CELL_CE_RETIRE → ∃ u, exec (.cellarScrub t a ce b 0 c
    false) s = .next u ∧ u.rd pgCELL CELL_C_CE_WORDS = (s.rd pgCELL CELL_C_CE_WORDS + ce) % 2 ^ 64 ∧ u.rd pgCELL
    CELL_CE_ADDR = b % 2 ^ CELL_CE_ADDR.width ∧ u.pends 0xA2 0 = true ∧ Frame [(pgCELL, CELL_C_CE_WORDS), (pgCELL,
    CELL_CE_ADDR)] [0xA2] (s.at t) u) ∧
  (∀ (s : State) (t a b ue c : Nat), 1 ≤ ue ∧ s.cel.retired = [] → ∃ u, exec (.cellarScrub t a 0 b ue c false) s =
    .next u ∧ u.cel.retired = [s.granule a] ∧ u.rd pgCELL CELL_C_UE_WORDS = (s.rd pgCELL CELL_C_UE_WORDS + ue) % 2 ^
    64 ∧ u.rd pgCELL CELL_UE_ADDR = c % 2 ^ CELL_UE_ADDR.width ∧ u.pends 0xA2 1 = true ∧ u.pends 0xA2 3 = true ∧ u.rd
    pgCELL CELL_C_RETIRED = (s.rd pgCELL CELL_C_RETIRED + 1) % 2 ^ 64 ∧ u.cells = s.cells) ∧
  (∀ (s : State) (t off b : Nat) (data : List Byte), b = s.rd pgCELL CELL_WIN_BASE * 2 ^ 20 + off % 2 ^ 26 ∧
    s.hostBase ≤ b ∧ b + data.length ≤ s.hostBase + s.cel.hostSz ∧ s.chInService (s.granule b).1 = true → ∃ u, exec
    (.bar2Write t off data) s = .next u ∧ (∀ a : Nat, memGet u.cells a = if b ≤ a ∧ a < b + data.length then
    data.getD (a - b) 0#8 else memGet s.cells a) ∧ memRead u.cells b data.length = data ∧ (Memory.wf s.cells = true →
    Memory.wf u.cells = true) ∧ u.rd pgCELL CELL_C_WR_BYTES = (s.rd pgCELL CELL_C_WR_BYTES + data.length) % 2 ^ 64 ∧
    Frame [(pgCELL, CELL_C_WR_BYTES)] [] (s.at t) { u with cells := s.cells }) ∧
  (∀ (s : State) (t off b : Nat) (data : List Byte), b = s.rd pgCELL CELL_WIN_BASE * 2 ^ 20 + off % 2 ^ 26 ∧ (b <
    s.hostBase ∨ s.hostBase + s.cel.hostSz < b + data.length) → ∃ u, exec (.bar2Write t off data) s = .next u ∧ u.rd
    pgCELL CELL_C_WIN_WR_REFUSED = (s.rd pgCELL CELL_C_WIN_WR_REFUSED + 1) % 2 ^ 64 ∧ u.pends 0xA2 5 = true ∧ Frame
    [(pgCELL, CELL_C_WIN_WR_REFUSED)] [0xA2] (s.at t) u) ∧
  (∀ (s : State) (t errs : Nat), ∃ u, exec (.larderScrubPass t errs) s = .next u ∧ u.rd pgTEST TEST_C_LSCRUB_PASSES =
    (s.rd pgTEST TEST_C_LSCRUB_PASSES + 1) % 2 ^ 64 ∧ u.rd pgTEST TEST_C_LARDER_PAR = (s.rd pgTEST TEST_C_LARDER_PAR
    + errs) % 2 ^ 64 ∧ Frame [(pgTEST, TEST_C_LSCRUB_PASSES), (pgTEST, TEST_C_LARDER_PAR)] [] (s.at t) u)

/-- A written record frees its item's cells, an old block closes with its header and no other byte changes, and
  freeze windows open, are extended, end and are freed. (R24, R337, R338, R339, R340, R346) -/
def Obligations.TheJournalWritesClosesAndFreezes : Prop :=
  (∀ (s : State) (t h : Nat) (i : LItem), s.item? h = some i ∧ i.wb = none ∧ s.refsTo h ≠ [] → ∃ u, exec
    (.journalWriteDone t h) s = .next u ∧ u.item? h = some { i with jrnl := true } ∧ u.regs = s.regs ∧ u.out = s.out
    ∧ u.del.queues = s.del.queues) ∧
  (∀ (s : State) (t h : Nat) (i : LItem), s.item? h = some i ∧ i.wb = none ∧ s.refsTo h = [] ∧ i.loc = .larder ∧ s.rx
    = [] ∧ s.rd pgLARD LARD_CELLS_USED = itemCells i.item → ∃ u, exec (.journalWriteDone t h) s = .next u ∧ u.item? h
    = none ∧ u.rd pgLARD LARD_CELLS_USED = 0 ∧ u.del.queues = s.del.queues) ∧
  (∀ (s : State) (t h : Nat), s.item? h = none → ∃ u, exec (.journalWriteDone t h) s = .next u ∧ u = s.at t) ∧
  (∀ (s : State) (t : Nat) (o : JOpen), s.jrnl.cur = some o ∧ o.since + s.rd pgJRNL JRNL_CLOSE_MS * msU ≤ max
    s.time.clk t ∧ s.on pgJRNL JRNL_SEAL_EN = false ∧ s.chInService (s.granule (s.jAddr o.slot)).1 = true → (∀ w :
    Nat, w < 4 → s.jwState w ≠ 1) → ∃ u, exec (.journalBlockClose t) s = .next u ∧ memRead u.cells (s.jAddr o.slot)
    64 = jHeader o 2 (secOf (s.at t).time.h) (zeros 32) ∧ (∀ a : Nat, a < s.jAddr o.slot ∨ s.jAddr o.slot + 64 ≤ a →
    memGet u.cells a = memGet s.cells a) ∧ u.jrnl =
    { s.jrnl with blocks := s.jrnl.blocks ++ [⟨o.slot, o.bseq, secOf (s.at t).time.h⟩], cur := none } ∧ u.rd pgJRNL
    JRNL_C_BLOCKS = (s.rd pgJRNL JRNL_C_BLOCKS + 1) % 2 ^ 64 ∧ u.rd pgJRNL JRNL_C_BYTES = (s.rd pgJRNL JRNL_C_BYTES +
    64) % 2 ^ 64 ∧ Frame [(pgJRNL, JRNL_C_BLOCKS), (pgJRNL, JRNL_C_BYTES), (pgCELL, CELL_C_WR_BYTES)] [] (s.at t)
    { u with cells := s.cells, jrnl := s.jrnl }) ∧
  (∀ (s : State) (t : Nat), (∀ o ∈ s.jrnl.cur.toList, max s.time.clk t < o.since + s.rd pgJRNL JRNL_CLOSE_MS * msU) →
    ∃ u, exec (.journalBlockClose t) s = .next u ∧ u = s.at t) ∧
  (∀ (s : State) (t : Nat), s.reaches 0xA3 false ∧ (∀ w : Nat, w < 4 → s.jwState w = 0) ∧ s.jrnl.blocks = [] ∧
    s.jrnl.cur = none → ∃ u, exec (.journalFreeze t) s = .next u ∧ u.jwState 0 = 1 ∧ u.jwState 1 = 0 ∧ u.rd pgJRNL
    (JRNL_W_CAUSE.at 0 32) = 0 ∧ u.rd pgJRNL (JRNL_W_FIRST_B.at 0 32) = s.jrnl.nextB % 2 ^ JRNL_W_FIRST_B.width ∧
    u.rd pgJRNL (JRNL_W_TRIG_S.at 0 32) = secOf (s.at t).time.h % 2 ^ JRNL_W_TRIG_S.width ∧ u.rd pgJRNL
    (JRNL_W_TRIG_NS.at 0 32) = nsOf (s.at t).time.h % 2 ^ JRNL_W_TRIG_NS.width ∧ u.rd pgJRNL JRNL_C_FREEZES = (s.rd
    pgJRNL JRNL_C_FREEZES + 1) % 2 ^ 64 ∧ Frame ((pgJRNL, JRNL_C_FREEZES) :: [JRNL_W_STATE, JRNL_W_TRUNC,
    JRNL_W_CAUSE, JRNL_W_FIRST_B, JRNL_W_LAST_B, JRNL_W_TRIG_S, JRNL_W_TRIG_NS].map (fun f => (pgJRNL, f.at 0 32)))
    [] (s.at t) u) ∧
  (∀ (s : State) (t w : Nat), s.reaches 0xA3 false ∧ w < 4 ∧ s.jwState w = 1 ∧ (∀ v : Nat, v < w → s.jwState v ≠ 1) →
    ∃ u, exec (.journalFreeze t) s = .next u ∧ u.rd pgJRNL JRNL_C_FREEZE_EXT = (s.rd pgJRNL JRNL_C_FREEZE_EXT + 1) %
    2 ^ 64 ∧ u.rd pgJRNL (JRNL_W_TRIG_S.at w 32) = secOf (s.at t).time.h % 2 ^ JRNL_W_TRIG_S.width ∧ Frame [(pgJRNL,
    JRNL_C_FREEZE_EXT), (pgJRNL, JRNL_W_TRIG_S.at w 32), (pgJRNL, JRNL_W_TRIG_NS.at w 32)] [] (s.at t) u) ∧
  (∀ (s : State) (t : Nat), s.reaches 0xA3 false ∧ (∀ w : Nat, w < 4 → s.jwState w = 2) → ∃ u, exec (.journalFreeze
    t) s = .next u ∧ u.rd pgJRNL JRNL_C_FREEZE_REFUSED = (s.rd pgJRNL JRNL_C_FREEZE_REFUSED + 1) % 2 ^ 64 ∧ u.pends
    0xA3 1 = true ∧ Frame [(pgJRNL, JRNL_C_FREEZE_REFUSED)] [0xA3] (s.at t) u) ∧
  (∀ (s : State) (t w : Nat), w < 4 ∧ s.jwState w = 1 ∧ s.jrnl.blocks = [] ∧ instant (s.rd pgJRNL (JRNL_W_TRIG_S.at w
    32) + s.rd pgJRNL JRNL_POST_S) (s.rd pgJRNL (JRNL_W_TRIG_NS.at w 32)) 0 ≤ (s.at t).time.h → ∃ u, exec
    (.freezePostEnd t w) s = .next u ∧ u.jwState w = 2 ∧ u.pends 0xA3 0 = true ∧ u.rd pgJRNL (JRNL_W_LAST_B.at w 32)
    = 0 ∧ Frame [(pgJRNL, JRNL_W_STATE.at w 32), (pgJRNL, JRNL_W_LAST_B.at w 32)] [0xA3] (s.at t) u) ∧
  (∀ (s : State) (t w : Nat), w < 4 ∧ s.jwState w ≠ 1 → ∃ u, exec (.freezePostEnd t w) s = .next u ∧ u = s.at t) ∧
  (∀ (s : State) (t w : Nat), w < 4 ∧ s.reaches 0xA3 false ∧ s.jwState w = 2 → ∃ u, exec (.unfreeze t w) s = .next u
    ∧ u.jwState w = 0 ∧ Frame [(pgJRNL, JRNL_W_STATE.at w 32)] [] (s.at t) u) ∧
  (∀ (s : State) (t w : Nat), w < 4 ∧ s.reaches 0xA3 false ∧ s.jwState w ≠ 2 → ∃ u, exec (.unfreeze t w) s = .next u
    ∧ Frame (refusalFields 0xA3) [0] (s.at t) u ∧ u.on (pgAt 0xA3) PG_ERROR = true)

/-- One strongbox command runs at a time with its arguments; its end sets OP_STATUS and zeroes the buffers; keys
  load, leave, orphan; tamper settings tighten. (R350, R352, R354, R355, R356, R358, R360, R361, R362, R368, R369) -/
def Obligations.TheStrongboxTakesOneCommandAtATime : Prop :=
  (∀ (s : State) (t : Nat), s.reachesSbox ∧ s.sbox.op = none ∧ s.rd pgSBOX SBOX_SB_STATE = 1 ∧ s.on pgSBOX
    SBOX_CLEAR_LOCK = false → ∃ u, exec (.loadClear t) s = .next u ∧ u.sbox =
    { s.sbox with op := some (s.sbOpOf 1 false) } ∧ u.rd pgSBOX SBOX_OP_STATUS = 1 ∧ u.rd pgSBOX SBOX_C_OPS = (s.rd
    pgSBOX SBOX_C_OPS + 1) % 2 ^ 64 ∧ Frame [(pgSBOX, SBOX_C_OPS), (pgSBOX, SBOX_OP_STATUS)] [] (s.at t)
    { u with sbox := s.sbox }) ∧
  (∀ (s : State) (t : Nat), s.reachesSbox ∧ s.sbox.op = none ∧ s.rd pgSBOX SBOX_SB_STATE = 1 ∧ s.on pgSBOX
    SBOX_CLEAR_LOCK = true → ∃ u, exec (.loadClear t) s = .next u ∧ u.sbox = s.sbox ∧ u.rd pgSBOX SBOX_OP_STATUS = 7
    ∧ u.rd pgSBOX SBOX_C_OP_FAIL = (s.rd pgSBOX SBOX_C_OP_FAIL + 1) % 2 ^ 64 ∧ u.pends 5 0 = true) ∧
  (∀ (s : State) (t : Nat), s.reachesSbox ∧ s.sbox.op ≠ none → ∃ u, exec (.derive t) s = .next u ∧ Frame
    (refusalFields 5) [0] (s.at t) u ∧ u.on (pgAt 5) PG_ERROR = true) ∧
  (∀ (s : State) (t : Nat), s.reachesSbox ∧ s.sbox.op = none ∧ s.rd pgSBOX SBOX_SB_STATE = 1 → ∃ u, exec (.derive t)
    s = .next u ∧ u.sbox = { s.sbox with op := some (s.sbOpOf 2 false) } ∧ u.rd pgSBOX SBOX_OP_STATUS = 1 ∧ Frame
    [(pgSBOX, SBOX_C_OPS), (pgSBOX, SBOX_OP_STATUS)] [] (s.at t) { u with sbox := s.sbox }) ∧
  (∀ (s : State) (t : Nat), s.reachesSbox ∧ s.sbox.op = none ∧ 1 ≤ s.rd pgSBOX SBOX_SB_STATE → ∃ u, exec (.revoke t)
    s = .next u ∧ u.sbox = { s.sbox with op := some (s.sbOpOf 3 false) } ∧ u.rd pgSBOX SBOX_OP_STATUS = 1 ∧ Frame
    [(pgSBOX, SBOX_C_OPS), (pgSBOX, SBOX_OP_STATUS)] [] (s.at t) { u with sbox := s.sbox }) ∧
  (∀ (s : State) (t : Nat), s.reachesSbox ∧ s.sbox.op = none ∧ s.rd pgSBOX SBOX_SB_STATE = 1 → ∃ u, exec (.erase t) s
    = .next u ∧ u.sbox = { s.sbox with op := some (s.sbOpOf 4 false) } ∧ u.rd pgSBOX SBOX_OP_STATUS = 1 ∧ Frame
    [(pgSBOX, SBOX_C_OPS), (pgSBOX, SBOX_OP_STATUS)] [] (s.at t) { u with sbox := s.sbox }) ∧
  (∀ (s : State) (t : Nat), s.reachesSbox ∧ s.sbox.op = none ∧ s.rd pgSBOX SBOX_SB_STATE = 1 ∧ s.on pgSBOX
    SBOX_CLEAR_LOCK = false → ∃ u, exec (.newRoot t) s = .next u ∧ u.sbox =
    { s.sbox with op := some (s.sbOpOf 5 false) } ∧ u.rd pgSBOX SBOX_OP_STATUS = 1 ∧ Frame [(pgSBOX, SBOX_C_OPS),
    (pgSBOX, SBOX_OP_STATUS)] [] (s.at t) { u with sbox := s.sbox }) ∧
  (∀ (s : State) (t : Nat), s.reachesSbox ∧ s.sbox.op = none → ∃ u, exec (.applyUpdate t) s = .next u ∧ u.sbox =
    { s.sbox with op := some (s.sbOpOf 6 false) } ∧ u.rd pgSBOX SBOX_OP_STATUS = 1 ∧ Frame [(pgSBOX, SBOX_C_OPS),
    (pgSBOX, SBOX_OP_STATUS)] [] (s.at t) { u with sbox := s.sbox }) ∧
  (∀ (s : State) (t : Nat), s.reachesSbox ∧ s.sbox.op = none ∧ 1 ≤ s.rd pgSBOX SBOX_SB_STATE → ∃ u, exec (.attest t)
    s = .next u ∧ u.sbox = { s.sbox with op := some (s.sbOpOf 7 false) } ∧ u.rd pgSBOX SBOX_OP_STATUS = 1 ∧ Frame
    [(pgSBOX, SBOX_C_OPS), (pgSBOX, SBOX_OP_STATUS)] [] (s.at t) { u with sbox := s.sbox }) ∧
  (∀ (s : State) (t : Nat) (adv : Bool), s.reachesSbox ∧ s.sbox.op = none ∧ s.rd pgSBOX SBOX_SB_STATE = 1 ∧
    s.imageFits = true → ∃ u, exec (.verifyImage t adv) s = .next u ∧ u.sbox =
    { s.sbox with op := some (s.sbOpOf 8 adv) } ∧ u.rd pgSBOX SBOX_OP_STATUS = 1 ∧ Frame [(pgSBOX, SBOX_C_OPS),
    (pgSBOX, SBOX_OP_STATUS)] [] (s.at t) { u with sbox := s.sbox }) ∧
  (∀ (s : State) (t : Nat) (adv : Bool), s.reachesSbox ∧ s.imageFits = false → ∃ u, exec (.verifyImage t adv) s =
    .next u ∧ Frame (refusalFields 5) [0] (s.at t) u ∧ u.on (pgAt 5) PG_ERROR = true) ∧
  (∀ (s : State) (t : Nat), (s.sbox.op = none ∨ s.rd pgSBOX SBOX_SB_STATE = 0) → ∃ u, exec (.commandDone t) s = .next
    u ∧ u = s.at t) ∧
  (∀ (s : State) (t : Nat) (o : SbOp), s.sbox.op = some o ∧ s.rd pgSBOX SBOX_SB_STATE ≠ 0 ∧ o.cmd = 4 ∧ o.slot = 0 →
    ∃ u, exec (.commandDone t) s = .next u ∧ u.sbox = { s.sbox with op := none } ∧ u.rd pgSBOX SBOX_OP_STATUS = 6 ∧
    u.pends 5 0 = true ∧ u.sbBytes SBOX_STAGE 96 = zeros 96 ∧ u.sbBytes SBOX_SALT 48 = zeros 48 ∧ (∀ k : Nat, k < 128
    → u.rd (metaAt k) META_STATE = s.rd (metaAt k) META_STATE)) ∧
  (∀ (s : State) (t : Nat) (o : SbOp), s.sbox.op = some o ∧ s.rd pgSBOX SBOX_SB_STATE ≠ 0 ∧ (o.cmd = 3 ∨ o.cmd = 4) ∧
    1 < o.slot ∧ o.slot < 128 ∧ s.rd (metaAt o.slot) META_STATE = 1 → ∃ u, exec (.commandDone t) s = .next u ∧ u.rd
    (metaAt o.slot) META_STATE = (if o.cmd = 3 then 3 else 0) ∧ u.rd (metaAt o.slot) META_CAUSE = (if o.cmd = 3 then
    4 else 5) ∧ tabGet? u.sbox.keys o.slot = none ∧ u.rd pgSBOX SBOX_OP_STATUS = 2 ∧ (∀ d : Nat, d < 128 → d ≠ o.slot
    → u.rd (metaAt d) META_STATE = (if s.rd (metaAt d) META_STATE = 1 ∧ s.descends d o.slot = true then 2 else s.rd
    (metaAt d) META_STATE))) ∧
  (∀ (s : State) (t : Nat) (o : SbOp), s.sbox.op = some o ∧ s.rd pgSBOX SBOX_SB_STATE = 1 ∧ o.cmd = 1 ∧ o.src = 5 ∧
    o.slot < 128 ∧ o.alg < 8 ∧ o.eng < 8 ∧ s.loadOk o.slot o.alg o.eng o.src = true → ∃ u, exec (.commandDone t) s =
    .next u ∧ u.rd (metaAt o.slot) META_STATE = 1 ∧ u.rd (metaAt o.slot) META_ALG = o.alg ∧ u.rd (metaAt o.slot)
    META_PARENT = 5 ∧ u.rd (metaAt o.slot) META_ENG = o.eng % 2 ^ META_ENG.width ∧ u.rd (metaAt o.slot) META_LEVEL =
    2 ∧ u.rd (metaAt o.slot) META_ORIGIN = 1 ∧ tabGet? u.sbox.keys o.slot = some (o.stage.take (algLen o.alg)) ∧ u.rd
    pgSBOX SBOX_OP_STATUS = 2 ∧ u.sbox.op = none) ∧
  (∀ (s : State) (t mask : Nat), s.reachesSbox ∧ mask < 32 → ∃ u, exec (.tampArm t mask) s = .next u ∧ (∀ b : Nat, b
    < 5 → (u.rd pgSBOX SBOX_TAMP_EN).testBit b = ((s.rd pgSBOX SBOX_TAMP_EN).testBit b || mask.testBit b)) ∧ Frame
    [(pgSBOX, SBOX_TAMP_EN)] [] (s.at t) u) ∧
  (∀ (s : State) (t : Nat), s.reachesSbox → ∃ u, exec (.tampClr t) s = .next u ∧ (if s.rd pgSBOX SBOX_SB_STATE = 1 ∧
    s.on pgSBOX SBOX_CLEAR_LOCK = false then u.rd pgSBOX SBOX_TAMP_LATCH = 0 ∧ (u.rd pgTWIN TWIN_HEALTH).testBit 11 =
    false else u = s.at t) ∧ Frame [(pgSBOX, SBOX_TAMP_LATCH), (pgTWIN, TWIN_HEALTH)] [] (s.at t) u) ∧
  (∀ (s : State) (t : Nat), s.reachesSbox → ∃ u, exec (.clearLock t) s = .next u ∧ u.on pgSBOX SBOX_CLEAR_LOCK = true
    ∧ Frame [(pgSBOX, SBOX_CLEAR_LOCK)] [] (s.at t) u)

/-- A legal test runs when its condition holds and else waits; its slot ends CANCELLED, ABORTED, PASS or FAIL with
  its counts; FAIL sets HEALTH bit 9. (R421, R422, R423, R424, R425, R428) -/
def Obligations.TestSlotsRunAndEnd : Prop :=
  (∀ (s : State) (t k : Nat) (word : Word), k < 4 ∧ s.reaches 3 false ∧ s.ts k TEST_SL_RSTATE = 0 ∧ (s.setWord pgTEST
    rows_TEST (0x100 + 0x20 * k) word.toNat).tsLegal k = true → (s.setWord pgTEST rows_TEST (0x100 + 0x20 * k)
    word.toNat).tsMayRun k = true ∧ (s.setWord pgTEST rows_TEST (0x100 + 0x20 * k) word.toNat).ts k TEST_SL_TID = 1 →
    ∃ u, exec (.testGo t k word) s = .next u ∧ u.ts k TEST_SL_RSTATE = 2 ∧ u.ts k TEST_SL_BITS = 0 ∧ u.ts k
    TEST_SL_ERRS = 0 ∧ tabGet? u.sys.tests k = some (max s.time.clk t, none) ∧ u.del = s.del ∧ u.rx = s.rx ∧ u.out =
    s.out) ∧
  (∀ (s : State) (t k : Nat) (word : Word), k < 4 ∧ s.reaches 3 false ∧ s.ts k TEST_SL_RSTATE = 0 ∧ (s.setWord pgTEST
    rows_TEST (0x100 + 0x20 * k) word.toNat).tsLegal k = true → (s.setWord pgTEST rows_TEST (0x100 + 0x20 * k)
    word.toNat).tsMayRun k = false → ∃ u, exec (.testGo t k word) s = .next u ∧ u.ts k TEST_SL_RSTATE = 1 ∧ u.sys =
    s.sys ∧ u.del = s.del ∧ u.out = s.out) ∧
  (∀ (s : State) (t k : Nat) (word : Word), k < 4 ∧ s.reaches 3 false ∧ (s.ts k TEST_SL_RSTATE ≠ 0 ∨ (s.setWord
    pgTEST rows_TEST (0x100 + 0x20 * k) word.toNat).tsLegal k = false) → ∃ u, exec (.testGo t k word) s = .next u ∧
    Frame (refusalFields 3) [0] (s.at t) u ∧ u.on (pgAt 3) PG_ERROR = true) ∧
  (∀ (s : State) (t k : Nat), k < 4 ∧ s.ts k TEST_SL_RSTATE = 1 ∧ s.tsMayRun k = true ∧ s.ts k TEST_SL_TID = 1 → ∃ u,
    exec (.testStart t k) s = .next u ∧ u.ts k TEST_SL_RSTATE = 2 ∧ u.ts k TEST_SL_BITS = 0 ∧ u.ts k TEST_SL_ERRS = 0
    ∧ tabGet? u.sys.tests k = some (max s.time.clk t, none) ∧ Frame ([TEST_SL_RSTATE, TEST_SL_BITS, TEST_SL_ERRS].map
    (fun f => (pgTEST, tsF f k))) [] (s.at t) { u with sys := s.sys }) ∧
  (∀ (s : State) (t k : Nat), k < 4 ∧ (s.ts k TEST_SL_RSTATE ≠ 1 ∨ s.tsMayRun k = false) → ∃ u, exec (.testStart t k)
    s = .next u ∧ u = s.at t) ∧
  (∀ (s : State) (t k n errs : Nat), k < 4 ∧ s.reaches 3 false ∧ (s.ts k TEST_SL_RSTATE = 1 ∨ s.ts k TEST_SL_RSTATE =
    2) → ∃ u, exec (.testCancel t k n errs) s = .next u ∧ u.ts k TEST_SL_RSTATE = 6 ∧ u.pends 3 0 = true ∧ tabGet?
    u.sys.tests k = none ∧ Frame ([TEST_SL_RSTATE, TEST_SL_BITS, TEST_SL_ERRS].map (fun f => (pgTEST, tsF f k))) [3]
    (s.at t) { u with sys := s.sys }) ∧
  (∀ (s : State) (t k n errs : Nat), k < 4 ∧ s.reaches 3 false ∧ s.ts k TEST_SL_RSTATE ≠ 1 ∧ s.ts k TEST_SL_RSTATE ≠
    2 → ∃ u, exec (.testCancel t k n errs) s = .next u ∧ u = s.at t) ∧
  (∀ (s : State) (t k n errs : Nat), k < 4 ∧ s.ts k TEST_SL_RSTATE = 2 ∧ s.tsMayRun k = false → ∃ u, exec (.testAbort
    t k n errs) s = .next u ∧ u.ts k TEST_SL_RSTATE = 5 ∧ u.pends 3 0 = true ∧ tabGet? u.sys.tests k = none ∧ Frame
    ([TEST_SL_RSTATE, TEST_SL_BITS, TEST_SL_ERRS].map (fun f => (pgTEST, tsF f k))) [3] (s.at t)
    { u with sys := s.sys }) ∧
  (∀ (s : State) (t k n errs : Nat), k < 4 ∧ (s.ts k TEST_SL_RSTATE ≠ 2 ∨ s.tsMayRun k = true) → ∃ u, exec
    (.testAbort t k n errs) s = .next u ∧ u = s.at t) ∧
  (∀ (s : State) (t k n errs at_ : Nat), k < 4 ∧ s.ts k TEST_SL_RSTATE = 2 ∧ s.ts k TEST_SL_TID = 1 ∧ tabGet?
    s.sys.tests k = some (at_, none) ∧ 1 ≤ s.ts k TEST_SL_DURATION_MS ∧ at_ + s.ts k TEST_SL_DURATION_MS * msU ≤ max
    s.time.clk t → n < 2 ^ TEST_SL_BITS.width ∧ errs < 2 ^ TEST_SL_ERRS.width → ∃ u, exec (.testDurationEnd t k n
    errs) s = .next u ∧ u.ts k TEST_SL_RSTATE = (if errs ≤ s.ts k TEST_SL_ERR_LIMIT then 3 else 4) ∧ u.ts k
    TEST_SL_BITS = n ∧ u.ts k TEST_SL_ERRS = errs ∧ u.pends 3 0 = true ∧ (s.ts k TEST_SL_ERR_LIMIT < errs → u.pends 3
    1 = true ∧ (u.rd pgTWIN TWIN_HEALTH).testBit 9 = true) ∧ Frame ((pgTWIN, TWIN_HEALTH) :: [TEST_SL_RSTATE,
    TEST_SL_BITS, TEST_SL_ERRS].map (fun f => (pgTEST, tsF f k))) [3] (s.at t) { u with sys := s.sys }) ∧
  (∀ (s : State) (t k n errs : Nat), k < 4 ∧ (s.ts k TEST_SL_RSTATE ≠ 2 ∨ s.ts k TEST_SL_DURATION_MS = 0) → ∃ u, exec
    (.testDurationEnd t k n errs) s = .next u ∧ u = s.at t) ∧
  (∀ (s : State) (t k : Nat), k < 4 ∧ s.reaches 3 false → ∃ u, exec (.testAck t k) s = .next u ∧ u.ts k
    TEST_SL_RSTATE = (if 3 ≤ s.ts k TEST_SL_RSTATE then 0 else s.ts k TEST_SL_RSTATE) ∧ Frame [(pgTEST, tsF
    TEST_SL_RSTATE k)] [] (s.at t) u) ∧
  (∀ (s : State) (t : Nat), s.reaches 3 false → ∃ u, exec (.tfClr t) s = .next u ∧ (u.rd pgTWIN TWIN_HEALTH).testBit
    9 = false ∧ (∀ b : Nat, b < 12 → b ≠ 9 → (u.rd pgTWIN TWIN_HEALTH).testBit b = (s.rd pgTWIN TWIN_HEALTH).testBit
    b) ∧ Frame [(pgTWIN, TWIN_HEALTH)] [] (s.at t) u) ∧
  (∀ (s : State) (t k at_ : Nat), k < 4 ∧ s.ts k TEST_SL_RSTATE = 2 ∧ s.ts k TEST_SL_TID = 0 ∧ s.ts k TEST_SL_MODE ≠
    1 ∧ tabGet? s.sys.tests k = some (at_, none) → ∃ u, exec (.checkerLock t k) s = .next u ∧ tabGet? u.sys.tests k =
    some (at_, some (max s.time.clk t)) ∧ u.regs = s.regs ∧ u.out = s.out) ∧
  (∀ (s : State) (t k n errs at_ l : Nat), k < 4 ∧ s.ts k TEST_SL_RSTATE = 2 ∧ tabGet? s.sys.tests k = some (at_,
    some l) → ∃ u, exec (.checkerLockLost t k n errs) s = .next u ∧ u.ts k TEST_SL_RSTATE = 4 ∧ u.pends 3 1 = true ∧
    (u.rd pgTWIN TWIN_HEALTH).testBit 9 = true ∧ tabGet? u.sys.tests k = none) ∧
  (∀ (s : State) (t k n errs : Nat), k < 4 ∧ s.ts k TEST_SL_RSTATE ≠ 2 → ∃ u, exec (.checkerLockLost t k n errs) s =
    .next u ∧ u = s.at t)

/-- REGISTER_WRITE into a hole is recorded, where nothing is defined does nothing, and a setting is stored in its
  range and refused outside it. (R9, R10, R379) -/
def Obligations.OtherRegistersAreWrittenByTheirRange : Prop :=
  (∀ (s : State) (t a : Nat) (v : BitVec 64), a < 2 ^ 24 ∧ a % 4 = 0 ∧ isHole a = true → ∃ u, exec (.registerWrite t
    a false v) s = .next u ∧ u.rd pgHOST HOST_HOLE_ADDR = a % 2 ^ HOST_HOLE_ADDR.width ∧ u.rd pgHOST
    HOST_C_HOLE_ACCESS = (s.rd pgHOST HOST_C_HOLE_ACCESS + 1) % 2 ^ 64 ∧ u.pends 1 5 = true ∧ Frame [(pgHOST,
    HOST_HOLE_ADDR), (pgHOST, HOST_C_HOLE_ACCESS)] [1] (s.at t) u) ∧
  (∀ (s : State) (t a : Nat) (v : BitVec 64), a < 2 ^ 24 ∧ a % 4 = 0 ∧ isHole a = false ∧ placeOf a = none → ∃ u,
    exec (.registerWrite t a false v) s = .next u ∧ u = s.at t) ∧
  (∀ (s : State) (t : Nat) (v : BitVec 64), s.reaches 8 true ∧ s.tstate < 2 ∧ 100 ≤ v.toNat ∧ v.toNat ≤ 60000 → ∃ u,
    exec (.registerWrite t 0x8070 false v) s = .next u ∧ u.rd pgTWIN TWIN_DRAIN_MS = v.toNat ∧ u.on pgTWIN
    TWIN_AUTO_REJOIN = false ∧ Frame [(pgTWIN, TWIN_DRAIN_MS), (pgTWIN, TWIN_AUTO_REJOIN)] [] (s.at t) u) ∧
  (∀ (s : State) (t : Nat) (v : BitVec 64), s.reaches 8 true ∧ (v.toNat < 100 ∨ (60000 < v.toNat ∧ v.toNat < 65536))
    → ∃ u, exec (.registerWrite t 0x8070 false v) s = .next u ∧ Frame (refusalFields 8) [0] (s.at t) u ∧ u.on (pgAt
    8) PG_ERROR = true) ∧
  (∀ (s : State) (t : Nat) (v : BitVec 64), s.pageDown 8 = false ∧ s.pageReady 8 = true ∧ s.on (pgAt 8) PG_LOCK =
    true → ∃ u, exec (.registerWrite t 0x8070 false v) s = .next u ∧ Frame (refusalFields 8) [0] (s.at t) u ∧ u.on
    (pgAt 8) PG_ERROR = true)
end

