-- ==== Sys2Proof/Laws/Dispatch.lean ====
section
/-! SUPPORT. Laws/Dispatch.lean: what exec answers for each command: its meaning. -/

namespace Sys2Proof.Machine

variable (s : State)

@[simp] theorem exec_registerWrite (t : Nat) (addr : Nat) (wide : Bool) (value : BitVec 64) : exec (.registerWrite t addr wide value) s = execRegisterWrite t addr wide value s := rfl
@[simp] theorem exec_pgStatErrorClear (t : Nat) (page : Nat) : exec (.pgStatErrorClear t page) s = execPgStatErrorClear t page s := rfl
@[simp] theorem exec_pgEvtClear (t : Nat) (page : Nat) (word : Word) : exec (.pgEvtClear t page word) s = execPgEvtClear t page word s := rfl
@[simp] theorem exec_pgEvtEnWrite (t : Nat) (page : Nat) (word : Word) : exec (.pgEvtEnWrite t page word) s = execPgEvtEnWrite t page word s := rfl
@[simp] theorem exec_pageLock (t : Nat) (page key : Nat) : exec (.pageLock t page key) s = execPageLock t page key s := rfl
@[simp] theorem exec_pageUnlock (t : Nat) (page key : Nat) : exec (.pageUnlock t page key) s = execPageUnlock t page key s := rfl
@[simp] theorem exec_enableWrite (t : Nat) (page : Nat) (on : Bool) : exec (.enableWrite t page on) s = execEnableWrite t page on s := rfl
@[simp] theorem exec_softReset (t : Nat) (page sent stamp : Nat) : exec (.softReset t page sent stamp) s = execSoftReset t page sent stamp s := rfl
@[simp] theorem exec_softResetDone (t : Nat) (page np late : Nat) : exec (.softResetDone t page np late) s = execSoftResetDone t page np late s := rfl
@[simp] theorem exec_blockFreeze (t : Nat) (page : Nat) (on : Bool) : exec (.blockFreeze t page on) s = execBlockFreeze t page on s := rfl
@[simp] theorem exec_testMode (t : Nat) (page : Nat) (on : Bool) : exec (.testMode t page on) s = execTestMode t page on s := rfl
@[simp] theorem exec_unsupportedAccess (t : Nat) (addr : Nat) : exec (.unsupportedAccess t addr) s = execUnsupportedAccess t addr s := rfl
@[simp] theorem exec_holeAccess (t : Nat) (addr : Nat) : exec (.holeAccess t addr) s = execHoleAccess t addr s := rfl
@[simp] theorem exec_poisonedWrite (t : Nat) : exec (.poisonedWrite t) s = execPoisonedWrite t s := rfl
@[simp] theorem exec_powerOn (t : Nat) : exec (.powerOn t) s = execPowerOn t s := rfl
@[simp] theorem exec_resetPin (t : Nat) : exec (.resetPin t) s = execResetPin t s := rfl
@[simp] theorem exec_supplyReset (t : Nat) : exec (.supplyReset t) s = execSupplyReset t s := rfl
@[simp] theorem exec_devrstArm (t : Nat) (value : Nat) : exec (.devrstArm t value) s = execDevrstArm t value s := rfl
@[simp] theorem exec_devrstArmExpiry (t : Nat) : exec (.devrstArmExpiry t) s = execDevrstArmExpiry t s := rfl
@[simp] theorem exec_deviceSrst (t : Nat) : exec (.deviceSrst t) s = execDeviceSrst t s := rfl
@[simp] theorem exec_resetRelease (t : Nat) (first wipe hold : Bool) : exec (.resetRelease t first wipe hold) s = execResetRelease t first wipe hold s := rfl
@[simp] theorem exec_bootStageDone (t : Nat) (hdrBad bodyBad : BitVec 16) : exec (.bootStageDone t hdrBad bodyBad) s = execBootStageDone t hdrBad bodyBad s := rfl
@[simp] theorem exec_bootGo (t : Nat) : exec (.bootGo t) s = execBootGo t s := rfl
@[simp] theorem exec_cellarChannelTrained (t : Nat) (channel : Nat) (trained tested : Bool) : exec (.cellarChannelTrained t channel trained tested) s = execCellarChannelTrained t channel trained tested s := rfl
@[simp] theorem exec_cellarInitDone (t : Nat) : exec (.cellarInitDone t) s = execCellarInitDone t s := rfl
@[simp] theorem exec_wipeArm (t : Nat) (value : Nat) : exec (.wipeArm t value) s = execWipeArm t value s := rfl
@[simp] theorem exec_wipeArmExpiry (t : Nat) : exec (.wipeArmExpiry t) s = execWipeArmExpiry t s := rfl
@[simp] theorem exec_wipeGo (t : Nat) : exec (.wipeGo t) s = execWipeGo t s := rfl
@[simp] theorem exec_commit (t : Nat) (page : Nat) : exec (.commit t page) s = execCommit t page s := rfl
@[simp] theorem exec_commitTaken (t : Nat) : exec (.commitTaken t) s = execCommitTaken t s := rfl
@[simp] theorem exec_commitWritten (t : Nat) : exec (.commitWritten t) s = execCommitWritten t s := rfl
@[simp] theorem exec_sleep (t : Nat) (value : Nat) : exec (.sleep t value) s = execSleep t value s := rfl
@[simp] theorem exec_sleepPowerOff (t : Nat) : exec (.sleepPowerOff t) s = execSleepPowerOff t s := rfl
@[simp] theorem exec_wakeNInput (t : Nat) : exec (.wakeNInput t) s = execWakeNInput t s := rfl
@[simp] theorem exec_wakeTimer (t : Nat) : exec (.wakeTimer t) s = execWakeTimer t s := rfl
@[simp] theorem exec_wakePowerUp (t : Nat) : exec (.wakePowerUp t) s = execWakePowerUp t s := rfl
@[simp] theorem exec_powerDown (t : Nat) (mask : Nat) : exec (.powerDown t mask) s = execPowerDown t mask s := rfl
@[simp] theorem exec_powerDownDone (t : Nat) (domain : Nat) : exec (.powerDownDone t domain) s = execPowerDownDone t domain s := rfl
@[simp] theorem exec_powerUp (t : Nat) (mask : Nat) : exec (.powerUp t mask) s = execPowerUp t mask s := rfl
@[simp] theorem exec_testGo (t : Nat) (slot : Nat) (word : Word) : exec (.testGo t slot word) s = execTestGo t slot word s := rfl
@[simp] theorem exec_testStart (t : Nat) (slot : Nat) : exec (.testStart t slot) s = execTestStart t slot s := rfl
@[simp] theorem exec_testCancel (t : Nat) (slot checked errs : Nat) : exec (.testCancel t slot checked errs) s = execTestCancel t slot checked errs s := rfl
@[simp] theorem exec_testAbort (t : Nat) (slot checked errs : Nat) : exec (.testAbort t slot checked errs) s = execTestAbort t slot checked errs s := rfl
@[simp] theorem exec_testDurationEnd (t : Nat) (slot checked errs : Nat) : exec (.testDurationEnd t slot checked errs) s = execTestDurationEnd t slot checked errs s := rfl
@[simp] theorem exec_testAck (t : Nat) (slot : Nat) : exec (.testAck t slot) s = execTestAck t slot s := rfl
@[simp] theorem exec_tfClr (t : Nat) : exec (.tfClr t) s = execTfClr t s := rfl
@[simp] theorem exec_larderScrubPass (t : Nat) (errs : Nat) : exec (.larderScrubPass t errs) s = execLarderScrubPass t errs s := rfl
@[simp] theorem exec_hostInterfaceReset (t : Nat) : exec (.hostInterfaceReset t) s = execHostInterfaceReset t s := rfl
@[simp] theorem exec_msixHoldoffEnd (t : Nat) (vec : Nat) : exec (.msixHoldoffEnd t vec) s = execMsixHoldoffEnd t vec s := rfl
@[simp] theorem exec_msixUnmask (t : Nat) (vec : Nat) : exec (.msixUnmask t vec) s = execMsixUnmask t vec s := rfl
@[simp] theorem exec_popRead (t : Nat) : exec (.popRead t) s = execPopRead t s := rfl
@[simp] theorem exec_ringEnable (t : Nat) (ring : Nat) (rx : Bool) (word : Word) : exec (.ringEnable t ring rx word) s = execRingEnable t ring rx word s := rfl
@[simp] theorem exec_txRingDoorbell (t : Nat) (ring tail : Nat) : exec (.txRingDoorbell t ring tail) s = execTxRingDoorbell t ring tail s := rfl
@[simp] theorem exec_rxRingDoorbell (t : Nat) (ring tail : Nat) : exec (.rxRingDoorbell t ring tail) s = execRxRingDoorbell t ring tail s := rfl
@[simp] theorem exec_descriptorFetchDone (t : Nat) (rx : Bool) (ring idx : Nat) (raw hdr : List Byte) : exec (.descriptorFetchDone t rx ring idx raw hdr) s = execDescriptorFetchDone t rx ring idx raw hdr s := rfl
@[simp] theorem exec_bufferFetchDone (t : Nat) (ring idx : Nat) (data : List Byte) : exec (.bufferFetchDone t ring idx data) s = execBufferFetchDone t ring idx data s := rfl
@[simp] theorem exec_fetchError (t : Nat) (rx : Bool) (ring idx : Nat) : exec (.fetchError t rx ring idx) s = execFetchError t rx ring idx s := rfl
@[simp] theorem exec_rawFrameSent (t : Nat) (ring idx ago : Nat) : exec (.rawFrameSent t ring idx ago) s = execRawFrameSent t ring idx ago s := rfl
@[simp] theorem exec_raGo (t : Nat) (slot : Nat) (word : Word) : exec (.raGo t slot word) s = execRaGo t slot word s := rfl
@[simp] theorem exec_raAck (t : Nat) (slot : Nat) : exec (.raAck t slot) s = execRaAck t slot s := rfl
@[simp] theorem exec_uartCharacter (t : Nat) (port : Nat) (data : Byte) (badParity badStop allLow : Bool) : exec (.uartCharacter t port data badParity badStop allLow) s = execUartCharacter t port data badParity badStop allLow s := rfl
@[simp] theorem exec_ictoTimeout (t : Nat) (port : Nat) : exec (.ictoTimeout t port) s = execIctoTimeout t port s := rfl
@[simp] theorem exec_silenceTimeout (t : Nat) (port : Nat) : exec (.silenceTimeout t port) s = execSilenceTimeout t port s := rfl
@[simp] theorem exec_ingestPortCommit (t : Nat) (port : Nat) (word : Word) : exec (.ingestPortCommit t port word) s = execIngestPortCommit t port word s := rfl
@[simp] theorem exec_sendBreak (t : Nat) (port bits : Nat) : exec (.sendBreak t port bits) s = execSendBreak t port bits s := rfl
@[simp] theorem exec_breakEnd (t : Nat) (port : Nat) : exec (.breakEnd t port) s = execBreakEnd t port s := rfl
@[simp] theorem exec_deHoldEnd (t : Nat) (port : Nat) : exec (.deHoldEnd t port) s = execDeHoldEnd t port s := rfl
@[simp] theorem exec_dispatch (t : Nat) (anvil port : Nat) : exec (.dispatch t anvil port) s = execDispatch t anvil port s := rfl
@[simp] theorem exec_goldenItem (t : Nat) (anvil : Nat) (pass : Bool) : exec (.goldenItem t anvil pass) s = execGoldenItem t anvil pass s := rfl
@[simp] theorem exec_goldFailedClear (t : Nat) (anvil : Nat) : exec (.goldFailedClear t anvil) s = execGoldFailedClear t anvil s := rfl
@[simp] theorem exec_admitItem (t : Nat) (src : Nat) : exec (.admitItem t src) s = execAdmitItem t src s := rfl
@[simp] theorem exec_roundExpiry (t : Nat) (group : Nat) : exec (.roundExpiry t group) s = execRoundExpiry t group s := rfl
@[simp] theorem exec_forceOut (t : Nat) (group member : Nat) (both : Bool) : exec (.forceOut t group member both) s = execForceOut t group member both s := rfl
@[simp] theorem exec_forceIn (t : Nat) (group member : Nat) (both : Bool) : exec (.forceIn t group member both) s = execForceIn t group member both s := rfl
@[simp] theorem exec_flCommit (t : Nat) (index : Nat) : exec (.flCommit t index) s = execFlCommit t index s := rfl
@[simp] theorem exec_rlCommit (t : Nat) (index : Nat) : exec (.rlCommit t index) s = execRlCommit t index s := rfl
@[simp] theorem exec_gcCommit (t : Nat) (index : Nat) : exec (.gcCommit t index) s = execGcCommit t index s := rfl
@[simp] theorem exec_sbCommit (t : Nat) (index : Nat) : exec (.sbCommit t index) s = execSbCommit t index s := rfl
@[simp] theorem exec_mgCommit (t : Nat) (index : Nat) : exec (.mgCommit t index) s = execMgCommit t index s := rfl
@[simp] theorem exec_flowShadowSwap (t : Nat) : exec (.flowShadowSwap t) s = execFlowShadowSwap t s := rfl
@[simp] theorem exec_ruleShadowSwap (t : Nat) : exec (.ruleShadowSwap t) s = execRuleShadowSwap t s := rfl
@[simp] theorem exec_concShadowSwap (t : Nat) : exec (.concShadowSwap t) s = execConcShadowSwap t s := rfl
@[simp] theorem exec_bellShadowSwap (t : Nat) : exec (.bellShadowSwap t) s = execBellShadowSwap t s := rfl
@[simp] theorem exec_ringShadowSwap (t : Nat) : exec (.ringShadowSwap t) s = execRingShadowSwap t s := rfl
@[simp] theorem exec_tableSwapDone (t : Nat) (page : Nat) : exec (.tableSwapDone t page) s = execTableSwapDone t page s := rfl
@[simp] theorem exec_quarRelease (t : Nat) (port both : Bool) (index : Nat) : exec (.quarRelease t port both index) s = execQuarRelease t port both index s := rfl
@[simp] theorem exec_quarEnter (t : Nat) (port both : Bool) (index : Nat) : exec (.quarEnter t port both index) s = execQuarEnter t port both index s := rfl
@[simp] theorem exec_release (t : Nat) (port : Nat) (more : List Nat) : exec (.release t port more) s = execRelease t port more s := rfl
@[simp] theorem exec_itemTransmitted (t : Nat) (port stamp : Nat) : exec (.itemTransmitted t port stamp) s = execItemTransmitted t port stamp s := rfl
@[simp] theorem exec_alignedReleaseTime (t : Nat) : exec (.alignedReleaseTime t) s = execAlignedReleaseTime t s := rfl
@[simp] theorem exec_newestHoldEnd (t : Nat) (port key : Nat) : exec (.newestHoldEnd t port key) s = execNewestHoldEnd t port key s := rfl
@[simp] theorem exec_deadlineExpiry (t : Nat) (handle : Nat) : exec (.deadlineExpiry t handle) s = execDeadlineExpiry t handle s := rfl
@[simp] theorem exec_classBoundExpiry (t : Nat) (queue handle : Nat) : exec (.classBoundExpiry t queue handle) s = execClassBoundExpiry t queue handle s := rfl
@[simp] theorem exec_statusBoundary (t : Nat) (port : Nat) : exec (.statusBoundary t port) s = execStatusBoundary t port s := rfl
@[simp] theorem exec_listenerPortCommit (t : Nat) (port : Nat) (word : Word) : exec (.listenerPortCommit t port word) s = execListenerPortCommit t port word s := rfl
@[simp] theorem exec_qflush (t : Nat) (port : Nat) : exec (.qflush t port) s = execQflush t port s := rfl
@[simp] theorem exec_qflushComplete (t : Nat) (port : Nat) : exec (.qflushComplete t port) s = execQflushComplete t port s := rfl
@[simp] theorem exec_qlimWrite (t : Nat) (queue : Nat) (word : Word) : exec (.qlimWrite t queue word) s = execQlimWrite t queue word s := rfl
@[simp] theorem exec_spillWriteDone (t : Nat) (handle : Nat) : exec (.spillWriteDone t handle) s = execSpillWriteDone t handle s := rfl
@[simp] theorem exec_spillFetchDone (t : Nat) (handle err addr : Nat) : exec (.spillFetchDone t handle err addr) s = execSpillFetchDone t handle err addr s := rfl
@[simp] theorem exec_journalWriteDone (t : Nat) (handle : Nat) : exec (.journalWriteDone t handle) s = execJournalWriteDone t handle s := rfl
@[simp] theorem exec_journalBlockClose (t : Nat) : exec (.journalBlockClose t) s = execJournalBlockClose t s := rfl
@[simp] theorem exec_journalFreeze (t : Nat) : exec (.journalFreeze t) s = execJournalFreeze t s := rfl
@[simp] theorem exec_freezePostEnd (t : Nat) (window : Nat) : exec (.freezePostEnd t window) s = execFreezePostEnd t window s := rfl
@[simp] theorem exec_unfreeze (t : Nat) (window : Nat) : exec (.unfreeze t window) s = execUnfreeze t window s := rfl
@[simp] theorem exec_msUpdate (t : Nat) : exec (.msUpdate t) s = execMsUpdate t s := rfl
@[simp] theorem exec_ppsInputEdge (t : Nat) (input : Nat) (rising short : Bool) : exec (.ppsInputEdge t input rising short) s = execPpsInputEdge t input rising short s := rfl
@[simp] theorem exec_ppsMiss (t : Nat) (input : Nat) : exec (.ppsMiss t input) s = execPpsMiss t input s := rfl
@[simp] theorem exec_smpGo (t : Nat) (domain : Nat) : exec (.smpGo t domain) s = execSmpGo t domain s := rfl
@[simp] theorem exec_domainMissTimeout (t : Nat) (domain : Nat) : exec (.domainMissTimeout t domain) s = execDomainMissTimeout t domain s := rfl
@[simp] theorem exec_dreset (t : Nat) (domain : Nat) : exec (.dreset t domain) s = execDreset t domain s := rfl
@[simp] theorem exec_setGo (t : Nat) : exec (.setGo t) s = execSetGo t s := rfl
@[simp] theorem exec_stepGo (t : Nat) : exec (.stepGo t) s = execStepGo t s := rfl
@[simp] theorem exec_timeCap (t : Nat) : exec (.timeCap t) s = execTimeCap t s := rfl
@[simp] theorem exec_leap (t : Nat) : exec (.leap t) s = execLeap t s := rfl
@[simp] theorem exec_ppsOutputPulse (t : Nat) (output target : Nat) : exec (.ppsOutputPulse t output target) s = execPpsOutputPulse t output target s := rfl
@[simp] theorem exec_timeSyncSend (t : Nat) : exec (.timeSyncSend t) s = execTimeSyncSend t s := rfl
@[simp] theorem exec_axisStateSend (t : Nat) (axis : Nat) : exec (.axisStateSend t axis) s = execAxisStateSend t axis s := rfl
@[simp] theorem exec_encoderCount (t : Nat) (encoder : Nat) (a b : Bool) : exec (.encoderCount t encoder a b) s = execEncoderCount t encoder a b s := rfl
@[simp] theorem exec_encoderIndex (t : Nat) (encoder : Nat) : exec (.encoderIndex t encoder) s = execEncoderIndex t encoder s := rfl
@[simp] theorem exec_axisStill (t : Nat) (axis : Nat) : exec (.axisStill t axis) s = execAxisStill t axis s := rfl
@[simp] theorem exec_axisEdges (t : Nat) : exec (.axisEdges t) s = execAxisEdges t s := rfl
@[simp] theorem exec_axisConfigCommit (t : Nat) (axis : Nat) (word : Word) : exec (.axisConfigCommit t axis word) s = execAxisConfigCommit t axis word s := rfl
@[simp] theorem exec_axisCap (t : Nat) : exec (.axisCap t) s = execAxisCap t s := rfl
@[simp] theorem exec_slotWrite (t : Nat) (slot : Nat) (word : Word) (race : Bool) : exec (.slotWrite t slot word race) s = execSlotWrite t slot word race s := rfl
@[simp] theorem exec_slotFire (t : Nat) (slot : Nat) (jump : Bool) : exec (.slotFire t slot jump) s = execSlotFire t slot jump s := rfl
@[simp] theorem exec_signalDetect (t : Nat) (lane : Nat) : exec (.signalDetect t lane) s = execSignalDetect t lane s := rfl
@[simp] theorem exec_blockLockTimeout (t : Nat) (port : Nat) : exec (.blockLockTimeout t port) s = execBlockLockTimeout t port s := rfl
@[simp] theorem exec_trainSend (t : Nat) (port bad : Nat) : exec (.trainSend t port bad) s = execTrainSend t port bad s := rfl
@[simp] theorem exec_trainFrame (t : Nat) (port : Nat) (crcGood : Bool) (major low minor build : Nat) (credits : List Nat) : exec (.trainFrame t port crcGood major low minor build credits) s = execTrainFrame t port crcGood major low minor build credits s := rfl
@[simp] theorem exec_helloSend (t : Nat) (port : Nat) : exec (.helloSend t port) s = execHelloSend t port s := rfl
@[simp] theorem exec_helloFrame (t : Nat) (port node : Nat) (hub : Bool) (ring side rtt : Nat) : exec (.helloFrame t port node hub ring side rtt) s = execHelloFrame t port node hub ring side rtt s := rfl
@[simp] theorem exec_lossOfLock (t : Nat) (lane : Nat) (signal : Bool) : exec (.lossOfLock t lane signal) s = execLossOfLock t lane signal s := rfl
@[simp] theorem exec_adminDown (t : Nat) (port : Nat) (on : Bool) : exec (.adminDown t port on) s = execAdminDown t port on s := rfl
@[simp] theorem exec_retrain (t : Nat) (port : Nat) : exec (.retrain t port) s = execRetrain t port s := rfl
@[simp] theorem exec_dataFrame (t : Nat) (port ft vc lseq fate : Nat) (body : List Byte) : exec (.dataFrame t port ft vc lseq fate body) s = execDataFrame t port ft vc lseq fate body s := rfl
@[simp] theorem exec_ackFrame (t : Nat) (port lseq : Nat) : exec (.ackFrame t port lseq) s = execAckFrame t port lseq s := rfl
@[simp] theorem exec_nakFrame (t : Nat) (port lseq : Nat) : exec (.nakFrame t port lseq) s = execNakFrame t port lseq s := rfl
@[simp] theorem exec_replayTimeout (t : Nat) (port : Nat) : exec (.replayTimeout t port) s = execReplayTimeout t port s := rfl
@[simp] theorem exec_creditFrame (t : Nat) (port cpl req item : Nat) : exec (.creditFrame t port cpl req item) s = execCreditFrame t port cpl req item s := rfl
@[simp] theorem exec_creditSend (t : Nat) (port : Nat) : exec (.creditSend t port) s = execCreditSend t port s := rfl
@[simp] theorem exec_probeSend (t : Nat) (port : Nat) : exec (.probeSend t port) s = execProbeSend t port s := rfl
@[simp] theorem exec_probeFrame (t : Nat) (port number : Nat) (reply : Bool) (t1 t2 t3 : Nat) : exec (.probeFrame t port number reply t1 t2 t3) s = execProbeFrame t port number reply t1 t2 t3 s := rfl
@[simp] theorem exec_packetReceive (t : Nat) (port vc resid : Nat) (foreign : Bool) : exec (.packetReceive t port vc resid foreign) s = execPacketReceive t port vc resid foreign s := rfl
@[simp] theorem exec_itemIn (t : Nat) : exec (.itemIn t) s = execItemIn t s := rfl
@[simp] theorem exec_iseqTimeout (t : Nat) : exec (.iseqTimeout t) s = execIseqTimeout t s := rfl
@[simp] theorem exec_linkDownSig (t : Nat) : exec (.linkDownSig t) s = execLinkDownSig t s := rfl
@[simp] theorem exec_linkUpSig (t : Nat) : exec (.linkUpSig t) s = execLinkUpSig t s := rfl
@[simp] theorem exec_leafReset (t : Nat) : exec (.leafReset t) s = execLeafReset t s := rfl
@[simp] theorem exec_interruptSig (t : Nat) : exec (.interruptSig t) s = execInterruptSig t s := rfl
@[simp] theorem exec_lineCountsSig (t : Nat) : exec (.lineCountsSig t) s = execLineCountsSig t s := rfl
@[simp] theorem exec_sigHoldTimeout (t : Nat) : exec (.sigHoldTimeout t) s = execSigHoldTimeout t s := rfl
@[simp] theorem exec_hubBeatSend (t : Nat) : exec (.hubBeatSend t) s = execHubBeatSend t s := rfl
@[simp] theorem exec_hubBeatRx (t : Nat) : exec (.hubBeatRx t) s = execHubBeatRx t s := rfl
@[simp] theorem exec_beatAckRx (t : Nat) : exec (.beatAckRx t) s = execBeatAckRx t s := rfl
@[simp] theorem exec_discoverSend (t : Nat) : exec (.discoverSend t) s = execDiscoverSend t s := rfl
@[simp] theorem exec_discoverReturn (t : Nat) : exec (.discoverReturn t) s = execDiscoverReturn t s := rfl
@[simp] theorem exec_discoverTimeout (t : Nat) : exec (.discoverTimeout t) s = execDiscoverTimeout t s := rfl
@[simp] theorem exec_topoGo (t : Nat) : exec (.topoGo t) s = execTopoGo t s := rfl
@[simp] theorem exec_rdReqRx (t : Nat) : exec (.rdReqRx t) s = execRdReqRx t s := rfl
@[simp] theorem exec_wrReqRx (t : Nat) : exec (.wrReqRx t) s = execWrReqRx t s := rfl
@[simp] theorem exec_cplRx (t : Nat) : exec (.cplRx t) s = execCplRx t s := rfl
@[simp] theorem exec_cplTimeout (t : Nat) : exec (.cplTimeout t) s = execCplTimeout t s := rfl
@[simp] theorem exec_portMapWrite (t : Nat) (port : Nat) (word : Word) : exec (.portMapWrite t port word) s = execPortMapWrite t port word s := rfl
@[simp] theorem exec_mbankSwitch (t : Nat) (group : Nat) : exec (.mbankSwitch t group) s = execMbankSwitch t group s := rfl
@[simp] theorem exec_beatSend (t : Nat) : exec (.beatSend t) s = execBeatSend t s := rfl
@[simp] theorem exec_beatRx (t : Nat) (role tstate : Nat) (join : Bool) (epoch health lpos : Nat) : exec (.beatRx t role tstate join epoch health lpos) s = execBeatRx t role tstate join epoch health lpos s := rfl
@[simp] theorem exec_pathTimeout (t : Nat) (path : Nat) : exec (.pathTimeout t path) s = execPathTimeout t path s := rfl
@[simp] theorem exec_roleDecision (t : Nat) : exec (.roleDecision t) s = execRoleDecision t s := rfl
@[simp] theorem exec_quorumCheck (t : Nat) : exec (.quorumCheck t) s = execQuorumCheck t s := rfl
@[simp] theorem exec_logFrame (t : Nat) (lane lseq : Nat) (good : Bool) (firstLpos : Nat) (recs : List LogRec) : exec (.logFrame t lane lseq good firstLpos recs) s = execLogFrame t lane lseq good firstLpos recs s := rfl
@[simp] theorem exec_lackFrame (t : Nat) (lpos : Nat) : exec (.lackFrame t lpos) s = execLackFrame t lpos s := rfl
@[simp] theorem exec_logTimeout (t : Nat) : exec (.logTimeout t) s = execLogTimeout t s := rfl
@[simp] theorem exec_fetchTimeout (t : Nat) : exec (.fetchTimeout t) s = execFetchTimeout t s := rfl
@[simp] theorem exec_fetchFrame (t : Nat) (leaf iseq lpos : Nat) : exec (.fetchFrame t leaf iseq lpos) s = execFetchFrame t leaf iseq lpos s := rfl
@[simp] theorem exec_bulkFrame (t : Nat) (lane lseq : Nat) (good : Bool) (parts : List BulkPart) : exec (.bulkFrame t lane lseq good parts) s = execBulkFrame t lane lseq good parts s := rfl
@[simp] theorem exec_drainTimeout (t : Nat) : exec (.drainTimeout t) s = execDrainTimeout t s := rfl
@[simp] theorem exec_localHoldExpiry (t : Nat) (port : Nat) : exec (.localHoldExpiry t port) s = execLocalHoldExpiry t port s := rfl
@[simp] theorem exec_timeXferSend (t : Nat) : exec (.timeXferSend t) s = execTimeXferSend t s := rfl
@[simp] theorem exec_timeXfer (t : Nat) (reply : Bool) (t1 t2 t3 dom : Nat) : exec (.timeXfer t reply t1 t2 t3 dom) s = execTimeXfer t reply t1 t2 t3 dom s := rfl
@[simp] theorem exec_healthFault (t : Nat) (bit : Nat) (on : Bool) : exec (.healthFault t bit on) s = execHealthFault t bit on s := rfl
@[simp] theorem exec_relinquish (t : Nat) (lpos : Nat) : exec (.relinquish t lpos) s = execRelinquish t lpos s := rfl
@[simp] theorem exec_takeover (t : Nat) : exec (.takeover t) s = execTakeover t s := rfl
@[simp] theorem exec_busHoldEnd (t : Nat) : exec (.busHoldEnd t) s = execBusHoldEnd t s := rfl
@[simp] theorem exec_seal (t : Nat) (others : Bool) : exec (.seal t others) s = execSeal t others s := rfl
@[simp] theorem exec_rejoin (t : Nat) (others : Bool) : exec (.rejoin t others) s = execRejoin t others s := rfl
@[simp] theorem exec_forceActive (t : Nat) (others : Bool) : exec (.forceActive t others) s = execForceActive t others s := rfl
@[simp] theorem exec_handover (t : Nat) (others : Bool) : exec (.handover t others) s = execHandover t others s := rfl
@[simp] theorem exec_handoverDrained (t : Nat) : exec (.handoverDrained t) s = execHandoverDrained t s := rfl
@[simp] theorem exec_canFrameRx (t : Nat) (controller ago cause : Nat) (record : List Byte) : exec (.canFrameRx t controller ago cause record) s = execCanFrameRx t controller ago cause record s := rfl
@[simp] theorem exec_canFrameTxDone (t : Nat) (controller : Nat) : exec (.canFrameTxDone t controller) s = execCanFrameTxDone t controller s := rfl
@[simp] theorem exec_canAttemptLost (t : Nat) (controller cause : Nat) : exec (.canAttemptLost t controller cause) s = execCanAttemptLost t controller cause s := rfl
@[simp] theorem exec_canSubmit (t : Nat) (controller entry : Nat) (word : Word) : exec (.canSubmit t controller entry word) s = execCanSubmit t controller entry word s := rfl
@[simp] theorem exec_canCancel (t : Nat) (controller entry : Nat) : exec (.canCancel t controller entry) s = execCanCancel t controller entry s := rfl
@[simp] theorem exec_canAck (t : Nat) (controller entry : Nat) : exec (.canAck t controller entry) s = execCanAck t controller entry s := rfl
@[simp] theorem exec_canConfigCommit (t : Nat) (controller : Nat) (word : Word) : exec (.canConfigCommit t controller word) s = execCanConfigCommit t controller word s := rfl
@[simp] theorem exec_canIntegration (t : Nat) (controller : Nat) : exec (.canIntegration t controller) s = execCanIntegration t controller s := rfl
@[simp] theorem exec_canRecover (t : Nat) (controller : Nat) : exec (.canRecover t controller) s = execCanRecover t controller s := rfl
@[simp] theorem exec_busOffRecovery (t : Nat) (controller : Nat) : exec (.busOffRecovery t controller) s = execBusOffRecovery t controller s := rfl
@[simp] theorem exec_vnEnable (t : Nat) (controller node : Nat) (word : Word) : exec (.vnEnable t controller node word) s = execVnEnable t controller node word s := rfl
@[simp] theorem exec_addrClaimTimeout (t : Nat) (controller node : Nat) : exec (.addrClaimTimeout t controller node) s = execAddrClaimTimeout t controller node s := rfl
@[simp] theorem exec_fpTimeout (t : Nat) : exec (.fpTimeout t) s = execFpTimeout t s := rfl
@[simp] theorem exec_tpTimeout (t : Nat) : exec (.tpTimeout t) s = execTpTimeout t s := rfl
@[simp] theorem exec_bamGap (t : Nat) (controller : Nat) : exec (.bamGap t controller) s = execBamGap t controller s := rfl
@[simp] theorem exec_canSleepEntry (t : Nat) (controller : Nat) : exec (.canSleepEntry t controller) s = execCanSleepEntry t controller s := rfl
@[simp] theorem exec_canWake (t : Nat) (controller low ago : Nat) (record : List Byte) : exec (.canWake t controller low ago record) s = execCanWake t controller low ago record s := rfl
@[simp] theorem exec_ethFrameRx (t : Nat) (port ago : Nat) (fcsGood : Bool) (frame : List Byte) : exec (.ethFrameRx t port ago fcsGood frame) s = execEthFrameRx t port ago fcsGood frame s := rfl
@[simp] theorem exec_ethLinkUp (t : Nat) (port speed : Nat) : exec (.ethLinkUp t port speed) s = execEthLinkUp t port speed s := rfl
@[simp] theorem exec_ethLinkDown (t : Nat) (port : Nat) : exec (.ethLinkDown t port) s = execEthLinkDown t port s := rfl
@[simp] theorem exec_groupJoin (t : Nat) (port : Nat) (groups : Word) : exec (.groupJoin t port groups) s = execGroupJoin t port groups s := rfl
@[simp] theorem exec_tongGo (t : Nat) (engine : Nat) (lines : BitVec 64) : exec (.tongGo t engine lines) s = execTongGo t engine lines s := rfl
@[simp] theorem exec_tongAwait (t : Nat) (engine : Nat) (lines : BitVec 64) : exec (.tongAwait t engine lines) s = execTongAwait t engine lines s := rfl
@[simp] theorem exec_tongAwaitDone (t : Nat) (engine : Nat) (lines : BitVec 64) (ago : Nat) : exec (.tongAwaitDone t engine lines ago) s = execTongAwaitDone t engine lines ago s := rfl
@[simp] theorem exec_tongPins (t : Nat) (engine : Nat) : exec (.tongPins t engine) s = execTongPins t engine s := rfl
@[simp] theorem exec_tongLoad (t : Nat) (engine : Nat) : exec (.tongLoad t engine) s = execTongLoad t engine s := rfl
@[simp] theorem exec_tongAlu (t : Nat) (engine : Nat) : exec (.tongAlu t engine) s = execTongAlu t engine s := rfl
@[simp] theorem exec_tongTimer (t : Nat) (engine : Nat) : exec (.tongTimer t engine) s = execTongTimer t engine s := rfl
@[simp] theorem exec_tongShift (t : Nat) (engine : Nat) (lines : BitVec 64) : exec (.tongShift t engine lines) s = execTongShift t engine lines s := rfl
@[simp] theorem exec_tongFetch (t : Nat) (engine : Nat) : exec (.tongFetch t engine) s = execTongFetch t engine s := rfl
@[simp] theorem exec_tongStore (t : Nat) (engine : Nat) : exec (.tongStore t engine) s = execTongStore t engine s := rfl
@[simp] theorem exec_stallEnd (t : Nat) (engine : Nat) : exec (.stallEnd t engine) s = execStallEnd t engine s := rfl
@[simp] theorem exec_tongLut (t : Nat) (engine : Nat) (lines : BitVec 64) : exec (.tongLut t engine lines) s = execTongLut t engine lines s := rfl
@[simp] theorem exec_tongFlag (t : Nat) (engine : Nat) : exec (.tongFlag t engine) s = execTongFlag t engine s := rfl
@[simp] theorem exec_engineEnable (t : Nat) (engine : Nat) : exec (.engineEnable t engine) s = execEngineEnable t engine s := rfl
@[simp] theorem exec_engineDisable (t : Nat) (engine : Nat) : exec (.engineDisable t engine) s = execEngineDisable t engine s := rfl
@[simp] theorem exec_grpEnSet (t : Nat) (mask : BitVec 16) : exec (.grpEnSet t mask) s = execGrpEnSet t mask s := rfl
@[simp] theorem exec_grpEnClr (t : Nat) (mask : BitVec 16) : exec (.grpEnClr t mask) s = execGrpEnClr t mask s := rfl
@[simp] theorem exec_grpClkrst (t : Nat) (mask : BitVec 16) : exec (.grpClkrst t mask) s = execGrpClkrst t mask s := rfl
@[simp] theorem exec_tongShadowSwap (t : Nat) : exec (.tongShadowSwap t) s = execTongShadowSwap t s := rfl
@[simp] theorem exec_engineBankMove (t : Nat) (engine : Nat) : exec (.engineBankMove t engine) s = execEngineBankMove t engine s := rfl
@[simp] theorem exec_swapTimeout (t : Nat) : exec (.swapTimeout t) s = execSwapTimeout t s := rfl
@[simp] theorem exec_tongForce (t : Nat) : exec (.tongForce t) s = execTongForce t s := rfl
@[simp] theorem exec_rxFlush (t : Nat) (port : Nat) : exec (.rxFlush t port) s = execRxFlush t port s := rfl
@[simp] theorem exec_txFlush (t : Nat) (port sent stamp : Nat) : exec (.txFlush t port sent stamp) s = execTxFlush t port sent stamp s := rfl
@[simp] theorem exec_channelOos (t : Nat) (channel : Nat) : exec (.channelOos t channel) s = execChannelOos t channel s := rfl
@[simp] theorem exec_ueLimitExceeded (t : Nat) (channel : Nat) : exec (.ueLimitExceeded t channel) s = execUeLimitExceeded t channel s := rfl
@[simp] theorem exec_cellarScrub (t : Nat) (addr ce ceAddr ue ueAddr : Nat) (last : Bool) : exec (.cellarScrub t addr ce ceAddr ue ueAddr last) s = execCellarScrub t addr ce ceAddr ue ueAddr last s := rfl
@[simp] theorem exec_bar2Write (t : Nat) (offset : Nat) (data : List Byte) : exec (.bar2Write t offset data) s = execBar2Write t offset data s := rfl
@[simp] theorem exec_loadClear (t : Nat) : exec (.loadClear t) s = execLoadClear t s := rfl
@[simp] theorem exec_derive (t : Nat) : exec (.derive t) s = execDerive t s := rfl
@[simp] theorem exec_revoke (t : Nat) : exec (.revoke t) s = execRevoke t s := rfl
@[simp] theorem exec_erase (t : Nat) : exec (.erase t) s = execErase t s := rfl
@[simp] theorem exec_newRoot (t : Nat) : exec (.newRoot t) s = execNewRoot t s := rfl
@[simp] theorem exec_applyUpdate (t : Nat) : exec (.applyUpdate t) s = execApplyUpdate t s := rfl
@[simp] theorem exec_attest (t : Nat) : exec (.attest t) s = execAttest t s := rfl
@[simp] theorem exec_verifyImage (t : Nat) (advance : Bool) : exec (.verifyImage t advance) s = execVerifyImage t advance s := rfl
@[simp] theorem exec_commandDone (t : Nat) : exec (.commandDone t) s = execCommandDone t s := rfl
@[simp] theorem exec_tamperAlarm (t : Nat) (source : Nat) : exec (.tamperAlarm t source) s = execTamperAlarm t source s := rfl
@[simp] theorem exec_tampArm (t : Nat) (mask : Nat) : exec (.tampArm t mask) s = execTampArm t mask s := rfl
@[simp] theorem exec_tampClr (t : Nat) : exec (.tampClr t) s = execTampClr t s := rfl
@[simp] theorem exec_clearLock (t : Nat) : exec (.clearLock t) s = execClearLock t s := rfl
@[simp] theorem exec_snap (t : Nat) (page : Nat) (clear : Bool) : exec (.snap t page clear) s = execSnap t page clear s := rfl
@[simp] theorem exec_clear (t : Nat) (page : Nat) : exec (.clear t page) s = execClear t page s := rfl
@[simp] theorem exec_psnap (t : Nat) (port : Nat) (all clear : Bool) : exec (.psnap t port all clear) s = execPsnap t port all clear s := rfl
@[simp] theorem exec_pclear (t : Nat) (port : Nat) (all : Bool) : exec (.pclear t port all) s = execPclear t port all s := rfl
@[simp] theorem exec_fsnap (t : Nat) (rule : Bool) (index : Nat) (all clear : Bool) : exec (.fsnap t rule index all clear) s = execFsnap t rule index all clear s := rfl
@[simp] theorem exec_fclear (t : Nat) (rule : Bool) (index : Nat) (all : Bool) : exec (.fclear t rule index all) s = execFclear t rule index all s := rfl
@[simp] theorem exec_gsnap (t : Nat) (group : Nat) (all clear : Bool) : exec (.gsnap t group all clear) s = execGsnap t group all clear s := rfl
@[simp] theorem exec_gclear (t : Nat) (group : Nat) (all : Bool) : exec (.gclear t group all) s = execGclear t group all s := rfl
@[simp] theorem exec_qsnap (t : Nat) (queue : Nat) (all clear : Bool) : exec (.qsnap t queue all clear) s = execQsnap t queue all clear s := rfl
@[simp] theorem exec_qclear (t : Nat) (queue : Nat) (all : Bool) : exec (.qclear t queue all) s = execQclear t queue all s := rfl
@[simp] theorem exec_dispositionFsnap (t : Nat) (flow : Nat) (all clear : Bool) : exec (.dispositionFsnap t flow all clear) s = execDispositionFsnap t flow all clear s := rfl
@[simp] theorem exec_dispositionFclear (t : Nat) (flow : Nat) (all : Bool) : exec (.dispositionFclear t flow all) s = execDispositionFclear t flow all s := rfl
@[simp] theorem exec_fifoFsnap (t : Nat) (port : Nat) (clear : Bool) : exec (.fifoFsnap t port clear) s = execFifoFsnap t port clear s := rfl
@[simp] theorem exec_fifoFclear (t : Nat) (port : Nat) : exec (.fifoFclear t port) s = execFifoFclear t port s := rfl
@[simp] theorem exec_frameFsnap (t : Nat) (port : Nat) (all clear : Bool) : exec (.frameFsnap t port all clear) s = execFrameFsnap t port all clear s := rfl
@[simp] theorem exec_frameFclear (t : Nat) (port : Nat) (all : Bool) : exec (.frameFclear t port all) s = execFrameFclear t port all s := rfl
@[simp] theorem exec_uartStartEdge (t : Nat) (port : Nat) : exec (.uartStartEdge t port) s = execUartStartEdge t port s := rfl
@[simp] theorem exec_lineGoesHigh (t : Nat) (port : Nat) : exec (.lineGoesHigh t port) s = execLineGoesHigh t port s := rfl
@[simp] theorem exec_blockLock (t : Nat) (port : Nat) : exec (.blockLock t port) s = execBlockLock t port s := rfl
@[simp] theorem exec_checkerLock (t : Nat) (slot : Nat) : exec (.checkerLock t slot) s = execCheckerLock t slot s := rfl
@[simp] theorem exec_checkerLockLost (t : Nat) (slot checked errs : Nat) : exec (.checkerLockLost t slot checked errs) s = execCheckerLockLost t slot checked errs s := rfl
@[simp] theorem exec_supplyWarning (t : Nat) (rail : Nat) (low : Bool) : exec (.supplyWarning t rail low) s = execSupplyWarning t rail low s := rfl
@[simp] theorem exec_bankOutOfRange (t : Nat) (bank : Nat) : exec (.bankOutOfRange t bank) s = execBankOutOfRange t bank s := rfl
@[simp] theorem exec_canWakeInSleep (t : Nat) (controller : Nat) : exec (.canWakeInSleep t controller) s = execCanWakeInSleep t controller s := rfl
@[simp] theorem exec_jtagInstruction (t : Nat) (instr : Nat) : exec (.jtagInstruction t instr) s = execJtagInstruction t instr s := rfl
@[simp] theorem exec_deltaAtH (t : Nat) : exec (.deltaAtH t) s = execDeltaAtH t s := rfl
@[simp] theorem exec_attemptStart (t : Nat) (controller : Nat) : exec (.attemptStart t controller) s = execAttemptStart t controller s := rfl
@[simp] theorem exec_alignedFetch (t : Nat) (port : Nat) : exec (.alignedFetch t port) s = execAlignedFetch t port s := rfl

end Sys2Proof.Machine
end

