-- ==== Sys2Proof/Laws/State.lean ====
section
/-! SUPPORT. Laws/State.lean: one lemma per field for each update of the register file, for the clock, and for drawing a
free value: what the update leaves alone. -/

namespace Sys2Proof.Machine

variable (s : State)

@[simp] theorem State.wr_pending (b : Nat) (f : Fld) (v : Nat) : (s.wr b f v).pending = s.pending := rfl
@[simp] theorem State.wr_held (b : Nat) (f : Fld) (v : Nat) : (s.wr b f v).held = s.held := rfl
@[simp] theorem State.wr_swapHeld (b : Nat) (f : Fld) (v : Nat) : (s.wr b f v).swapHeld = s.swapHeld := rfl
@[simp] theorem State.wr_listPend (b : Nat) (f : Fld) (v : Nat) : (s.wr b f v).listPend = s.listPend := rfl
@[simp] theorem State.wr_mlistPend (b : Nat) (f : Fld) (v : Nat) : (s.wr b f v).mlistPend = s.mlistPend := rfl
@[simp] theorem State.wr_time (b : Nat) (f : Fld) (v : Nat) : (s.wr b f v).time = s.time := rfl
@[simp] theorem State.wr_axis (b : Nat) (f : Fld) (v : Nat) : (s.wr b f v).axis = s.axis := rfl
@[simp] theorem State.wr_tong (b : Nat) (f : Fld) (v : Nat) : (s.wr b f v).tong = s.tong := rfl
@[simp] theorem State.wr_host (b : Nat) (f : Fld) (v : Nat) : (s.wr b f v).host = s.host := rfl
@[simp] theorem State.wr_rx (b : Nat) (f : Fld) (v : Nat) : (s.wr b f v).rx = s.rx := rfl
@[simp] theorem State.wr_candNo (b : Nat) (f : Fld) (v : Nat) : (s.wr b f v).candNo = s.candNo := rfl
@[simp] theorem State.wr_anvils (b : Nat) (f : Fld) (v : Nat) : (s.wr b f v).anvils = s.anvils := rfl
@[simp] theorem State.wr_tblGen (b : Nat) (f : Fld) (v : Nat) : (s.wr b f v).tblGen = s.tblGen := rfl
@[simp] theorem State.wr_conc (b : Nat) (f : Fld) (v : Nat) : (s.wr b f v).conc = s.conc := rfl
@[simp] theorem State.wr_del (b : Nat) (f : Fld) (v : Nat) : (s.wr b f v).del = s.del := rfl
@[simp] theorem State.wr_can (b : Nat) (f : Fld) (v : Nat) : (s.wr b f v).can = s.can := rfl
@[simp] theorem State.wr_eth (b : Nat) (f : Fld) (v : Nat) : (s.wr b f v).eth = s.eth := rfl
@[simp] theorem State.wr_blkSeq (b : Nat) (f : Fld) (v : Nat) : (s.wr b f v).blkSeq = s.blkSeq := rfl
@[simp] theorem State.wr_ring (b : Nat) (f : Fld) (v : Nat) : (s.wr b f v).ring = s.ring := rfl
@[simp] theorem State.wr_sbox (b : Nat) (f : Fld) (v : Nat) : (s.wr b f v).sbox = s.sbox := rfl
@[simp] theorem State.wr_cel (b : Nat) (f : Fld) (v : Nat) : (s.wr b f v).cel = s.cel := rfl
@[simp] theorem State.wr_cells (b : Nat) (f : Fld) (v : Nat) : (s.wr b f v).cells = s.cells := rfl
@[simp] theorem State.wr_jrnl (b : Nat) (f : Fld) (v : Nat) : (s.wr b f v).jrnl = s.jrnl := rfl
@[simp] theorem State.wr_twin (b : Nat) (f : Fld) (v : Nat) : (s.wr b f v).twin = s.twin := rfl
@[simp] theorem State.wr_sys (b : Nat) (f : Fld) (v : Nat) : (s.wr b f v).sys = s.sys := rfl
@[simp] theorem State.wr_attic (b : Nat) (f : Fld) (v : Nat) : (s.wr b f v).attic = s.attic := rfl
@[simp] theorem State.wr_out (b : Nat) (f : Fld) (v : Nat) : (s.wr b f v).out = s.out := rfl
@[simp] theorem State.wr_free (b : Nat) (f : Fld) (v : Nat) : (s.wr b f v).free = s.free := rfl

@[simp] theorem State.wrB_pending (b : Nat) (f : Fld) (v : Bool) : (s.wrB b f v).pending = s.pending := rfl
@[simp] theorem State.wrB_held (b : Nat) (f : Fld) (v : Bool) : (s.wrB b f v).held = s.held := rfl
@[simp] theorem State.wrB_swapHeld (b : Nat) (f : Fld) (v : Bool) : (s.wrB b f v).swapHeld = s.swapHeld := rfl
@[simp] theorem State.wrB_listPend (b : Nat) (f : Fld) (v : Bool) : (s.wrB b f v).listPend = s.listPend := rfl
@[simp] theorem State.wrB_mlistPend (b : Nat) (f : Fld) (v : Bool) : (s.wrB b f v).mlistPend = s.mlistPend := rfl
@[simp] theorem State.wrB_time (b : Nat) (f : Fld) (v : Bool) : (s.wrB b f v).time = s.time := rfl
@[simp] theorem State.wrB_axis (b : Nat) (f : Fld) (v : Bool) : (s.wrB b f v).axis = s.axis := rfl
@[simp] theorem State.wrB_tong (b : Nat) (f : Fld) (v : Bool) : (s.wrB b f v).tong = s.tong := rfl
@[simp] theorem State.wrB_host (b : Nat) (f : Fld) (v : Bool) : (s.wrB b f v).host = s.host := rfl
@[simp] theorem State.wrB_rx (b : Nat) (f : Fld) (v : Bool) : (s.wrB b f v).rx = s.rx := rfl
@[simp] theorem State.wrB_candNo (b : Nat) (f : Fld) (v : Bool) : (s.wrB b f v).candNo = s.candNo := rfl
@[simp] theorem State.wrB_anvils (b : Nat) (f : Fld) (v : Bool) : (s.wrB b f v).anvils = s.anvils := rfl
@[simp] theorem State.wrB_tblGen (b : Nat) (f : Fld) (v : Bool) : (s.wrB b f v).tblGen = s.tblGen := rfl
@[simp] theorem State.wrB_conc (b : Nat) (f : Fld) (v : Bool) : (s.wrB b f v).conc = s.conc := rfl
@[simp] theorem State.wrB_del (b : Nat) (f : Fld) (v : Bool) : (s.wrB b f v).del = s.del := rfl
@[simp] theorem State.wrB_can (b : Nat) (f : Fld) (v : Bool) : (s.wrB b f v).can = s.can := rfl
@[simp] theorem State.wrB_eth (b : Nat) (f : Fld) (v : Bool) : (s.wrB b f v).eth = s.eth := rfl
@[simp] theorem State.wrB_blkSeq (b : Nat) (f : Fld) (v : Bool) : (s.wrB b f v).blkSeq = s.blkSeq := rfl
@[simp] theorem State.wrB_ring (b : Nat) (f : Fld) (v : Bool) : (s.wrB b f v).ring = s.ring := rfl
@[simp] theorem State.wrB_sbox (b : Nat) (f : Fld) (v : Bool) : (s.wrB b f v).sbox = s.sbox := rfl
@[simp] theorem State.wrB_cel (b : Nat) (f : Fld) (v : Bool) : (s.wrB b f v).cel = s.cel := rfl
@[simp] theorem State.wrB_cells (b : Nat) (f : Fld) (v : Bool) : (s.wrB b f v).cells = s.cells := rfl
@[simp] theorem State.wrB_jrnl (b : Nat) (f : Fld) (v : Bool) : (s.wrB b f v).jrnl = s.jrnl := rfl
@[simp] theorem State.wrB_twin (b : Nat) (f : Fld) (v : Bool) : (s.wrB b f v).twin = s.twin := rfl
@[simp] theorem State.wrB_sys (b : Nat) (f : Fld) (v : Bool) : (s.wrB b f v).sys = s.sys := rfl
@[simp] theorem State.wrB_attic (b : Nat) (f : Fld) (v : Bool) : (s.wrB b f v).attic = s.attic := rfl
@[simp] theorem State.wrB_out (b : Nat) (f : Fld) (v : Bool) : (s.wrB b f v).out = s.out := rfl
@[simp] theorem State.wrB_free (b : Nat) (f : Fld) (v : Bool) : (s.wrB b f v).free = s.free := rfl

@[simp] theorem State.wrI_pending (b : Nat) (f : Fld) (v : Int) : (s.wrI b f v).pending = s.pending := rfl
@[simp] theorem State.wrI_held (b : Nat) (f : Fld) (v : Int) : (s.wrI b f v).held = s.held := rfl
@[simp] theorem State.wrI_swapHeld (b : Nat) (f : Fld) (v : Int) : (s.wrI b f v).swapHeld = s.swapHeld := rfl
@[simp] theorem State.wrI_listPend (b : Nat) (f : Fld) (v : Int) : (s.wrI b f v).listPend = s.listPend := rfl
@[simp] theorem State.wrI_mlistPend (b : Nat) (f : Fld) (v : Int) : (s.wrI b f v).mlistPend = s.mlistPend := rfl
@[simp] theorem State.wrI_time (b : Nat) (f : Fld) (v : Int) : (s.wrI b f v).time = s.time := rfl
@[simp] theorem State.wrI_axis (b : Nat) (f : Fld) (v : Int) : (s.wrI b f v).axis = s.axis := rfl
@[simp] theorem State.wrI_tong (b : Nat) (f : Fld) (v : Int) : (s.wrI b f v).tong = s.tong := rfl
@[simp] theorem State.wrI_host (b : Nat) (f : Fld) (v : Int) : (s.wrI b f v).host = s.host := rfl
@[simp] theorem State.wrI_rx (b : Nat) (f : Fld) (v : Int) : (s.wrI b f v).rx = s.rx := rfl
@[simp] theorem State.wrI_candNo (b : Nat) (f : Fld) (v : Int) : (s.wrI b f v).candNo = s.candNo := rfl
@[simp] theorem State.wrI_anvils (b : Nat) (f : Fld) (v : Int) : (s.wrI b f v).anvils = s.anvils := rfl
@[simp] theorem State.wrI_tblGen (b : Nat) (f : Fld) (v : Int) : (s.wrI b f v).tblGen = s.tblGen := rfl
@[simp] theorem State.wrI_conc (b : Nat) (f : Fld) (v : Int) : (s.wrI b f v).conc = s.conc := rfl
@[simp] theorem State.wrI_del (b : Nat) (f : Fld) (v : Int) : (s.wrI b f v).del = s.del := rfl
@[simp] theorem State.wrI_can (b : Nat) (f : Fld) (v : Int) : (s.wrI b f v).can = s.can := rfl
@[simp] theorem State.wrI_eth (b : Nat) (f : Fld) (v : Int) : (s.wrI b f v).eth = s.eth := rfl
@[simp] theorem State.wrI_blkSeq (b : Nat) (f : Fld) (v : Int) : (s.wrI b f v).blkSeq = s.blkSeq := rfl
@[simp] theorem State.wrI_ring (b : Nat) (f : Fld) (v : Int) : (s.wrI b f v).ring = s.ring := rfl
@[simp] theorem State.wrI_sbox (b : Nat) (f : Fld) (v : Int) : (s.wrI b f v).sbox = s.sbox := rfl
@[simp] theorem State.wrI_cel (b : Nat) (f : Fld) (v : Int) : (s.wrI b f v).cel = s.cel := rfl
@[simp] theorem State.wrI_cells (b : Nat) (f : Fld) (v : Int) : (s.wrI b f v).cells = s.cells := rfl
@[simp] theorem State.wrI_jrnl (b : Nat) (f : Fld) (v : Int) : (s.wrI b f v).jrnl = s.jrnl := rfl
@[simp] theorem State.wrI_twin (b : Nat) (f : Fld) (v : Int) : (s.wrI b f v).twin = s.twin := rfl
@[simp] theorem State.wrI_sys (b : Nat) (f : Fld) (v : Int) : (s.wrI b f v).sys = s.sys := rfl
@[simp] theorem State.wrI_attic (b : Nat) (f : Fld) (v : Int) : (s.wrI b f v).attic = s.attic := rfl
@[simp] theorem State.wrI_out (b : Nat) (f : Fld) (v : Int) : (s.wrI b f v).out = s.out := rfl
@[simp] theorem State.wrI_free (b : Nat) (f : Fld) (v : Int) : (s.wrI b f v).free = s.free := rfl

@[simp] theorem State.add_pending (b : Nat) (f : Fld) (n : Nat) : (s.add b f n).pending = s.pending := rfl
@[simp] theorem State.add_held (b : Nat) (f : Fld) (n : Nat) : (s.add b f n).held = s.held := rfl
@[simp] theorem State.add_swapHeld (b : Nat) (f : Fld) (n : Nat) : (s.add b f n).swapHeld = s.swapHeld := rfl
@[simp] theorem State.add_listPend (b : Nat) (f : Fld) (n : Nat) : (s.add b f n).listPend = s.listPend := rfl
@[simp] theorem State.add_mlistPend (b : Nat) (f : Fld) (n : Nat) : (s.add b f n).mlistPend = s.mlistPend := rfl
@[simp] theorem State.add_time (b : Nat) (f : Fld) (n : Nat) : (s.add b f n).time = s.time := rfl
@[simp] theorem State.add_axis (b : Nat) (f : Fld) (n : Nat) : (s.add b f n).axis = s.axis := rfl
@[simp] theorem State.add_tong (b : Nat) (f : Fld) (n : Nat) : (s.add b f n).tong = s.tong := rfl
@[simp] theorem State.add_host (b : Nat) (f : Fld) (n : Nat) : (s.add b f n).host = s.host := rfl
@[simp] theorem State.add_rx (b : Nat) (f : Fld) (n : Nat) : (s.add b f n).rx = s.rx := rfl
@[simp] theorem State.add_candNo (b : Nat) (f : Fld) (n : Nat) : (s.add b f n).candNo = s.candNo := rfl
@[simp] theorem State.add_anvils (b : Nat) (f : Fld) (n : Nat) : (s.add b f n).anvils = s.anvils := rfl
@[simp] theorem State.add_tblGen (b : Nat) (f : Fld) (n : Nat) : (s.add b f n).tblGen = s.tblGen := rfl
@[simp] theorem State.add_conc (b : Nat) (f : Fld) (n : Nat) : (s.add b f n).conc = s.conc := rfl
@[simp] theorem State.add_del (b : Nat) (f : Fld) (n : Nat) : (s.add b f n).del = s.del := rfl
@[simp] theorem State.add_can (b : Nat) (f : Fld) (n : Nat) : (s.add b f n).can = s.can := rfl
@[simp] theorem State.add_eth (b : Nat) (f : Fld) (n : Nat) : (s.add b f n).eth = s.eth := rfl
@[simp] theorem State.add_blkSeq (b : Nat) (f : Fld) (n : Nat) : (s.add b f n).blkSeq = s.blkSeq := rfl
@[simp] theorem State.add_ring (b : Nat) (f : Fld) (n : Nat) : (s.add b f n).ring = s.ring := rfl
@[simp] theorem State.add_sbox (b : Nat) (f : Fld) (n : Nat) : (s.add b f n).sbox = s.sbox := rfl
@[simp] theorem State.add_cel (b : Nat) (f : Fld) (n : Nat) : (s.add b f n).cel = s.cel := rfl
@[simp] theorem State.add_cells (b : Nat) (f : Fld) (n : Nat) : (s.add b f n).cells = s.cells := rfl
@[simp] theorem State.add_jrnl (b : Nat) (f : Fld) (n : Nat) : (s.add b f n).jrnl = s.jrnl := rfl
@[simp] theorem State.add_twin (b : Nat) (f : Fld) (n : Nat) : (s.add b f n).twin = s.twin := rfl
@[simp] theorem State.add_sys (b : Nat) (f : Fld) (n : Nat) : (s.add b f n).sys = s.sys := rfl
@[simp] theorem State.add_attic (b : Nat) (f : Fld) (n : Nat) : (s.add b f n).attic = s.attic := rfl
@[simp] theorem State.add_out (b : Nat) (f : Fld) (n : Nat) : (s.add b f n).out = s.out := rfl
@[simp] theorem State.add_free (b : Nat) (f : Fld) (n : Nat) : (s.add b f n).free = s.free := rfl

@[simp] theorem State.inc_pending (b : Nat) (f : Fld) : (s.inc b f).pending = s.pending := rfl
@[simp] theorem State.inc_held (b : Nat) (f : Fld) : (s.inc b f).held = s.held := rfl
@[simp] theorem State.inc_swapHeld (b : Nat) (f : Fld) : (s.inc b f).swapHeld = s.swapHeld := rfl
@[simp] theorem State.inc_listPend (b : Nat) (f : Fld) : (s.inc b f).listPend = s.listPend := rfl
@[simp] theorem State.inc_mlistPend (b : Nat) (f : Fld) : (s.inc b f).mlistPend = s.mlistPend := rfl
@[simp] theorem State.inc_time (b : Nat) (f : Fld) : (s.inc b f).time = s.time := rfl
@[simp] theorem State.inc_axis (b : Nat) (f : Fld) : (s.inc b f).axis = s.axis := rfl
@[simp] theorem State.inc_tong (b : Nat) (f : Fld) : (s.inc b f).tong = s.tong := rfl
@[simp] theorem State.inc_host (b : Nat) (f : Fld) : (s.inc b f).host = s.host := rfl
@[simp] theorem State.inc_rx (b : Nat) (f : Fld) : (s.inc b f).rx = s.rx := rfl
@[simp] theorem State.inc_candNo (b : Nat) (f : Fld) : (s.inc b f).candNo = s.candNo := rfl
@[simp] theorem State.inc_anvils (b : Nat) (f : Fld) : (s.inc b f).anvils = s.anvils := rfl
@[simp] theorem State.inc_tblGen (b : Nat) (f : Fld) : (s.inc b f).tblGen = s.tblGen := rfl
@[simp] theorem State.inc_conc (b : Nat) (f : Fld) : (s.inc b f).conc = s.conc := rfl
@[simp] theorem State.inc_del (b : Nat) (f : Fld) : (s.inc b f).del = s.del := rfl
@[simp] theorem State.inc_can (b : Nat) (f : Fld) : (s.inc b f).can = s.can := rfl
@[simp] theorem State.inc_eth (b : Nat) (f : Fld) : (s.inc b f).eth = s.eth := rfl
@[simp] theorem State.inc_blkSeq (b : Nat) (f : Fld) : (s.inc b f).blkSeq = s.blkSeq := rfl
@[simp] theorem State.inc_ring (b : Nat) (f : Fld) : (s.inc b f).ring = s.ring := rfl
@[simp] theorem State.inc_sbox (b : Nat) (f : Fld) : (s.inc b f).sbox = s.sbox := rfl
@[simp] theorem State.inc_cel (b : Nat) (f : Fld) : (s.inc b f).cel = s.cel := rfl
@[simp] theorem State.inc_cells (b : Nat) (f : Fld) : (s.inc b f).cells = s.cells := rfl
@[simp] theorem State.inc_jrnl (b : Nat) (f : Fld) : (s.inc b f).jrnl = s.jrnl := rfl
@[simp] theorem State.inc_twin (b : Nat) (f : Fld) : (s.inc b f).twin = s.twin := rfl
@[simp] theorem State.inc_sys (b : Nat) (f : Fld) : (s.inc b f).sys = s.sys := rfl
@[simp] theorem State.inc_attic (b : Nat) (f : Fld) : (s.inc b f).attic = s.attic := rfl
@[simp] theorem State.inc_out (b : Nat) (f : Fld) : (s.inc b f).out = s.out := rfl
@[simp] theorem State.inc_free (b : Nat) (f : Fld) : (s.inc b f).free = s.free := rfl

@[simp] theorem State.incSat_pending (b : Nat) (f : Fld) : (s.incSat b f).pending = s.pending := rfl
@[simp] theorem State.incSat_held (b : Nat) (f : Fld) : (s.incSat b f).held = s.held := rfl
@[simp] theorem State.incSat_swapHeld (b : Nat) (f : Fld) : (s.incSat b f).swapHeld = s.swapHeld := rfl
@[simp] theorem State.incSat_listPend (b : Nat) (f : Fld) : (s.incSat b f).listPend = s.listPend := rfl
@[simp] theorem State.incSat_mlistPend (b : Nat) (f : Fld) : (s.incSat b f).mlistPend = s.mlistPend := rfl
@[simp] theorem State.incSat_time (b : Nat) (f : Fld) : (s.incSat b f).time = s.time := rfl
@[simp] theorem State.incSat_axis (b : Nat) (f : Fld) : (s.incSat b f).axis = s.axis := rfl
@[simp] theorem State.incSat_tong (b : Nat) (f : Fld) : (s.incSat b f).tong = s.tong := rfl
@[simp] theorem State.incSat_host (b : Nat) (f : Fld) : (s.incSat b f).host = s.host := rfl
@[simp] theorem State.incSat_rx (b : Nat) (f : Fld) : (s.incSat b f).rx = s.rx := rfl
@[simp] theorem State.incSat_candNo (b : Nat) (f : Fld) : (s.incSat b f).candNo = s.candNo := rfl
@[simp] theorem State.incSat_anvils (b : Nat) (f : Fld) : (s.incSat b f).anvils = s.anvils := rfl
@[simp] theorem State.incSat_tblGen (b : Nat) (f : Fld) : (s.incSat b f).tblGen = s.tblGen := rfl
@[simp] theorem State.incSat_conc (b : Nat) (f : Fld) : (s.incSat b f).conc = s.conc := rfl
@[simp] theorem State.incSat_del (b : Nat) (f : Fld) : (s.incSat b f).del = s.del := rfl
@[simp] theorem State.incSat_can (b : Nat) (f : Fld) : (s.incSat b f).can = s.can := rfl
@[simp] theorem State.incSat_eth (b : Nat) (f : Fld) : (s.incSat b f).eth = s.eth := rfl
@[simp] theorem State.incSat_blkSeq (b : Nat) (f : Fld) : (s.incSat b f).blkSeq = s.blkSeq := rfl
@[simp] theorem State.incSat_ring (b : Nat) (f : Fld) : (s.incSat b f).ring = s.ring := rfl
@[simp] theorem State.incSat_sbox (b : Nat) (f : Fld) : (s.incSat b f).sbox = s.sbox := rfl
@[simp] theorem State.incSat_cel (b : Nat) (f : Fld) : (s.incSat b f).cel = s.cel := rfl
@[simp] theorem State.incSat_cells (b : Nat) (f : Fld) : (s.incSat b f).cells = s.cells := rfl
@[simp] theorem State.incSat_jrnl (b : Nat) (f : Fld) : (s.incSat b f).jrnl = s.jrnl := rfl
@[simp] theorem State.incSat_twin (b : Nat) (f : Fld) : (s.incSat b f).twin = s.twin := rfl
@[simp] theorem State.incSat_sys (b : Nat) (f : Fld) : (s.incSat b f).sys = s.sys := rfl
@[simp] theorem State.incSat_attic (b : Nat) (f : Fld) : (s.incSat b f).attic = s.attic := rfl
@[simp] theorem State.incSat_out (b : Nat) (f : Fld) : (s.incSat b f).out = s.out := rfl
@[simp] theorem State.incSat_free (b : Nat) (f : Fld) : (s.incSat b f).free = s.free := rfl

@[simp] theorem State.setHealth_pending (b : Nat) (c : Bool) : (s.setHealth b c).pending = s.pending := rfl
@[simp] theorem State.setHealth_held (b : Nat) (c : Bool) : (s.setHealth b c).held = s.held := rfl
@[simp] theorem State.setHealth_swapHeld (b : Nat) (c : Bool) : (s.setHealth b c).swapHeld = s.swapHeld := rfl
@[simp] theorem State.setHealth_listPend (b : Nat) (c : Bool) : (s.setHealth b c).listPend = s.listPend := rfl
@[simp] theorem State.setHealth_mlistPend (b : Nat) (c : Bool) : (s.setHealth b c).mlistPend = s.mlistPend := rfl
@[simp] theorem State.setHealth_time (b : Nat) (c : Bool) : (s.setHealth b c).time = s.time := rfl
@[simp] theorem State.setHealth_axis (b : Nat) (c : Bool) : (s.setHealth b c).axis = s.axis := rfl
@[simp] theorem State.setHealth_tong (b : Nat) (c : Bool) : (s.setHealth b c).tong = s.tong := rfl
@[simp] theorem State.setHealth_host (b : Nat) (c : Bool) : (s.setHealth b c).host = s.host := rfl
@[simp] theorem State.setHealth_rx (b : Nat) (c : Bool) : (s.setHealth b c).rx = s.rx := rfl
@[simp] theorem State.setHealth_candNo (b : Nat) (c : Bool) : (s.setHealth b c).candNo = s.candNo := rfl
@[simp] theorem State.setHealth_anvils (b : Nat) (c : Bool) : (s.setHealth b c).anvils = s.anvils := rfl
@[simp] theorem State.setHealth_tblGen (b : Nat) (c : Bool) : (s.setHealth b c).tblGen = s.tblGen := rfl
@[simp] theorem State.setHealth_conc (b : Nat) (c : Bool) : (s.setHealth b c).conc = s.conc := rfl
@[simp] theorem State.setHealth_del (b : Nat) (c : Bool) : (s.setHealth b c).del = s.del := rfl
@[simp] theorem State.setHealth_can (b : Nat) (c : Bool) : (s.setHealth b c).can = s.can := rfl
@[simp] theorem State.setHealth_eth (b : Nat) (c : Bool) : (s.setHealth b c).eth = s.eth := rfl
@[simp] theorem State.setHealth_blkSeq (b : Nat) (c : Bool) : (s.setHealth b c).blkSeq = s.blkSeq := rfl
@[simp] theorem State.setHealth_ring (b : Nat) (c : Bool) : (s.setHealth b c).ring = s.ring := rfl
@[simp] theorem State.setHealth_sbox (b : Nat) (c : Bool) : (s.setHealth b c).sbox = s.sbox := rfl
@[simp] theorem State.setHealth_cel (b : Nat) (c : Bool) : (s.setHealth b c).cel = s.cel := rfl
@[simp] theorem State.setHealth_cells (b : Nat) (c : Bool) : (s.setHealth b c).cells = s.cells := rfl
@[simp] theorem State.setHealth_jrnl (b : Nat) (c : Bool) : (s.setHealth b c).jrnl = s.jrnl := rfl
@[simp] theorem State.setHealth_twin (b : Nat) (c : Bool) : (s.setHealth b c).twin = s.twin := rfl
@[simp] theorem State.setHealth_sys (b : Nat) (c : Bool) : (s.setHealth b c).sys = s.sys := rfl
@[simp] theorem State.setHealth_attic (b : Nat) (c : Bool) : (s.setHealth b c).attic = s.attic := rfl
@[simp] theorem State.setHealth_out (b : Nat) (c : Bool) : (s.setHealth b c).out = s.out := rfl
@[simp] theorem State.setHealth_free (b : Nat) (c : Bool) : (s.setHealth b c).free = s.free := rfl

@[simp] theorem State.evtSum_pending (p : Nat) : (s.evtSum p).pending = s.pending := rfl
@[simp] theorem State.evtSum_held (p : Nat) : (s.evtSum p).held = s.held := rfl
@[simp] theorem State.evtSum_swapHeld (p : Nat) : (s.evtSum p).swapHeld = s.swapHeld := rfl
@[simp] theorem State.evtSum_listPend (p : Nat) : (s.evtSum p).listPend = s.listPend := rfl
@[simp] theorem State.evtSum_mlistPend (p : Nat) : (s.evtSum p).mlistPend = s.mlistPend := rfl
@[simp] theorem State.evtSum_time (p : Nat) : (s.evtSum p).time = s.time := rfl
@[simp] theorem State.evtSum_axis (p : Nat) : (s.evtSum p).axis = s.axis := rfl
@[simp] theorem State.evtSum_tong (p : Nat) : (s.evtSum p).tong = s.tong := rfl
@[simp] theorem State.evtSum_host (p : Nat) : (s.evtSum p).host = s.host := rfl
@[simp] theorem State.evtSum_rx (p : Nat) : (s.evtSum p).rx = s.rx := rfl
@[simp] theorem State.evtSum_candNo (p : Nat) : (s.evtSum p).candNo = s.candNo := rfl
@[simp] theorem State.evtSum_anvils (p : Nat) : (s.evtSum p).anvils = s.anvils := rfl
@[simp] theorem State.evtSum_tblGen (p : Nat) : (s.evtSum p).tblGen = s.tblGen := rfl
@[simp] theorem State.evtSum_conc (p : Nat) : (s.evtSum p).conc = s.conc := rfl
@[simp] theorem State.evtSum_del (p : Nat) : (s.evtSum p).del = s.del := rfl
@[simp] theorem State.evtSum_can (p : Nat) : (s.evtSum p).can = s.can := rfl
@[simp] theorem State.evtSum_eth (p : Nat) : (s.evtSum p).eth = s.eth := rfl
@[simp] theorem State.evtSum_blkSeq (p : Nat) : (s.evtSum p).blkSeq = s.blkSeq := rfl
@[simp] theorem State.evtSum_ring (p : Nat) : (s.evtSum p).ring = s.ring := rfl
@[simp] theorem State.evtSum_sbox (p : Nat) : (s.evtSum p).sbox = s.sbox := rfl
@[simp] theorem State.evtSum_cel (p : Nat) : (s.evtSum p).cel = s.cel := rfl
@[simp] theorem State.evtSum_cells (p : Nat) : (s.evtSum p).cells = s.cells := rfl
@[simp] theorem State.evtSum_jrnl (p : Nat) : (s.evtSum p).jrnl = s.jrnl := rfl
@[simp] theorem State.evtSum_twin (p : Nat) : (s.evtSum p).twin = s.twin := rfl
@[simp] theorem State.evtSum_sys (p : Nat) : (s.evtSum p).sys = s.sys := rfl
@[simp] theorem State.evtSum_attic (p : Nat) : (s.evtSum p).attic = s.attic := rfl
@[simp] theorem State.evtSum_out (p : Nat) : (s.evtSum p).out = s.out := rfl
@[simp] theorem State.evtSum_free (p : Nat) : (s.evtSum p).free = s.free := rfl

@[simp] theorem State.at_regs (t : Nat) : (s.at t).regs = s.regs := rfl
@[simp] theorem State.at_pending (t : Nat) : (s.at t).pending = s.pending := rfl
@[simp] theorem State.at_held (t : Nat) : (s.at t).held = s.held := rfl
@[simp] theorem State.at_swapHeld (t : Nat) : (s.at t).swapHeld = s.swapHeld := rfl
@[simp] theorem State.at_listPend (t : Nat) : (s.at t).listPend = s.listPend := rfl
@[simp] theorem State.at_mlistPend (t : Nat) : (s.at t).mlistPend = s.mlistPend := rfl
@[simp] theorem State.at_axis (t : Nat) : (s.at t).axis = s.axis := rfl
@[simp] theorem State.at_tong (t : Nat) : (s.at t).tong = s.tong := rfl
@[simp] theorem State.at_host (t : Nat) : (s.at t).host = s.host := rfl
@[simp] theorem State.at_rx (t : Nat) : (s.at t).rx = s.rx := rfl
@[simp] theorem State.at_candNo (t : Nat) : (s.at t).candNo = s.candNo := rfl
@[simp] theorem State.at_anvils (t : Nat) : (s.at t).anvils = s.anvils := rfl
@[simp] theorem State.at_tblGen (t : Nat) : (s.at t).tblGen = s.tblGen := rfl
@[simp] theorem State.at_conc (t : Nat) : (s.at t).conc = s.conc := rfl
@[simp] theorem State.at_del (t : Nat) : (s.at t).del = s.del := rfl
@[simp] theorem State.at_can (t : Nat) : (s.at t).can = s.can := rfl
@[simp] theorem State.at_eth (t : Nat) : (s.at t).eth = s.eth := rfl
@[simp] theorem State.at_blkSeq (t : Nat) : (s.at t).blkSeq = s.blkSeq := rfl
@[simp] theorem State.at_ring (t : Nat) : (s.at t).ring = s.ring := rfl
@[simp] theorem State.at_sbox (t : Nat) : (s.at t).sbox = s.sbox := rfl
@[simp] theorem State.at_cel (t : Nat) : (s.at t).cel = s.cel := rfl
@[simp] theorem State.at_cells (t : Nat) : (s.at t).cells = s.cells := rfl
@[simp] theorem State.at_jrnl (t : Nat) : (s.at t).jrnl = s.jrnl := rfl
@[simp] theorem State.at_twin (t : Nat) : (s.at t).twin = s.twin := rfl
@[simp] theorem State.at_sys (t : Nat) : (s.at t).sys = s.sys := rfl
@[simp] theorem State.at_attic (t : Nat) : (s.at t).attic = s.attic := rfl
@[simp] theorem State.at_out (t : Nat) : (s.at t).out = s.out := rfl
@[simp] theorem State.at_free (t : Nat) : (s.at t).free = s.free := rfl

@[simp] theorem State.fresh_regs : s.fresh.2.regs = s.regs := rfl
@[simp] theorem State.fresh_pending : s.fresh.2.pending = s.pending := rfl
@[simp] theorem State.fresh_held : s.fresh.2.held = s.held := rfl
@[simp] theorem State.fresh_swapHeld : s.fresh.2.swapHeld = s.swapHeld := rfl
@[simp] theorem State.fresh_listPend : s.fresh.2.listPend = s.listPend := rfl
@[simp] theorem State.fresh_mlistPend : s.fresh.2.mlistPend = s.mlistPend := rfl
@[simp] theorem State.fresh_time : s.fresh.2.time = s.time := rfl
@[simp] theorem State.fresh_axis : s.fresh.2.axis = s.axis := rfl
@[simp] theorem State.fresh_tong : s.fresh.2.tong = s.tong := rfl
@[simp] theorem State.fresh_host : s.fresh.2.host = s.host := rfl
@[simp] theorem State.fresh_rx : s.fresh.2.rx = s.rx := rfl
@[simp] theorem State.fresh_candNo : s.fresh.2.candNo = s.candNo := rfl
@[simp] theorem State.fresh_anvils : s.fresh.2.anvils = s.anvils := rfl
@[simp] theorem State.fresh_tblGen : s.fresh.2.tblGen = s.tblGen := rfl
@[simp] theorem State.fresh_conc : s.fresh.2.conc = s.conc := rfl
@[simp] theorem State.fresh_del : s.fresh.2.del = s.del := rfl
@[simp] theorem State.fresh_can : s.fresh.2.can = s.can := rfl
@[simp] theorem State.fresh_eth : s.fresh.2.eth = s.eth := rfl
@[simp] theorem State.fresh_blkSeq : s.fresh.2.blkSeq = s.blkSeq := rfl
@[simp] theorem State.fresh_ring : s.fresh.2.ring = s.ring := rfl
@[simp] theorem State.fresh_sbox : s.fresh.2.sbox = s.sbox := rfl
@[simp] theorem State.fresh_cel : s.fresh.2.cel = s.cel := rfl
@[simp] theorem State.fresh_cells : s.fresh.2.cells = s.cells := rfl
@[simp] theorem State.fresh_jrnl : s.fresh.2.jrnl = s.jrnl := rfl
@[simp] theorem State.fresh_twin : s.fresh.2.twin = s.twin := rfl
@[simp] theorem State.fresh_sys : s.fresh.2.sys = s.sys := rfl
@[simp] theorem State.fresh_attic : s.fresh.2.attic = s.attic := rfl
@[simp] theorem State.fresh_out : s.fresh.2.out = s.out := rfl

/-! ### Conditional updates and loops -/

@[simp] theorem State.when_true (f : State → State) : s.when true f = f s := rfl
@[simp] theorem State.when_false (f : State → State) : s.when false f = s := rfl
@[simp] theorem State.each_nil {α : Type} (f : State → α → State) : s.each [] f = s := rfl
@[simp] theorem State.each_cons {α : Type} (a : α) (l : List α) (f : State → α → State) :
    s.each (a :: l) f = (f s a).each l f := rfl

/-- A loop keeps what each turn of it keeps. -/
theorem State.each_keeps {α β : Type} (g : State → β) (f : State → α → State)
    (h : ∀ s a, g (f s a) = g s) (l : List α) (s : State) : g (s.each l f) = g s := by
  induction l generalizing s with
  | nil => rfl
  | cons a l ih => rw [State.each_cons, ih, h]

/-- The clock after a command's instant: the later of the two. -/
theorem State.at_clk (t : Nat) : (s.at t).time.clk = max s.time.clk t := by
  simp only [State.at]; omega

end Sys2Proof.Machine
end

