-- ==== Sys2Proof/Laws/Regs.lean ====
section
/-! SUPPORT. Laws/Regs.lean: reading a field after a write. A field's cell is found by its bit address alone, so a read
after a write gives the value cut to the field's width at the same bit address, and what was there at any other. -/

namespace Sys2Proof.Machine

theorem regLook_filter_ne {l : List (Nat × Nat)} {k a : Nat} (h : a ≠ k) :
    regLook (l.filter (fun c => !(c.1 == k))) a = regLook l a := by
  induction l with
  | nil => rfl
  | cons c l ih =>
    obtain ⟨k', v'⟩ := c
    by_cases hk : k' = k
    · subst hk; simp [regLook, ih, Ne.symm h]
    · simp [regLook, hk, ih]

theorem regLook_filter_self (l : List (Nat × Nat)) (k : Nat) :
    regLook (l.filter (fun c => !(c.1 == k))) k = none := by
  induction l with
  | nil => rfl
  | cons c l ih =>
    obtain ⟨k', v'⟩ := c
    by_cases hk : k' = k
    · simp [hk, ih]
    · simp [regLook, hk, ih]

theorem regLook_ins_ne {l : List (Nat × Nat)} {k v a : Nat} (h : a ≠ k) :
    regLook (regIns k v l) a = regLook l a := by
  induction l with
  | nil => simp [regIns, regLook, Ne.symm h]
  | cons c l ih =>
    obtain ⟨k', v'⟩ := c
    simp only [regIns]
    split
    · simp [regLook, Ne.symm h]
    · simp [regLook, ih]

theorem regLook_ins_self {l : List (Nat × Nat)} {k v : Nat} (h : regLook l k = none) :
    regLook (regIns k v l) k = some v := by
  induction l with
  | nil => simp [regIns, regLook]
  | cons c l ih =>
    obtain ⟨k', v'⟩ := c
    simp only [regLook] at h
    split at h
    · cases h
    · simp only [regIns]
      split
      · simp [regLook]
      · simp [regLook, *]

/-- A write leaves every other bit address alone. -/
theorem regLook_put_ne {l : List (Nat × Nat)} {k v d a : Nat} (h : a ≠ k) :
    regLook (regPut l k v d) a = regLook l a := by
  unfold regPut
  split
  · exact regLook_filter_ne h
  · rw [regLook_ins_ne h, regLook_filter_ne h]

/-- A read of the bit address written gives the value written. -/
theorem regLook_put_self (l : List (Nat × Nat)) (k v d : Nat) :
    (regLook (regPut l k v d) k).getD d = v := by
  unfold regPut
  split
  · rename_i h; simp [regLook_filter_self, h]
  · rw [regLook_ins_self (regLook_filter_self l k)]; rfl

theorem State.regLook_wr_ne (s : State) {b : Nat} {f : Fld} {v a : Nat} (h : a ≠ fldKey b f) :
    regLook (s.wr b f v).regs a = regLook s.regs a := regLook_put_ne h

/-- Reading the field just written. -/
@[simp] theorem State.rd_wr_same (s : State) (b : Nat) (f : Fld) (v : Nat) :
    (s.wr b f v).rd b f = v % 2 ^ f.width := by
  simp [State.rd, State.wr, regLook_put_self]

/-- A field holds a value of its width, in every state. -/
theorem State.rd_lt (s : State) (b : Nat) (f : Fld) : s.rd b f < 2 ^ f.width := Nat.mod_lt _ (Nat.two_pow_pos _)

/-- Reading a field at another bit address. -/
theorem State.rd_wr_ne (s : State) {b b' : Nat} {f f' : Fld} {v : Nat} (h : fldKey b f ≠ fldKey b' f') :
    (s.wr b' f' v).rd b f = s.rd b f := by
  unfold State.rd; rw [State.regLook_wr_ne s h]

/-- The register file alone decides a read. -/
theorem State.rd_congr {s u : State} (h : u.regs = s.regs) (b : Nat) (f : Fld) : u.rd b f = s.rd b f := by
  unfold State.rd; rw [h]

@[simp] theorem State.rd_at (s : State) (t b : Nat) (f : Fld) : (s.at t).rd b f = s.rd b f := rfl
@[simp] theorem State.on_at (s : State) (t b : Nat) (f : Fld) : (s.at t).on b f = s.on b f := rfl

theorem State.on_wr_same (s : State) (b : Nat) (f : Fld) (v : Nat) :
    (s.wr b f v).on b f = (v % 2 ^ f.width == 1) := by simp [State.on]

end Sys2Proof.Machine
end

