-- ==== Sys2Proof/Laws/Frame.lean ====
section
/-! SUPPORT. Laws/Frame.lean: what the shared operations on registers and events leave alone, as `Frame`s that chain, and
what the write guards let through. -/

namespace Sys2Proof.Machine

/-! ### Frames chain -/

theorem frame_refl (fs : List (Nat × Fld)) (ps : List Nat) (s : State) : Frame fs ps s s :=
  ⟨fun _ _ _ => rfl, rfl, ⟨[], by simp⟩, fun _ => ⟨rfl, rfl⟩⟩

theorem frame_trans {fs : List (Nat × Fld)} {ps : List Nat} {s u w : State} (h : Frame fs ps s u) (h' : Frame fs ps u w) :
    Frame fs ps s w := by
  obtain ⟨hr, hu, ⟨m, hm, hm'⟩, hp⟩ := h
  obtain ⟨hr', hu', ⟨n, hn, hn'⟩, hp'⟩ := h'
  refine ⟨fun k a b => (hr' k a b).trans (hr k a b), ?_, ⟨m ++ n, by rw [hn, hm, List.append_assoc], by simp [hm', hn']⟩,
    fun h => ⟨(hp' h).1.trans (hp h).1, (hp' h).2.trans (hp h).2⟩⟩
  rw [hu'] ; rw [hu]

theorem frame_mono {fs gs : List (Nat × Fld)} {ps qs : List Nat} {s u : State} (h : Frame fs ps s u)
    (hf : ∀ x ∈ fs, x ∈ gs) (hp : ∀ p ∈ ps, p ∈ qs) : Frame gs qs s u := by
  obtain ⟨hr, hu, hm, hn⟩ := h
  refine ⟨fun k a b => hr k (fun x hx => a x (hf x hx)) (fun p hx => b p (hp p hx)), hu, hm, fun h => ?_⟩
  subst h
  exact hn (List.eq_nil_iff_forall_not_mem.2 (fun p hx => by simpa using hp p hx))

theorem frame_wr1 (s : State) (b : Nat) (f : Fld) (v : Nat) : Frame [(b, f)] [] s (s.wr b f v) :=
  ⟨fun _ hk _ => State.regLook_wr_ne s (hk (b, f) (by simp)), rfl, ⟨[], by simp⟩, fun _ => ⟨rfl, rfl⟩⟩

variable {fs : List (Nat × Fld)} {ps : List Nat} {s u : State}

theorem frame_wr {b : Nat} {f : Fld} {v : Nat} (h : Frame fs ps s u) (hm : (b, f) ∈ fs) : Frame fs ps s (u.wr b f v) :=
  frame_trans h (frame_mono (frame_wr1 u b f v) (by simpa using hm) (by simp))

theorem frame_wrB {b : Nat} {f : Fld} {v : Bool} (h : Frame fs ps s u) (hm : (b, f) ∈ fs) : Frame fs ps s (u.wrB b f v) :=
  frame_wr h hm

theorem frame_wrI {b : Nat} {f : Fld} {v : Int} (h : Frame fs ps s u) (hm : (b, f) ∈ fs) : Frame fs ps s (u.wrI b f v) :=
  frame_wr h hm

theorem frame_add {b : Nat} {f : Fld} {n : Nat} (h : Frame fs ps s u) (hm : (b, f) ∈ fs) : Frame fs ps s (u.add b f n) :=
  frame_wr h hm

theorem frame_inc {b : Nat} {f : Fld} (h : Frame fs ps s u) (hm : (b, f) ∈ fs) : Frame fs ps s (u.inc b f) := frame_wr h hm

theorem frame_incSat {b : Nat} {f : Fld} (h : Frame fs ps s u) (hm : (b, f) ∈ fs) : Frame fs ps s (u.incSat b f) :=
  frame_wr h hm

theorem frame_when {c : Bool} {g : State → State} (h : Frame fs ps s u) (hg : Frame fs ps s (g u)) :
    Frame fs ps s (u.when c g) := by
  unfold State.when; split <;> assumption

theorem frame_setHealth {b : Nat} {on : Bool} (h : Frame fs ps s u) (hm : (pgTWIN, TWIN_HEALTH) ∈ fs) :
    Frame fs ps s (u.setHealth b on) := frame_wr h hm

/-! ### Events -/

theorem evtKey_cases {p k : Nat} (h : evtKey p k = false) :
    k ≠ fldKey (pgAt p) PG_PG_EVT ∧ k ≠ fldKey pgSYS (sumFld SYS_EVT_SUM p) ∧ k ≠ fldKey pgHOST PG_PG_EVT ∧
    k ≠ fldKey pgSYS (sumFld SYS_EVT_SUM 1) ∧ k ≠ fldKey popAt POP_POP_LVL ∧ k ≠ fldKey pgHOST HOST_C_POP_LOST ∧
    k ≠ fldKey pgHOST HOST_C_MSIX_SENT ∧ ∀ v < 64, k ≠ fldKey pgHOST (pbaBit v) := by
  simp only [evtKey, Bool.or_eq_false_iff, beq_eq_false_iff_ne, Bool.and_eq_false_iff, decide_eq_false_iff_not] at h
  refine ⟨h.1.1.1.1.1.1.1, h.1.1.1.1.1.1.2, h.1.1.1.1.1.2, h.1.1.1.1.2, h.1.1.1.2, h.1.1.2, h.1.2, fun v hv hk => ?_⟩
  have : k = 8 * 0x13F8 + v := by rw [hk]; simp only [fldKey, pbaBit, pgHOST]; omega
  omega

/-- The cells of events as numbers, for `omega`. -/
theorem evtKey_iff (p k : Nat) : evtKey p k = false ↔
    k ≠ 8 * (4096 * p + 20) ∧ k ≠ 8 * (128 + 4 * (p / 32)) ∧ k ≠ 32928 ∧ k ≠ 1024 ∧ k ≠ 126877760 ∧ k ≠ 50048 ∧
    k ≠ 49728 ∧ ¬(40896 ≤ k ∧ k < 40960) := by
  have h1 : fldKey (pgAt p) PG_PG_EVT = 8 * (4096 * p + 20) := by simp only [fldKey, pgAt]; omega
  have h2 : fldKey pgSYS (sumFld SYS_EVT_SUM p) = 8 * (128 + 4 * (p / 32)) := by
    simp only [fldKey, pgSYS, sumFld, Fld.at]; omega
  unfold evtKey
  rw [h1, h2]
  simp only [show fldKey pgHOST PG_PG_EVT = 32928 from rfl, show fldKey pgSYS (sumFld SYS_EVT_SUM 1) = 1024 from rfl,
    show fldKey popAt POP_POP_LVL = 126877760 from rfl, show fldKey pgHOST HOST_C_POP_LOST = 50048 from rfl,
    show fldKey pgHOST HOST_C_MSIX_SENT = 49728 from rfl, show 8 * 0x13F8 = 40896 from rfl,
    Bool.or_eq_false_iff, beq_eq_false_iff_ne, ← Bool.decide_and, decide_eq_false_iff_not, and_assoc]

/-- A write of one of the cells that events of a page may write. -/
theorem frame_evtWr {p b : Nat} {f : Fld} {v : Nat} (h : Frame fs ps s u) (hp : p ∈ ps)
    (hk : ∀ k, evtKey p k = false → k ≠ fldKey b f) : Frame fs ps s (u.wr b f v) := by
  refine frame_trans h ⟨fun k _ hq => State.regLook_wr_ne u (hk k (hq p hp)), rfl, ⟨[], by simp⟩, ?_⟩
  intro h'; subst h'; simp at hp

theorem frame_host {ps : List Nat} {p : Nat} (hp : p ∈ ps) (u : State) (a : List PopRec) (b : Bool) (c : List (Nat × Nat))
    (d : List Nat) : Frame fs ps u { u with host := { u.host with pop := a, popLost := b, vecLast := c, vecWait := d } } :=
  ⟨fun _ _ _ => rfl, rfl, ⟨[], by simp⟩, fun h => by subst h; simp at hp⟩

theorem frame_msix {p : Nat} (hp : p ∈ ps) (u : State) (v a d : Nat) : Frame fs ps u (u.emit (.msix v a d)) :=
  ⟨fun _ _ _ => rfl, rfl, ⟨[.msix v a d], by simp [State.emit, State.ballOff, Emission.isMsix]⟩,
    fun h => by subst h; simp at hp⟩

theorem frame_msixSend {p v : Nat} (h : Frame fs ps s u) (hp : p ∈ ps) (hv : v < 64) : Frame fs ps s (u.msixSend v) := by
  unfold State.msixSend
  split
  · have h1 : Frame fs ps s (u.inc pgHOST HOST_C_MSIX_SENT) :=
      frame_evtWr h hp (fun k hk => (evtKey_cases hk).2.2.2.2.2.2.1)
    exact frame_trans (frame_trans h1 (frame_msix hp _ _ _ _)) (frame_host hp _ _ _ _ _)
  · exact frame_evtWr h hp (fun k hk => (evtKey_cases hk).2.2.2.2.2.2.2 v hv)

theorem frame_msixReq {p v : Nat} (h : Frame fs ps s u) (hp : p ∈ ps) : Frame fs ps s (u.msixReq v) := by
  have hv : v % 64 < 64 := Nat.mod_lt _ (by decide)
  unfold State.msixReq
  simp only
  split
  · exact frame_evtWr h hp (fun k hk => (evtKey_cases hk).2.2.2.2.2.2.2 _ hv)
  · split
    · split
      · exact frame_trans h (frame_host hp _ _ _ _ _)
      · exact frame_msixSend h hp hv
    · exact frame_msixSend h hp hv

theorem frame_evtSum {p : Nat} (h : Frame fs ps s u) (hp : p ∈ ps) : Frame fs ps s (u.evtSum p) :=
  frame_evtWr h hp (fun _ hk => (evtKey_cases hk).2.1)

theorem frame_popLose {p : Nat} (h : Frame fs ps s u) (hp : p ∈ ps) : Frame fs ps s u.popLose := by
  have hl : ∀ {w : State}, Frame fs ps s w → Frame fs ps s (w.inc pgHOST HOST_C_POP_LOST) := fun h =>
    frame_evtWr h hp (fun _ hk => (evtKey_cases hk).2.2.2.2.2.1)
  have h2 := frame_trans (hl h) (frame_host hp (u.inc pgHOST HOST_C_POP_LOST) u.host.pop true u.host.vecLast u.host.vecWait)
  unfold State.popLose
  simp only
  have h3 : ∀ v, Frame fs ps s ((State.wr { u.inc pgHOST HOST_C_POP_LOST with host := { u.host with popLost := true } }
      pgHOST PG_PG_EVT v).evtSum 1) := fun v =>
    frame_evtWr (frame_evtWr h2 hp (fun _ hk => (evtKey_cases hk).2.2.1)) hp (fun _ hk => (evtKey_cases hk).2.2.2.1)
  split
  · refine frame_when (frame_when (h3 _) (hl (h3 _))) (frame_msixReq (frame_when (h3 _) (hl (h3 _))) hp)
  · exact h3 _

theorem frame_popPush {p q b : Nat} (h : Frame fs ps s u) (hp : p ∈ ps) : Frame fs ps s (u.popPush q b) := by
  unfold State.popPush
  split
  · exact frame_popLose h hp
  · exact frame_evtWr (frame_trans h (frame_host hp u _ _ u.host.vecLast u.host.vecWait)) hp
      (fun _ hk => (evtKey_cases hk).2.2.2.2.1)

theorem frame_evtNotify {p b : Nat} (h : Frame fs ps s u) (hp : p ∈ ps) : Frame fs ps s (u.evtNotify p b) := by
  unfold State.evtNotify
  have h1 := frame_when (c := u.on (pgAt p) PG_POP) (g := (·.popPush p b)) h (frame_popPush h hp)
  exact frame_when h1 (frame_msixReq h1 hp)

/-- Everything that raising an event can do. -/
theorem frame_raise {p b : Nat} (h : Frame fs ps s u) (hp : p ∈ ps) : Frame fs ps s (u.raise p b) := by
  unfold State.raise
  have h1 : Frame fs ps s ((u.wr (pgAt p) PG_PG_EVT (u.rd (pgAt p) PG_PG_EVT ||| 2 ^ b)).evtSum p) :=
    frame_evtSum (frame_evtWr h hp (fun _ hk => (evtKey_cases hk).1)) hp
  exact frame_when h1 (frame_evtNotify h1 hp)

/-- Everything that refusing a write can do. -/
theorem frame_refuse {p c : Nat} (h : Frame fs ps s u) (hf : ∀ x ∈ refusalFields p, x ∈ fs) (h0 : 0 ∈ ps) :
    Frame fs ps s (u.refuse p c) := by
  unfold State.refuse State.markError
  simp only [refusalFields, List.mem_cons, forall_eq_or_imp, List.not_mem_nil, false_imp_iff, implies_true, and_true] at hf
  obtain ⟨f1, f2, f3, f4, f5⟩ := hf
  have h1 := frame_inc h f1
  have h2 := frame_when (c := c == 2) (g := (·.inc pgSYS SYS_C_LOCK_REFUSED)) h1 (frame_inc h1 f2)
  have h3 := frame_wr (v := 1) h2 f3
  exact frame_raise (frame_wr (frame_when (g := (·.wr (pgAt p) PG_ERR_CODE c)) h3 (frame_wr h3 f4)) f5) h0

/-! ### Reading through a frame -/

/-- A field outside a frame reads as before. -/
theorem Frame.rd {b : Nat} {f : Fld} (h : Frame fs ps s u) (hf : ∀ x ∈ fs, fldKey b f ≠ fldKey x.1 x.2)
    (hp : ∀ p ∈ ps, evtKey p (fldKey b f) = false) : u.rd b f = s.rd b f := by
  unfold State.rd; rw [h.1 _ hf hp]

theorem State.rd_raise {p b : Nat} {b' : Nat} {f : Fld} (h : evtKey p (fldKey b' f) = false) (s : State) :
    (s.raise p b).rd b' f = s.rd b' f :=
  (frame_raise (fs := []) (ps := [p]) (frame_refl _ _ s) (by simp)).rd (by simp) (by simpa using h)

theorem State.rd_refuse {p c : Nat} {b' : Nat} {f : Fld} (h : ∀ x ∈ refusalFields p, fldKey b' f ≠ fldKey x.1 x.2)
    (h0 : evtKey 0 (fldKey b' f) = false) (s : State) : (s.refuse p c).rd b' f = s.rd b' f :=
  (frame_refuse (fs := refusalFields p) (ps := [0]) (frame_refl _ _ s) (fun _ h => h) (by simp)).rd h (by simpa using h0)

/-- A command whose effect stays within a frame answers it with the queue and the clock as they were at its instant. -/
theorem State.happen_frame {t : Nat} {f : State → State} (s : State) (h : Frame fs ps (s.at t) (f (s.at t))) :
    s.happen t f = .next (f (s.at t)) := by
  unfold State.happen
  have e := h.2.1
  simp only
  congr 1
  generalize f (s.at t) = w at e ⊢
  have e1 : w.pending = s.pending := by rw [e]; rfl
  have e2 : w.time = (s.at t).time := by rw [e]
  rw [← e1, ← e2]

/-! ### Guards -/

theorem State.blkGuard_reaches {page : Nat} {c : Bool} {f : State → State} (h : s.reaches page c) :
    s.blkGuard page c f = f s := by
  obtain ⟨h1, h2, h3, h4⟩ := h
  cases c <;> simp_all [State.blkGuard]

theorem State.winGuard_reaches {page : Nat} {c : Bool} {f : State → State} (h : s.reachesWin c) :
    s.winGuard page c f = f s := by
  obtain ⟨h1, h2⟩ := h
  cases c <;> simp_all [State.winGuard]

theorem State.ctrlGuard_reaches {page : Nat} {c : Bool} {f : State → State} (h : s.reachesCtrl page c) :
    s.ctrlGuard page c f = f s := by
  obtain ⟨h1, h2⟩ := h
  cases c <;> simp_all [State.ctrlGuard]

@[simp] theorem State.reaches_at {page t : Nat} {c : Bool} : (s.at t).reaches page c ↔ s.reaches page c := Iff.rfl
@[simp] theorem State.reachesWin_at {t : Nat} {c : Bool} : (s.at t).reachesWin c ↔ s.reachesWin c := Iff.rfl
@[simp] theorem State.reachesCtrl_at {page t : Nat} {c : Bool} : (s.at t).reachesCtrl page c ↔ s.reachesCtrl page c := Iff.rfl

/-- A command of one event answers a next state, and what holds after the event holds of it. -/
theorem happen_of {fs : List (Nat × Fld)} {ps : List Nat} {s : State} {t : Nat} {f : State → State} {P : State → Prop}
    (h : Frame fs ps (s.at t) (f (s.at t))) (hP : P (f (s.at t))) :
    ∃ u, s.happen t f = .next u ∧ Frame fs ps (s.at t) u ∧ P u :=
  ⟨_, State.happen_frame s h, h, hP⟩

/-- A header write of a listed page is let through. -/
theorem State.hdrGuard_listed {s : State} {p : Nat} {f : State → State} (h : pageListed p = true) :
    s.hdrGuard p f = f s := by simp [State.hdrGuard, h]

/-- A loop keeps a frame that each of its rounds keeps. -/
theorem frame_each {α : Type} {fs : List (Nat × Fld)} {ps : List Nat} {s : State} {f : State → α → State}
    (h : ∀ u a, Frame fs ps s u → Frame fs ps s (f u a)) (l : List α) :
    ∀ u, Frame fs ps s u → Frame fs ps s (u.each l f) := by
  induction l with
  | nil => intro u hu; exact hu
  | cons a l ih => intro u hu; rw [State.each_cons]; exact ih _ (h _ _ hu)

end Sys2Proof.Machine
end

