-- ==== Sys2Proof/Laws/Events.lean ====
section
/-! SUPPORT. Laws/Events.lean: an event raised is pending, and raising events or refusing writes ends no pending event. -/

namespace Sys2Proof.Machine

variable {s : State} {p b : Nat}

theorem pends_wr {b' : Nat} {f : Fld} {v : Nat} (hk : fldKey (pgAt p) PG_PG_EVT ≠ fldKey b' f) (h : s.pends p b = true) :
    (s.wr b' f v).pends p b = true := by
  unfold State.pends; rw [State.rd_wr_ne s hk]; exact h

theorem pends_congr {u : State} (h : u.regs = s.regs) (hs : s.pends p b = true) : u.pends p b = true := by
  unfold State.pends; rw [State.rd_congr h]; exact hs

theorem pends_when {c : Bool} {g : State → State} (h : s.pends p b = true) (hg : (g s).pends p b = true) :
    (s.when c g).pends p b = true := by unfold State.when; split <;> assumption

theorem pends_or (hb : b < 32) (q v : Nat) (h : s.pends p b = true) :
    (s.wr (pgAt q) PG_PG_EVT (s.rd (pgAt q) PG_PG_EVT ||| v)).pends p b = true := by
  by_cases hq : fldKey (pgAt p) PG_PG_EVT = fldKey (pgAt q) PG_PG_EVT
  · have : p = q := by simp only [fldKey, pgAt] at hq; omega
    subst this
    simp only [State.pends, State.rd_wr_same, PG_PG_EVT] at h ⊢
    rw [Nat.testBit_mod_two_pow]; simp [hb, h]
  · exact pends_wr hq h

theorem pends_msixReq {v : Nat} (h : s.pends p b = true) : (s.msixReq v).pends p b = true := by
  have hpba : ∀ w < 64, fldKey (pgAt p) PG_PG_EVT ≠ fldKey pgHOST (pbaBit w) := fun w hw => by
    simp only [fldKey, pgAt, pgHOST, pbaBit]; omega
  have hv : v % 64 < 64 := Nat.mod_lt _ (by decide)
  have hs : ∀ w < 64, (s.msixSend w).pends p b = true := fun w hw => by
    unfold State.msixSend
    split
    · exact pends_congr (s := s.inc pgHOST HOST_C_MSIX_SENT) rfl
        (pends_wr (by simp only [fldKey, pgAt, pgHOST]; omega) h)
    · exact pends_wr (hpba w hw) h
  unfold State.msixReq
  simp only
  split
  · exact pends_wr (hpba _ hv) h
  · split
    · split
      · exact pends_congr (s := s) rfl h
      · exact hs _ hv
    · exact hs _ hv

theorem pends_evtSum {q : Nat} (hq : q < 256) (h : s.pends p b = true) : (s.evtSum q).pends p b = true :=
  pends_wr (by simp only [fldKey, pgAt, pgSYS, sumFld, Fld.at]; omega) h

theorem pends_evtNotify (hp : p < 256) (hb : b < 32) {q c : Nat} (h : s.pends p b = true) :
    (s.evtNotify q c).pends p b = true := by
  have hl : ∀ {w : State}, w.pends p b = true → (w.inc pgHOST HOST_C_POP_LOST).pends p b = true := fun h =>
    pends_wr (by simp only [fldKey, pgAt, pgHOST]; omega) h
  have hpop : (s.popPush q c).pends p b = true := by
    unfold State.popPush
    split
    · unfold State.popLose
      simp only
      have h3 : ((State.wr { s.inc pgHOST HOST_C_POP_LOST with host := { s.host with popLost := true } } pgHOST PG_PG_EVT
          (State.rd { s.inc pgHOST HOST_C_POP_LOST with host := { s.host with popLost := true } } pgHOST PG_PG_EVT ||| 0x10)).evtSum
            1).pends p b = true :=
        pends_evtSum (by decide) (pends_or hb 1 _ (pends_congr (s := s.inc pgHOST HOST_C_POP_LOST) rfl (hl h)))
      split
      · exact pends_when (g := fun s => s.msixReq (s.rd pgHOST PG_VEC)) (pends_when (g := (·.inc pgHOST HOST_C_POP_LOST)) h3 (hl h3))
          (pends_msixReq (pends_when (g := (·.inc pgHOST HOST_C_POP_LOST)) h3 (hl h3)))
      · exact h3
    · exact pends_wr (by simp only [fldKey, pgAt, popAt]; omega) (pends_congr (s := s) rfl h)
  unfold State.evtNotify
  have h1 := pends_when (c := s.on (pgAt q) PG_POP) (g := (·.popPush q c)) h hpop
  exact pends_when (g := fun s => s.msixReq (s.rd (pgAt q) PG_VEC)) h1 (pends_msixReq h1)

/-- Raising an event keeps every pending event. -/
theorem pends_raise (hp : p < 256) (hb : b < 32) {q c : Nat} (hq : q < 256) (h : s.pends p b = true) :
    (s.raise q c).pends p b = true := by
  unfold State.raise
  have h1 := pends_evtSum hq (pends_or hb q (2 ^ c) h)
  exact pends_when (g := (·.evtNotify q c)) h1 (pends_evtNotify hp hb h1)

/-- An event raised is pending. -/
theorem pends_raise_self (hp : p < 256) (hb : b < 32) : (s.raise p b).pends p b = true := by
  unfold State.raise
  have h0 : (s.wr (pgAt p) PG_PG_EVT (s.rd (pgAt p) PG_PG_EVT ||| 2 ^ b)).pends p b = true := by
    simp only [State.pends, State.rd_wr_same, PG_PG_EVT]
    rw [Nat.testBit_mod_two_pow]; simp [hb]
  have h1 := pends_evtSum hp h0
  exact pends_when (g := (·.evtNotify p b)) h1 (pends_evtNotify hp hb h1)

/-- A refused write sets ERROR of its page, and ERR_ANY is pending. -/
theorem refuse_error (c : Nat) (hp : p < 256) : (s.refuse p c).on (pgAt p) PG_ERROR = true ∧ (s.refuse p c).pends 0 0 = true := by
  refine ⟨?_, ?_⟩
  · unfold State.refuse State.markError
    simp only [State.on, beq_iff_eq]
    rw [State.rd_raise (by
      rw [evtKey_iff]; simp only [fldKey, pgAt]; omega)]
    rw [State.rd_wr_ne _ (by simp only [fldKey, pgAt, pgSYS, sumFld, Fld.at]; omega)]
    generalize ((s.inc pgSYS SYS_C_ERR_WRITES).when (c == 2) (·.inc pgSYS SYS_C_LOCK_REFUSED)) = w
    unfold State.when
    split
    · rw [State.rd_wr_ne _ (by simp only [fldKey, pgAt]; omega), State.rd_wr_same]; rfl
    · rw [State.rd_wr_same]; rfl
  · unfold State.refuse State.markError
    exact pends_raise_self (by decide) (by decide)

end Sys2Proof.Machine
end

