-- ==== Sys2Proof/Laws/Memory.lean ====
section
/-! SUPPORT. Laws/Memory.lean: the cellar's bytes and the register file as sorted lists. Every operation on the cellar's
bytes keeps their canonical form, a read after a write gives the byte written, and a write leaves every other byte alone. -/

namespace Sys2Proof.Machine

/-! ### Canonical form -/

theorem Memory.wf_filter {l : List Host.Cell} (p : Host.Cell → Bool) (h : Memory.wf l = true) :
    Memory.wf (l.filter p) = true := by
  induction l with
  | nil => rfl
  | cons c l ih =>
    obtain ⟨k, v⟩ := c
    simp only [Memory.wf, Bool.and_eq_true] at h
    by_cases hp : p (k, v) = true
    · simp only [List.filter_cons, hp, if_true, Memory.wf, Bool.and_eq_true]
      refine ⟨⟨?_, h.1.2⟩, ih h.2⟩
      simp only [List.all_eq_true] at h ⊢
      exact fun c hc => h.1.1 c (List.mem_of_mem_filter hc)
    · simp only [List.filter_cons, hp]; exact ih h.2

theorem mem_memIns {l : List Host.Cell} {k : Nat} {v : Byte} {c : Host.Cell} (h : c ∈ memIns k v l) :
    c = (k, v) ∨ c ∈ l := by
  induction l with
  | nil => simpa [memIns] using h
  | cons d l ih =>
    obtain ⟨k', v'⟩ := d
    simp only [memIns] at h
    split at h
    · simpa using h
    · rcases List.mem_cons.1 h with h | h
      · exact .inr (by simp [h])
      · rcases ih h with h | h
        · exact .inl h
        · exact .inr (by simp [h])

theorem Memory.wf_memIns {l : List Host.Cell} {k : Nat} {v : Byte} (hw : Memory.wf l = true) (hv : v ≠ 0#8)
    (hk : ∀ c ∈ l, c.1 ≠ k) : Memory.wf (memIns k v l) = true := by
  induction l with
  | nil => simp [memIns, Memory.wf, hv]
  | cons d l ih =>
    obtain ⟨k', v'⟩ := d
    have hw' := hw
    simp only [Memory.wf, Bool.and_eq_true, List.all_eq_true, decide_eq_true_eq] at hw'
    simp only [memIns]
    split
    · rename_i hlt
      simp only [Memory.wf, Bool.and_eq_true, List.all_eq_true, decide_eq_true_eq]
      refine ⟨⟨?_, by simpa using hv⟩, by simpa [Memory.wf] using hw⟩
      intro c hc
      rcases List.mem_cons.1 hc with rfl | hc
      · exact hlt
      · exact Nat.lt_trans hlt (hw'.1.1 c hc)
    · rename_i hge
      simp only [Memory.wf, Bool.and_eq_true, List.all_eq_true, decide_eq_true_eq]
      refine ⟨⟨?_, hw'.1.2⟩, ih hw'.2 (fun c hc => hk c (by simp [hc]))⟩
      intro c hc
      rcases mem_memIns hc with rfl | hc
      · have := hk (k', v') (by simp); simp at this hge ⊢; omega
      · exact hw'.1.1 c hc

/-- Writing a byte keeps the canonical form. -/
theorem Memory.wf_memPut {l : List Host.Cell} (a : Nat) (v : Byte) (h : Memory.wf l = true) :
    Memory.wf (memPut l a v) = true := by
  unfold memPut
  split
  · exact Memory.wf_filter _ h
  · rename_i hv
    exact Memory.wf_memIns (Memory.wf_filter _ h) hv (fun c hc => by simpa using (List.mem_filter.1 hc).2)

/-- Writing bytes keeps the canonical form. -/
theorem Memory.wf_memPutAll {l : List Host.Cell} (a : Nat) (bs : List Byte) (h : Memory.wf l = true) :
    Memory.wf (memPutAll l a bs) = true := by
  induction bs generalizing l a with
  | nil => exact h
  | cons b r ih => exact ih (a + 1) (Memory.wf_memPut a b h)

/-- A write of the cellar keeps the canonical form. -/
theorem State.celWrite_wf (s : State) (a : Nat) (bs : List Byte) (h : Memory.wf s.cells = true) :
    Memory.wf (s.celWrite a bs).cells = true := by
  unfold State.celWrite
  split
  · exact Memory.wf_memPutAll a bs h
  · exact h

/-- A read of the cellar leaves its bytes alone. -/
@[simp] theorem State.celRead_cells (s : State) (a n : Nat) : (s.celRead a n).2.cells = s.cells := rfl

theorem State.reset_cells_wf : Memory.wf State.reset.cells = true := rfl

/-! ### Reads after writes -/

theorem memGet_filter_ne {l : List Host.Cell} {k a : Nat} (h : a ≠ k) :
    memGet (l.filter (fun c => !(c.1 == k))) a = memGet l a := by
  induction l with
  | nil => rfl
  | cons c l ih =>
    obtain ⟨k', v'⟩ := c
    by_cases hk : k' = k
    · subst hk; simp [memGet, ih, Ne.symm h]
    · simp [memGet, hk, ih]

theorem memGet_absent {l : List Host.Cell} {a : Nat} (h : ∀ c ∈ l, c.1 ≠ a) : memGet l a = 0#8 := by
  induction l with
  | nil => rfl
  | cons c l ih =>
    obtain ⟨k, v⟩ := c
    have := h (k, v) (by simp)
    simp only [memGet]
    rw [if_neg this]
    exact ih (fun c hc => h c (by simp [hc]))

theorem memGet_memIns {l : List Host.Cell} {k a : Nat} {v : Byte} (h : ∀ c ∈ l, c.1 ≠ k) :
    memGet (memIns k v l) a = if a = k then v else memGet l a := by
  induction l with
  | nil => simp [memIns, memGet, eq_comm]
  | cons c l ih =>
    obtain ⟨k', v'⟩ := c
    have hk := h (k', v') (by simp)
    simp only [memIns]
    split
    · simp [memGet, eq_comm]
    · simp only [memGet, ih (fun c hc => h c (by simp [hc]))]
      split
      · subst_vars; simp [hk]
      · rfl

/-- The byte at every address after a byte is written. -/
theorem memGet_memPut (l : List Host.Cell) (k a : Nat) (v : Byte) :
    memGet (memPut l k v) a = if a = k then v else memGet l a := by
  have hf : ∀ c ∈ l.filter (fun c => !(c.1 == k)), c.1 ≠ k := fun c hc => by simpa using (List.mem_filter.1 hc).2
  unfold memPut
  by_cases hv : v = 0#8
  · simp only [hv, if_true]
    split
    · subst_vars; exact memGet_absent hf
    · rename_i h; exact memGet_filter_ne h
  · simp only [hv, if_false]
    rw [memGet_memIns hf]
    split
    · rfl
    · rename_i h; exact memGet_filter_ne h

/-- The byte at every address after bytes are written from an address on. -/
theorem memGet_memPutAll (l : List Host.Cell) (a : Nat) (bs : List Byte) (x : Nat) :
    memGet (memPutAll l a bs) x = if a ≤ x ∧ x < a + bs.length then bs.getD (x - a) 0#8 else memGet l x := by
  induction bs generalizing l a with
  | nil =>
    have : ¬ (a ≤ x ∧ x < a + ([] : List Byte).length) := by simp
    rw [if_neg this]; rfl
  | cons b r ih =>
    simp only [memPutAll]
    rw [ih, memGet_memPut]
    by_cases h1 : x = a
    · subst h1; simp
    · by_cases h2 : a ≤ x ∧ x < a + (b :: r).length
      · have h3 : a + 1 ≤ x ∧ x < a + 1 + r.length := by simp only [List.length_cons] at h2; omega
        rw [if_pos h2, if_pos h3]
        obtain ⟨j, hj⟩ : ∃ j, x - a = j + 1 := ⟨x - a - 1, by omega⟩
        rw [hj, show x - (a + 1) = j by omega]; rfl
      · have h3 : ¬ (a + 1 ≤ x ∧ x < a + 1 + r.length) := by simp only [List.length_cons] at h2; omega
        rw [if_neg h2, if_neg h3, if_neg h1]

/-! ### The register file stays ordered -/

theorem regOrdered_filter {l : List (Nat × Nat)} (p : Nat × Nat → Bool) (h : regOrdered l = true) :
    regOrdered (l.filter p) = true := by
  induction l with
  | nil => rfl
  | cons c l ih =>
    obtain ⟨k, v⟩ := c
    simp only [regOrdered, Bool.and_eq_true] at h
    by_cases hp : p (k, v) = true
    · simp only [List.filter_cons, hp, if_true, regOrdered, Bool.and_eq_true]
      refine ⟨?_, ih h.2⟩
      simp only [List.all_eq_true] at h ⊢
      exact fun c hc => h.1 c (List.mem_of_mem_filter hc)
    · simp only [List.filter_cons, hp]; exact ih h.2

theorem mem_regIns {l : List (Nat × Nat)} {k v : Nat} {c : Nat × Nat} (h : c ∈ regIns k v l) : c = (k, v) ∨ c ∈ l := by
  induction l with
  | nil => simpa [regIns] using h
  | cons d l ih =>
    obtain ⟨k', v'⟩ := d
    simp only [regIns] at h
    split at h
    · simpa using h
    · rcases List.mem_cons.1 h with h | h
      · exact .inr (by simp [h])
      · rcases ih h with h | h
        · exact .inl h
        · exact .inr (by simp [h])

theorem regOrdered_regIns {l : List (Nat × Nat)} {k v : Nat} (hw : regOrdered l = true) (hk : ∀ c ∈ l, c.1 ≠ k) :
    regOrdered (regIns k v l) = true := by
  induction l with
  | nil => simp [regIns, regOrdered]
  | cons d l ih =>
    obtain ⟨k', v'⟩ := d
    have hw' := hw
    simp only [regOrdered, Bool.and_eq_true, List.all_eq_true, decide_eq_true_eq] at hw'
    simp only [regIns]
    split
    · rename_i hlt
      rw [regOrdered, Bool.and_eq_true]
      refine ⟨?_, hw⟩
      simp only [List.all_eq_true, decide_eq_true_eq]
      intro c hc
      rcases List.mem_cons.1 hc with rfl | hc
      · exact hlt
      · exact Nat.lt_trans hlt (hw'.1 c hc)
    · rename_i hge
      simp only [regOrdered, Bool.and_eq_true, List.all_eq_true, decide_eq_true_eq]
      refine ⟨?_, ih hw'.2 (fun c hc => hk c (by simp [hc]))⟩
      intro c hc
      rcases mem_regIns hc with rfl | hc
      · have := hk (k', v') (by simp); simp at this hge ⊢; omega
      · exact hw'.1 c hc

/-- Writing a register cell keeps the register file ordered. -/
theorem regOrdered_regPut {l : List (Nat × Nat)} (k v d : Nat) (h : regOrdered l = true) :
    regOrdered (regPut l k v d) = true := by
  unfold regPut
  split
  · exact regOrdered_filter _ h
  · exact regOrdered_regIns (regOrdered_filter _ h) (fun c hc => by simpa using (List.mem_filter.1 hc).2)

theorem State.wr_ordered (s : State) (b : Nat) (f : Fld) (v : Nat) (h : regOrdered s.regs = true) :
    regOrdered (s.wr b f v).regs = true := regOrdered_regPut _ _ _ h

end Sys2Proof.Machine
end

