-- ==== Sys2Proof/WellFormed.lean ====
section
/-! DEFINITION. WellFormed.lean: the ranges that the spec gives the operands of each command: numbers of ports, pages,
entries and engines, field widths, lengths of frames and records. A meaning cuts an operand outside its range to it. -/

namespace Sys2Proof

/-- Every operand of the command is within its range. -/
def Instr.wf : Instr → Bool
  | .registerWrite _ addr wide _ => decide (addr < 2 ^ 24) && addr % (if wide then 8 else 4) == 0
  | .pgStatErrorClear _ page => decide (page < 256)
  | .pgEvtClear _ page _ => decide (page < 256)
  | .pgEvtEnWrite _ page _ => decide (page < 256)
  | .pageLock _ page key => decide (page < 256) && decide (key < 65536)
  | .pageUnlock _ page key => decide (page < 256) && decide (key < 65536)
  | .enableWrite _ page _ => decide (page < 256)
  | .softReset _ page _ _ => decide (page < 256)
  | .softResetDone _ page _ _ => decide (page < 256)
  | .blockFreeze _ page _ => decide (page < 256)
  | .testMode _ page _ => decide (page < 256)
  | .unsupportedAccess _ addr => decide (addr < 2 ^ 24)
  | .holeAccess _ addr => decide (addr < 2 ^ 24)
  | .poisonedWrite _ => true
  | .powerOn _ => true
  | .resetPin _ => true
  | .supplyReset _ => true
  | .devrstArm _ value => decide (value < 65536)
  | .devrstArmExpiry _ => true
  | .deviceSrst _ => true
  | .resetRelease _ _ _ _ => true
  | .bootStageDone _ _ _ => true
  | .bootGo _ => true
  | .cellarChannelTrained _ channel _ _ => decide (channel < 2)
  | .cellarInitDone _ => true
  | .wipeArm _ value => decide (value < 65536)
  | .wipeArmExpiry _ => true
  | .wipeGo _ => true
  | .commit _ page => decide (page < 256)
  | .commitTaken _ => true
  | .commitWritten _ => true
  | .sleep _ value => decide (value < 65536)
  | .sleepPowerOff _ => true
  | .wakeNInput _ => true
  | .wakeTimer _ => true
  | .wakePowerUp _ => true
  | .powerDown _ mask => decide (mask < 2048)
  | .powerDownDone _ domain => decide (domain < 11)
  | .powerUp _ mask => decide (mask < 2048)
  | .testGo _ slot _ => decide (slot < 4)
  | .testStart _ slot => decide (slot < 4)
  | .testCancel _ slot _ _ => decide (slot < 4)
  | .testAbort _ slot _ _ => decide (slot < 4)
  | .testDurationEnd _ slot _ _ => decide (slot < 4)
  | .testAck _ slot => decide (slot < 4)
  | .tfClr _ => true
  | .larderScrubPass _ _ => true
  | .hostInterfaceReset _ => true
  | .msixHoldoffEnd _ vec => decide (vec < 64)
  | .msixUnmask _ vec => decide (vec < 64)
  | .popRead _ => true
  | .ringEnable _ ring _ _ => decide (ring < 64)
  | .txRingDoorbell _ ring tail => decide (ring < 64) && decide (tail < 32768)
  | .rxRingDoorbell _ ring tail => decide (ring < 64) && decide (tail < 32768)
  | .descriptorFetchDone _ _ ring idx raw hdr => decide (ring < 64) && decide (idx < 32768) && raw.length == 16 && decide (hdr.length ≤ 32)
  | .bufferFetchDone _ ring idx data => decide (ring < 64) && decide (idx < 32768) && decide (data.length < 65536)
  | .fetchError _ _ ring idx => decide (ring < 64) && decide (idx < 32768)
  | .rawFrameSent _ ring idx _ => decide (ring < 64) && decide (idx < 32768)
  | .raGo _ slot _ => decide (slot < 32)
  | .raAck _ slot => decide (slot < 32)
  | .uartCharacter _ port _ _ _ _ => decide (port < 32)
  | .ictoTimeout _ port => decide (port < 32)
  | .silenceTimeout _ port => decide (port < 32)
  | .ingestPortCommit _ port _ => decide (port < 2048)
  | .sendBreak _ port bits => decide (port < 32) && decide (bits < 65536)
  | .breakEnd _ port => decide (port < 32)
  | .deHoldEnd _ port => decide (port < 32)
  | .dispatch _ anvil port => decide (anvil < 16) && decide (port < 2048)
  | .goldenItem _ anvil _ => decide (anvil < 16)
  | .goldFailedClear _ anvil => decide (anvil < 16)
  | .admitItem _ src => decide (src < 17)
  | .roundExpiry _ group => decide (group < 512)
  | .forceOut _ group member _ => decide (group < 512) && decide (member < 4)
  | .forceIn _ group member _ => decide (group < 512) && decide (member < 4)
  | .flCommit _ index => decide (index < 16384)
  | .rlCommit _ index => decide (index < 2048)
  | .gcCommit _ index => decide (index < 512)
  | .sbCommit _ index => decide (index < 16384)
  | .mgCommit _ index => decide (index < 4096)
  | .flowShadowSwap _ => true
  | .ruleShadowSwap _ => true
  | .concShadowSwap _ => true
  | .bellShadowSwap _ => true
  | .ringShadowSwap _ => true
  | .tableSwapDone _ page => [0x14, 0x90, 0x91, 0x92, 0xA1].contains page
  | .quarRelease _ port _ index => decide (index < (if port then 2048 else 16384))
  | .quarEnter _ port _ index => decide (index < (if port then 2048 else 16384))
  | .release _ port more => decide (port < 2048) && more.all (fun p => decide (p < 2048))
  | .itemTransmitted _ port _ => decide (port < 2048)
  | .alignedReleaseTime _ => true
  | .newestHoldEnd _ port _ => decide (port < 2048)
  | .deadlineExpiry _ handle => decide (handle < 2 ^ 18)
  | .classBoundExpiry _ queue handle => decide (queue < 16384) && decide (handle < 2 ^ 18)
  | .statusBoundary _ port => decide (port < 2048)
  | .listenerPortCommit _ port _ => decide (port < 2048)
  | .qflush _ port => decide (port < 2048)
  | .qflushComplete _ port => decide (port < 2048)
  | .qlimWrite _ queue _ => decide (queue < 16384)
  | .spillWriteDone _ handle => decide (handle < 2 ^ 18)
  | .spillFetchDone _ handle err _ => decide (handle < 2 ^ 18) && decide (err < 3)
  | .journalWriteDone _ handle => decide (handle < 2 ^ 18)
  | .journalBlockClose _ => true
  | .journalFreeze _ => true
  | .freezePostEnd _ window => decide (window < 4)
  | .unfreeze _ window => decide (window < 4)
  | .msUpdate _ => true
  | .ppsInputEdge _ input _ _ => decide (input < 2)
  | .ppsMiss _ input => decide (input < 2)
  | .smpGo _ domain => decide (domain < 2)
  | .domainMissTimeout _ domain => decide (domain < 2)
  | .dreset _ domain => decide (domain < 2)
  | .setGo _ => true
  | .stepGo _ => true
  | .timeCap _ => true
  | .leap _ => true
  | .ppsOutputPulse _ output _ => decide (output < 2)
  | .timeSyncSend _ => true
  | .axisStateSend _ axis => decide (2 ≤ axis ∧ axis < 16)
  | .encoderCount _ encoder _ _ => decide (encoder < 8)
  | .encoderIndex _ encoder => decide (encoder < 8)
  | .axisStill _ axis => decide (2 ≤ axis ∧ axis < 16)
  | .axisEdges _ => true
  | .axisConfigCommit _ axis _ => decide (2 ≤ axis ∧ axis < 16)
  | .axisCap _ => true
  | .slotWrite _ slot _ _ => decide (slot < 64)
  | .slotFire _ slot _ => decide (slot < 64)
  | .signalDetect _ lane => decide (lane < 8)
  | .blockLockTimeout _ port => decide (port < 6)
  | .trainSend _ port _ => decide (port < 6)
  | .trainFrame _ port _ major low minor build credits => decide (port < 6) && decide (major < 256) && decide (low < 256) && decide (minor < 256) && decide (build < 65536) && credits.all (fun c => decide (c < 65536))
  | .helloSend _ port => decide (port < 6)
  | .helloFrame _ port node _ ring side _ => decide (port < 6) && decide (node < 256) && decide (ring < 2) && decide (side < 2)
  | .lossOfLock _ lane _ => decide (lane < 8)
  | .adminDown _ port _ => decide (port < 4)
  | .retrain _ port => decide (port < 4)
  | .dataFrame _ port ft vc lseq fate _ => decide (port < 4) && decide (ft < 256) && decide (vc < 4) && decide (lseq < 65536) && decide (fate < 3)
  | .ackFrame _ port lseq => decide (port < 6) && decide (lseq < 65536)
  | .nakFrame _ port lseq => decide (port < 6) && decide (lseq < 65536)
  | .replayTimeout _ port => decide (port < 6)
  | .creditFrame _ port cpl req item => decide (port < 4) && decide (cpl < 65536) && decide (req < 65536) && decide (item < 65536)
  | .creditSend _ port => decide (port < 4)
  | .probeSend _ port => decide (port < 4)
  | .probeFrame _ port number _ t1 t2 t3 => decide (port < 4) && decide (number < 65536) && decide (t1 < 2 ^ 64) && decide (t2 < 2 ^ 64) && decide (t3 < 2 ^ 64)
  | .packetReceive _ port vc _ _ => decide (port < 4) && decide (vc < 4)
  | .itemIn _ => true
  | .iseqTimeout _ => true
  | .linkDownSig _ => true
  | .linkUpSig _ => true
  | .leafReset _ => true
  | .interruptSig _ => true
  | .lineCountsSig _ => true
  | .sigHoldTimeout _ => true
  | .hubBeatSend _ => true
  | .hubBeatRx _ => true
  | .beatAckRx _ => true
  | .discoverSend _ => true
  | .discoverReturn _ => true
  | .discoverTimeout _ => true
  | .topoGo _ => true
  | .rdReqRx _ => true
  | .wrReqRx _ => true
  | .cplRx _ => true
  | .cplTimeout _ => true
  | .portMapWrite _ port _ => decide (port < 2048)
  | .mbankSwitch _ group => decide (group < 4096)
  | .beatSend _ => true
  | .beatRx _ role tstate _ epoch health lpos => decide (role < 4) && decide (tstate < 4) && decide (epoch < 2 ^ 32) && decide (health < 4096) && decide (lpos < 2 ^ 64)
  | .pathTimeout _ path => decide (path < 3)
  | .roleDecision _ => true
  | .quorumCheck _ => true
  | .logFrame _ lane lseq _ firstLpos _ => decide (lane < 2) && decide (lseq < 65536) && decide (firstLpos < 2 ^ 64)
  | .lackFrame _ lpos => decide (lpos < 2 ^ 64)
  | .logTimeout _ => true
  | .fetchTimeout _ => true
  | .fetchFrame _ leaf iseq lpos => decide (leaf < 256) && decide (iseq < 2 ^ 32) && decide (lpos < 2 ^ 64)
  | .bulkFrame _ lane lseq _ _ => decide (lane < 2) && decide (lseq < 65536)
  | .drainTimeout _ => true
  | .localHoldExpiry _ port => decide (port < 58)
  | .timeXferSend _ => true
  | .timeXfer _ _ t1 t2 t3 dom => decide (t1 < 2 ^ 64) && decide (t2 < 2 ^ 64) && decide (t3 < 2 ^ 64) && decide (dom < 2)
  | .healthFault _ bit _ => decide (bit < 12)
  | .relinquish _ lpos => decide (lpos < 2 ^ 64)
  | .takeover _ => true
  | .busHoldEnd _ => true
  | .seal _ _ => true
  | .rejoin _ _ => true
  | .forceActive _ _ => true
  | .handover _ _ => true
  | .handoverDrained _ => true
  | .canFrameRx _ controller _ cause record => decide (controller < 8) && decide (cause < 6) && decide (8 ≤ record.length ∧ record.length ≤ 72)
  | .canFrameTxDone _ controller => decide (controller < 8)
  | .canAttemptLost _ controller cause => decide (controller < 8) && decide (cause < 6)
  | .canSubmit _ controller entry _ => decide (controller < 8) && decide (entry < 16)
  | .canCancel _ controller entry => decide (controller < 8) && decide (entry < 16)
  | .canAck _ controller entry => decide (controller < 8) && decide (entry < 16)
  | .canConfigCommit _ controller _ => decide (controller < 8)
  | .canIntegration _ controller => decide (controller < 8)
  | .canRecover _ controller => decide (controller < 8)
  | .busOffRecovery _ controller => decide (controller < 8)
  | .vnEnable _ controller node _ => decide (controller < 8) && decide (node < 8)
  | .addrClaimTimeout _ controller node => decide (controller < 8) && decide (node < 8)
  | .fpTimeout _ => true
  | .tpTimeout _ => true
  | .bamGap _ controller => decide (controller < 8)
  | .canSleepEntry _ controller => decide (controller < 8)
  | .canWake _ controller _ _ record => decide (controller < 8) && decide (8 ≤ record.length ∧ record.length ≤ 72)
  | .ethFrameRx _ port _ _ frame => decide (port < 2) && decide (14 ≤ frame.length)
  | .ethLinkUp _ port speed => decide (port < 2) && decide (speed < 3)
  | .ethLinkDown _ port => decide (port < 2)
  | .groupJoin _ port _ => decide (port < 2)
  | .tongGo _ engine _ => decide (engine < 16)
  | .tongAwait _ engine _ => decide (engine < 16)
  | .tongAwaitDone _ engine _ _ => decide (engine < 16)
  | .tongPins _ engine => decide (engine < 16)
  | .tongLoad _ engine => decide (engine < 16)
  | .tongAlu _ engine => decide (engine < 16)
  | .tongTimer _ engine => decide (engine < 16)
  | .tongShift _ engine _ => decide (engine < 16)
  | .tongFetch _ engine => decide (engine < 16)
  | .tongStore _ engine => decide (engine < 16)
  | .stallEnd _ engine => decide (engine < 16)
  | .tongLut _ engine _ => decide (engine < 16)
  | .tongFlag _ engine => decide (engine < 16)
  | .engineEnable _ engine => decide (engine < 16)
  | .engineDisable _ engine => decide (engine < 16)
  | .grpEnSet _ _ => true
  | .grpEnClr _ _ => true
  | .grpClkrst _ _ => true
  | .tongShadowSwap _ => true
  | .engineBankMove _ engine => decide (engine < 16)
  | .swapTimeout _ => true
  | .tongForce _ => true
  | .rxFlush _ port => decide (port < 2048)
  | .txFlush _ port _ _ => decide (port < 2048)
  | .channelOos _ channel => decide (channel < 2)
  | .ueLimitExceeded _ channel => decide (channel < 2)
  | .cellarScrub _ _ _ _ _ _ _ => true
  | .bar2Write _ offset data => decide (offset < 2 ^ 26) && decide (offset + data.length ≤ 2 ^ 26)
  | .loadClear _ => true
  | .derive _ => true
  | .revoke _ => true
  | .erase _ => true
  | .newRoot _ => true
  | .applyUpdate _ => true
  | .attest _ => true
  | .verifyImage _ _ => true
  | .commandDone _ => true
  | .tamperAlarm _ source => decide (source < 5)
  | .tampArm _ mask => decide (mask < 32)
  | .tampClr _ => true
  | .clearLock _ => true
  | .snap _ page _ => decide (page < 256)
  | .clear _ page => decide (page < 256)
  | .psnap _ port _ _ => decide (port < 2048)
  | .pclear _ port _ => decide (port < 2048)
  | .fsnap _ _ index _ _ => decide (index < 16384)
  | .fclear _ _ index _ => decide (index < 16384)
  | .gsnap _ group _ _ => decide (group < 512)
  | .gclear _ group _ => decide (group < 512)
  | .qsnap _ queue _ _ => decide (queue < 16384)
  | .qclear _ queue _ => decide (queue < 16384)
  | .dispositionFsnap _ flow _ _ => decide (flow < 16384)
  | .dispositionFclear _ flow _ => decide (flow < 16384)
  | .fifoFsnap _ port _ => decide (port < 2048)
  | .fifoFclear _ port => decide (port < 2048)
  | .frameFsnap _ port _ _ => decide (port < 2048)
  | .frameFclear _ port _ => decide (port < 2048)
  | .uartStartEdge _ port => decide (port < 32)
  | .lineGoesHigh _ port => decide (port < 32)
  | .blockLock _ port => decide (port < 6)
  | .checkerLock _ slot => decide (slot < 4)
  | .checkerLockLost _ slot _ _ => decide (slot < 4)
  | .supplyWarning _ rail _ => decide (rail < 6)
  | .bankOutOfRange _ bank => decide (bank < 4)
  | .canWakeInSleep _ controller => decide (controller < 8)
  | .jtagInstruction _ instr => decide (instr < 6)
  | .deltaAtH _ => true
  | .attemptStart _ controller => decide (controller < 8)
  | .alignedFetch _ port => decide (port < 2048)

end Sys2Proof
end

