-- ==== Sys2Proof/Tests/Slice0.lean ====
section
/-! SUPPORT. Tests/Slice0.lean: ill-formed commands that the check refuses, small states built for tests, witnesses that
every hypothesis of every statement can be met, and a few results that the spec states. -/

namespace Sys2Proof.Machine

set_option Elab.async false

/-! ### Ill-formed commands: one for each check of Instr.wf, which refuses it -/

theorem test_wf_takes_the_rest :
    ([.registerWrite 0 0 false 0, .pgStatErrorClear 0 0, .pgEvtClear 0 0 0, .pgEvtEnWrite 0 0 0, .pageLock 0 0 0, .pageUnlock 0 0 0, .enableWrite 0 0 false, .softReset 0 0 0 0, .softResetDone 0 0 0 0, .blockFreeze 0 0 false, .testMode 0 0 false, .unsupportedAccess 0 0, .holeAccess 0 0, .devrstArm 0 0, .cellarChannelTrained 0 0 false false, .wipeArm 0 0, .commit 0 0, .sleep 0 0, .powerDown 0 0, .powerDownDone 0 0, .powerUp 0 0, .testGo 0 0 0, .testStart 0 0, .testCancel 0 0 0 0, .testAbort 0 0 0 0, .testDurationEnd 0 0 0 0, .testAck 0 0, .msixHoldoffEnd 0 0, .msixUnmask 0 0, .ringEnable 0 0 false 0, .txRingDoorbell 0 0 0, .rxRingDoorbell 0 0 0, .descriptorFetchDone 0 false 0 0 (zeros 16) [], .bufferFetchDone 0 0 0 [], .fetchError 0 false 0 0, .rawFrameSent 0 0 0 0, .raGo 0 0 0, .raAck 0 0, .uartCharacter 0 0 0 false false false, .ictoTimeout 0 0] : List Instr).all Instr.wf = true ∧
    ([.silenceTimeout 0 0, .ingestPortCommit 0 0 0, .sendBreak 0 0 0, .breakEnd 0 0, .deHoldEnd 0 0, .dispatch 0 0 0, .goldenItem 0 0 false, .goldFailedClear 0 0, .admitItem 0 0, .roundExpiry 0 0, .forceOut 0 0 0 false, .forceIn 0 0 0 false, .flCommit 0 0, .rlCommit 0 0, .gcCommit 0 0, .sbCommit 0 0, .mgCommit 0 0, .tableSwapDone 0 0x90, .quarRelease 0 false false 0, .quarEnter 0 false false 0, .release 0 0 [], .itemTransmitted 0 0 0, .newestHoldEnd 0 0 0, .deadlineExpiry 0 0, .classBoundExpiry 0 0 0, .statusBoundary 0 0, .listenerPortCommit 0 0 0, .qflush 0 0, .qflushComplete 0 0, .qlimWrite 0 0 0, .spillWriteDone 0 0, .spillFetchDone 0 0 0 0, .journalWriteDone 0 0, .freezePostEnd 0 0, .unfreeze 0 0, .ppsInputEdge 0 0 false false, .ppsMiss 0 0, .smpGo 0 0, .domainMissTimeout 0 0, .dreset 0 0] : List Instr).all Instr.wf = true ∧
    ([.ppsOutputPulse 0 0 0, .axisStateSend 0 2, .encoderCount 0 0 false false, .encoderIndex 0 0, .axisStill 0 2, .axisConfigCommit 0 2 0, .slotWrite 0 0 0 false, .slotFire 0 0 false, .signalDetect 0 0, .blockLockTimeout 0 0, .trainSend 0 0 0, .trainFrame 0 0 false 0 0 0 0 [38, 38, 38], .helloSend 0 0, .helloFrame 0 0 0 false 0 0 0, .lossOfLock 0 0 false, .adminDown 0 0 false, .retrain 0 0, .dataFrame 0 0 0 0 0 0 [], .ackFrame 0 0 0, .nakFrame 0 0 0, .replayTimeout 0 0, .creditFrame 0 0 0 0 0, .creditSend 0 0, .probeSend 0 0, .probeFrame 0 0 0 false 0 0 0, .packetReceive 0 0 0 0 false, .portMapWrite 0 0 0, .mbankSwitch 0 0, .beatRx 0 0 0 false 0 0 0, .pathTimeout 0 0, .logFrame 0 0 0 false 0 [], .lackFrame 0 0, .fetchFrame 0 0 0 0, .bulkFrame 0 0 0 false [], .localHoldExpiry 0 0, .timeXfer 0 false 0 0 0 0, .healthFault 0 0 false, .relinquish 0 0, .canFrameRx 0 0 0 0 (zeros 8), .canFrameTxDone 0 0] : List Instr).all Instr.wf = true ∧
    ([.canAttemptLost 0 0 0, .canSubmit 0 0 0 0, .canCancel 0 0 0, .canAck 0 0 0, .canConfigCommit 0 0 0, .canIntegration 0 0, .canRecover 0 0, .busOffRecovery 0 0, .vnEnable 0 0 0 0, .addrClaimTimeout 0 0 0, .bamGap 0 0, .canSleepEntry 0 0, .canWake 0 0 0 0 (zeros 8), .ethFrameRx 0 0 0 false (zeros 14), .ethLinkUp 0 0 0, .ethLinkDown 0 0, .groupJoin 0 0 0, .tongGo 0 0 0, .tongAwait 0 0 0, .tongAwaitDone 0 0 0 0, .tongPins 0 0, .tongLoad 0 0, .tongAlu 0 0, .tongTimer 0 0, .tongShift 0 0 0, .tongFetch 0 0, .tongStore 0 0, .stallEnd 0 0, .tongLut 0 0 0, .tongFlag 0 0, .engineEnable 0 0, .engineDisable 0 0, .engineBankMove 0 0, .rxFlush 0 0, .txFlush 0 0 0 0, .channelOos 0 0, .ueLimitExceeded 0 0, .bar2Write 0 0 [], .tamperAlarm 0 0, .tampArm 0 0] : List Instr).all Instr.wf = true ∧
    ([.snap 0 0 false, .clear 0 0, .psnap 0 0 false false, .pclear 0 0 false, .fsnap 0 false 0 false false, .fclear 0 false 0 false, .gsnap 0 0 false false, .gclear 0 0 false, .qsnap 0 0 false false, .qclear 0 0 false, .dispositionFsnap 0 0 false false, .dispositionFclear 0 0 false, .fifoFsnap 0 0 false, .fifoFclear 0 0, .frameFsnap 0 0 false false, .frameFclear 0 0 false, .uartStartEdge 0 0, .lineGoesHigh 0 0, .blockLock 0 0, .checkerLock 0 0, .checkerLockLost 0 0 0 0, .supplyWarning 0 0 false, .bankOutOfRange 0 0, .canWakeInSleep 0 0, .jtagInstruction 0 0, .attemptStart 0 0, .alignedFetch 0 0] : List Instr).all Instr.wf = true := by
  decide +kernel

theorem test_wf_refuses_1 :
    ([.registerWrite 0 (2 ^ 24) false 0, .registerWrite 0 2 false 0, .pgStatErrorClear 0 256, .pgEvtClear 0 256 0,
      .pgEvtEnWrite 0 256 0, .pageLock 0 256 0, .pageLock 0 0 65536, .pageUnlock 0 256 0, .pageUnlock 0 0 65536,
      .enableWrite 0 256 false, .softReset 0 256 0 0, .softResetDone 0 256 0 0, .blockFreeze 0 256 false, .testMode 0
      256 false, .unsupportedAccess 0 (2 ^ 24), .holeAccess 0 (2 ^ 24), .devrstArm 0 65536, .cellarChannelTrained 0 2
      false false, .wipeArm 0 65536, .commit 0 256, .sleep 0 65536, .powerDown 0 2048, .powerDownDone 0 11, .powerUp
      0 2048, .testGo 0 4 0, .testStart 0 4, .testCancel 0 4 0 0, .testAbort 0 4 0 0, .testDurationEnd 0 4 0 0,
      .testAck 0 4, .msixHoldoffEnd 0 64, .msixUnmask 0 64, .ringEnable 0 64 false 0, .txRingDoorbell 0 64 0,
      .txRingDoorbell 0 0 32768, .rxRingDoorbell 0 64 0, .rxRingDoorbell 0 0 32768, .descriptorFetchDone 0 false 64 0
      (zeros 16) [], .descriptorFetchDone 0 false 0 32768 (zeros 16) [], .descriptorFetchDone 0 false 0 0 (zeros 15)
      [], .descriptorFetchDone 0 false 0 0 (zeros 16) (zeros 33), .bufferFetchDone 0 64 0 [], .bufferFetchDone 0 0
      32768 [], .bufferFetchDone 0 0 0 (List.replicate 65536 0), .fetchError 0 false 64 0, .fetchError 0 false 0
      32768, .rawFrameSent 0 64 0 0, .rawFrameSent 0 0 32768 0, .raGo 0 32 0, .raAck 0 32] : List Instr).all (fun i
      => !i.wf) = true := by
  decide +kernel

theorem test_wf_refuses_2 :
    ([.uartCharacter 0 32 0 false false false, .ictoTimeout 0 32, .silenceTimeout 0 32, .ingestPortCommit 0 2048 0,
      .sendBreak 0 32 0, .sendBreak 0 0 65536, .breakEnd 0 32, .deHoldEnd 0 32, .dispatch 0 16 0, .dispatch 0 0 2048,
      .goldenItem 0 16 false, .goldFailedClear 0 16, .admitItem 0 17, .roundExpiry 0 512, .forceOut 0 512 0 false,
      .forceOut 0 0 4 false, .forceIn 0 512 0 false, .forceIn 0 0 4 false, .flCommit 0 16384, .rlCommit 0 2048,
      .gcCommit 0 512, .sbCommit 0 16384, .mgCommit 0 4096, .tableSwapDone 0 0x93, .quarRelease 0 false false 16384,
      .quarEnter 0 false false 16384, .release 0 2048 [], .release 0 0 [3, 2048], .itemTransmitted 0 2048 0,
      .newestHoldEnd 0 2048 0, .deadlineExpiry 0 (2 ^ 18), .classBoundExpiry 0 16384 0, .classBoundExpiry 0 0 (2 ^
      18), .statusBoundary 0 2048, .listenerPortCommit 0 2048 0, .qflush 0 2048, .qflushComplete 0 2048, .qlimWrite 0
      16384 0, .spillWriteDone 0 (2 ^ 18), .spillFetchDone 0 (2 ^ 18) 0 0, .spillFetchDone 0 0 3 0, .journalWriteDone
      0 (2 ^ 18), .freezePostEnd 0 4, .unfreeze 0 4, .ppsInputEdge 0 2 false false, .ppsMiss 0 2, .smpGo 0 2,
      .domainMissTimeout 0 2, .dreset 0 2, .ppsOutputPulse 0 2 0] : List Instr).all (fun i => !i.wf) = true := by
  decide +kernel

theorem test_wf_refuses_3 :
    ([.axisStateSend 0 16, .encoderCount 0 8 false false, .encoderIndex 0 8, .axisStill 0 16, .axisConfigCommit 0 16
      0, .slotWrite 0 64 0 false, .slotFire 0 64 false, .signalDetect 0 8, .blockLockTimeout 0 6, .trainSend 0 6 0,
      .trainFrame 0 6 false 0 0 0 0 [38, 38, 38], .trainFrame 0 0 false 256 0 0 0 [38, 38, 38], .trainFrame 0 0 false
      0 256 0 0 [38, 38, 38], .trainFrame 0 0 false 0 0 256 0 [38, 38, 38], .trainFrame 0 0 false 0 0 0 65536 [38,
      38, 38], .trainFrame 0 0 false 0 0 0 0 [38, 65536, 38], .helloSend 0 6, .helloFrame 0 6 0 false 0 0 0,
      .helloFrame 0 0 256 false 0 0 0, .helloFrame 0 0 0 false 2 0 0, .helloFrame 0 0 0 false 0 2 0, .lossOfLock 0 8
      false, .adminDown 0 4 false, .retrain 0 4, .dataFrame 0 4 0 0 0 0 [], .dataFrame 0 0 256 0 0 0 [], .dataFrame 0
      0 0 4 0 0 [], .dataFrame 0 0 0 0 65536 0 [], .dataFrame 0 0 0 0 0 3 [], .ackFrame 0 6 0, .ackFrame 0 0 65536,
      .nakFrame 0 6 0, .nakFrame 0 0 65536, .replayTimeout 0 6, .creditFrame 0 4 0 0 0, .creditFrame 0 0 65536 0 0,
      .creditFrame 0 0 0 65536 0, .creditFrame 0 0 0 0 65536, .creditSend 0 4, .probeSend 0 4, .probeFrame 0 4 0
      false 0 0 0, .probeFrame 0 0 65536 false 0 0 0, .probeFrame 0 0 0 false (2 ^ 64) 0 0, .probeFrame 0 0 0 false 0
      (2 ^ 64) 0, .probeFrame 0 0 0 false 0 0 (2 ^ 64), .packetReceive 0 4 0 0 false, .packetReceive 0 0 4 0 false,
      .portMapWrite 0 2048 0, .mbankSwitch 0 4096, .beatRx 0 4 0 false 0 0 0] : List Instr).all (fun i => !i.wf) =
      true := by
  decide +kernel

theorem test_wf_refuses_4 :
    ([.beatRx 0 0 4 false 0 0 0, .beatRx 0 0 0 false (2 ^ 32) 0 0, .beatRx 0 0 0 false 0 4096 0, .beatRx 0 0 0 false
      0 0 (2 ^ 64), .pathTimeout 0 3, .logFrame 0 2 0 false 0 [], .logFrame 0 0 65536 false 0 [], .logFrame 0 0 0
      false (2 ^ 64) [], .lackFrame 0 (2 ^ 64), .fetchFrame 0 256 0 0, .fetchFrame 0 0 (2 ^ 32) 0, .fetchFrame 0 0 0
      (2 ^ 64), .bulkFrame 0 2 0 false [], .bulkFrame 0 0 65536 false [], .localHoldExpiry 0 58, .timeXfer 0 false (2
      ^ 64) 0 0 0, .timeXfer 0 false 0 (2 ^ 64) 0 0, .timeXfer 0 false 0 0 (2 ^ 64) 0, .timeXfer 0 false 0 0 0 2,
      .healthFault 0 12 false, .relinquish 0 (2 ^ 64), .canFrameRx 0 8 0 0 (zeros 8), .canFrameRx 0 0 0 6 (zeros 8),
      .canFrameRx 0 0 0 0 (zeros 7), .canFrameTxDone 0 8, .canAttemptLost 0 8 0, .canAttemptLost 0 0 6, .canSubmit 0
      8 0 0, .canSubmit 0 0 16 0, .canCancel 0 8 0, .canCancel 0 0 16, .canAck 0 8 0, .canAck 0 0 16,
      .canConfigCommit 0 8 0, .canIntegration 0 8, .canRecover 0 8, .busOffRecovery 0 8, .vnEnable 0 8 0 0, .vnEnable
      0 0 8 0, .addrClaimTimeout 0 8 0, .addrClaimTimeout 0 0 8, .bamGap 0 8, .canSleepEntry 0 8, .canWake 0 8 0 0
      (zeros 8), .canWake 0 0 0 0 (zeros 7), .ethFrameRx 0 2 0 false (zeros 14), .ethFrameRx 0 0 0 false (zeros 13),
      .ethLinkUp 0 2 0, .ethLinkUp 0 0 3, .ethLinkDown 0 2] : List Instr).all (fun i => !i.wf) = true := by
  decide +kernel

theorem test_wf_refuses_5 :
    ([.groupJoin 0 2 0, .tongGo 0 16 0, .tongAwait 0 16 0, .tongAwaitDone 0 16 0 0, .tongPins 0 16, .tongLoad 0 16,
      .tongAlu 0 16, .tongTimer 0 16, .tongShift 0 16 0, .tongFetch 0 16, .tongStore 0 16, .stallEnd 0 16, .tongLut 0
      16 0, .tongFlag 0 16, .engineEnable 0 16, .engineDisable 0 16, .engineBankMove 0 16, .rxFlush 0 2048, .txFlush
      0 2048 0 0, .channelOos 0 2, .ueLimitExceeded 0 2, .bar2Write 0 (2 ^ 26) [], .bar2Write 0 (2 ^ 26 - 1) (zeros
      2), .tamperAlarm 0 5, .tampArm 0 32, .snap 0 256 false, .clear 0 256, .psnap 0 2048 false false, .pclear 0 2048
      false, .fsnap 0 false 16384 false false, .fclear 0 false 16384 false, .gsnap 0 512 false false, .gclear 0 512
      false, .qsnap 0 16384 false false, .qclear 0 16384 false, .dispositionFsnap 0 16384 false false,
      .dispositionFclear 0 16384 false, .fifoFsnap 0 2048 false, .fifoFclear 0 2048, .frameFsnap 0 2048 false false,
      .frameFclear 0 2048 false, .uartStartEdge 0 32, .lineGoesHigh 0 32, .blockLock 0 6, .checkerLock 0 4,
      .checkerLockLost 0 4 0 0, .supplyWarning 0 6 false, .bankOutOfRange 0 4, .canWakeInSleep 0 8, .jtagInstruction
      0 6] : List Instr).all (fun i => !i.wf) = true := by
  decide +kernel

theorem test_wf_refuses_6 :
    ([.attemptStart 0 8, .alignedFetch 0 2048, .axisStateSend 0 1, .axisStill 0 1, .axisConfigCommit 0 1 0] : List
      Instr).all (fun i => !i.wf) = true := by
  decide +kernel

/-! ### States for tests -/

/-- In service: boot stage FORWARD. -/
def ready : State := State.reset.wr pgPWR PWR_BOOT_STAGE 7
/-- In service as the active hub. -/
def hubActive : State := ready.wr pgTWIN TWIN_ROLE 2
/-- The state after one step. -/
def stepped (s : State) : State := match step s with | .next u => u | _ => s
/-- A descriptor held, its ring enabled with 8 entries. -/
def ringUp (k phase : Nat) (hdr : List Byte) : State :=
  let s := ((ready.wr (ringAt k) TXRING_EN 1).wr (ringAt k) TXRING_LOG2_SIZE 3).wr pgHOST HOST_OUTSTANDING 1
  if k < 64 then { s with host := { s.host with txd := [⟨k, 0, 5, 0, hdr.take 16, hdr, phase⟩], next := [(k, 1)] } }
  else { s with host := { s.host with rxd := [⟨k - 64, 0, 0, 0, false⟩], next := [(k, 1)] } }

/-- A leaf admitted on ring A with its hops up. -/
def leafUp : State := { hubActive with ring := { hubActive.ring with topo := [(0, [⟨1, false, true, true, false, 3, 0, 0, 0, 0, 0⟩])] } }
/-- UART port 3 enabled at 38 400 baud, hunting. -/
def uartUp : State := (((ready.wr (ingestAt 3) INGEST_RX_EN 1).wr (ingestAt 3) INGEST_TYPE 1).wr (ingestAt 3) INGEST_BAUD_DIV 250000).wr (ingestAt 3) INGEST_SILENT_MS 2

/-- The same inside a character, `n` characters of a sentence into a candidate. -/
def uartIn (n : Nat) : State :=
  let s := uartUp
  let r := { s.rxOf 3 with inChar := true, edge := 77 }
  if n = 0 then s.setRx 3 r
  else s.setRx 3 { r with wp := (n + 7) / 8, openC := some ⟨(List.range n).map (fun i => BitVec.ofNat 8 (36 + i)), s.portCfg 3, 5, 0, 5, 0⟩, fr := ⟨.sent, false, n, 0, 0, n⟩ }
/-- A candidate of a tongs port: body of `n` bytes, no checks of a sentence. -/
def tongCand (id p n : Nat) : Cand :=
  ⟨id, p, .tongs, false, List.replicate n 7#8, State.reset.portCfg p, 900 * nsU, 900 * nsU, 900 * nsU, 1000 * nsU, 1000, true, 0, 0, wordsOf n, false, 0, 0, []⟩
/-- Flow 5 takes what tongs port 45 receives; the flow's class is 2. -/
def flowUp (s : State) : State :=
  ((((s.wr (flowAt 5) FL_VALID 1).wr (flowAt 5) FL_KTYPE 4).wr (flowAt 5) FL_PORT 45).wr (flowAt 5) FL_PRIO 2)
/-- Candidates wait at port 45, anvil 3 in dispatch, larder enabled. -/
def dispatchUp (s : State) (l : List Cand) : State :=
  let w := (l.map (·.words)).sum
  ((flowUp s).wr (pgANV 3) ANV_IN_DISPATCH 1).setRx 45 { RxPort.empty with wp := w, cp := w, cands := l }
/-- The first candidate built by anvil 3 for flow 5. -/
def builtUp (s : State) (n : Nat) : State :=
  let s := dispatchUp s [tongCand 8 45 n, tongCand 9 45 12]
  { s with anvils := [(3, ⟨tongCand 8 45 n, 6, 900, 0, false, none, none, some 5, 0, 1000⟩)] }
/-- Flow 5 subscribed by listener 7 (UART list entry), which is a tongs listener 50 here. -/
def subUp (s : State) : State :=
  let s := ((s.wr (subAt 5) SUB_VALID 1).wr (subAt 5) SUB_LIST_CNT 1).wr (llistAt 0) ⟨0, 0, 11, 0⟩ 50
  ((s.wr (lportAt 50) LPORT_TX_EN 1).wr (ingestAt 50) INGEST_TYPE 4).wr (pgTONG 8) TONG_TX_LIMIT 512
/-- An item of flow 5 with a body of `n` bytes. -/
def anItem (n dead : Nat) : Item := ⟨6, 2, false, false, false, false, 5, 45, 3, 900, 0, dead, 0, 0, List.replicate n 7#8⟩
def anEntry (n dead : Nat) (loc : Loc) : LItem := ⟨anItem n dead, loc, 0, 0, 0, 0, 0, true, false, none⟩
def aRef (h mode inst : Nat) : Ref := ⟨h, 5, 3, 5 * 2 ^ 32, mode, inst, false, h, none⟩
/-- Listener 50 (tongs engine 8), enabled, with item 7 in queue 402. -/
def queued (s : State) (dead mode inst : Nat) (loc : Loc) : State :=
  let s := ((s.wr (lportAt 50) LPORT_TX_EN 1).wr (ingestAt 50) INGEST_TYPE 4).wr (pgTONG 8) TONG_TX_LIMIT 512
  let s := { s with del := { s.del with items := [(7, anEntry 9 dead loc)], queues := [(402, [aRef 7 mode inst])], refNo := 8, nextHandle := 8 } }
  (((s.setCells 1).wr (queueAt 402) QUEUE_DEPTH 1).wr (lportAt 50) LPORT_DEPTH_ALL 1).wr pgLARD LARD_TALLY_USED 1
/-- Remote listener 64 at leaf 4, ready, with item 7 in queue 514. -/
def remoteUp : State :=
  let s := queued hubActive 0 0 0 .larder
  let s := { s with del := { s.del with queues := [(514, [aRef 7 0 0])] } }
  let s := ((s.wr (portmapAt 64) PORTMAP_VALID 1).wr (portmapAt 64) PORTMAP_LEAF 4).wr (lportAt 64) LPORT_TX_EN 1
  (s.wr (nodeAt 4) NODE_READY 1).wr (ingestAt 64) INGEST_TYPE 4
/-- Shadow of rule 9: RANGE on a decimal field, A 1 to B 5, pending. -/
def rulePend (s : State) : State :=
  (((s.wr (ruleShAt 9) RL_FORMAT 1).wr (ruleShAt 9) RL_A 1).wr (ruleShAt 9) RL_B 5).wr (ruleShAt 9) RL_PENDING 1
/-- Shadow of flow 5 in use, pending; subscription and group shadows likewise. -/
def flowPend (s : State) : State :=
  let b := flowShAt 5
  (((((s.wr b FL_VALID 1).wr b FL_KTYPE 4).wr b FL_PORT 45).wr b FL_PRIO 2).wr b FL_RULE_CNT 0).wr b FL_PENDING 1
def subPend (s : State) : State :=
  (((s.wr (subShAt 5) SUB_VALID 1).wr (subShAt 5) SUB_LIST_CNT 1).wr (llistAt 0) ⟨0, 0, 11, 0⟩ 50).wr (subShAt 5) SUB_PENDING 1
def mgPend (s : State) : State := (s.wr (mgroupShAt 5) MGROUP_BASE 7).wr (mgroupShAt 5) MGROUP_PENDING 1
def gcPend (s : State) : State := ((s.wr (groupShAt 5) GROUP_WIN_US 700).wr (groupShAt 5) GROUP_TOL 9).wr (groupShAt 5) GROUP_PENDING 1
/-- Group 5: FIRST, members 0 and 1 on flows 21 and 22, a round open. -/
def roundUp (s : State) (r : Round) : State :=
  let mem (s : State) (f m : Nat) : State :=
    (((s.wr (flowAt f) FL_VALID 1).wr (flowAt f) FL_CONC_EN 1).wr (flowAt f) FL_CONC_GROUP 5).wr (flowAt f) FL_CONC_MEMBER m
  let s := mem (mem s 21 0) 22 1
  let s := (((s.wr (groupAt 5) GROUP_VALID 1).wr (groupAt 5) GROUP_METHOD 3).wr (groupAt 5) GROUP_MISS_N 9).wr (gstateAt 5) GSTATE_LIVE 3
  { s with conc := { s.conc with rounds := [(5, r)] } }
/-- Encoder 3 in mode 3 on axis 4; H is set. -/
def encUp : State :=
  let s := (ready.wr pgAXIS (encF AXIS_ENC_MODE 3) 3).wr pgTIME TIME_H_VALID 1
  let s := ((s.wr pgAXIS (axF AXIS_AX_SRC 4) 1).wr pgAXIS (axF AXIS_AX_ENC 4) 3).wr pgAXIS (axF AXIS_AX_COUNTS 4) 100
  { s with axis := { s.axis with encs := [(3, ⟨true, false, 40, none⟩)], axes := [(4, ⟨40, [(40, 7)], false, false, false, false, 9⟩)] } }
/-- Slot 6 armed on T of domain A, count 2, one host event. -/
def slotUp : State :=
  let b := slotAt 6
  ((((encUp.wr b SLOT_ARM 1).wr b SLOT_ARMED 1).wr b SLOT_DIR 1).wr b SLOT_TO_HOST 1).wr b SLOT_TARGET 5
/-- The edge message of encoder 2 of leaf 4 that axis 5 follows: one count. -/
def edgeMsg : List Byte := [3#8, 2#8, 1#8, 3#8] ++ beBytes 2 9 ++ zeros 2 ++ beBytes 8 100 ++ beBytes 8 0 ++ beBytes 4 50 ++ (beBytes 4 7 ++ beBytes 2 1 ++ [0#8, 0#8])
def edgeUp : State :=
  let s := ((ready.wr pgAXIS (axF AXIS_AX_SRC 5) 2).wr pgAXIS (axF AXIS_AX_ENC 5) 2).wr pgAXIS (axF AXIS_AX_LEAF 5) 4
  let s := s.wr (nodeAt 4) NODE_ADM_A 1
  { s with ring := { s.ring with inbox := [(0, 3, mkPkt 4 0x30 0 254 0 edgeMsg)] } }
/-- Ring port `p` with signal, in training with lock. -/
def trainUp (p : Nat) : State :=
  let s := ready.wr (pgRINGP p) RINGP_LSTATE 1
  s.setHop p { Hop.empty with signal := true, lock := true }
/-- Ring port `p` UP with 200 credits on each channel and one frame unacknowledged. -/
def hopUpSt (p : Nat) : State :=
  let s := ((hubActive.wr (pgRINGP p) RINGP_LSTATE 2).wr (pgRINGP p) RINGP_CR_ITEM 200).wr (pgRINGP p) RINGP_REPLAY_US 5
  s.setHop p { Hop.empty with signal := true, lock := true, hello := true, txSeq := 1, replay := [(0, 3, pktBytes (mkPkt 255 2 0 4 0 [1#8, 2#8]))] }
/-- A packet of node `src` and type `pt` to node `dst`. -/
def pktTo (src pt dst : Nat) : RingPkt := { mkPkt src pt 0 dst 0 (zeros 24) with hops := 9 }
/-- A SIG of a node, with incarnation 5. -/
def sigFrom (src type : Nat) : RingPkt :=
  mkPkt src 3 3 0 0 (zeros 4 ++ leBytes 1 type ++ zeros 5 ++ (if type = 17 then zeros 40 else leBytes 2 0x500 ++ zeros 40))
/-- One packet waiting, from ring `r`. -/
def inboxed (s : State) (r : Nat) (k : RingPkt) : State := { s with ring := { s.ring with inbox := [(r, 3, k)] } }
/-- Leaf 7 admitted on ring A. -/
def leafOn : State := hubActive.wr (nodeAt 7) NODE_ADM_A 1
def leafRec : DiscRec := ⟨7, false, true, true, false, 3, 5, 100, 100, 16, 1⟩
/-- Leaf 7 one hop east of this hub on ring A, with port 0 UP and credits. -/
def leafNear : State :=
  let s := ((leafOn.wr (pgRINGP 0) RINGP_LSTATE 2).wr (pgRINGP 0) RINGP_CR_CPL 200).wr (pgRINGP 1) RINGP_LSTATE 2
  { s with ring := { s.ring with topo := [(0, [leafRec])] } }
/-- A hub in a role and twin state, with lane 0 UP. -/
def twinSt (role ts : Nat) : State := ((ready.wr pgTWIN TWIN_ROLE role).wr pgTWIN TWIN_TSTATE ts).wr pgTWIN TWIN_LANES 1
def twinItem : LItem := ⟨⟨6, 2, false, false, false, false, 5, 45, 0, 900, 0, 0, 0, 0, [1#8, 2#8]⟩, .larder, 0, 0, 0, 0, 0, true, false, none⟩
def canCtl1 : CanCtl := ⟨false, false, 1, 0, 0, none, 0, [], none, none, false, none, [], [], [], [], none⟩
/-- CAN controller `n` of an active hub in NORMAL, with direct entry `e` pending. -/
def canQ (n e : Nat) : State :=
  (((hubActive.wr (pgCAN n) CAN_MODE 1).wr (pgCAN n) (qF CAN_Q_STATE e) 1).wr (pgCAN n) (qF CAN_Q_ID e) 0x123).setCtl n canCtl1
/-- Legal bit rates. -/
def canLegalSt (n : Nat) : State :=
  let b := pgCAN n
  let s := (((hubActive.wr b CAN_MODE 1).wr b CAN_NBRP 12).wr b CAN_NTSEG1 79).wr b CAN_NTSEG2 20
  let s := ((((s.wr b CAN_NSJW 10).wr b CAN_DBRP 30).wr b CAN_DTSEG1 15).wr b CAN_DTSEG2 4).wr b CAN_DSJW 2
  s
/-- Ethernet port `e` with link, frames of up to 1518 bytes. -/
def ethUpSt (e : Nat) : State := ((ready.wr (pgETH e) ETH_MODE 1).wr (pgETH e) ETH_LINK 1).wr (pgETH e) ETH_MAX_FRAME 1518
/-- Port 1 in group 2, 224.0.0.1 at 60001, its ingest entry enabled. -/
def dgSt : State :=
  let s := ((ethUpSt 1).wr (pgETH 1) ETH_RX_GRP 4).wr (pgETH 1) (ETH_GVALID.at 2 16) 1
  ((s.wr (pgETH 1) (ETH_GADDR.at 2 16) 0xE0000001).wr (pgETH 1) (ETH_GPORT.at 2 16) 60001).wr (ingestAt 41) INGEST_RX_EN 1
/-- A frame with a datagram for it. -/
def dgFrame : List Byte :=
  let h := fun (c : Nat) => beBytes 2 0x4500 ++ beBytes 2 40 ++ zeros 4 ++ beBytes 2 0x0111 ++ beBytes 2 c ++ beBytes 4 0x0A000001 ++ beBytes 4 0xE0000001
  zeros 12 ++ beBytes 2 0x0800 ++ h (csum16 (h 0)) ++ (zeros 2 ++ beBytes 2 60001 ++ beBytes 2 20 ++ zeros 2 ++ tokUdPbC ++ zeros 6) ++ zeros 6
/-- Engine `n` running on the live bank at address 4, in a region of 0 to 31, with word `w` there. -/
def tongSt (n w : Nat) : State :=
  let b := pgTONG n
  let s := ((hubActive.wr b PG_ENABLE 1).wr b TONG_STALL 0).wr b TONG_PC 4
  ((s.wr b TONG_HI 31).wr b TONG_BANK (s.rd pgTONGS TONGS_LIVE_BANK)).wr pgTONGS (TONGS_LIVE.at 4 4) w
/-- The engine owns line 9, the first of its window. -/
def tongPinSt (n w : Nat) : State :=
  (((tongSt n w).wr (pgTONG n) TONG_PIN_BASE 9).wr (pgTONG n) TONG_PIN_CNT 2).wr (pgTONG 0) (lnF TONG_LN_OWNER 9) n
def tongPkt : TxPkt := ⟨4, 6, [1#8, 2#8, 3#8, 4#8, 5#8, 6#8, 7#8, 8#8, 9#8, 9#8, 9#8, 9#8], 3⟩
/-- A packet of three words waits in its transmit FIFO. -/
def tongTxSt (n w : Nat) : State := (tongSt n w).setLis (tongPort n) { LisPort.fresh with tx := [tongPkt], txp := 1 }
/-- The engine alone waits for its boundary in a swap; PROG_NEXT has ENTRY 9 in 8 to 15. -/
def tongWaitSt (n : Nat) : State :=
  (((tongSt n 0).wr pgTONGS TONGS_WAITING (2 ^ n)).wr pgTONGS PG_SHADOW_SWAP 1).wr (pgTONG n) TONG_PROG_NEXT (9 + 8 * 256 + 15 * 65536)
/-- Both channels in service, 1 GiB each, with a host region of 4096 bytes at 0. -/
def celSt : State :=
  let s := (ready.wr pgCELL (chState 0) 2).wr pgCELL (chState 1) 2
  { s with cel := { s.cel with cap0 := 2 ^ 30, cap1 := 2 ^ 30, hostSz := 4096 } }
def jItemRef : State :=
  { hubActive with del := { hubActive.del with items := [(9, twinItem)], queues := [(362, [⟨9, 5, 0, 0, 0, 0, false, 3, none⟩])] } }
/-- The strongbox in SERVICE; slot 5 LOADED under the root for DERIVE, slot 6 under slot 5. -/
def sbSt : State :=
  let s := (((ready.wr pgSBOX SBOX_SB_STATE 1).wr (metaAt 0) META_STATE 1).wr (metaAt 0) META_ALG 2)
  let b := metaAt 5
  let s := (((s.wr b META_STATE 1).wr b META_ALG 3).wr b META_ENG engDERIVE).wr b META_LEVEL 1
  let b := metaAt 6
  let s := (((s.wr b META_STATE 1).wr b META_ALG 1).wr b META_ENG engRING).wr b META_LEVEL 2
  { s.wr b META_PARENT 5 with sbox := { s.sbox with keys := [(5, zeros 32), (6, zeros 16)] } }
/-- GO of a UART test of port 3, MODE 0. -/
def uartTest : Word := BitVec.ofNat 32 (2 ^ TEST_SL_GO.lo + 2 ^ TEST_SL_TID.lo + 3 * 2 ^ TEST_SL_TARGET.lo)
/-- Slot 2 holds such a test in a state of its own. -/
def testSt (st : Nat) : State :=
  let s := ((ready.setTs 2 TEST_SL_TID 1).setTs 2 TEST_SL_TARGET 3).setTs 2 TEST_SL_RSTATE st
  { s with sys := { s.sys with tests := [(2, (3, none))] } }


/-! ### Results that the spec states, from its own tables and worked examples -/

/-- The three programs of the worked examples of the tongs chapter. -/
def progLog : List Nat := [0x28000101, 0x70000000, 0x01000001, 0x20000101, 0x58000000, 0x18000000, 0x20000100, 0x58000000, 0x18000000, 0x00000001]
def progGyro : List Nat := [0x28000707, 0x20000701, 0x78000000, 0x79000000, 0x0100000C, 0x9D000000, 0x44100001, 0x500000C2, 0x18000000, 0x0000000E]
def progSsi : List Nat := [0x20000101, 0x28000101, 0x1400000C, 0x20010100, 0x63A0000D, 0x20000101, 0x8C800000, 0x00000016]

theorem test_worked_programs_are_legal : (progLog ++ progGyro ++ progSsi).all tongLegal = true := by decide +kernel

theorem test_worked_ops : progSsi.map tongOp = [2, 2, 1, 2, 6, 2, 8, 0] := by decide +kernel

/-- PROG 0x001B_1414 has ENTRY 0x14, LO 0x14 and HI 0x1B, and is a legal region; ENTRY outside LO to HI is not. -/
theorem test_prog_region : progBad 0x001B1414 = false ∧ progBad 0x001B1413 = true := by decide +kernel

/-- The pin word 0x0008_0108 is PIN_BASE 8, PIN_CNT 1 and SCLK_LINE 8. -/
theorem test_pin_word : let s := ready.setWord (pgTONG 2) rows_TONG 0x44 0x00080108
    s.rd (pgTONG 2) TONG_PIN_BASE = 8 ∧ s.rd (pgTONG 2) TONG_PIN_CNT = 1 ∧ s.rd (pgTONG 2) TONG_SCLK_LINE = 8 := by
  decide +kernel

/-- Word 0x00 of the heading group, 0x0043_02B3: MEDIAN, PROV both, STAT_MODE 2, MIN_VALID 2, OUT_FLOW 0x0043. -/
theorem test_group_word : let s := ready.setWord (groupAt 1) rows_GROUP 0 0x004302B3
    s.rd (groupAt 1) GROUP_METHOD = 1 ∧ s.rd (groupAt 1) GROUP_PROV = 3 ∧ s.rd (groupAt 1) GROUP_STAT_MODE = 2 ∧
    s.rd (groupAt 1) GROUP_MIN_VALID = 2 ∧ s.rd (groupAt 1) GROUP_OUT_FLOW = 0x43 := by decide +kernel

/-- Gyrocompass 1 of the ingest chapter: leaf port at 38 400 baud, DELAY_NS 55, the edge of '$' at 412 008 746 ns and
26 624/65 536; STAMP_NS is 412 006 250. -/
theorem test_stamp_first : State.reset.stampOf
    { id := 0, port := 70, src := .sentence, remote := true, body := List.replicate 20 0#8
      cfg := ⟨true, 0, 0, false, false, false, false, 0, 250000, 0, false, false, 0, 55, 0, 0⟩
      first := 412008746 * 65536 + 26624, sent := 0, fin := 0, ingest := 0, born := 0, timeOk := true, dom := 0
      path256 := 0, words := 0, poison := false, leaf := 17, iseq := 0, host := [] } = 412006250 := by decide +kernel

/-- The same sentence with STAMP_PT END: the LF's start edge lies 4 947 916.667 ns later, STAMP_NS is 417 214 583. -/
theorem test_stamp_end : State.reset.stampOf
    { id := 0, port := 70, src := .sentence, remote := true, body := List.replicate 20 0#8
      cfg := ⟨true, 0, 2, false, false, false, false, 0, 250000, 0, false, false, 0, 55, 0, 0⟩
      first := 0, sent := 0, fin := 412008746 * 65536 + 26624 + 324266666667, ingest := 0, born := 0, timeOk := true, dom := 0
      path256 := 0, words := 0, poison := false, leaf := 17, iseq := 0, host := [] } = 417214583 := by decide +kernel

/-- The heartbeat sentence: the exclusive OR of IIHBT,60.0,A,1 is 0x1A. -/
theorem test_checksum : xorBytes (ascii "IIHBT,60.0,A,1") = 0x1A#8 ∧ xorBytes (ascii "HEHDT,123.45,T") = 0x1E#8 := by
  decide +kernel

/-- One count below 0 on an axis of 4 counts a turn is turn −1 and three quarters (R169 rounds down). -/
theorem test_axis_position : (ready.wr pgAXIS (axF AXIS_AX_COUNTS 3) 4).posOf 3 (-1) = 2 ^ 64 - 2 ^ 30 := by decide +kernel

/-- SYS_ID reads stepping A and device 0x2048 (R399). -/
theorem test_sys_id : ready.readWord 0x40 = 0x20484100 := by decide +kernel

/-- A wrong key leaves a page locked with LOCKED; the stored key unlocks it (R377). -/
theorem test_unlock : let s := (ready.wr (pgAt 0x91) PG_LOCK 1).wr (pgAt 0x91) PG_LKEY 77
    (s.unlockPage 0x91 78).on (pgAt 0x91) PG_LOCK = true ∧ (s.unlockPage 0x91 78).rd (pgAt 0x91) PG_ERR_CODE = 2 ∧
    (s.unlockPage 0x91 77).on (pgAt 0x91) PG_LOCK = false := by decide +kernel

/-- No word spells a command: the table gives no row any bits. -/
theorem test_no_word_decodes (n w : Nat) : decodeTableWord n w = none := rfl

/-- The cellar: a byte written is read back, and writing 0 leaves nothing listed. -/
theorem test_cellar_bytes : memRead (memPutAll [] 5 [7#8, 0#8, 9#8]) 4 5 = [0#8, 7#8, 0#8, 9#8, 0#8] ∧
    memPut (memPut [] 5 7#8) 5 0#8 = [] := by decide +kernel


/-! ### Witnesses: the hypotheses of each clause of a statement, met together -/

def wit1 : State := { ready with pending := [.poisonedWrite 4, .powerOn 9] }
def wit2 : State := { ready with pending := [.poisonedWrite 4] }
def wit3 : State := { ready with cells := [(5, 1#8)], pending := [.poisonedWrite 4] }
def wit4 : State := stepped { ready with cells := [(5, 1#8)], pending := [.poisonedWrite 4] }
def wit5 : State := stepped { ready with pending := [.poisonedWrite 4] }
def wit6 : State := (ready.wr (pgAt 8) PG_PG_EVT_EN 6).wr (pgAt 8) PG_POP 1
def wit7 : State :=
  { (ready.wr (pgAt 8) PG_PG_EVT_EN 6).wr (pgAt 8) PG_POP 1 with host := { ready.host with pop := List.replicate 256 ⟨0, false, 0, 0⟩ } }
def wit8 : State := (ready.wr (pgAt 8) PG_PG_EVT_EN 4).wr (pgAt 8) PG_POP 1
def wit9 : State := hubActive.refuse 0x91 1
def wit10 : State := { ready with sbox := { ready.sbox with op := some (ready.sbOpOf 1 false) } }
def wit11 : State := twinSt 3 1
def wit12 : State := (twinSt 3 1).wr pgTWIN TWIN_AUTO_REJOIN 1
def wit13 : State := (twinSt 3 1).wr pgTWIN TWIN_PATHS 1
def wit14 : State := { twinSt 3 1 with twin := { (twinSt 3 1).twin with relq := some (1, 0, 0) } }
def wit15 : State := twinSt 3 3
def wit16 : State := twinSt 3 2
def wit17 : State := (ready.raise 3 2).wr (pgAt 3) PG_POP 1
def wit18 : State := (let s := (ready.wr pgHOST (HOST_VEC_HOLDOFF_US.at 3 4) 2).wr pgHOST (msixMask 3) 0;
  { s with host := { s.host with vecWait := [1, 3], vecLast := [(3, 10)] } })
def wit19 : State := ready.wr pgHOST (pbaBit 40) 1
def wit20 : State :=
  { ready with host := { ready.host with pop := [⟨999999999, true, 31, 0xA3⟩, ⟨4, false, 1, 2⟩], pseq := 65535 } }
def wit21 : State := ready.wr (txringAt 3) TXRING_LOG2_SIZE 4
def wit22 : State := ready.wr (rxringAt 63) TXRING_LOG2_SIZE 4
def wit23 : State := ringUp 5 0 []
def wit24 : State := ringUp 69 0 []
def wit25 : State := ringUp 5 1 ([2#8, 0#8, 1#8] ++ List.replicate 29 0#8)
def wit26 : State := (((ringUp 5 2 (List.replicate 60 1#8)).wr (ringAt 5) TXRING_TYPE 1).wr (pgETH 0) ETH_MODE 1).wr
  (pgETH 0) ETH_LINK 1
def wit27 : State := leafUp.wr (nodeAt 1) NODE_ADM_A 1
def wit28 : State := (ready.wr (raAt 31) RA_STATE 2).wr pgHOST HOST_SLOTS_BUSY 1
def wit29 : State := ready.wr (pgAt 0x91) PG_LOCK 1
def wit30 : State := (ready.wr (pgAt 0x91) PG_LOCK 1).wr (pgAt 0x91) PG_LKEY 77
def wit31 : State := ready.wr (pgAt 0x63) PG_LOCK 1
def wit32 : State := ready.wr pgSBOX SBOX_SB_STATE 1
def wit33 : State := (ready.refuse 2 1).raise 2 4
def wit34 : State := (ready.raise 0x90 2).refuse 0x90 1
def wit35 : State := ready.wr (pgAt 0x63) PG_IN_RESET 1
def wit36 : State := (ready.wr pgPWR PWR_PD 7).wr pgPWR PWR_PD_STAT 1
def wit37 : State := (ready.wr pgPWR PWR_PD 7).wr pgPWR PWR_PD_STAT 3
def wit38 : State := ready.wr pgSBOX SBOX_TAMP_LATCH 3
def wit39 : State := { ready with sys := { ready.sys with devArm := some 3 } }
def wit40 : State := { ready with sys := { ready.sys with wipeArm := some 3 } }
def wit41 : State := State.reset
def wit42 : State := State.reset.wr pgPWR PWR_BOOT_STAGE 1
def wit43 : State := State.reset.wr pgPWR PWR_BOOT_STAGE 4
def wit44 : State := (State.reset.wr pgPWR PWR_BOOT_STAGE 5).wr pgSYS SYS_STRAPS 2
def wit45 : State := State.reset.wr pgPWR PWR_BOOT_STAGE 5
def wit46 : State := State.reset.wr pgPWR PWR_BOOT_STAGE 6
def wit47 : State := { ready with attic := { ready.attic with waiting := true, lastPoint := some 5 } }
def wit48 : State :=
  { ready with attic := { ready.attic with writing := some 9, images := [⟨3, 2, 8, true, 5, 6, 300000, []⟩, ⟨5, 2, 9, false, 7, 8, 300000, [(66048, 7)]⟩] } }
def wit49 : State := uartUp.wr (ingestAt 3) INGEST_SILENT 1
def wit50 : State := uartIn 4
def wit51 : State := uartIn 0
def wit52 : State := (let s := uartIn 4; s.setRx 3 { s.rxOf 3 with inChar := false })
def wit53 : State := { ready with held := [(ingestAt 3 + 4, 250000)] }
def wit54 : State := (ready.wr pgTWIN TWIN_ROLE 1).wr pgTWIN TWIN_TSTATE 3
def wit55 : State := ready.setLis 31 { LisPort.fresh with brk := 4 }
def wit56 : State := (uartUp.wr (pgUART 3) UART_DE_MODE 1).wr (pgUART 3) UART_DE 1
def wit57 : State := (ready.wr pgHOST HOST_C_POP_LOST 5).wr pgHOST ⟨0xC78, 0, 64, 0⟩ 7
def wit58 : State := (ready.icInc 3 4).icInc 2047 25
def wit59 : State := (ready.inc (flowCtrAt 9) (ctr 3)).inc (flowSnapAt 9) (ctr 2)
def wit60 : State := (ready.inc (ruleCtrAt 9) (ctr 3)).inc (ruleSnapAt 9) (ctr 2)
def wit61 : State := (ready.inc (ruleCtrAt 9) (ctr 3)).inc (flowCtrAt 9) (ctr 2)
def wit62 : State := ready.inc (groupCtrAt 511) (ctr 7)
def wit63 : State := ready.inc (queueCtrAt 16383) (ctr 7)
def wit64 : State := ready.inc (dispCtrAt 16383) (ctr 7)
def wit65 : State := ready.add (fifoAt 57) FIFO_TX_FLUSHED 44
def wit66 : State := ready.inc (frameCtrAt 40) (ctr 3)
def wit67 : State := (ready.wr pgPWR PWR_WAKE_EN 5).wr pgPWR PWR_WAKE_AT 77
def wit68 : State := hubActive.wr pgTWIN TWIN_TSTATE 3
def wit69 : State := (ready.wr pgPWR PWR_BOOT_STAGE 8).wr pgSBOX SBOX_TAMP_LATCH 3
def wit70 : State := { ready.wr pgPWR PWR_BOOT_STAGE 8 with sys := { ready.sys with wakeEn := 7 } }
def wit71 : State :=
  { ready.wr pgPWR PWR_BOOT_STAGE 8 with sys := { ready.sys with wakeEn := 0x107, canWake := 0x82 } }
def wit72 : State := { ready.wr pgPWR PWR_BOOT_STAGE 8 with sys := { ready.sys with wakeEn := 0x207, wakeAt := 2 } }
def wit73 : State := { ready with sys := { ready.sys with causes := 5, offAt := some 3 } }
def wit74 : State := { ready.wr pgPWR PWR_BOOT_STAGE 8 with sys := { ready.sys with wakeEn := 0x407 } }
def wit75 : State := dispatchUp hubActive [tongCand 8 45 9]
def wit76 : State := dispatchUp ready [tongCand 8 44 9] |>.setRx 44
  { RxPort.empty with wp := 2, cp := 2, cands := [tongCand 8 44 9] }
def wit77 : State := dispatchUp hubActive [tongCand 8 45 2041, tongCand 9 45 3]
def wit78 : State := dispatchUp ready []
def wit79 : State := builtUp hubActive 9
def wit80 : State := subUp (builtUp hubActive 9)
def wit81 : State :=
  { builtUp hubActive 9 with anvils := [(3, ⟨tongCand 8 45 9, 6, 900, 0, false, none, some (some 0x80), none, 0, 1000⟩)] }
def wit82 : State := builtUp ready 9
def wit83 : State := (ready.wr (pgANV 3) ANV_IN_DISPATCH 1).wr (pgANV 3) ANV_GOLD_PERIOD 2
def wit84 : State := (ready.wr (pgANV 3) PG_ENABLE 1).wr (pgANV 3) ANV_GOLD_FAILED 1
def wit85 : State := (ready.setLis 3 { LisPort.fresh with tx := [⟨77, 1, [1#8, 2#8, 3#8], 1⟩] }).wr (pgUART 3)
  UART_TX_BUSY 1
def wit86 : State := queued hubActive 0 0 0 .larder
def wit87 : State := queued hubActive 0 0 0 .spilled
def wit88 : State := ready.setLis 3
  { LisPort.fresh with tx := [⟨77, 1, [1#8, 2#8, 3#8], 1⟩], onWire := true, gap := 40 }
def wit89 : State := queued hubActive 0 1 70 .spilled
def wit90 : State := { ready with del := { ready.del with holds := [(50, 9, 4), (50, 8, 4)] } }
def wit91 : State := queued hubActive 1 0 0 .larder
def wit92 : State := ready.wr (lportAt 50) LPORT_STAT_PERIOD_S 1
def wit93 : State := { ready with held := [(lportAt 50 + 0x0C, 100)] }
def wit94 : State := { ready with held := [(lportAt 50 + 0x0C, 7)] }
def wit95 : State := (queued hubActive 0 0 0 .spilling).wr pgLARD LARD_FETCH_AHEAD 0
def wit96 : State := queued hubActive 0 0 0 .fetching
def wit97 : State := flowPend ready
def wit98 : State := rulePend ready
def wit99 : State := gcPend ready
def wit100 : State := subPend ready
def wit101 : State := mgPend ready
def wit102 : State := (flowPend ready).wr (flowShAt 5) FL_KTYPE 0
def wit103 : State := (rulePend ready).wr (ruleShAt 9) RL_FORMAT 15
def wit104 : State := (flowPend ready).wr (pgAt 0x91) PG_SHADOW_SWAP 1
def wit105 : State := ((rulePend ready).wr (ruleShAt 0x7FF) RL_B 3).wr (ruleShAt 0x7FF) RL_PENDING 1
def wit106 : State := ready.wr (pgAt 0x91) PG_SHADOW_SWAP 1
def wit107 : State := roundUp hubActive ⟨[], 50, some 1, none, 0, none⟩
def wit108 : State := roundUp hubActive ⟨[⟨0, anItem 9 0, false, none⟩], 50, none, none, 0, none⟩
def wit109 : State := roundUp hubActive ⟨[], 500000, some 1, none, 0, none⟩
def wit110 : State := (roundUp hubActive ⟨[], 50, some 1, none, 0, none⟩).wr (gstateAt 5) GSTATE_RUNS 0x31
def wit111 : State := ready.wr (fstateAt 7) FSTATE_QUAR 1
def wit112 : State := ready.wr (pquarAt 7) PQUAR_V 1
def wit113 : State := ((ready.wr pgTIME TIME_SET_S 100).wr pgTIME TIME_SET_NS 7).setOfs 1 44
def wit114 : State := ready.wr pgTIME TIME_H_VALID 1
def wit115 : State := ((ready.wr pgTIME TIME_H_VALID 1).wrI pgTIME TIME_STEP_S (-2)).wrI pgTIME TIME_STEP_NS (-7)
def wit116 : State := { ready with time := { ready.time with step := some (-200), h := 700 } }
def wit117 : State := (ready.wrI pgTIME (domF TIME_DOM_RATE 0) (-55)).wr pgTIME TIME_SEL_MODE 0
def wit118 : State := (ready.setOfs 1 (-44)).wr pgTIME TIME_SEL_DOM 1
def wit119 : State := ((ready.wr pgTIME TIME_LEAP_V 1).wr pgTIME TIME_LEAP_S 3).wr pgTIME TIME_LEAP_OFS 38
def wit120 : State := (ready.wr pgTIME TIME_LEAP_V 1).wr pgTIME TIME_LEAP_S 3
def wit121 : State := ((hubActive.wr pgTIME TIME_H_VALID 1).wr (pgRINGP 1) RINGP_LSTATE 2).wr (pgRINGP 3)
  RINGP_LSTATE 2
def wit122 : State := ((ready.wr pgTIME (domF TIME_DOM_SRC 1) 3).wr pgTIME (domF TIME_DOM_SMP_NS 1) 5).wrI pgTIME
  (domF TIME_DOM_SMP_OFS 1) (-7)
def wit123 : State := (ready.wr pgTIME (domF TIME_DOM_SRC 1) 3).wr pgTIME (domF TIME_DOM_SMP_NS 1) 5
def wit124 : State := ready.wr pgTIME (domF TIME_DOM_SMP_NS 1) 1000000000
def wit125 : State := ready.wr pgTIME (stateFld 1) 1
def wit126 : State := ready.wr pgTIME (stateFld 1) 2
def wit127 : State := (ready.wr pgTIME (ppsF TIME_PPSI_EN 1) 1).wr pgTIME (ppsF TIME_PPSI_CABLE_NS 1) 20
def wit128 : State := (let s := ready.wr pgTIME (ppsF TIME_PPSI_EN 1) 1;
  { s with time := { s.time with ppsAt := [(1, 50)] } })
def wit129 : State := ready.wr pgTIME (ppsF TIME_PPSI_EN 1) 1
def wit130 : State := { ready with time := { ready.time with ppsGap := [1] } }
def wit131 : State := (((ready.wr pgTIME TIME_H_VALID 1).wr pgTIME (ppsF TIME_PPSO_EN 1) 1).wr pgTIME (ppsF
  TIME_PPSO_PERIOD_NS 1) 1000000000).wrI pgTIME (ppsF TIME_PPSO_ADV_NS 1) (-30)
def wit132 : State := ((ready.wr pgTIME TIME_H_VALID 1).wr pgTIME (ppsF TIME_PPSO_EN 1) 1).wr pgTIME (ppsF
  TIME_PPSO_GATE 1) 1
def wit133 : State := encUp.wr pgAXIS (encF AXIS_ENC_Z_MODE 3) 1
def wit134 : State := ((encUp.wr pgTWIN TWIN_ROLE 2).wr pgAXIS (axF AXIS_AX_TX_US 4) 100).wr (pgRINGP 2) RINGP_LSTATE
  2
def wit135 : State := { ready with ring := { ready.ring with inbox := [(0, 3, mkPkt 4 0x30 0 254 0 edgeMsg)] } }
def wit136 : State := { slotUp with held := [(slotAt 6 + 8, 77000)] }
def wit137 : State := { slotUp with twin := { slotUp.twin with atH := [(5, slotAt 6, 0x10)] } }
def wit138 : State := (trainUp 2).setHop 2 { Hop.empty with signal := true }
def wit139 : State := trainUp 2
def wit140 : State := (trainUp 2).setHop 2
  { Hop.empty with signal := true, lock := true, trains := 2, peerMax := 3, peerMin := 2, peerMinor := 1, peerCred := [512, 256, 2048] }
def wit141 : State := (trainUp 2).wr (pgRINGP 2) RINGP_RATE_CTL 1
def wit142 : State := hopUpSt 3
def wit143 : State :=
  { trainUp 2 with ring := { (trainUp 2).ring with hops := [(2, { Hop.empty with signal := true, lock := true, hello := true, peerCred := [512, 256, 2048] })] } }
def wit144 : State :=
  { trainUp 2 with ring := { (trainUp 2).ring with hops := [(2, { Hop.empty with signal := true, lock := true, hello := true })] } }
def wit145 : State := ready.setHop 5 { Hop.empty with signal := true, lock := true, hello := true }
def wit146 : State :=
  { hopUpSt 2 with ring := { (hopUpSt 2).ring with hops := [(2, { Hop.empty with signal := true, lock := true, hello := true })] } }
def wit147 : State := ready.wr (pgETH 1) ETH_LINK 1
def wit148 : State := hopUpSt 2
def wit149 : State := (hopUpSt 2).setHop 2 { Hop.empty with rxq := [(3, zeros 9), (1, zeros 8)] }
def wit150 : State := (hopUpSt 2).setHop 2 { Hop.empty with rxq := [(3, pktBytes (pktTo 7 1 ready.nodeId))] }
def wit151 : State := ((hopUpSt 3).wr (pgRINGP 3) RINGP_CR_CPL 100).setHop 2
  { Hop.empty with rxq := [(1, pktBytes (pktTo 7 32 9))] }
def wit152 : State := inboxed hubActive 1 (pktTo 7 1 254)
def wit153 : State := inboxed { leafOn with ring := { leafOn.ring with iseq := [(7, ⟨0, 0, [], [], []⟩)] } } 0 (pktTo
  7 1 254)
def wit154 : State := inboxed leafOn 0 (pktTo 7 1 254)
def wit155 : State :=
  { leafOn with ring := { leafOn.ring with iseq := [(7, ⟨0, 4, [(2, 1), (3, 9000000000)], [], []⟩)] } }
def wit156 : State := inboxed leafNear 0 (pktTo 7 17 254)
def wit157 : State := inboxed leafNear 0 (pktTo 7 16 254)
def wit158 : State := inboxed leafOn 0 (pktTo 7 32 254)
def wit159 : State := inboxed
  { leafOn with ring := { leafOn.ring with tags := [(4, 1, ⟨7, true, 4, 0, [], .ra 9⟩)], tgen := [(4, 1)] } } 0
  { pktTo 7 32 254 with payload := [0#8, 4#8, 0#8, 0#8] }
def wit160 : State := { leafOn with ring := { leafOn.ring with tags := [(4, 1, ⟨7, true, 4, 0, [], .ra 9⟩)] } }
def wit161 : State := inboxed hubActive 1 (sigFrom 255 1)
def wit162 : State := inboxed hubActive 1 (sigFrom 7 1)
def wit163 : State := inboxed hubActive 1 (sigFrom 255 2)
def wit164 : State := inboxed (leafOn.wr pgTWIN TWIN_ROLE 1) 0 (sigFrom 7 3)
def wit165 : State := inboxed leafOn 0 (sigFrom 7 5)
def wit166 : State := inboxed (leafOn.wr (portmapAt 70) PORTMAP_VALID 1 |>.wr (portmapAt 70) PORTMAP_LEAF 7) 0
  (sigFrom 7 6)
def wit167 : State := { leafOn with ring := { leafOn.ring with sigHeld := [(1, sigFrom 7 5)] } }
def wit168 : State := inboxed hubActive 1 (sigFrom hubActive.nodeId 16)
def wit169 : State := inboxed leafOn 0 (sigFrom 7 17)
def wit170 : State := hubActive.wr pgTWIN TWIN_ROLE 3
def wit171 : State := inboxed ready 0 { pktTo 255 4 254 with payload := discBytes leafRec }
def wit172 : State := { hubActive with ring := { hubActive.ring with passAt := [(0, 4)] } }
def wit173 : State := { leafOn with ring := { leafOn.ring with switching := [(9, ⟨[70, 71], 0, [], false⟩)] } }
def wit174 : State := hubActive.wr pgTWIN TWIN_LANES 1
def wit175 : State := twinSt 1 1
def wit176 : State := twinSt 2 1
def wit177 : State := (twinSt 1 1).wr pgTWIN TWIN_PEER_ROLE 2
def wit178 : State := (twinSt 1 1).wr pgTWIN TWIN_PATHS 5
def wit179 : State := ready.wr pgSYS SYS_FIRST 1
def wit180 : State := (ready.wr pgTWIN TWIN_PATHS 2).wr pgTWIN TWIN_PEER_ROLE 2
def wit181 : State := hubActive.wr pgTWIN TWIN_EXPECT_LEAVES 3
def wit182 : State := hubActive.wr pgTWIN TWIN_PATHS 1
def wit183 : State := (ready.wr pgTWIN TWIN_ROLE 1).wr pgSYS SYS_FIRST 1
def wit184 : State := (ready.wr pgTWIN TWIN_ROLE 1).wr pgTWIN TWIN_EXPECT_LEAVES 3
def wit185 : State := ((twinSt 2 3).wr pgTWIN TWIN_RELQ_MASK 8).wr pgTWIN TWIN_LANES 0
def wit186 : State := twinSt 1 3
def wit187 : State := twinSt 2 3
def wit188 : State := { twinSt 1 1 with twin := { (twinSt 1 1).twin with relq := some (2, 9, 3) } }
def wit189 : State := hubActive.wr pgTWIN TWIN_HOLD_BUS 1
def wit190 : State := { twinSt 2 3 with twin := { (twinSt 2 3).twin with handing := true } }
def wit191 : State := twinSt 1 2
def wit192 : State := { twinSt 1 3 with twin := { (twinSt 1 3).twin with loaded := true } }
def wit193 : State :=
  { (twinSt 2 3).wr pgTWIN TWIN_LPOS_TX 4 with twin := { (twinSt 2 3).twin with recs := [(2, 1, .mark 1 7), (3, 2, .mark 0 7)] } }
def wit194 : State := { twinSt 2 3 with twin := { (twinSt 2 3).twin with recs := [(2, 1, .mark 1 7)] } }
def wit195 : State :=
  { (twinSt 1 3).wr pgTWIN TWIN_LANES 2 with twin := { (twinSt 1 3).twin with loaded := true, store := [(0, 3, .admission false 7 1 2 5 9)] } }
def wit196 : State :=
  { hubActive with del := { hubActive.del with items := [(9, { twinItem with lpos := 78, leaf := 7, iseq := 2 })] } }
def wit197 : State := { twinSt 2 2 with twin := { (twinSt 2 2).twin with drainAt := some 4 } }
def wit198 : State := twinSt 2 2
def wit199 : State := (twinSt 1 3).setRx 45 { RxPort.empty with wp := 3, cp := 3, cands := [tongCand 8 45 12] }
def wit200 : State := (twinSt 1 3).wr pgTIME TIME_H_VALID 1
def wit201 : State := canQ 3 5
def wit202 : State := (canQ 3 5).setCtl 3 { canCtl1 with att := some ⟨5, 77, [1#8], false⟩, tec := 9 }
def wit203 : State := ((canQ 3 5).wr (pgCAN 3) (qF CAN_Q_ONESHOT 5) 1).setCtl 3
  { canCtl1 with att := some ⟨5, 77, [1#8], false⟩, tec := 250 }
def wit204 : State := (canQ 3 5).wr (pgCAN 3) CAN_EFF_MON 1
def wit205 : State := (canQ 3 5).wr (ingestAt 35) INGEST_RX_EN 1
def wit206 : State := (canQ 3 5).setCtl 3 { canCtl1 with att := some ⟨5, 77, [1#8], false⟩ }
def wit207 : State := canLegalSt 3
def wit208 : State := (canLegalSt 3).setCtl 3 { canCtl1 with integ := true, run := 0 }
def wit209 : State := (canQ 3 5).wr (pgCAN 3) CAN_ESTATE 2
def wit210 : State := ((canQ 3 5).wr (pgCAN 3) CAN_ESTATE 2).wr (pgCAN 3) CAN_BO_AUTO 1
def wit211 : State := (canQ 3 5).wr (pgCAN 3) CAN_BO_AUTO 0
def wit212 : State := ((canLegalSt 3).wr (pgCAN 3) (vnF CAN_VN_EN 2) 1).wr (pgCAN 3) (vnF CAN_PREF_SA 2) 77
def wit213 : State := (canLegalSt 3).setCtl 3 { canCtl1 with claims := [(2, 77, 3)] }
def wit214 : State := { ready with can := { ready.can with fps := [⟨35, 1, 2, 3, 6, 255, 20, [], 0, [], 1, 4⟩] } }
def wit215 : State :=
  { ready with can := { ready.can with tps := [⟨35, 1, 255, 3, 6, 20, 3, 255, [], 1, 3, false, 1, 40⟩] } }
def wit216 : State := ready.setCtl 3 { canCtl1 with bamAt := some 9 }
def wit217 : State := ready.wr (pgCAN 3) CAN_MODE 6
def wit218 : State := ((ready.wr (pgCAN 3) CAN_ASLEEP 1).wr (pgCAN 3) CAN_WAKE_MODE 1).wr (pgCAN 3) CAN_WAKE_FILT_US
  2
def wit219 : State := ethUpSt 1
def wit220 : State := (ethUpSt 1).wr (pgETH 1) ETH_MAX_FRAME 63
def wit221 : State := (ethUpSt 1).wr (pgETH 1) ETH_PAUSE_RX 1
def wit222 : State := ((ethUpSt 1).wr (pgETH 1) ETH_MACSEC_EN 1).wr (pgETH 1) ETH_VALIDATE 2
def wit223 : State := ((ethUpSt 1).wr (pgETH 1) ETH_LINK 0).wr (pgETH 1) ETH_MODE 2
def wit224 : State := ready.wr (pgETH 1) ETH_IGMP_EN 0
def wit225 : State := ready.wr (pgAt 0x19) PG_LOCK 1
def wit226 : State := tongSt 3 0x00000005
def wit227 : State := (tongSt 3 0x01000005).wr (pgTONG 3) TONG_W0 7
def wit228 : State := tongSt 3 0x0000003F
def wit229 : State := tongSt 3 0xF0000000
def wit230 : State := tongSt 3 0x38001234
def wit231 : State := (tongSt 3 0x3A001234).wr (pgTONG 3) (tongW 2) 0xABCDEF01
def wit232 : State := tongSt 3 0x45100001
def wit233 : State := (tongSt 3 0x42080000).wr (pgTONG 3) TONG_W0 0x1FF
def wit234 : State := tongSt 3 0x50000123
def wit235 : State := tongSt 3 0xA0000007
def wit236 : State := tongSt 3 0xA8000042
def wit237 : State := ((tongSt 3 0x90400000).wr (pgTONG 3) (TONG_LUT.at 9 4) 0x44332211).wr (pgTONG 3) TONG_ST 2
  |>.wr (pgTONG 3) TONG_W0 6
def wit238 : State := tongPinSt 3 0x20000101
def wit239 : State := (tongPinSt 3 0x20000101).wr (pgTONG 0) (lnF TONG_LN_OWNER 9) 4
def wit240 : State := (tongSt 3 0x64000005).wr (pgTONG 3) TONG_W0 0x35
def wit241 : State := tongSt 3 0x60200005
def wit242 : State := tongTxSt 3 0x70000000
def wit243 : State := tongSt 3 0x78000000
def wit244 : State := ((tongSt 3 0x80000000).wr (ingestAt 45) INGEST_RX_EN 1).wr (pgTONG 3) TONG_W0 0x11223344
def wit245 : State := ((tongSt 3 0x88000000).wr (ingestAt 45) INGEST_RX_EN 1).setRx 45
  { RxPort.empty with wp := 4096, cp := 4096 }
def wit246 : State := (tongTxSt 3 0x78000000).wr (pgTONG 3) TONG_STALL 3
def wit247 : State := (tongSt 3 0x78000000).wr (pgTONG 3) TONG_STALL 3
def wit248 : State := (tongSt 3 0x18000000).setEng 3 { TongEng.fresh with tmr := 9999999 }
def wit249 : State := tongSt 3 0x18000000
def wit250 : State := (tongSt 3 0x17000002).wr (pgTONG 3) TONG_STALL 1
def wit251 : State := hubActive.wr (pgTONG 3) TONG_HI 63
def wit252 : State := tongSt 3 0
def wit253 : State := tongTxSt 3 0
def wit254 : State := (hubActive.wr pgTONGS (TONGS_SHADOW.at 5 4) 0x38001234).wr pgTONGS (TONGS_LIVE.at 5 4) 7
def wit255 : State := tongWaitSt 3
def wit256 : State := ((tongWaitSt 3).wr pgTONGS TONGS_AUTO_FORCE 1).wr pgTONGS TONGS_SWAP_TO_US 1
def wit257 : State := ready.wr pgCELL (chState 1) 1
def wit258 : State := { celSt with cel := { celSt.cel with ue1 := 99999 } }
def wit259 : State := celSt.wr pgCELL CELL_CE_RETIRE 5
def wit260 : State :=
  { hubActive.wr pgLARD LARD_CELLS_USED (itemCells twinItem.item) with del := { hubActive.del with items := [(9, { twinItem with jrnl := false })] } }
def wit261 : State := { celSt with jrnl := { celSt.jrnl with cur := some ⟨0, 5, 9, 0, [], 3⟩ } }
def wit262 : State := ready.wr pgJRNL (JRNL_W_STATE.at 2 32) 1
def wit263 : State := (List.range 4).foldl (fun s w => s.wr pgJRNL (JRNL_W_STATE.at w 32) 2) ready
def wit264 : State := (ready.wr pgJRNL (JRNL_W_STATE.at 2 32) 1).wr pgJRNL JRNL_POST_S 0
def wit265 : State := ready.wr pgJRNL (JRNL_W_STATE.at 2 32) 2
def wit266 : State := sbSt.wr pgSBOX SBOX_CLEAR_LOCK 1
def wit267 : State := { sbSt with sbox := { sbSt.sbox with op := some (sbSt.sbOpOf 1 false) } }
def wit268 : State := State.reset.wr pgPWR PWR_BOOT_STAGE 3
def wit269 : State := { sbSt with cel := { sbSt.cel with hostSz := 4096 } }
def wit270 : State := { sbSt with sbox := { sbSt.sbox with op := some (sbSt.sbOpOf 4 false) } }
def wit271 : State := { sbSt with sbox := { sbSt.sbox with op := some { sbSt.sbOpOf 3 false with slot := 5 } } }
def wit272 : State :=
  { sbSt with sbox := { sbSt.sbox with op := some { sbSt.sbOpOf 1 false with slot := 9, src := 5, alg := 1, eng := engRING } } }
def wit273 : State := sbSt.wr pgSBOX SBOX_TAMP_LATCH 5
def wit274 : State := hubActive.wr (ingestAt 3) INGEST_RX_EN 1
def wit275 : State := ready.setTs 2 TEST_SL_RSTATE 3
def wit276 : State := testSt 1
def wit277 : State := testSt 2
def wit278 : State := ((testSt 2).wr pgTWIN TWIN_ROLE 2).wr (ingestAt 3) INGEST_RX_EN 1
def wit279 : State := (testSt 2).setTs 2 TEST_SL_DURATION_MS 1
def wit280 : State := testSt 4
def wit281 : State := ready.wr pgTWIN TWIN_HEALTH 0x201
def wit282 : State := (testSt 2).setTs 2 TEST_SL_TID 0
def wit283 : State :=
  { (testSt 2).setTs 2 TEST_SL_TID 0 with sys := { (testSt 2).sys with tests := [(2, (3, some 4))] } }
def wit284 : State := ready.wr (pgAt 8) PG_LOCK 1

theorem witness_AStepTakesTheFrontCommand :
    (∃ (s : State) (c : Instr) (rest : List Instr), s.pending = c :: rest) ∧
    (∃ (s : State), s.pending = []) :=
  ⟨⟨wit1, .poisonedWrite 4, [.powerOn 9], by decide +kernel⟩,
   ⟨ready, by decide +kernel⟩⟩

theorem witness_WaitingCommandsRunInOrder :
    (∃ (s : State) (n : Nat), n ≤ s.pending.length) ∧
    (∃ (s : State) (u : State) (n : Nat) (c : Instr), Sys2Proof.core.run n s = .next u ∧ n < s.pending.length ∧
      s.pending[n]? = some c) ∧
    (∃ (s : State) (n : Nat), s.pending.length ≤ n) :=
  ⟨⟨wit1, 2, by decide +kernel⟩,
   ⟨wit1, wit1, 0, .poisonedWrite 4, by exact ⟨rfl, by decide +kernel, rfl⟩⟩,
   ⟨wit2, 3, by decide +kernel⟩⟩

theorem witness_StepsKeepTheCellarCanonical :
    (∃ (s : State) (u : State), Memory.wf s.cells = true ∧ step s = .next u) :=
  ⟨wit3, wit4, by exact ⟨by decide +kernel, rfl⟩⟩

theorem witness_StepsKeepLinkNumbersInRange :
    (∃ (s : State) (u : State), s.linksFit ∧ step s = .next u) :=
  ⟨wit2, wit5, by exact ⟨fun _ => ⟨Nat.zero_lt_succ 65535, Nat.zero_lt_succ 65535⟩, rfl⟩⟩

theorem witness_AnIllegalWriteIsDiscardedWhole :
    (∃ (s : State) (a : Nat) (v : BitVec 64) (p : Place), a < 2 ^ 24 ∧ a % 4 = 0 ∧ isHole a = false ∧ placeOf a =
      some p ∧ p.plain a (v.toNat % 2 ^ 32) ∧ (if p.page = 5 then s.reachesSbox else s.reaches p.page p.carried) ∧
      s.illegalAt p (v.toNat % 2 ^ 32)) ∧
    (∃ (s : State) (a : Nat) (v : BitVec 64) (p : Place) (q : Place), a < 2 ^ 24 ∧ a % 8 = 0 ∧ isHole a = false ∧
      placeOf a = some p ∧ placeOf (a + 4) = some q ∧ p.page = q.page ∧ 0x40 ≤ p.off ∧ q.plain (a + 4) (v.toNat / 2 ^
      32 % 2 ^ 32) ∧ (if p.page = 5 then s.reachesSbox else s.reaches p.page p.carried) ∧ p.isPage = true ∧
      s.illegalAt q (v.toNat / 2 ^ 32 % 2 ^ 32)) :=
  ⟨⟨ready, 0x6048, 7#64, (placeOf 0x6048).getD ⟨0, 0, [], false, 0, false, false⟩, by delta State.reachesSbox State.reaches State.illegalAt Place.plain; decide +kernel⟩,
   ⟨ready, 0x6040, BitVec.ofNat 64 (7 * 2 ^ 32 + 400), (placeOf 0x6040).getD ⟨0, 0, [], false, 0, false, false⟩, (placeOf 0x6044).getD ⟨0, 0, [], false, 0, false, false⟩, by delta State.reachesSbox State.reaches State.illegalAt Place.plain; decide +kernel⟩⟩

theorem witness_EventsPushOnePopRecordEach :
    (∃ (s : State) (page : Nat) (b : Nat), page < 256 ∧ pageListed page = true ∧ b < 32 ∧ s.pends page b = false ∧
      (s.rd (pgAt page) PG_PG_EVT_EN).testBit b = true ∧ s.on (pgAt page) PG_POP = true ∧ s.host.pop.length < 256) ∧
    (∃ (s : State) (page : Nat) (b : Nat), (page < 256 ∧ pageListed page = true ∧ b < 32 ∧ (page = 1 → b ≠ 4) ∧
      s.pends page b = false ∧ (s.rd (pgAt page) PG_PG_EVT_EN).testBit b = true ∧ s.on (pgAt page) PG_POP = true ∧
      256 ≤ s.host.pop.length)) ∧
    (∃ (s : State) (page : Nat) (b : Nat), (page < 256 ∧ pageListed page = true ∧ b < 32 ∧ (s.pends page b = true ∨
      (s.rd (pgAt page) PG_PG_EVT_EN).testBit b = false ∨ s.on (pgAt page) PG_POP = false))) :=
  ⟨⟨wit6, 8, 2, by decide +kernel⟩,
   ⟨wit7, 8, 2, by decide +kernel⟩,
   ⟨wit8, 8, 1, by decide +kernel⟩⟩

theorem witness_SrstOfSharedUnitsClearsTheHeader :
    (∃ (s : State) (page : Nat), (page < 256 ∧ srstLight page = true ∧ page ≠ 5 ∧ s.reachesCtrl page (pageCarried
      page) ∧ (pageCarried page = true → s.tstate < 2))) ∧
    (∃ (s : State) (o : SbOp), s.reachesCtrl 5 false ∧ s.sbox.op = some o) :=
  ⟨⟨wit9, 0x91, by delta State.reachesCtrl; decide +kernel⟩,
   ⟨wit10, ready.sbOpOf 1 false, by delta State.reachesCtrl; decide +kernel⟩⟩

theorem witness_ASealedHubStaysSealed :
    (∃ (s : State), s.role = 3 ∧ s.reaches 8 false) ∧
    (∃ (s : State), s.role = 3 ∧ s.reaches 8 false) ∧
    (∃ (s : State) (role : Nat), s.role = 3 ∧ role < 4) ∧
    (∃ (s : State), s.role = 3) ∧
    (∃ (s : State), s.role = 3) ∧
    (∃ (s : State), s.role = 3) ∧
    (∃ (s : State), s.role = 3) ∧
    (∃ (s : State), s.role = 3) ∧
    (∃ (s : State), s.role = 3) ∧
    (∃ (s : State), s.role = 3) ∧
    (∃ (s : State), s.role = 3) ∧
    (∃ (s : State), s.role = 3) ∧
    (∃ (s : State), s.role = 3) ∧
    (∃ (s : State), s.role = 3) ∧
    (∃ (s : State), s.role = 3) ∧
    (∃ (s : State), s.role = 3) :=
  ⟨⟨wit11, by delta State.reaches; decide +kernel⟩,
   ⟨wit11, by delta State.reaches; decide +kernel⟩,
   ⟨wit12, 2, by decide +kernel⟩,
   ⟨wit11, by decide +kernel⟩,
   ⟨wit11, by decide +kernel⟩,
   ⟨wit13, by decide +kernel⟩,
   ⟨wit14, by decide +kernel⟩,
   ⟨wit15, by decide +kernel⟩,
   ⟨wit15, by decide +kernel⟩,
   ⟨wit11, by decide +kernel⟩,
   ⟨wit15, by decide +kernel⟩,
   ⟨wit15, by decide +kernel⟩,
   ⟨wit16, by decide +kernel⟩,
   ⟨wit15, by decide +kernel⟩,
   ⟨wit11, by decide +kernel⟩,
   ⟨wit15, by decide +kernel⟩⟩

theorem witness_HostEventCommandsComplete :
    (∃ (page : Nat), page < 256 ∧ pageListed page = true) ∧
    (∃ (page : Nat), page < 256 ∧ pageListed page = true) ∧
    (∃ (s : State) (page : Nat) (b : Nat), page < 256 ∧ pageListed page = true ∧ b < 32 ∧ s.pends page b = true ∧
      s.rd (pgAt page) PG_PG_EVT_EN = 0 ∧ s.on (pgAt page) PG_POP = true ∧ s.on (pgAt page) PG_MSG = false ∧
      s.host.pop.length < 256) ∧
    (∃ (s : State) (t : Nat) (v : Nat) (l : Nat), v < 64 ∧ s.host.vecWait.contains v = true ∧ tabGet? s.host.vecLast
      v = some l ∧ l + s.rd pgHOST (HOST_VEC_HOLDOFF_US.at v 4) * usU ≤ max s.time.clk t) ∧
    (∃ (s : State) (v : Nat), v < 64 ∧ s.reaches 1 false ∧ s.on pgHOST (pbaBit v) = false) ∧
    (∃ (s : State) (v : Nat), v < 64 ∧ s.reaches 1 false ∧ s.on pgHOST (pbaBit v) = true ∧ s.rd pgHOST
      (HOST_VEC_HOLDOFF_US.at v 4) = 0) :=
  ⟨⟨3, by decide +kernel⟩,
   ⟨3, by decide +kernel⟩,
   ⟨wit17, 3, 2, by decide +kernel⟩,
   ⟨wit18, 200000000, 3, 10, by decide +kernel⟩,
   ⟨ready, 9, by delta State.reaches; decide +kernel⟩,
   ⟨wit19, 40, by delta State.reaches; decide +kernel⟩⟩

theorem witness_PopWindowAndRefusedAccesses :
    (∃ (s : State) (r : PopRec) (l : List PopRec), s.host.pop = r :: l) ∧
    (∃ (s : State), s.host.pop = []) :=
  ⟨⟨wit20, ⟨999999999, true, 31, 0xA3⟩, [⟨4, false, 1, 2⟩], by decide +kernel⟩,
   ⟨ready, by decide +kernel⟩⟩

theorem witness_DescriptorRingCommandsComplete :
    (∃ (s : State) (ring : Nat) (rx : Bool) (word : Word), ring < 64 ∧ s.reachesWin false ∧ (s.setWord (ringAt (ring
      + 64 * rx.toNat)) rows_TXRING 0 word.toNat).ringBad s (ring + 64 * rx.toNat) = false) ∧
    (∃ (s : State) (ring : Nat) (tail : Nat), ring < 64 ∧ s.reachesWin false ∧ tail < s.ringSize ring ∧ s.rd
      (txringAt ring) TXRING_LOG2_SIZE ≤ 14) ∧
    (∃ (s : State) (ring : Nat) (tail : Nat), ring < 64 ∧ s.reachesWin false ∧ tail < s.ringSize (64 + ring) ∧ s.rd
      (rxringAt ring) TXRING_LOG2_SIZE ≤ 14) ∧
    (∃ (s : State) (ring : Nat) (tail : Nat), ring < 64 ∧ s.reachesWin false ∧ s.ringSize ring ≤ tail ∧ tail < 32768) ∧
    (∃ (s : State) (ring : Nat) (idx : Nat) (d : TxDesc) (raw : List Byte) (hdr : List Byte), ring < 64 ∧ s.txDesc?
      ring idx = some d ∧ d.phase = 0 ∧ s.ringRaw d.ring = false ∧ raw.length = 16 ∧ hdr.length = 32 ∧ 1 ≤ leAt hdr 2
      1 ∧ leAt hdr 2 1 ≤ 8 ∧ leAt hdr 0 2 ≤ 2040 ∧ leAt raw 8 2 = 32 + leAt hdr 0 2) ∧
    (∃ (s : State) (ring : Nat) (idx : Nat) (d : RxDesc) (raw : List Byte), ring < 64 ∧ s.rxDesc? ring idx = some d ∧
      d.ready = false ∧ s.ringRaw (64 + ring) = false ∧ 2072 ≤ leAt raw 8 2) ∧
    (∃ (s : State) (ring : Nat) (idx : Nat) (d : TxDesc), ring < 64 ∧ s.txDesc? ring idx = some d ∧ d.phase = 1 ∧
      s.ringRaw d.ring = false) ∧
    (∃ (s : State) (ring : Nat) (idx : Nat) (d : TxDesc), ring < 64 ∧ s.txDesc? ring idx = some d ∧ d.phase < 2) ∧
    (∃ (s : State) (ring : Nat) (idx : Nat) (d : RxDesc), ring < 64 ∧ s.rxDesc? ring idx = some d ∧ d.ready = false) ∧
    (∃ (s : State) (t : Nat) (ring : Nat) (idx : Nat) (ago : Nat) (d : TxDesc), ring < 64 ∧ s.txDesc? ring idx = some
      d ∧ d.phase = 2 ∧ d.ring = ring ∧ d.idx = idx ∧ s.ringRaw ring = true ∧ s.rd (ringAt ring) TXRING_ETHP = 0 ∧
      s.rd (pgETH 0) ETH_MODE ≠ 0 ∧ s.portDown 40 = false ∧ s.on (pgETH 0) ETH_LINK = true ∧ s.on (pgETH 0)
      ETH_MACSEC_EN = false ∧ d.hdr.length + 4 ≤ s.rd (pgETH 0) ETH_MAX_FRAME ∧ s.ethPaused 0 ((s.at t).time.h - ago)
      = false) :=
  ⟨⟨ready, 7, true, 0x231#32, by delta State.reachesWin; decide +kernel⟩,
   ⟨wit21, 3, 15, by delta State.reachesWin; decide +kernel⟩,
   ⟨wit22, 63, 15, by delta State.reachesWin; decide +kernel⟩,
   ⟨wit21, 3, 16, by delta State.reachesWin; decide +kernel⟩,
   ⟨wit23, 5, 0, ⟨5, 0, 5, 0, [], [], 0⟩, List.replicate 8 0#8 ++ [34#8] ++ List.replicate 7 0#8, [2#8, 0#8, 1#8] ++ List.replicate 29 0#8, by decide +kernel⟩,
   ⟨wit24, 5, 0, ⟨5, 0, 0, 0, false⟩, List.replicate 9 0#8 ++ [9#8] ++ List.replicate 6 0#8, by decide +kernel⟩,
   ⟨wit25, 5, 0, ⟨5, 0, 5, 0, [2#8, 0#8, 1#8] ++ List.replicate 13 0#8, [2#8, 0#8, 1#8] ++ List.replicate 29 0#8, 1⟩, by decide +kernel⟩,
   ⟨wit25, 5, 0, ⟨5, 0, 5, 0, [2#8, 0#8, 1#8] ++ List.replicate 13 0#8, [2#8, 0#8, 1#8] ++ List.replicate 29 0#8, 1⟩, by decide +kernel⟩,
   ⟨wit24, 5, 0, ⟨5, 0, 0, 0, false⟩, by decide +kernel⟩,
   ⟨wit26, 9, 5, 0, 3, ⟨5, 0, 5, 0, List.replicate 16 1#8, List.replicate 60 1#8, 2⟩, by decide +kernel⟩⟩

theorem witness_RemoteAccessAndHostReset :
    (∃ (s : State) (slot : Nat) (g : Nat) (word : Word), slot < 32 ∧ s.reachesWin false ∧ s.rd (raAt slot) RA_STATE =
      0 ∧ 1 ≤ word.toNat / 256 % 256 ∧ word.toNat / 256 % 256 ≤ 250 ∧ word.toNat / 4 % 2 = 0 ∧ word.toNat / 65536 %
      128 = 8 ∧ s.rd (raAt slot) RA_ADDR % 8 = 0 ∧ s.reachable (word.toNat / 256 % 256) = true ∧ s.ring.waiting = []
      ∧ s.freeTag = some g) ∧
    (∃ (s : State) (slot : Nat) (word : Word), slot < 32 ∧ s.reachesWin false ∧ (s.rd (raAt slot) RA_STATE ≠ 0 ∨
      word.toNat / 256 % 256 = 0 ∨ 250 < word.toNat / 256 % 256)) ∧
    (∃ (s : State) (slot : Nat), slot < 32 ∧ s.reachesWin false ∧ s.rd (raAt slot) RA_STATE = 2) :=
  ⟨⟨wit27, 31, 0, 0x80101#32, by delta State.reachesWin; decide +kernel⟩,
   ⟨ready, 31, 0x8FB01#32, by delta State.reachesWin; decide +kernel⟩,
   ⟨wit28, 31, by delta State.reachesWin; decide +kernel⟩⟩

theorem witness_PageHeaderCommandsComplete :
    (∃ (page : Nat), page < 256 ∧ pageListed page = true) ∧
    (∃ (s : State) (page : Nat), page < 256 ∧ pageListed page = true ∧ s.on (pgAt page) PG_LOCK = false) ∧
    (∃ (s : State) (page : Nat), page < 256 ∧ pageListed page = true ∧ s.on (pgAt page) PG_LOCK = true) ∧
    (∃ (s : State) (page : Nat) (key : Nat), page < 256 ∧ pageListed page = true ∧ s.on (pgAt page) PG_LOCK = true ∧
      s.rd (pgAt page) PG_LKEY = key % 65536) ∧
    (∃ (s : State) (page : Nat) (key : Nat), page < 256 ∧ pageListed page = true ∧ s.on (pgAt page) PG_LOCK = true ∧
      s.rd (pgAt page) PG_LKEY ≠ key % 65536) ∧
    (∃ (s : State) (page : Nat), page < 256 ∧ pageListed page = true ∧ s.reachesCtrl page (pageCarried page)) ∧
    (∃ (s : State) (page : Nat) (on : Bool), page < 256 ∧ pageListed page = true ∧ s.on (pgAt page) PG_LOCK = true ∧
      s.on (pgAt page) PG_ENABLE ≠ on) ∧
    (∃ (s : State) (n : Nat), n < 16 ∧ s.reachesCtrl (0x60 + n) false) ∧
    (∃ (s : State) (on : Bool), s.reachesCtrl 5 false ∧ s.on pgSBOX PG_TEST_MODE = !on ∧ (s.rd pgSBOX SBOX_SB_STATE =
      1 ∨ s.rd pgSBOX SBOX_SB_STATE = 3)) :=
  ⟨⟨0x91, by decide +kernel⟩,
   ⟨ready, 0x91, by decide +kernel⟩,
   ⟨wit29, 0x91, by decide +kernel⟩,
   ⟨wit30, 0x91, 77, by decide +kernel⟩,
   ⟨wit30, 0x91, 78, by decide +kernel⟩,
   ⟨ready, 0x40, by delta State.reachesCtrl; decide +kernel⟩,
   ⟨wit31, 0x63, true, by decide +kernel⟩,
   ⟨ready, 15, by delta State.reachesCtrl; decide +kernel⟩,
   ⟨wit32, true, by delta State.reachesCtrl; decide +kernel⟩⟩

theorem witness_BlockResetAndPowerDomains :
    (∃ (s : State) (page : Nat), page < 256 ∧ pageListed page = true ∧ page ≠ 0 ∧ page ≠ 1 ∧ srstLight page = false ∧
      s.reachesCtrl page false ∧ s.pageDown page = false) ∧
    (∃ (s : State) (page : Nat), (page = 2 ∨ page = 0x70) ∧ s.reachesCtrl page false ∧ s.pageDown page = false) ∧
    (∃ (s : State) (page : Nat), page < 256 ∧ pageListed page = true ∧ page ≠ 5 ∧ srstLight page = true ∧
      s.reachesCtrl page (pageCarried page) ∧ s.tstate < 2) ∧
    (∃ (s : State) (page : Nat), page < 256 ∧ s.on (pgAt page) PG_IN_RESET = true) ∧
    (∃ (s : State), s.reaches 2 false ∧ s.rd pgPWR PWR_PD = 0) ∧
    (∃ (s : State) (d : Nat), d < 11 ∧ d ≠ 5 ∧ (s.rd pgPWR PWR_PD).testBit d = true ∧ (s.rd pgPWR
      PWR_PD_STAT).testBit d = false ∧ s.rd pgPWR PWR_PD_STAT < 2 ^ 11) ∧
    (∃ (s : State), s.reaches 2 false) :=
  ⟨⟨ready, 0x63, by delta State.reachesCtrl; decide +kernel⟩,
   ⟨wit33, 2, by delta State.reachesCtrl; decide +kernel⟩,
   ⟨wit34, 0x90, by delta State.reachesCtrl; decide +kernel⟩,
   ⟨wit35, 0x63, by decide +kernel⟩,
   ⟨ready, by delta State.reaches; decide +kernel⟩,
   ⟨wit36, 2, by decide +kernel⟩,
   ⟨wit37, by delta State.reaches; decide +kernel⟩⟩

theorem witness_DeviceResetsRestartTheBoot :
    (∃ (s : State), s.sys.rstAt = none) ∧
    (∃ (s : State), s.sys.rstAt = none ∧ s.sys.offAt = none) ∧
    (∃ (s : State) (t : Nat) (a : Nat), s.reachesCtrl 0 false ∧ s.sys.devArm = some a ∧ max s.time.clk t < a + msU ∧
      s.sys.rstAt = none) ∧
    (∃ (s : State), s.reachesCtrl 0 false ∧ s.sys.devArm = none) ∧
    (∃ (s : State), s.reaches 0 false) ∧
    (∃ (s : State) (t : Nat) (a : Nat), s.sys.devArm = some a ∧ a + msU ≤ max s.time.clk t) ∧
    (∃ (s : State), s.reaches 4 false) ∧
    (∃ (s : State) (t : Nat) (a : Nat), s.sys.wipeArm = some a ∧ a + msU ≤ max s.time.clk t) ∧
    (∃ (s : State) (t : Nat) (a : Nat), s.reaches 4 false ∧ s.sys.wipeArm = some a ∧ max s.time.clk t < a + msU ∧
      s.sys.rstAt = none) ∧
    (∃ (s : State), s.reaches 4 false ∧ s.sys.wipeArm = none) ∧
    (∃ (s : State), s.rd pgPWR PWR_BOOT_STAGE = 0) :=
  ⟨⟨wit38, by decide +kernel⟩,
   ⟨ready, by decide +kernel⟩,
   ⟨wit39, 5, 3, by delta State.reachesCtrl; decide +kernel⟩,
   ⟨ready, by delta State.reachesCtrl; decide +kernel⟩,
   ⟨ready, by delta State.reaches; decide +kernel⟩,
   ⟨wit39, 65536000003, 3, by decide +kernel⟩,
   ⟨ready, by delta State.reaches; decide +kernel⟩,
   ⟨wit40, 65536000003, 3, by decide +kernel⟩,
   ⟨wit40, 5, 3, by delta State.reaches; decide +kernel⟩,
   ⟨ready, by delta State.reaches; decide +kernel⟩,
   ⟨wit41, by decide +kernel⟩⟩

theorem witness_BootAndAtticCommitsComplete :
    (∃ (s : State), s.rd pgPWR PWR_BOOT_STAGE = 1 ∧ s.ring.hops = []) ∧
    (∃ (s : State), s.rd pgPWR PWR_BOOT_STAGE = 4 ∧ s.attic.images = [] ∧ s.rd pgSYS SYS_STRAPS = 0 ∧ s.sbox.sealKey
      = none) ∧
    (∃ (s : State), s.rd pgPWR PWR_BOOT_STAGE = 5 ∧ s.rd pgCELL CELL_CH0_STATE ≠ 1 ∧ s.rd pgCELL CELL_CH1_STATE ≠ 1 ∧
      (s.rd pgSYS SYS_STRAPS).testBit 1 = true) ∧
    (∃ (s : State), s.rd pgPWR PWR_BOOT_STAGE = 5 ∧ s.rd pgCELL CELL_CH0_STATE ≠ 1 ∧ s.rd pgCELL CELL_CH1_STATE ≠ 1 ∧
      (s.rd pgSYS SYS_STRAPS).testBit 1 = false) ∧
    (∃ (s : State), s.reachesCtrl 2 false ∧ s.rd pgPWR PWR_BOOT_STAGE = 6) ∧
    (∃ (s : State), s.reachesCtrl 2 false ∧ s.rd pgPWR PWR_BOOT_STAGE ≠ 6) ∧
    (∃ (page : Nat), page < 256 ∧ pageListed page = true) ∧
    (∃ (s : State) (t : Nat), s.attic.waiting = true ∧ s.attic.writing = none ∧ s.attic.lastPoint.all (fun l =>
      decide (l + 100 * msU ≤ max s.time.clk t)) = true ∧ s.bootReady true = true) ∧
    (∃ (s : State) (g : Nat) (i : AtImage), s.attic.writing = some g ∧ s.attic.images.find? (fun i => i.gen == g) =
      some i ∧ i.gen < 2 ^ 64) :=
  ⟨⟨wit42, by decide +kernel⟩,
   ⟨wit43, by decide +kernel⟩,
   ⟨wit44, by decide +kernel⟩,
   ⟨wit45, by decide +kernel⟩,
   ⟨wit46, by delta State.reachesCtrl; decide +kernel⟩,
   ⟨ready, by delta State.reachesCtrl; decide +kernel⟩,
   ⟨0x47, by decide +kernel⟩,
   ⟨wit47, 6553600000005, by decide +kernel⟩,
   ⟨wit48, 9, ⟨5, 2, 9, false, 7, 8, 300000, [(66048, 7)]⟩, by decide +kernel⟩⟩

theorem witness_UartLineEventsComplete :
    (∃ (s : State) (p : Nat), p < 32 ∧ s.on (ingestAt p) INGEST_BREAK_NOW = false) ∧
    (∃ (s : State) (p : Nat), p < 32 ∧ (s.rxOf p).inChar = true ∧ s.uartHears p = true) ∧
    (∃ (s : State) (p : Nat), p < 32 ∧ (s.rxOf p).inChar = true ∧ s.uartHears p = true) ∧
    (∃ (s : State) (p : Nat) (b : Byte), p < 32 ∧ (s.rxOf p).inChar = true ∧ s.uartHears p = true ∧ (s.rxOf p).openC
      = none ∧ (s.rxOf p).fr = frHunt ∧ (b = 36#8 ∨ b = 33#8) ∧ s.on (ingestAt p) INGEST_DATA7 = false ∧ (s.rxOf
      p).level < 512) ∧
    (∃ (s : State) (p : Nat) (b : Byte) (o : OpenCand), p < 32 ∧ (s.rxOf p).inChar = true ∧ s.uartHears p = true ∧
      (s.rxOf p).openC = some o ∧ o.cfg.data7 = false ∧ s.on (ingestAt p) INGEST_DATA7 = false ∧ o.bytes.length % 8 ≠
      0 ∧ (frStep o.cfg (s.rxOf p).fr b).2 = .appends ∧ (s.rxOf p).fr.st ≠ .tagx) ∧
    (∃ (s : State) (t : Nat) (p : Nat) (o : OpenCand), p < 32 ∧ (s.rxOf p).openC = some o ∧ o.cfg.icto ≠ 0 ∧ (s.rxOf
      p).inChar = false ∧ o.cfg.icto * cfgBit3 o.cfg ≤ 3 * (max s.time.clk t - (s.rxOf p).stopAt)) ∧
    (∃ (s : State) (t : Nat) (p : Nat), p < 32 ∧ s.rd (ingestAt p) INGEST_SILENT_MS ≠ 0 ∧ s.uartHears p = true ∧ s.on
      (ingestAt p) INGEST_SILENT = false ∧ max (s.rxOf p).silFrom s.time.relClk + s.rd (ingestAt p) INGEST_SILENT_MS
      * msU ≤ max s.time.clk t) ∧
    (∃ (p : Nat), p < 32) :=
  ⟨⟨wit49, 3, by decide +kernel⟩,
   ⟨wit50, 3, by decide +kernel⟩,
   ⟨wit50, 3, by decide +kernel⟩,
   ⟨wit51, 3, 36#8, by decide +kernel⟩,
   ⟨wit50, 3, 65#8, ⟨(List.range 4).map (fun i => BitVec.ofNat 8 (36 + i)), uartUp.portCfg 3, 5, 0, 5, 0⟩, by decide +kernel⟩,
   ⟨wit52, 9830400000000, 3, ⟨(List.range 4).map (fun i => BitVec.ofNat 8 (36 + i)), uartUp.portCfg 3, 5, 0, 5, 0⟩, by decide +kernel⟩,
   ⟨uartUp, 131072000000, 3, by decide +kernel⟩,
   ⟨3, by decide +kernel⟩⟩

theorem witness_IngestCommitAndUartDriver :
    (∃ (s : State) (p : Nat) (word : Word), p < 58 ∧ s.reachesWin true ∧ s.tstate < 2 ∧ (((s.applyHeld (ingestAt p)
      rows_INGEST ingestHeld).setWord (ingestAt p) rows_INGEST 0 word.toNat).ingestLegal p) = true) ∧
    (∃ (s : State) (p : Nat) (word : Word), p < 58 ∧ s.reachesWin true ∧ (((s.applyHeld (ingestAt p) rows_INGEST
      ingestHeld).setWord (ingestAt p) rows_INGEST 0 word.toNat).ingestLegal p) = false) ∧
    (∃ (s : State) (p : Nat), p < 2048 ∧ s.bootReady true = true ∧ s.standbyInStep = true) ∧
    (∃ (s : State) (p : Nat), 58 ≤ p ∧ p < 64 ∧ s.reachesWin true) ∧
    (∃ (s : State) (p : Nat) (bits : Nat), p < 32 ∧ s.reaches (0x40 + p) false ∧ (s.lisOf p).brk = 0 ∧ 1 ≤ bits ∧
      bits < 65536) ∧
    (∃ (s : State) (p : Nat), p < 32 ∧ s.reaches (0x40 + p) false ∧ (s.lisOf p).brk ≠ 0) ∧
    (∃ (s : State) (p : Nat), p < 32 ∧ (s.lisOf p).brk ≠ 0 ∧ s.on (pgUART p) UART_LOOP = false ∧ s.sys.jtag = false ∧
      s.sys.banksOff.testBit 0 = false) ∧
    (∃ (s : State) (t : Nat) (p : Nat), p < 32 ∧ s.rd (pgUART p) UART_DE_MODE = 1 ∧ s.on (pgUART p) UART_TX_BUSY =
      false ∧ s.rd (pgUART p) UART_DE_HOLD * cfgBit3 (s.portCfg p) ≤ 3 * (max s.time.clk t - (s.lisOf p).endAt)) :=
  ⟨⟨wit53, 3, 0x520043#32, by delta State.reachesWin; decide +kernel⟩,
   ⟨ready, 3, 0x520045#32, by delta State.reachesWin; decide +kernel⟩,
   ⟨wit54, 3, by decide +kernel⟩,
   ⟨ready, 63, by delta State.reachesWin; decide +kernel⟩,
   ⟨ready, 31, 22, by delta State.reaches; decide +kernel⟩,
   ⟨wit55, 31, by delta State.reaches; decide +kernel⟩,
   ⟨wit55, 31, by decide +kernel⟩,
   ⟨wit56, 6, 3, by decide +kernel⟩⟩

theorem witness_CounterSnapshotsCopyAndClear :
    (∃ (s : State) (page : Nat), page < 256 ∧ (snapFld page).isSome = true ∧ s.reaches page (pageCarried page) ∧
      s.tstate < 2) ∧
    (∃ (s : State) (page : Nat), page < 256 ∧ (snapFld page).isSome = true ∧ s.reaches page (pageCarried page) ∧
      s.tstate < 2) ∧
    (∃ (s : State) (p : Nat), p < 2048 ∧ s.reaches 0x80 true ∧ s.tstate < 2) ∧
    (∃ (s : State) (p : Nat), p < 2048 ∧ s.reaches 0x80 true ∧ s.tstate < 2) ∧
    (∃ (s : State) (f : Nat), f < 16384 ∧ s.reaches 0x90 true ∧ s.tstate < 2) ∧
    (∃ (s : State) (r : Nat), r < 2048 ∧ s.reaches 0x91 true ∧ s.tstate < 2) ∧
    (∃ (s : State) (f : Nat), f < 2048 ∧ s.reaches 0x90 true ∧ s.reaches 0x91 true ∧ s.tstate < 2) ∧
    (∃ (s : State) (g : Nat), g < 512 ∧ s.reaches 0x92 true ∧ s.tstate < 2) ∧
    (∃ (s : State) (g : Nat), g < 512 ∧ s.reaches 0x92 true ∧ s.tstate < 2) ∧
    (∃ (s : State) (q : Nat), q < 16384 ∧ s.reaches 0xA1 true ∧ s.tstate < 2) ∧
    (∃ (s : State) (q : Nat), q < 16384 ∧ s.reaches 0xA1 true ∧ s.tstate < 2) ∧
    (∃ (s : State) (f : Nat), f < 16384 ∧ s.reaches 0xA1 true ∧ s.tstate < 2) ∧
    (∃ (s : State) (f : Nat), f < 16384 ∧ s.reaches 0xA1 true ∧ s.tstate < 2) ∧
    (∃ (s : State) (p : Nat), p < 2048 ∧ (p < 58 ∨ 64 ≤ p) ∧ s.reachesWin false) ∧
    (∃ (s : State) (p : Nat), p < 2048 ∧ (p < 58 ∨ 64 ≤ p) ∧ s.reachesWin false) ∧
    (∃ (s : State) (p : Nat), p < 2048 ∧ s.reaches 0x20 false) ∧
    (∃ (s : State) (p : Nat), p < 2048 ∧ s.reaches 0x20 false) :=
  ⟨⟨wit57, 1, by delta State.reaches; decide +kernel⟩,
   ⟨wit57, 1, by delta State.reaches; decide +kernel⟩,
   ⟨wit58, 3, by delta State.reaches; decide +kernel⟩,
   ⟨wit58, 3, by delta State.reaches; decide +kernel⟩,
   ⟨wit59, 9, by delta State.reaches; decide +kernel⟩,
   ⟨wit60, 9, by delta State.reaches; decide +kernel⟩,
   ⟨wit61, 9, by delta State.reaches; decide +kernel⟩,
   ⟨wit62, 511, by delta State.reaches; decide +kernel⟩,
   ⟨wit62, 511, by delta State.reaches; decide +kernel⟩,
   ⟨wit63, 16383, by delta State.reaches; decide +kernel⟩,
   ⟨wit63, 16383, by delta State.reaches; decide +kernel⟩,
   ⟨wit64, 16383, by delta State.reaches; decide +kernel⟩,
   ⟨wit64, 16383, by delta State.reaches; decide +kernel⟩,
   ⟨wit65, 57, by delta State.reachesWin; decide +kernel⟩,
   ⟨wit65, 57, by delta State.reachesWin; decide +kernel⟩,
   ⟨wit66, 40, by delta State.reaches; decide +kernel⟩,
   ⟨wit66, 40, by delta State.reaches; decide +kernel⟩⟩

theorem witness_SleepAndWakeComplete :
    (∃ (s : State) (value : Nat), s.reaches 2 false ∧ value % 65536 = 0x534C ∧ s.asleep = false ∧ s.active = false ∧
      s.del.queues = [] ∧ (∀ k : Nat, k < 4 → s.rd pgTEST (TEST_SL_RSTATE.at k 32) ≠ 2)) ∧
    (∃ (s : State) (value : Nat), s.reaches 2 false ∧ value % 65536 ≠ 0x534C) ∧
    (∃ (s : State), s.reaches 2 false ∧ s.asleep = false ∧ s.active = true ∧ s.inStep = true) ∧
    (∃ (s : State), s.asleep = true ∧ s.sys.offAt = none) ∧
    (∃ (s : State), s.asleep = true ∧ s.sys.wakeEn.testBit 0 = true) ∧
    (∃ (s : State) (n : Nat), n < 8 ∧ s.asleep = true ∧ s.sys.canWake.testBit n = true) ∧
    (∃ (s : State) (t : Nat), s.asleep = true ∧ s.sys.wakeEn.testBit 9 = true ∧ s.sys.wakeAt ≤ (max s.time.clk t -
      s.sys.aoBase) * 32768 / secU % 2 ^ 48) ∧
    (∃ (s : State) (t : Nat) (off : Nat), s.sys.causes ≠ 0 ∧ s.sys.offAt = some off ∧ off + 50 * msU ≤ max s.time.clk
      t ∧ s.sys.rstAt = none) ∧
    (∃ (s : State) (src : Nat), src < 5 ∧ (s.rd pgSBOX SBOX_TAMP_EN).testBit src = false) ∧
    (∃ (s : State) (src : Nat), src < 5 ∧ (s.rd pgSBOX SBOX_TAMP_EN).testBit src = true ∧ s.asleep = true ∧
      s.sys.wakeEn.testBit 10 = true) :=
  ⟨⟨wit67, 0x534C, by delta State.reaches; decide +kernel⟩,
   ⟨ready, 7, by delta State.reaches; decide +kernel⟩,
   ⟨wit68, by delta State.reaches; decide +kernel⟩,
   ⟨wit69, by decide +kernel⟩,
   ⟨wit70, by decide +kernel⟩,
   ⟨wit71, 7, by decide +kernel⟩,
   ⟨wit72, 70000000000000, by decide +kernel⟩,
   ⟨wit73, 7000000000000, 3, by decide +kernel⟩,
   ⟨ready, 1, by decide +kernel⟩,
   ⟨wit74, 3, by decide +kernel⟩⟩

theorem witness_SuppliesAndBoundaryScan :
    (∃ (s : State) (rail : Nat) (low : Bool), rail < 6 ∧ (s.rd pgPWR PWR_SUP_WARNB).testBit rail = !low ∧ s.rd pgPWR
      PWR_SUP_WARNB < 64) ∧
    (∃ (bank : Nat), bank < 4) ∧
    (∃ (instr : Nat), instr < 6) :=
  ⟨⟨ready, 4, true, by decide +kernel⟩,
   ⟨2, by decide +kernel⟩,
   ⟨3, by decide +kernel⟩⟩

theorem witness_DispatchBuildsAndChecksCandidates :
    (∃ (s : State) (a : Nat) (p : Nat) (f : Nat) (c : Cand), a < 16 ∧ p < 58 ∧ s.nextCand p = some c ∧ s.mayDispatch
      a p = true ∧ s.follows = false ∧ (c.src = .can ∨ c.src = .pgn ∨ c.src = .tongs) ∧ c.remote = false ∧ c.timeOk =
      true ∧ c.port = p ∧ c.body.length ≤ 2040 ∧ f < 16384 ∧ s.lookupFlow (lookKey (kindOf c) p c.body) = some f ∧
      s.rd (flowAt f) FL_DISC_FLD = 0) ∧
    (∃ (s : State) (a : Nat) (p : Nat) (c : Cand), a < 16 ∧ p < 58 ∧ s.nextCand p = some c ∧ s.mayDispatch a p = true
      ∧ s.follows = false ∧ s.active = false ∧ (c.src = .can ∨ c.src = .pgn ∨ c.src = .tongs) ∧ c.remote = false ∧
      c.timeOk = true ∧ c.port = p ∧ c.body.length ≤ 2040 ∧ c.cfg.passBad = false ∧ s.lookupFlow (lookKey (kindOf c)
      p c.body) = none) ∧
    (∃ (s : State) (a : Nat) (p : Nat) (c : Cand), a < 16 ∧ p < 58 ∧ s.nextCand p = some c ∧ s.mayDispatch a p = true
      ∧ s.active = true ∧ s.tstate < 2 ∧ c.port = p ∧ 2040 < c.body.length ∧ (∀ e ∈ s.anvils, e.2.cand.id ≠ c.id)) ∧
    (∃ (s : State) (a : Nat) (p : Nat), a < 16 ∧ p < 2048 ∧ (s.nextCand p = none ∨ s.on (pgANV a) ANV_IN_DISPATCH =
      false) ∧ s.follows = false) :=
  ⟨⟨wit75, 3, 45, 5, tongCand 8 45 9, by decide +kernel⟩,
   ⟨wit76, 3, 44, tongCand 8 44 9, by decide +kernel⟩,
   ⟨wit77, 3, 45, tongCand 8 45 2041, by decide +kernel⟩,
   ⟨wit78, 3, 45, by decide +kernel⟩⟩

theorem witness_AdmissionTakesTheOldestCandidate :
    (∃ (s : State) (a : Nat) (f : Nat) (p : Nat) (b : Built), a < 16 ∧ f < 16384 ∧ p < 58 ∧ s.forward = true ∧
      s.active = true ∧ s.tstate < 2 ∧ s.twin.wait = [] ∧ tabGet? s.anvils a = some b ∧ b.cand.port = p ∧ b.cand.src
      ≠ .host ∧ s.isOldest b.cand = true ∧ b.gen = s.tblGen ∧ b.passed = none ∧ b.refuse = none ∧ b.flow = some f ∧
      b.kind ≠ 7 ∧ s.quarGet false f = none ∧ s.quarGet true p = none ∧ s.rd (flowAt f) FL_RULE_CNT = 0 ∧ s.on
      (flowAt f) FL_CONC_EN = false ∧ s.rd pgCONC CONC_CLASH_WIN_MS = 0 ∧ s.jBlocks = 0 ∧ s.jrnl.cur = none ∧
      s.cellFit (s.rd (flowAt f) FL_PRIO) (cellsFor b.cand.body.length) = .ok ∧ s.listeners f = [] ∧ s.on pgLARD
      LARD_SPILLING = false ∧ s.on pgLARD LARD_SPILL_FULL = false ∧ s.rd pgLARD LARD_CELLS_USED + cellsFor
      b.cand.body.length < s.rd pgLARD LARD_SPILL_HI) ∧
    (∃ (s : State) (a : Nat) (f : Nat) (p : Nat) (l : Nat) (b : Built), a < 16 ∧ f < 16384 ∧ p < 58 ∧ 42 ≤ l ∧ l < 58
      ∧ s.forward = true ∧ s.active = true ∧ s.tstate < 2 ∧ s.twin.wait = [] ∧ tabGet? s.anvils a = some b ∧
      b.cand.port = p ∧ b.cand.src = .tongs ∧ s.isOldest b.cand = true ∧ b.gen = s.tblGen ∧ b.passed = none ∧
      b.refuse = none ∧ b.flow = some f ∧ b.kind = 6 ∧ s.quarGet false f = none ∧ s.quarGet true p = none ∧ s.rd
      (flowAt f) FL_RULE_CNT = 0 ∧ s.on (flowAt f) FL_CONC_EN = false ∧ s.rd pgCONC CONC_CLASH_WIN_MS = 0 ∧ s.jBlocks
      = 0 ∧ s.jrnl.cur = none ∧ s.cellFit (s.rd (flowAt f) FL_PRIO) (cellsFor b.cand.body.length) = .ok ∧ s.listeners
      f = [l] ∧ s.rd (flowAt f) FL_REL_MODE = 0 ∧ s.rd (flowAt f) FL_DEADLINE = 0 ∧ s.on (lportAt l) LPORT_TX_EN =
      true ∧ s.on (lportAt l) LPORT_FLUSHING = false ∧ s.rd (ingestAt l) INGEST_TYPE = 4 ∧ b.cand.body.length ≤ s.rd
      (lportAt l) LPORT_TX_MAX ∧ tongWords b.cand.body.length ≤ s.rd (pgTONG (l - 42)) TONG_TX_LIMIT ∧ s.rd pgBELL
      (BELL_POLICY.at (s.rd (flowAt f) FL_PRIO % 8) 4) = 0 ∧ s.rd pgLARD LARD_TALLY_USED < 262144 ∧ (s.queueOf (8 * l
      + s.rd (flowAt f) FL_PRIO)).length < s.rd (queueAt (8 * l + s.rd (flowAt f) FL_PRIO)) QUEUE_QLIM ∧ s.on pgLARD
      LARD_SPILLING = false ∧ s.on pgLARD LARD_SPILL_FULL = false ∧ s.rd pgLARD LARD_CELLS_USED + cellsFor
      b.cand.body.length < s.rd pgLARD LARD_SPILL_HI) ∧
    (∃ (s : State) (a : Nat) (p : Nat) (b : Built) (cause : Option Nat), a < 16 ∧ p < 2048 ∧ s.forward = true ∧
      s.active = true ∧ s.tstate < 2 ∧ s.twin.wait = [] ∧ tabGet? s.anvils a = some b ∧ b.cand.port = p ∧ s.isOldest
      b.cand = true ∧ b.refuse = some cause) ∧
    (∃ (s : State) (a : Nat) (b : Built), a < 16 ∧ (tabGet? s.anvils a = some b ∧ (s.isOldest b.cand = false ∨
      s.active = false))) :=
  ⟨⟨wit79, 3, 5, 45, ⟨tongCand 8 45 9, 6, 900, 0, false, none, none, some 5, 0, 1000⟩, by decide +kernel⟩,
   ⟨wit80, 3, 5, 45, 50, ⟨tongCand 8 45 9, 6, 900, 0, false, none, none, some 5, 0, 1000⟩, by decide +kernel⟩,
   ⟨wit81, 3, 45, ⟨tongCand 8 45 9, 6, 900, 0, false, none, some (some 0x80), none, 0, 1000⟩, some 0x80, by decide +kernel⟩,
   ⟨wit82, 3, ⟨tongCand 8 45 9, 6, 900, 0, false, none, none, some 5, 0, 1000⟩, by decide +kernel⟩⟩

theorem witness_GoldenItemsAndFlushes :
    (∃ (s : State) (a : Nat), a < 16 ∧ s.on (pgANV a) ANV_IN_DISPATCH = true ∧ tabGet? s.anvils a = none ∧ s.rd
      (pgANV a) ANV_GOLD_PERIOD ≠ 0) ∧
    (∃ (s : State) (a : Nat), a < 16 ∧ s.on (pgANV a) ANV_IN_DISPATCH = true ∧ tabGet? s.anvils a = none ∧ s.rd
      (pgANV a) ANV_GOLD_PERIOD ≠ 0) ∧
    (∃ (s : State) (a : Nat), a < 16 ∧ s.reaches (0x80 + a) false) ∧
    (∃ (s : State) (p : Nat), (p < 58 ∨ (64 ≤ p ∧ p < 2048)) ∧ s.reachesWin false) ∧
    (∃ (s : State) (p : Nat) (sent : Nat) (k : TxPkt), p < 32 ∧ s.reachesWin false ∧ (s.lisOf p).tx = [k] ∧ (s.lisOf
      p).brk = 0 ∧ s.item? k.handle = none ∧ 1 ≤ sent ∧ sent ≤ k.body.length ∧ s.on (pgUART p) UART_LOOP = false ∧
      s.sys.jtag = false ∧ s.sys.banksOff.testBit 0 = false) :=
  ⟨⟨wit83, 3, by decide +kernel⟩,
   ⟨wit83, 3, by decide +kernel⟩,
   ⟨wit84, 3, by delta State.reaches; decide +kernel⟩,
   ⟨wit79, 45, by delta State.reachesWin; decide +kernel⟩,
   ⟨wit85, 3, 2, ⟨77, 1, [1#8, 2#8, 3#8], 1⟩, by delta State.reachesWin; decide +kernel⟩⟩

theorem witness_ReleaseHandsTheChosenItemOver :
    (∃ (s : State) (t : Nat) (p : Nat) (q : Nat) (r : Ref) (i : Item) (e : EgBody), 42 ≤ p ∧ p < 58 ∧ s.mayRelease =
      true ∧ s.tstate < 2 ∧ (s.at t).turn p = .send q r i e ∧ q / 8 = p ∧ r.stat = none ∧ r.mode = 0 ∧ i.deadline = 0
      ∧ s.on (pgAt (portPage p)) PG_IN_RESET = false ∧ (s.item? r.handle).map (·.wb) = some none ∧ s.leafOf i.port =
      none) ∧
    (∃ (s : State) (t : Nat) (p : Nat) (q : Nat) (leaf : Nat) (r : Ref) (i : Item) (e : EgBody), 64 ≤ p ∧ p < 2048 ∧
      s.mayRelease = true ∧ s.tstate < 2 ∧ (s.at t).turn p = .send q r i e ∧ q / 8 = p ∧ r.stat = none ∧ r.mode = 0 ∧
      i.deadline = 0 ∧ s.groupOf r.flow = none ∧ s.on pgSBOX SBOX_RA_ITEM = false ∧ (s.item? r.handle).map (·.wb) =
      some none ∧ s.leafOf p = some leaf) ∧
    (∃ (s : State) (t : Nat) (p : Nat), p < 2048 ∧ (s.mayRelease = false ∨ (s.at t).turn p = .none)) ∧
    (∃ (s : State) (p : Nat) (k : TxPkt) (l : List TxPkt), p < 32 ∧ (s.lisOf p).tx = k :: l ∧ s.item? k.handle = none
      ∧ s.on (pgUART p) UART_LOOP = false ∧ s.sys.jtag = false ∧ s.sys.banksOff.testBit 0 = false) :=
  ⟨⟨wit86, 5, 50, 402, aRef 7 0 0, anItem 9 0, ⟨(anItem 9 0).body, false, false⟩, by decide +kernel⟩,
   ⟨remoteUp, 5, 64, 514, 4, aRef 7 0 0, anItem 9 0, ⟨(anItem 9 0).body, false, false⟩, by decide +kernel⟩,
   ⟨wit87, 5, 50, by decide +kernel⟩,
   ⟨wit88, 3, ⟨77, 1, [1#8, 2#8, 3#8], 1⟩, [], by decide +kernel⟩⟩

theorem witness_DeliveryTimersResolveReferences :
    (∃ (s : State) (t : Nat) (p : Nat) (h : Nat) (r : Ref) (i : LItem), p < 2048 ∧ s.portRefs p = [r] ∧ r.mode = 1 ∧
      r.stat = none ∧ r.handle = h ∧ s.item? h = some i ∧ i.loc = .spilled ∧ itemCells i.item ≤ s.cellsFree ∧ r.inst
      ≤ (s.at t).time.h + (s.at t).lead p + 100 * usU ∧ s.on pgLARD LARD_SPILLING = false ∧ s.on pgLARD
      LARD_SPILL_FULL = false ∧ s.rd pgLARD LARD_CELLS_USED + itemCells i.item < s.rd pgLARD LARD_SPILL_HI) ∧
    (∃ (s : State) (t : Nat) (p : Nat) (k : Nat) (e : Nat), p < 2048 ∧ s.holdOf p k = some e ∧ e ≤ (s.at t).time.h ∧
      s.tstate < 2) ∧
    (∃ (s : State) (t : Nat) (h : Nat) (q : Nat) (r : Ref) (i : LItem), s.item? h = some i ∧ i.wb = none ∧ i.jrnl =
      true ∧ i.loc = .larder ∧ s.del.queues = [(q, [r])] ∧ r.handle = h ∧ r.stat = none ∧ q < 16384 ∧ r.flow < 16384
      ∧ itemExpired i.item (s.at t).time.h = true ∧ s.tstate < 2) ∧
    (∃ (s : State) (t : Nat) (h : Nat) (i : LItem), s.item? h = some i ∧ itemExpired i.item (s.at t).time.h = false) ∧
    (∃ (s : State) (t : Nat) (q : Nat) (h : Nat) (code : Nat) (r : Ref) (i : LItem), q < 16384 ∧ q % 8 < 4 ∧ r.flow <
      16384 ∧ s.queueOf q = [r] ∧ r.handle = h ∧ r.stat = none ∧ s.item? h = some i ∧ i.wb = none ∧ i.born + msU ≤
      max s.time.clk t ∧ s.tstate < 2 ∧ code = (if s.rd pgBELL (BELL_POLICY.at (q % 8) 4) < 2 then 4 else 3)) ∧
    (∃ (s : State) (t : Nat) (p : Nat), p < 2048 ∧ s.tstate < 2 ∧ s.rd (lportAt p) LPORT_STAT_PERIOD_S ≠ 0 ∧ secOf
      (s.at t).time.h % s.rd (lportAt p) LPORT_STAT_PERIOD_S = 0 ∧ (∀ b ∈ (s.lisOf p).led.lastB.toList, b < secOf
      (s.at t).time.h) ∧ s.on (lportAt p) LPORT_STAT_EN = false) ∧
    (∃ (s : State) (t : Nat) (p : Nat), p < 2048 ∧ (s.follows = true ∨ s.rd (lportAt p) LPORT_STAT_PERIOD_S = 0 ∨
      secOf (s.at t).time.h % s.rd (lportAt p) LPORT_STAT_PERIOD_S ≠ 0)) :=
  ⟨⟨wit89, 500, 50, 7, aRef 7 1 70, anEntry 9 0 .spilled, by decide +kernel⟩,
   ⟨wit90, 500, 50, 9, 4, by decide +kernel⟩,
   ⟨wit91, 700000000000, 7, 402, aRef 7 0 0, anEntry 9 1 .larder, by decide +kernel⟩,
   ⟨wit91, 500, 7, anEntry 9 1 .larder, by decide +kernel⟩,
   ⟨wit86, 700000000000, 402, 7, 4, aRef 7 0 0, anEntry 9 0 .larder, by decide +kernel⟩,
   ⟨wit92, 3, 50, by decide +kernel⟩,
   ⟨ready, 3, 50, by decide +kernel⟩⟩

theorem witness_ListenerSettingsAndFlushes :
    (∃ (s : State) (p : Nat) (word : Word), p < 58 ∧ s.reachesWin true ∧ s.tstate < 2 ∧ ((s.applyHeld (lportAt p)
      rows_LPORT lportHeld).setWord (lportAt p) rows_LPORT 0 word.toNat).lportLegal p = true ∧ word.getLsbD 7 = false
      ∧ word.getLsbD 0 = true) ∧
    (∃ (s : State) (p : Nat) (word : Word), p < 58 ∧ s.reachesWin true ∧ ((s.applyHeld (lportAt p) rows_LPORT
      lportHeld).setWord (lportAt p) rows_LPORT 0 word.toNat).lportLegal p = false) ∧
    (∃ (s : State) (p : Nat), (p = 58 ∨ (60 ≤ p ∧ p < 64)) ∧ s.reachesWin true) ∧
    (∃ (s : State) (p : Nat) (q : Nat) (r : Ref) (i : LItem), p < 58 ∧ s.reachesWin true ∧ s.tstate < 2 ∧
      s.del.queues = [(q, [r])] ∧ q / 8 = p ∧ r.stat = none ∧ r.flow < 16384 ∧ s.item? r.handle = some i ∧ i.wb =
      none ∧ i.jrnl = true ∧ i.loc = .larder) ∧
    (∃ (p : Nat), p < 2048) ∧
    (∃ (s : State) (q : Nat) (word : Word), q < 16384 ∧ s.reachesWin true ∧ s.tstate < 2 ∧ word.toNat % 65536 ≠ 0 ∧
      s.on pgBELL (BELL_BP_EN.at (q % 8) 4) = false ∧ s.on (queueAt q) QUEUE_BP = false) ∧
    (∃ (s : State) (q : Nat) (word : Word), q < 16384 ∧ s.reachesWin true ∧ word.toNat % 65536 = 0) :=
  ⟨⟨wit93, 50, 0x301#32, by delta State.reachesWin; decide +kernel⟩,
   ⟨wit94, 50, 0x301#32, by delta State.reachesWin; decide +kernel⟩,
   ⟨ready, 60, by delta State.reachesWin; decide +kernel⟩,
   ⟨wit91, 50, 402, aRef 7 0 0, anEntry 9 1 .larder, by delta State.reachesWin; decide +kernel⟩,
   ⟨50, by decide +kernel⟩,
   ⟨wit91, 402, 1#32, by delta State.reachesWin; decide +kernel⟩,
   ⟨wit91, 402, 0x10000#32, by delta State.reachesWin; decide +kernel⟩⟩

theorem witness_SpillWritesAndFetches :
    (∃ (s : State) (h : Nat) (q : Nat) (r : Ref) (i : LItem), s.item? h = some i ∧ i.loc = .spilling ∧ s.del.queues =
      [(q, [r])] ∧ r.handle = h ∧ r.stat = none ∧ q < 16384 ∧ s.del.items = [(h, i)] ∧ s.on pgLARD LARD_SPILLING =
      false ∧ s.rd pgLARD LARD_FETCH_AHEAD = 0 ∧ s.rd pgLARD LARD_CELLS_USED ≤ 49152) ∧
    (∃ (s : State) (h : Nat) (i : LItem), s.item? h = some i ∧ i.loc ≠ .spilling) ∧
    (∃ (s : State) (h : Nat) (q : Nat) (r : Ref) (i : LItem), s.item? h = some i ∧ i.loc = .fetching ∧ s.del.queues =
      [(q, [r])] ∧ r.handle = h ∧ r.stat = none ∧ q < 16384 ∧ s.on pgLARD LARD_SPILL_FULL = false) ∧
    (∃ (s : State) (h : Nat) (q : Nat) (r : Ref) (i : LItem), s.item? h = some i ∧ i.loc = .fetching ∧ s.del.queues =
      [(q, [r])] ∧ r.handle = h ∧ r.stat = none ∧ q < 16384 ∧ s.on pgLARD LARD_SPILL_FULL = false) ∧
    (∃ (s : State) (h : Nat) (q : Nat) (r : Ref) (i : LItem), s.item? h = some i ∧ i.loc = .fetching ∧ i.wb = none ∧
      i.jrnl = true ∧ s.del.queues = [(q, [r])] ∧ r.handle = h ∧ r.stat = none ∧ q < 16384 ∧ r.flow < 16384 ∧ s.on
      pgLARD LARD_SPILL_FULL = false ∧ s.tstate < 2) :=
  ⟨⟨wit95, 7, 402, aRef 7 0 0, anEntry 9 0 .spilling, by decide +kernel⟩,
   ⟨wit86, 7, anEntry 9 0 .larder, by decide +kernel⟩,
   ⟨wit96, 7, 402, aRef 7 0 0, anEntry 9 0 .fetching, by decide +kernel⟩,
   ⟨wit96, 7, 402, aRef 7 0 0, anEntry 9 0 .fetching, by decide +kernel⟩,
   ⟨wit96, 7, 402, aRef 7 0 0, anEntry 9 0 .fetching, by decide +kernel⟩⟩

theorem witness_TableCommitsTakeEffectWhole :
    (∃ (s : State) (i : Nat), i < 16384 ∧ s.reaches 0x90 true ∧ s.swapping = false ∧ s.tstate < 2 ∧ (s.copyEntry 1
      i).judgeEntry s 1 i = none ∧ s.on (flowShAt i) FL_CONC_EN = false ∧ s.on (flowAt i) FL_CONC_EN = false) ∧
    (∃ (s : State) (i : Nat), i < 2048 ∧ s.reaches 0x91 true ∧ s.swapping = false ∧ s.tstate < 2 ∧ (s.copyEntry 2
      i).judgeEntry s 2 i = none) ∧
    (∃ (s : State) (i : Nat), i < 512 ∧ s.reaches 0x92 true ∧ s.swapping = false ∧ s.tstate < 2 ∧ (s.copyEntry 3
      i).judgeEntry s 3 i = none ∧ s.roundOf i = none) ∧
    (∃ (s : State) (i : Nat), i < 16384 ∧ s.reaches 0xA1 true ∧ s.swapping = false ∧ s.tstate < 2 ∧ (s.copyEntry 4
      i).judgeEntry s 4 i = none ∧ s.listPend = []) ∧
    (∃ (s : State) (i : Nat), i < 4096 ∧ s.reaches 0x14 true ∧ s.swapping = false ∧ s.tstate < 2 ∧ (s.copyEntry 6
      i).judgeEntry s 6 i = none ∧ s.mlistPend = [] ∧ s.active = false) ∧
    (∃ (s : State) (i : Nat), i < 16384 ∧ s.reaches 0x90 true ∧ s.swapping = false ∧ ((s.copyEntry 1 i).judgeEntry s
      1 i).isSome = true) ∧
    (∃ (s : State) (i : Nat), i < 2048 ∧ s.reaches 0x91 true ∧ s.swapping = false ∧ ((s.copyEntry 2 i).judgeEntry s 2
      i).isSome = true) ∧
    (∃ (s : State) (i : Nat), i < 16384 ∧ s.reaches 0x90 true ∧ s.swapping = true) :=
  ⟨⟨wit97, 5, by delta State.reaches; decide +kernel⟩,
   ⟨wit98, 9, by delta State.reaches; decide +kernel⟩,
   ⟨wit99, 5, by delta State.reaches; decide +kernel⟩,
   ⟨wit100, 5, by delta State.reaches; decide +kernel⟩,
   ⟨wit101, 5, by delta State.reaches; decide +kernel⟩,
   ⟨wit102, 5, by delta State.reaches; decide +kernel⟩,
   ⟨wit103, 9, by delta State.reaches; decide +kernel⟩,
   ⟨wit104, 5, by delta State.reaches; decide +kernel⟩⟩

theorem witness_BatchSwapsCommitEveryPendingEntry :
    (∃ (s : State) (i : Nat), s.reachesCtrl 0x90 true ∧ s.swapping = false ∧ s.tstate < 2 ∧ [1, 2, 3, 4, 5, 6,
      7].flatMap s.pendOf = [(1, i)] ∧ (s.copyEntry 1 i).judgeEntry s 1 i = none ∧ i < 16384 ∧ s.on (flowShAt i)
      FL_CONC_EN = false ∧ s.on (flowAt i) FL_CONC_EN = false) ∧
    (∃ (s : State) (i : Nat), s.reachesCtrl 0x92 true ∧ s.swapping = false ∧ s.tstate < 2 ∧ s.pendOf 3 = [(3, i)] ∧
      (s.copyEntry 3 i).judgeEntry s 3 i = none ∧ i < 512 ∧ s.roundOf i = none) ∧
    (∃ (s : State) (i : Nat), s.reachesCtrl 0xA1 true ∧ s.swapping = false ∧ s.tstate < 2 ∧ s.pendOf 4 = [(4, i)] ∧
      (s.copyEntry 4 i).judgeEntry s 4 i = none ∧ i < 16384 ∧ s.listPend = []) ∧
    (∃ (s : State) (i : Nat), s.reachesCtrl 0x14 true ∧ s.swapping = false ∧ s.tstate < 2 ∧ s.pendOf 6 = [(6, i)] ∧
      (s.copyEntry 6 i).judgeEntry s 6 i = none ∧ i < 4096 ∧ s.mlistPend = [] ∧ s.active = false) ∧
    (∃ (s : State), s.reachesCtrl 0x91 true ∧ s.swapping = false ∧ s.tstate < 2 ∧ (∀ e ∈ s.pendOf 2, ((s.pendOf
      2).foldl (fun x e => x.copyEntry e.1 e.2) s).judgeEntry s e.1 e.2 = none) ∧ (s.pendOf 2).Nodup) ∧
    (∃ (s : State), s.reachesCtrl 0x90 true ∧ s.swapping = true) ∧
    (∃ (s : State) (page : Nat), page ∈ swapPages ∧ s.on (pgAt page) PG_SHADOW_SWAP = true ∧ s.swapHeld = []) :=
  ⟨⟨wit97, 5, by delta State.reachesCtrl; decide +kernel⟩,
   ⟨wit99, 5, by delta State.reachesCtrl; decide +kernel⟩,
   ⟨wit100, 5, by delta State.reachesCtrl; decide +kernel⟩,
   ⟨wit101, 5, by delta State.reachesCtrl; decide +kernel⟩,
   ⟨wit105, by delta State.reachesCtrl; decide +kernel⟩,
   ⟨wit104, by delta State.reachesCtrl; decide +kernel⟩,
   ⟨wit106, 0x91, by decide +kernel⟩⟩

theorem witness_ConcordRoundsAndQuarantines :
    (∃ (s : State) (t : Nat) (g : Nat) (o : Nat) (r : Round), g < 512 ∧ s.roundOf g = some r ∧ r.outcome = some o ∧ o
      < 6 ∧ r.exp ≤ (s.at t).time.h ∧ s.tstate < 2 ∧ s.rd (groupAt g) GROUP_PROV < 2 ∧ s.rd (groupAt g)
      GROUP_STAT_MODE = 0) ∧
    (∃ (s : State) (t : Nat) (g : Nat) (r : Round), g < 512 ∧ s.roundOf g = some r ∧ r.outcome = none ∧ r.exp ≤ (s.at
      t).time.h ∧ s.tstate < 2 ∧ s.choose (s.liveGroup g) r = (ocNO_QUORUM, none) ∧ s.rd (groupAt g) GROUP_PROV < 2 ∧
      s.rd (groupAt g) GROUP_STAT_MODE = 0) ∧
    (∃ (s : State) (t : Nat) (g : Nat) (r : Round), g < 512 ∧ s.roundOf g = some r ∧ (s.at t).time.h < r.exp) ∧
    (∃ (s : State) (g : Nat) (m : Nat), g < 512 ∧ m < 4 ∧ s.reaches 0x92 true ∧ s.tstate < 2 ∧ (s.liveGroup g).valid
      = true ∧ (s.groupMembers g).any (fun x => x.1 == m) = true ∧ s.rd (gstateAt g) GSTATE_LIVE < 16) ∧
    (∃ (s : State) (g : Nat) (m : Nat) (both : Bool), g < 512 ∧ m < 4 ∧ s.reaches 0x92 true ∧ (both = true ∨
      (s.liveGroup g).valid = false ∨ (s.groupMembers g).any (fun x => x.1 == m) = false)) ∧
    (∃ (s : State) (g : Nat) (m : Nat), g < 512 ∧ m < 4 ∧ s.reaches 0x92 true ∧ s.tstate < 2 ∧ (s.liveGroup g).valid
      = true ∧ (s.groupMembers g).any (fun x => x.1 == m) = true ∧ s.rd (gstateAt g) GSTATE_LIVE < 16) ∧
    (∃ (s : State) (g : Nat) (m : Nat) (both : Bool), g < 512 ∧ m < 4 ∧ s.reaches 0x92 true ∧ (both = true ∨
      (s.liveGroup g).valid = false ∨ (s.groupMembers g).any (fun x => x.1 == m) = false)) ∧
    (∃ (s : State) (i : Nat), i < 16384 ∧ s.reaches 0x90 true ∧ s.tstate < 2) ∧
    (∃ (s : State) (i : Nat), i < 2048 ∧ s.reaches 0x90 true ∧ s.tstate < 2) ∧
    (∃ (s : State) (i : Nat), i < 16384 ∧ s.reaches 0x90 true ∧ s.tstate < 2 ∧ (s.quarGet false i).isSome = true) ∧
    (∃ (s : State) (i : Nat), i < 2048 ∧ s.reaches 0x90 true ∧ s.tstate < 2 ∧ (s.quarGet true i).isSome = true) ∧
    (∃ (s : State) (i : Nat) (port : Bool) (both : Bool), s.reaches 0x90 true ∧ (both = true ∨ (if port then 2048
      else 16384) ≤ i)) ∧
    (∃ (s : State) (i : Nat) (port : Bool) (both : Bool), s.reaches 0x90 true ∧ (both = true ∨ (if port then 2048
      else 16384) ≤ i)) :=
  ⟨⟨wit107, 70000, 5, 1, ⟨[], 50, some 1, none, 0, none⟩, by decide +kernel⟩,
   ⟨wit108, 70000, 5, ⟨[⟨0, anItem 9 0, false, none⟩], 50, none, none, 0, none⟩, by decide +kernel⟩,
   ⟨wit109, 7, 5, ⟨[], 500000, some 1, none, 0, none⟩, by decide +kernel⟩,
   ⟨wit110, 5, 0, by delta State.reaches; decide +kernel⟩,
   ⟨wit107, 5, 2, false, by delta State.reaches; decide +kernel⟩,
   ⟨wit110, 5, 0, by delta State.reaches; decide +kernel⟩,
   ⟨wit107, 5, 2, false, by delta State.reaches; decide +kernel⟩,
   ⟨ready, 16383, by delta State.reaches; decide +kernel⟩,
   ⟨ready, 2047, by delta State.reaches; decide +kernel⟩,
   ⟨wit111, 7, by delta State.reaches; decide +kernel⟩,
   ⟨wit112, 7, by delta State.reaches; decide +kernel⟩,
   ⟨ready, 2048, true, false, by delta State.reaches; decide +kernel⟩,
   ⟨ready, 16384, false, false, by delta State.reaches; decide +kernel⟩⟩

theorem witness_TimeBaseIsSetSteppedAndCaptured :
    (∃ (s : State) (d : Nat), s.reaches 6 false ∧ s.on pgTIME TIME_H_VALID = false ∧ d = instant (s.rd pgTIME
      TIME_SET_S) (s.rd pgTIME TIME_SET_NS) 0) ∧
    (∃ (s : State), s.reaches 6 false ∧ s.on pgTIME TIME_H_VALID = true) ∧
    (∃ (s : State), s.reaches 6 false ∧ s.on pgTIME TIME_H_VALID = true ∧ s.on pgTIME TIME_H_SRC = false ∧ s.on
      pgTIME TIME_STEP_PEND = false ∧ (s.rdI pgTIME TIME_STEP_NS).natAbs < 1000000000) ∧
    (∃ (s : State), s.reaches 6 false ∧ (s.on pgTIME TIME_H_VALID = false ∨ s.on pgTIME TIME_H_SRC = true ∨ s.on
      pgTIME TIME_STEP_PEND = true ∨ 1000000000 ≤ (s.rdI pgTIME TIME_STEP_NS).natAbs)) ∧
    (∃ (s : State) (d : Int), s.time.step = some d) ∧
    (∃ (s : State) (x : Nat), s.time.step = none ∧ s.on pgTIME TIME_H_SRC = false ∧ x < 2 ∧ s.rd pgTIME TIME_SEL_MODE
      = x ∧ s.selDom = x ∧ s.domState x = 0) ∧
    (∃ (s : State), s.reaches 6 false) ∧
    (∃ (s : State) (t : Nat), s.on pgTIME TIME_LEAP_V = true ∧ s.rd pgTIME TIME_LEAP_S ≤ secOf (s.at t).time.h) ∧
    (∃ (s : State) (t : Nat), (s.on pgTIME TIME_LEAP_V = false ∨ secOf (s.at t).time.h < s.rd pgTIME TIME_LEAP_S)) ∧
    (∃ (s : State), s.active = true ∧ s.on pgTIME TIME_H_VALID = true) ∧
    (∃ (s : State), (s.active = false ∨ s.on pgTIME TIME_H_VALID = false)) :=
  ⟨⟨wit113, 6553600000458752, by delta State.reaches; decide +kernel⟩,
   ⟨wit114, by delta State.reaches; decide +kernel⟩,
   ⟨wit115, by delta State.reaches; decide +kernel⟩,
   ⟨ready, by delta State.reaches; decide +kernel⟩,
   ⟨wit116, (-200), by decide +kernel⟩,
   ⟨wit117, 0, by decide +kernel⟩,
   ⟨wit118, by delta State.reaches; decide +kernel⟩,
   ⟨wit119, 700000000000000, by decide +kernel⟩,
   ⟨wit120, 7, by decide +kernel⟩,
   ⟨wit121, by decide +kernel⟩,
   ⟨hubActive, by decide +kernel⟩⟩

theorem witness_DomainSamplesAndPulsePerSecond :
    (∃ (s : State) (t : Nat) (x : Nat) (a : Nat), x < 2 ∧ s.reaches 6 false ∧ s.domState x = 0 ∧ s.rd pgTIME (domF
      TIME_DOM_SRC x) = 3 ∧ s.rd pgTIME (domF TIME_DOM_SMP_NS x) < 1000000000 ∧ a = instant (s.rd pgTIME (domF
      TIME_DOM_SMP_S x)) (s.rd pgTIME (domF TIME_DOM_SMP_NS x)) 0 ∧ (s.at t).time.h ≤ a + 2 * secU ∧ a ≤ (s.at
      t).time.h ∧ (s.dom x).last = none) ∧
    (∃ (s : State) (t : Nat) (x : Nat), x < 2 ∧ s.reaches 6 false ∧ s.rd pgTIME (domF TIME_DOM_SRC x) = 3 ∧ s.rd
      pgTIME (domF TIME_DOM_SMP_NS x) < 1000000000 ∧ (s.at t).time.h < instant (s.rd pgTIME (domF TIME_DOM_SMP_S x))
      (s.rd pgTIME (domF TIME_DOM_SMP_NS x)) 0) ∧
    (∃ (s : State) (x : Nat), x < 2 ∧ s.reaches 6 false ∧ 1000000000 ≤ s.rd pgTIME (domF TIME_DOM_SMP_NS x)) ∧
    (∃ (s : State) (t : Nat) (x : Nat), x < 2 ∧ (s.dom x).heard + s.rd pgTIME (domF TIME_DOM_MISS_MS x) * msU ≤ max
      s.time.clk t) ∧
    (∃ (s : State) (x : Nat), x < 2 ∧ s.reaches 6 false) ∧
    (∃ (s : State) (t : Nat) (n : Nat) (fall : Bool), n < 2 ∧ s.on pgTIME (ppsF TIME_PPSI_EN n) = true ∧ s.on pgTIME
      (ppsF TIME_PPSI_FALL n) = fall ∧ (∀ l ∈ (tabGet? s.time.ppsAt n).toList, l + secU / 2 ≤ max s.time.clk t) ∧
      s.rd pgTIME (domF TIME_DOM_SRC 0) ≠ n + 1 ∧ s.rd pgTIME (domF TIME_DOM_SRC 1) ≠ n + 1) ∧
    (∃ (s : State) (n : Nat) (short : Bool), (n < 2 ∧ (s.on pgTIME (ppsF TIME_PPSI_EN n) = false ∨ short = true))) ∧
    (∃ (s : State) (t : Nat) (n : Nat) (l : Nat) (fall : Bool), n < 2 ∧ s.on pgTIME (ppsF TIME_PPSI_EN n) = true ∧
      s.on pgTIME (ppsF TIME_PPSI_FALL n) = fall ∧ tabGet? s.time.ppsAt n = some l ∧ max s.time.clk t < l + secU / 2) ∧
    (∃ (s : State) (t : Nat) (n : Nat), n < 2 ∧ s.on pgTIME (ppsF TIME_PPSI_EN n) = true ∧ s.time.ppsGap.contains n =
      false ∧ (tabGet? s.time.ppsAt n).getD s.time.relClk + 3 * secU / 2 ≤ max s.time.clk t) ∧
    (∃ (s : State) (n : Nat), n < 2 ∧ s.time.ppsGap.contains n = true) ∧
    (∃ (s : State) (n : Nat) (g : Nat), n < 2 ∧ s.on pgTIME (ppsF TIME_PPSO_EN n) = true ∧ s.on pgTIME TIME_H_VALID =
      true ∧ s.ppsGate n = true ∧ s.rd pgTIME (ppsF TIME_PPSO_SRC n) = 0 ∧ g % 1000000000 % s.rd pgTIME (ppsF
      TIME_PPSO_PERIOD_NS n) = 0 ∧ s.time.ppsWait.contains n = false ∧ s.sys.jtag = false ∧ s.sys.banksOff.testBit 1
      = false) ∧
    (∃ (s : State) (n : Nat), n < 2 ∧ s.on pgTIME (ppsF TIME_PPSO_EN n) = true ∧ s.on pgTIME TIME_H_VALID = true ∧
      s.ppsGate n = false) :=
  ⟨⟨wit122, 700000000, 1, 327680, by delta State.reaches; decide +kernel⟩,
   ⟨wit123, 7, 1, by delta State.reaches; decide +kernel⟩,
   ⟨wit124, 1, by delta State.reaches; decide +kernel⟩,
   ⟨wit125, 700000000000000, 1, by decide +kernel⟩,
   ⟨wit126, 1, by delta State.reaches; decide +kernel⟩,
   ⟨wit127, 70000000, 1, false, by decide +kernel⟩,
   ⟨ready, 1, false, by decide +kernel⟩,
   ⟨wit128, 700, 1, 50, false, by decide +kernel⟩,
   ⟨wit129, 700000000000000, 1, by decide +kernel⟩,
   ⟨wit130, 1, by decide +kernel⟩,
   ⟨wit131, 1, 5000000000, by decide +kernel⟩,
   ⟨wit132, 1, by decide +kernel⟩⟩

theorem witness_EncodersAndAxesFollowTheirLines :
    (∃ (s : State) (n : Nat) (a : Bool) (b : Bool) (e : Enc) (d : Int), n < 8 ∧ s.enc n = e ∧ s.rd pgAXIS (encF
      AXIS_ENC_MODE n) ≠ 0 ∧ ((e.a = a ∨ e.b = b) ∧ encStep (s.rd pgAXIS (encF AXIS_ENC_MODE n)) e.a e.b a b ≠ 0) ∧ d
      = (if s.on pgAXIS (encF AXIS_ENC_INV n) then -encStep (s.rd pgAXIS (encF AXIS_ENC_MODE n)) e.a e.b a b else
      encStep (s.rd pgAXIS (encF AXIS_ENC_MODE n)) e.a e.b a b)) ∧
    (∃ (s : State) (n : Nat) (a : Bool) (b : Bool) (e : Enc), n < 8 ∧ s.enc n = e ∧ s.rd pgAXIS (encF AXIS_ENC_MODE
      n) ≠ 0 ∧ e.a ≠ a ∧ e.b ≠ b) ∧
    (∃ (s : State) (n : Nat), n < 8 ∧ s.rd pgAXIS (encF AXIS_ENC_MODE n) = 0) ∧
    (∃ (s : State) (n : Nat), n < 8 ∧ s.rd pgAXIS (encF AXIS_ENC_MODE n) ≠ 0 ∧ s.rd pgAXIS (encF AXIS_ENC_Z_MODE n) =
      1 ∧ s.on pgAXIS (encF AXIS_ENC_HOMED n) = false) ∧
    (∃ (s : State) (n : Nat), (n < 8 ∧ (s.rd pgAXIS (encF AXIS_ENC_MODE n) = 0 ∨ s.rd pgAXIS (encF AXIS_ENC_Z_MODE n)
      = 0))) ∧
    (∃ (s : State) (t : Nat) (k : Nat), k < 14 ∧ s.axSrc (k + 2) ≠ 0 ∧ (s.ax (k + 2)).stopped = false ∧ (s.ax (k +
      2)).countAt + s.rd pgAXIS (axF AXIS_AX_STILL_MS (k + 2)) * msU ≤ max s.time.clk t) ∧
    (∃ (s : State) (k : Nat) (word : Word), k < 14 ∧ s.reaches 7 true ∧ s.tstate < 2 ∧ s.held = [] ∧ (s.setWord
      pgAXIS rows_AXIS (axBase (k + 2)) word.toNat).axLegal (k + 2) = true) ∧
    (∃ (s : State) (k : Nat) (word : Word), k < 14 ∧ s.reaches 7 true ∧ s.held = [] ∧ (s.setWord pgAXIS rows_AXIS
      (axBase (k + 2)) word.toNat).axLegal (k + 2) = false) ∧
    (∃ (s : State), s.reaches 7 true ∧ s.tstate < 2) ∧
    (∃ (s : State) (k : Nat), k < 14 ∧ s.active = true ∧ s.on pgTIME TIME_H_VALID = true ∧ s.axSrc (k + 2) ≠ 0 ∧ s.rd
      pgAXIS (axF AXIS_AX_TX_US (k + 2)) ≠ 0) ∧
    (∃ (s : State) (r : Nat) (at_ : Nat) (k : RingPkt), s.ring.inbox = [(r, at_, k)] ∧ k.pt = 0x30 ∧ (s.axesRemote
      k.src (beAt k.payload 1 1 % 8) = [] ∨ s.reachable k.src = false)) ∧
    (∃ (s : State) (r : Nat) (at_ : Nat) (x : Nat) (k : RingPkt), s.ring.inbox = [(r, at_, k)] ∧ k.pt = 0x30 ∧
      s.reachable k.src = true ∧ s.axesRemote k.src (beAt k.payload 1 1 % 8) = [x] ∧ tabGet? s.axis.edgeSeq (k.src *
      8 + beAt k.payload 1 1 % 8) = none ∧ (beAt k.payload 3 1).testBit 1 = true ∧ k.payload.length = 36 ∧ beAt
      k.payload 2 1 = 1 ∧ (beAt k.payload 35 1).testBit 2 = false ∧ (s.ax x).hist = []) :=
  ⟨⟨encUp, 3, true, true, ⟨true, false, 40, none⟩, 1, by decide +kernel⟩,
   ⟨encUp, 3, false, true, ⟨true, false, 40, none⟩, by decide +kernel⟩,
   ⟨ready, 3, by decide +kernel⟩,
   ⟨wit133, 3, by decide +kernel⟩,
   ⟨encUp, 3, by decide +kernel⟩,
   ⟨encUp, 70000000000000, 2, by decide +kernel⟩,
   ⟨encUp, 2, 0x10000D#32, by delta State.reaches; decide +kernel⟩,
   ⟨encUp, 2, 0x3#32, by delta State.reaches; decide +kernel⟩,
   ⟨encUp, by delta State.reaches; decide +kernel⟩,
   ⟨wit134, 2, by decide +kernel⟩,
   ⟨wit135, 0, 3, mkPkt 4 0x30 0 254 0 edgeMsg, by decide +kernel⟩,
   ⟨edgeUp, 0, 3, 5, mkPkt 4 0x30 0 254 0 edgeMsg, by decide +kernel⟩⟩

theorem witness_EventSlotsFireAndRepeat :
    (∃ (s : State) (t : Nat) (k : Nat), k < 64 ∧ s.on (slotAt k) SLOT_ARMED = true ∧ s.on pgTIME TIME_H_VALID = true
      ∧ s.rd (slotAt k) SLOT_AXIS < 2 ∧ s.rd (slotAt k) SLOT_DIR = 1 ∧ s.slotTarget k ≤ (s.at t).slotNow k ∧ s.on
      (slotAt k) SLOT_TO_HOST = true ∧ s.on (slotAt k) SLOT_TO_TONGS = false ∧ s.rd (slotAt k) SLOT_PERIOD = 0 ∧ s.rd
      (slotAt k) SLOT_COUNT = 0) ∧
    (∃ (s : State) (t : Nat) (k : Nat), k < 64 ∧ s.rd (slotAt k) SLOT_AXIS < 2 ∧ (s.on (slotAt k) SLOT_ARMED = false
      ∨ s.on pgTIME TIME_H_VALID = false ∨ (s.rd (slotAt k) SLOT_DIR = 1 ∧ (s.at t).slotNow k < s.slotTarget k))) ∧
    (∃ (s : State) (k : Nat) (word : Word), k < 64 ∧ s.reachesWin true ∧ s.tstate < 2 ∧ (s.slotSet k
      word.toNat).slotLegal k = true ∧ (s.slotSet k word.toNat).on (slotAt k) SLOT_ARM = false) ∧
    (∃ (s : State) (t : Nat) (k : Nat) (word : Word), k < 64 ∧ s.reachesWin true ∧ s.tstate < 2 ∧ (s.slotSet k
      word.toNat).slotLegal k = true ∧ (s.slotSet k word.toNat).on (slotAt k) SLOT_ARM = true ∧ (((s.slotSet k
      word.toNat).at t).slotWaits k = true ∨ ((s.slotSet k word.toNat).at t).slotPast k ((s.slotSet k
      word.toNat).slotTarget k) = false)) ∧
    (∃ (s : State) (k : Nat) (word : Word), k < 64 ∧ s.reachesWin true ∧ (s.slotSet k word.toNat).slotLegal k =
      false) ∧
    (∃ (s : State) (t : Nat) (h : Nat) (k : Nat) (w : Nat), k < 64 ∧ s.twin.atH = [(h, slotAt k, w)] ∧ h ≤ (s.at
      t).time.h) :=
  ⟨⟨slotUp, 70000000, 6, by decide +kernel⟩,
   ⟨slotUp, 70000, 6, by decide +kernel⟩,
   ⟨slotUp, 6, 0x10#32, by delta State.reachesWin; decide +kernel⟩,
   ⟨wit136, 5, 6, 0x21#32, by delta State.reachesWin; decide +kernel⟩,
   ⟨wit136, 6, 0xC1#32, by delta State.reachesWin; decide +kernel⟩,
   ⟨wit137, 70000000, 5, 6, 0x10, by decide +kernel⟩⟩

theorem witness_LanesTrainAndAgree :
    (∃ (s : State) (p : Nat), p < 4 ∧ s.lstate p = 0 ∧
      ({ s.setHop p { s.hop p with signal := true } with out := s.out }).mayTrain p = true) ∧
    (∃ (e : Nat), e < 2) ∧
    (∃ (s : State) (p : Nat), p < 4 ∧ s.training p = true ∧ (s.hop p).lock = false) ∧
    (∃ (s : State) (t : Nat) (p : Nat), p < 4 ∧ s.training p = true ∧ (s.hop p).lock = false ∧ (s.hop p).trainAt + 2
      * msU ≤ max s.time.clk t) ∧
    (∃ (s : State) (p : Nat) (bad : Nat), p < 4 ∧ s.training p = true ∧ (s.hop p).lock = true ∧ bad ≤ 16) ∧
    (∃ (s : State) (p : Nat) (minor : Nat) (build : Nat) (cred : List Nat), p < 4 ∧ s.training p = true ∧ (s.hop
      p).lock = true ∧ (s.hop p).trains = 2 ∧ (minor < 256 ∧ build < 65536 ∧ cred.length = 3 ∧ (∀ c ∈ cred, 38 ≤ c ∧
      c < 65536)) ∧ (s.hop p).peerMax = 3 ∧ (s.hop p).peerMin = 2 ∧ (s.hop p).peerMinor = minor ∧ (s.hop p).peerCred
      = cred) ∧
    (∃ (s : State) (p : Nat) (mx : Nat) (mn : Nat), p < 4 ∧ s.training p = true ∧ (s.hop p).lock = true ∧ 3 < mn ∧ mn
      ≤ mx ∧ mx < 256) ∧
    (∃ (s : State) (p : Nat), p < 4 ∧ s.training p = true ∧ (s.hop p).lock = true ∧ s.mayFall p = false ∧ ((s.hop
      p).trainAt + msU ≤ s.time.clk ∨ (s.hop p).slow = true ∨ s.rd (pgRINGP p) RINGP_RATE_CTL ≠ 0)) ∧
    (∃ (s : State) (p : Nat), p < 4 ∧ (s.hop p).hello = true) ∧
    (∃ (s : State) (p : Nat) (id : Nat), p < 4 ∧ (s.hop p).hello = true ∧ s.lstate p = 1 ∧ 1 ≤ id ∧ id ≤ 250 ∧ (s.hop
      p).queue = [] ∧ s.portUp (otherPort p) = false ∧ s.portUp (2 * (1 - p / 2)) = false ∧ s.portUp (2 * (1 - p / 2)
      + 1) = false) ∧
    (∃ (s : State) (p : Nat) (ring : Nat), p < 4 ∧ (s.hop p).hello = true ∧ s.lstate p = 1 ∧ ring < 2 ∧ ring ≠ p / 2
      ∧ s.rd (pgRINGP p) RINGP_CAUSE ≠ 5) ∧
    (∃ (s : State) (l : Nat) (id : Nat), l < 2 ∧ (s.hop (4 + l)).hello = true ∧ s.laneUp l = false ∧ id < 256 ∧ id ≠
      s.nodeId) :=
  ⟨⟨ready, 2, by decide +kernel⟩,
   ⟨1, by decide +kernel⟩,
   ⟨wit138, 2, by decide +kernel⟩,
   ⟨wit138, 700000000000, 2, by decide +kernel⟩,
   ⟨wit139, 2, 3, by decide +kernel⟩,
   ⟨wit140, 2, 1, 7, [512, 256, 2048], by decide +kernel⟩,
   ⟨wit139, 2, 5, 4, by decide +kernel⟩,
   ⟨wit141, 2, by decide +kernel⟩,
   ⟨wit142, 3, by decide +kernel⟩,
   ⟨wit143, 2, 7, by decide +kernel⟩,
   ⟨wit144, 2, 0, by decide +kernel⟩,
   ⟨wit145, 1, 254, by decide +kernel⟩⟩

theorem witness_HopsGoDownAndRetrain :
    (∃ (s : State) (p : Nat), p < 4 ∧ s.portUp p = true ∧ (s.hop p).queue = [] ∧ (s.hop p).replay = [] ∧ s.on
      (pgRINGP p) RINGP_ADMIN_DOWN = false ∧ (∀ k : Nat, k < 4 → k = p ∨ s.portUp k = false)) ∧
    (∃ (s : State) (e : Nat), e < 2 ∧ s.on (pgETH e) ETH_LINK = true) ∧
    (∃ (s : State) (p : Nat), p < 4 ∧ s.reaches (0x10 + p) false ∧ s.portUp p = false) ∧
    (∃ (s : State) (p : Nat), p < 4 ∧ s.reaches (0x10 + p) false ∧ s.portUp p = false ∧ s.mayTrain p = true) ∧
    (∃ (s : State) (t : Nat) (p : Nat), p < 4 ∧ s.portUp p = true ∧ (s.hop p).replay ≠ [] ∧ (s.hop p).stuck + 1 < 8 ∧
      (s.hop p).progAt + s.rd (pgRINGP p) RINGP_REPLAY_US * usU ≤ max s.time.clk t) ∧
    (∃ (s : State) (t : Nat) (p : Nat), (p < 4 ∧ (s.portUp p = false ∨ (s.hop p).replay = [] ∨ max s.time.clk t <
      (s.hop p).progAt + s.rd (pgRINGP p) RINGP_REPLAY_US * usU))) :=
  ⟨⟨wit146, 2, by decide +kernel⟩,
   ⟨wit147, 1, by decide +kernel⟩,
   ⟨wit139, 2, by delta State.reaches; decide +kernel⟩,
   ⟨wit139, 2, by delta State.reaches; decide +kernel⟩,
   ⟨wit148, 70000000000, 2, by decide +kernel⟩,
   ⟨wit148, 5, 2, by decide +kernel⟩⟩

theorem witness_NumberedFramesAreAcknowledged :
    (∃ (s : State) (p : Nat) (vc : Nat) (body : List Byte), p < 4 ∧ s.portUp p = true ∧ (s.hop p).rxSeq < 65536 ∧ vc
      < 4 ∧ 8 ≤ body.length ∧ body.length ≤ 2368) ∧
    (∃ (s : State) (p : Nat) (lseq : Nat) (body : List Byte), p < 4 ∧ s.portUp p = true ∧ 8 ≤ body.length ∧
      body.length ≤ 2368 ∧ 32768 ≤ (lseq % 65536 + 65536 - (s.hop p).rxSeq) % 65536) ∧
    (∃ (s : State) (p : Nat), p < 4 ∧ s.portUp p = true ∧ (s.hop p).nakAt = none) ∧
    (∃ (s : State) (p : Nat), p < 4 ∧ s.portUp p = false) ∧
    (∃ (s : State) (p : Nat), p < 4 ∧ s.portUp p = true) ∧
    (∃ (s : State) (p : Nat) (k : Nat) (l : List (Nat × Nat × List Byte)), p < 4 ∧ s.portUp p = true ∧ (s.hop
      p).queue = [] ∧ (s.hop p).stallAt = none ∧ ackRest (k % 65536) (s.hop p).replay = some l) ∧
    (∃ (s : State) (p : Nat) (k : Nat), p < 4 ∧ s.portUp p = true ∧ ackRest (k % 65536) (s.hop p).replay = none) ∧
    (∃ (s : State) (p : Nat) (k : Nat), p < 4 ∧ s.portUp p = true ∧ ackRest (k % 65536) (s.hop p).replay = none) ∧
    (∃ (s : State) (p : Nat) (a : Nat) (b : Nat) (c : Nat) (a0 : Nat) (b0 : Nat) (c0 : Nat), p < 4 ∧ s.portUp p =
      true ∧ (s.hop p).queue = [] ∧ (s.hop p).stallAt = none ∧ a < 65536 ∧ b < 65536 ∧ c < 65536 ∧ (s.hop
      p).peerFreed = [a0, b0, c0] ∧ a0 ≤ a ∧ b0 ≤ b ∧ c0 ≤ c) ∧
    (∃ (s : State) (p : Nat), p < 4 ∧ s.portUp p = true) ∧
    (∃ (s : State) (p : Nat), p < 4 ∧ s.portUp p = true) ∧
    (∃ (s : State) (p : Nat), p < 4 ∧ s.portUp p = true) ∧
    (∃ (s : State) (t : Nat) (p : Nat) (t1 : Nat) (t2 : Nat) (t3 : Nat), p < 4 ∧ s.portUp p = true ∧ (s.hop
      p).hopRes.length < 16 ∧ t1 ≤ max s.time.clk t ∧ max s.time.clk t < 2 ^ 63 ∧ t2 ≤ t3 ∧ t3 < 2 ^ 63) :=
  ⟨⟨wit148, 2, 3, zeros 9, by decide +kernel⟩,
   ⟨wit148, 2, 65535, zeros 9, by decide +kernel⟩,
   ⟨wit148, 2, by decide +kernel⟩,
   ⟨wit139, 2, by decide +kernel⟩,
   ⟨wit148, 2, by decide +kernel⟩,
   ⟨wit148, 2, 65536, [], by decide +kernel⟩,
   ⟨wit148, 2, 7, by decide +kernel⟩,
   ⟨wit148, 2, 7, by decide +kernel⟩,
   ⟨wit148, 2, 4, 0, 65535, 0, 0, 0, by decide +kernel⟩,
   ⟨wit148, 2, by decide +kernel⟩,
   ⟨wit148, 2, by decide +kernel⟩,
   ⟨wit148, 2, by decide +kernel⟩,
   ⟨wit148, 900000, 2, 5, 400, 700, by decide +kernel⟩⟩

theorem witness_PacketsReachTheirHubAndGoOn :
    (∃ (s : State) (p : Nat) (vc : Nat), (p < 4 ∧ vc < 4 ∧ (∀ e ∈ (s.hop p).rxq, e.1 ≠ vc))) ∧
    (∃ (s : State) (p : Nat) (vc : Nat) (body : List Byte) (l : List (Nat × List Byte)), p < 4 ∧ vc < 4 ∧ (s.hop
      p).rxq = (vc, body) :: l ∧ pktOf body = none) ∧
    (∃ (s : State) (p : Nat) (vc : Nat) (body : List Byte) (l : List (Nat × List Byte)) (k : RingPkt), p < 4 ∧ vc < 4
      ∧ (s.hop p).rxq = (vc, body) :: l ∧ pktOf body = some k ∧ (k.wr = false ∧ k.dmode = 0 ∧ k.dst = s.nodeId ∧
      k.src ≠ s.nodeId ∧ 2 ≤ k.hops ∧ (k.pt = 1 ∨ k.pt = 16 ∨ k.pt = 17 ∨ k.pt = 32))) ∧
    (∃ (s : State) (p : Nat) (vc : Nat) (body : List Byte) (l : List (Nat × List Byte)) (k : RingPkt) (q : Nat), p <
      4 ∧ vc < 4 ∧ q = otherPort p ∧ (s.hop p).rxq = (vc, body) :: l ∧ pktOf body = some k ∧ k.wr = false ∧ k.dmode =
      0 ∧ k.dst ≠ s.nodeId ∧ k.src ≠ s.nodeId ∧ 2 ≤ k.hops ∧ k.pt = 32 ∧ s.portUp q = true ∧ (s.hop q).queue = [] ∧
      (s.hop q).stallAt = none ∧ s.mayGo q 1 false (pktBytes { k with hops := k.hops - 1 }) = true) ∧
    (∃ (s : State) (r : Nat) (at_ : Nat) (k : RingPkt), s.ring.inbox = [(r, at_, k)] ∧ k.pt = 1 ∧ s.admitted r k.src
      = false) ∧
    (∃ (s : State) (r : Nat) (at_ : Nat) (k : RingPkt) (w : IseqWin), s.ring.inbox = [(r, at_, k)] ∧ k.pt = 1 ∧
      s.admitted r k.src = true ∧ (tabGet? s.ring.iseq k.src = some w ∧ w.top = beAt k.payload 0 4 ∧ (∀ m ∈ w.miss,
      m.1 ≠ w.top) ∧ w.lost.contains w.top = false)) ∧
    (∃ (s : State) (r : Nat) (at_ : Nat) (k : RingPkt), s.ring.inbox = [(r, at_, k)] ∧ r < 2 ∧ k.pt = 1 ∧ s.admitted
      r k.src = true ∧ tabGet? s.ring.iseq k.src = none ∧ s.portOf k.src (leAt k.payload 4 1) = none ∧ s.ring.sigHeld
      = []) ∧
    (∃ (s : State) (n : Nat) (w : IseqWin), s.ring.iseq = [(n, w)]) ∧
    (∃ (s : State) (r0 : Nat) (at_ : Nat) (r : Nat) (h : Nat) (q : Nat) (d : Nat) (k : RingPkt) (c : RingPkt),
      s.ring.inbox = [(r0, at_, k)] ∧ k.pt = 17 ∧ s.nearest k.src = some (r, d, h) ∧ s.egressTo r k.src = some (d, h)
      ∧ c = { mkPkt s.nodeId 0x20 0 k.src 0 (k.payload.take 2 ++ [8#8, 0#8]) with hops := h } ∧ q = ringPort r d ∧ q
      < 4 ∧ s.portUp q = true ∧ (s.hop q).queue = [] ∧ (s.hop q).stallAt = none ∧ s.mayGo q 1 true (pktBytes c) =
      true) ∧
    (∃ (s : State) (r0 : Nat) (at_ : Nat) (r : Nat) (h : Nat) (q : Nat) (d : Nat) (k : RingPkt) (c : RingPkt),
      s.ring.inbox = [(r0, at_, k)] ∧ k.pt = 16 ∧ s.nearest k.src = some (r, d, h) ∧ s.egressTo r k.src = some (d, h)
      ∧ s.reachable k.src = true ∧ leAt k.payload 2 1 ≠ 4 ∧ leAt k.payload 2 1 ≠ 8 ∧ leAt k.payload 2 1 ≠ 16 ∧ leAt
      k.payload 2 1 ≠ 32 ∧ leAt k.payload 2 1 ≠ 64 ∧ c =
      { mkPkt s.nodeId 0x20 0 k.src 0 (k.payload.take 2 ++ [1#8, 0#8]) with hops := h } ∧ q = ringPort r d ∧ q < 4 ∧
      s.portUp q = true ∧ (s.hop q).queue = [] ∧ (s.hop q).stallAt = none ∧ s.mayGo q 1 true (pktBytes c) = true) ∧
    (∃ (s : State) (r : Nat) (at_ : Nat) (k : RingPkt), s.ring.inbox = [(r, at_, k)] ∧ k.pt = 32 ∧ tabGet?
      s.ring.tags (beAt k.payload 0 2 % 1024) = none) ∧
    (∃ (s : State) (r : Nat) (at_ : Nat) (at1 : Nat) (g : Nat) (n : Nat) (k : RingPkt) (q : Req), s.ring.inbox = [(r,
      at_, k)] ∧ k.pt = 32 ∧ beAt k.payload 0 2 % 1024 = g ∧ s.ring.tags = [(g, at1, q)] ∧ s.ring.waiting = [] ∧
      q.origin = .ra n ∧ n < 32 ∧ q.write = true ∧ leAt k.payload 2 1 = 0 ∧ s.on (raAt n) RA_IRQ = false ∧ beAt
      k.payload 0 2 / 1024 % 4 = ((tabGet? s.ring.tgen g).getD 0 + 3) % 4) ∧
    (∃ (s : State) (t : Nat) (at_ : Nat) (g : Nat) (n : Nat) (q : Req), s.ring.tags = [(g, at_, q)] ∧ s.ring.waiting
      = [] ∧ q.origin = .ra n ∧ n < 32 ∧ s.on (raAt n) RA_IRQ = false ∧ at_ + s.rd pgRING RING_CPL_TO_US * usU ≤ max
      s.time.clk t) :=
  ⟨⟨wit148, 2, 1, by decide +kernel⟩,
   ⟨wit149, 2, 3, zeros 9, [(1, zeros 8)], by decide +kernel⟩,
   ⟨wit150, 2, 3, pktBytes (pktTo 7 1 ready.nodeId), [], pktTo 7 1 ready.nodeId, by decide +kernel⟩,
   ⟨wit151, 2, 1, pktBytes (pktTo 7 32 9), [], pktTo 7 32 9, 3, by decide +kernel⟩,
   ⟨wit152, 1, 3, pktTo 7 1 254, by decide +kernel⟩,
   ⟨wit153, 0, 3, pktTo 7 1 254, ⟨0, 0, [], [], []⟩, by decide +kernel⟩,
   ⟨wit154, 0, 3, pktTo 7 1 254, by decide +kernel⟩,
   ⟨wit155, 7, ⟨0, 4, [(2, 1), (3, 9000000000)], [], []⟩, by decide +kernel⟩,
   ⟨wit156, 0, 3, 0, 1, 0, 0, pktTo 7 17 254, { mkPkt leafNear.nodeId 0x20 0 7 0 ((pktTo 7 17 254).payload.take 2 ++ [8#8, 0#8]) with hops := 1 }, by decide +kernel⟩,
   ⟨wit157, 0, 3, 0, 1, 0, 0, pktTo 7 16 254, { mkPkt leafNear.nodeId 0x20 0 7 0 ((pktTo 7 16 254).payload.take 2 ++ [1#8, 0#8]) with hops := 1 }, by decide +kernel⟩,
   ⟨wit158, 0, 3, pktTo 7 32 254, by decide +kernel⟩,
   ⟨wit159, 0, 3, 1, 4, 9, { pktTo 7 32 254 with payload := [0#8, 4#8, 0#8, 0#8] }, ⟨7, true, 4, 0, [], .ra 9⟩, by decide +kernel⟩,
   ⟨wit160, 700000000000, 1, 4, 9, ⟨7, true, 4, 0, [], .ra 9⟩, by decide +kernel⟩⟩

theorem witness_SignalsBeatsAndDiscovery :
    (∃ (s : State) (at_ : Nat) (r : Nat) (k : RingPkt), s.ring.inbox = [(r, at_, k)] ∧ k.pt = 3 ∧ leAt k.payload 4 1
      = 1 ∧ isLeafId k.src = false) ∧
    (∃ (s : State) (at_ : Nat) (r : Nat) (k : RingPkt), s.ring.inbox = [(r, at_, k)] ∧ k.pt = 3 ∧ leAt k.payload 4 1
      = 1 ∧ isLeafId k.src = true ∧ s.admitted r k.src = false) ∧
    (∃ (s : State) (at_ : Nat) (r : Nat) (k : RingPkt), s.ring.inbox = [(r, at_, k)] ∧ k.pt = 3 ∧ leAt k.payload 4 1
      = 2 ∧ isLeafId k.src = false) ∧
    (∃ (s : State) (at_ : Nat) (r : Nat) (k : RingPkt), s.ring.inbox = [(r, at_, k)] ∧ k.pt = 3 ∧ leAt k.payload 4 1
      = 3 ∧ isLeafId k.src = true ∧ k.src < 256 ∧ s.admitted r k.src = true ∧ s.rd (nodeAt k.src) NODE_INCARN ≠ beAt
      k.payload 10 2 ∧ s.active = false ∧ s.ring.tags = [] ∧ s.ring.waiting = [] ∧ s.ring.sigHeld = []) ∧
    (∃ (s : State) (at_ : Nat) (r : Nat) (k : RingPkt), s.ring.inbox = [(r, at_, k)] ∧ k.pt = 3 ∧ leAt k.payload 4 1
      = 5 ∧ isLeafId k.src = true ∧ k.src < 256 ∧ s.admitted r k.src = true ∧ tabGet? s.ring.iseq k.src = none ∧
      s.ring.sigHeld = []) ∧
    (∃ (s : State) (at_ : Nat) (r : Nat) (p : Nat) (k : RingPkt), s.ring.inbox = [(r, at_, k)] ∧ k.pt = 3 ∧ leAt
      k.payload 4 1 = 6 ∧ isLeafId k.src = true ∧ s.admitted r k.src = true ∧ tabGet? s.ring.iseq k.src = none ∧
      s.ring.sigHeld = [] ∧ s.portOf k.src (leAt k.payload 8 1) = some p) ∧
    (∃ (s : State) (t : Nat) (at_ : Nat) (k : RingPkt), s.ring.sigHeld = [(at_, k)] ∧ max s.time.clk t < at_ + 100 *
      usU) ∧
    (∃ (s : State) (t : Nat) (at_ : Nat) (k : RingPkt), s.ring.sigHeld = [(at_, k)] ∧ at_ + 100 * usU ≤ max
      s.time.clk t ∧ leAt k.payload 4 1 = 5) ∧
    (∃ (s : State) (at_ : Nat) (r : Nat) (k : RingPkt), s.ring.inbox = [(r, at_, k)] ∧ k.pt = 3 ∧ leAt k.payload 4 1
      = 16 ∧ k.src = s.nodeId ∧ s.role ≠ 0) ∧
    (∃ (s : State) (at_ : Nat) (r : Nat) (k : RingPkt), s.ring.inbox = [(r, at_, k)] ∧ k.pt = 3 ∧ leAt k.payload 4 1
      = 17 ∧ isLeafId k.src = true ∧ s.admitted r k.src = true ∧ tabGet? s.ring.iseq k.src = none ∧ s.ring.sigHeld =
      [] ∧ beAt k.payload 10 4 = 0) ∧
    (∃ (s : State), s.beats = false) ∧
    (∃ (s : State), s.beats = true) ∧
    (∃ (s : State), s.reaches 0x14 false) ∧
    (∃ (s : State) (at_ : Nat) (k : RingPkt) (d : DiscRec), s.ring.inbox = [(0, at_, k)] ∧ k.pt = 4 ∧ discRecs 256
      k.payload = [d] ∧ d.hub = false ∧ 1 ≤ d.id ∧ d.id ≤ 250 ∧ s.passOf 0 = [] ∧ s.passOf 1 = [] ∧ s.active = false
      ∧ s.ring.tags = [] ∧ s.ring.waiting = [] ∧ s.on (nodeAt d.id) NODE_ADM_A = false ∧ s.on (nodeAt d.id)
      NODE_ADM_B = false) ∧
    (∃ (s : State) (at_ : Nat), s.ring.passAt = [(0, at_)]) ∧
    (∃ (p : Nat), p < 64) ∧
    (∃ (s : State) (p : Nat) (word : Word), 64 ≤ p ∧ p < 2048 ∧ s.reachesWin true ∧ s.portMapBad p word.toNat = true) ∧
    (∃ (s : State) (p : Nat) (word : Word), 64 ≤ p ∧ p < 2048 ∧ s.reachesWin true ∧ s.portMapBad p word.toNat = false
      ∧ s.tstate < 2 ∧ s.ring.info = []) ∧
    (∃ (s : State) (g : Nat), g < 4096 ∧ tabGet? s.ring.switching g = none) ∧
    (∃ (s : State) (g : Nat) (b : BankSwitch), g < 4096 ∧ tabGet? s.ring.switching g = some b ∧ b.waits = 0 ∧
      b.missed = [] ∧ b.again = false ∧ ((∀ x ∈ s.ring.grpSlots, x.group = g → x.bank ≠ s.rd (mgroupAt g)
      MGROUP_MBANK))) :=
  ⟨⟨wit161, 3, 1, sigFrom 255 1, by decide +kernel⟩,
   ⟨wit162, 3, 1, sigFrom 7 1, by decide +kernel⟩,
   ⟨wit163, 3, 1, sigFrom 255 2, by decide +kernel⟩,
   ⟨wit164, 3, 0, sigFrom 7 3, by decide +kernel⟩,
   ⟨wit165, 3, 0, sigFrom 7 5, by decide +kernel⟩,
   ⟨wit166, 3, 0, 70, sigFrom 7 6, by decide +kernel⟩,
   ⟨wit167, 5, 1, sigFrom 7 5, by decide +kernel⟩,
   ⟨wit167, 9000000000, 1, sigFrom 7 5, by decide +kernel⟩,
   ⟨wit168, 3, 1, sigFrom hubActive.nodeId 16, by decide +kernel⟩,
   ⟨wit169, 3, 0, sigFrom 7 17, by decide +kernel⟩,
   ⟨wit170, by decide +kernel⟩,
   ⟨wit148, by decide +kernel⟩,
   ⟨wit148, by delta State.reaches; decide +kernel⟩,
   ⟨wit171, 3, { pktTo 255 4 254 with payload := discBytes leafRec }, leafRec, by decide +kernel⟩,
   ⟨wit172, 4, by decide +kernel⟩,
   ⟨63, by decide +kernel⟩,
   ⟨hubActive, 64, 0xFB01#32, by delta State.reachesWin; decide +kernel⟩,
   ⟨leafOn, 64, 0x30701#32, by delta State.reachesWin; decide +kernel⟩,
   ⟨leafOn, 4095, by decide +kernel⟩,
   ⟨wit173, 9, ⟨[70, 71], 0, [], false⟩, by decide +kernel⟩⟩

theorem witness_RolesFollowBeatsAndTheQuorum :
    (∃ (s : State), s.beats = true ∧ s.active = true ∧ s.rd pgTWIN TWIN_LANES = 1) ∧
    (∃ (s : State), s.beats = false) ∧
    (∃ (s : State), s.rd pgTWIN TWIN_LANES = 0) ∧
    (∃ (s : State) (health : Nat), s.rd pgTWIN TWIN_LANES ≠ 0 ∧ s.role = 1 ∧ s.tstate = 1 ∧ health < 4096 ∧ s.rd
      pgTWIN TWIN_PEER_HEALTH = health) ∧
    (∃ (s : State) (epoch : Nat) (health : Nat), s.rd pgTWIN TWIN_LANES ≠ 0 ∧ s.role = 2 ∧ s.tstate = 1 ∧ health <
      4096 ∧ s.rd pgTWIN TWIN_PEER_HEALTH = health ∧ epoch < 2 ^ 32 ∧ epoch % 256 ≠ s.nodeId ∧ tokenHigher epoch
      (s.rd pgRING RING_EPOCH) = true ∧ s.on pgJRNL JRNL_TRIG_DUAL = false ∧ s.on pgJRNL JRNL_TRIG_SEALED = false) ∧
    (∃ (s : State) (health : Nat), s.rd pgTWIN TWIN_LANES ≠ 0 ∧ s.role = 1 ∧ s.tstate = 1 ∧ health < 4096 ∧ s.rd
      pgTWIN TWIN_PEER_HEALTH = health ∧ s.rd pgTWIN TWIN_PEER_ROLE = 2 ∧ s.twin.relq = none) ∧
    (∃ (s : State) (t : Nat) (p : Nat), p < 3 ∧ s.pathSeen p = true ∧ (tabGet? s.twin.beatAt p).getD 0 + s.rd pgTWIN
      TWIN_PATH_TO_US * usU ≤ max s.time.clk t ∧ s.rd pgTWIN TWIN_PATHS &&& (7 - 2 ^ p) ≠ 0) ∧
    (∃ (s : State) (t : Nat) (p : Nat), (p < 3 ∧ (s.pathSeen p = false ∨ max s.time.clk t < (tabGet? s.twin.beatAt
      p).getD 0 + s.rd pgTWIN TWIN_PATH_TO_US * usU))) ∧
    (∃ (s : State) (t : Nat), s.role = 0 ∧ s.twin.clash = false ∧ s.forward = true ∧ s.twin.startAt + 20 * msU ≤ max
      s.time.clk t ∧ s.rd pgTWIN TWIN_PATHS = 0 ∧ (s.at t).quorum = true ∧ s.leaves = [] ∧ s.on pgJRNL
      JRNL_TRIG_TAKEOVER = false) ∧
    (∃ (s : State) (t : Nat), s.role = 0 ∧ s.twin.clash = false ∧ s.forward = true ∧ s.twin.startAt + 20 * msU ≤ max
      s.time.clk t ∧ s.rd pgTWIN TWIN_PATHS ≠ 0 ∧ s.rd pgTWIN TWIN_PEER_ROLE = 2) ∧
    (∃ (s : State) (t : Nat), s.active = true ∧ s.rd pgTWIN TWIN_PATHS = 0 ∧ (s.at t).quorum = false ∧ s.on pgJRNL
      JRNL_TRIG_SEALED = false) ∧
    (∃ (s : State) (t : Nat), (s.rd pgTWIN TWIN_PATHS ≠ 0 ∨ s.active = true ∧ (s.at t).quorum = true ∨ s.role = 0 ∨
      s.role = 3 ∨ s.role = 1 ∧ s.twin.relq.isSome = true)) ∧
    (∃ (s : State) (t : Nat), s.role = 1 ∧ s.rd pgTWIN TWIN_PATHS = 0 ∧ s.tstate < 2 ∧ s.twin.relq = none ∧ (s.at
      t).quorum = true) ∧
    (∃ (s : State) (t : Nat), s.role = 1 ∧ s.rd pgTWIN TWIN_PATHS = 0 ∧ s.tstate < 2 ∧ s.twin.relq = none ∧ (s.at
      t).quorum = false ∧ s.on pgJRNL JRNL_TRIG_SEALED = false) ∧
    (∃ (s : State) (bit : Nat) (on : Bool), (bit < 12 ∧ healthOwn.testBit bit = false ∧ (s.active = false ∨ on =
      false))) ∧
    (∃ (s : State) (bit : Nat), bit < 11 ∧ healthOwn.testBit bit = false ∧ s.active = true ∧ (s.rd pgTWIN
      TWIN_RELQ_MASK).testBit bit = true ∧ s.inStep = true ∧ s.twinHealthy = true ∧ (s.rd pgTWIN TWIN_LANES = 0 ∧ (∀
      p : Nat, p < 4 → s.portUp p = false) ∧ s.on pgJRNL JRNL_TRIG_SEALED = false)) ∧
    (∃ (s : State) (lpos : Nat), s.role = 1 ∧ s.inStep = true ∧ lpos < 2 ^ 64 - 1) ∧
    (∃ (s : State), (s.role ≠ 1 ∨ s.inStep = false)) ∧
    (∃ (s : State) (t : Nat) (upTo : Nat) (until_ : Nat), (s.twin.relq = some (2, upTo, until_) ∧ s.role = 1 ∧ (upTo
      ≤ s.rd pgTWIN TWIN_LPOS_TX ∨ until_ ≤ max s.time.clk t) ∧ s.tstate < 2) ∧ (s.leaves = [] ∧ s.on pgJRNL
      JRNL_TRIG_TAKEOVER = false ∧ (∀ p : Nat, p < 4 → s.portUp p = false))) ∧
    (∃ (s : State), s.twin.relq = none) ∧
    (∃ (s : State) (t : Nat), s.on pgTWIN TWIN_HOLD_BUS = true ∧ s.twin.holdTo ≤ max s.time.clk t ∧ s.twin.activeAt =
      none) ∧
    (∃ (s : State) (t : Nat), (s.on pgTWIN TWIN_HOLD_BUS = false ∨ max s.time.clk t < s.twin.holdTo)) ∧
    (∃ (s : State), s.reaches 8 false) ∧
    (∃ (s : State), s.reaches 8 false) ∧
    (∃ (s : State), s.reaches 8 false) ∧
    (∃ (s : State), s.reaches 8 false) ∧
    (∃ (s : State), (s.reaches 8 false ∧ s.role ≠ 3 ∧ (s.active = false ∨ s.inStep = false) ∧ s.on pgJRNL
      JRNL_TRIG_SEALED = false)) ∧
    (∃ (s : State), s.reaches 8 false) ∧
    (∃ (s : State), (s.reaches 8 false ∧ (s.role = 0 ∨ s.role = 3) ∧ s.twin.clash = false ∧ s.forward = true ∧
      s.leaves = [] ∧ s.on pgJRNL JRNL_TRIG_TAKEOVER = false)) ∧
    (∃ (s : State), (s.reaches 8 false ∧ (s.role = 1 ∨ s.role = 2))) ∧
    (∃ (s : State), s.reaches 8 false) ∧
    (∃ (s : State), s.active = true ∧ s.twin.handing = true ∧ s.twin.acked = s.rd pgTWIN TWIN_LPOS_TX) ∧
    (∃ (s : State), (s.active = false ∨ s.twin.handing = false ∨ s.twin.acked ≠ s.rd pgTWIN TWIN_LPOS_TX)) :=
  ⟨⟨wit174, by decide +kernel⟩,
   ⟨wit170, by decide +kernel⟩,
   ⟨hubActive, by decide +kernel⟩,
   ⟨wit175, 0, by decide +kernel⟩,
   ⟨wit176, 0x1FE, 0, by decide +kernel⟩,
   ⟨wit177, 0, by decide +kernel⟩,
   ⟨wit178, 70000000000, 2, by decide +kernel⟩,
   ⟨wit175, 5, 2, by decide +kernel⟩,
   ⟨wit179, 700000000000000, by decide +kernel⟩,
   ⟨wit180, 700000000000000, by decide +kernel⟩,
   ⟨wit181, 5, by decide +kernel⟩,
   ⟨wit182, 5, by decide +kernel⟩,
   ⟨wit183, 5, by decide +kernel⟩,
   ⟨wit184, 5, by decide +kernel⟩,
   ⟨wit175, 3, true, by decide +kernel⟩,
   ⟨wit185, 3, by decide +kernel⟩,
   ⟨wit186, 77, by decide +kernel⟩,
   ⟨wit187, by decide +kernel⟩,
   ⟨wit188, 5, 9, 3, by decide +kernel⟩,
   ⟨wit175, by decide +kernel⟩,
   ⟨wit189, 5, by decide +kernel⟩,
   ⟨hubActive, 5, by decide +kernel⟩,
   ⟨hubActive, by delta State.reaches; decide +kernel⟩,
   ⟨hubActive, by delta State.reaches; decide +kernel⟩,
   ⟨hubActive, by delta State.reaches; decide +kernel⟩,
   ⟨hubActive, by delta State.reaches; decide +kernel⟩,
   ⟨hubActive, by delta State.reaches; decide +kernel⟩,
   ⟨hubActive, by delta State.reaches; decide +kernel⟩,
   ⟨wit170, by delta State.reaches; decide +kernel⟩,
   ⟨hubActive, by delta State.reaches; decide +kernel⟩,
   ⟨hubActive, by delta State.reaches; decide +kernel⟩,
   ⟨wit190, by decide +kernel⟩,
   ⟨wit187, by decide +kernel⟩⟩

theorem witness_TheLogIsSentAckedAndApplied :
    (∃ (s : State) (l : Nat), l < 2 ∧ s.laneUp l = false) ∧
    (∃ (s : State), s.rd pgTWIN TWIN_LANES = 1 ∧ (s.hop 4).nakAt = none) ∧
    (∃ (s : State) (first : Nat), s.rd pgTWIN TWIN_LANES = 1 ∧ (s.hop 4).rxSeq < 65536 ∧ s.role = 1 ∧ s.tstate = 2 ∧
      s.twin.loaded = false ∧ s.twin.store = [] ∧ first < 2 ^ 64) ∧
    (∃ (s : State) (n : Nat) (ty : Nat), s.rd pgTWIN TWIN_LANES = 1 ∧ (s.hop 4).rxSeq < 65536 ∧ s.role = 1 ∧ s.tstate
      = 3 ∧ s.twin.loaded = true ∧ s.twin.store = [] ∧ n = s.rd pgTWIN TWIN_LPOS_TX ∧ n < 2 ^ 64 - 1 ∧ ty.testBit 7 =
      true) ∧
    (∃ (s : State) (n : Nat), s.active = true ∧ 2 ≤ s.tstate ∧ s.twin.acked ≤ n ∧ n < s.rd pgTWIN TWIN_LPOS_TX) ∧
    (∃ (s : State), (s.active = false ∨ s.tstate < 2)) ∧
    (∃ (s : State) (t : Nat) (a : Nat) (b : Nat) (r : LogRec) (l : List (Nat × Nat × LogRec)), s.twin.recs = (a, b,
      r) :: l ∧ s.active = true ∧ s.inStep = true ∧ max b s.twin.ackAt + s.rd pgTWIN TWIN_LOG_TO_US * usU ≤ max
      s.time.clk t) ∧
    (∃ (s : State), s.twin.recs = []) ∧
    (∃ (s : State) (t : Nat) (at_ : Nat) (leaf : Nat) (hc : Nat) (iseq : Nat) (f : Nat) (h : Nat), s.role = 1 ∧
      s.tstate = 3 ∧ s.twin.loaded = true ∧ s.twin.fetch = none ∧ s.twin.fetched = [] ∧ s.anvils = [] ∧ s.rx = [] ∧
      s.rd pgTWIN TWIN_LANES = 2 ∧ s.twin.store = [(s.rd pgTWIN TWIN_LPOS_TX, at_, .admission false leaf hc iseq f
      h)] ∧ at_ + 100 * usU ≤ max s.time.clk t) ∧
    (∃ (s : State), (s.role ≠ 1 ∨ s.tstate < 2 ∨ s.twin.loaded = false)) ∧
    (∃ (s : State) (leaf : Nat) (iseq : Nat) (lpos : Nat) (h : Nat) (li : LItem), s.active = true ∧ s.del.items =
      [(h, li)] ∧ li.leaf = leaf ∧ li.iseq = iseq ∧ li.lpos = lpos + 1 ∧ s.twin.wait = [] ∧ s.rd pgTWIN TWIN_LANES =
      0) ∧
    (∃ (s : State), s.active = false) ∧
    (∃ (s : State), s.rd pgTWIN TWIN_LANES = 1 ∧ (s.hop 4).rxSeq < 65536 ∧ s.role = 1 ∧ s.tstate = 2) ∧
    (∃ (s : State), s.rd pgTWIN TWIN_LANES = 1 ∧ (s.hop 4).rxSeq < 65536 ∧ s.role = 1 ∧ s.tstate = 2 ∧ s.twin.loaded
      = false ∧ s.twin.store = []) ∧
    (∃ (s : State) (t : Nat) (d : Nat), s.active = true ∧ s.tstate = 2 ∧ s.twin.drainAt = some d ∧ d ≤ max s.time.clk
      t ∧ s.oldRefs = []) ∧
    (∃ (s : State), (s.active = false ∨ s.tstate ≠ 2 ∨ s.twin.drainAt = none)) ∧
    (∃ (s : State) (t : Nat) (p : Nat) (c : Cand), p < 58 ∧ (s.rxOf p).cands = [c] ∧ c.port = p ∧ s.standbyInStep =
      true ∧ c.born + 2 * msU ≤ max s.time.clk t ∧ s.anvils = []) ∧
    (∃ (s : State) (p : Nat), (p < 58 ∧ ((s.rxOf p).cands = [] ∨ s.standbyInStep = false))) ∧
    (∃ (s : State), s.rd pgTWIN TWIN_LANES = 1) ∧
    (∃ (s : State), s.rd pgTWIN TWIN_LANES = 1) ∧
    (∃ (s : State) (t : Nat) (t1 : Nat), (s.follows = false ∨ t1 ≠ (s.at t).time.xferT1)) ∧
    (∃ (s : State) (t : Nat) (t1 : Nat) (t2 : Nat) (t3 : Nat) (e : Int), s.follows = true ∧ t1 = s.time.xferT1 ∧ s.on
      pgTIME TIME_H_VALID = true ∧ t1 < 2 ^ 63 ∧ t2 < 2 ^ 63 ∧ t3 < 2 ^ 63 ∧ (s.at t).time.h < 2 ^ 63 ∧ e = roundI
      (((t2 : Int) - t1) - ((s.at t).time.h - t3)) 2 + s.rdI pgTWIN TWIN_NGATO_ASYM * nsU ∧ e.natAbs ≤ 1000 * nsU) :=
  ⟨⟨hubActive, 1, by decide +kernel⟩,
   ⟨wit186, by decide +kernel⟩,
   ⟨wit191, 40, by decide +kernel⟩,
   ⟨wit192, 0, 0x90, by decide +kernel⟩,
   ⟨wit193, 2, by decide +kernel⟩,
   ⟨wit186, by decide +kernel⟩,
   ⟨wit194, 70000000000000, 2, 1, .mark 1 7, [], by decide +kernel⟩,
   ⟨wit187, by decide +kernel⟩,
   ⟨wit195, 70000000000, 3, 7, 1, 2, 5, 9, by decide +kernel⟩,
   ⟨wit186, by decide +kernel⟩,
   ⟨wit196, 7, 2, 77, 9, { twinItem with lpos := 78, leaf := 7, iseq := 2 }, by decide +kernel⟩,
   ⟨wit186, by decide +kernel⟩,
   ⟨wit191, by decide +kernel⟩,
   ⟨wit191, by decide +kernel⟩,
   ⟨wit197, 5, 4, by decide +kernel⟩,
   ⟨wit198, by decide +kernel⟩,
   ⟨wit199, 70000000000000, 45, tongCand 8 45 12, by decide +kernel⟩,
   ⟨wit186, 45, by decide +kernel⟩,
   ⟨wit186, by decide +kernel⟩,
   ⟨wit187, by decide +kernel⟩,
   ⟨wit187, 5, 77, by decide +kernel⟩,
   ⟨wit200, 5, 0, 1000, 5, 500, by decide +kernel⟩⟩

theorem witness_ControllersSendAndHearFrames :
    (∃ (s : State) (n : Nat) (e : Nat), n < 8 ∧ e < 16 ∧ s.canFree n = true ∧ (s.ctl n).segs = none ∧ (s.lisOf (32 +
      n)).tx = [] ∧ (s.ctl n).own = [] ∧ (∀ k : Nat, k < 16 → (s.rd (pgCAN n) (qF CAN_Q_STATE k) = 1 ↔ k = e))) ∧
    (∃ (s : State) (n : Nat), n < 8 ∧ s.canFree n = false) ∧
    (∃ (s : State) (n : Nat) (e : Nat) (sof : Nat) (f : List Byte), n < 8 ∧ e < 16 ∧ (s.ctl n).att = some ⟨e, sof, f,
      false⟩ ∧ s.rd (pgCAN n) (qF CAN_Q_STATE e) = 1 ∧ (s.ctl n).run = 1 ∧ (s.ctl n).dirty = false ∧ (s.ctl n).tec <
      128 ∧ (s.ctl n).rec_ < 128 ∧ s.rd (pgCAN n) CAN_ESTATE = 0 ∧ s.sys.jtag = false ∧ s.sys.banksOff.testBit 1 =
      false) ∧
    (∃ (s : State) (n : Nat), n < 8 ∧ (s.ctl n).att = none) ∧
    (∃ (s : State) (n : Nat) (e : Nat) (sof : Nat) (f : List Byte), n < 8 ∧ e < 16 ∧ (s.ctl n).att = some ⟨e, sof, f,
      false⟩ ∧ s.on (pgCAN n) (qF CAN_Q_ONESHOT e) = false ∧ (s.ctl n).dirty = false) ∧
    (∃ (s : State) (n : Nat) (e : Nat) (sof : Nat) (f : List Byte), n < 8 ∧ e < 16 ∧ (s.ctl n).att = some ⟨e, sof, f,
      false⟩ ∧ s.on (pgCAN n) (qF CAN_Q_ONESHOT e) = true ∧ (s.ctl n).dirty = false ∧ s.rd (pgCAN n) (qF CAN_Q_STATE
      e) = 1) ∧
    (∃ (s : State) (n : Nat), n < 8 ∧ s.canHears n = false) ∧
    (∃ (s : State) (n : Nat), n < 8 ∧ s.canHears n = true ∧ s.on (pgCAN n) CAN_EFF_MON = true) ∧
    (∃ (s : State) (n : Nat), n < 8 ∧ s.canHears n = true ∧ (s.ctl n).run = 1 ∧ (s.ctl n).rec_ + 1 < 128 ∧ s.rd
      (pgCAN n) CAN_ESTATE = 0 ∧ (s.ctl n).tec < 128 ∧ s.on (pgCAN n) CAN_EFF_MON = false) ∧
    (∃ (s : State) (n : Nat) (r : List Byte), n < 8 ∧ s.canHears n = true ∧ recExt r = false ∧ (leAt r 4 1).testBit 0
      = false ∧ s.on (ingestAt (32 + n)) INGEST_RX_EN = true ∧ s.rxRoom (32 + n) (wordsOf r.length) = true) ∧
    (∃ (s : State) (n : Nat) (e : Nat), n < 8 ∧ e < 16 ∧ s.reaches (0x20 + n) false ∧ s.rd (pgCAN n) (qF CAN_Q_STATE
      e) ≠ 0) ∧
    (∃ (s : State) (n : Nat) (e : Nat), n < 8 ∧ e < 16 ∧ s.reaches (0x20 + n) false ∧ s.rd (pgCAN n) (qF CAN_Q_STATE
      e) = 0 ∧ s.rd (pgCAN n) (qF CAN_Q_ID e) ≤ 0x7FF) ∧
    (∃ (s : State) (n : Nat) (e : Nat), n < 8 ∧ e < 16 ∧ s.reaches (0x20 + n) false ∧ s.rd (pgCAN n) (qF CAN_Q_STATE
      e) = 1 ∧ (s.ctl n).att = none) ∧
    (∃ (s : State) (n : Nat) (e : Nat) (a : CanAtt), n < 8 ∧ e < 16 ∧ s.reaches (0x20 + n) false ∧ s.rd (pgCAN n) (qF
      CAN_Q_STATE e) = 1 ∧ (s.ctl n).att = some a ∧ a.src = e) ∧
    (∃ (s : State) (n : Nat) (e : Nat), n < 8 ∧ e < 16 ∧ s.reaches (0x20 + n) false) :=
  ⟨⟨wit201, 3, 5, by decide +kernel⟩,
   ⟨ready, 3, by decide +kernel⟩,
   ⟨wit202, 3, 5, 77, [1#8], by decide +kernel⟩,
   ⟨wit201, 3, by decide +kernel⟩,
   ⟨wit202, 3, 5, 77, [1#8], by decide +kernel⟩,
   ⟨wit203, 3, 5, 77, [1#8], by decide +kernel⟩,
   ⟨wit201, 4, by decide +kernel⟩,
   ⟨wit204, 3, by decide +kernel⟩,
   ⟨wit201, 3, by decide +kernel⟩,
   ⟨wit205, 3, zeros 5 ++ [3#8, 0#8, 0#8, 9#8, 9#8, 9#8], by decide +kernel⟩,
   ⟨wit201, 3, 5, by delta State.reaches; decide +kernel⟩,
   ⟨wit201, 3, 6, by delta State.reaches; decide +kernel⟩,
   ⟨wit201, 3, 5, by delta State.reaches; decide +kernel⟩,
   ⟨wit206, 3, 5, ⟨5, 77, [1#8], false⟩, by delta State.reaches; decide +kernel⟩,
   ⟨wit201, 3, 5, by delta State.reaches; decide +kernel⟩⟩

theorem witness_ControllersConfigureClaimAndSleep :
    (∃ (s : State) (n : Nat) (word : Word), n < 8 ∧ s.reaches (0x20 + n) false ∧ s.held = [] ∧ (s.setWord (pgCAN n)
      rows_CAN 0x040 word.toNat).canLegal n = false) ∧
    (∃ (s : State) (n : Nat) (m : Nat), n < 8 ∧ m ≤ 5 ∧ s.reaches (0x20 + n) false ∧ s.held = [] ∧ (s.setWord (pgCAN
      n) rows_CAN 0x040 m).canLegal n = true ∧ (s.ctl n).att = none) ∧
    (∃ (s : State) (n : Nat), n < 8 ∧ s.rd (pgCAN n) CAN_MODE ≠ 6 ∧ (s.ctl n).att = none ∧ (s.ctl n).integ = true) ∧
    (∃ (s : State) (n : Nat), (n < 8 ∧ ((s.ctl n).att ≠ none ∨ ((s.ctl n).integ = false ∧ s.on (pgCAN n) CAN_EFF_MON
      = false)))) ∧
    (∃ (s : State) (n : Nat), n < 8 ∧ s.reaches (0x20 + n) false ∧ s.rd (pgCAN n) CAN_ESTATE = 2) ∧
    (∃ (s : State) (n : Nat), n < 8 ∧ s.reaches (0x20 + n) false ∧ s.rd (pgCAN n) CAN_ESTATE ≠ 2) ∧
    (∃ (s : State) (n : Nat), n < 8 ∧ s.on (pgCAN n) CAN_BO_AUTO = true ∧ s.rd (pgCAN n) CAN_ESTATE = 2) ∧
    (∃ (s : State) (n : Nat), n < 8 ∧ s.on (pgCAN n) CAN_BO_AUTO = false) ∧
    (∃ (s : State) (n : Nat) (v : Nat) (a : Nat), n < 8 ∧ v < 8 ∧ a < 254 ∧ s.reaches (0x20 + n) false ∧ s.on (pgCAN
      n) (vnF CAN_VN_EN v) = false ∧ s.vnAddr n v = 254 ∧ s.canSpeaks n = true) ∧
    (∃ (s : State) (n : Nat) (v : Nat) (a : Nat), n < 8 ∧ v < 8 ∧ a < 254 ∧ s.reaches (0x20 + n) false ∧ s.on (pgCAN
      n) (vnF CAN_VN_EN v) = true ∧ s.rd (pgCAN n) (vnF CAN_PREF_SA v) = a) ∧
    (∃ (s : State) (n : Nat) (v : Nat) (word : Word), n < 8 ∧ v < 8 ∧ s.reaches (0x20 + n) false ∧ s.on (pgCAN n)
      (vnF CAN_VN_EN v) = true ∧ s.rd (pgCAN n) (vnF CAN_PREF_SA v) ≠ word.toNat % 256) ∧
    (∃ (s : State) (t : Nat) (n : Nat) (v : Nat) (sa : Nat) (since : Nat), n < 8 ∧ v < 8 ∧ (s.ctl n).claims = [(v,
      sa, since)] ∧ since + 250 * msU ≤ max s.time.clk t ∧ sa < 256) ∧
    (∃ (s : State) (n : Nat) (v : Nat), n < 8 ∧ v < 8 ∧ (s.ctl n).claims = []) ∧
    (∃ (s : State) (x : FpSess), s.can.fps = [x]) ∧
    (∃ (s : State) (x : TpSess), (s.can.tps = [x] ∧ x.own = false ∧ (∀ n : Nat, n < 8 → (s.ctl n).tp = none))) ∧
    (∃ (s : State) (n : Nat) (a : Nat), n < 8 ∧ (s.ctl n).bamAt = some a) ∧
    (∃ (s : State) (n : Nat), n < 8 ∧ s.rd (pgCAN n) CAN_MODE = 6 ∧ (s.ctl n).att = none) ∧
    (∃ (s : State) (n : Nat), (n < 8 ∧ (s.rd (pgCAN n) CAN_MODE ≠ 6 ∨ (s.ctl n).att ≠ none))) ∧
    (∃ (s : State) (n : Nat) (low : Nat), n < 8 ∧ s.on (pgCAN n) CAN_ASLEEP = true ∧ s.rd (pgCAN n) CAN_WAKE_MODE = 1
      ∧ s.rd (pgCAN n) CAN_WAKE_FILT_US * usU ≤ low) ∧
    (∃ (s : State) (n : Nat), (n < 8 ∧ (s.on (pgCAN n) CAN_ASLEEP = false ∨ s.rd (pgCAN n) CAN_WAKE_MODE = 0))) :=
  ⟨⟨wit201, 3, 7#32, by delta State.reaches; decide +kernel⟩,
   ⟨wit207, 3, 1, by delta State.reaches; decide +kernel⟩,
   ⟨wit208, 3, by decide +kernel⟩,
   ⟨wit201, 3, by decide +kernel⟩,
   ⟨wit209, 3, by delta State.reaches; decide +kernel⟩,
   ⟨wit201, 3, by delta State.reaches; decide +kernel⟩,
   ⟨wit210, 3, by decide +kernel⟩,
   ⟨wit211, 3, by decide +kernel⟩,
   ⟨wit207, 3, 2, 77, by delta State.reaches; decide +kernel⟩,
   ⟨wit212, 3, 2, 77, by delta State.reaches; decide +kernel⟩,
   ⟨wit212, 3, 2, 0x14E#32, by delta State.reaches; decide +kernel⟩,
   ⟨wit213, 70000000000000, 3, 2, 77, 3, by decide +kernel⟩,
   ⟨wit201, 3, 2, by decide +kernel⟩,
   ⟨wit214, ⟨35, 1, 2, 3, 6, 255, 20, [], 0, [], 1, 4⟩, by decide +kernel⟩,
   ⟨wit215, ⟨35, 1, 255, 3, 6, 20, 3, 255, [], 1, 3, false, 1, 40⟩, by decide +kernel⟩,
   ⟨wit216, 3, 9, by decide +kernel⟩,
   ⟨wit217, 3, by decide +kernel⟩,
   ⟨ready, 3, by decide +kernel⟩,
   ⟨wit218, 3, 900000000, by decide +kernel⟩,
   ⟨ready, 3, by decide +kernel⟩⟩

theorem witness_EthernetPortsReceiveAndLink :
    (∃ (s : State) (e : Nat), (e < 2 ∧ (s.rd (pgETH e) ETH_MODE = 0 ∨ s.on (pgETH e) ETH_LINK = false))) ∧
    (∃ (s : State) (e : Nat), e < 2 ∧ s.ethHears e) ∧
    (∃ (s : State) (e : Nat) (frame : List Byte), e < 2 ∧ s.ethHears e ∧ frame.length < 60) ∧
    (∃ (s : State) (e : Nat) (frame : List Byte), e < 2 ∧ s.ethHears e ∧ 60 ≤ frame.length ∧ beAt frame 12 2 ≠ 0x8100
      ∧ s.rd (pgETH e) ETH_MAX_FRAME < frame.length + 4) ∧
    (∃ (s : State) (e : Nat) (frame : List Byte), e < 2 ∧ s.ethHears e ∧ 60 ≤ frame.length ∧ frame.length + 4 ≤ s.rd
      (pgETH e) ETH_MAX_FRAME ∧ s.on (pgETH e) ETH_PAUSE_RX = true ∧ isPause frame = true) ∧
    (∃ (s : State) (e : Nat) (frame : List Byte), e < 2 ∧ s.ethHears e ∧ 60 ≤ frame.length ∧ frame.length + 4 ≤ s.rd
      (pgETH e) ETH_MAX_FRAME ∧ s.on (pgETH e) ETH_PAUSE_RX = false ∧ s.on (pgETH e) ETH_MACSEC_EN = true ∧ s.rd
      (pgETH e) ETH_VALIDATE = 2 ∧ beAt frame 12 2 ≠ 0x88E5) ∧
    (∃ (s : State) (e : Nat) (frame : List Byte), e < 2 ∧ s.ethHears e ∧ 60 ≤ frame.length ∧ frame.length + 4 ≤ s.rd
      (pgETH e) ETH_MAX_FRAME ∧ s.on (pgETH e) ETH_PAUSE_RX = false ∧ s.on (pgETH e) ETH_MACSEC_EN = false ∧ s.on
      (pgETH e) ETH_RAW_OTHER = false ∧ beAt frame 12 2 ≠ 0x8100 ∧ beAt frame 12 2 ≠ 0x88F7 ∧ beAt frame 12 2 ≠
      0x0800) ∧
    (∃ (s : State) (e : Nat) (src : Nat) (dst : Nat) (frame : List Byte) (pay : List Byte) (body : List Byte), e < 2
      ∧ s.ethHears e ∧ 60 ≤ frame.length ∧ frame.length + 4 ≤ s.rd (pgETH e) ETH_MAX_FRAME ∧ s.on (pgETH e)
      ETH_PAUSE_RX = false ∧ s.on (pgETH e) ETH_MACSEC_EN = false ∧ s.on (pgETH e) ETH_VLAN_EN = false ∧ beAt frame
      12 2 = 0x0800 ∧ ipSound (frame.drop 14) = true ∧ ptpUdp (frame.drop 14) = false ∧ beAt (frame.drop 14) 6 2 %
      16384 = 0 ∧ ipParts (frame.drop 14) = (17, src, dst, pay) ∧ udpSound pay = true ∧ s.dgForUs e dst (beAt pay 2
      2) = true ∧ beAt pay 6 2 = 0 ∧ body = (pay.take (beAt pay 4 2)).drop 8 ∧ body.take 6 = tokUdPbC ∧ body.length ≤
      2040 ∧ s.on (ingestAt (40 + e)) INGEST_RX_EN = true ∧ s.rxRoom (40 + e) (wordsOf body.length) = true) ∧
    (∃ (s : State) (e : Nat) (speed : Nat), e < 2 ∧ speed < 3 ∧ s.on (pgETH e) ETH_LINK = false ∧ s.portDown (40 + e)
      = false ∧ s.on (pgETH e) PG_IN_RESET = false ∧ s.rd (pgETH e) ETH_MODE = 2) ∧
    (∃ (s : State) (e : Nat), (e < 2 ∧ (s.rd (pgETH e) ETH_MODE = 0 ∨ s.on (pgETH e) ETH_LINK = true))) ∧
    (∃ (e : Nat), e < 2) ∧
    (∃ (s : State) (e : Nat), (e < 2 ∧ s.reaches (0x18 + e) false ∧ (s.on (pgETH e) ETH_IGMP_EN = false ∨ s.on (pgETH
      e) ETH_LINK = false))) ∧
    (∃ (s : State) (e : Nat), e < 2 ∧ s.on (pgAt (0x18 + e)) PG_LOCK = true ∧ s.pageDown (0x18 + e) = false ∧
      s.pageReady (0x18 + e) = true) :=
  ⟨⟨ready, 1, by decide +kernel⟩,
   ⟨wit219, 1, by delta State.ethHears; decide +kernel⟩,
   ⟨wit219, 1, zeros 59, by delta State.ethHears; decide +kernel⟩,
   ⟨wit220, 1, zeros 60, by delta State.ethHears; decide +kernel⟩,
   ⟨wit221, 1, zeros 12 ++ [0x88#8, 8#8, 0#8, 1#8, 0#8, 9#8] ++ zeros 42, by delta State.ethHears; decide +kernel⟩,
   ⟨wit222, 1, zeros 60, by delta State.ethHears; decide +kernel⟩,
   ⟨wit219, 1, zeros 60, by delta State.ethHears; decide +kernel⟩,
   ⟨dgSt, 1, 0x0A000001, 0xE0000001, dgFrame, zeros 2 ++ beBytes 2 60001 ++ beBytes 2 20 ++ zeros 2 ++ tokUdPbC ++ zeros 6, tokUdPbC ++ zeros 6, by delta State.ethHears; decide +kernel⟩,
   ⟨wit223, 1, 1, by decide +kernel⟩,
   ⟨wit219, 1, by decide +kernel⟩,
   ⟨1, by decide +kernel⟩,
   ⟨wit224, 1, by delta State.reaches; decide +kernel⟩,
   ⟨wit225, 1, by decide +kernel⟩⟩

theorem witness_TongsInstructionsActOnTheirEngine :
    (∃ (s : State) (n : Nat) (w : Nat), n < 16 ∧ s.tongRuns n 0 w ∧ bits w 27 24 = 0 ∧ s.tongInside n (bits w 5 0) =
      true) ∧
    (∃ (s : State) (n : Nat) (w : Nat), n < 16 ∧ s.tongRuns n 0 w ∧ s.tongGoesOn n ∧ bits w 27 24 = 1 ∧ s.tongInside
      n (bits w 5 0) = true ∧ s.rd (pgTONG n) (tongW (bits w 19 18)) ≠ 0) ∧
    (∃ (s : State) (n : Nat) (w : Nat), n < 16 ∧ s.tongRuns n 0 w ∧ s.tongInside n (bits w 5 0) = false) ∧
    (∃ (s : State) (n : Nat) (w : Nat), n < 16 ∧ s.rd (pgTONG n) TONG_STALL = 0 ∧ s.portDown 42 = false ∧ s.tongWaits
      n = false ∧ s.tongWord n = w ∧ 10 < tongOp w) ∧
    (∃ (s : State) (n : Nat) (w : Nat), n < 16 ∧ s.tongRuns n 3 w ∧ s.tongGoesOn n ∧ w.testBit 25 = false) ∧
    (∃ (s : State) (n : Nat) (w : Nat), n < 16 ∧ s.tongRuns n 3 w ∧ s.tongGoesOn n ∧ w.testBit 25 = true) ∧
    (∃ (s : State) (n : Nat) (w : Nat), n < 16 ∧ s.tongRuns n 4 w ∧ s.tongGoesOn n ∧ w.testBit 20 = true ∧ w.testBit
      19 = false) ∧
    (∃ (s : State) (n : Nat) (w : Nat), n < 16 ∧ s.tongRuns n 4 w ∧ s.tongGoesOn n ∧ w.testBit 20 = false ∧ w.testBit
      19 = true) ∧
    (∃ (s : State) (n : Nat) (w : Nat), n < 16 ∧ s.tongRuns n 5 w ∧ s.tongGoesOn n) ∧
    (∃ (s : State) (n : Nat) (w : Nat), n < 16 ∧ s.tongRuns n 10 w ∧ s.tongGoesOn n ∧ bits w 27 26 = 0) ∧
    (∃ (s : State) (n : Nat) (w : Nat), n < 16 ∧ s.tongRuns n 10 w ∧ s.tongGoesOn n ∧ bits w 27 26 = 2) ∧
    (∃ (s : State) (n : Nat) (w : Nat), n < 16 ∧ s.tongRuns n 9 w ∧ s.tongGoesOn n ∧ bits w 27 26 = 0 ∧ w.testBit 23
      = false ∧ w.testBit 22 = true) ∧
    (∃ (s : State) (n : Nat) (w : Nat), n < 16 ∧ s.tongRuns n 2 w ∧ s.tongGoesOn n ∧ bits w 27 26 = 0 ∧ w.testBit 16
      = false ∧ bits w 15 8 = 1 ∧ 1 ≤ s.rd (pgTONG n) TONG_PIN_CNT ∧ s.rd (pgTONG 0) (lnF TONG_LN_OWNER (s.winLine n
      0)) = n) ∧
    (∃ (s : State) (n : Nat) (w : Nat), n < 16 ∧ s.tongRuns n 2 w ∧ s.tongGoesOn n ∧ bits w 27 26 = 0 ∧ w.testBit 16
      = false ∧ bits w 15 8 = 1 ∧ 1 ≤ s.rd (pgTONG n) TONG_PIN_CNT ∧ s.rd (pgTONG 0) (lnF TONG_LN_OWNER (s.winLine n
      0)) ≠ n) ∧
    (∃ (s : State) (n : Nat) (w : Nat), n < 16 ∧ s.tongRuns n 6 w ∧ s.tongGoesOn n ∧ bits w 27 26 = 1 ∧ (s.eng n).sr
      = []) ∧
    (∃ (s : State) (n : Nat) (w : Nat), n < 16 ∧ s.tongRuns n 6 w ∧ bits w 27 26 = 0 ∧ (s.eng n).phase = 0 ∧
      w.testBit 22 = false ∧ w.testBit 23 = false) ∧
    (∃ (s : State) (n : Nat) (w : Nat) (k : TxPkt) (l : List TxPkt), n < 16 ∧ s.tongRuns n 7 w ∧ s.tongGoesOn n ∧
      w.testBit 26 = false ∧ (s.lisOf (tongPort n)).tx = k :: l ∧ (s.lisOf (tongPort n)).txp + 1 < k.words) ∧
    (∃ (s : State) (n : Nat) (w : Nat), n < 16 ∧ s.tongRuns n 7 w ∧ w.testBit 27 = true ∧ (s.lisOf (tongPort n)).tx =
      []) ∧
    (∃ (s : State) (n : Nat) (w : Nat), n < 16 ∧ s.tongRuns n 8 w ∧ s.tongGoesOn n ∧ bits w 27 26 = 0 ∧ w.testBit 23
      = false ∧ (s.eng n).skip = false ∧ (s.eng n).mark = none ∧ s.on (ingestAt (tongPort n)) INGEST_RX_EN = true ∧
      s.rxRoom (tongPort n) 1 = true ∧ (s.rxOf (tongPort n)).openC = none) ∧
    (∃ (s : State) (n : Nat) (w : Nat), n < 16 ∧ s.tongRuns n 8 w ∧ w.testBit 27 = true ∧ (s.eng n).skip = false ∧
      s.on (ingestAt (tongPort n)) INGEST_RX_EN = true ∧ s.rxRoom (tongPort n) 1 = false) ∧
    (∃ (s : State) (n : Nat) (k : TxPkt) (l : List TxPkt), n < 16 ∧ s.rd (pgTONG n) TONG_STALL = 3 ∧ s.tongLive n =
      true ∧ s.tongGoesOn n ∧ (s.tongWord n).testBit 26 = false ∧ (s.lisOf (tongPort n)).tx = k :: l ∧ (s.lisOf
      (tongPort n)).txp + 1 < k.words) ∧
    (∃ (s : State) (n : Nat), n < 16 ∧ s.rd (pgTONG n) TONG_STALL = 3 ∧ (s.lisOf (tongPort n)).tx = []) ∧
    (∃ (s : State) (t : Nat) (n : Nat) (w : Nat), n < 16 ∧ s.tongRuns n 1 w ∧ bits w 27 25 = 4 ∧ (s.at t).tongTmr n ≠
      0) ∧
    (∃ (s : State) (t : Nat) (n : Nat) (w : Nat), n < 16 ∧ s.tongRuns n 1 w ∧ s.tongGoesOn n ∧ bits w 27 25 = 4 ∧
      (s.at t).tongTmr n = 0) ∧
    (∃ (s : State) (n : Nat), n < 16 ∧ s.rd (pgTONG n) TONG_STALL = 1 ∧ s.tongLive n = true ∧ bits (s.tongWord n) 27
      25 = 3 ∧ s.tongGoesOn n) :=
  ⟨⟨wit226, 3, 0x00000005, by delta State.tongRuns; decide +kernel⟩,
   ⟨wit227, 3, 0x01000005, by delta State.tongRuns State.tongGoesOn; decide +kernel⟩,
   ⟨wit228, 3, 0x0000003F, by delta State.tongRuns; decide +kernel⟩,
   ⟨wit229, 3, 0xF0000000, by decide +kernel⟩,
   ⟨wit230, 3, 0x38001234, by delta State.tongRuns State.tongGoesOn; decide +kernel⟩,
   ⟨wit231, 3, 0x3A001234, by delta State.tongRuns State.tongGoesOn; decide +kernel⟩,
   ⟨wit232, 3, 0x45100001, by delta State.tongRuns State.tongGoesOn; decide +kernel⟩,
   ⟨wit233, 3, 0x42080000, by delta State.tongRuns State.tongGoesOn; decide +kernel⟩,
   ⟨wit234, 3, 0x50000123, by delta State.tongRuns State.tongGoesOn; decide +kernel⟩,
   ⟨wit235, 3, 0xA0000007, by delta State.tongRuns State.tongGoesOn; decide +kernel⟩,
   ⟨wit236, 3, 0xA8000042, by delta State.tongRuns State.tongGoesOn; decide +kernel⟩,
   ⟨wit237, 3, 0x90400000, by delta State.tongRuns State.tongGoesOn; decide +kernel⟩,
   ⟨wit238, 3, 0x20000101, by delta State.tongRuns State.tongGoesOn; decide +kernel⟩,
   ⟨wit239, 3, 0x20000101, by delta State.tongRuns State.tongGoesOn; decide +kernel⟩,
   ⟨wit240, 3, 0x64000005, by delta State.tongRuns State.tongGoesOn; decide +kernel⟩,
   ⟨wit241, 3, 0x60200005, by delta State.tongRuns; decide +kernel⟩,
   ⟨wit242, 3, 0x70000000, tongPkt, [], by delta State.tongRuns State.tongGoesOn; decide +kernel⟩,
   ⟨wit243, 3, 0x78000000, by delta State.tongRuns; decide +kernel⟩,
   ⟨wit244, 3, 0x80000000, by delta State.tongRuns State.tongGoesOn; decide +kernel⟩,
   ⟨wit245, 3, 0x88000000, by delta State.tongRuns; decide +kernel⟩,
   ⟨wit246, 3, tongPkt, [], by delta State.tongGoesOn; decide +kernel⟩,
   ⟨wit247, 3, by decide +kernel⟩,
   ⟨wit248, 5, 3, 0x18000000, by delta State.tongRuns; decide +kernel⟩,
   ⟨wit249, 5, 3, 0x18000000, by delta State.tongRuns State.tongGoesOn; decide +kernel⟩,
   ⟨wit250, 3, by delta State.tongGoesOn; decide +kernel⟩⟩

theorem witness_EnginesStartStopAndSwapPrograms :
    (∃ (s : State) (n : Nat), n < 16 ∧ s.reachesCtrl (0x60 + n) false ∧ s.on (pgTONG n) PG_ENABLE = false ∧
      s.tongAwake n = true ∧ s.tongMustHold n = false ∧ s.tongInside n (s.rd (pgTONG n) TONG_ENTRY) = true) ∧
    (∃ (s : State) (n : Nat), n < 16 ∧ s.reachesCtrl (0x60 + n) false ∧ s.on (pgTONG n) PG_ENABLE = false ∧
      s.tongAwake n = true ∧ s.tongMustHold n = true) ∧
    (∃ (s : State) (n : Nat), n < 16 ∧ s.reachesCtrl (0x60 + n) false ∧ s.on (pgTONG n) PG_ENABLE = true) ∧
    (∃ (s : State) (n : Nat), n < 16 ∧ s.reachesCtrl (0x60 + n) false ∧ s.on (pgTONG n) PG_ENABLE = true ∧
      s.tongWaits n = false) ∧
    (∃ (s : State) (n : Nat), n < 16 ∧ s.reachesCtrl (0x60 + n) false ∧ s.on (pgTONG n) PG_ENABLE = false) ∧
    (∃ (s : State), s.reaches 0x60 false) ∧
    (∃ (s : State), s.reaches 0x60 false ∧ s.rd pgTONGS TONGS_WAITING = 0) ∧
    (∃ (s : State), s.reaches 0x60 false) ∧
    (∃ (s : State), (s.reachesCtrl 0x70 false ∧ s.on pgTONGS PG_SHADOW_SWAP = false ∧ s.tong.held = [] ∧ (∀ n : Nat,
      n < 16 → s.on (pgTONG n) PG_ENABLE = false))) ∧
    (∃ (s : State) (n : Nat), s.reachesCtrl 0x70 false ∧ s.on pgTONGS PG_SHADOW_SWAP = false ∧ n < 16 ∧ s.on (pgTONG
      n) PG_ENABLE = true ∧ s.on (pgTONG n) TONG_HELD = false ∧ s.rd (pgTONG n) TONG_FAULT = 0) ∧
    (∃ (s : State) (n : Nat), n < 16 ∧ s.rd pgTONGS TONGS_WAITING = 2 ^ n ∧ s.tongBoundary n = true ∧ s.rd (pgTONG n)
      TONG_STALL = 0 ∧ s.on pgTONGS PG_SHADOW_SWAP = true ∧ s.tong.held = []) ∧
    (∃ (s : State) (n : Nat), (n < 16 ∧ (s.tongWaits n = false ∨ s.tongBoundary n = false))) ∧
    (∃ (s : State) (t : Nat), (s.on pgTONGS PG_SHADOW_SWAP = false ∨ s.on pgTONGS TONGS_AUTO_FORCE = false ∨ max
      s.time.clk t < s.tong.swapAt + s.rd pgTONGS TONGS_SWAP_TO_US * usU)) ∧
    (∃ (s : State) (t : Nat) (n : Nat), n < 16 ∧ s.rd pgTONGS TONGS_WAITING = 2 ^ n ∧ s.rd (pgTONG n) TONG_STALL = 0
      ∧ s.on pgTONGS PG_SHADOW_SWAP = true ∧ s.tong.held = [] ∧ s.on pgTONGS TONGS_AUTO_FORCE = true ∧ s.rd pgTONGS
      TONGS_SWAP_TO_US ≠ 0 ∧ s.tong.swapAt + s.rd pgTONGS TONGS_SWAP_TO_US * usU ≤ max s.time.clk t) ∧
    (∃ (s : State) (n : Nat), n < 16 ∧ s.reaches 0x70 false ∧ s.rd pgTONGS TONGS_WAITING = 2 ^ n ∧ s.rd (pgTONG n)
      TONG_STALL = 0 ∧ s.on pgTONGS PG_SHADOW_SWAP = true ∧ s.tong.held = []) :=
  ⟨⟨wit251, 3, by delta State.reachesCtrl; decide +kernel⟩,
   ⟨ready, 3, by delta State.reachesCtrl; decide +kernel⟩,
   ⟨wit252, 3, by delta State.reachesCtrl; decide +kernel⟩,
   ⟨wit253, 3, by delta State.reachesCtrl; decide +kernel⟩,
   ⟨ready, 3, by delta State.reachesCtrl; decide +kernel⟩,
   ⟨wit252, by delta State.reaches; decide +kernel⟩,
   ⟨wit252, by delta State.reaches; decide +kernel⟩,
   ⟨wit252, by delta State.reaches; decide +kernel⟩,
   ⟨wit254, by delta State.reachesCtrl; decide +kernel⟩,
   ⟨wit252, 3, by delta State.reachesCtrl; decide +kernel⟩,
   ⟨wit255, 3, by decide +kernel⟩,
   ⟨wit252, 3, by decide +kernel⟩,
   ⟨wit255, 5, by decide +kernel⟩,
   ⟨wit256, 9000000000, 3, by decide +kernel⟩,
   ⟨wit255, 3, by delta State.reaches; decide +kernel⟩⟩

theorem witness_CellarChannelsScrubAndWindow :
    (∃ (s : State) (c : Nat), c < 2 ∧ s.rd pgCELL (chState c) = 1) ∧
    (∃ (s : State) (c : Nat) (tr : Bool) (te : Bool), (c < 2 ∧ s.rd pgCELL (chState c) = 1 ∧ (tr = false ∨ te =
      false))) ∧
    (∃ (s : State) (c : Nat), c < 2 ∧ s.rd pgCELL (chState c) ≠ 1) ∧
    (∃ (s : State) (c : Nat), c < 2 ∧ s.reaches 0xA2 false ∧ s.chInService c = true) ∧
    (∃ (s : State) (c : Nat), c < 2 ∧ s.reaches 0xA2 false ∧ s.chInService c = false) ∧
    (∃ (s : State) (c : Nat), c < 2 ∧ s.chInService c = true ∧ s.rd pgCELL CELL_UE_LIMIT < (if c = 0 then s.cel.ue0
      else s.cel.ue1)) ∧
    (∃ (s : State) (c : Nat), (c < 2 ∧ (s.chInService c = false ∨ (if c = 0 then s.cel.ue0 else s.cel.ue1) ≤ s.rd
      pgCELL CELL_UE_LIMIT))) ∧
    (∃ (s : State) (ce : Nat), 1 ≤ ce ∧ ce ≤ s.rd pgCELL CELL_CE_RETIRE) ∧
    (∃ (s : State) (ue : Nat), 1 ≤ ue ∧ s.cel.retired = []) ∧
    (∃ (s : State) (off : Nat) (b : Nat) (data : List Byte), b = s.rd pgCELL CELL_WIN_BASE * 2 ^ 20 + off % 2 ^ 26 ∧
      s.hostBase ≤ b ∧ b + data.length ≤ s.hostBase + s.cel.hostSz ∧ s.chInService (s.granule b).1 = true) ∧
    (∃ (s : State) (off : Nat) (b : Nat) (data : List Byte), (b = s.rd pgCELL CELL_WIN_BASE * 2 ^ 20 + off % 2 ^ 26 ∧
      (b < s.hostBase ∨ s.hostBase + s.cel.hostSz < b + data.length))) :=
  ⟨⟨wit257, 1, by decide +kernel⟩,
   ⟨wit257, 1, true, false, by decide +kernel⟩,
   ⟨ready, 1, by decide +kernel⟩,
   ⟨celSt, 1, by delta State.reaches; decide +kernel⟩,
   ⟨ready, 1, by delta State.reaches; decide +kernel⟩,
   ⟨wit258, 1, by decide +kernel⟩,
   ⟨ready, 1, by decide +kernel⟩,
   ⟨wit259, 5, by decide +kernel⟩,
   ⟨celSt, 2, by decide +kernel⟩,
   ⟨celSt, 9, 9, [1#8, 0#8, 3#8], by decide +kernel⟩,
   ⟨celSt, 4094, 4094, [1#8, 0#8, 3#8], by decide +kernel⟩⟩

theorem witness_TheJournalWritesClosesAndFreezes :
    (∃ (s : State) (h : Nat) (i : LItem), s.item? h = some i ∧ i.wb = none ∧ s.refsTo h ≠ []) ∧
    (∃ (s : State) (h : Nat) (i : LItem), s.item? h = some i ∧ i.wb = none ∧ s.refsTo h = [] ∧ i.loc = .larder ∧ s.rx
      = [] ∧ s.rd pgLARD LARD_CELLS_USED = itemCells i.item) ∧
    (∃ (s : State) (h : Nat), s.item? h = none) ∧
    (∃ (s : State) (t : Nat) (o : JOpen), s.jrnl.cur = some o ∧ o.since + s.rd pgJRNL JRNL_CLOSE_MS * msU ≤ max
      s.time.clk t ∧ s.on pgJRNL JRNL_SEAL_EN = false ∧ s.chInService (s.granule (s.jAddr o.slot)).1 = true ∧ (∀ w :
      Nat, w < 4 → s.jwState w ≠ 1)) ∧
    (∃ (s : State) (t : Nat), (∀ o ∈ s.jrnl.cur.toList, max s.time.clk t < o.since + s.rd pgJRNL JRNL_CLOSE_MS *
      msU)) ∧
    (∃ (s : State), (s.reaches 0xA3 false ∧ (∀ w : Nat, w < 4 → s.jwState w = 0) ∧ s.jrnl.blocks = [] ∧ s.jrnl.cur =
      none)) ∧
    (∃ (s : State) (w : Nat), (s.reaches 0xA3 false ∧ w < 4 ∧ s.jwState w = 1 ∧ (∀ v : Nat, v < w → s.jwState v ≠
      1))) ∧
    (∃ (s : State), (s.reaches 0xA3 false ∧ (∀ w : Nat, w < 4 → s.jwState w = 2))) ∧
    (∃ (s : State) (t : Nat) (w : Nat), w < 4 ∧ s.jwState w = 1 ∧ s.jrnl.blocks = [] ∧ instant (s.rd pgJRNL
      (JRNL_W_TRIG_S.at w 32) + s.rd pgJRNL JRNL_POST_S) (s.rd pgJRNL (JRNL_W_TRIG_NS.at w 32)) 0 ≤ (s.at t).time.h) ∧
    (∃ (s : State) (w : Nat), w < 4 ∧ s.jwState w ≠ 1) ∧
    (∃ (s : State) (w : Nat), w < 4 ∧ s.reaches 0xA3 false ∧ s.jwState w = 2) ∧
    (∃ (s : State) (w : Nat), w < 4 ∧ s.reaches 0xA3 false ∧ s.jwState w ≠ 2) :=
  ⟨⟨jItemRef, 9, twinItem, by decide +kernel⟩,
   ⟨wit260, 9, { twinItem with jrnl := false }, by decide +kernel⟩,
   ⟨ready, 9, by decide +kernel⟩,
   ⟨wit261, 900000000000000, ⟨0, 5, 9, 0, [], 3⟩, by decide +kernel⟩,
   ⟨ready, 5, by decide +kernel⟩,
   ⟨ready, by delta State.reaches; decide +kernel⟩,
   ⟨wit262, 2, by delta State.reaches; decide +kernel⟩,
   ⟨wit263, by delta State.reaches; decide +kernel⟩,
   ⟨wit264, 5, 2, by decide +kernel⟩,
   ⟨ready, 2, by decide +kernel⟩,
   ⟨wit265, 2, by delta State.reaches; decide +kernel⟩,
   ⟨ready, 2, by delta State.reaches; decide +kernel⟩⟩

theorem witness_TheStrongboxTakesOneCommandAtATime :
    (∃ (s : State), s.reachesSbox ∧ s.sbox.op = none ∧ s.rd pgSBOX SBOX_SB_STATE = 1 ∧ s.on pgSBOX SBOX_CLEAR_LOCK =
      false) ∧
    (∃ (s : State), s.reachesSbox ∧ s.sbox.op = none ∧ s.rd pgSBOX SBOX_SB_STATE = 1 ∧ s.on pgSBOX SBOX_CLEAR_LOCK =
      true) ∧
    (∃ (s : State), s.reachesSbox ∧ s.sbox.op ≠ none) ∧
    (∃ (s : State), s.reachesSbox ∧ s.sbox.op = none ∧ s.rd pgSBOX SBOX_SB_STATE = 1) ∧
    (∃ (s : State), s.reachesSbox ∧ s.sbox.op = none ∧ 1 ≤ s.rd pgSBOX SBOX_SB_STATE) ∧
    (∃ (s : State), s.reachesSbox ∧ s.sbox.op = none ∧ s.rd pgSBOX SBOX_SB_STATE = 1) ∧
    (∃ (s : State), s.reachesSbox ∧ s.sbox.op = none ∧ s.rd pgSBOX SBOX_SB_STATE = 1 ∧ s.on pgSBOX SBOX_CLEAR_LOCK =
      false) ∧
    (∃ (s : State), s.reachesSbox ∧ s.sbox.op = none) ∧
    (∃ (s : State), s.reachesSbox ∧ s.sbox.op = none ∧ 1 ≤ s.rd pgSBOX SBOX_SB_STATE) ∧
    (∃ (s : State), s.reachesSbox ∧ s.sbox.op = none ∧ s.rd pgSBOX SBOX_SB_STATE = 1 ∧ s.imageFits = true) ∧
    (∃ (s : State), s.reachesSbox ∧ s.imageFits = false) ∧
    (∃ (s : State), (s.sbox.op = none ∨ s.rd pgSBOX SBOX_SB_STATE = 0)) ∧
    (∃ (s : State) (o : SbOp), s.sbox.op = some o ∧ s.rd pgSBOX SBOX_SB_STATE ≠ 0 ∧ o.cmd = 4 ∧ o.slot = 0) ∧
    (∃ (s : State) (o : SbOp), (s.sbox.op = some o ∧ s.rd pgSBOX SBOX_SB_STATE ≠ 0 ∧ (o.cmd = 3 ∨ o.cmd = 4) ∧ 1 <
      o.slot ∧ o.slot < 128 ∧ s.rd (metaAt o.slot) META_STATE = 1)) ∧
    (∃ (s : State) (o : SbOp), s.sbox.op = some o ∧ s.rd pgSBOX SBOX_SB_STATE = 1 ∧ o.cmd = 1 ∧ o.src = 5 ∧ o.slot <
      128 ∧ o.alg < 8 ∧ o.eng < 8 ∧ s.loadOk o.slot o.alg o.eng o.src = true) ∧
    (∃ (s : State) (mask : Nat), s.reachesSbox ∧ mask < 32) ∧
    (∃ (s : State), s.reachesSbox) ∧
    (∃ (s : State), s.reachesSbox) :=
  ⟨⟨sbSt, by delta State.reachesSbox State.reaches; decide +kernel⟩,
   ⟨wit266, by delta State.reachesSbox State.reaches; decide +kernel⟩,
   ⟨wit267, by delta State.reachesSbox State.reaches; decide +kernel⟩,
   ⟨sbSt, by delta State.reachesSbox State.reaches; decide +kernel⟩,
   ⟨sbSt, by delta State.reachesSbox State.reaches; decide +kernel⟩,
   ⟨sbSt, by delta State.reachesSbox State.reaches; decide +kernel⟩,
   ⟨sbSt, by delta State.reachesSbox State.reaches; decide +kernel⟩,
   ⟨wit268, by delta State.reachesSbox State.reaches; decide +kernel⟩,
   ⟨sbSt, by delta State.reachesSbox State.reaches; decide +kernel⟩,
   ⟨wit269, by delta State.reachesSbox State.reaches; decide +kernel⟩,
   ⟨sbSt, by delta State.reachesSbox State.reaches; decide +kernel⟩,
   ⟨sbSt, by decide +kernel⟩,
   ⟨wit270, sbSt.sbOpOf 4 false, by decide +kernel⟩,
   ⟨wit271, { sbSt.sbOpOf 3 false with slot := 5 }, by decide +kernel⟩,
   ⟨wit272, { sbSt.sbOpOf 1 false with slot := 9, src := 5, alg := 1, eng := engRING }, by decide +kernel⟩,
   ⟨sbSt, 9, by delta State.reachesSbox State.reaches; decide +kernel⟩,
   ⟨wit273, by delta State.reachesSbox State.reaches; decide +kernel⟩,
   ⟨sbSt, by delta State.reachesSbox State.reaches; decide +kernel⟩⟩

theorem witness_TestSlotsRunAndEnd :
    (∃ (s : State) (k : Nat) (word : Word), k < 4 ∧ s.reaches 3 false ∧ s.ts k TEST_SL_RSTATE = 0 ∧ (s.setWord pgTEST
      rows_TEST (0x100 + 0x20 * k) word.toNat).tsLegal k = true ∧ (s.setWord pgTEST rows_TEST (0x100 + 0x20 * k)
      word.toNat).tsMayRun k = true ∧ (s.setWord pgTEST rows_TEST (0x100 + 0x20 * k) word.toNat).ts k TEST_SL_TID =
      1) ∧
    (∃ (s : State) (k : Nat) (word : Word), k < 4 ∧ s.reaches 3 false ∧ s.ts k TEST_SL_RSTATE = 0 ∧ (s.setWord pgTEST
      rows_TEST (0x100 + 0x20 * k) word.toNat).tsLegal k = true ∧ (s.setWord pgTEST rows_TEST (0x100 + 0x20 * k)
      word.toNat).tsMayRun k = false) ∧
    (∃ (s : State) (k : Nat) (word : Word), (k < 4 ∧ s.reaches 3 false ∧ (s.ts k TEST_SL_RSTATE ≠ 0 ∨ (s.setWord
      pgTEST rows_TEST (0x100 + 0x20 * k) word.toNat).tsLegal k = false))) ∧
    (∃ (s : State) (k : Nat), k < 4 ∧ s.ts k TEST_SL_RSTATE = 1 ∧ s.tsMayRun k = true ∧ s.ts k TEST_SL_TID = 1) ∧
    (∃ (s : State) (k : Nat), (k < 4 ∧ (s.ts k TEST_SL_RSTATE ≠ 1 ∨ s.tsMayRun k = false))) ∧
    (∃ (s : State) (k : Nat), (k < 4 ∧ s.reaches 3 false ∧ (s.ts k TEST_SL_RSTATE = 1 ∨ s.ts k TEST_SL_RSTATE = 2))) ∧
    (∃ (s : State) (k : Nat), k < 4 ∧ s.reaches 3 false ∧ s.ts k TEST_SL_RSTATE ≠ 1 ∧ s.ts k TEST_SL_RSTATE ≠ 2) ∧
    (∃ (s : State) (k : Nat), k < 4 ∧ s.ts k TEST_SL_RSTATE = 2 ∧ s.tsMayRun k = false) ∧
    (∃ (s : State) (k : Nat), (k < 4 ∧ (s.ts k TEST_SL_RSTATE ≠ 2 ∨ s.tsMayRun k = true))) ∧
    (∃ (s : State) (t : Nat) (k : Nat) (n : Nat) (errs : Nat) (at_ : Nat), k < 4 ∧ s.ts k TEST_SL_RSTATE = 2 ∧ s.ts k
      TEST_SL_TID = 1 ∧ tabGet? s.sys.tests k = some (at_, none) ∧ 1 ≤ s.ts k TEST_SL_DURATION_MS ∧ at_ + s.ts k
      TEST_SL_DURATION_MS * msU ≤ max s.time.clk t ∧ n < 2 ^ TEST_SL_BITS.width ∧ errs < 2 ^ TEST_SL_ERRS.width) ∧
    (∃ (s : State) (k : Nat), (k < 4 ∧ (s.ts k TEST_SL_RSTATE ≠ 2 ∨ s.ts k TEST_SL_DURATION_MS = 0))) ∧
    (∃ (s : State) (k : Nat), k < 4 ∧ s.reaches 3 false) ∧
    (∃ (s : State), s.reaches 3 false) ∧
    (∃ (s : State) (k : Nat) (at_ : Nat), k < 4 ∧ s.ts k TEST_SL_RSTATE = 2 ∧ s.ts k TEST_SL_TID = 0 ∧ s.ts k
      TEST_SL_MODE ≠ 1 ∧ tabGet? s.sys.tests k = some (at_, none)) ∧
    (∃ (s : State) (k : Nat) (at_ : Nat) (l : Nat), k < 4 ∧ s.ts k TEST_SL_RSTATE = 2 ∧ tabGet? s.sys.tests k = some
      (at_, some l)) ∧
    (∃ (s : State) (k : Nat), k < 4 ∧ s.ts k TEST_SL_RSTATE ≠ 2) :=
  ⟨⟨ready, 2, uartTest, by delta State.reaches; decide +kernel⟩,
   ⟨wit274, 2, uartTest, by delta State.reaches; decide +kernel⟩,
   ⟨wit275, 2, uartTest, by delta State.reaches; decide +kernel⟩,
   ⟨wit276, 2, by decide +kernel⟩,
   ⟨ready, 2, by decide +kernel⟩,
   ⟨wit277, 2, by delta State.reaches; decide +kernel⟩,
   ⟨ready, 2, by delta State.reaches; decide +kernel⟩,
   ⟨wit278, 2, by decide +kernel⟩,
   ⟨wit277, 2, by decide +kernel⟩,
   ⟨wit279, 900000000000, 2, 70, 1, 3, by decide +kernel⟩,
   ⟨ready, 2, by decide +kernel⟩,
   ⟨wit280, 2, by delta State.reaches; decide +kernel⟩,
   ⟨wit281, by delta State.reaches; decide +kernel⟩,
   ⟨wit282, 2, 3, by decide +kernel⟩,
   ⟨wit283, 2, 3, 4, by decide +kernel⟩,
   ⟨ready, 2, by decide +kernel⟩⟩

theorem witness_OtherRegistersAreWrittenByTheirRange :
    (∃ (a : Nat), a < 2 ^ 24 ∧ a % 4 = 0 ∧ isHole a = true) ∧
    (∃ (a : Nat), a < 2 ^ 24 ∧ a % 4 = 0 ∧ isHole a = false ∧ placeOf a = none) ∧
    (∃ (s : State) (v : BitVec 64), s.reaches 8 true ∧ s.tstate < 2 ∧ 100 ≤ v.toNat ∧ v.toNat ≤ 60000) ∧
    (∃ (s : State) (v : BitVec 64), (s.reaches 8 true ∧ (v.toNat < 100 ∨ (60000 < v.toNat ∧ v.toNat < 65536)))) ∧
    (∃ (s : State), s.pageDown 8 = false ∧ s.pageReady 8 = true ∧ s.on (pgAt 8) PG_LOCK = true) :=
  ⟨⟨0xFFFFF0, by decide +kernel⟩,
   ⟨0xFF000, by decide +kernel⟩,
   ⟨ready, 60000#64, by delta State.reaches; decide +kernel⟩,
   ⟨ready, 60001#64, by delta State.reaches; decide +kernel⟩,
   ⟨wit284, by decide +kernel⟩⟩

end Sys2Proof.Machine
end

section
/-! SUPPORT. What a refusal records and when a write of a page's block registers is refused, for O7. -/

namespace Sys2Proof.Machine

/-! ### What a refusal records (R9, R11, R378) -/

/-- Counting a refused write leaves every page header alone. -/
theorem State.rd_header_count (s : State) (p c : Nat) {f : Fld} (ho : f.off < 0x40) (hl : f.lo < 16) :
    ((s.inc pgSYS SYS_C_ERR_WRITES).when (c == 2) (·.inc pgSYS SYS_C_LOCK_REFUSED)).rd (pgAt p) f = s.rd (pgAt p) f := by
  have hw : (s.inc pgSYS SYS_C_ERR_WRITES).rd (pgAt p) f = s.rd (pgAt p) f :=
    State.rd_wr_ne s (by simp only [fldKey, pgAt, pgSYS]; omega)
  unfold State.when
  split
  · exact (State.rd_wr_ne _ (by simp only [fldKey, pgAt, pgSYS]; omega)).trans hw
  · exact hw

/-- Marking an error keeps the code of one that stands, and records its own otherwise (R11). -/
theorem State.rd_errCode_markError (s : State) {p c : Nat} (hc : c < 256) :
    (s.markError p c).rd (pgAt p) PG_ERR_CODE =
      if s.on (pgAt p) PG_ERROR then s.rd (pgAt p) PG_ERR_CODE else c := by
  unfold State.markError
  dsimp only
  rw [State.rd_raise (by rw [evtKey_iff]; simp only [fldKey, pgAt]; omega),
    State.rd_wr_ne _ (by simp only [fldKey, pgAt, pgSYS, sumFld, Fld.at]; omega)]
  cases s.on (pgAt p) PG_ERROR with
  | true => exact State.rd_wr_ne s (by simp only [fldKey, pgAt]; omega)
  | false => exact (State.rd_wr_same _ _ _ _).trans (Nat.mod_eq_of_lt hc)

theorem State.rd_errCode_refuse (s : State) {p c : Nat} (hc : c < 256) :
    (s.refuse p c).rd (pgAt p) PG_ERR_CODE =
      if s.on (pgAt p) PG_ERROR then s.rd (pgAt p) PG_ERR_CODE else c := by
  unfold State.refuse
  dsimp only
  rw [State.rd_errCode_markError _ hc]
  have herr := State.rd_header_count s p c (f := PG_ERROR) (by decide) (by decide)
  exact if_congr (by rw [State.on, herr, State.on]) (State.rd_header_count s p c (by decide) (by decide)) rfl

/-- Marking an error leaves the counters of page 0x000 alone. -/
theorem State.rd_markError_ctr (s : State) {p c : Nat} (hp : p < 256) {f : Fld} (ho : 0x800 ≤ f.off) (hk : f.off < 0x1000)
    (hl : f.lo = 0) : (s.markError p c).rd pgSYS f = s.rd pgSYS f := by
  have hw : ∀ (w : State) (f' : Fld) (v : Nat), f'.off < 0x40 → f'.lo < 32 →
      (w.wr (pgAt p) f' v).rd pgSYS f = w.rd pgSYS f := fun w f' v h1 h2 =>
    State.rd_wr_ne w (by simp only [fldKey, pgAt, pgSYS]; omega)
  unfold State.markError
  dsimp only
  rw [State.rd_raise (by rw [evtKey_iff]; simp only [fldKey, pgSYS]; omega),
    State.rd_wr_ne _ (by simp only [fldKey, pgSYS, sumFld, Fld.at]; omega)]
  unfold State.when
  split
  · rw [hw _ _ _ (by decide) (by decide), hw _ _ _ (by decide) (by decide)]
  · rw [hw _ _ _ (by decide) (by decide)]

/-- A refusal counts one refused write (R378). -/
theorem State.rd_errWrites_refuse (s : State) {p c : Nat} (hp : p < 256) :
    (s.refuse p c).rd pgSYS SYS_C_ERR_WRITES = (s.rd pgSYS SYS_C_ERR_WRITES + 1) % 2 ^ 64 := by
  unfold State.refuse
  dsimp only
  rw [State.rd_markError_ctr _ hp (by decide) (by decide) rfl]
  unfold State.when
  split
  · exact (State.rd_wr_ne _ (by decide)).trans (State.rd_wr_same _ _ _ _)
  · exact State.rd_wr_same _ _ _ _

/-- A command that is refused by a page: its frame, its error and the code recorded. -/
theorem State.happen_refuse (s : State) {t p c : Nat} {f : State → State} (hp : p < 256) (hc : c < 256)
    (hf : f (s.at t) = (s.at t).refuse p c) :
    ∃ u, s.happen t f = .next u ∧ Frame (refusalFields p) [0] (s.at t) u ∧ u.on (pgAt p) PG_ERROR = true ∧
      u.rd (pgAt p) PG_ERR_CODE = (if s.on (pgAt p) PG_ERROR then s.rd (pgAt p) PG_ERR_CODE else c) ∧
      u.rd pgSYS SYS_C_ERR_WRITES = (s.rd pgSYS SYS_C_ERR_WRITES + 1) % 2 ^ 64 :=
  happen_of (hf ▸ frame_refuse (frame_refl _ _ _) (fun _ h => h) (by simp))
    (hf ▸ ⟨(refuse_error c hp).1, State.rd_errCode_refuse _ hc, State.rd_errWrites_refuse _ hp⟩)

/-! ### Where a page's word lies, and who may write it -/

/-- Only the page region holds page registers; a window's place is none. -/
theorem placeOf_isPage {a : Nat} {p : Place} (h : placeOf a = some p) (hp : p.isPage = true) :
    a < 0x100000 ∧ p = pagePlace (a / 0x1000) (a % 0x1000) := by
  unfold placeOf at h
  split at h
  · rename_i ha
    split at h
    · exact ⟨ha, (Option.some.inj h).symm⟩
    · cases h
  · obtain ⟨w, -, hw⟩ := List.exists_of_findSome?_eq_some h
    unfold Win.place at hw
    simp only at hw
    split at hw
    · cases hw; cases hp
    · cases hw

/-- A write that reaches the strongbox is let through. -/
theorem State.sbGuard_reaches {s : State} {f : State → State} (h : s.reachesSbox) : s.sbGuard f = f s := by
  obtain ⟨hlock, hstage⟩ := h
  unfold State.sbGuard
  split
  · rw [hlock]; rfl
  · rename_i hn
    simp only [Bool.or_eq_true, beq_iff_eq, not_or] at hn
    rcases hstage with h2 | h3 | hr
    · exact absurd h2 hn.2
    · exact absurd h3 hn.1
    · exact State.blkGuard_reaches hr

/-- A write of a page's block registers that reaches its page is let through. -/
theorem State.placeGuard_reaches {s : State} {p : Place} {f : State → State} (hpage : p.isPage = true)
    (hlo : 0x40 ≤ p.off) (hhi : p.off < 0x800)
    (h : if p.page = 5 then s.reachesSbox else s.reaches p.page p.carried) : s.placeGuard p f = f s := by
  unfold State.placeGuard
  rw [if_pos hpage, if_neg (by omega), if_neg (by omega)]
  split at h
  · rw [if_pos ‹_›, State.sbGuard_reaches h]
  · rw [if_neg ‹_›, State.blkGuard_reaches h]

/-! ### The write of one word (R9) -/

/-- A plain word under which a settable field would hold an undefined encoding is not written. -/
theorem State.writeWord_illegal {s : State} {a w : Nat} {p : Place} (hplace : placeOf a = some p) (hplain : p.plain a w)
    (hbad : s.illegalAt p w) : s.writeWord a w = none := by
  obtain ⟨hpage, -, -, hro, hown, hstart, hheld, hshadow, hprog, hbuf, hmsix⟩ := hplain
  unfold State.illegalAt at hbad
  unfold State.writeWord
  simp [hplace, hpage, hro, hown, hstart, hheld, hshadow, hprog, hbuf, hmsix, hbad]

/-- A write that reaches its page is refused whole when one of its words is not written. -/
theorem State.registerWrite_none {s : State} {a v : Nat} {wide : Bool} {p : Place} (hhole : isHole a = false)
    (hplace : placeOf a = some p) (hpage : p.isPage = true) (hlo : 0x40 ≤ p.off) (hhi : p.off < 0x800)
    (hreach : if p.page = 5 then s.reachesSbox else s.reaches p.page p.carried)
    (hnone : (if wide then s.writeWord (a + 4) (v / 2 ^ 32 % 2 ^ 32) else some s).bind
      (fun s => s.writeWord a (v % 2 ^ 32)) = none) : s.registerWrite a wide v = s.refuse p.page errILLEGAL := by
  unfold State.registerWrite
  rw [if_neg (by simp [hhole]), hplace]
  simp only [Option.some_or, State.placeGuard_reaches hpage hlo hhi hreach, hnone]

/-- Settles O7: the refused word answers none, the guard lets the write through, and the refusal's own laws say the rest. -/
theorem anIllegalWriteIsDiscardedWhole : Obligations.AnIllegalWriteIsDiscardedWhole := by
  unfold Obligations.AnIllegalWriteIsDiscardedWhole
  refine ⟨fun s t a v p ⟨ha, halign, hhole, hplace, hplain⟩ ⟨hreach, hbad⟩ => ?_,
    fun s t a v p q ⟨ha, halign, hhole, hplace, hplace', hpq, hlo, hplain⟩ ⟨hreach, hpage, hbad⟩ => ?_⟩
  · have hnone := State.writeWord_illegal (s := s.at t) hplace hplain hbad
    obtain ⟨hpage, hlo, hhi, -⟩ := hplain
    obtain ⟨haddr, hp⟩ := placeOf_isPage hplace hpage
    rw [exec_registerWrite, execRegisterWrite]
    refine State.happen_refuse s (by rw [hp]; simp only [pagePlace]; omega) (by decide) ?_
    rw [Nat.mod_eq_of_lt ha, if_neg Bool.false_ne_true, Nat.div_mul_cancel (Nat.dvd_of_mod_eq_zero halign)]
    exact State.registerWrite_none hhole hplace hpage hlo hhi hreach hnone
  · have hnone := State.writeWord_illegal (s := s.at t) hplace' hplain hbad
    obtain ⟨haddr, hp⟩ := placeOf_isPage hplace hpage
    obtain ⟨haddr', hq⟩ := placeOf_isPage hplace' hplain.1
    have hhi : p.off < 0x800 := by
      obtain ⟨-, -, hqhi, -⟩ := hplain
      rw [hq] at hqhi; rw [hp]; simp only [pagePlace] at hqhi ⊢; omega
    rw [exec_registerWrite, execRegisterWrite]
    obtain ⟨u, hu, hframe, herr, hcode, -⟩ := State.happen_refuse s (t := t) (p := p.page) (c := errILLEGAL)
      (f := (·.registerWrite a true v.toNat)) (by rw [hp]; simp only [pagePlace]; omega) (by decide)
      (State.registerWrite_none hhole hplace hpage hlo hhi hreach (by rw [if_pos rfl, hnone]; rfl))
    refine ⟨u, ?_, hframe, herr, hcode⟩
    rw [Nat.mod_eq_of_lt ha, if_pos rfl, Nat.div_mul_cancel (Nat.dvd_of_mod_eq_zero halign), hu]

end Sys2Proof.Machine
end

section
/-! SUPPORT. The counterexample to O15: ENABLE 0 on a tongs engine can settle an item. -/

namespace Sys2Proof.Machine

/-- A command's instant and its hold on the queue leave the items as its act left them. -/
theorem State.happen_items {s u : State} {t : Nat} {f : State → State} (h : s.happen t f = .next u) :
    u.del.items = (f (s.at t)).del.items := by
  cases h; rfl

/-- Tongs engine 3 runs with a packet at hand; the write-back record of the packet's item names the engine's port as the
listener whose transmit stamp it awaits. -/
def tongStampDue : State :=
  let s := tongTxSt 3 0
  { s with del := { s.del with items :=
      [(4, { anEntry 12 0 .larder with wb := some ⟨0, 0, 1, 1, 0, 0, 0, 0, none, none, some (tongPort 3), true, 0⟩ })] } }

/-- ENABLE 0 drops the engine's packet, and with it the stamp its item awaits: the settled item is given up. -/
theorem enableWrite_tongStampDue_items :
    ((tongStampDue.at 0).hdrGuard 0x63 (·.enableWrite 0x63 false)).del.items = [] := by
  decide +kernel

/-- Refutes O15: its sixth clause has ENABLE keep every item, but ENABLE 0 on a tongs engine discards the packet at hand
(R313), and an item that awaited the packet's transmit stamp (R148) is settled and given up. No hypothesis of the clause excludes
`tongStampDue`, though a submission only ever names a port below 42, never a tongs port, as the one that stamps. -/
theorem not_pageHeaderCommandsComplete : ¬ Obligations.PageHeaderCommandsComplete := by
  unfold Obligations.PageHeaderCommandsComplete
  rintro ⟨-, -, -, -, -, henable, -⟩
  have hreach : tongStampDue.reachesCtrl 0x63 (pageCarried 0x63) := by delta State.reachesCtrl; decide +kernel
  obtain ⟨u, hu, -, -, hitems⟩ := henable tongStampDue 0 0x63 false (by decide) (by decide) hreach
  have hnone : tongStampDue.del.items = [] :=
    hitems.symm.trans ((State.happen_items hu).trans enableWrite_tongStampDue_items)
  exact List.cons_ne_nil _ _ hnone

end Sys2Proof.Machine
end

section
/-! SUPPORT. The counterexample to O25: two anvils hold the candidate that is admitted. -/

namespace Sys2Proof.Machine

/-- A command's instant and its hold on the queue leave the anvils as its act left them. -/
theorem State.happen_anvils {s u : State} {t : Nat} {f : State → State} (h : s.happen t f = .next u) :
    u.anvils = (f (s.at t)).anvils := by
  cases h; rfl

/-- The candidate at the head of port 45, built for flow 5. -/
def builtFor5 : Built := ⟨tongCand 8 45 9, 6, 900, 0, false, none, none, some 5, 0, 1000⟩

/-- The active hub with one candidate at port 45, which both anvil 2 and anvil 3 hold. -/
def heldTwice : State := { builtUp hubActive 9 with anvils := [(2, builtFor5), (3, builtFor5)] }

/-- Admission from anvil 3 empties the first anvil that holds the candidate, which is anvil 2. -/
theorem admitNext_heldTwice_anvils : ((heldTwice.at 0).admitNext 3).anvils = [(3, builtFor5)] := by
  decide +kernel

/-- Refutes O25: its first clause has ADMIT empty no anvil but `a`, yet the anvil emptied is the first that holds a candidate
of that serial number. No hypothesis of the clause excludes `heldTwice`, where that is another anvil, though the dispatcher
hands a candidate to one anvil at a time (R40). -/
theorem not_admissionTakesTheOldestCandidate : ¬ Obligations.AdmissionTakesTheOldestCandidate := by
  unfold Obligations.AdmissionTakesTheOldestCandidate
  rintro ⟨hadmit, -⟩
  obtain ⟨u, hu, -, -, hkept, -⟩ := hadmit heldTwice 0 3 5 45 builtFor5 (by omega) (by decide +kernel) (by decide +kernel)
    (by decide +kernel) (by decide +kernel) (by decide +kernel) (by decide +kernel) (by decide +kernel) (by decide +kernel)
    (by decide +kernel)
  rw [exec_admitItem, execAdmitItem] at hu
  have hleft : u.anvils = [(3, builtFor5)] := by rw [State.happen_anvils hu, admitNext_heldTwice_anvils]
  rcases hkept (2, builtFor5) (by decide +kernel) with hthree | hmem
  · exact absurd hthree (by decide)
  · rw [hleft] at hmem
    exact absurd hmem (by decide +kernel)

end Sys2Proof.Machine
end

section
/-! SUPPORT. Reads after counting, tables after an update, and what a command that keeps the clock answers. -/

namespace Sys2Proof.Machine

variable {s : State} {b b' : Nat} {f f' : Fld} {n : Nat}

/-! ### Reads after counting -/

theorem State.rd_add_same : (s.add b f n).rd b f = (s.rd b f + n) % 2 ^ f.width := State.rd_wr_same _ _ _ _
theorem State.rd_inc_same : (s.inc b f).rd b f = (s.rd b f + 1) % 2 ^ f.width := State.rd_wr_same _ _ _ _

theorem State.rd_add_ne (h : fldKey b f ≠ fldKey b' f') : (s.add b' f' n).rd b f = s.rd b f := State.rd_wr_ne s h
theorem State.rd_inc_ne (h : fldKey b f ≠ fldKey b' f') : (s.inc b' f').rd b f = s.rd b f := State.rd_wr_ne s h
theorem State.rd_wrB_ne {c : Bool} (h : fldKey b f ≠ fldKey b' f') : (s.wrB b' f' c).rd b f = s.rd b f :=
  State.rd_wr_ne s h

/-! ### Tables -/

section
variable {α : Type} {l : List (Nat × α)} {k a : Nat} {v : α}

@[simp] theorem tabGet?_tabDel_same : tabGet? (tabDel l k) k = none := by
  induction l with
  | nil => rfl
  | cons c l ih =>
    by_cases hk : c.1 = k
    · simpa [tabDel, hk] using ih
    · simpa [tabDel, tabGet?, hk] using ih

theorem tabGet?_tabIns_same (h : tabGet? l k = none) : tabGet? (tabIns k v l) k = some v := by
  induction l with
  | nil => simp [tabIns, tabGet?]
  | cons c l ih =>
    obtain ⟨k', v'⟩ := c
    obtain ⟨hne, hl⟩ : k' ≠ k ∧ tabGet? l k = none := by
      rw [tabGet?] at h; split at h <;> simp_all
    rw [tabIns]
    split
    · simp [tabGet?]
    · rw [tabGet?, if_neg hne, ih hl]

/-- Reading the key just set. -/
@[simp] theorem tabGet?_tabPut_same : tabGet? (tabPut l k v) k = some v := tabGet?_tabIns_same tabGet?_tabDel_same

end

@[simp] theorem State.item?_putItem_same (s : State) (h : Nat) (i : LItem) : (s.putItem h i).item? h = some i :=
  tabGet?_tabPut_same

@[simp] theorem State.rd_putItem (s : State) (h : Nat) (i : LItem) : (s.putItem h i).rd b f = s.rd b f := rfl

/-! ### What a frame leaves alone -/

section
variable {fs : List (Nat × Fld)} {ps : List Nat} {u : State}

theorem Frame.pending (h : Frame fs ps s u) : u.pending = s.pending := by rw [h.2.1]
theorem Frame.time (h : Frame fs ps s u) : u.time = s.time := by rw [h.2.1]
theorem Frame.del (h : Frame fs ps s u) : u.del = s.del := by rw [h.2.1]
theorem Frame.cells (h : Frame fs ps s u) : u.cells = s.cells := by rw [h.2.1]
theorem Frame.jrnl (h : Frame fs ps s u) : u.jrnl = s.jrnl := by rw [h.2.1]

end

/-! ### Commands -/

/-- A command whose effect leaves the queue of commands and the clock alone answers that effect. -/
theorem State.happen_eq (s : State) {t : Nat} {g : State → State} {u : State} (h : g (s.at t) = u)
    (hp : u.pending = s.pending) (ht : u.time = (s.at t).time) : s.happen t g = .next u := by
  unfold State.happen
  simp only [h]
  rw [← hp, ← ht]

end Sys2Proof.Machine
end

section
/-! SUPPORT. Larder cells given back, and items that settle (R24, R119, R120). -/

namespace Sys2Proof.Machine

variable {s : State} {h n : Nat} {i : LItem}

/-! ### Cells -/

theorem frame_setCells (s : State) (n : Nat) :
    Frame [(pgLARD, LARD_CELLS_USED), (pgLARD, LARD_RESERVE_ACT)] [] s (s.setCells n) :=
  frame_wrB (frame_wr (frame_refl _ _ _) (by simp)) (by simp)

theorem State.rd_cellsUsed_setCells (hn : n < 65536) : (s.setCells n).rd pgLARD LARD_CELLS_USED = n := by
  unfold State.setCells
  simp only
  rw [State.rd_wrB_ne (by decide), State.rd_wr_same]
  exact Nat.mod_eq_of_lt hn

/-- CELLS_USED fits its 16 bits, and so does what is left of it. -/
theorem State.cellsUsed_sub_lt (s : State) (n : Nat) : s.rd pgLARD LARD_CELLS_USED - n < 65536 :=
  Nat.lt_of_le_of_lt (Nat.sub_le _ _) (s.rd_lt pgLARD LARD_CELLS_USED)

/-- Cells given back while nothing spills only change CELLS_USED and RESERVE_ACT. -/
theorem State.freeCells_of_calm (hsp : s.on pgLARD LARD_SPILLING = false) :
    s.freeCells n = s.setCells (s.rd pgLARD LARD_CELLS_USED - n) := by
  have hon : (s.setCells (s.rd pgLARD LARD_CELLS_USED - n)).on pgLARD LARD_SPILLING = false := by
    unfold State.on
    rw [(frame_setCells s _).rd (by simpa using by decide) (by simp)]
    exact hsp
  simp [State.freeCells, hon]

theorem frame_freeCells (s : State) (n : Nat) :
    Frame [(pgLARD, LARD_CELLS_USED), (pgLARD, LARD_RESERVE_ACT), (pgLARD, LARD_SPILLING)] [0xA0] s (s.freeCells n) := by
  have hset := frame_mono (gs := [(pgLARD, LARD_CELLS_USED), (pgLARD, LARD_RESERVE_ACT), (pgLARD, LARD_SPILLING)])
    (qs := [0xA0]) (frame_setCells s (s.rd pgLARD LARD_CELLS_USED - n)) (by simp) (by simp)
  unfold State.freeCells
  dsimp only
  split
  · exact frame_raise (frame_wr hset (by simp)) (by simp)
  · exact hset

theorem State.rd_cellsUsed_freeCells :
    (s.freeCells n).rd pgLARD LARD_CELLS_USED = s.rd pgLARD LARD_CELLS_USED - n := by
  have hset := State.rd_cellsUsed_setCells (s := s) (s.cellsUsed_sub_lt n)
  unfold State.freeCells
  dsimp only
  split
  · rw [State.rd_raise (by decide), State.rd_wr_ne _ (by decide), hset]
  · exact hset

theorem State.freeCells_del (s : State) (n : Nat) : (s.freeCells n).del = s.del := by
  rw [(frame_freeCells s n).2.1]

/-! ### Settling -/

/-- Only a submission's item has a record to write back. -/
theorem State.wbFinish_of_no_wb (hi : s.item? h = some i) (hw : i.wb = none) : s.wbFinish h = s := by
  simp [State.wbFinish, hi, hw]

/-- An item with a reference left stays. -/
theorem State.settle_of_refs (hi : s.item? h = some i) (hw : i.wb = none) (hr : s.refsTo h ≠ []) : s.settle h = s := by
  simp [State.settle, State.wbFinish_of_no_wb hi hw, hi, hr]

/-- An item in the larder without references, its journal copy written, leaves and gives up its cells. -/
theorem State.settle_of_done (hi : s.item? h = some i) (hw : i.wb = none) (hr : s.refsTo h = []) (hj : i.jrnl = true)
    (hl : i.loc = .larder) :
    s.settle h = { s with del := { s.del with items := tabDel s.del.items h } }.freeCells (itemCells i.item) := by
  simp [State.settle, State.wbFinish_of_no_wb hi hw, hi, hw, hr, hj, hl]

theorem State.item?_settle_of_done (hi : s.item? h = some i) (hw : i.wb = none) (hr : s.refsTo h = [])
    (hj : i.jrnl = true) (hl : i.loc = .larder) : (s.settle h).item? h = none := by
  rw [State.settle_of_done hi hw hr hj hl, State.item?, State.freeCells_del]
  exact tabGet?_tabDel_same

end Sys2Proof.Machine
end

section
/-! SUPPORT. The journal's acknowledged records, the close of its open block, and its freeze windows, for O51. -/

namespace Sys2Proof.Machine

variable {s : State} {t w cause : Nat}

/-! ### Records -/

theorem State.jWritten_of_item {h : Nat} {i : LItem} (hi : s.item? h = some i) :
    s.jWritten h = (s.putItem h { i with jrnl := true }).settle h := by
  rw [State.jWritten, hi]

/-! ### Closing the open block (R337, R338, R340) -/

@[simp] theorem leBytes_length (n v : Nat) : (leBytes n v).length = n := by
  induction n generalizing v with
  | zero => rfl
  | succ n ih => simp [leBytes, ih]

theorem jHeader_length (o : JOpen) (flags closeS : Nat) {sealB : List Byte} (hs : sealB.length = 32) :
    (jHeader o flags closeS sealB).length = 64 := by
  simp [jHeader, hs]

/-- Reading back bytes just written. -/
theorem memRead_memPutAll (l : List Host.Cell) (a : Nat) (bs : List Byte) :
    memRead (memPutAll l a bs) a bs.length = bs := by
  refine List.ext_getElem (by simp [memRead]) fun n h1 h2 => ?_
  simp [memRead, memGet_memPutAll, h2]

/-- No window collects: none of the four has state 1. -/
theorem State.not_collecting (hw : ∀ w : Nat, w < 4 → s.jwState w ≠ 1) :
    (List.range 4).any (fun w => s.jwState w == 1) = false := by
  simp only [List.any_eq_false, List.mem_range, beq_iff_eq]
  exact hw

/-- The cellar's bytes, and the journal, replaced. -/
def State.withCells (s : State) (c : List Host.Cell) : State := { s with cells := c }
def State.withJrnl (s : State) (j : Jrnl) : State := { s with jrnl := j }

@[simp] theorem State.withCells_rd (c : List Host.Cell) (b : Nat) (f : Fld) : (s.withCells c).rd b f = s.rd b f := rfl
@[simp] theorem State.withJrnl_rd (j : Jrnl) (b : Nat) (f : Fld) : (s.withJrnl j).rd b f = s.rd b f := rfl
@[simp] theorem State.withCells_cells (c : List Host.Cell) : (s.withCells c).cells = c := rfl
@[simp] theorem State.withJrnl_cells (j : Jrnl) : (s.withJrnl j).cells = s.cells := rfl
@[simp] theorem State.withJrnl_jrnl (j : Jrnl) : (s.withJrnl j).jrnl = j := rfl
theorem State.withCells_add (c : List Host.Cell) (b : Nat) (f : Fld) (n : Nat) :
    (s.withCells c).add b f n = (s.add b f n).withCells c := rfl

/-- With both parts put back as they were, only the rest of a change is left. -/
theorem frame_putBack {fs : List (Nat × Fld)} {ps : List Nat} {y : State} {c c' : List Host.Cell} {j j' : Jrnl}
    (h : Frame fs ps s y) (hc : y.cells = c') (hj : y.jrnl = j') :
    Frame fs ps s { (y.withCells c).withJrnl j with cells := c', jrnl := j' } := by
  rw [← hc, ← hj]; exact h

/-- A command that counts, writes the cellar and moves the journal on. -/
theorem State.happen_withBoth (s : State) {t : Nat} {g : State → State} {y : State} {c : List Host.Cell} {j : Jrnl}
    (h : g (s.at t) = (y.withCells c).withJrnl j) (hp : y.pending = s.pending) (ht : y.time = (s.at t).time) :
    s.happen t g = .next ((y.withCells c).withJrnl j) :=
  State.happen_eq s h hp ht

/-- A write to a channel in service stores its bytes and counts them. -/
theorem State.celWrite_inService {a : Nat} {bs : List Byte} (h : s.chInService (s.granule a).1 = true) :
    s.celWrite a bs = (s.add pgCELL CELL_C_WR_BYTES bs.length).withCells (memPutAll s.cells a bs) := if_pos h

/-- What the close of a block of 64 header bytes counts. -/
def jCloseCounts (s : State) : State :=
  ((s.add pgCELL CELL_C_WR_BYTES 64).inc pgJRNL JRNL_C_BLOCKS).add pgJRNL JRNL_C_BYTES 64

/-- An unsealed block closes with its header in place and its block listed. -/
theorem State.jClose_unsealed {o : JOpen} (hcur : s.jrnl.cur = some o) (hseal : s.on pgJRNL JRNL_SEAL_EN = false)
    (hch : s.chInService (s.granule (s.jAddr o.slot)).1 = true) (hw : ∀ w : Nat, w < 4 → s.jwState w ≠ 1) :
    s.jClose true =
      ((jCloseCounts s).withCells (memPutAll s.cells (s.jAddr o.slot) (jHeader o 2 (secOf s.time.h) (zeros 32)))).withJrnl
        { s.jrnl with blocks := s.jrnl.blocks ++ [⟨o.slot, o.bseq, secOf s.time.h⟩], cur := none } := by
  have hlen := jHeader_length o 2 (secOf s.time.h) (sealB := zeros 32) (by simp [zeros])
  simp only [State.jClose, hcur, State.jSeal, hseal, State.not_collecting hw, State.celWrite_inService hch, hlen,
    Bool.not_false, if_true, Bool.false_eq_true, if_false, Nat.add_zero, State.inc, State.withCells_add]
  rfl

theorem frame_jCloseCounts (s : State) :
    Frame [(pgJRNL, JRNL_C_BLOCKS), (pgJRNL, JRNL_C_BYTES), (pgCELL, CELL_C_WR_BYTES)] [] s (jCloseCounts s) :=
  frame_add (frame_inc (frame_add (frame_refl _ _ _) (by simp)) (by simp)) (by simp)

theorem rd_blocks_jCloseCounts : (jCloseCounts s).rd pgJRNL JRNL_C_BLOCKS = (s.rd pgJRNL JRNL_C_BLOCKS + 1) % 2 ^ 64 := by
  rw [jCloseCounts, State.rd_add_ne (by decide), State.rd_inc_same, State.rd_add_ne (by decide)]

theorem rd_bytes_jCloseCounts : (jCloseCounts s).rd pgJRNL JRNL_C_BYTES = (s.rd pgJRNL JRNL_C_BYTES + 64) % 2 ^ 64 := by
  rw [jCloseCounts, State.rd_add_same, State.rd_inc_ne (by decide), State.rd_add_ne (by decide)]

/-! ### Freeze windows (R339, R346) -/

/-- What a trigger writes of the window it opens or extends. -/
def jwTrigger (s : State) (w : Nat) : State :=
  (s.wr pgJRNL (JRNL_W_TRIG_S.at w 32) (secOf s.time.h)).wr pgJRNL (JRNL_W_TRIG_NS.at w 32) (nsOf s.time.h)

/-- Two fields of one window lie at different bit addresses. -/
theorem jwKey_ne {f g : Fld} (h : 8 * f.off + f.lo ≠ 8 * g.off + g.lo) :
    fldKey pgJRNL (f.at w 32) ≠ fldKey pgJRNL (g.at w 32) := by
  simp only [fldKey, Fld.at]; omega

/-- The counters of page 0x0A3 lie beyond its windows. -/
theorem jwKey_ne_ctr {f c : Fld} (hf : f.off < 0x120) (hc : 0x800 ≤ c.off) (hl : f.lo < 8) (hw : w < 4) :
    fldKey pgJRNL (f.at w 32) ≠ fldKey pgJRNL c := by
  simp only [fldKey, Fld.at]; omega

theorem State.jwFind_eq_some {st : Nat} (hw : w < 4) (hst : s.jwState w = st) (hlt : ∀ v : Nat, v < w → s.jwState v ≠ st) :
    s.jwFind st = some w := by
  rw [State.jwFind, List.find?_range_eq_some]
  exact ⟨by simpa using hst, by simpa using hw, by simpa using hlt⟩

theorem State.jwFind_eq_none {st : Nat} (h : ∀ w : Nat, w < 4 → s.jwState w ≠ st) : s.jwFind st = none := by
  simpa [State.jwFind] using h

theorem State.jTrigger_extends (hw : s.jwFind 1 = some w) :
    s.jTrigger cause = (jwTrigger s w).inc pgJRNL JRNL_C_FREEZE_EXT := by
  simp only [State.jTrigger, hw]; rfl

theorem State.jTrigger_refused (h1 : s.jwFind 1 = none) (h0 : s.jwFind 0 = none) :
    s.jTrigger cause = (s.inc pgJRNL JRNL_C_FREEZE_REFUSED).raise 0xA3 1 := by
  simp only [State.jTrigger, h1, h0]

/-- What a trigger writes of the window it opens: `first` is the block it starts with. -/
def jwOpen (s : State) (w cause first : Nat) : State :=
  ((((((jwTrigger s w).wr pgJRNL (JRNL_W_STATE.at w 32) 1).wr pgJRNL (JRNL_W_TRUNC.at w 32) 0).wr pgJRNL
    (JRNL_W_CAUSE.at w 32) cause).wr pgJRNL (JRNL_W_FIRST_B.at w 32) first).wr pgJRNL (JRNL_W_LAST_B.at w 32) 0).inc
    pgJRNL JRNL_C_FREEZES

/-- A window opened on an empty journal starts at the next block. -/
theorem State.jTrigger_opens (h1 : s.jwFind 1 = none) (h0 : s.jwFind 0 = some w) (hb : s.jrnl.blocks = [])
    (hc : s.jrnl.cur = none) : s.jTrigger cause = jwOpen s w cause s.jrnl.nextB := by
  simp [State.jTrigger, h1, h0, hb, hc, State.jTrim, jwTrigger, jwOpen]

theorem frame_jwTrigger {fs : List (Nat × Fld)} {u : State} (h : Frame fs [] s u)
    (hs : (pgJRNL, JRNL_W_TRIG_S.at w 32) ∈ fs) (hn : (pgJRNL, JRNL_W_TRIG_NS.at w 32) ∈ fs) :
    Frame fs [] s (jwTrigger u w) :=
  frame_wr (frame_wr h hs) hn

theorem rd_trigS_jwTrigger :
    (jwTrigger s w).rd pgJRNL (JRNL_W_TRIG_S.at w 32) = secOf s.time.h % 2 ^ JRNL_W_TRIG_S.width := by
  rw [jwTrigger, State.rd_wr_ne _ (jwKey_ne (by decide)), State.rd_wr_same]; rfl

theorem rd_trigNs_jwTrigger :
    (jwTrigger s w).rd pgJRNL (JRNL_W_TRIG_NS.at w 32) = nsOf s.time.h % 2 ^ JRNL_W_TRIG_NS.width := by
  rw [jwTrigger, State.rd_wr_same]; rfl

theorem frame_jwOpen (s : State) (w cause first : Nat) :
    Frame ((pgJRNL, JRNL_C_FREEZES) :: [JRNL_W_STATE, JRNL_W_TRUNC, JRNL_W_CAUSE, JRNL_W_FIRST_B, JRNL_W_LAST_B,
      JRNL_W_TRIG_S, JRNL_W_TRIG_NS].map (fun f => (pgJRNL, f.at w 32))) [] s (jwOpen s w cause first) :=
  frame_inc (frame_wr (frame_wr (frame_wr (frame_wr (frame_wr (frame_jwTrigger (frame_refl _ _ _) (by simp) (by simp))
    (by simp)) (by simp)) (by simp)) (by simp)) (by simp)) (by simp)

/-- What FREEZE_POST_END of a window writes while no block is present. -/
def jwFrozen (s : State) (w : Nat) : State :=
  ((s.wr pgJRNL (JRNL_W_LAST_B.at w 32) 0).wr pgJRNL (JRNL_W_STATE.at w 32) 2).raise 0xA3 0

theorem frame_jwFrozen (s : State) (w : Nat) :
    Frame [(pgJRNL, JRNL_W_STATE.at w 32), (pgJRNL, JRNL_W_LAST_B.at w 32)] [0xA3] s (jwFrozen s w) :=
  frame_raise (frame_wr (frame_wr (frame_refl _ _ _) (by simp)) (by simp)) (by simp)

/-- A collecting window whose time has passed freezes; with no block present its last is 0. -/
theorem State.jFreezeEnd_due (hst : s.jwState w = 1) (hb : s.jrnl.blocks = [])
    (hdue : instant (s.rd pgJRNL (JRNL_W_TRIG_S.at w 32) + s.rd pgJRNL JRNL_POST_S)
      (s.rd pgJRNL (JRNL_W_TRIG_NS.at w 32)) 0 ≤ s.time.h) : s.jFreezeEnd w = jwFrozen s w := by
  have hj := (frame_jwFrozen s w).jrnl
  unfold State.jFreezeEnd
  dsimp only
  rw [if_pos ⟨hst, hdue⟩, hb]
  exact (congrArg (fun j => (jwFrozen s w).jTrim w j.blocks.length) hj).trans (by rw [hb])

theorem State.jFreezeEnd_idle (hst : s.jwState w ≠ 1) : s.jFreezeEnd w = s := if_neg fun h => hst h.1

/-- A field of a window is no cell of an event of page 0x0A3. -/
theorem evtKey_jwField {f : Fld} (ho : 0x100 ≤ f.off) (hf : f.off < 0x120) (hl : f.lo < 8) (hw : w < 4) :
    evtKey 0xA3 (fldKey pgJRNL (f.at w 32)) = false := by
  rw [evtKey_iff]; simp only [fldKey, Fld.at, pgJRNL]; omega

theorem jwState_jwFrozen (hw : w < 4) : (jwFrozen s w).jwState w = 2 := by
  rw [State.jwState, jwFrozen, State.rd_raise (evtKey_jwField (by decide) (by decide) (by decide) hw), State.rd_wr_same]; rfl

theorem rd_lastB_jwFrozen (hw : w < 4) : (jwFrozen s w).rd pgJRNL (JRNL_W_LAST_B.at w 32) = 0 := by
  rw [jwFrozen, State.rd_raise (evtKey_jwField (by decide) (by decide) (by decide) hw),
    State.rd_wr_ne _ (jwKey_ne (by decide)), State.rd_wr_same, Nat.zero_mod]

end Sys2Proof.Machine
end

section
/-! The clauses of O51. -/

namespace Sys2Proof.Machine

/-- JOURNAL_WRITE_DONE of an item that a queue still refers to only marks its copy written (R24, R338). -/
theorem exec_journalWriteDone_referred {s : State} {h : Nat} {i : LItem} (t : Nat) (hi : s.item? h = some i)
    (hw : i.wb = none) (hr : s.refsTo h ≠ []) :
    exec (.journalWriteDone t h) s = .next ((s.at t).putItem h { i with jrnl := true }) := by
  rw [exec_journalWriteDone, execJournalWriteDone]
  refine State.happen_eq s ((State.jWritten_of_item (s := s.at t) hi).trans ?_) rfl rfl
  exact State.settle_of_refs (i := { i with jrnl := true }) (State.item?_putItem_same _ _ _) hw hr

/-- JOURNAL_WRITE_DONE of an item that no queue refers to: the item leaves the larder with its cells (R24, R338). -/
theorem exec_journalWriteDone_settles {s : State} {h : Nat} {i : LItem} (t : Nat) (hi : s.item? h = some i)
    (hw : i.wb = none) (hr : s.refsTo h = []) (hl : i.loc = .larder)
    (hu : s.rd pgLARD LARD_CELLS_USED = itemCells i.item) :
    ∃ u, exec (.journalWriteDone t h) s = .next u ∧ u.item? h = none ∧ u.rd pgLARD LARD_CELLS_USED = 0 ∧
      u.del.queues = s.del.queues := by
  have hput : ((s.at t).putItem h { i with jrnl := true }).item? h = some { i with jrnl := true } :=
    State.item?_putItem_same _ _ _
  have hact := State.jWritten_of_item (show (s.at t).item? h = some i from hi)
  have hsettle := State.settle_of_done hput hw hr rfl hl
  refine ⟨_, rfl, ?_, ?_, ?_⟩
  · exact (congrArg (·.item? h) hact).trans (State.item?_settle_of_done hput hw hr rfl hl)
  · refine (congrArg (·.rd pgLARD LARD_CELLS_USED) (hact.trans hsettle)).trans (State.rd_cellsUsed_freeCells.trans ?_)
    exact Nat.sub_eq_zero_of_le (Nat.le_of_eq hu)
  · refine (congrArg (·.del.queues) (hact.trans hsettle)).trans ?_
    rw [State.freeCells_del]; rfl

theorem State.jAddr_at (s : State) (t k : Nat) : (s.at t).jAddr k = s.jAddr k := rfl

/-- JOURNAL_BLOCK_CLOSE of a block whose time has passed, unsealed (R337, R338). -/
theorem exec_journalBlockClose_due {s : State} {t : Nat} {o : JOpen} (hcur : s.jrnl.cur = some o)
    (hdue : o.since + s.rd pgJRNL JRNL_CLOSE_MS * msU ≤ max s.time.clk t) (hseal : s.on pgJRNL JRNL_SEAL_EN = false)
    (hch : s.chInService (s.granule (s.jAddr o.slot)).1 = true) (hw : ∀ w : Nat, w < 4 → s.jwState w ≠ 1) :
    exec (.journalBlockClose t) s = .next
      (((jCloseCounts (s.at t)).withCells
        (memPutAll (s.at t).cells ((s.at t).jAddr o.slot) (jHeader o 2 (secOf (s.at t).time.h) (zeros 32)))).withJrnl
        { (s.at t).jrnl with blocks := (s.at t).jrnl.blocks ++ [⟨o.slot, o.bseq, secOf (s.at t).time.h⟩], cur := none }) := by
  have hold : (s.at t).jrnl.cur.any (fun o =>
      decide (o.since + (s.at t).rd pgJRNL JRNL_CLOSE_MS * msU ≤ (s.at t).time.clk)) = true := by
    rw [State.at_jrnl, hcur, State.at_clk, State.rd_at, Option.any_some]; exact decide_eq_true hdue
  rw [exec_journalBlockClose, execJournalBlockClose]
  exact State.happen_withBoth s ((if_pos hold).trans (State.jClose_unsealed (s := s.at t) hcur hseal hch hw))
    (frame_jCloseCounts _).pending (frame_jCloseCounts _).time

/-- JOURNAL_FREEZE with every window free and an empty journal opens window 0 at the next block (R339). -/
theorem exec_journalFreeze_opens {s : State} (t : Nat) (hreach : s.reaches 0xA3 false)
    (hfree : ∀ w : Nat, w < 4 → s.jwState w = 0) (hb : s.jrnl.blocks = []) (hc : s.jrnl.cur = none) :
    exec (.journalFreeze t) s = .next (jwOpen (s.at t) 0 0 s.jrnl.nextB) := by
  have h1 : (s.at t).jwFind 1 = none := State.jwFind_eq_none fun w hw h =>
    absurd ((show s.jwState w = 1 from h).symm.trans (hfree w hw)) (by decide)
  have h0 : (s.at t).jwFind 0 = some 0 := State.jwFind_eq_some (by decide) (hfree 0 (by decide)) (by simp)
  have hframe := frame_jwOpen (s.at t) 0 0 s.jrnl.nextB
  rw [exec_journalFreeze, execJournalFreeze]
  exact State.happen_eq s
    ((State.blkGuard_reaches (State.reaches_at.2 hreach)).trans (State.jTrigger_opens h1 h0 hb hc)) hframe.pending hframe.time

/-- JOURNAL_FREEZE while a window collects extends the first that does (R339). -/
theorem exec_journalFreeze_extends {s : State} {w : Nat} (t : Nat) (hreach : s.reaches 0xA3 false) (hw : w < 4)
    (hst : s.jwState w = 1) (hlt : ∀ v : Nat, v < w → s.jwState v ≠ 1) :
    exec (.journalFreeze t) s = .next ((jwTrigger (s.at t) w).inc pgJRNL JRNL_C_FREEZE_EXT) := by
  have hact := State.jTrigger_extends (cause := 0) (State.jwFind_eq_some (s := s.at t) hw hst hlt)
  rw [exec_journalFreeze, execJournalFreeze]
  exact State.happen_eq s ((State.blkGuard_reaches (State.reaches_at.2 hreach)).trans hact) rfl rfl

/-- JOURNAL_FREEZE with every window FROZEN is refused and counted (R339). -/
theorem exec_journalFreeze_refused {s : State} (t : Nat) (hreach : s.reaches 0xA3 false)
    (hfull : ∀ w : Nat, w < 4 → s.jwState w = 2) :
    exec (.journalFreeze t) s = .next (((s.at t).inc pgJRNL JRNL_C_FREEZE_REFUSED).raise 0xA3 1) := by
  have hnone : ∀ st, st ≠ 2 → (s.at t).jwFind st = none := fun st hne => State.jwFind_eq_none fun w hw h =>
    hne ((show s.jwState w = st from h).symm.trans (hfull w hw))
  have hact := State.jTrigger_refused (cause := 0) (hnone 1 (by decide)) (hnone 0 (by decide))
  have hframe : Frame [(pgJRNL, JRNL_C_FREEZE_REFUSED)] [0xA3] (s.at t)
      (((s.at t).inc pgJRNL JRNL_C_FREEZE_REFUSED).raise 0xA3 1) :=
    frame_raise (frame_inc (frame_refl _ _ _) (by simp)) (by simp)
  rw [exec_journalFreeze, execJournalFreeze]
  exact State.happen_eq s ((State.blkGuard_reaches (State.reaches_at.2 hreach)).trans hact) hframe.pending hframe.time

/-- FREEZE_POST_END of a collecting window whose time has passed (R339). -/
theorem exec_freezePostEnd_due {s : State} {t w : Nat} (hw : w < 4) (hst : s.jwState w = 1) (hb : s.jrnl.blocks = [])
    (hdue : instant (s.rd pgJRNL (JRNL_W_TRIG_S.at w 32) + s.rd pgJRNL JRNL_POST_S)
      (s.rd pgJRNL (JRNL_W_TRIG_NS.at w 32)) 0 ≤ (s.at t).time.h) :
    exec (.freezePostEnd t w) s = .next (jwFrozen (s.at t) w) := by
  have hframe := frame_jwFrozen (s.at t) w
  rw [exec_freezePostEnd, execFreezePostEnd, Nat.mod_eq_of_lt hw]
  exact State.happen_eq s (State.jFreezeEnd_due (s := s.at t) hst hb hdue) hframe.pending hframe.time

/-- UNFREEZE that reaches its page frees a FROZEN window, and is refused for any other (R346). -/
theorem exec_unfreeze_reaches {s : State} {w : Nat} (t : Nat) (hreach : s.reaches 0xA3 false) (hw : w < 4) :
    exec (.unfreeze t w) s = s.happen t (fun s =>
      if s.jwState w = 2 then s.wr pgJRNL (JRNL_W_STATE.at w 32) 0 else s.refuse 0xA3 errILLEGAL) := by
  rw [exec_unfreeze, execUnfreeze, Nat.mod_eq_of_lt hw, State.happen, State.happen,
    State.blkGuard_reaches (State.reaches_at.2 hreach)]

/-- Settles O51: each clause runs the journal's function in its case and reads the fields it wrote. -/
theorem theJournalWritesClosesAndFreezes : Obligations.TheJournalWritesClosesAndFreezes := by
  unfold Obligations.TheJournalWritesClosesAndFreezes
  refine ⟨?_, ?_, ?_, ?_, ?_, ?_, ?_, ?_, ?_, ?_, ?_, ?_⟩
  · rintro s t h i ⟨hi, hw, hr⟩
    exact ⟨_, exec_journalWriteDone_referred t hi hw hr, State.item?_putItem_same _ _ _, rfl, rfl, rfl⟩
  · rintro s t h i ⟨hi, hw, hr, hl, -, hu⟩
    exact exec_journalWriteDone_settles t hi hw hr hl hu
  · intro s t h hi
    have hact : (s.at t).jWritten h = s.at t := by simp [State.jWritten, show (s.at t).item? h = none from hi]
    rw [exec_journalWriteDone, execJournalWriteDone]
    exact ⟨s.at t, State.happen_eq s hact rfl rfl, rfl⟩
  · rintro s t o ⟨hcur, hdue, hseal, hch⟩ hw
    have hlen := jHeader_length o 2 (secOf (s.at t).time.h) (sealB := zeros 32) (by simp [zeros])
    have hframe := frame_jCloseCounts (s.at t)
    refine ⟨_, exec_journalBlockClose_due hcur hdue hseal hch hw, ?_, fun a ha => ?_, State.withJrnl_jrnl _, ?_, ?_,
      frame_putBack hframe hframe.cells hframe.jrnl⟩
    · rw [State.withJrnl_cells, State.withCells_cells, ← hlen]; exact memRead_memPutAll _ _ _
    · rw [State.withJrnl_cells, State.withCells_cells, memGet_memPutAll, if_neg (by rw [hlen, State.jAddr_at]; omega),
        State.at_cells]
    · rw [State.withJrnl_rd, State.withCells_rd, rd_blocks_jCloseCounts, State.rd_at]
    · rw [State.withJrnl_rd, State.withCells_rd, rd_bytes_jCloseCounts, State.rd_at]
  · intro s t hyoung
    rw [exec_journalBlockClose, execJournalBlockClose]
    refine ⟨s.at t, State.happen_eq s (if_neg ?_) rfl rfl, rfl⟩
    rw [State.at_jrnl, State.at_clk, State.rd_at]
    cases hcur : s.jrnl.cur with
    | none => exact Bool.false_ne_true
    | some o =>
      rw [Option.any_some, decide_eq_false (Nat.not_le.2 (hyoung o (by rw [hcur]; simp)))]
      exact Bool.false_ne_true
  · rintro s t ⟨hreach, hfree, hb, hc⟩
    have hframe := frame_jwOpen (s.at t) 0 0 s.jrnl.nextB
    refine ⟨_, exec_journalFreeze_opens t hreach hfree hb hc, ?_, ?_, ?_, ?_, ?_, ?_, ?_, hframe⟩
    · simp (disch := decide) only [jwOpen, State.jwState, State.rd_wr_ne, State.rd_inc_ne, State.rd_wr_same]; rfl
    · rw [State.jwState, hframe.rd (by decide) (by simp)]; exact hfree 1 (by decide)
    · simp (disch := decide) only [jwOpen, State.rd_wr_ne, State.rd_inc_ne, State.rd_wr_same]; rfl
    · simp (disch := decide) only [jwOpen, State.rd_wr_ne, State.rd_inc_ne, State.rd_wr_same]; rfl
    · simp (disch := decide) only [jwOpen, State.rd_wr_ne, State.rd_inc_ne, rd_trigS_jwTrigger]
    · simp (disch := decide) only [jwOpen, State.rd_wr_ne, State.rd_inc_ne, rd_trigNs_jwTrigger]
    · simp (disch := decide) only [jwOpen, jwTrigger, State.rd_wr_ne, State.rd_inc_same, State.rd_at]
  · rintro s t w ⟨hreach, hw, hst, hlt⟩
    refine ⟨_, exec_journalFreeze_extends t hreach hw hst hlt, ?_, ?_,
      frame_inc (frame_jwTrigger (frame_refl _ _ _) (by simp) (by simp)) (by simp)⟩
    · rw [State.rd_inc_same, jwTrigger, State.rd_wr_ne _ (jwKey_ne_ctr (by decide) (by decide) (by decide) hw).symm,
        State.rd_wr_ne _ (jwKey_ne_ctr (by decide) (by decide) (by decide) hw).symm, State.rd_at]
    · rw [State.rd_inc_ne (jwKey_ne_ctr (by decide) (by decide) (by decide) hw), rd_trigS_jwTrigger]
  · rintro s t ⟨hreach, hfull⟩
    refine ⟨_, exec_journalFreeze_refused t hreach hfull, ?_, pends_raise_self (by decide) (by decide),
      frame_raise (frame_inc (frame_refl _ _ _) (by simp)) (by simp)⟩
    rw [State.rd_raise (by decide), State.rd_inc_same, State.rd_at]
  · rintro s t w ⟨hw, hst, hb, hdue⟩
    exact ⟨_, exec_freezePostEnd_due hw hst hb hdue, jwState_jwFrozen hw, pends_raise_self (by decide) (by decide),
      rd_lastB_jwFrozen hw, frame_jwFrozen _ _⟩
  · rintro s t w ⟨hw, hst⟩
    rw [exec_freezePostEnd, execFreezePostEnd, Nat.mod_eq_of_lt hw]
    exact ⟨s.at t, State.happen_eq s (State.jFreezeEnd_idle (s := s.at t) hst) rfl rfl, rfl⟩
  · rintro s t w ⟨hw, hreach, hst⟩
    rw [exec_unfreeze_reaches t hreach hw]
    exact ⟨_, State.happen_eq s (if_pos hst) rfl rfl, State.rd_wr_same _ _ _ _, frame_wr1 _ _ _ _⟩
  · rintro s t w ⟨hw, hreach, hst⟩
    rw [exec_unfreeze_reaches t hreach hw]
    obtain ⟨u, hu, hframe, herr, -⟩ := State.happen_refuse s (t := t) (p := 0xA3) (c := errILLEGAL)
      (f := fun s => if s.jwState w = 2 then s.wr pgJRNL (JRNL_W_STATE.at w 32) 0 else s.refuse 0xA3 errILLEGAL)
      (by decide) (by decide) (if_neg hst)
    exact ⟨u, hu, hframe, herr⟩

end Sys2Proof.Machine
end

section
/-! SUPPORT. What resolving a reference does beside its item and its queue: packets sent on the ring, backpressure judged
and signalled, dispositions counted (R140, R143). -/

namespace Sys2Proof.Machine

/-- The cells that resolving a reference may write, beside the counters of its queue: the ring ports' pages, C_RA_TAGGED,
page 0x0A1, the windows of listener ports and queues, the flows' dispositions, four registers of the larder, and what
events of pages 0x0A0 and 0x0A1 write. -/
def resolveCell (k : Nat) : Prop :=
  (8 * 0x10000 ≤ k ∧ k < 8 * 0x14000) ∨ k = fldKey pgSBOX SBOX_C_RA_TAGGED ∨ (8 * 0xA1000 ≤ k ∧ k < 8 * 0xA2000) ∨
  (8 * 0x900000 ≤ k ∧ k < 8 * 0x9A0000) ∨ (8 * 0xC00000 ≤ k ∧ k < 8 * 0xD00000) ∨
  k ∈ [LARD_CELLS_USED, LARD_RESERVE_ACT, LARD_SPILLING, LARD_TALLY_USED].map (fldKey pgLARD) ∨
  evtKey 0xA0 k = true ∨ evtKey 0xA1 k = true

/-- From `s` to `u` only such cells changed, and neither items nor queues. -/
structure Aside (s u : State) : Prop where
  regs : ∀ k, ¬ resolveCell k → regLook u.regs k = regLook s.regs k
  items : u.del.items = s.del.items
  queues : u.del.queues = s.del.queues

variable {s u w : State} {b p q r : Nat} {f : Fld}

theorem Aside.refl (s : State) : Aside s s := ⟨fun _ _ => rfl, rfl, rfl⟩

theorem Aside.trans (h : Aside s u) (h' : Aside u w) : Aside s w :=
  ⟨fun k hk => (h'.regs k hk).trans (h.regs k hk), h'.items.trans h.items, h'.queues.trans h.queues⟩

/-- A field of another cell reads as before. -/
theorem Aside.rd (h : Aside s u) (hk : ¬ resolveCell (fldKey b f)) : u.rd b f = s.rd b f := by
  unfold State.rd; rw [h.regs _ hk]

theorem Aside.item? (h : Aside s u) (n : Nat) : u.item? n = s.item? n := congrArg (tabGet? · n) h.items

theorem Aside.queueOf (h : Aside s u) (n : Nat) : u.queueOf n = s.queueOf n :=
  congrArg (fun l => (tabGet? l n).getD []) h.queues

theorem Aside.refsTo (h : Aside s u) (n : Nat) : u.refsTo n = s.refsTo n := by
  unfold State.refsTo; rw [h.queues]

/-- Neither registers nor the delivery side change. -/
theorem aside_same (hr : u.regs = s.regs) (hd : u.del = s.del) : Aside s u :=
  ⟨fun _ _ => by rw [hr], by rw [hd], by rw [hd]⟩

theorem aside_wr (v : Nat) (hk : resolveCell (fldKey b f)) : Aside s (s.wr b f v) :=
  ⟨fun _ hk' => State.regLook_wr_ne s fun h => hk' (h ▸ hk), rfl, rfl⟩

theorem aside_inc (hk : resolveCell (fldKey b f)) : Aside s (s.inc b f) := aside_wr _ hk

/-- A frame of such cells alone. -/
theorem aside_frame {fs : List (Nat × Fld)} {ps : List Nat} (h : Frame fs ps s u) (hf : ∀ x ∈ fs, resolveCell (fldKey x.1 x.2))
    (hp : ∀ n ∈ ps, n = 0xA0 ∨ n = 0xA1) : Aside s u := by
  refine ⟨fun k hk => h.1 k (fun x hx he => hk (he ▸ hf x hx)) fun n hn => ?_, by rw [h.del], by rw [h.del]⟩
  refine Bool.eq_false_iff.2 fun he => hk ?_
  rcases hp n hn with rfl | rfl <;> simp [resolveCell, he]

theorem aside_raise (n : Nat) : Aside s (s.raise 0xA1 n) :=
  aside_frame (frame_raise (fs := []) (ps := [0xA1]) (frame_refl _ _ _) (by simp)) (by simp) (by simp)

/-! ### Which cells these are -/

theorem resolveCell_ring (hp : p < 4) (ho : f.off < 0xF00) (hl : f.lo < 32) : resolveCell (fldKey (pgRINGP p) f) := by
  left; simp only [fldKey, pgRINGP]; omega

theorem resolveCell_bell (ho : f.off < 0xF00) (hl : f.lo < 32) : resolveCell (fldKey pgBELL f) := by
  right; right; left; simp only [fldKey, pgBELL]; omega

theorem resolveCell_lport (hp : p < 2048) (ho : f.off < 0x3C) (hl : f.lo < 32) : resolveCell (fldKey (lportAt p) f) := by
  right; right; right; left; simp only [fldKey, lportAt]; omega

theorem resolveCell_queue (hq : q < 16384) (ho : f.off < 0x1C) (hl : f.lo < 32) : resolveCell (fldKey (queueAt q) f) := by
  right; right; right; left; simp only [fldKey, queueAt]; omega

theorem resolveCell_disp {n c : Nat} (hn : n < 16384) (hc : c < 8) : resolveCell (fldKey (dispCtrAt n) (ctr c)) := by
  right; right; right; right; left; simp only [fldKey, dispCtrAt, ctr]; omega

theorem resolveCell_tally : resolveCell (fldKey pgLARD LARD_TALLY_USED) := by simp [resolveCell]

/-- Every other cell, as numbers. -/
theorem not_resolveCell {k : Nat} (h1 : ¬(524288 ≤ k ∧ k < 655360)) (h2 : ¬(5275648 ≤ k ∧ k < 5308416))
    (h3 : ¬(75497472 ≤ k ∧ k < 80740352)) (h4 : ¬(100663296 ≤ k ∧ k < 109051904))
    (h5 : k ∉ [180736, 5243392, 5243522, 5243520, 5243488, 5243040, 5275808, 1184, 32928, 1024, 126877760, 50048, 49728])
    (h6 : ¬(40896 ≤ k ∧ k < 40960)) : ¬ resolveCell k := by
  simp only [List.mem_cons, List.not_mem_nil, or_false, not_or] at h5
  simp only [resolveCell, not_or, Bool.not_eq_true, evtKey_iff]
  simp only [List.map_cons, List.map_nil, List.mem_cons, List.not_mem_nil, or_false, fldKey, pgSBOX, pgLARD]
  omega

/-! ### Packets on the ring (R191, R196, R199 to R201, R213) -/

theorem aside_emit (e : Emission) : Aside s (s.emit e) := by
  unfold State.emit
  split
  · exact Aside.refl s
  · exact aside_same rfl rfl

theorem aside_setHop (p : Nat) (h : Hop) : Aside s (s.setHop p h) := aside_same rfl rfl

theorem aside_hopInc (ho : f.off < 0xF00) (hl : f.lo < 32) : Aside s (s.hopInc p f) := by
  unfold State.hopInc
  split
  · exact aside_inc (resolveCell_ring ‹_› ho hl)
  · exact Aside.refl s

theorem aside_sendFrame (ft vc lseq : Nat) (body : List Byte) : Aside s (s.sendFrame p ft vc lseq body) :=
  (aside_emit _).trans (aside_hopInc (by decide) (by decide))

theorem aside_mirrorHop : Aside s (s.mirrorHop p) := by
  unfold State.mirrorHop
  split
  · exact ((aside_wr _ (resolveCell_ring ‹_› (by decide) (by decide))).trans
      (aside_wr _ (resolveCell_ring ‹_› (by decide) (by decide)))).trans
      (aside_wr _ (resolveCell_ring ‹_› (by decide) (by decide)))
  · exact Aside.refl s

theorem aside_sendData (vc ft : Nat) (body : List Byte) : Aside s (s.sendData p vc ft body) :=
  ((aside_setHop p _).trans (aside_sendFrame ft vc _ body)).trans aside_mirrorHop

theorem resolveCell_credit (hp : p < 4) (vc : Nat) : resolveCell (fldKey (pgRINGP p) (credFld vc)) := by
  unfold credFld
  split
  · exact resolveCell_ring hp (by decide) (by decide)
  · split <;> exact resolveCell_ring hp (by decide) (by decide)

theorem aside_noteStall (hp : p < 4) (stalled : Bool) : Aside s (s.noteStall p stalled) := by
  unfold State.noteStall
  dsimp only
  split
  · exact aside_setHop p _
  · exact (aside_setHop p _).trans (aside_wr _ (resolveCell_ring hp (by decide) (by decide)))
  · exact Aside.refl s

theorem aside_pumpN (hp : p < 4) (n : Nat) : ∀ s : State, Aside s (s.pumpN p n) := by
  induction n with
  | zero => exact Aside.refl
  | succ n ih =>
    intro s
    unfold State.pumpN
    dsimp only
    split
    · exact Aside.refl s
    · split
      · exact aside_noteStall hp _
      · exact (((aside_setHop p _).trans (aside_wr _ (resolveCell_credit hp _))).trans (aside_sendData _ _ _)).trans (ih _)

theorem aside_toPort (hp : p < 4) (own : Bool) (k : RingPkt) : Aside s (s.toPort p own k) := by
  unfold State.toPort
  split
  · exact aside_sendFrame _ _ _ _
  · exact (aside_setHop p _).trans (aside_pumpN hp _ _)

theorem otherPort_lt (hp : p < 4) : otherPort p < 4 := by
  unfold otherPort; split <;> omega

theorem aside_sendPort (hp : p < 4) (own : Bool) (k : RingPkt) : Aside s (s.sendPort p own k) := by
  unfold State.sendPort
  split
  · exact aside_toPort hp own k
  · split
    · exact aside_hopInc (by decide) (by decide)
    · split
      · exact aside_toPort (otherPort_lt hp) own _
      · exact Aside.refl s

/-- A route leaves by one of a ring's two ports. -/
theorem egressRoute_dir_lt (l : List DiscRec) (i : Nat) : (egressRoute l i).1 < 2 := by
  unfold egressRoute; dsimp only; split <;> simp

theorem aside_sendUni (hr : r < 2) (k : RingPkt) : Aside s (s.sendUni r k) := by
  unfold State.sendUni
  split
  · rename_i d n he
    obtain ⟨i, -, hi⟩ := Option.map_eq_some_iff.1 he
    have hd : d < 2 := by have := egressRoute_dir_lt (s.nodesOf r) i; rwa [hi] at this
    exact aside_sendPort (by simp only [ringPort]; omega) true _
  · exact Aside.refl s

theorem aside_sendBoth (k : RingPkt) : Aside s (s.sendBoth k) := by
  have hone : ∀ (s : State) (r : Nat), r < 2 → Aside s (if s.admitted r k.dst then s.sendUni r k else s) := fun s r hr => by
    split
    · exact aside_sendUni hr k
    · exact Aside.refl s
  exact (hone s 0 (by decide)).trans (hone _ 1 (by decide))

theorem aside_raTag (k : RingPkt) : Aside s (s.raTag k).2 := by
  unfold State.raTag
  split
  · exact Aside.refl s
  · exact Aside.trans (u := { s with ring := { s.ring with raCtr := s.ring.raCtr + 1 } }) (aside_same rfl rfl)
      (aside_inc (.inr (.inl rfl)))

theorem aside_raTagIf (c : Prop) [Decidable c] (k : RingPkt) : Aside s (if c then s.raTag k else (k, s)).2 := by
  split
  · exact aside_raTag k
  · exact Aside.refl s

theorem aside_sigPayload (type : Nat) (data : List Byte) : Aside s (s.sigPayload type data).2 := aside_same rfl rfl

/-! ### Backpressure (R143) -/

theorem aside_sigBackpressure (leaf q : Nat) (on : Bool) (depth : Nat) (src : Option (Nat × Nat)) :
    Aside s (s.sigBackpressure leaf q on depth src) := by
  have hcount : Aside s (s.inc pgBELL BELL_C_BP_SIG) := aside_inc (resolveCell_bell (by decide) (by decide))
  unfold State.sigBackpressure
  dsimp only
  split
  · exact hcount
  · exact ((hcount.trans (aside_sigPayload _ _)).trans (aside_raTagIf _ _)).trans (aside_sendBoth _)

theorem aside_bpTurn (hq : q < 16384) (on : Bool) : Aside s (s.bpTurn q on) := by
  have hmark : ∀ v, Aside s ((s.wrB (queueAt q) QUEUE_BP on).wr (lportAt (q / 8)) LPORT_BP v) := fun v =>
    (aside_wr _ (resolveCell_queue hq (by decide) (by decide))).trans
      (aside_wr _ (resolveCell_lport (by omega) (by decide) (by decide)))
  unfold State.bpTurn
  dsimp only
  split
  · exact (hmark _).trans (aside_sigBackpressure _ _ _ _ _)
  · exact ((((hmark _).trans (aside_wr _ (resolveCell_bell (by decide) (by decide)))).trans
      (aside_wr _ (resolveCell_bell (by decide) (by decide)))).trans
      (aside_wr _ (resolveCell_bell (by decide) (by decide)))).trans (aside_raise _)

theorem aside_judgeBP (hq : q < 16384) : Aside s (s.judgeBP q) := by
  unfold State.judgeBP
  dsimp only
  split
  · split
    · exact aside_bpTurn hq false
    · exact Aside.refl s
  · split
    · exact aside_bpTurn hq true
    · exact Aside.refl s

theorem aside_bpSource (q port code : Nat) : Aside s (s.bpSource q port code) := by
  have hmark : ∀ k, Aside s { s with del := { s.del with sigAt := tabPut s.del.sigAt k s.time.clk } } := fun _ =>
    ⟨fun _ _ => rfl, rfl, rfl⟩
  unfold State.bpSource
  split
  · exact Aside.refl s
  · split
    · exact Aside.refl s
    · dsimp only
      split
      · split
        · exact Aside.refl s
        · exact (hmark _).trans (aside_sigBackpressure _ _ _ _ _)
      · exact (hmark _).trans (aside_sigBackpressure _ _ _ _ _)

theorem aside_mirrorKeys : Aside s s.mirrorKeys := aside_wr _ (resolveCell_bell (by decide) (by decide))

theorem aside_setLed (p : Nat) (g : Ledger → Ledger) : Aside s (s.setLed p g) := ⟨fun _ _ => rfl, rfl, rfl⟩

end Sys2Proof.Machine
end

section
/-! SUPPORT. Items that come and go between the larder and the cellar, and the reference that is refused when a spilled
header cannot be read, for O30. -/

namespace Sys2Proof.Machine

variable {s u : State} {h q n : Nat} {r : Ref} {i : LItem}

/-! ### The only reference of an item -/

/-- Queue `q` holds one reference, which is to item `h`, and no other queue holds any. -/
structure OnlyRef (s : State) (q h : Nat) (r : Ref) : Prop where
  queues : s.del.queues = [(q, [r])]
  handle : r.handle = h
  stat : r.stat = none

theorem OnlyRef.congr (ho : OnlyRef s q h r) (hq : u.del.queues = s.del.queues) : OnlyRef u q h r :=
  ⟨hq.trans ho.queues, ho.handle, ho.stat⟩

theorem OnlyRef.refsTo (ho : OnlyRef s q h r) : s.refsTo h = [(q, 0, r)] := by
  simp [State.refsTo, ho.queues, ho.stat, ho.handle, List.zipIdx]

theorem OnlyRef.queueOf (ho : OnlyRef s q h r) : s.queueOf q = [r] := by
  simp [State.queueOf, ho.queues, tabGet?]

/-- SPILLED of the queue counts the reference while its item is in the cellar (R117). -/
theorem OnlyRef.mirrorSpillOf (ho : OnlyRef s q h r) (hi : s.item? h = some i) :
    s.mirrorSpillOf h = s.wr (queueAt q) QUEUE_SPILLED (if i.loc == .spilled || i.loc == .fetching then 1 else 0) := by
  have hspill : s.refSpilled r = (i.loc == .spilled || i.loc == .fetching) := by
    simp [State.refSpilled, ho.stat, ho.handle, hi]
  rw [State.mirrorSpillOf, ho.refsTo, State.each_cons, State.each_nil, State.mirrorSpilled, ho.queueOf, List.filter_cons,
    hspill]
  split <;> rfl

/-! ### Spilling at rest -/

theorem State.spillNext_of_calm (hsp : s.on pgLARD LARD_SPILLING = false) : s.spillNext = s := by
  simp [State.spillNext, hsp]

theorem State.spillFreed_of_room (hf : s.on pgLARD LARD_SPILL_FULL = false) : s.spillFreed = s := by
  simp [State.spillFreed, hf]

theorem State.fetchNear_of_zero (ha : s.rd pgLARD LARD_FETCH_AHEAD = 0) : s.fetchNear q = s := by
  simp [State.fetchNear, ha]

/-- A page's cell is none of a queue's window. -/
theorem queueKey_ne_page {b : Nat} {f g : Fld} (hb : b < 0x100000) (ho : f.off < 0x1000) (hl : f.lo < 64) :
    fldKey b f ≠ fldKey (queueAt q) g := by
  simp only [fldKey, queueAt]; omega

theorem Frame.on {fs : List (Nat × Fld)} {ps : List Nat} {b : Nat} {f : Fld} (hfr : Frame fs ps s u)
    (hf : ∀ x ∈ fs, fldKey b f ≠ fldKey x.1 x.2) (hp : ∀ p ∈ ps, evtKey p (fldKey b f) = false) : u.on b f = s.on b f := by
  rw [State.on, hfr.rd hf hp, State.on]

/-- With the delivery side put back as it was, only the rest of a change is left. -/
theorem frame_delBack {fs : List (Nat × Fld)} {ps : List Nat} {d : Deliv} (hfr : Frame fs ps { s with del := d } u) :
    Frame fs ps s { u with del := s.del } := by
  obtain ⟨hregs, hu, hout, hquiet⟩ := hfr
  exact ⟨hregs, congrArg (fun v : State => { v with del := s.del }) hu, hout, hquiet⟩

/-! ### A spill write completes (R24, R120) -/

/-- Item `h`, the only one queue `q` refers to, marked and counted as spilled. -/
def markedOut (s : State) (h q : Nat) (i : LItem) : State :=
  ((s.putItem h { i with loc := .spilled }).inc pgLARD LARD_C_SPILLED).wr (queueAt q) QUEUE_SPILLED 1

/-- What its completed write leaves while the larder is not spilling: its cells are given back as well. -/
def spilledOut (s : State) (h q : Nat) (i : LItem) : State :=
  ((markedOut s h q i).setCells (s.rd pgLARD LARD_CELLS_USED - itemCells i.item)).add pgCELL CELL_C_WR_BYTES
    (32 + i.item.body.length)

/-- The fields that a completed spill write changes. -/
def spillFields (q : Nat) : List (Nat × Fld) :=
  [(pgLARD, LARD_CELLS_USED), (pgLARD, LARD_RESERVE_ACT), (pgLARD, LARD_C_SPILLED), (queueAt q, QUEUE_SPILLED),
   (pgCELL, CELL_C_WR_BYTES)]

theorem frame_markedOut (s : State) (h q : Nat) (i : LItem) :
    Frame (spillFields q) [] (s.putItem h { i with loc := .spilled }) (markedOut s h q i) :=
  frame_wr (frame_inc (frame_refl _ _ _) (by simp [spillFields])) (by simp [spillFields])

theorem frame_spilledOut (s : State) (h q : Nat) (i : LItem) :
    Frame (spillFields q) [] (s.putItem h { i with loc := .spilled }) (spilledOut s h q i) :=
  frame_add (frame_trans (frame_markedOut s h q i) (frame_mono (frame_setCells _ _) (by simp [spillFields]) (by simp)))
    (by simp [spillFields])

/-- A page's field that a completed spill write does not change. -/
theorem spillFields_ne {b : Nat} {f : Fld} (hb : b < 0x100000) (ho : f.off < 0x1000) (hl : f.lo < 64)
    (hn : fldKey b f ∉ [fldKey pgLARD LARD_CELLS_USED, fldKey pgLARD LARD_RESERVE_ACT, fldKey pgLARD LARD_C_SPILLED,
      fldKey pgCELL CELL_C_WR_BYTES]) : ∀ x ∈ spillFields q, fldKey b f ≠ fldKey x.1 x.2 := by
  simp only [List.mem_cons, List.not_mem_nil, or_false, not_or] at hn
  obtain ⟨h1, h2, h3, h4⟩ := hn
  simp only [spillFields, List.forall_mem_cons, List.not_mem_nil, false_imp_iff, implies_true, and_true]
  exact ⟨h1, h2, h3, queueKey_ne_page hb ho hl, h4⟩

theorem rd_cellsUsed_markedOut : (markedOut s h q i).rd pgLARD LARD_CELLS_USED = s.rd pgLARD LARD_CELLS_USED := by
  rw [markedOut, State.rd_wr_ne _ (queueKey_ne_page (by decide) (by decide) (by decide)), State.rd_inc_ne (by decide),
    State.rd_putItem]

theorem rd_cellsUsed_spilledOut :
    (spilledOut s h q i).rd pgLARD LARD_CELLS_USED = s.rd pgLARD LARD_CELLS_USED - itemCells i.item := by
  rw [spilledOut, State.rd_add_ne (by decide), State.rd_cellsUsed_setCells (s.cellsUsed_sub_lt _)]

theorem rd_spilled_spilledOut : (spilledOut s h q i).rd (queueAt q) QUEUE_SPILLED = 1 := by
  have hset := (frame_setCells (markedOut s h q i) (s.rd pgLARD LARD_CELLS_USED - itemCells i.item)).rd (b := queueAt q)
    (f := QUEUE_SPILLED) (by
      simpa using ⟨(queueKey_ne_page (by decide) (by decide) (by decide)).symm,
        (queueKey_ne_page (by decide) (by decide) (by decide)).symm⟩) (by simp)
  rw [spilledOut, State.rd_add_ne (queueKey_ne_page (by decide) (by decide) (by decide)).symm, hset, markedOut,
    State.rd_wr_same]
  rfl

theorem rd_cSpilled_spilledOut :
    (spilledOut s h q i).rd pgLARD LARD_C_SPILLED = (s.rd pgLARD LARD_C_SPILLED + 1) % 2 ^ 64 := by
  have hset := (frame_setCells (markedOut s h q i) (s.rd pgLARD LARD_CELLS_USED - itemCells i.item)).rd (b := pgLARD)
    (f := LARD_C_SPILLED) (by simpa using ⟨by decide, by decide⟩) (by simp)
  rw [spilledOut, State.rd_add_ne (by decide), hset, markedOut,
    State.rd_wr_ne _ (queueKey_ne_page (by decide) (by decide) (by decide)), State.rd_inc_same, State.rd_putItem]

theorem State.spillDone_of_calm (hi : s.item? h = some i) (hl : i.loc = .spilling) (ho : OnlyRef s q h r)
    (hsp : s.on pgLARD LARD_SPILLING = false) (ha : s.rd pgLARD LARD_FETCH_AHEAD = 0) :
    s.spillDone h = spilledOut s h q i := by
  have hframe := frame_spilledOut s h q i
  have hcalm : (spilledOut s h q i).on pgLARD LARD_SPILLING = false :=
    (hframe.on (spillFields_ne (by decide) (by decide) (by decide) (by decide)) (by simp)).trans hsp
  have hcalm' : (markedOut s h q i).on pgLARD LARD_SPILLING = false :=
    ((frame_markedOut s h q i).on (spillFields_ne (by decide) (by decide) (by decide) (by decide)) (by simp)).trans hsp
  have hzero : (spilledOut s h q i).rd pgLARD LARD_FETCH_AHEAD = 0 :=
    (hframe.rd (spillFields_ne (by decide) (by decide) (by decide) (by decide)) (by simp)).trans ha
  have hrefs : (spilledOut s h q i).refsTo h = [(q, 0, r)] := (ho.congr (by rw [hframe.del]; rfl)).refsTo
  have hmirror : ((s.putItem h { i with loc := .spilled }).inc pgLARD LARD_C_SPILLED).mirrorSpillOf h = markedOut s h q i :=
    OnlyRef.mirrorSpillOf (s := (s.putItem h { i with loc := .spilled }).inc pgLARD LARD_C_SPILLED)
      (i := { i with loc := .spilled }) (ho.congr rfl) (State.item?_putItem_same _ _ _)
  have hfree : (markedOut s h q i).freeCells (itemCells i.item) =
      (markedOut s h q i).setCells (s.rd pgLARD LARD_CELLS_USED - itemCells i.item) := by
    rw [State.freeCells_of_calm hcalm', rd_cellsUsed_markedOut]
  unfold State.spillDone
  rw [hi]
  dsimp only
  rw [if_pos (by rw [hl]; rfl), hmirror, hfree, ← spilledOut, hrefs]
  simp only [List.map_cons, List.map_nil, State.each_cons, State.each_nil, State.fetchNear_of_zero hzero,
    State.spillNext_of_calm hcalm]

theorem State.spillDone_of_not_spilling (hi : s.item? h = some i) (hl : i.loc ≠ .spilling) : s.spillDone h = s := by
  simp [State.spillDone, hi, hl]

/-! ### A spill fetch completes (R121, R334) -/

/-- An item as a fetch brings it back: `poison` when a body word could not be corrected. -/
def backInLarder (i : LItem) (poison : Bool) : LItem :=
  { i with loc := .larder, item := { i.item with poison := i.item.poison || poison } }

/-- Item `h` back in the larder, its bytes counted. -/
def readBack (s : State) (h : Nat) (i : LItem) (poison : Bool) : State :=
  (s.putItem h (backInLarder i poison)).add pgCELL CELL_C_RD_BYTES (32 + i.item.body.length)

/-- An uncorrectable word counted as well, and its queue's SPILLED followed. -/
def fetchedBack (s : State) (h err a : Nat) (i : LItem) : State :=
  ((readBack s h i (err == 1)).when (err != 0) (·.ueWords a 1)).mirrorSpillOf h

theorem State.fetchDone_of_fetching {err a : Nat} (hi : s.item? h = some i) (hl : i.loc = .fetching) :
    s.fetchDone h err a = (if 2 ≤ err then (fetchedBack s h err a i).discardItem h
      else (fetchedBack s h err a i).inc pgLARD LARD_C_FETCHED).spillFreed := by
  simp [State.fetchDone, hi, hl, fetchedBack, readBack, backInLarder]

/-- What uncorrectable words write of the registers. -/
def ueCounted (s : State) (a n : Nat) : State :=
  ((s.add pgCELL CELL_C_UE_WORDS n).wr pgCELL CELL_UE_ADDR a).raise 0xA2 1

theorem State.ueWords_regs (s : State) (a n : Nat) : (s.ueWords a n).regs = (ueCounted s a n).regs := by
  unfold State.ueWords ueCounted; dsimp only

theorem frame_ueCounted (s : State) (a n : Nat) :
    Frame [(pgCELL, CELL_C_UE_WORDS), (pgCELL, CELL_UE_ADDR)] [0xA2] s (ueCounted s a n) :=
  frame_raise (frame_wr (frame_add (frame_refl _ _ _) (by simp)) (by simp)) (by simp)

theorem State.ueWords_del (s : State) (a n : Nat) : (s.ueWords a n).del = s.del :=
  (frame_ueCounted s a n).del

/-- The item is found in the larder after whatever keeps the items. -/
theorem fetchedBack_mirror {poison : Bool} (ho : OnlyRef s q h r)
    (hd : u.del = (s.putItem h (backInLarder i poison)).del) : u.mirrorSpillOf h = u.wr (queueAt q) QUEUE_SPILLED 0 := by
  have hput : u.item? h = some (backInLarder i poison) := by
    rw [State.item?, hd]; exact State.item?_putItem_same _ _ _
  exact (ho.congr (u := u) (by rw [hd]; rfl)).mirrorSpillOf hput

theorem fetchedBack_clean (a : Nat) (ho : OnlyRef s q h r) :
    fetchedBack s h 0 a i = (readBack s h i false).wr (queueAt q) QUEUE_SPILLED 0 :=
  fetchedBack_mirror ho rfl

theorem fetchedBack_of_ue {err : Nat} (a : Nat) (herr : err ≠ 0) (ho : OnlyRef s q h r) :
    fetchedBack s h err a i = ((readBack s h i (err == 1)).ueWords a 1).wr (queueAt q) QUEUE_SPILLED 0 := by
  rw [fetchedBack, show (err != 0) = true from bne_iff_ne.2 herr, State.when_true]
  exact fetchedBack_mirror ho (State.ueWords_del _ _ _)

theorem fetchedBack_del_of_ue {err : Nat} (a : Nat) (herr : err ≠ 0) (ho : OnlyRef s q h r) :
    (fetchedBack s h err a i).del = (s.putItem h (backInLarder i (err == 1))).del := by
  rw [fetchedBack_of_ue a herr ho, State.wr_del, State.ueWords_del, readBack, State.add_del]

theorem fetchedBack_regs_of_ue {err : Nat} (a : Nat) (herr : err ≠ 0) (ho : OnlyRef s q h r) :
    (fetchedBack s h err a i).regs =
      ((ueCounted (readBack s h i (err == 1)) a 1).wr (queueAt q) QUEUE_SPILLED 0).regs := by
  rw [fetchedBack_of_ue a herr ho, State.wr, State.wr, State.ueWords_regs]

/-- A page's field that a fetch with an uncorrectable word leaves as it was. -/
theorem rd_fetchedBack_of_ue {err a b : Nat} {f : Fld} (herr : err ≠ 0) (ho : OnlyRef s q h r) (hb : b < 0x100000)
    (hoff : f.off < 0x1000) (hlo : f.lo < 64)
    (hn : fldKey b f ∉ [fldKey pgCELL CELL_C_UE_WORDS, fldKey pgCELL CELL_UE_ADDR, fldKey pgCELL CELL_C_RD_BYTES])
    (he : evtKey 0xA2 (fldKey b f) = false) : (fetchedBack s h err a i).rd b f = s.rd b f := by
  simp only [List.mem_cons, List.not_mem_nil, or_false, not_or] at hn
  obtain ⟨h1, h2, h3⟩ := hn
  rw [State.rd_congr (fetchedBack_regs_of_ue a herr ho), State.rd_wr_ne _ (queueKey_ne_page hb hoff hlo),
    (frame_ueCounted _ _ _).rd (by simpa using ⟨h1, h2⟩) (by simpa using he), readBack, State.rd_add_ne h3, State.rd_putItem]

theorem rd_ueWords_fetchedBack {err a : Nat} (herr : err ≠ 0) (ho : OnlyRef s q h r) :
    (fetchedBack s h err a i).rd pgCELL CELL_C_UE_WORDS = (s.rd pgCELL CELL_C_UE_WORDS + 1) % 2 ^ 64 := by
  rw [State.rd_congr (fetchedBack_regs_of_ue a herr ho),
    State.rd_wr_ne _ (queueKey_ne_page (by decide) (by decide) (by decide)), ueCounted, State.rd_raise (by decide),
    State.rd_wr_ne _ (by decide), State.rd_add_same, readBack, State.rd_add_ne (by decide), State.rd_putItem]

theorem rd_ueAddr_fetchedBack {err a : Nat} (herr : err ≠ 0) (ho : OnlyRef s q h r) :
    (fetchedBack s h err a i).rd pgCELL CELL_UE_ADDR = a % 2 ^ CELL_UE_ADDR.width := by
  rw [State.rd_congr (fetchedBack_regs_of_ue a herr ho),
    State.rd_wr_ne _ (queueKey_ne_page (by decide) (by decide) (by decide)), ueCounted, State.rd_raise (by decide),
    State.rd_wr_same]

theorem pends_fetchedBack {err a : Nat} (herr : err ≠ 0) (ho : OnlyRef s q h r) :
    (fetchedBack s h err a i).pends 0xA2 1 = true :=
  pends_congr (fetchedBack_regs_of_ue a herr ho)
    (pends_wr (queueKey_ne_page (by decide) (by decide) (by decide)) (pends_raise_self (by decide) (by decide)))

/-! ### A reference is refused REFUSED_FULL (R140) -/

/-- The queue replaced by a list of references. -/
def withQueue (s : State) (q : Nat) (l : List Ref) : State :=
  { s with del := { s.del with queues := if l.isEmpty then tabDel s.del.queues q else tabPut s.del.queues q l } }

theorem aside_setQueue (hq : q < 16384) (l : List Ref) : Aside (withQueue s q l) (s.setQueue q l) :=
  (((((aside_wr _ (resolveCell_queue hq (by decide) (by decide))).trans
    (aside_wr _ (resolveCell_queue hq (by decide) (by decide)))).trans
    (aside_wr _ (resolveCell_queue hq (by decide) (by decide)))).trans
    (aside_wr _ (resolveCell_lport (by omega) (by decide) (by decide)))).trans
    (aside_wr _ resolveCell_tally)).trans
    (aside_wr _ (resolveCell_queue hq (by decide) (by decide)))

/-- Taking the only reference out leaves no reference in any queue. -/
theorem aside_unqueue (hq : q < 16384) (ho : OnlyRef s q h r) : Aside (withQueue s q []) (s.unqueue q r true) := by
  have hleft : (s.queueOf q).filter (fun x => x.no != r.no) = [] := by simp [ho.queueOf]
  unfold State.unqueue
  dsimp only
  rw [hleft, State.when_true]
  exact ((aside_setQueue hq []).trans (aside_judgeBP hq)).trans aside_mirrorKeys

theorem withQueue_nil_queues (ho : OnlyRef s q h r) : (withQueue s q []).del.queues = [] := by
  simp [withQueue, ho.queues, tabDel]

/-- Without a twin there is no log. -/
theorem State.log_of_no_twin (ht : s.tstate < 2) (x : LogRec) : s.log x = s := by
  have : ¬ 2 ≤ s.tstate := by omega
  simp [State.log, this]

/-- A refusal counted: at the queue, at the flow, on page 0x0A1, in the ledger. -/
def fullCounted (s : State) (q : Nat) (r : Ref) : State :=
  (((s.inc (queueCtrAt q) (ctr 3)).inc (dispCtrAt r.flow) (ctr 3)).inc pgBELL BELL_C_REFUSED_FULL).setLed (q / 8)
    (fun g => ledNote g r.flow r.seq codeFULL)

theorem aside_fullCounted (hf : r.flow < 16384) : Aside (s.inc (queueCtrAt q) (ctr 3)) (fullCounted s q r) :=
  ((aside_inc (resolveCell_disp hf (by decide))).trans (aside_inc (resolveCell_bell (by decide) (by decide)))).trans
    (aside_setLed _ _)

theorem queueCtrKey_ne {b c : Nat} {f : Fld} (hb : b < 0x100000) (ho : f.off < 0x1000) (hl : f.lo < 64) :
    fldKey b f ≠ fldKey (queueCtrAt q) (ctr c) := by
  simp only [fldKey, queueCtrAt]; omega

theorem not_resolveCell_tstate : ¬ resolveCell (fldKey pgTWIN TWIN_TSTATE) :=
  not_resolveCell (by decide) (by decide) (by decide) (by decide) (by decide) (by decide)

theorem not_resolveCell_queueCtr {c : Nat} (hq : q < 16384) (hc : c < 8) : ¬ resolveCell (fldKey (queueCtrAt q) (ctr c)) := by
  have hk : fldKey (queueCtrAt q) (ctr c) = 83886080 + 512 * q + 64 * c := by simp only [fldKey, queueCtrAt, ctr]; omega
  rw [hk]
  refine not_resolveCell (by omega) (by omega) (by omega) (by omega) ?_ (by omega)
  simp only [List.mem_cons, List.not_mem_nil, or_false, not_or]
  omega

theorem tstate_fullCounted (hf : r.flow < 16384) : (fullCounted s q r).tstate = s.tstate :=
  ((aside_fullCounted hf).rd not_resolveCell_tstate).trans
    (State.rd_inc_ne (queueCtrKey_ne (by decide) (by decide) (by decide)))

/-- REFUSED_FULL of an item that no submission waits for, without a twin. -/
theorem State.countDisp_full (hf : r.flow < 16384) (hi : s.item? r.handle = some i) (hw : i.wb = none) (ht : s.tstate < 2) :
    s.countDisp q r codeFULL 0 = (fullCounted s q r).bpSource q i.item.port codeFULL := by
  have hitem : (fullCounted s q r).item? r.handle = some i := ((aside_fullCounted hf).item? _).trans hi
  have hlog : ((fullCounted s q r).bpSource q i.item.port codeFULL).tstate < 2 := by
    rw [State.tstate, (aside_bpSource _ _ _).rd not_resolveCell_tstate]
    exact lt_of_eq_of_lt (tstate_fullCounted hf) ht
  rw [fullCounted, codeFULL] at hitem hlog
  unfold State.countDisp
  simp only [codeFULL, bellCtr, Nat.reduceLeDiff, decide_false, State.when_false, hitem, hw, if_true]
  exact State.log_of_no_twin hlog _

theorem aside_countDisp_full (hf : r.flow < 16384) (hi : s.item? r.handle = some i) (hw : i.wb = none)
    (ht : s.tstate < 2) : Aside (s.inc (queueCtrAt q) (ctr 3)) (s.countDisp q r codeFULL 0) := by
  rw [State.countDisp_full hf hi hw ht]
  exact (aside_fullCounted hf).trans (aside_bpSource _ _ _)

theorem aside_freeCells (s : State) (n : Nat) : Aside s (s.freeCells n) :=
  aside_frame (frame_freeCells s n) (by simp [resolveCell]) (by simp)

/-- What the refusal of an item's only reference leaves: neither item nor reference, one more REFUSED_FULL at the queue,
and elsewhere the cells of a resolution alone. -/
structure Refused (s u : State) (q h : Nat) : Prop where
  item : u.item? h = none
  queue : u.queueOf q = []
  count : u.rd (queueCtrAt q) (ctr 3) = (s.rd (queueCtrAt q) (ctr 3) + 1) % 2 ^ 64
  rest : ∀ b f, ¬ resolveCell (fldKey b f) → fldKey b f ≠ fldKey (queueCtrAt q) (ctr 3) → u.rd b f = s.rd b f

theorem withQueue_rd (s : State) (q b : Nat) (l : List Ref) (f : Fld) : (withQueue s q l).rd b f = s.rd b f := rfl
theorem withQueue_item? (s : State) (q h : Nat) (l : List Ref) : (withQueue s q l).item? h = s.item? h := rfl

theorem State.item?_inc (s : State) (b h : Nat) (f : Fld) : (s.inc b f).item? h = s.item? h := rfl
theorem State.queues_inc (s : State) (b : Nat) (f : Fld) : (s.inc b f).del.queues = s.del.queues := rfl

theorem State.resolve_of_item (hs : r.stat = none) (code n : Nat) (judge : Bool) :
    s.resolve q r code n judge = ((s.unqueue q r judge).countDisp q r code n).settle r.handle := by
  unfold State.resolve
  rw [hs]

/-- Taken out of its queue, counted, and settled in three stages `w`, `v` and `v.settle h`. -/
theorem refused_of_stages {w v : State} (hq : q < 16384) (ho : OnlyRef s q h r) (hi : s.item? h = some i)
    (hw : i.wb = none) (hj : i.jrnl = true) (hl : i.loc = .larder) (hout : Aside (withQueue s q []) w)
    (hcount : Aside (w.inc (queueCtrAt q) (ctr 3)) v) : Refused s (v.settle h) q h := by
  have hrd : ∀ b f, ¬ resolveCell (fldKey b f) → w.rd b f = s.rd b f :=
    fun b f hk => (hout.rd hk).trans (withQueue_rd s q b [] f)
  have hitem : v.item? h = some i := by
    rw [hcount.item?, State.item?_inc, hout.item?, withQueue_item?, hi]
  have hqueues : v.del.queues = [] := by
    rw [hcount.queues, State.queues_inc, hout.queues, withQueue_nil_queues ho]
  have hnoref : v.refsTo h = [] := by simp [State.refsTo, hqueues]
  have hfree : Aside { v with del := { v.del with items := tabDel v.del.items h } } (v.settle h) := by
    rw [State.settle_of_done hitem hw hnoref hj hl]
    exact aside_freeCells _ _
  have hkeep : ∀ b f, ¬ resolveCell (fldKey b f) → (v.settle h).rd b f = (w.inc (queueCtrAt q) (ctr 3)).rd b f :=
    fun b f hk => (hfree.rd hk).trans (hcount.rd hk)
  refine ⟨State.item?_settle_of_done hitem hw hnoref hj hl, ?_, ?_, fun b f hk hne => ?_⟩
  · rw [hfree.queueOf]; simp [State.queueOf, hqueues, tabGet?]
  · rw [hkeep _ _ (not_resolveCell_queueCtr hq (by decide)), State.rd_inc_same,
      hrd _ _ (not_resolveCell_queueCtr hq (by decide))]
    rfl
  · rw [hkeep _ _ hk, State.rd_inc_ne hne, hrd _ _ hk]

theorem resolve_full_refused (hq : q < 16384) (hf : r.flow < 16384) (ho : OnlyRef s q h r) (hi : s.item? h = some i)
    (hw : i.wb = none) (hj : i.jrnl = true) (hl : i.loc = .larder) (ht : s.tstate < 2) :
    Refused s (s.resolve q r codeFULL 0 true) q h := by
  have hout := aside_unqueue hq ho
  have hitem : (s.unqueue q r true).item? r.handle = some i := by
    rw [ho.handle, hout.item?, withQueue_item?, hi]
  have htstate : (s.unqueue q r true).tstate < 2 := by
    rw [State.tstate, hout.rd not_resolveCell_tstate, withQueue_rd]; exact ht
  rw [State.resolve_of_item ho.stat, ho.handle]
  exact refused_of_stages hq ho hi hw hj hl hout (aside_countDisp_full hf hitem hw htstate)

end Sys2Proof.Machine
end

section
/-! PROOF of O30: spill writes free cells, spill fetches bring items back (R24, R33, R120 to R122, R334, R336). -/

namespace Sys2Proof.Machine

variable {s u : State} {t h q a : Nat} {r : Ref} {i : LItem}

/-- What a command's effect leaves of the registers and of the delivery side stands in its answer. -/
theorem State.happen_parts (s : State) (t : Nat) (g : State → State) :
    ∃ u, s.happen t g = .next u ∧ u.regs = (g (s.at t)).regs ∧ u.del = (g (s.at t)).del :=
  ⟨_, rfl, rfl, rfl⟩

theorem OnlyRef.at (ho : OnlyRef s q h r) (t : Nat) : OnlyRef (s.at t) q h r := ho.congr rfl

/-! ### A spill write completes -/

theorem spillWriteDone_calm (t : Nat) (hi : s.item? h = some i) (hl : i.loc = .spilling) (ho : OnlyRef s q h r)
    (hsp : s.on pgLARD LARD_SPILLING = false) (ha : s.rd pgLARD LARD_FETCH_AHEAD = 0) :
    exec (.spillWriteDone t h) s = .next (spilledOut (s.at t) h q i) := by
  have hframe := frame_spilledOut (s.at t) h q i
  exact s.happen_eq (g := (·.spillDone h)) (State.spillDone_of_calm (s := s.at t) hi hl (ho.at t) hsp ha) hframe.pending hframe.time

theorem item?_spilledOut (s : State) (h q : Nat) (i : LItem) :
    (spilledOut s h q i).item? h = some { i with loc := .spilled } := by
  rw [State.item?, (frame_spilledOut s h q i).del]
  exact State.item?_putItem_same _ _ _

theorem spillWriteDone_not_spilling (t : Nat) (hi : s.item? h = some i) (hl : i.loc ≠ .spilling) :
    exec (.spillWriteDone t h) s = .next (s.at t) :=
  s.happen_eq (g := (·.spillDone h)) (u := s.at t) (State.spillDone_of_not_spilling (s := s.at t) hi hl) rfl rfl

/-! ### A spill fetch completes clean -/

/-- The fields that a clean fetch changes. -/
def fetchFields (q : Nat) : List (Nat × Fld) :=
  [(pgLARD, LARD_C_FETCHED), (queueAt q, QUEUE_SPILLED), (pgCELL, CELL_C_RD_BYTES)]

/-- What a clean fetch leaves. -/
def fetchedClean (s : State) (h q : Nat) (i : LItem) : State :=
  ((readBack s h i false).wr (queueAt q) QUEUE_SPILLED 0).inc pgLARD LARD_C_FETCHED

theorem frame_fetchedClean (s : State) (h q : Nat) (i : LItem) :
    Frame (fetchFields q) [] (s.putItem h (backInLarder i false)) (fetchedClean s h q i) :=
  frame_inc (frame_wr (frame_add (frame_refl _ _ _) (by simp [fetchFields])) (by simp [fetchFields]))
    (by simp [fetchFields])

theorem on_spillFull_fetchedClean : (fetchedClean s h q i).on pgLARD LARD_SPILL_FULL = s.on pgLARD LARD_SPILL_FULL := by
  refine (frame_fetchedClean s h q i).on ?_ (by simp)
  simp only [fetchFields, List.forall_mem_cons, List.not_mem_nil, false_imp_iff, implies_true, and_true]
  exact ⟨by decide, queueKey_ne_page (by decide) (by decide) (by decide), by decide⟩

theorem rd_spilled_fetchedClean : (fetchedClean s h q i).rd (queueAt q) QUEUE_SPILLED = 0 := by
  rw [fetchedClean, State.rd_inc_ne (queueKey_ne_page (by decide) (by decide) (by decide)).symm, State.rd_wr_same]
  rfl

theorem rd_cFetched_fetchedClean :
    (fetchedClean s h q i).rd pgLARD LARD_C_FETCHED = (s.rd pgLARD LARD_C_FETCHED + 1) % 2 ^ 64 := by
  rw [fetchedClean, State.rd_inc_same, State.rd_wr_ne _ (queueKey_ne_page (by decide) (by decide) (by decide)), readBack,
    State.rd_add_ne (by decide), State.rd_putItem]

theorem State.fetchDone_clean (a : Nat) (hi : s.item? h = some i) (hl : i.loc = .fetching) (ho : OnlyRef s q h r)
    (hroom : s.on pgLARD LARD_SPILL_FULL = false) : s.fetchDone h 0 a = fetchedClean s h q i := by
  rw [State.fetchDone_of_fetching hi hl, if_neg (by decide), fetchedBack_clean a ho, ← fetchedClean,
    State.spillFreed_of_room (on_spillFull_fetchedClean.trans hroom)]

theorem spillFetchDone_clean (t a : Nat) (hi : s.item? h = some i) (hl : i.loc = .fetching) (ho : OnlyRef s q h r)
    (hroom : s.on pgLARD LARD_SPILL_FULL = false) :
    exec (.spillFetchDone t h 0 a) s = .next (fetchedClean (s.at t) h q i) := by
  have hframe := frame_fetchedClean (s.at t) h q i
  exact s.happen_eq (g := (·.fetchDone h 0 a)) (State.fetchDone_clean (s := s.at t) a hi hl (ho.at t) hroom) hframe.pending hframe.time

theorem backInLarder_clean (i : LItem) : backInLarder i false = { i with loc := .larder } := by
  simp [backInLarder]

theorem backInLarder_poisoned (i : LItem) :
    backInLarder i true = { i with loc := .larder, item := { i.item with poison := true } } := by
  simp [backInLarder]

theorem item?_fetchedClean (s : State) (h q : Nat) (i : LItem) :
    (fetchedClean s h q i).item? h = some { i with loc := .larder } := by
  rw [State.item?, (frame_fetchedClean s h q i).del, ← backInLarder_clean]
  exact State.item?_putItem_same _ _ _

/-! ### A spill fetch completes with an uncorrectable body word -/

/-- What a fetch with a poisoned body leaves. -/
theorem State.fetchDone_poisoned (a : Nat) (hi : s.item? h = some i) (hl : i.loc = .fetching) (ho : OnlyRef s q h r)
    (hroom : s.on pgLARD LARD_SPILL_FULL = false) :
    s.fetchDone h 1 a = (fetchedBack s h 1 a i).inc pgLARD LARD_C_FETCHED := by
  have hfull : ((fetchedBack s h 1 a i).inc pgLARD LARD_C_FETCHED).on pgLARD LARD_SPILL_FULL = false := by
    rw [State.on, State.rd_inc_ne (by decide), rd_fetchedBack_of_ue (by decide) ho (by decide) (by decide) (by decide)
      (by decide) (by decide)]
    exact hroom
  rw [State.fetchDone_of_fetching hi hl, if_neg (by decide), State.spillFreed_of_room hfull]

theorem item?_poisoned (ho : OnlyRef s q h r) :
    ((fetchedBack s h 1 a i).inc pgLARD LARD_C_FETCHED).item? h =
      some { i with loc := .larder, item := { i.item with poison := true } } := by
  rw [State.item?_inc, State.item?, fetchedBack_del_of_ue a (by decide) ho, ← backInLarder_poisoned]
  exact State.item?_putItem_same _ _ _

/-! ### A spill fetch completes with an unreadable header -/

/-- The discarded item counted, before its reference is resolved. -/
def headerLost (s : State) (h a : Nat) (i : LItem) : State :=
  ((fetchedBack s h 2 a i).add pgCELL CELL_C_CH_LOST 1).inc pgLARD LARD_C_HDR_DISCARD

theorem headerLost_del (ho : OnlyRef s q h r) : (headerLost s h a i).del = (s.putItem h (backInLarder i false)).del := by
  rw [headerLost, State.inc_del, State.add_del]
  exact fetchedBack_del_of_ue a (by decide) ho

theorem item?_headerLost (ho : OnlyRef s q h r) : (headerLost s h a i).item? h = some (backInLarder i false) := by
  rw [State.item?, headerLost_del ho]
  exact State.item?_putItem_same _ _ _

theorem onlyRef_headerLost (ho : OnlyRef s q h r) : OnlyRef (headerLost s h a i) q h r :=
  ho.congr (by rw [headerLost_del ho]; rfl)

/-- A page's field that an unreadable header leaves as it was before its reference is resolved. -/
theorem rd_headerLost {b : Nat} {f : Fld} (ho : OnlyRef s q h r) (hb : b < 0x100000) (hoff : f.off < 0x1000) (hlo : f.lo < 64)
    (hn : fldKey b f ∉ [fldKey pgCELL CELL_C_UE_WORDS, fldKey pgCELL CELL_UE_ADDR, fldKey pgCELL CELL_C_RD_BYTES])
    (hn' : fldKey b f ∉ [fldKey pgCELL CELL_C_CH_LOST, fldKey pgLARD LARD_C_HDR_DISCARD])
    (he : evtKey 0xA2 (fldKey b f) = false) : (headerLost s h a i).rd b f = s.rd b f := by
  simp only [List.mem_cons, List.not_mem_nil, or_false, not_or] at hn'
  obtain ⟨hlost, hdisc⟩ := hn'
  rw [headerLost, State.rd_inc_ne hdisc, State.rd_add_ne hlost, rd_fetchedBack_of_ue (by decide) ho hb hoff hlo hn he]

theorem rd_hdrDiscard_headerLost (ho : OnlyRef s q h r) :
    (headerLost s h a i).rd pgLARD LARD_C_HDR_DISCARD = (s.rd pgLARD LARD_C_HDR_DISCARD + 1) % 2 ^ 64 := by
  rw [headerLost, State.rd_inc_same, State.rd_add_ne (by decide), rd_fetchedBack_of_ue (by decide) ho (by decide)
    (by decide) (by decide) (by decide) (by decide)]

theorem rd_chLost_headerLost (ho : OnlyRef s q h r) :
    (headerLost s h a i).rd pgCELL CELL_C_CH_LOST = (s.rd pgCELL CELL_C_CH_LOST + 1) % 2 ^ 64 := by
  rw [headerLost, State.rd_inc_ne (by decide), State.rd_add_same, rd_fetchedBack_of_ue (by decide) ho (by decide)
    (by decide) (by decide) (by decide) (by decide)]

/-- The queue's dispositions are not counted before. -/
theorem rd_queueCtr_headerLost (ho : OnlyRef s q h r) (hq : q < 16384) :
    (headerLost s h a i).rd (queueCtrAt q) (ctr 3) = s.rd (queueCtrAt q) (ctr 3) := by
  have hpage : ∀ {b : Nat} {f : Fld}, b < 0x100000 → f.off < 0x1000 → f.lo < 64 →
      fldKey (queueCtrAt q) (ctr 3) ≠ fldKey b f := fun hb ho hl => (queueCtrKey_ne hb ho hl).symm
  have hspilled : fldKey (queueCtrAt q) (ctr 3) ≠ fldKey (queueAt q) QUEUE_SPILLED := by
    simp only [fldKey, queueCtrAt, queueAt, ctr]; omega
  have hevt : evtKey 0xA2 (fldKey (queueCtrAt q) (ctr 3)) = false := by
    rw [evtKey_iff]
    simp only [fldKey, queueCtrAt, ctr]; omega
  rw [headerLost, State.rd_inc_ne (hpage (by decide) (by decide) (by decide)),
    State.rd_add_ne (hpage (by decide) (by decide) (by decide)), State.rd_congr (fetchedBack_regs_of_ue a (by decide) ho),
    State.rd_wr_ne _ hspilled, (frame_ueCounted _ _ _).rd (by
      simpa using ⟨hpage (by decide) (by decide) (by decide), hpage (by decide) (by decide) (by decide)⟩)
      (by simpa using hevt), readBack, State.rd_add_ne (hpage (by decide) (by decide) (by decide)), State.rd_putItem]

theorem State.discardItem_headerLost (ho : OnlyRef s q h r) :
    (fetchedBack s h 2 a i).discardItem h = (headerLost s h a i).resolve q r codeFULL 0 true := by
  have hrefs : (fetchedBack s h 2 a i).refsTo h = [(q, 0, r)] :=
    (ho.congr (by rw [fetchedBack_del_of_ue a (by decide) ho]; rfl)).refsTo
  have hrefs' : (headerLost s h a i).refsTo h = [(q, 0, r)] := (onlyRef_headerLost ho).refsTo
  rw [headerLost] at hrefs' ⊢
  unfold State.discardItem
  simp only [hrefs, List.length_singleton, hrefs', State.each_cons, State.each_nil]

/-- An unreadable header refuses the item's reference and the item is gone. -/
theorem State.fetchDone_discarded (a : Nat) (hi : s.item? h = some i) (hl : i.loc = .fetching) (hw : i.wb = none)
    (hj : i.jrnl = true) (ho : OnlyRef s q h r) (hq : q < 16384) (hf : r.flow < 16384)
    (hroom : s.on pgLARD LARD_SPILL_FULL = false) (ht : s.tstate < 2) :
    Refused (headerLost s h a i) (s.fetchDone h 2 a) q h := by
  have htstate : (headerLost s h a i).tstate < 2 := by
    rw [State.tstate, rd_headerLost ho (by decide) (by decide) (by decide) (by decide) (by decide) (by decide)]
    exact ht
  have hrefused := resolve_full_refused hq hf (onlyRef_headerLost (a := a) ho) (item?_headerLost ho) hw hj rfl htstate
  have hfull : ((headerLost s h a i).resolve q r codeFULL 0 true).on pgLARD LARD_SPILL_FULL = false := by
    rw [State.on, hrefused.rest _ _
      (not_resolveCell (by decide) (by decide) (by decide) (by decide) (by decide) (by decide))
      (queueCtrKey_ne (by decide) (by decide) (by decide)),
      rd_headerLost ho (by decide) (by decide) (by decide) (by decide) (by decide) (by decide)]
    exact hroom
  rw [State.fetchDone_of_fetching hi hl, if_pos (by decide), State.discardItem_headerLost ho,
    State.spillFreed_of_room hfull]
  exact hrefused

/-- Settles O30: each completion is a chain of updates whose frame says the rest; the discarded item's reference is
resolved like any other. -/
theorem spillWritesAndFetches : Obligations.SpillWritesAndFetches := by
  unfold Obligations.SpillWritesAndFetches
  refine ⟨?_, ?_, ?_, ?_, ?_⟩
  · rintro s t h q r i ⟨hi, hl⟩ ⟨hqs, hrh, hrs, -⟩ ⟨-, hsp, ha⟩ -
    refine ⟨_, spillWriteDone_calm t hi hl ⟨hqs, hrh, hrs⟩ hsp ha, item?_spilledOut _ _ _ _, rd_cellsUsed_spilledOut,
      rd_spilled_spilledOut, rd_cSpilled_spilledOut, ?_⟩
    exact frame_delBack (s := s.at t) (frame_spilledOut (s.at t) h q i)
  · rintro s t h i ⟨hi, hl⟩
    exact ⟨_, spillWriteDone_not_spilling t hi hl, rfl⟩
  · rintro s t h q a r i ⟨hi, hl⟩ ⟨hqs, hrh, hrs, -⟩ hroom
    refine ⟨_, spillFetchDone_clean t a hi hl ⟨hqs, hrh, hrs⟩ hroom, item?_fetchedClean _ _ _ _, rd_spilled_fetchedClean,
      rd_cFetched_fetchedClean, ?_⟩
    exact frame_delBack (s := s.at t) (frame_fetchedClean (s.at t) h q i)
  · rintro s t h q a r i ⟨hi, hl⟩ ⟨hqs, hrh, hrs, -⟩ hroom
    have ho := OnlyRef.at (s := s) ⟨hqs, hrh, hrs⟩ t
    obtain ⟨u, hexec, hregs, hdel⟩ := s.happen_parts t (·.fetchDone h 1 a)
    rw [State.fetchDone_poisoned (s := s.at t) a hi hl ho hroom] at hregs hdel
    refine ⟨u, hexec, ?_, ?_, ?_, ?_⟩
    · rw [State.item?, hdel]; exact item?_poisoned ho
    · rw [State.rd_congr hregs, State.rd_inc_ne (by decide), rd_ueWords_fetchedBack (by decide) ho, State.rd_at]
    · rw [State.rd_congr hregs, State.rd_inc_ne (by decide), rd_ueAddr_fetchedBack (by decide) ho]
    · exact pends_congr hregs (pends_wr (by decide) (pends_fetchedBack (by decide) ho))
  · rintro s t h q a r i ⟨hi, hl, hw, hj⟩ ⟨hqs, hrh, hrs, hq, hf⟩ ⟨hroom, ht⟩
    have ho := OnlyRef.at (s := s) ⟨hqs, hrh, hrs⟩ t
    obtain ⟨u, hexec, hregs, hdel⟩ := s.happen_parts t (·.fetchDone h 2 a)
    have hrefused := State.fetchDone_discarded (s := s.at t) a hi hl hw hj ho hq hf hroom ht
    refine ⟨u, hexec, ?_, ?_, ?_, ?_, ?_⟩
    · rw [State.item?, hdel]; exact hrefused.item
    · rw [State.queueOf, hdel]; exact hrefused.queue
    · rw [State.rd_congr hregs, hrefused.rest _ _
        (not_resolveCell (by decide) (by decide) (by decide) (by decide) (by decide) (by decide))
        (queueCtrKey_ne (by decide) (by decide) (by decide)), rd_hdrDiscard_headerLost ho, State.rd_at]
    · rw [State.rd_congr hregs, hrefused.rest _ _
        (not_resolveCell (by decide) (by decide) (by decide) (by decide) (by decide) (by decide))
        (queueCtrKey_ne (by decide) (by decide) (by decide)), rd_chLost_headerLost ho, State.rd_at]
    · rw [State.rd_congr hregs, hrefused.count, rd_queueCtr_headerLost ho hq, State.rd_at]

end Sys2Proof.Machine
end

section
/-! SUPPORT. What the receive side of a port leaves alone, and which cells the events of a UART's receive line write (R43,
R45, R323, R329). -/

namespace Sys2Proof.Machine

variable {fs gs : List (Nat × Fld)} {s u : State} {b p i n t : Nat} {f : Fld} {r : RxPort} {c : Bool} {g : State → State}

/-- What a conditional update keeps whenever it is made, it keeps. -/
theorem State.when_keeps {β : Type} (k : State → β) (h : k (g s) = k s) : k (s.when c g) = k s := by
  unfold State.when; split
  · exact h
  · rfl

theorem Frame.sys {ps : List Nat} (h : Frame fs ps s u) : u.sys = s.sys := by rw [h.2.1]
theorem Frame.anvils {ps : List Nat} (h : Frame fs ps s u) : u.anvils = s.anvils := by rw [h.2.1]

/-! ### Receive sides -/

@[simp] theorem State.rxOf_at : (s.at t).rxOf p = s.rxOf p := rfl
@[simp] theorem State.rxOf_wr : (s.wr b f n).rxOf p = s.rxOf p := rfl
@[simp] theorem State.rxOf_add : (s.add b f n).rxOf p = s.rxOf p := rfl
@[simp] theorem State.rxOf_icInc : (s.icInc b i).rxOf p = s.rxOf p := rfl
@[simp] theorem State.rxOf_setRx : (s.setRx p r).rxOf p = r := by
  rw [State.rxOf, State.setRx, State.wrB_rx, State.wrB_rx, State.wrB_rx, State.wr_rx, tabGet?_tabPut_same,
    Option.getD_some]

theorem State.rd_icInc_same : (s.icInc p i).rd (ingestCtrAt p) (ctr i) = (s.rd (ingestCtrAt p) (ctr i) + 1) % 2 ^ 64 :=
  State.rd_wr_same _ _ _ _

theorem State.rd_icInc_ne (h : fldKey b f ≠ fldKey (ingestCtrAt p) (ctr i)) : (s.icInc p i).rd b f = s.rd b f :=
  State.rd_wr_ne s h

/-! ### Frames beside the receive sides -/

/-- `u` is `s` but for the fields listed and the receive sides of ports. -/
def RxFrame (fs : List (Nat × Fld)) (s u : State) : Prop := Frame fs [] s { u with rx := s.rx }

theorem rxFrame_refl (s : State) : RxFrame fs s s := frame_refl _ _ s

theorem RxFrame.mono (h : RxFrame fs s u) (hf : ∀ x ∈ fs, x ∈ gs) : RxFrame gs s u := frame_mono h hf (by simp)

theorem RxFrame.trans {w : State} (h : RxFrame fs s u) (h' : RxFrame fs u w) : RxFrame fs s w := by
  obtain ⟨hregs, hw, hout, hquiet⟩ := h'
  have hback : Frame fs [] { u with rx := s.rx } { w with rx := s.rx } :=
    ⟨hregs, congrArg (fun v : State => { v with rx := s.rx }) hw, hout, hquiet⟩
  exact frame_trans h hback

theorem rxFrame_wr (h : RxFrame fs s u) (hm : (b, f) ∈ fs) : RxFrame fs s (u.wr b f n) :=
  frame_wr (u := { u with rx := s.rx }) h hm

theorem rxFrame_wrB (h : RxFrame fs s u) (hm : (b, f) ∈ fs) : RxFrame fs s (u.wrB b f c) := rxFrame_wr h hm
theorem rxFrame_add (h : RxFrame fs s u) (hm : (b, f) ∈ fs) : RxFrame fs s (u.add b f n) := rxFrame_wr h hm
theorem rxFrame_icInc (h : RxFrame fs s u) (hm : (ingestCtrAt p, ctr i) ∈ fs) : RxFrame fs s (u.icInc p i) :=
  rxFrame_wr h hm

theorem rxFrame_when (h : RxFrame fs s u) (hg : RxFrame fs s (g u)) : RxFrame fs s (u.when c g) := by
  unfold State.when; split <;> assumption

/-- Setting a receive side writes the fields that show it. -/
theorem rxFrame_setRx (h : RxFrame fs s u) (hm : ∀ x ∈ rxFields p, x ∈ fs) : RxFrame fs s (u.setRx p r) := by
  simp only [rxFields, List.forall_mem_cons] at hm
  obtain ⟨hlevel, hempty, hfull, hcand, -⟩ := hm
  have hput : RxFrame fs s { u with rx := tabPut u.rx p r } := h
  exact rxFrame_wrB (rxFrame_wrB (rxFrame_wrB (rxFrame_wr hput hlevel) hempty) hfull) hcand

theorem RxFrame.rd (h : RxFrame fs s u) (hf : ∀ x ∈ fs, fldKey b f ≠ fldKey x.1 x.2) : u.rd b f = s.rd b f :=
  Frame.rd (u := { u with rx := s.rx }) h hf (by simp)

theorem RxFrame.pending (h : RxFrame fs s u) : u.pending = s.pending := Frame.pending (u := { u with rx := s.rx }) h
theorem RxFrame.time (h : RxFrame fs s u) : u.time = s.time := Frame.time (u := { u with rx := s.rx }) h
theorem RxFrame.del (h : RxFrame fs s u) : u.del = s.del := Frame.del (u := { u with rx := s.rx }) h
theorem RxFrame.cells (h : RxFrame fs s u) : u.cells = s.cells := Frame.cells (u := { u with rx := s.rx }) h
theorem RxFrame.sys (h : RxFrame fs s u) : u.sys = s.sys := Frame.sys (u := { u with rx := s.rx }) h
theorem RxFrame.anvils (h : RxFrame fs s u) : u.anvils = s.anvils := Frame.anvils (u := { u with rx := s.rx }) h
theorem RxFrame.host (h : RxFrame fs s u) : u.host = s.host := (h.2.2.2 rfl).1
theorem RxFrame.out (h : RxFrame fs s u) : u.out = s.out := (h.2.2.2 rfl).2

/-- A command that changes fields and receive sides alone answers its effect. -/
theorem State.happen_rxFrame (hu : g (s.at t) = u) (h : RxFrame fs (s.at t) u) : s.happen t g = .next u :=
  State.happen_eq s hu h.pending h.time

/-! ### The cells of a receive line -/

/-- The fields that show a UART's receive line: the live level, its flags, and its receive side. -/
def lineFlags (p : Nat) : List (Nat × Fld) :=
  [(pgUART p, UART_RXD), (ingestAt p, INGEST_SILENT), (ingestAt p, INGEST_BREAK_NOW)] ++ rxFields p

/-- The fields that the events of a UART's receive line may write. -/
def lineFields (p : Nat) : List (Nat × Fld) := lineFlags p ++ (List.range 27).map (fun i => (ingestCtrAt p, ctr i))

theorem rxFields_subset_lineFields : ∀ x ∈ rxFields p, x ∈ lineFields p := fun _ hx =>
  List.mem_append_left _ (List.mem_append_right _ hx)

theorem ctr_mem_lineFields (hi : i < 27) : (ingestCtrAt p, ctr i) ∈ lineFields p :=
  List.mem_append_right _ (List.mem_map_of_mem (List.mem_range.2 hi))

/-- A port's ingest counters lie apart from what shows its line. -/
theorem ctr_ne_lineFlags (hp : p < 2048) (hi : i < 64) :
    ∀ x ∈ lineFlags p, fldKey (ingestCtrAt p) (ctr i) ≠ fldKey x.1 x.2 := by
  simp only [lineFlags, rxFields, List.cons_append, List.nil_append, List.forall_mem_cons, fldKey, ctr, ingestCtrAt,
    ingestAt, pgUART, fifoAt]
  refine ⟨?_, ?_, ?_, ?_, ?_, ?_, ?_, by simp⟩ <;> omega

theorem lineFlag_ne_rxFields (hp : p < 32)
    (hx : (b, f) ∈ [(pgUART p, UART_RXD), (ingestAt p, INGEST_SILENT), (ingestAt p, INGEST_BREAK_NOW)]) :
    ∀ x ∈ rxFields p, fldKey b f ≠ fldKey x.1 x.2 := by
  simp only [List.mem_cons, List.not_mem_nil, or_false, Prod.mk.injEq] at hx
  simp only [rxFields, List.forall_mem_cons, fldKey, ingestAt, fifoAt]
  obtain ⟨rfl, rfl⟩ | ⟨rfl, rfl⟩ | ⟨rfl, rfl⟩ := hx
  all_goals simp only [pgUART, ingestAt]; refine ⟨?_, ?_, ?_, ?_, by simp⟩ <;> omega

theorem rxd_ne_flag (ho : f.off = 0x1C) (hl : f.lo < 8) :
    fldKey (pgUART p) UART_RXD ≠ fldKey (ingestAt p) f := by
  simp only [fldKey, ingestAt, pgUART]; omega

theorem flag_ne_ctr (ho : f.off = 0x1C) (hl : f.lo < 8) : fldKey (ingestAt p) f ≠ fldKey (ingestCtrAt p) (ctr i) := by
  simp only [fldKey, ingestAt, ingestCtrAt, ctr]; omega

theorem ctr_ne_ctr {j : Nat} (h : i ≠ j) : fldKey (ingestCtrAt p) (ctr i) ≠ fldKey (ingestCtrAt p) (ctr j) := by
  simp only [fldKey, ctr]; omega

/-- Below the counters and FIFO windows the events of a line write the live level and the flags of word 0x1C. -/
theorem lineFields_ne (hlow : fldKey b f < 8 * 0x400000) (hlevel : fldKey b f ≠ fldKey (pgUART p) UART_RXD)
    (hflags : fldKey b f / 8 ≠ ingestAt p + 0x1C) : ∀ x ∈ lineFields p, fldKey b f ≠ fldKey x.1 x.2 := by
  have hflag : ∀ g : Fld, g.off = 0x1C → g.lo < 8 → fldKey b f ≠ fldKey (ingestAt p) g := fun g ho hl => by
    simp only [fldKey] at hflags ⊢; omega
  have hhigh : ∀ (b' : Nat) (g : Fld), 0x400000 ≤ b' → fldKey b f ≠ fldKey b' g := fun b' g hb => by
    simp only [fldKey] at hlow ⊢; omega
  have hfifo : 0x400000 ≤ fifoAt p := by simp only [fifoAt]; omega
  have hctr : 0x400000 ≤ ingestCtrAt p := by simp only [ingestCtrAt]; omega
  simp only [lineFields, lineFlags, rxFields, List.cons_append, List.nil_append, List.forall_mem_cons, List.forall_mem_map]
  exact ⟨hlevel, hflag _ rfl (by decide), hflag _ rfl (by decide), hhigh _ _ hfifo, hhigh _ _ hfifo, hhigh _ _ hfifo,
    hflag _ rfl (by decide), fun i _ => hhigh _ _ hctr⟩

section
variable (h : RxFrame fs s u) (hf : ∀ x ∈ fs, x ∈ lineFields p) (hp : p < 32)
include h hf hp

theorem RxFrame.rd_page (hb : b + f.off < 0x40000) (hl : f.lo < 64) : u.rd b f = s.rd b f :=
  h.rd fun x hx => lineFields_ne (by simp only [fldKey]; omega) (by simp only [fldKey, pgUART]; omega)
    (by simp only [fldKey, ingestAt]; omega) x (hf x hx)

theorem RxFrame.rd_uart (ho : f.off < 0x1000) (hl : f.lo < 8) (hne : 8 * f.off + f.lo ≠ 512) :
    u.rd (pgUART p) f = s.rd (pgUART p) f :=
  h.rd fun x hx => lineFields_ne (by simp only [fldKey, pgUART]; omega) (by simp only [fldKey, pgUART]; omega)
    (by simp only [fldKey, ingestAt, pgUART]; omega) x (hf x hx)

theorem RxFrame.rd_ingest (ho : f.off < 0x1C) (hl : f.lo < 32) (hw : f.off % 4 = 0) :
    u.rd (ingestAt p) f = s.rd (ingestAt p) f :=
  h.rd fun x hx => lineFields_ne (by simp only [fldKey, ingestAt]; omega) (by simp only [fldKey, pgUART, ingestAt]; omega)
    (by simp only [fldKey, ingestAt]; omega) x (hf x hx)

theorem RxFrame.portCfg : u.portCfg p = s.portCfg p := by
  have hin : ∀ f : Fld, f.off < 0x1C → f.lo < 32 → f.off % 4 = 0 → u.rd (ingestAt p) f = s.rd (ingestAt p) f :=
    fun f => h.rd_ingest hf hp
  simp [State.portCfg, State.on, State.rdI, hin]

theorem RxFrame.portDown : u.portDown p = s.portDown p := by
  unfold State.portDown State.forward
  rw [h.rd_page hf hp (by decide) (by decide), h.rd_page hf hp (by decide) (by decide)]

theorem RxFrame.testRuns (m q : Nat) : u.testRuns m q = s.testRuns m q := by
  have hslot : ∀ k ∈ List.range 4, ∀ f : Fld, f.off < 0x1000 → f.lo < 64 →
      u.rd pgTEST (f.at k 32) = s.rd pgTEST (f.at k 32) := fun k hk f ho hl =>
    h.rd_page hf hp (by rw [List.mem_range] at hk; simp only [Fld.at, pgTEST]; omega) hl
  rw [State.testRuns, State.testRuns, Bool.eq_iff_iff, List.any_eq_true, List.any_eq_true]
  refine exists_congr fun k => and_congr_right fun hk => ?_
  rw [hslot k hk _ (by decide) (by decide), hslot k hk _ (by decide) (by decide), hslot k hk _ (by decide) (by decide)]

/-- The events of a receive line do not change whether its receiver delivers characters. -/
theorem RxFrame.uartHears : u.uartHears p = s.uartHears p := by
  have hen : u.on (ingestAt p) INGEST_RX_EN = s.on (ingestAt p) INGEST_RX_EN :=
    congrArg (· == 1) (h.rd_ingest hf hp (by decide) (by decide) (by decide))
  have huart : ∀ f : Fld, f.off < 0x1000 → f.lo < 8 → 8 * f.off + f.lo ≠ 512 →
      u.on (pgUART p) f = s.on (pgUART p) f := fun f ho hl hne => congrArg (· == 1) (h.rd_uart hf hp ho hl hne)
  unfold State.uartHears
  rw [hen, h.rd_ingest hf hp (by decide) (by decide) (by decide), h.portDown hf hp, h.testRuns hf hp, h.sys,
    huart _ (by decide) (by decide) (by decide), huart _ (by decide) (by decide) (by decide),
    huart _ (by decide) (by decide) (by decide), huart _ (by decide) (by decide) (by decide)]

end

end Sys2Proof.Machine
end

section
/-! SUPPORT. A start edge, a character and a timeout on a UART's receive line, for O19 (R39, R45, R46, R55, R325). -/

namespace Sys2Proof.Machine

variable {s : State} {p i n t : Nat} {b : Byte} {o : OpenCand} {low par stop : Bool}

/-! ### The live level (R403) -/

/-- The line as an event of it finds it: its level is what RXD reads. -/
def lineLevel (s : State) (p n : Nat) : State := s.wr (pgUART p) UART_RXD n

@[simp] theorem rxOf_lineLevel : (lineLevel s p n).rxOf p = s.rxOf p := rfl
@[simp] theorem time_lineLevel : (lineLevel s p n).time = s.time := rfl

theorem rxFrame_lineLevel (s : State) (p n : Nat) : RxFrame [(pgUART p, UART_RXD)] s (lineLevel s p n) :=
  rxFrame_wr (rxFrame_refl s) (List.mem_singleton_self _)

theorem rd_lineLevel_ne {a : Nat} {f : Fld} (h : fldKey a f ≠ fldKey (pgUART p) UART_RXD) :
    (lineLevel s p n).rd a f = s.rd a f :=
  State.rd_wr_ne s h

theorem uartHears_lineLevel (hp : p < 32) : (lineLevel s p n).uartHears p = s.uartHears p :=
  (rxFrame_lineLevel s p n).uartHears (by simp [lineFields, lineFlags]) hp

/-! ### A start edge (R45, R55) -/

/-- The receive side at a start edge: H and the selected domain are captured, and silence is timed afresh. -/
def edgeTaken (s : State) (p : Nat) : RxPort :=
  { s.rxOf p with edge := s.time.h, edgeDom := s.rd pgTIME TIME_SEL_DOM, inChar := true, silFrom := s.time.clk }

/-- Outside a break an edge is captured, and ends the silence of a port that hears. -/
theorem State.uartEdge_of_noBreak (hp : p < 32) (hbrk : s.on (ingestAt p) INGEST_BREAK_NOW = false) :
    s.uartEdge p = (s.setRx p (edgeTaken s p)).when (s.uartHears p) (·.wr (ingestAt p) INGEST_SILENT 0) := by
  have hhears : (s.setRx p (edgeTaken s p)).uartHears p = s.uartHears p :=
    (rxFrame_setRx (rxFrame_refl s) fun _ hx => hx).uartHears rxFields_subset_lineFields hp
  rw [State.uartEdge, hbrk, if_neg Bool.false_ne_true, ← hhears]; rfl

theorem rxFrame_uartEdge (hp : p < 32) (hbrk : s.on (ingestAt p) INGEST_BREAK_NOW = false) :
    RxFrame ((ingestAt p, INGEST_SILENT) :: rxFields p) s (s.uartEdge p) := by
  have hset : RxFrame ((ingestAt p, INGEST_SILENT) :: rxFields p) s (s.setRx p (edgeTaken s p)) :=
    rxFrame_setRx (rxFrame_refl s) fun _ => List.mem_cons_of_mem _
  rw [State.uartEdge_of_noBreak hp hbrk]
  exact rxFrame_when hset (rxFrame_wr hset List.mem_cons_self)

theorem rxOf_uartEdge (hp : p < 32) (hbrk : s.on (ingestAt p) INGEST_BREAK_NOW = false) :
    (s.uartEdge p).rxOf p = edgeTaken s p := by
  rw [State.uartEdge_of_noBreak hp hbrk, State.when_keeps (State.rxOf · p) State.rxOf_wr, State.rxOf_setRx]

/-! ### Candidates given up (R39, R45, R325) -/

theorem State.rewindCand_rxOf (fr : Framer) : (s.rewindCand p i fr).rxOf p = { (s.rxOf p).rewound with fr := fr } := by
  rw [State.rewindCand, State.rxOf_icInc, State.rxOf_setRx]

theorem rxFrame_rewindCand (s : State) (p i : Nat) (fr : Framer) :
    RxFrame ((ingestCtrAt p, ctr i) :: rxFields p) s (s.rewindCand p i fr) :=
  rxFrame_icInc (rxFrame_setRx (rxFrame_refl s) fun _ => List.mem_cons_of_mem _) List.mem_cons_self

theorem rd_ctr_setRx {r : RxPort} (hp : p < 2048) (hi : i < 64) :
    (s.setRx p r).rd (ingestCtrAt p) (ctr i) = s.rd (ingestCtrAt p) (ctr i) :=
  (rxFrame_setRx (rxFrame_refl s) fun _ hx => hx).rd fun x hx => ctr_ne_lineFlags hp hi x (List.mem_append_right _ hx)

theorem State.rd_rewindCand_same (hp : p < 2048) (hi : i < 64) (fr : Framer) :
    (s.rewindCand p i fr).rd (ingestCtrAt p) (ctr i) = (s.rd (ingestCtrAt p) (ctr i) + 1) % 2 ^ 64 := by
  rw [State.rewindCand, State.rd_icInc_same, rd_ctr_setRx hp hi]

/-- A line fault leaves no candidate open; what the port holds of committed candidates and of its character stays. -/
theorem State.uartFault_rxOf : ((s.uartFault p i).rxOf p).openC = none ∧
    ((s.uartFault p i).rxOf p).inChar = (s.rxOf p).inChar ∧ ((s.uartFault p i).rxOf p).cands = (s.rxOf p).cands := by
  unfold State.uartFault
  dsimp only
  split
  · rw [State.rewindCand_rxOf]; exact ⟨rfl, rfl, rfl⟩
  · rename_i hopen; exact ⟨by simpa using hopen, rfl, rfl⟩

theorem rxFrame_uartFault (s : State) (p i : Nat) : RxFrame ((ingestCtrAt p, ctr i) :: rxFields p) s (s.uartFault p i) := by
  unfold State.uartFault
  dsimp only
  split
  · exact rxFrame_rewindCand s p i frHunt
  · exact rxFrame_icInc (rxFrame_refl s) List.mem_cons_self

/-- A line fault counts once under its cause, inside a candidate and outside. -/
theorem State.rd_uartFault_same (hp : p < 2048) (hi : i < 64) :
    (s.uartFault p i).rd (ingestCtrAt p) (ctr i) = (s.rd (ingestCtrAt p) (ctr i) + 1) % 2 ^ 64 := by
  unfold State.uartFault
  dsimp only
  split
  · exact State.rd_rewindCand_same hp hi frHunt
  · exact State.rd_icInc_same

/-! ### A character completes (R45) -/

/-- The receive side once the character in progress is complete. -/
def charTaken (s : State) (p : Nat) : RxPort := { s.rxOf p with inChar := false, stopAt := s.time.clk }

/-- A break begins: the level is read, the character is complete, and BREAK_NOW is set. -/
def breakHeard (s : State) (p n : Nat) : State :=
  ((lineLevel s p n).setRx p (charTaken s p)).wr (ingestAt p) INGEST_BREAK_NOW 1

/-- A character is heard: the level is read, the character is complete, and its byte counts. -/
def charHeard (s : State) (p n : Nat) : State := ((lineLevel s p n).setRx p (charTaken s p)).icInc p icBYTES

@[simp] theorem rxOf_breakHeard : (breakHeard s p n).rxOf p = charTaken s p := by
  rw [breakHeard, State.rxOf_wr, State.rxOf_setRx]

@[simp] theorem rxOf_charHeard : (charHeard s p n).rxOf p = charTaken s p := by
  rw [charHeard, State.rxOf_icInc, State.rxOf_setRx]

theorem rxFrame_charTaken (s : State) (p n : Nat) :
    RxFrame (lineFlags p) s ((lineLevel s p n).setRx p (charTaken s p)) :=
  rxFrame_setRx ((rxFrame_lineLevel s p n).mono (by simp [lineFlags])) fun _ => List.mem_append_right _

theorem rxFrame_breakHeard (s : State) (p n : Nat) :
    RxFrame ([(pgUART p, UART_RXD), (ingestAt p, INGEST_BREAK_NOW)] ++ rxFields p) s (breakHeard s p n) :=
  rxFrame_wr (rxFrame_setRx ((rxFrame_lineLevel s p n).mono (by simp)) fun _ => List.mem_append_right _) (by simp)

theorem rxFrame_breakHeard_line (s : State) (p n : Nat) : RxFrame (lineFlags p) s (breakHeard s p n) :=
  rxFrame_wr (rxFrame_charTaken s p n) (by simp [lineFlags])

theorem rxFrame_charHeard (s : State) (p n : Nat) : RxFrame (lineFields p) s (charHeard s p n) :=
  rxFrame_icInc ((rxFrame_charTaken s p n).mono fun _ => List.mem_append_left _) (ctr_mem_lineFields (by decide))

theorem rd_ctr_breakHeard (hp : p < 2048) (hi : i < 64) :
    (breakHeard s p n).rd (ingestCtrAt p) (ctr i) = s.rd (ingestCtrAt p) (ctr i) :=
  (rxFrame_breakHeard_line s p n).rd (ctr_ne_lineFlags hp hi)

theorem rd_ctr_charTaken (hp : p < 2048) (hi : i < 64) :
    ((lineLevel s p n).setRx p (charTaken s p)).rd (ingestCtrAt p) (ctr i) = s.rd (ingestCtrAt p) (ctr i) :=
  (rxFrame_charTaken s p n).rd (ctr_ne_lineFlags hp hi)

theorem rd_bytes_charHeard (hp : p < 2048) :
    (charHeard s p n).rd (ingestCtrAt p) (ctr icBYTES) = (s.rd (ingestCtrAt p) (ctr icBYTES) + 1) % 2 ^ 64 := by
  rw [charHeard, State.rd_icInc_same, rd_ctr_charTaken hp (by decide)]

theorem rd_ctr_charHeard (hp : p < 2048) (hi : i < 64) (hne : i ≠ icBYTES) :
    (charHeard s p n).rd (ingestCtrAt p) (ctr i) = s.rd (ingestCtrAt p) (ctr i) := by
  rw [charHeard, State.rd_icInc_ne (ctr_ne_ctr hne), rd_ctr_charTaken hp hi]

section
variable (hp : p < 32) (hin : (s.rxOf p).inChar = true) (hears : s.uartHears p = true)
include hp hin hears

/-- A character whose samples are all low is a break. -/
theorem uartChar_allLow : (lineLevel s p n).uartChar p b par stop true = (breakHeard s p n).uartFault p icBREAK := by
  have hears' : (breakHeard s p n).uartHears p = true :=
    ((rxFrame_breakHeard_line s p n).uartHears (fun _ => List.mem_append_left _) hp).trans hears
  simp only [breakHeard, charTaken] at hears' ⊢
  simp [State.uartChar, hin, hears', State.when]

theorem uartChar_badStop : (lineLevel s p n).uartChar p b par true false = (charHeard s p n).uartFault p icLINE_ERR := by
  have hears' := ((rxFrame_charTaken s p n).uartHears (fun _ => List.mem_append_left _) hp).trans hears
  simp only [charHeard, charTaken] at hears' ⊢
  simp [State.uartChar, hin, hears']

/-- A character of eight good bits goes to the framing machine whole. -/
theorem uartChar_good (h8 : s.on (ingestAt p) INGEST_DATA7 = false) :
    (lineLevel s p n).uartChar p b false false false = (charHeard s p n).uartByte p b := by
  have hears' := ((rxFrame_charTaken s p n).uartHears (fun _ => List.mem_append_left _) hp).trans hears
  have h8' : ((lineLevel s p n).portCfg p).data7 = false := by
    rw [(rxFrame_lineLevel s p n).portCfg (by simp [lineFields, lineFlags]) hp]; exact h8
  simp only [charHeard, charTaken] at hears' ⊢
  simp [State.uartChar, hin, hears', h8']

end

/-! ### Good characters (R46, R323) -/

/-- The candidate that a character opens, with the settings of its port and the captures of its start edge. -/
def openedCand (s : State) (p : Nat) (b : Byte) : OpenCand :=
  ⟨[b], s.portCfg p, (s.rxOf p).edge, (s.rxOf p).edgeDom, (s.rxOf p).edge, (s.rxOf p).edgeDom⟩

/-- An open candidate with one more character. -/
def grownCand (o : OpenCand) (b : Byte) : OpenCand := { o with bytes := o.bytes ++ [b] }

/-- A start character outside a candidate opens one, in the first word of its packet. -/
theorem State.uartByte_opens (hnone : (s.rxOf p).openC = none) (hhunt : (s.rxOf p).fr = frHunt) (hb : isStart b = true)
    (hroom : (s.rxOf p).level < rxDepth p) :
    s.uartByte p b =
      s.setRx p { s.rxOf p with wp := (s.rxOf p).wp + 1, fr := frSent, openC := some (openedCand s p b) } := by
  have hstep : frStep (s.portCfg p) frHunt b = (frSent, .opens) := by simp [frStep, frHunt, frOpen, hb]
  simp only [State.uartByte, hnone, hhunt, hstep, State.uartOpen, RxPort.putByte, List.length_nil, Nat.zero_mod, if_true,
    if_neg (Nat.not_le.2 hroom), List.nil_append, openedCand]

/-- A character that the machine appends within a word of the packet takes no other word. -/
theorem State.uartByte_appends (hopen : (s.rxOf p).openC = some o) (hword : o.bytes.length % 8 ≠ 0)
    (happ : (frStep o.cfg (s.rxOf p).fr b).2 = .appends) (htag : (s.rxOf p).fr.st ≠ .tagx) :
    s.uartByte p b =
      s.setRx p { s.rxOf p with fr := (frStep o.cfg (s.rxOf p).fr b).1, openC := some (grownCand o b) } := by
  have hstep : frStep o.cfg (s.rxOf p).fr b = ((frStep o.cfg (s.rxOf p).fr b).1, .appends) := Prod.ext rfl happ
  rw [State.uartByte, hopen]
  dsimp only
  rw [hstep]
  simp [htag, RxPort.putByte, hword, grownCand]

/-! ### Timeouts (R45) -/

/-- Three bit times are compared against thrice the time, and the spec's rounding only adds to the latter. -/
theorem ictoPassed_of_le {c : PortCfg} {since now : Nat} (h : c.icto * cfgBit3 c ≤ 3 * (now - since)) :
    ictoPassed c since now = true := by
  rw [ictoPassed, decide_eq_true_eq]; omega

theorem State.uartIcto_due (hopen : (s.rxOf p).openC = some o) (hicto : o.cfg.icto ≠ 0) (hin : (s.rxOf p).inChar = false)
    (hdue : o.cfg.icto * cfgBit3 o.cfg ≤ 3 * (s.time.clk - (s.rxOf p).stopAt)) :
    s.uartIcto p = s.rewindCand p icICTO frHunt := by
  simp [State.uartIcto, hopen, hicto, hin, ictoPassed_of_le hdue]

end Sys2Proof.Machine
end

section
/-! PROOF of O19: the events of a UART's receive line capture, append, rewind and time out (R39, R41, R45 to R47, R55). -/

namespace Sys2Proof.Machine

variable {s u : State} {p i n t : Nat} {b : Byte} {o : OpenCand} {fs : List (Nat × Fld)} {low par stop : Bool}

theorem uartHears_at : (s.at t).uartHears p = s.uartHears p := rfl
theorem portCfg_at : (s.at t).portCfg p = s.portCfg p := rfl

/-! ### A start edge -/

/-- A start edge outside a break captures H and the selected domain, and ends silence. -/
theorem exec_uartStartEdge_captures (t : Nat) (hp : p < 32) (hbrk : s.on (ingestAt p) INGEST_BREAK_NOW = false) :
    ∃ u, exec (.uartStartEdge t p) s = .next u ∧ u.rxOf p = edgeTaken (s.at t) p ∧ u.rd (pgUART p) UART_RXD = 0 ∧
      (s.uartHears p = true → u.rd (ingestAt p) INGEST_SILENT = 0) ∧
      RxFrame ([(pgUART p, UART_RXD), (ingestAt p, INGEST_SILENT)] ++ rxFields p) (s.at t) u := by
  have hbrk' : (lineLevel (s.at t) p 0).on (ingestAt p) INGEST_BREAK_NOW = false := by
    rw [State.on, rd_lineLevel_ne (rxd_ne_flag rfl (by decide)).symm]; exact hbrk
  have hedge := rxFrame_uartEdge hp hbrk'
  have hframe := ((rxFrame_lineLevel (s.at t) p 0).mono (by simp)).trans
    (hedge.mono (gs := [(pgUART p, UART_RXD), (ingestAt p, INGEST_SILENT)] ++ rxFields p) fun _ => List.mem_cons_of_mem _)
  refine ⟨(lineLevel (s.at t) p 0).uartEdge p, ?_, ?_, ?_, fun hears => ?_, hframe⟩
  · rw [exec_uartStartEdge, execUartStartEdge, Nat.mod_eq_of_lt hp]
    exact State.happen_rxFrame rfl hframe
  · rw [rxOf_uartEdge hp hbrk', edgeTaken, rd_lineLevel_ne (by simp only [fldKey, pgTIME, pgUART]; omega)]; rfl
  · rw [hedge.rd (List.forall_mem_cons.2 ⟨rxd_ne_flag (f := INGEST_SILENT) rfl (by decide),
      lineFlag_ne_rxFields hp (by simp)⟩), lineLevel, State.rd_wr_same]; rfl
  · rw [State.uartEdge_of_noBreak hp hbrk', uartHears_lineLevel hp, uartHears_at, hears, State.when_true,
      State.rd_wr_same]; rfl

/-! ### A character completes -/

/-- UART_CHARACTER answers its effect, which begins with the level read off the line. -/
theorem exec_uartCharacter_eq (hp : p < 32) (hn : (!(stop || low)).toNat = n)
    (hu : (lineLevel (s.at t) p n).uartChar p b par stop low = u) (hframe : RxFrame fs (s.at t) u) :
    exec (.uartCharacter t p b par stop low) s = .next u := by
  subst hn
  rw [exec_uartCharacter, execUartCharacter, Nat.mod_eq_of_lt hp]
  exact State.happen_rxFrame hu hframe

section
variable (t : Nat) (hp : p < 32) (hin : (s.rxOf p).inChar = true) (hears : s.uartHears p = true)
include hp hin hears

/-- Samples all low are a break, which rewinds the candidate and counts once. -/
theorem exec_uartCharacter_break (b : Byte) : ∃ u, exec (.uartCharacter t p b false false true) s = .next u ∧
    u.rd (ingestAt p) INGEST_BREAK_NOW = 1 ∧ (u.rxOf p).openC = none ∧ (u.rxOf p).inChar = false ∧
    (u.rxOf p).cands = (s.rxOf p).cands ∧
    u.rd (ingestCtrAt p) (ctr icBREAK) = (s.rd (ingestCtrAt p) (ctr icBREAK) + 1) % 2 ^ 64 ∧
    Frame ([(pgUART p, UART_RXD), (ingestAt p, INGEST_BREAK_NOW), (ingestCtrAt p, ctr icBREAK)] ++ rxFields p) []
      (s.at t) { u with rx := s.rx } := by
  have hfault := rxFrame_uartFault (breakHeard (s.at t) p 0) p icBREAK
  have hframe := ((rxFrame_breakHeard (s.at t) p 0).mono
    (gs := [(pgUART p, UART_RXD), (ingestAt p, INGEST_BREAK_NOW), (ingestCtrAt p, ctr icBREAK)] ++ rxFields p)
    (by simp [rxFields])).trans (hfault.mono (by simp [rxFields]))
  obtain ⟨hopen, hchar, hcands⟩ := State.uartFault_rxOf (s := breakHeard (s.at t) p 0) (p := p) (i := icBREAK)
  rw [rxOf_breakHeard] at hchar hcands
  refine ⟨(breakHeard (s.at t) p 0).uartFault p icBREAK,
    exec_uartCharacter_eq hp rfl (uartChar_allLow hp hin hears) hframe, ?_, hopen, hchar, hcands, ?_, hframe⟩
  · rw [hfault.rd (List.forall_mem_cons.2 ⟨flag_ne_ctr rfl (by decide), lineFlag_ne_rxFields hp (by simp)⟩), breakHeard,
      State.rd_wr_same]; rfl
  · rw [State.rd_uartFault_same (by omega) (by decide), rd_ctr_breakHeard (by omega) (by decide), State.rd_at]

/-- A bad stop bit is a line error: the byte counts, and a candidate is rewound. -/
theorem exec_uartCharacter_badStop (b : Byte) (par : Bool) : ∃ u,
    exec (.uartCharacter t p b par true false) s = .next u ∧
    (u.rxOf p).openC = none ∧ (u.rxOf p).inChar = false ∧ (u.rxOf p).cands = (s.rxOf p).cands ∧
    u.rd (ingestCtrAt p) (ctr icLINE_ERR) = (s.rd (ingestCtrAt p) (ctr icLINE_ERR) + 1) % 2 ^ 64 ∧
    u.rd (ingestCtrAt p) (ctr icBYTES) = (s.rd (ingestCtrAt p) (ctr icBYTES) + 1) % 2 ^ 64 := by
  have hfault := rxFrame_uartFault (charHeard (s.at t) p 0) p icLINE_ERR
  have hframe := (rxFrame_charHeard (s.at t) p 0).trans
    (hfault.mono (List.forall_mem_cons.2 ⟨ctr_mem_lineFields (by decide), rxFields_subset_lineFields⟩))
  obtain ⟨hopen, hchar, hcands⟩ := State.uartFault_rxOf (s := charHeard (s.at t) p 0) (p := p) (i := icLINE_ERR)
  rw [rxOf_charHeard] at hchar hcands
  refine ⟨(charHeard (s.at t) p 0).uartFault p icLINE_ERR,
    exec_uartCharacter_eq hp rfl (uartChar_badStop hp hin hears) hframe, hopen, hchar, hcands, ?_, ?_⟩
  · rw [State.rd_uartFault_same (by omega) (by decide), rd_ctr_charHeard (by omega) (by decide) (by decide), State.rd_at]
  · rw [hfault.rd (List.forall_mem_cons.2 ⟨ctr_ne_ctr (by decide), fun x hx =>
      ctr_ne_lineFlags (by omega) (by decide) x (List.mem_append_right _ hx)⟩), rd_bytes_charHeard (by omega), State.rd_at]

/-- A start character outside a candidate opens one and is its first byte. -/
theorem exec_uartCharacter_opens (b : Byte) (hnone : (s.rxOf p).openC = none) (hhunt : (s.rxOf p).fr = frHunt)
    (hb : isStart b = true) (h8 : s.on (ingestAt p) INGEST_DATA7 = false) (hroom : (s.rxOf p).level < rxDepth p) :
    ∃ u, exec (.uartCharacter t p b false false false) s = .next u ∧ (u.rxOf p).openC = some (openedCand s p b) ∧
      (u.rxOf p).wp = (s.rxOf p).wp + 1 ∧ (u.rxOf p).cands = (s.rxOf p).cands ∧
      u.rd (ingestCtrAt p) (ctr icBYTES) = (s.rd (ingestCtrAt p) (ctr icBYTES) + 1) % 2 ^ 64 ∧
      RxFrame (lineFields p) (s.at t) u := by
  have hheard := rxFrame_charHeard (s.at t) p 1
  have hcand : openedCand (charHeard (s.at t) p 1) p b = openedCand s p b := by
    rw [openedCand, hheard.portCfg (fun _ hx => hx) hp, rxOf_charHeard, portCfg_at]; rfl
  have hopens := State.uartByte_opens (s := charHeard (s.at t) p 1) (p := p) (b := b) (by rw [rxOf_charHeard]; exact hnone)
    (by rw [rxOf_charHeard]; exact hhunt) hb (by rw [rxOf_charHeard]; exact hroom)
  rw [hcand, rxOf_charHeard] at hopens
  refine ⟨_, exec_uartCharacter_eq hp rfl ((uartChar_good (s := s.at t) hp hin hears h8).trans hopens)
    (rxFrame_setRx hheard rxFields_subset_lineFields), ?_, ?_, ?_, ?_, rxFrame_setRx hheard rxFields_subset_lineFields⟩
  · rw [State.rxOf_setRx]
  · rw [State.rxOf_setRx]; rfl
  · rw [State.rxOf_setRx]; rfl
  · rw [rd_ctr_setRx (by omega) (by decide)]; exact rd_bytes_charHeard (s := s.at t) (by omega)

/-- A character that the machine appends joins the open candidate, within a word of its packet. -/
theorem exec_uartCharacter_appends (b : Byte) (hopen : (s.rxOf p).openC = some o)
    (h8 : s.on (ingestAt p) INGEST_DATA7 = false) (hword : o.bytes.length % 8 ≠ 0)
    (happ : (frStep o.cfg (s.rxOf p).fr b).2 = .appends) (htag : (s.rxOf p).fr.st ≠ .tagx) :
    ∃ u, exec (.uartCharacter t p b false false false) s = .next u ∧ (u.rxOf p).openC = some (grownCand o b) ∧
      (u.rxOf p).fr = (frStep o.cfg (s.rxOf p).fr b).1 ∧ (u.rxOf p).cands = (s.rxOf p).cands ∧
      (u.rxOf p).wp = (s.rxOf p).wp := by
  have happends := State.uartByte_appends (s := charHeard (s.at t) p 1) (p := p) (b := b) (o := o)
    (by rw [rxOf_charHeard]; exact hopen) hword (by rw [rxOf_charHeard]; exact happ) (by rw [rxOf_charHeard]; exact htag)
  rw [rxOf_charHeard] at happends
  refine ⟨_, exec_uartCharacter_eq hp rfl ((uartChar_good (s := s.at t) hp hin hears h8).trans happends)
    (rxFrame_setRx (rxFrame_charHeard (s.at t) p 1) rxFields_subset_lineFields), ?_⟩
  rw [State.rxOf_setRx]
  exact ⟨rfl, rfl, rfl, rfl⟩

end

/-! ### Timeouts, and the line goes high -/

theorem exec_ictoTimeout_due (hp : p < 32) (hopen : (s.rxOf p).openC = some o) (hicto : o.cfg.icto ≠ 0)
    (hin : (s.rxOf p).inChar = false) (hdue : o.cfg.icto * cfgBit3 o.cfg ≤ 3 * (max s.time.clk t - (s.rxOf p).stopAt)) :
    exec (.ictoTimeout t p) s = .next ((s.at t).rewindCand p icICTO frHunt) := by
  rw [exec_ictoTimeout, execIctoTimeout, Nat.mod_eq_of_lt hp]
  exact State.happen_rxFrame (State.uartIcto_due hopen hicto hin (by rw [State.at_clk]; exact hdue))
    (rxFrame_rewindCand (s.at t) p icICTO frHunt)

/-- A port silent for SILENT_MS is marked and counted. -/
def silenceMarked (s : State) (p : Nat) : State := (s.wr (ingestAt p) INGEST_SILENT 1).icInc p icSILENT

theorem frame_silenceMarked (s : State) (p : Nat) :
    Frame [(ingestAt p, INGEST_SILENT), (ingestCtrAt p, ctr icSILENT)] [] s (silenceMarked s p) :=
  frame_inc (frame_wr (frame_refl _ _ s) (by simp)) (by simp)

theorem rd_silent_silenceMarked : (silenceMarked s p).rd (ingestAt p) INGEST_SILENT = 1 := by
  rw [silenceMarked, State.rd_icInc_ne (flag_ne_ctr rfl (by decide)), State.rd_wr_same]; rfl

theorem rd_ctr_silenceMarked : (silenceMarked s p).rd (ingestCtrAt p) (ctr icSILENT) =
    (s.rd (ingestCtrAt p) (ctr icSILENT) + 1) % 2 ^ 64 := by
  rw [silenceMarked, State.rd_icInc_same, State.rd_wr_ne _ (flag_ne_ctr rfl (by decide)).symm]

theorem exec_silenceTimeout_due (hp : p < 32) (hms : s.rd (ingestAt p) INGEST_SILENT_MS ≠ 0) (hears : s.uartHears p = true)
    (hsil : s.on (ingestAt p) INGEST_SILENT = false)
    (hdue : max (s.rxOf p).silFrom s.time.relClk + s.rd (ingestAt p) INGEST_SILENT_MS * msU ≤ max s.time.clk t) :
    exec (.silenceTimeout t p) s = .next (silenceMarked (s.at t) p) := by
  have hmark : (s.at t).uartSilence p = silenceMarked (s.at t) p :=
    if_pos ⟨hms, hears, by rw [State.on_at, hsil]; rfl, by rw [State.at_clk]; exact hdue⟩
  rw [exec_silenceTimeout, execSilenceTimeout, Nat.mod_eq_of_lt hp, ← hmark]
  exact State.happen_frame s (by rw [hmark]; exact frame_silenceMarked (s.at t) p)

/-- The line idles: the live level reads high, and no break stands. -/
def lineIdle (s : State) (p : Nat) : State := (lineLevel s p 1).uartHigh p

theorem frame_lineIdle (s : State) (p : Nat) :
    Frame [(ingestAt p, INGEST_BREAK_NOW), (pgUART p, UART_RXD)] [] s (lineIdle s p) :=
  frame_wr (frame_wr (frame_refl _ _ s) (by simp)) (by simp)

theorem rd_rxd_lineIdle : (lineIdle s p).rd (pgUART p) UART_RXD = 1 := by
  rw [lineIdle, State.uartHigh, State.rd_wr_ne _ (rxd_ne_flag rfl (by decide)), lineLevel, State.rd_wr_same]; rfl

theorem exec_lineGoesHigh_eq (s : State) (t : Nat) (hp : p < 32) :
    exec (.lineGoesHigh t p) s = .next (lineIdle (s.at t) p) := by
  rw [exec_lineGoesHigh, execLineGoesHigh, Nat.mod_eq_of_lt hp]
  exact State.happen_frame s (frame_lineIdle (s.at t) p)

/-! ### The clauses together -/

/-- Settles O19: each event of the line is its named effect, whose parts are read off field by field. -/
theorem uartLineEventsComplete : Obligations.UartLineEventsComplete := by
  unfold Obligations.UartLineEventsComplete
  refine ⟨?_, fun s t p b hp hin hears => exec_uartCharacter_break t hp hin hears b,
    fun s t p b par hp hin hears => exec_uartCharacter_badStop t hp hin hears b par, ?_, ?_, ?_, ?_, ?_⟩
  · intro s t p hp hbrk
    obtain ⟨u, hexec, hrx, hrxd, hsil, hframe⟩ := exec_uartStartEdge_captures t hp hbrk
    rw [hexec]
    exact ⟨u, rfl, hrx ▸ rfl, hrx ▸ rfl, hrx ▸ rfl, hrx ▸ State.at_clk s t, hrx ▸ rfl, hrx ▸ rfl, hrxd, hsil,
      hframe⟩
  · intro s t p b hp hin hears hnone hhunt hb h8 hroom
    have hstart : isStart b = true := by obtain rfl | rfl := hb <;> rfl
    obtain ⟨u, hexec, hopen, hwp, hcands, hbytes, hframe⟩ :=
      exec_uartCharacter_opens t hp hin hears b hnone hhunt hstart h8 (by rw [rxDepth, if_pos hp]; exact hroom)
    exact ⟨u, hexec, hopen, hwp, hcands, hbytes, hframe.del, hframe.anvils, hframe.cells, hframe.out⟩
  · rintro s t p b o hp hin hears ⟨hopen, -, h8⟩ hword happ htag
    exact exec_uartCharacter_appends t hp hin hears b hopen h8 hword happ htag
  · rintro s t p o hp hopen ⟨hicto, hin⟩ hdue
    have hrx := State.rewindCand_rxOf (s := s.at t) (p := p) (i := icICTO) frHunt
    exact ⟨_, exec_ictoTimeout_due hp hopen hicto hin hdue, hrx ▸ rfl, hrx ▸ rfl, hrx ▸ rfl, hrx ▸ rfl,
      State.rd_rewindCand_same (by omega) (by decide) frHunt, rxFrame_rewindCand (s.at t) p icICTO frHunt⟩
  · intro s t p hp hms hears hsil hdue
    exact ⟨_, exec_silenceTimeout_due hp hms hears hsil hdue, rd_silent_silenceMarked, rd_ctr_silenceMarked,
      frame_silenceMarked (s.at t) p⟩
  · intro s t p hp
    exact ⟨_, exec_lineGoesHigh_eq s t hp, State.rd_wr_same _ _ _ _, rd_rxd_lineIdle, frame_lineIdle (s.at t) p⟩

end Sys2Proof.Machine
end

section
/-! SUPPORT. Anvils in dispatch and their golden items, for O26 (R63, R64). -/

namespace Sys2Proof.Machine

variable {s u : State} {a b n : Nat} {f : Fld} {c : Bool}

theorem State.on_wrB_same (hw : f.width = 1) : (s.wrB b f c).on b f = c := by
  rw [State.wrB, State.on_wr_same, hw]; cases c <;> rfl

/-! ### Anvils in dispatch (R63, R64) -/

/-- What puts an anvil in dispatch: the boot, ENABLE, no failed golden item, and its block up and out of reset. -/
def anvilFit (s : State) (a : Nat) : Bool :=
  s.forward && s.on (pgANV a) PG_ENABLE && !s.on (pgANV a) ANV_GOLD_FAILED && !s.on (pgANV a) PG_IN_RESET
    && !s.pageDown (0x80 + a)

/-- IN_DISPATCH of one anvil follows. -/
def mirrorAnvil (s : State) (a : Nat) : State := s.wrB (pgANV a) ANV_IN_DISPATCH (anvilFit s a)

/-- The fields that show which anvils are in dispatch. -/
def dispatchFields : List (Nat × Fld) :=
  (pgTWIN, TWIN_HEALTH) :: (List.range 16).map (fun k => (pgANV k, ANV_IN_DISPATCH))

theorem inDispatch_mem (h : a < 16) : (pgANV a, ANV_IN_DISPATCH) ∈ dispatchFields :=
  List.mem_cons_of_mem _ (List.mem_map_of_mem (f := fun k => (pgANV k, ANV_IN_DISPATCH)) (List.mem_range.2 h))

/-- A cell that is no anvil's IN_DISPATCH and not HEALTH. -/
theorem dispatchFields_ne (hh : fldKey b f ≠ fldKey pgTWIN TWIN_HEALTH) (hd : fldKey b f % 0x8000 ≠ 0x201) :
    ∀ x ∈ dispatchFields, fldKey b f ≠ fldKey x.1 x.2 := by
  simp only [dispatchFields, List.forall_mem_cons, List.forall_mem_map]
  refine ⟨hh, fun k _ => ?_⟩
  simp only [fldKey, pgANV] at hd ⊢; omega

/-- Which anvils are in dispatch does not decide which are fit for it. -/
theorem anvilFit_frame (ha : a < 16) (h : Frame dispatchFields [] s u) : anvilFit u a = anvilFit s a := by
  have hpage : ∀ f : Fld, 8 * f.off + f.lo < 0x8000 → 8 * f.off + f.lo ≠ 0x201 →
      u.on (pgANV a) f = s.on (pgANV a) f := fun f ho hne => congrArg (· == 1)
    (h.rd (dispatchFields_ne (by simp only [fldKey, pgANV, pgTWIN]; omega) (by simp only [fldKey, pgANV]; omega)) (by simp))
  have hpd : u.rd pgPWR PWR_PD_STAT = s.rd pgPWR PWR_PD_STAT := h.rd (dispatchFields_ne (by decide) (by decide)) (by simp)
  have hboot : u.forward = s.forward :=
    congrArg (· == 7) (h.rd (dispatchFields_ne (by decide) (by decide)) (by simp))
  simp only [anvilFit, State.pageDown, hpd, hboot, hpage PG_ENABLE (by decide) (by decide),
    hpage ANV_GOLD_FAILED (by decide) (by decide), hpage PG_IN_RESET (by decide) (by decide)]

theorem frame_mirrorAnvil (s : State) {k : Nat} (hk : k < 16) : Frame dispatchFields [] s (mirrorAnvil s k) :=
  frame_wrB (frame_refl _ _ s) (inDispatch_mem hk)

/-- A loop over anvils leaves each of them in dispatch as it is fit. -/
theorem on_inDispatch_each (ha : a < 16) {l : List Nat} (hl : ∀ k ∈ l, k < 16) :
    ∀ s : State, a ∈ l ∨ s.on (pgANV a) ANV_IN_DISPATCH = anvilFit s a →
      (s.each l mirrorAnvil).on (pgANV a) ANV_IN_DISPATCH = anvilFit s a := by
  induction l with
  | nil => intro s h; exact h.resolve_left (List.not_mem_nil)
  | cons k l ih =>
    intro s h
    obtain ⟨hk, hl⟩ := List.forall_mem_cons.1 hl
    have hfit := anvilFit_frame ha (frame_mirrorAnvil s hk)
    rw [State.each_cons, ← hfit]
    refine ih hl _ ?_
    rw [hfit]
    by_cases hak : a = k
    · subst hak; exact .inr (State.on_wrB_same rfl)
    · have hother : (mirrorAnvil s k).on (pgANV a) ANV_IN_DISPATCH = s.on (pgANV a) ANV_IN_DISPATCH :=
        congrArg (· == 1) (State.rd_wrB_ne (by simp only [fldKey, pgANV]; omega))
      rw [hother]
      exact h.imp_left fun hm => (List.mem_cons.1 hm).resolve_left hak

theorem frame_each_mirrorAnvil (s : State) {l : List Nat} (hl : ∀ k ∈ l, k < 16) :
    Frame dispatchFields [] s (s.each l mirrorAnvil) := by
  induction l generalizing s with
  | nil => exact frame_refl _ _ s
  | cons k l ih =>
    obtain ⟨hk, hl⟩ := List.forall_mem_cons.1 hl
    exact frame_trans (frame_mirrorAnvil s hk) (ih _ hl)

theorem frame_mirrorAnvils (s : State) : Frame dispatchFields [] s s.mirrorAnvils :=
  frame_setHealth (frame_each_mirrorAnvil s fun _ => List.mem_range.1) List.mem_cons_self

/-- The anvils in dispatch are those fit for it. -/
theorem on_inDispatch_mirrorAnvils (ha : a < 16) : s.mirrorAnvils.on (pgANV a) ANV_IN_DISPATCH = anvilFit s a := by
  rw [← on_inDispatch_each ha (fun _ => List.mem_range.1) s (.inl (List.mem_range.2 ha))]
  exact congrArg (· == 1) (State.rd_wr_ne _ (by simp only [fldKey, pgANV, pgTWIN]; omega))

/-- A cell of an anvil's page but IN_DISPATCH reads as before. -/
theorem rd_mirrorAnvils (h : 8 * f.off + f.lo < 0x8000) (hne : 8 * f.off + f.lo ≠ 0x201) :
    s.mirrorAnvils.rd (pgANV a) f = s.rd (pgANV a) f :=
  (frame_mirrorAnvils s).rd
    (dispatchFields_ne (by simp only [fldKey, pgANV, pgTWIN]; omega) (by simp only [fldKey, pgANV]; omega)) (by simp)

/-! ### Golden items (R64) -/

/-- A failing golden item is counted, and its anvil marked. -/
def goldenMarked (s : State) (a : Nat) : State :=
  ((s.inc (pgANV a) ANV_C_GOLD_RUN).inc (pgANV a) ANV_C_GOLD_FAIL).wr (pgANV a) ANV_GOLD_FAILED 1

/-- What a failing golden item does: its anvil leaves dispatch and raises its event 0. -/
def goldenFailed (s : State) (a : Nat) : State := (goldenMarked s a).mirrorAnvils.raise (0x80 + a) 0

theorem State.golden_idle (hd : s.on (pgANV a) ANV_IN_DISPATCH = true) (hidle : tabGet? s.anvils a = none)
    (hper : s.rd (pgANV a) ANV_GOLD_PERIOD ≠ 0) (pass : Bool) :
    s.golden a pass = if pass then s.inc (pgANV a) ANV_C_GOLD_RUN else goldenFailed s a := by
  simp [State.golden, hd, hidle, hper, goldenFailed, goldenMarked]

theorem frame_goldenFailed (s : State) (a : Nat) : Frame ((pgANV a, ANV_C_GOLD_RUN) :: (pgANV a, ANV_C_GOLD_FAIL) ::
    (pgANV a, ANV_GOLD_FAILED) :: dispatchFields) [0x80 + a] s (goldenFailed s a) := by
  have hmarked : Frame ((pgANV a, ANV_C_GOLD_RUN) :: (pgANV a, ANV_C_GOLD_FAIL) :: (pgANV a, ANV_GOLD_FAILED) ::
      dispatchFields) [0x80 + a] s (goldenMarked s a) :=
    frame_wr (frame_inc (frame_inc (frame_refl _ _ s) (by simp)) (by simp)) (by simp)
  have hmirror := frame_mono (gs := (pgANV a, ANV_C_GOLD_RUN) :: (pgANV a, ANV_C_GOLD_FAIL) ::
      (pgANV a, ANV_GOLD_FAILED) :: dispatchFields) (qs := [0x80 + a]) (frame_mirrorAnvils (goldenMarked s a))
    (fun x hx => by simp [hx]) (by simp)
  exact frame_raise (frame_trans hmarked hmirror) (List.mem_singleton_self _)

/-- Raising an anvil's event leaves its block registers and counters alone. -/
theorem rd_raise_anvil (ho : 0x40 ≤ f.off) (hk : f.off < 0x1000) (hl : f.lo < 8) :
    (s.raise (0x80 + a) n).rd (pgANV a) f = s.rd (pgANV a) f :=
  State.rd_raise (by rw [evtKey_iff]; simp only [fldKey, pgANV]; omega) s

theorem rd_goldenFailed (ho : 0x40 ≤ f.off) (hk : f.off < 0x1000) (hl : f.lo < 8) (hne : 8 * f.off + f.lo ≠ 0x201) :
    (goldenFailed s a).rd (pgANV a) f = (goldenMarked s a).rd (pgANV a) f := by
  rw [goldenFailed, rd_raise_anvil ho hk hl, rd_mirrorAnvils (by omega) hne]

/-- Two fields of an anvil's page lie at different bit addresses. -/
theorem anvilKey_ne {g : Fld} (h : 8 * f.off + f.lo ≠ 8 * g.off + g.lo) : fldKey (pgANV a) f ≠ fldKey (pgANV a) g := by
  simp only [fldKey]; omega

theorem rd_failed_goldenFailed : (goldenFailed s a).rd (pgANV a) ANV_GOLD_FAILED = 1 := by
  rw [rd_goldenFailed (by decide) (by decide) (by decide) (by decide), goldenMarked, State.rd_wr_same]; rfl

theorem rd_run_goldenFailed :
    (goldenFailed s a).rd (pgANV a) ANV_C_GOLD_RUN = (s.rd (pgANV a) ANV_C_GOLD_RUN + 1) % 2 ^ 64 := by
  rw [rd_goldenFailed (by decide) (by decide) (by decide) (by decide), goldenMarked,
    State.rd_wr_ne _ (anvilKey_ne (by decide)), State.rd_inc_ne (anvilKey_ne (by decide)), State.rd_inc_same]

theorem rd_fail_goldenFailed :
    (goldenFailed s a).rd (pgANV a) ANV_C_GOLD_FAIL = (s.rd (pgANV a) ANV_C_GOLD_FAIL + 1) % 2 ^ 64 := by
  rw [rd_goldenFailed (by decide) (by decide) (by decide) (by decide), goldenMarked,
    State.rd_wr_ne _ (anvilKey_ne (by decide)), State.rd_inc_same, State.rd_inc_ne (anvilKey_ne (by decide))]

/-- An anvil whose golden item failed is not fit for dispatch. -/
theorem rd_inDispatch_goldenFailed (ha : a < 16) : (goldenFailed s a).rd (pgANV a) ANV_IN_DISPATCH = 0 := by
  have hfailed : (goldenMarked s a).on (pgANV a) ANV_GOLD_FAILED = true := by
    rw [goldenMarked, State.on_wr_same]; rfl
  have hout : (goldenMarked s a).mirrorAnvils.on (pgANV a) ANV_IN_DISPATCH = false := by
    rw [on_inDispatch_mirrorAnvils ha, anvilFit, hfailed]; simp
  have hlt : (goldenMarked s a).mirrorAnvils.rd (pgANV a) ANV_IN_DISPATCH < 2 ^ 1 := State.rd_lt _ _ _
  rw [goldenFailed, rd_raise_anvil (by decide) (by decide) (by decide)]
  simp only [State.on, beq_eq_false_iff_ne] at hout
  omega

/-! ### GOLD_FAILED_CLEAR (R63) -/

/-- GOLD_FAILED is cleared, and IN_DISPATCH follows. -/
def goldenCleared (s : State) (a : Nat) : State := (s.wr (pgANV a) ANV_GOLD_FAILED 0).mirrorAnvils

theorem frame_goldenCleared (s : State) (a : Nat) :
    Frame ((pgANV a, ANV_GOLD_FAILED) :: dispatchFields) [] s (goldenCleared s a) :=
  frame_trans (frame_wr (frame_refl _ _ s) (by simp))
    (frame_mono (frame_mirrorAnvils _) (fun x hx => List.mem_cons_of_mem _ hx) (by simp))

theorem rd_failed_goldenCleared : (goldenCleared s a).rd (pgANV a) ANV_GOLD_FAILED = 0 := by
  rw [goldenCleared, rd_mirrorAnvils (by decide) (by decide), State.rd_wr_same]; rfl

/-- Once GOLD_FAILED is clear, an anvil whose page takes writes is in dispatch as the boot, ENABLE and its reset say. -/
theorem on_inDispatch_goldenCleared (ha : a < 16) (hup : s.pageDown (0x80 + a) = false) :
    (goldenCleared s a).on (pgANV a) ANV_IN_DISPATCH =
      (s.forward && s.on (pgANV a) PG_ENABLE && !s.on (pgANV a) PG_IN_RESET) := by
  have hpwr : ∀ f : Fld, f.off < 0x100 → f.lo < 8 →
      (s.wr (pgANV a) ANV_GOLD_FAILED 0).rd pgPWR f = s.rd pgPWR f := fun f ho hl =>
    State.rd_wr_ne s (by simp only [fldKey, pgANV, pgPWR]; omega)
  have hpage : ∀ f : Fld, 8 * f.off + f.lo ≠ 0x202 →
      (s.wr (pgANV a) ANV_GOLD_FAILED 0).on (pgANV a) f = s.on (pgANV a) f := fun f hne =>
    congrArg (· == 1) (State.rd_wr_ne s (anvilKey_ne hne))
  have hboot : (s.wr (pgANV a) ANV_GOLD_FAILED 0).forward = s.forward :=
    congrArg (· == 7) (hpwr _ (by decide) (by decide))
  have hdown : (s.wr (pgANV a) ANV_GOLD_FAILED 0).pageDown (0x80 + a) = false := by
    rw [← hup]; simp only [State.pageDown, hpwr PWR_PD_STAT (by decide) (by decide)]
  have hclear : (s.wr (pgANV a) ANV_GOLD_FAILED 0).on (pgANV a) ANV_GOLD_FAILED = false := by
    rw [State.on_wr_same]; rfl
  rw [goldenCleared, on_inDispatch_mirrorAnvils ha, anvilFit, hboot, hdown, hclear, hpage _ (by decide), hpage _ (by decide)]
  simp

end Sys2Proof.Machine
end

section
/-! SUPPORT. The flushes of a port's FIFOs, for O26 (R325, R327). -/

namespace Sys2Proof.Machine

variable {s u : State} {b p n : Nat} {f : Fld} {fs : List (Nat × Fld)}

theorem Frame.rx {ps : List Nat} (h : Frame fs ps s u) : u.rx = s.rx := by rw [h.2.1]

/-! ### RX_FLUSH (R325, R327) -/

/-- A port's receive side after a flush that spares the candidates that `held` names. -/
def flushedRx (r : RxPort) (held : Nat → Bool) : RxPort :=
  let lvl := ((r.cands.filter (fun c => held c.id)).map (·.words)).sum
  { r with wp := r.fp + lvl, cp := r.fp + lvl, rp := min r.rp (r.fp + lvl), cands := r.cands.filter (fun c => held c.id)
           openC := none, fr := frHunt }

/-- The bytes of the candidates that such a flush discards. -/
def flushedBytes (r : RxPort) (held : Nat → Bool) : Nat :=
  ((r.cands.filter (fun c => !held c.id)).map (fun c => c.body.length)).sum +
    (r.openC.map (fun o => o.bytes.length)).getD 0

theorem State.rxFlush_eq (s : State) (p : Nat) (held : Nat → Bool) : s.rxFlush p held =
    (s.setRx p (flushedRx (s.rxOf p) held)).add (fifoAt p) FIFO_RX_FLUSHED (flushedBytes (s.rxOf p) held) := by
  simp only [State.rxFlush, flushedBytes]
  cases (s.rxOf p).openC <;> rfl

theorem rxFrame_rxFlush (s : State) (p : Nat) (held : Nat → Bool) :
    RxFrame ((fifoAt p, FIFO_RX_FLUSHED) :: rxFields p) s (s.rxFlush p held) := by
  rw [State.rxFlush_eq]
  exact rxFrame_add (rxFrame_setRx (rxFrame_refl s) fun _ => List.mem_cons_of_mem _) List.mem_cons_self

theorem rxOf_rxFlush (held : Nat → Bool) : (s.rxFlush p held).rxOf p = flushedRx (s.rxOf p) held := by
  rw [State.rxFlush_eq, State.rxOf_add, State.rxOf_setRx]

theorem rd_flushed_rxFlush (hp : p < 2048) (held : Nat → Bool) : (s.rxFlush p held).rd (fifoAt p) FIFO_RX_FLUSHED =
    (s.rd (fifoAt p) FIFO_RX_FLUSHED + flushedBytes (s.rxOf p) held) % 2 ^ FIFO_RX_FLUSHED.width := by
  have hset : ∀ r, (s.setRx p r).rd (fifoAt p) FIFO_RX_FLUSHED = s.rd (fifoAt p) FIFO_RX_FLUSHED := fun r =>
    (rxFrame_setRx (rxFrame_refl s) fun _ hx => hx).rd (by
      simp only [rxFields, List.forall_mem_cons, fldKey, fifoAt, ingestAt]; refine ⟨?_, ?_, ?_, ?_, by simp⟩ <;> omega)
  rw [State.rxFlush_eq, State.rd_add_same, hset]

/-! ### TX_FLUSH of a UART (R325, R327) -/

/-- `u` is `s` but for the fields listed and the delivery sides of the ports. -/
def TxFrame (fs : List (Nat × Fld)) (s u : State) : Prop :=
  Frame fs [] s { u with del := { u.del with ports := s.del.ports } }

theorem txFrame_refl (s : State) : TxFrame fs s s := frame_refl _ _ s

theorem txFrame_wr {v : Nat} (h : TxFrame fs s u) (hm : (b, f) ∈ fs) : TxFrame fs s (u.wr b f v) :=
  frame_wr (u := { u with del := { u.del with ports := s.del.ports } }) h hm

theorem TxFrame.trans {w : State} (h : TxFrame fs s u) (h' : TxFrame fs u w) : TxFrame fs s w := by
  obtain ⟨hregs, hw, hout, hquiet⟩ := h'
  have hback : Frame fs [] { u with del := { u.del with ports := s.del.ports } }
      { w with del := { w.del with ports := s.del.ports } } :=
    ⟨hregs, congrArg (fun v : State => { v with del := { v.del with ports := s.del.ports } }) hw, hout, hquiet⟩
  exact frame_trans h hback

theorem TxFrame.mono {gs : List (Nat × Fld)} (h : TxFrame fs s u) (hf : ∀ x ∈ fs, x ∈ gs) : TxFrame gs s u :=
  frame_mono h hf (by simp)

theorem txFrame_setLis {l : LisPort} (h : TxFrame fs s u) : TxFrame fs s (u.setLis p l) := h

theorem TxFrame.rd (h : TxFrame fs s u) (hf : ∀ x ∈ fs, fldKey b f ≠ fldKey x.1 x.2) : u.rd b f = s.rd b f :=
  Frame.rd (u := { u with del := { u.del with ports := s.del.ports } }) h hf (by simp)

theorem TxFrame.pending (h : TxFrame fs s u) : u.pending = s.pending :=
  Frame.pending (u := { u with del := { u.del with ports := s.del.ports } }) h
theorem TxFrame.time (h : TxFrame fs s u) : u.time = s.time :=
  Frame.time (u := { u with del := { u.del with ports := s.del.ports } }) h
theorem TxFrame.cells (h : TxFrame fs s u) : u.cells = s.cells :=
  Frame.cells (u := { u with del := { u.del with ports := s.del.ports } }) h
theorem TxFrame.rx (h : TxFrame fs s u) : u.rx = s.rx :=
  Frame.rx (u := { u with del := { u.del with ports := s.del.ports } }) h
theorem TxFrame.host (h : TxFrame fs s u) : u.host = s.host := (h.2.2.2 rfl).1
theorem TxFrame.out (h : TxFrame fs s u) : u.out = s.out := (h.2.2.2 rfl).2

/-- The delivery side changes in its ports alone. -/
theorem TxFrame.del (h : TxFrame fs s u) : { u.del with ports := s.del.ports } = s.del :=
  Frame.del (u := { u with del := { u.del with ports := s.del.ports } }) h

theorem TxFrame.queues (h : TxFrame fs s u) : u.del.queues = s.del.queues := by rw [← h.del]
theorem TxFrame.items (h : TxFrame fs s u) : u.del.items = s.del.items := by rw [← h.del]

@[simp] theorem State.lisOf_setLis {l : LisPort} : (s.setLis p l).lisOf p = l := by
  rw [State.lisOf, State.setLis, tabGet?_tabPut_same, Option.getD_some]

@[simp] theorem State.lisOf_add : (s.add b f n).lisOf p = s.lisOf p := rfl

/-- The fields that show a local port's transmit FIFO. -/
def txFields (p : Nat) : List (Nat × Fld) :=
  [(fifoAt p, FIFO_TX_LEVEL), (fifoAt p, FIFO_TX_EMPTY), (fifoAt p, FIFO_TX_FULL)]

theorem State.lisOf_setTx {l : LisPort} : (s.setTx p l).lisOf p = l := by
  unfold State.setTx
  dsimp only
  split
  · exact State.lisOf_setLis
  · exact State.lisOf_setLis

theorem txFrame_setTx (s : State) (p : Nat) (l : LisPort) : TxFrame (txFields p) s (s.setTx p l) := by
  unfold State.setTx
  dsimp only
  split
  · exact txFrame_wr (txFrame_wr (txFrame_wr (txFrame_setLis (txFrame_refl s)) (by simp [txFields])) (by simp [txFields]))
      (by simp [txFields])
  · exact txFrame_setLis (txFrame_refl s)

/-- A free line keeps what its port holds and any break. -/
theorem State.lisOf_lineFree : ((s.lineFree p).lisOf p).tx = (s.lisOf p).tx ∧
    ((s.lineFree p).lisOf p).brk = (s.lisOf p).brk := by
  unfold State.lineFree
  dsimp only
  split
  · rw [State.lisOf_setLis]; exact ⟨rfl, rfl⟩
  · exact ⟨rfl, rfl⟩

theorem txFrame_lineFree (s : State) (p : Nat) : TxFrame fs s (s.lineFree p) := by
  unfold State.lineFree
  dsimp only
  split
  · exact txFrame_setLis (txFrame_refl s)
  · exact txFrame_refl s

/-- A transmit FIFO emptied, with the bytes dropped counted. -/
def txDropped (s : State) (p m : Nat) : State :=
  (s.setTx p { s.lisOf p with tx := [], txp := 0 }).add (fifoAt p) FIFO_TX_FLUSHED m

theorem lisOf_txDropped {m : Nat} : (txDropped s p m).lisOf p = { s.lisOf p with tx := [], txp := 0 } := by
  rw [txDropped, State.lisOf_add, State.lisOf_setTx]

theorem txFrame_txDropped (s : State) (p m : Nat) :
    TxFrame ((fifoAt p, FIFO_TX_FLUSHED) :: txFields p) s (txDropped s p m) :=
  txFrame_wr ((txFrame_setTx s p _).mono fun _ => List.mem_cons_of_mem _) List.mem_cons_self

theorem rd_flushed_txDropped {m : Nat} : (txDropped s p m).rd (fifoAt p) FIFO_TX_FLUSHED =
    (s.rd (fifoAt p) FIFO_TX_FLUSHED + m) % 2 ^ FIFO_TX_FLUSHED.width := by
  rw [txDropped, State.rd_add_same, (txFrame_setTx s p _).rd (by
    simp only [txFields, List.forall_mem_cons, fldKey]; refine ⟨?_, ?_, ?_, by simp⟩ <;> omega)]

/-- A transmit FIFO with one packet, whose item awaits nothing, is emptied. -/
theorem State.txEmpty_single {k : TxPkt} (htx : (s.lisOf p).tx = [k]) (hitem : s.item? k.handle = none) (m h : Nat) :
    s.txEmpty p m (some h) = txDropped s p m := by
  have hitem' : (txDropped s p m).item? k.handle = none :=
    (congrArg (tabGet? · k.handle) (txFrame_txDropped s p m).items).trans hitem
  rw [txDropped] at hitem' ⊢
  simp [State.txEmpty, htx, State.wireStamp, hitem']

/-- The first characters of a UART's packet leave, and are counted. -/
def charsSent (s : State) (p : Nat) (l : List Byte) : State :=
  (s.add (pgUART p) UART_C_TX_CHARS l.length).emit (.uartTx p l)

section
variable {l : List Byte}

theorem charsSent_out (hjtag : s.sys.jtag = false) (hbank : s.sys.banksOff.testBit 0 = false) :
    (charsSent s p l).out = s.out ++ [.uartTx p l] := by
  simp [charsSent, State.emit, State.ballOff, hjtag, hbank]

/-- Beside what leaves, only the count changes. -/
theorem charsSent_frame : Frame [(pgUART p, UART_C_TX_CHARS)] [] s { charsSent s p l with out := s.out } := by
  unfold charsSent State.emit
  split
  all_goals exact frame_add (frame_refl _ _ s) (by simp)

theorem charsSent_del : (charsSent s p l).del = s.del := charsSent_frame.del (u := { charsSent s p l with out := s.out })

theorem charsSent_lisOf : (charsSent s p l).lisOf p = s.lisOf p := by rw [State.lisOf, charsSent_del, State.lisOf]
theorem charsSent_pending : (charsSent s p l).pending = s.pending :=
  charsSent_frame.pending (u := { charsSent s p l with out := s.out })
theorem charsSent_time : (charsSent s p l).time = s.time := charsSent_frame.time (u := { charsSent s p l with out := s.out })

theorem rd_charsSent_ne (h : fldKey b f ≠ fldKey (pgUART p) UART_C_TX_CHARS) : (charsSent s p l).rd b f = s.rd b f :=
  Frame.rd (u := { charsSent s p l with out := s.out }) charsSent_frame (by simpa using h) (by simp)

theorem rd_chars_charsSent : (charsSent s p l).rd (pgUART p) UART_C_TX_CHARS =
    (s.rd (pgUART p) UART_C_TX_CHARS + l.length) % 2 ^ 64 := by
  unfold charsSent State.emit
  split
  all_goals exact State.rd_add_same

end

/-- The line of a UART ends what it sends: no item is on it, and without a break it is not busy. -/
def lineEnds (s : State) (p : Nat) : State :=
  ((s.lineFree p).setLis p { (s.lineFree p).lisOf p with endAt := (s.lineFree p).time.clk }).when
    (((s.lineFree p).lisOf p).brk == 0) (·.wr (pgUART p) UART_TX_BUSY 0)

theorem txFrame_lineEnds (s : State) (p : Nat) : TxFrame [(pgUART p, UART_TX_BUSY)] s (lineEnds s p) := by
  have hset := txFrame_setLis (p := p) (l := { (s.lineFree p).lisOf p with endAt := (s.lineFree p).time.clk })
    (txFrame_lineFree (fs := [(pgUART p, UART_TX_BUSY)]) s p)
  unfold lineEnds State.when
  split
  · exact txFrame_wr hset (List.mem_singleton_self _)
  · exact hset

theorem lineEnds_tx : ((lineEnds s p).lisOf p).tx = (s.lisOf p).tx := by
  rw [lineEnds, State.when_keeps (fun w => (w.lisOf p).tx) rfl, State.lisOf_setLis]; exact State.lisOf_lineFree.1

theorem rd_busy_lineEnds (hbrk : (s.lisOf p).brk = 0) : (lineEnds s p).rd (pgUART p) UART_TX_BUSY = 0 := by
  rw [lineEnds, State.lisOf_lineFree.2, hbrk, beq_self_eq_true, State.when_true, State.rd_wr_same]; rfl

/-- A flush of a UART with one item on its line: the characters that had left go out, the rest is dropped and counted,
and the line ends. -/
theorem State.uartTxFlush_single {k : TxPkt} {sent stamp : Nat} (htx : (s.lisOf p).tx = [k])
    (hitem : s.item? k.handle = none) (h1 : 1 ≤ sent) (hle : sent ≤ k.body.length)
    (hloop : s.on (pgUART p) UART_LOOP = false) :
    s.uartTxFlush p sent stamp = lineEnds (txDropped (charsSent s p (k.body.take sent)) p (k.body.length - sent)) p := by
  have hlen : (k.body.take sent).length = sent := List.length_take_of_le hle
  have hsome : (k.body.take sent).isEmpty = false := by
    rw [List.isEmpty_eq_false_iff, ← List.length_pos_iff, hlen]; exact h1
  have hloop' : (s.add (pgUART p) UART_C_TX_CHARS (k.body.take sent).length).on (pgUART p) UART_LOOP = false := by
    rw [State.on, State.rd_add_ne (by simp only [fldKey]; omega)]; exact hloop
  have hempty := State.txEmpty_single (s := charsSent s p (k.body.take sent)) (p := p) (k := k)
    (by rw [State.lisOf, charsSent_del]; exact htx) (by rw [State.item?, charsSent_del]; exact hitem)
    (k.body.length - sent) stamp
  have hdrop : txBytes [k] - (k.body.take sent).length = k.body.length - sent := by simp [txBytes, hlen]
  rw [← hempty, ← hdrop]
  simp only [State.uartTxFlush, htx, hsome, hloop', Bool.not_false, Bool.and_self, State.when_true, Bool.false_eq_true,
    if_false, charsSent, lineEnds]

end Sys2Proof.Machine
end

section
/-! PROOF of O26: golden items, and the flushes of a port's FIFOs (R63, R64, R273, R325, R327, R390). -/

namespace Sys2Proof.Machine

variable {s u : State} {a p t : Nat}

/-! ### Golden items -/

theorem exec_goldenItem_pass (t : Nat) (ha : a < 16) (hd : s.on (pgANV a) ANV_IN_DISPATCH = true)
    (hidle : tabGet? s.anvils a = none) (hper : s.rd (pgANV a) ANV_GOLD_PERIOD ≠ 0) :
    exec (.goldenItem t a true) s = .next ((s.at t).inc (pgANV a) ANV_C_GOLD_RUN) := by
  have hrun := State.golden_idle (s := s.at t) hd hidle hper true
  rw [if_pos rfl] at hrun
  rw [exec_goldenItem, execGoldenItem, Nat.mod_eq_of_lt ha]
  exact State.happen_eq s hrun rfl rfl

theorem exec_goldenItem_fail (t : Nat) (ha : a < 16) (hd : s.on (pgANV a) ANV_IN_DISPATCH = true)
    (hidle : tabGet? s.anvils a = none) (hper : s.rd (pgANV a) ANV_GOLD_PERIOD ≠ 0) :
    exec (.goldenItem t a false) s = .next (goldenFailed (s.at t) a) := by
  have hrun := State.golden_idle (s := s.at t) hd hidle hper false
  rw [if_neg Bool.false_ne_true] at hrun
  have hframe := frame_goldenFailed (s.at t) a
  rw [exec_goldenItem, execGoldenItem, Nat.mod_eq_of_lt ha]
  exact State.happen_eq s hrun hframe.pending hframe.time

theorem exec_goldFailedClear_reaches (t : Nat) (ha : a < 16) (hreach : s.reaches (0x80 + a) false) :
    exec (.goldFailedClear t a) s = .next (goldenCleared (s.at t) a) := by
  have hframe := frame_goldenCleared (s.at t) a
  rw [exec_goldFailedClear, execGoldFailedClear, Nat.mod_eq_of_lt ha]
  exact State.happen_eq s (State.blkGuard_reaches (s := s.at t) hreach) hframe.pending hframe.time

/-! ### Flushes -/

/-- The tongs engines replaced. -/
def State.withTong (s : State) (g : Tongs) : State := { s with tong := g }

@[simp] theorem State.withTong_rd (g : Tongs) (b : Nat) (f : Fld) : (s.withTong g).rd b f = s.rd b f := rfl
@[simp] theorem State.withTong_rxOf (g : Tongs) : (s.withTong g).rxOf p = s.rxOf p := rfl

/-- A receive flush of a port that has a FIFO; in the tongs the engine's mark goes as well. -/
theorem rxFlushPort_cases (hp : p < 58 ∨ 64 ≤ p) :
    ∃ g, s.rxFlushPort p = (s.rxFlush p s.anvilHolds).withTong g := by
  unfold State.rxFlushPort
  rw [if_neg (by omega)]
  dsimp only
  split
  · exact ⟨_, rfl⟩
  · exact ⟨_, rfl⟩

/-- RX_FLUSH answers the flushed port; the tongs alone may differ beside it. -/
theorem exec_rxFlush_reaches (t : Nat) (hp : p < 58 ∨ (64 ≤ p ∧ p < 2048)) (hreach : s.reachesWin false) :
    ∃ g, exec (.rxFlush t p) s = .next (((s.at t).rxFlush p s.anvilHolds).withTong g) := by
  have hframe := rxFrame_rxFlush (s.at t) p s.anvilHolds
  obtain ⟨g, hflush⟩ := rxFlushPort_cases (s := s.at t) (hp.imp_right And.left)
  refine ⟨g, ?_⟩
  rw [exec_rxFlush, execRxFlush, Nat.mod_eq_of_lt (by omega)]
  exact State.happen_eq s ((State.winGuard_reaches (s := s.at t) hreach).trans hflush) hframe.pending hframe.time

/-- What a transmit flush changes beside what has left and the delivery sides. -/
theorem txFrame_flushed (w : State) (p m : Nat) :
    TxFrame ((pgUART p, UART_TX_BUSY) :: (fifoAt p, FIFO_TX_FLUSHED) :: txFields p) w (lineEnds (txDropped w p m) p) :=
  ((txFrame_txDropped w p m).mono fun _ => List.mem_cons_of_mem _).trans
    ((txFrame_lineEnds _ p).mono fun _ hx => by rw [List.mem_singleton.1 hx]; exact List.mem_cons_self)

/-- TX_FLUSH of a UART with one item on its line. -/
theorem exec_txFlush_uart (t stamp : Nat) {sent : Nat} {k : TxPkt} (hp : p < 32) (hreach : s.reachesWin false)
    (htx : (s.lisOf p).tx = [k]) (hitem : s.item? k.handle = none) (h1 : 1 ≤ sent) (hle : sent ≤ k.body.length)
    (hloop : s.on (pgUART p) UART_LOOP = false) :
    exec (.txFlush t p sent stamp) s =
      .next (lineEnds (txDropped (charsSent (s.at t) p (k.body.take sent)) p (k.body.length - sent)) p) := by
  have hflush : (s.at t).winGuard 0x80 false (·.txFlushPort p sent stamp) =
      lineEnds (txDropped (charsSent (s.at t) p (k.body.take sent)) p (k.body.length - sent)) p := by
    rw [State.winGuard_reaches (s := s.at t) hreach, State.txFlushPort, if_pos hp]
    exact State.uartTxFlush_single (s := s.at t) htx hitem h1 hle hloop
  have hframe := txFrame_flushed (charsSent (s.at t) p (k.body.take sent)) p (k.body.length - sent)
  rw [exec_txFlush, execTxFlush, Nat.mod_eq_of_lt (by omega)]
  exact State.happen_eq s hflush (hframe.pending.trans charsSent_pending) (hframe.time.trans charsSent_time)

/-- The characters that a flushed UART had sent are counted once. -/
theorem rd_chars_flushed {m : Nat} {l : List Byte} (hp : p < 32) :
    (lineEnds (txDropped (charsSent s p l) p m) p).rd (pgUART p) UART_C_TX_CHARS =
      (s.rd (pgUART p) UART_C_TX_CHARS + l.length) % 2 ^ 64 := by
  rw [(txFrame_flushed _ p m).rd, rd_chars_charsSent]
  simp only [txFields, List.forall_mem_cons, fldKey, fifoAt, pgUART]
  refine ⟨?_, ?_, ?_, ?_, ?_, by simp⟩ <;> omega

theorem rd_flushed_flushed {m : Nat} {l : List Byte} (hp : p < 32) :
    (lineEnds (txDropped (charsSent s p l) p m) p).rd (fifoAt p) FIFO_TX_FLUSHED =
      (s.rd (fifoAt p) FIFO_TX_FLUSHED + m) % 2 ^ FIFO_TX_FLUSHED.width := by
  have hbusy : fldKey (fifoAt p) FIFO_TX_FLUSHED ≠ fldKey (pgUART p) UART_TX_BUSY := by
    simp only [fldKey, fifoAt, pgUART]; omega
  have hchars : fldKey (fifoAt p) FIFO_TX_FLUSHED ≠ fldKey (pgUART p) UART_C_TX_CHARS := by
    simp only [fldKey, fifoAt, pgUART]; omega
  rw [(txFrame_lineEnds _ p).rd (by simpa using hbusy), rd_flushed_txDropped, rd_charsSent_ne hchars]

/-! ### The clauses together -/

/-- Settles O26: each command is its named effect, whose parts are read off field by field. -/
theorem goldenItemsAndFlushes : Obligations.GoldenItemsAndFlushes := by
  unfold Obligations.GoldenItemsAndFlushes
  refine ⟨?_, ?_, ?_, ?_, ?_⟩
  · rintro s t a ha ⟨hd, hidle, hper⟩
    exact ⟨_, exec_goldenItem_pass t ha hd hidle hper, frame_inc (frame_refl _ _ _) (List.mem_singleton_self _),
      State.rd_inc_same⟩
  · rintro s t a ha ⟨hd, hidle, hper⟩
    exact ⟨_, exec_goldenItem_fail t ha hd hidle hper, frame_goldenFailed (s.at t) a, rd_failed_goldenFailed,
      rd_inDispatch_goldenFailed ha, pends_raise_self (by omega) (by decide), rd_run_goldenFailed, rd_fail_goldenFailed⟩
  · rintro s t a ha hreach
    have hup : (s.at t).pageDown (0x80 + a) = false := hreach.1
    exact ⟨_, exec_goldFailedClear_reaches t ha hreach, frame_goldenCleared (s.at t) a, rd_failed_goldenCleared,
      on_inDispatch_goldenCleared ha hup⟩
  · rintro s t p hp hreach
    obtain ⟨g, hexec⟩ := exec_rxFlush_reaches t hp hreach
    have hframe := rxFrame_rxFlush (s.at t) p s.anvilHolds
    have hrx := rxOf_rxFlush (s := s.at t) (p := p) s.anvilHolds
    refine ⟨_, hexec, ?_, ?_, ?_, hframe.1, hframe.del, hframe.out, hframe.host, hframe.cells, hframe.anvils⟩
    · rw [State.withTong_rxOf, hrx]; rfl
    · rw [State.withTong_rxOf, hrx]; rfl
    · rw [State.withTong_rd, rd_flushed_rxFlush (by omega), State.rd_at, State.rxOf_at, flushedBytes, ← Nat.add_assoc]
  · rintro s t p sent stamp k hp hreach ⟨htx, hbrk, hitem⟩ ⟨h1, hle⟩ ⟨hloop, hjtag, hbank⟩
    have hframe := txFrame_flushed (charsSent (s.at t) p (k.body.take sent)) p (k.body.length - sent)
    have hsent := charsSent_frame (s := s.at t) (p := p) (l := k.body.take sent)
    refine ⟨_, exec_txFlush_uart t stamp hp hreach htx hitem h1 hle hloop, ?_, ?_, ?_, ?_, ?_, ?_, ?_, ?_, ?_⟩
    · rw [lineEnds_tx, lisOf_txDropped]
    · rw [rd_busy_lineEnds (by rw [lisOf_txDropped, charsSent_lisOf]; exact hbrk)]
    · rw [hframe.out, charsSent_out (s := s.at t) hjtag hbank, State.at_out]
    · rw [rd_flushed_flushed hp, State.rd_at]
    · rw [rd_chars_flushed hp, State.rd_at, List.length_take_of_le hle]
    · exact hframe.rx.trans hsent.rx
    · exact hframe.cells.trans hsent.cells
    · exact hframe.host.trans (hsent.2.2.2 rfl).1
    · rw [hframe.queues, charsSent_del, State.at_del]

end Sys2Proof.Machine
end

section
/-! SUPPORT. Table commits, cell by cell: what copying the shadow, the entry's own bookkeeping and the consequences for flow
states, group states and ORPHAN bits may write, for O31 and O32 (R71, R75, R86, R87, R106). -/

namespace Sys2Proof.Machine

variable {P Q : Nat → Prop} {s u w old : State} {b k : Nat} {f : Fld} {e e' : Nat × Nat} {r r' : Row}

/-! ### Changes of register cells alone -/

/-- From `s` to `u` only register cells of `P` changed. -/
structure Touches (P : Nat → Prop) (s u : State) : Prop where
  regs : ∀ k, ¬ P k → regLook u.regs k = regLook s.regs k
  rest : u = { s with regs := u.regs }

theorem Touches.refl (s : State) : Touches P s s := ⟨fun _ _ => rfl, rfl⟩

theorem Touches.trans (h : Touches P s u) (h' : Touches P u w) : Touches P s w :=
  ⟨fun k hk => (h'.regs k hk).trans (h.regs k hk),
    h'.rest.trans (congrArg (fun v : State => { v with regs := w.regs }) h.rest)⟩

theorem Touches.mono (h : Touches P s u) (hPQ : ∀ k, P k → Q k) : Touches Q s u :=
  ⟨fun k hk => h.regs k fun hp => hk (hPQ k hp), h.rest⟩

theorem touches_wr (s : State) (v : Nat) (hk : P (fldKey b f)) : Touches P s (s.wr b f v) :=
  ⟨fun _ hk' => State.regLook_wr_ne s fun h => hk' (h ▸ hk), rfl⟩

theorem touches_when {c : Bool} {g : State → State} (h : Touches P s (g s)) : Touches P s (s.when c g) := by
  unfold State.when
  split
  · exact h
  · exact Touches.refl s

theorem touches_each {α : Type} {g : State → α → State} {l : List α} (h : ∀ a ∈ l, ∀ s, Touches P s (g s a)) :
    ∀ s : State, Touches P s (s.each l g) := by
  induction l with
  | nil => exact Touches.refl
  | cons a l ih =>
    intro s
    exact (h a List.mem_cons_self s).trans (ih (fun a ha => h a (List.mem_cons_of_mem _ ha)) _)

theorem Touches.rd (h : Touches P s u) (hk : ¬ P (fldKey b f)) : u.rd b f = s.rd b f := by
  unfold State.rd; rw [h.regs _ hk]

/-! ### Entries and their cells -/

/-- `e.2` is an entry of table `e.1`, one of the five with a commit register. -/
def IsEntry (e : Nat × Nat) : Prop :=
  (e.1 = 1 ∧ e.2 < 16384) ∨ (e.1 = 2 ∧ e.2 < 2048) ∨ (e.1 = 3 ∧ e.2 < 512) ∨ (e.1 = 4 ∧ e.2 < 16384) ∨
    (e.1 = 6 ∧ e.2 < 4096)

theorem IsEntry.tbl (he : IsEntry e) : e.1 ∈ [1, 2, 3, 4, 6] := by
  simp only [IsEntry] at he
  simp only [List.mem_cons, List.not_mem_nil, or_false]
  omega

/-- The cells of an entry's shadow copy. -/
def shadowCell (e : Nat × Nat) (k : Nat) : Prop := 8 * tblSh e.1 e.2 ≤ k ∧ k < 8 * (tblSh e.1 e.2 + tblSize e.1)

/-- The cells of an entry's live copy. -/
def liveCell (e : Nat × Nat) (k : Nat) : Prop := 8 * tblLv e.1 e.2 ≤ k ∧ k < 8 * (tblLv e.1 e.2 + tblSize e.1)

/-- What a commit writes beside its entries: ORPHAN of live flows (R71), flow states (R75) and group states (R106). -/
def sideCell (k : Nat) : Prop :=
  (8 * 0x258000 ≤ k ∧ k < 8 * 0x260000) ∨ (8 * 0x700000 ≤ k ∧ k < 8 * 0x800000) ∨
    (8 * 0x600000 ≤ k ∧ k < 8 * 0x700000 ∧ k % 512 = 481)

/-- The bit addresses of an entry's two copies, as numbers. -/
theorem entryCell_iff (he : IsEntry e) : (shadowCell e k ∨ liveCell e k) ↔
    (e.1 = 1 ∧ ((8388608 + 512 * e.2 ≤ k ∧ k < 8389120 + 512 * e.2) ∨
      (50331648 + 512 * e.2 ≤ k ∧ k < 50332160 + 512 * e.2))) ∨
    (e.1 = 2 ∧ ((16777216 + 256 * e.2 ≤ k ∧ k < 16777472 + 256 * e.2) ∨
      (17301504 + 256 * e.2 ≤ k ∧ k < 17301760 + 256 * e.2))) ∨
    (e.1 = 3 ∧ ((19398656 + 256 * e.2 ≤ k ∧ k < 19398912 + 256 * e.2) ∨
      (19529728 + 256 * e.2 ≤ k ∧ k < 19529984 + 256 * e.2))) ∨
    (e.1 = 4 ∧ ((67108864 + 128 * e.2 ≤ k ∧ k < 67108992 + 128 * e.2) ∨
      (69206016 + 128 * e.2 ≤ k ∧ k < 69206144 + 128 * e.2))) ∨
    (e.1 = 6 ∧ ((21233664 + 128 * e.2 ≤ k ∧ k < 21233792 + 128 * e.2) ∨
      (21757952 + 128 * e.2 ≤ k ∧ k < 21758080 + 128 * e.2))) := by
  obtain ⟨tb, i⟩ := e
  simp only [IsEntry] at he
  rcases he with ⟨rfl, hi⟩ | ⟨rfl, hi⟩ | ⟨rfl, hi⟩ | ⟨rfl, hi⟩ | ⟨rfl, hi⟩ <;>
    simp only [shadowCell, liveCell, tblSh, tblLv, tblSize, flowShAt, flowAt, ruleShAt, ruleAt, groupShAt, groupAt,
      subShAt, subAt, mgroupShAt, mgroupAt, Nat.reduceEqDiff, OfNat.ofNat_ne_one, OfNat.one_ne_ofNat, true_and, false_and,
      false_or, or_false] <;> omega

/-- No cell belongs to two entries. -/
theorem entryCell_inj (he : IsEntry e) (he' : IsEntry e') (h : shadowCell e k ∨ liveCell e k)
    (h' : shadowCell e' k ∨ liveCell e' k) : e = e' := by
  rw [entryCell_iff he] at h
  rw [entryCell_iff he'] at h'
  simp only [IsEntry] at he he'
  rw [Prod.ext_iff]
  omega

/-- An entry's two copies lie apart. -/
theorem not_liveCell_of_shadowCell (he : IsEntry e) (h : shadowCell e k) : ¬ liveCell e k := by
  obtain ⟨tb, i⟩ := e
  simp only [IsEntry] at he
  rcases he with ⟨rfl, hi⟩ | ⟨rfl, hi⟩ | ⟨rfl, hi⟩ | ⟨rfl, hi⟩ | ⟨rfl, hi⟩ <;>
    simp only [shadowCell, liveCell, tblSh, tblLv, tblSize, flowShAt, flowAt, ruleShAt, ruleAt, groupShAt, groupAt,
      subShAt, subAt, mgroupShAt, mgroupAt] at h ⊢ <;> omega

/-- Every entry lies in the table windows, between the pages and the listener ports. -/
theorem entryCell_bounds (he : IsEntry e) (h : shadowCell e k ∨ liveCell e k) : 8 * 0x100000 ≤ k ∧ k < 8 * 0x900000 := by
  rw [entryCell_iff he] at h
  simp only [IsEntry] at he
  omega

/-- The pages' cells are none of a table's. -/
theorem not_sideCell_page (hk : k < 8 * 0x100000) : ¬ sideCell k := by
  simp only [sideCell]; omega

/-! ### The fields of an entry -/

theorem rows_start_lt : ∀ tb ∈ [1, 2, 3, 4, 6], ∀ r ∈ tblRows tb, r.fld.start < 8 * tblSize tb := by decide +kernel

theorem rows_start_inj :
    ∀ tb ∈ [1, 2, 3, 4, 6], ∀ r ∈ tblRows tb, ∀ r' ∈ tblRows tb, r.fld.start = r'.fld.start → r = r' := by decide +kernel

theorem rows_FL_start_ne_orphan : ∀ r ∈ rows_FL, r.fld ≠ FL_ORPHAN → r.fld.start ≠ 481 := by decide +kernel

/-- PENDING and GEN of a table's entries. -/
def bookFlds (tb : Nat) : List Fld := (tblPend? tb).toList ++ (tblGen? tb).toList

/-- PENDING and GEN are read-only rows of their table. -/
theorem bookFlds_row :
    ∀ tb ∈ [1, 2, 3, 4, 6], ∀ f ∈ bookFlds tb, f ≠ FL_ORPHAN ∧ (⟨.ro, f, 1, 0, 1, .any⟩ : Row) ∈ tblRows tb := by
  decide +kernel

theorem rwa_ne_orphan : ∀ tb ∈ [1, 2, 3, 4, 6], ∀ r ∈ tblRows tb, r.acc = .rwa → r.fld ≠ FL_ORPHAN := by decide +kernel

theorem fldKey_inj {f g : Fld} : fldKey b f = fldKey b g ↔ f.start = g.start := by
  simp only [fldKey, Fld.start]; omega

theorem shadowCell_row (he : IsEntry e) (hr : r ∈ tblRows e.1) : shadowCell e (fldKey (tblSh e.1 e.2) r.fld) := by
  have hlt := rows_start_lt e.1 he.tbl r hr
  simp only [shadowCell, fldKey, Fld.start] at *; omega

theorem liveCell_row (he : IsEntry e) (hr : r ∈ tblRows e.1) : liveCell e (fldKey (tblLv e.1 e.2) r.fld) := by
  have hlt := rows_start_lt e.1 he.tbl r hr
  simp only [liveCell, fldKey, Fld.start] at *; omega

theorem shadowKey_ne_liveKey (he : IsEntry e) (hr : r ∈ tblRows e.1) (hr' : r' ∈ tblRows e.1) :
    fldKey (tblSh e.1 e.2) r.fld ≠ fldKey (tblLv e.1 e.2) r'.fld := fun h =>
  not_liveCell_of_shadowCell he (shadowCell_row he hr) (h ▸ liveCell_row he hr')

theorem liveKey_inj (he : IsEntry e) (hr : r ∈ tblRows e.1) (hr' : r' ∈ tblRows e.1)
    (h : fldKey (tblLv e.1 e.2) r.fld = fldKey (tblLv e.1 e.2) r'.fld) : r = r' :=
  rows_start_inj e.1 he.tbl r hr r' hr' (fldKey_inj.1 h)

/-- A field of an entry other than ORPHAN is none of a commit's side cells. -/
theorem not_sideCell_row (he : IsEntry e) (hr : r ∈ tblRows e.1) (ho : r.fld ≠ FL_ORPHAN) :
    ¬ sideCell (fldKey (tblSh e.1 e.2) r.fld) ∧ ¬ sideCell (fldKey (tblLv e.1 e.2) r.fld) := by
  have hlt := rows_start_lt e.1 he.tbl r hr
  have hflow : e.1 = 1 → r.fld.start ≠ 481 := fun h1 => rows_FL_start_ne_orphan r (by rw [h1] at hr; exact hr) ho
  obtain ⟨tb, i⟩ := e
  simp only [IsEntry] at he
  rcases he with ⟨rfl, hi⟩ | ⟨rfl, hi⟩ | ⟨rfl, hi⟩ | ⟨rfl, hi⟩ | ⟨rfl, hi⟩ <;>
    simp only [sideCell, tblSh, tblLv, tblSize, flowShAt, flowAt, ruleShAt, ruleAt, groupShAt, groupAt,
      subShAt, subAt, mgroupShAt, mgroupAt, fldKey, Fld.start, true_imp_iff] at hlt hflow ⊢ <;> omega

/-! ### Copying the shadow -/

/-- The live cells that copying an entry writes. -/
def copyCell (e : Nat × Nat) (k : Nat) : Prop :=
  ∃ r ∈ tblRows e.1, r.acc = .rwa ∧ k = fldKey (tblLv e.1 e.2) r.fld

theorem liveCell_of_copyCell (he : IsEntry e) (h : copyCell e k) : liveCell e k := by
  obtain ⟨r, hr, -, rfl⟩ := h
  exact liveCell_row he hr

theorem touches_copyEntry (s : State) (e : Nat × Nat) : Touches (copyCell e) s (s.copyEntry e.1 e.2) := by
  refine touches_each (fun r hr s => ?_) s
  split
  · exact touches_wr s _ ⟨r, hr, ‹_›, rfl⟩
  · exact Touches.refl s

/-- Fields copied one after another from `a` to `b` stand at `b` as they stood at `a`. -/
theorem rd_each_copy {a : Nat} {l : List Row} (happart : ∀ r ∈ l, ∀ r' ∈ l, fldKey a r.fld ≠ fldKey b r'.fld)
    (hinj : ∀ r ∈ l, ∀ r' ∈ l, fldKey b r.fld = fldKey b r'.fld → r = r') (hr : r ∈ l) (hacc : r.acc = .rwa) :
    ∀ s : State, (s.each l (fun s r => if r.acc = .rwa then s.wr b r.fld (s.rd a r.fld) else s)).rd b r.fld =
      s.rd a r.fld := by
  induction l with
  | nil => simp at hr
  | cons x l ih =>
    intro s
    rw [State.each_cons]
    by_cases hmem : r ∈ l
    · rw [ih (fun y hy z hz => happart y (.tail _ hy) z (.tail _ hz))
        (fun y hy z hz => hinj y (.tail _ hy) z (.tail _ hz)) hmem]
      split
      · exact State.rd_wr_ne s (happart r hr x (.head _))
      · rfl
    · obtain rfl : r = x := (List.mem_cons.1 hr).resolve_right hmem
      have hrest : Touches (fun k => ∃ r' ∈ l, k = fldKey b r'.fld) (s.wr b r.fld (s.rd a r.fld))
          ((s.wr b r.fld (s.rd a r.fld)).each l (fun s r => if r.acc = .rwa then s.wr b r.fld (s.rd a r.fld) else s)) :=
        touches_each (fun r' hr' s => by
          split
          · exact touches_wr s _ ⟨r', hr', rfl⟩
          · exact Touches.refl s) _
      rw [if_pos hacc, hrest.rd, State.rd_wr_same, Nat.mod_eq_of_lt (s.rd_lt _ _)]
      rintro ⟨r', hr', hk⟩
      exact hmem (hinj r (.head _) r' (.tail _ hr') hk ▸ hr')

theorem rd_copyEntry_live (he : IsEntry e) (hr : r ∈ tblRows e.1) (hacc : r.acc = .rwa) :
    (s.copyEntry e.1 e.2).rd (tblLv e.1 e.2) r.fld = s.rd (tblSh e.1 e.2) r.fld :=
  rd_each_copy (fun _ h _ h' => shadowKey_ne_liveKey he h h') (fun _ h _ h' => liveKey_inj he h h') hr hacc s

/-- A set of entries, each copied to the live tables. -/
def State.copyAll (s : State) (set : List (Nat × Nat)) : State := s.each set (fun s e => s.copyEntry e.1 e.2)

theorem touches_copyAll (s : State) (set : List (Nat × Nat)) :
    Touches (fun k => ∃ e ∈ set, copyCell e k) s (s.copyAll set) :=
  touches_each (fun e he s => (touches_copyEntry s e).mono fun _ h => ⟨e, he, h⟩) s

/-- Copying entries leaves every shadow as it is. -/
theorem rd_copyAll_shadow {set : List (Nat × Nat)} (hset : ∀ e ∈ set, IsEntry e) (he : IsEntry e) (hr : r ∈ tblRows e.1) :
    (s.copyAll set).rd (tblSh e.1 e.2) r.fld = s.rd (tblSh e.1 e.2) r.fld := by
  refine (touches_copyAll s set).rd fun ⟨e', he', h⟩ => ?_
  have hlive := liveCell_of_copyCell (hset e' he') h
  obtain rfl := entryCell_inj he (hset e' he') (.inl (shadowCell_row he hr)) (.inr hlive)
  exact not_liveCell_of_shadowCell he (shadowCell_row he hr) hlive

/-- Copying gives the live copy of each entry its shadow's settable fields. -/
theorem rd_copyAll_live {set : List (Nat × Nat)} (hset : ∀ e ∈ set, IsEntry e) (he : e ∈ set) (hr : r ∈ tblRows e.1)
    (hacc : r.acc = .rwa) : (s.copyAll set).rd (tblLv e.1 e.2) r.fld = s.rd (tblSh e.1 e.2) r.fld := by
  induction set generalizing s with
  | nil => simp at he
  | cons x set ih =>
    obtain ⟨hx, hrest⟩ := List.forall_mem_cons.1 hset
    rw [State.copyAll, State.each_cons, ← State.copyAll]
    by_cases hmem : e ∈ set
    · exact (ih hrest hmem).trans (rd_copyAll_shadow (set := [x]) (by simpa using hx) (hrest e hmem) hr)
    · obtain rfl : e = x := (List.mem_cons.1 he).resolve_right hmem
      refine ((touches_copyAll _ set).rd fun ⟨e', he', h⟩ => hmem ?_).trans (rd_copyEntry_live hx hr hacc)
      rwa [entryCell_inj hx (hrest e' he') (.inr (liveCell_row hx hr)) (.inr (liveCell_of_copyCell (hrest e' he') h))]

/-- PENDING and GEN are not copied. -/
theorem rd_copyAll_book {set : List (Nat × Nat)} (hset : ∀ e ∈ set, IsEntry e) (he : IsEntry e) (hf : f ∈ bookFlds e.1) :
    (s.copyAll set).rd (tblLv e.1 e.2) f = s.rd (tblLv e.1 e.2) f := by
  obtain ⟨-, hrow⟩ := bookFlds_row e.1 he.tbl f hf
  refine (touches_copyAll s set).rd fun ⟨e', he', h⟩ => ?_
  obtain rfl := entryCell_inj he (hset e' he') (.inr (liveCell_row he hrow)) (.inr (liveCell_of_copyCell (hset e' he') h))
  obtain ⟨r, hr, hacc, hk⟩ := h
  have heq := liveKey_inj he hrow hr hk
  rw [← heq] at hacc
  cases hacc

end Sys2Proof.Machine
end

section
/-! SUPPORT. An entry's bookkeeping in a commit, PENDING and GEN, and the commit's consequences, for O31 and O32 (R71, R75,
R86, R87, R106, R231, R249). -/

namespace Sys2Proof.Machine

variable {s u w old : State} {b k : Nat} {f : Fld} {e e' : Nat × Nat} {r : Row} {set : List (Nat × Nat)}

/-! ### PENDING and GEN -/

/-- The cells of PENDING and GEN in an entry's two copies. -/
def bookCell (e : Nat × Nat) (k : Nat) : Prop :=
  ∃ f ∈ bookFlds e.1, k = fldKey (tblSh e.1 e.2) f ∨ k = fldKey (tblLv e.1 e.2) f

/-- GEN of an entry counts in both copies (R87). -/
def countGen (s : State) (e : Nat × Nat) : State :=
  match tblGen? e.1 with
  | some g => (s.wr (tblLv e.1 e.2) g (s.rd (tblLv e.1 e.2) g + 1)).wr (tblSh e.1 e.2) g (s.rd (tblLv e.1 e.2) g + 1)
  | none => s

/-- PENDING of an entry clears and its GEN counts. -/
def booked (s : State) (e : Nat × Nat) : State := countGen (s.setPend e.1 e.2 false) e

theorem tblPend?_ne_none : ∀ tb ∈ [1, 2, 3, 4, 6], tblPend? tb ≠ none := by decide

theorem touches_setPend (he : IsEntry e) (s : State) (c : Bool) : Touches (bookCell e) s (s.setPend e.1 e.2 c) := by
  unfold State.setPend
  split
  · rename_i f hf
    exact touches_wr s _ ⟨f, by simp [bookFlds, hf], .inl rfl⟩
  · exact absurd ‹_› (tblPend?_ne_none e.1 he.tbl)

theorem touches_countGen (s : State) (e : Nat × Nat) : Touches (bookCell e) s (countGen s e) := by
  unfold countGen
  split
  · rename_i g hg
    have hbook : g ∈ bookFlds e.1 := by simp [bookFlds, hg]
    exact (touches_wr s _ ⟨g, hbook, .inr rfl⟩).trans (touches_wr _ _ ⟨g, hbook, .inl rfl⟩)
  · exact Touches.refl s

theorem touches_booked (he : IsEntry e) (s : State) : Touches (bookCell e) s (booked s e) :=
  (touches_setPend he s false).trans (touches_countGen _ e)

theorem sideCell_fstate {n : Nat} (hn : n < 16384) (ho : f.off < 0x38) (hl : f.lo < 32) :
    sideCell (fldKey (fstateAt n) f) := by
  simp only [sideCell, fldKey, fstateAt]; omega

theorem touches_clearFlowState {n : Nat} (hn : n < 16384) (s : State) : Touches sideCell s (s.clearFlowState n) := by
  refine touches_each (fun x hx s => touches_wr s 0 ?_) s
  simp only [List.mem_cons, List.not_mem_nil, or_false] at hx
  rcases hx with rfl | rfl | rfl | rfl | rfl <;> exact sideCell_fstate hn (by decide) (by decide)

/-- An entry's own part of a commit: its bookkeeping, and a flow's state. -/
theorem touches_commitOne_booked (he : IsEntry e) (s old : State) : Touches sideCell (booked s e) (s.commitOne old e) := by
  change Touches sideCell (booked s e) ((booked s e).when (e.1 == 1 && _) (·.clearFlowState e.2))
  rcases hflow : e.1 == 1 with _ | _
  · exact Touches.refl _
  · exact touches_when (touches_clearFlowState (by simp only [IsEntry, beq_iff_eq] at he hflow; omega) _)

theorem touches_commitOne (he : IsEntry e) (s old : State) :
    Touches (fun k => bookCell e k ∨ sideCell k) s (s.commitOne old e) :=
  ((touches_booked he s).mono fun _ => .inl).trans ((touches_commitOne_booked he s old).mono fun _ => .inr)

theorem entryCell_of_bookCell (he : IsEntry e) (h : bookCell e k) : shadowCell e k ∨ liveCell e k := by
  obtain ⟨f, hf, h⟩ := h
  obtain ⟨-, hrow⟩ := bookFlds_row e.1 he.tbl f hf
  exact h.imp (by rintro rfl; exact shadowCell_row he hrow) (by rintro rfl; exact liveCell_row he hrow)

theorem not_sideCell_book (he : IsEntry e) (hf : f ∈ bookFlds e.1) :
    ¬ sideCell (fldKey (tblSh e.1 e.2) f) ∧ ¬ sideCell (fldKey (tblLv e.1 e.2) f) :=
  have ⟨ho, hrow⟩ := bookFlds_row e.1 he.tbl f hf
  not_sideCell_row he hrow ho

theorem tblPend?_gen?_start : ∀ tb ∈ [1, 2, 3, 4, 6], ∀ f ∈ (tblPend? tb).toList, ∀ g ∈ (tblGen? tb).toList,
    f.start ≠ g.start := by decide

theorem rd_pending_booked (he : IsEntry e) (hf : f ∈ (tblPend? e.1).toList) : (booked s e).rd (tblSh e.1 e.2) f = 0 := by
  have hsome := Option.mem_toList.1 hf
  have hset : s.setPend e.1 e.2 false = s.wrB (tblSh e.1 e.2) f false := by simp [State.setPend, Option.mem_def.1 hsome]
  have hrow := (bookFlds_row e.1 he.tbl f (List.mem_append_left _ hf)).2
  rw [booked, hset, countGen]
  split
  · rename_i g hg
    have hg' : g ∈ (tblGen? e.1).toList := by simp [hg]
    have hgrow := (bookFlds_row e.1 he.tbl g (List.mem_append_right _ hg')).2
    rw [State.rd_wr_ne _ fun h => tblPend?_gen?_start e.1 he.tbl f hf g hg' (fldKey_inj.1 h),
      State.rd_wr_ne _ (shadowKey_ne_liveKey he hrow hgrow)]
    exact (State.rd_wr_same _ _ _ _).trans (Nat.zero_mod _)
  · exact (State.rd_wr_same _ _ _ _).trans (Nat.zero_mod _)

theorem rd_gen_booked {g : Fld} (he : IsEntry e) (hg : g ∈ (tblGen? e.1).toList) :
    (booked s e).rd (tblLv e.1 e.2) g = (s.rd (tblLv e.1 e.2) g + 1) % 2 ^ g.width ∧
    (booked s e).rd (tblSh e.1 e.2) g = (s.rd (tblLv e.1 e.2) g + 1) % 2 ^ g.width := by
  have hsome := Option.mem_def.1 (Option.mem_toList.1 hg)
  obtain ⟨-, hrow⟩ := bookFlds_row e.1 he.tbl g (List.mem_append_right _ hg)
  have hold : (s.setPend e.1 e.2 false).rd (tblLv e.1 e.2) g = s.rd (tblLv e.1 e.2) g := by
    unfold State.setPend
    split
    · rename_i f hf
      have hfrow := (bookFlds_row e.1 he.tbl f (by simp [bookFlds, hf])).2
      exact State.rd_wrB_ne (shadowKey_ne_liveKey he hfrow hrow).symm
    · split <;> rfl
  simp only [booked, countGen, hsome, hold]
  exact ⟨(State.rd_wr_ne _ (shadowKey_ne_liveKey he hrow hrow).symm).trans (State.rd_wr_same _ _ _ _),
    State.rd_wr_same _ _ _ _⟩

/-- The bookkeeping of a set of entries. -/
def State.bookAll (s old : State) (set : List (Nat × Nat)) : State := s.each set (fun s e => s.commitOne old e)

theorem touches_bookAll (hset : ∀ e ∈ set, IsEntry e) (s old : State) :
    Touches (fun k => (∃ e ∈ set, bookCell e k) ∨ sideCell k) s (s.bookAll old set) :=
  touches_each (fun e he s => (touches_commitOne (hset e he) s old).mono fun _ h => h.imp (fun h => ⟨e, he, h⟩) id) s

/-- Bookkeeping leaves every settable field alone. -/
theorem rd_bookAll_live (hset : ∀ e ∈ set, IsEntry e) (he : IsEntry e) (hr : r ∈ tblRows e.1) (hacc : r.acc = .rwa) :
    (s.bookAll old set).rd (tblLv e.1 e.2) r.fld = s.rd (tblLv e.1 e.2) r.fld := by
  refine (touches_bookAll hset s old).rd ?_
  rintro (⟨e', he', h⟩ | h)
  · obtain rfl := entryCell_inj he (hset e' he') (.inr (liveCell_row he hr)) (entryCell_of_bookCell (hset e' he') h)
    obtain ⟨f, hf, h⟩ := h
    obtain ⟨-, hrow⟩ := bookFlds_row e.1 he.tbl f hf
    rcases h with h | h
    · exact shadowKey_ne_liveKey he hrow hr h.symm
    · have heq := liveKey_inj he hr hrow h
      rw [heq] at hacc
      cases hacc
  · exact (not_sideCell_row he hr (rwa_ne_orphan e.1 he.tbl r hr hacc)).2 h

/-- Bookkeeping of other entries leaves an entry's PENDING and GEN alone. -/
theorem rd_bookAll_other (hset : ∀ e ∈ set, IsEntry e) (he : IsEntry e) (hne : e ∉ set) (hf : f ∈ bookFlds e.1) :
    (s.bookAll old set).rd (tblSh e.1 e.2) f = s.rd (tblSh e.1 e.2) f ∧
    (s.bookAll old set).rd (tblLv e.1 e.2) f = s.rd (tblLv e.1 e.2) f := by
  obtain ⟨hsh, hlv⟩ := not_sideCell_book he hf
  obtain ⟨-, hrow⟩ := bookFlds_row e.1 he.tbl f hf
  have hkeep : ∀ b, (shadowCell e (fldKey b f) ∨ liveCell e (fldKey b f)) → ¬ sideCell (fldKey b f) →
      (s.bookAll old set).rd b f = s.rd b f := fun b hcell hside => by
    refine (touches_bookAll hset s old).rd ?_
    rintro (⟨e', he', h⟩ | h)
    · exact hne (entryCell_inj he (hset e' he') hcell (entryCell_of_bookCell (hset e' he') h) ▸ he')
    · exact hside h
  exact ⟨hkeep _ (.inl (shadowCell_row he hrow)) hsh, hkeep _ (.inr (liveCell_row he hrow)) hlv⟩

/-- What the bookkeeping of one entry gives its PENDING and GEN stands after that of all. -/
theorem rd_bookAll_book (hset : ∀ e ∈ set, IsEntry e) (hnd : set.Nodup) (he : e ∈ set) (hf : f ∈ bookFlds e.1) :
    ∃ v : State, v.rd (tblLv e.1 e.2) f = s.rd (tblLv e.1 e.2) f ∧
      (s.bookAll old set).rd (tblSh e.1 e.2) f = (booked v e).rd (tblSh e.1 e.2) f ∧
      (s.bookAll old set).rd (tblLv e.1 e.2) f = (booked v e).rd (tblLv e.1 e.2) f := by
  induction set generalizing s with
  | nil => simp at he
  | cons x set ih =>
    obtain ⟨hx, hrest⟩ := List.forall_mem_cons.1 hset
    obtain ⟨hnx, hnd⟩ := List.nodup_cons.1 hnd
    have hstep : s.bookAll old (x :: set) = (s.commitOne old x).bookAll old set := rfl
    rw [hstep]
    by_cases hmem : e ∈ set
    · obtain ⟨v, hv, hsh, hlv⟩ := ih (s := s.commitOne old x) hrest hnd hmem
      have hone := rd_bookAll_other (s := s) (old := old) (set := [x]) (by simpa using hx) (hrest e hmem)
        (by rintro h; exact hnx (List.mem_singleton.1 h ▸ hmem)) hf
      exact ⟨v, hv.trans hone.2, hsh, hlv⟩
    · obtain rfl : e = x := (List.mem_cons.1 he).resolve_right hmem
      obtain ⟨hsh, hlv⟩ := rd_bookAll_other (s := s.commitOne old e) (old := old) hrest hx hmem hf
      obtain ⟨nsh, nlv⟩ := not_sideCell_book hx hf
      have hone := touches_commitOne_booked hx s old
      exact ⟨s, rfl, hsh.trans (hone.rd nsh), hlv.trans (hone.rd nlv)⟩

/-! ### Consequences for groups, flows and multicast groups -/

theorem touches_relive {g : Nat} (hg : g < 512) (s old : State) : Touches sideCell s (s.relive old g) :=
  (touches_wr s _ (by simp only [sideCell, fldKey, gstateAt]; omega)).trans
    (touches_wr _ _ (by simp only [sideCell, fldKey, gstateAt]; omega))

theorem lt_of_mem_listedBit {base step n b i : Nat} (h : i ∈ s.listedBit base step n b) (hstep : 0 < step) : i < n := by
  unfold State.listedBit at h
  obtain ⟨c, -, hc⟩ := List.mem_filterMap.1 h
  split at hc
  · rename_i hcell
    obtain ⟨hlo, hhi, -⟩ := hcell
    cases hc
    rw [Nat.div_lt_iff_lt_mul (by omega)]
    have : n * (8 * step) = 8 * (step * n) := by ring
    omega
  · cases hc

theorem sideCell_orphan {n : Nat} (hn : n < 16384) : sideCell (fldKey (flowAt n) FL_ORPHAN) := by
  simp only [sideCell, fldKey, flowAt]; omega

theorem touches_mirrorOrphans (s : State) : Touches sideCell s s.mirrorOrphans := by
  refine (touches_each (fun n hn s => ?_) s).trans (touches_each (fun n hn s => ?_) _)
  · exact touches_wr s 0 (sideCell_orphan (lt_of_mem_listedBit hn (by decide)))
  · exact touches_wr s _ (sideCell_orphan (lt_of_mem_listedBit (List.mem_of_mem_filter hn) (by decide)))

theorem mem_insertNat {n m : Nat} {l : List Nat} (h : m ∈ insertNat n l) : m = n ∨ m ∈ l := by
  induction l with
  | nil => simpa [insertNat] using h
  | cons x l ih =>
    rw [insertNat] at h
    split at h
    · simpa using h
    · split at h
      · exact .inr h
      · rcases List.mem_cons.1 h with rfl | h
        · simp
        · exact (ih h).imp_right (List.mem_cons_of_mem _)

theorem mem_foldl_insertNat {m : Nat} {l : List Nat} : ∀ {a : List Nat},
    m ∈ l.foldl (fun l g => insertNat g l) a → m ∈ l ∨ m ∈ a := by
  induction l with
  | nil => intro a h; exact .inr h
  | cons x l ih =>
    intro a h
    rcases ih h with h | h
    · exact .inl (.tail _ h)
    · exact (mem_insertNat h).imp_left (by rintro rfl; exact .head _)

/-- A flow that belongs to no group before or after a commit changes no group's members. -/
theorem groupsOf_outside {i : Nat} (hs : s.on (flowAt i) FL_CONC_EN = false) (hold : old.on (flowAt i) FL_CONC_EN = false) :
    s.groupsOf old i = [] := by
  simp [State.groupsOf, hs, hold]

/-- With no concord flow in the set, a commit ends the rounds of the groups in it alone. -/
theorem mem_groupsHit {g : Nat} (hflow : ∀ e ∈ set, e.1 = 1 → s.groupsOf old e.2 = []) (h : g ∈ s.groupsHit old set) :
    (3, g) ∈ set := by
  have hmem := (mem_foldl_insertNat h).resolve_right List.not_mem_nil
  obtain ⟨e, he, hg⟩ := List.mem_flatMap.1 hmem
  split at hg
  · rename_i htb
    rw [List.mem_singleton] at hg
    exact hg ▸ htb ▸ he
  · split at hg
    · rename_i htb
      simp [hflow e he htb] at hg
    · simp at hg

/-- Only the multicast groups in a set without member list entries switch. -/
theorem mem_mgroupsHit {g : Nat} (hset : ∀ e ∈ set, IsEntry e) (h : g ∈ s.mgroupsHit old set) : (6, g) ∈ set := by
  have hmem := (mem_foldl_insertNat h).resolve_right List.not_mem_nil
  obtain ⟨e, he, hg⟩ := List.mem_flatMap.1 hmem
  split at hg
  · rename_i htb
    rw [List.mem_singleton] at hg
    exact hg ▸ htb ▸ he
  · split at hg
    · exact absurd (hset e he).tbl (by rw [‹e.1 = 7›]; decide)
    · simp at hg

theorem logCommits_of_no_twin (ht : s.tstate < 2) (set : List (Nat × Nat)) : s.logCommits set = s := by
  induction set with
  | nil => rfl
  | cons e set ih => rw [State.logCommits, State.log_of_no_twin ht, ih]

theorem abortRound_of_none {old : GroupRec} {mem : List (Nat × Nat)} (h : s.roundOf old.idx = none) :
    s.abortRound old mem = s := by
  simp [State.abortRound, h]

theorem State.each_same {α : Type} {g : State → α → State} {l : List α} (h : ∀ a ∈ l, g s a = s) : s.each l g = s := by
  induction l with
  | nil => rfl
  | cons a l ih => rw [State.each_cons, h a (.head _), ih fun a ha => h a (.tail _ ha)]

/-- The banks of the multicast groups replaced (R231). -/
def State.withBanks (s : State) (k : List (Nat × List Nat)) : State := { s with ring := { s.ring with banks := k } }

/-- On a hub that is not active the banks follow the tables and nothing is sent. -/
theorem each_startSwitch_inactive (l : List Nat) {m : State → Nat → List Nat} :
    ∀ s : State, s.active = false → ∃ k, s.each l (fun s g => s.startSwitch g (m s g)) = s.withBanks k := by
  induction l with
  | nil => intro s _; exact ⟨s.ring.banks, rfl⟩
  | cons g l ih =>
    intro s hact
    have hstep : s.startSwitch g (m s g) = s.withBanks (tabPut s.ring.banks g (m s g)) := by
      simp [State.startSwitch, hact, State.withBanks]
    obtain ⟨k, hk⟩ := ih (s.withBanks (tabPut s.ring.banks g (m s g))) hact
    exact ⟨k, by rw [State.each_cons, hstep, hk]; rfl⟩

end Sys2Proof.Machine
end

section
/-! SUPPORT. A commit that nothing refuses takes effect whole, for O31 and O32 (R86, R87). -/

namespace Sys2Proof.Machine

variable {s u w old : State} {b k page : Nat} {f : Fld} {e : Nat × Nat} {r : Row} {set : List (Nat × Nat)}

/-- A set of entries that a commit takes without a round to end, a concord flow's group to judge anew, or a multicast group to
install on the leaves; and no twin to tell. -/
structure Committable (s : State) (set : List (Nat × Nat)) : Prop where
  entries : ∀ e ∈ set, IsEntry e
  nodup : set.Nodup
  judged : ∀ e ∈ set, (s.copyAll set).judgeEntry s e.1 e.2 = none
  noTwin : s.tstate < 2
  flows : ∀ e ∈ set, e.1 = 1 → s.on (flowShAt e.2) FL_CONC_EN = false ∧ s.on (flowAt e.2) FL_CONC_EN = false
  groups : ∀ e ∈ set, e.1 = 3 → s.roundOf e.2 = none
  mgroups : ∀ e ∈ set, e.1 = 6 → s.active = false

/-- The cells that show a commit: the tables' windows and COMMITS. -/
def commitCell (k : Nat) : Prop := (8 * 0x100000 ≤ k ∧ k < 8 * 0x900000) ∨ k = fldKey pgFLOW FLOW_C_COMMITS

/-- What a commit has set reads so wherever its cells and the count of commits stand. -/
theorem State.tookCommit.congr (h : u.tookCommit s e.1 e.2) (he : IsEntry e)
    (hk : ∀ k, commitCell k → regLook w.regs k = regLook u.regs k) (hg : w.tblGen = u.tblGen) :
    w.tookCommit s e.1 e.2 := by
  have hrow : ∀ r ∈ tblRows e.1, w.rd (tblSh e.1 e.2) r.fld = u.rd (tblSh e.1 e.2) r.fld ∧
      w.rd (tblLv e.1 e.2) r.fld = u.rd (tblLv e.1 e.2) r.fld := fun r hr => by
    unfold State.rd
    rw [hk _ (.inl (entryCell_bounds he (.inl (shadowCell_row he hr)))),
      hk _ (.inl (entryCell_bounds he (.inr (liveCell_row he hr))))]
    exact ⟨rfl, rfl⟩
  have hbook : ∀ f ∈ bookFlds e.1, w.rd (tblSh e.1 e.2) f = u.rd (tblSh e.1 e.2) f ∧
      w.rd (tblLv e.1 e.2) f = u.rd (tblLv e.1 e.2) f := fun f hf => hrow _ (bookFlds_row e.1 he.tbl f hf).2
  obtain ⟨hlive, hpend, hgen, hcount, htbl⟩ := h
  refine ⟨fun r hr hacc => (hrow r hr).2.trans (hlive r hr hacc),
    fun f hf => (hbook f (List.mem_append_left _ hf)).1.trans (hpend f hf), fun g hg => ?_, ?_, hg.trans htbl⟩
  · obtain ⟨hsh, hlv⟩ := hbook g (List.mem_append_right _ hg)
    rw [hsh, hlv]
    exact hgen g hg
  · rw [← hcount]
    unfold State.rd
    rw [hk _ (.inr rfl)]

/-! ### The consequences of a commit -/

/-- LIVE and runs of the groups in a set, and ORPHAN of the live flows, after its commit (R71, R106). -/
def State.mirrorCommit (s old : State) (set : List (Nat × Nat)) : State :=
  (s.each (s.groupsHit old set) (fun s g => s.relive old g)).when (set.any (fun e => e.1 == 1)) (·.mirrorOrphans)

/-- The multicast groups whose members a commit changes switch (R231). -/
def State.switchHit (s old : State) (set : List (Nat × Nat)) : State :=
  s.each (s.mgroupsHit old set) (fun s g => s.startSwitch g (s.members g))

/-- One more table commit, which outdates earlier lookups (R87). -/
def State.countTbl (s : State) : State := { s with tblGen := s.tblGen + 1 }

/-- With no concord flow and no open round in the set, mirroring it writes side cells alone. -/
theorem touches_mirrorCommit (hset : ∀ e ∈ set, IsEntry e) (hflow : ∀ e ∈ set, e.1 = 1 → s.groupsOf old e.2 = []) :
    Touches sideCell s (s.mirrorCommit old set) := by
  refine (touches_each (fun g hg u => touches_relive ?_ u old) s).trans (touches_when (touches_mirrorOrphans _))
  have hentry := hset _ (mem_groupsHit hflow hg)
  simp only [IsEntry] at hentry
  omega

/-- A commit that carries no record and ends no round is its bookkeeping and what mirrors it. -/
theorem commitEffect_eq (ht : (s.bookAll old set).tstate < 2)
    (hflow : ∀ e ∈ set, e.1 = 1 → (s.bookAll old set).groupsOf old e.2 = [])
    (hround : ∀ e ∈ set, e.1 = 3 → (s.bookAll old set).roundOf e.2 = none) :
    s.commitEffect old set = (((s.bookAll old set).mirrorCommit old set).switchHit old set).countTbl := by
  have habort : (s.bookAll old set).each ((s.bookAll old set).groupsHit old set)
      (fun s g => s.abortRound (old.liveGroup g) (old.groupMembers g)) = s.bookAll old set :=
    State.each_same fun g hg => abortRound_of_none (hround _ (mem_groupsHit hflow hg) rfl)
  unfold State.commitEffect
  rw [← State.bookAll]
  dsimp only
  rw [logCommits_of_no_twin ht, habort]
  rfl

/-- On a hub that is not active a switch moves banks alone, and without a multicast group in the set nothing switches. -/
theorem switchHit_eq (hset : ∀ e ∈ set, IsEntry e) (hact : ∀ e ∈ set, e.1 = 6 → s.active = false) :
    ∃ l, s.switchHit old set = s.withBanks l ∧ ((∀ e ∈ set, e.1 ≠ 6) → l = s.ring.banks) := by
  rcases hhit : s.mgroupsHit old set with _ | ⟨g, l⟩
  · exact ⟨s.ring.banks, by rw [State.switchHit, hhit]; rfl, fun _ => rfl⟩
  · have h6 : (6, g) ∈ set := mem_mgroupsHit (s := s) (old := old) hset (by rw [hhit]; exact .head _)
    obtain ⟨k, hk⟩ := each_startSwitch_inactive (g :: l) (m := State.members) s (hact _ h6 rfl)
    exact ⟨k, by rw [State.switchHit, hhit, hk], fun hno => absurd rfl (hno _ h6)⟩

/-- A page's cell other than COMMITS stands through the copying and the bookkeeping of a commit. -/
theorem rd_bookAll_page (hset : ∀ e ∈ set, IsEntry e) (hk : fldKey b f < 8 * 0x100000)
    (hne : fldKey b f ≠ fldKey pgFLOW FLOW_C_COMMITS) :
    (((s.copyAll set).inc pgFLOW FLOW_C_COMMITS).bookAll old set).rd b f = s.rd b f := by
  rw [(touches_bookAll hset _ old).rd, State.rd_inc_ne hne, (touches_copyAll s set).rd]
  · rintro ⟨e, he, h⟩
    have := entryCell_bounds (hset e he) (.inr (liveCell_of_copyCell (hset e he) h))
    omega
  · rintro (⟨e, he, h⟩ | h)
    · have := entryCell_bounds (hset e he) (entryCell_of_bookCell (hset e he) h)
      omega
    · exact not_sideCell_page hk h

/-- COMMITS counts one. -/
theorem rd_bookAll_commits (hset : ∀ e ∈ set, IsEntry e) :
    (((s.copyAll set).inc pgFLOW FLOW_C_COMMITS).bookAll old set).rd pgFLOW FLOW_C_COMMITS =
      (s.rd pgFLOW FLOW_C_COMMITS + 1) % 2 ^ 64 := by
  rw [(touches_bookAll hset _ old).rd, State.rd_inc_same, (touches_copyAll s set).rd]
  · rintro ⟨e, he, h⟩
    have := entryCell_bounds (hset e he) (.inr (liveCell_of_copyCell (hset e he) h))
    exact absurd this (by decide)
  · rintro (⟨e, he, h⟩ | h)
    · have := entryCell_bounds (hset e he) (entryCell_of_bookCell (hset e he) h)
      exact absurd this (by decide)
    · exact not_sideCell_page (by decide) h

/-- A table's cells are not COMMITS. -/
theorem rd_count_entry (he : IsEntry e) (h : shadowCell e (fldKey b f) ∨ liveCell e (fldKey b f)) :
    (s.inc pgFLOW FLOW_C_COMMITS).rd b f = s.rd b f :=
  State.rd_inc_ne fun hk => absurd (hk ▸ entryCell_bounds he h) (by decide)

/-- Everything but register cells stands through the copying and the bookkeeping. -/
theorem bookAll_rest (hset : ∀ e ∈ set, IsEntry e) :
    ((s.copyAll set).inc pgFLOW FLOW_C_COMMITS).bookAll s set =
      { s with regs := (((s.copyAll set).inc pgFLOW FLOW_C_COMMITS).bookAll s set).regs } :=
  (((touches_copyAll s set).mono (Q := fun _ => True) fun _ _ => trivial).trans
    ((touches_wr _ _ trivial).trans ((touches_bookAll hset _ s).mono fun _ _ => trivial))).rest

/-- The tables after a commit's copying and bookkeeping: every entry of the set holds what its shadow held, its PENDING is clear
and its GEN has counted (R86, R87). -/
theorem bookAll_took (hset : ∀ e ∈ set, IsEntry e) (hnd : set.Nodup) (he : e ∈ set) {v : State}
    (hv : v = ((s.copyAll set).inc pgFLOW FLOW_C_COMMITS).bookAll s set) :
    (∀ r ∈ tblRows e.1, r.acc = .rwa → v.rd (tblLv e.1 e.2) r.fld = s.rd (tblSh e.1 e.2) r.fld) ∧
    (∀ f ∈ (tblPend? e.1).toList, v.rd (tblSh e.1 e.2) f = 0) ∧
    (∀ g ∈ (tblGen? e.1).toList, v.rd (tblLv e.1 e.2) g = (s.rd (tblLv e.1 e.2) g + 1) % 2 ^ g.width ∧
      v.rd (tblSh e.1 e.2) g = v.rd (tblLv e.1 e.2) g) := by
  have hen := hset e he
  refine ⟨fun r hr hacc => ?_, fun f hf => ?_, fun g hg => ?_⟩
  · rw [hv, rd_bookAll_live hset hen hr hacc, rd_count_entry hen (.inr (liveCell_row hen hr)),
      rd_copyAll_live hset he hr hacc]
  · obtain ⟨x, -, hsh, -⟩ := rd_bookAll_book (s := (s.copyAll set).inc pgFLOW FLOW_C_COMMITS) (old := s) hset hnd he
      (List.mem_append_left _ hf)
    rw [hv, hsh, rd_pending_booked hen hf]
  · have hbook := List.mem_append_right (tblPend? e.1).toList hg
    obtain ⟨-, hrow⟩ := bookFlds_row e.1 hen.tbl g hbook
    obtain ⟨x, hx, hsh, hlv⟩ := rd_bookAll_book (s := (s.copyAll set).inc pgFLOW FLOW_C_COMMITS) (old := s) hset hnd he
      hbook
    obtain ⟨glv, gsh⟩ := rd_gen_booked (s := x) hen hg
    rw [hv, hsh, hlv, glv, gsh, hx, rd_count_entry hen (.inr (liveCell_row hen hrow)), rd_copyAll_book hset hen hbook]
    exact ⟨rfl, rfl⟩

/-- A set of entries that breaks no rule is committed whole where no round, twin or bank has to be seen to: each entry is taken,
and beside registers, the count of commits and the banks of the multicast groups nothing changes (R86, R87). -/
theorem State.commitSet_committable (hs : Committable s set) : ∃ u l, s.commitSet page set = (true, u) ∧
    (∀ e ∈ set, u.tookCommit s e.1 e.2) ∧ u = { (s.withBanks l).countTbl with regs := u.regs } ∧
    ((∀ e ∈ set, e.1 ≠ 6) → l = s.ring.banks) := by
  obtain ⟨hset, hnd, hjudge, ht, hconc, hround, hact⟩ := hs
  obtain ⟨v, hv⟩ : ∃ v, v = ((s.copyAll set).inc pgFLOW FLOW_C_COMMITS).bookAll s set := ⟨_, rfl⟩
  have hvrest : v = { s with regs := v.regs } := hv ▸ bookAll_rest hset
  have htook := fun e (he : e ∈ set) => bookAll_took hset hnd he hv
  have hpage : ∀ b f, fldKey b f < 8 * 0x100000 → fldKey b f ≠ fldKey pgFLOW FLOW_C_COMMITS → v.rd b f = s.rd b f :=
    fun b f hk hne => hv ▸ rd_bookAll_page hset hk hne
  have hflow : ∀ e ∈ set, e.1 = 1 → v.groupsOf s e.2 = [] := fun e he h1 => by
    obtain ⟨hlive, -⟩ := htook e he
    obtain ⟨hsh, hlv⟩ := hconc e he h1
    have hcopy := hlive ⟨.rwa, FL_CONC_EN, 1, 0, 1, .any⟩ (by rw [h1]; decide) rfl
    rw [h1] at hcopy
    exact groupsOf_outside ((congrArg (· == 1) hcopy).trans hsh) hlv
  have heff := commitEffect_eq (s := (s.copyAll set).inc pgFLOW FLOW_C_COMMITS) (old := s) (set := set)
    (by rw [← hv, State.tstate, hpage _ _ (by decide) (by decide)]; exact ht) (by rw [← hv]; exact hflow)
    (fun e he h3 => by rw [← hv, hvrest]; exact hround e he h3)
  have hside : Touches sideCell v (v.mirrorCommit s set) := touches_mirrorCommit hset hflow
  obtain ⟨l, hl, hbanks⟩ := switchHit_eq (s := v.mirrorCommit s set) (old := s) hset fun e he h6 => by
    rw [State.active, State.role, hside.rd (not_sideCell_page (by decide)), hpage _ _ (by decide) (by decide)]
    exact hact e he h6
  rw [← hv, hl] at heff
  generalize v.mirrorCommit s set = x at hside hbanks heff
  have hrest : x = { s with regs := x.regs } :=
    hside.rest.trans (congrArg (fun y : State => { y with regs := x.regs }) hvrest)
  have hrd : ∀ b f, ¬ sideCell (fldKey b f) → (x.withBanks l).countTbl.rd b f = v.rd b f := fun b f hk => hside.rd hk
  have htbl : (x.withBanks l).countTbl.tblGen = s.tblGen + 1 := by rw [hrest]; rfl
  refine ⟨(x.withBanks l).countTbl, l, ?_, fun e he => ?_, by rw [hrest]; rfl, fun hno => by rw [hbanks hno, hrest]⟩
  · unfold State.commitSet
    rw [← State.copyAll]
    dsimp only
    rw [List.findSome?_eq_none_iff.2 hjudge, heff]
  · obtain ⟨hlive, hpend, hgen⟩ := htook e he
    have hen := hset e he
    refine ⟨fun r hr hacc => ?_, fun f hf => ?_, fun g hg => ?_, ?_, htbl⟩
    · rw [hrd _ _ (not_sideCell_row hen hr (rwa_ne_orphan e.1 hen.tbl r hr hacc)).2, hlive r hr hacc,
        Nat.mod_eq_of_lt (s.rd_lt _ _)]
    · rw [hrd _ _ (not_sideCell_book hen (List.mem_append_left _ hf)).1, hpend f hf]
    · obtain ⟨hsh, hlv⟩ := not_sideCell_book hen (List.mem_append_right _ hg)
      rw [hrd _ _ hsh, hrd _ _ hlv]
      exact hgen g hg
    · rw [hrd _ _ (not_sideCell_page (by decide)), hv, rd_bookAll_commits hset]

end Sys2Proof.Machine
end

section
/-! SUPPORT. The commit registers and the batch swaps, for O31 and O32 (R86, R87, R90, R91, R111, R150, R230). -/

namespace Sys2Proof.Machine

variable {s u : State} {t tb i k page : Nat} {e : Nat × Nat} {set : List (Nat × Nat)}

/-! ### A commit is judged on the tables alone -/

/-- The clock and H replaced. -/
def State.withTime (s : State) (T : TimeBase) : State := { s with time := T }

theorem State.at_eq_withTime (s : State) (t : Nat) : s.at t = s.withTime (s.at t).time := rfl

theorem copyEntry_withTime (T : TimeBase) (s : State) (tb i : Nat) :
    (s.withTime T).copyEntry tb i = (s.copyEntry tb i).withTime T := by
  unfold State.copyEntry
  induction tblRows tb generalizing s with
  | nil => rfl
  | cons r l ih =>
    rw [State.each_cons, State.each_cons, ← ih]
    split <;> rfl

theorem copyAll_withTime (T : TimeBase) (s : State) (set : List (Nat × Nat)) :
    (s.withTime T).copyAll set = (s.copyAll set).withTime T := by
  unfold State.copyAll
  induction set generalizing s with
  | nil => rfl
  | cons e l ih => rw [State.each_cons, State.each_cons, ← ih, copyEntry_withTime]

theorem judgeEntry_withTime (T : TimeBase) (s old : State) (tb i : Nat) :
    (s.withTime T).judgeEntry (old.withTime T) tb i = s.judgeEntry old tb i := rfl

/-- The instant of a commit decides nothing. -/
theorem copyAll_judge_at (s : State) (t : Nat) (set : List (Nat × Nat)) (e : Nat × Nat) :
    ((s.at t).copyAll set).judgeEntry (s.at t) e.1 e.2 = (s.copyAll set).judgeEntry s e.1 e.2 := by
  rw [State.at_eq_withTime, copyAll_withTime, judgeEntry_withTime]

theorem Committable.at (h : Committable s set) (t : Nat) : Committable (s.at t) set :=
  ⟨h.entries, h.nodup, fun e he => (copyAll_judge_at s t set e).trans (h.judged e he), h.noTwin, h.flows, h.groups,
    h.mgroups⟩

/-- One entry is committable when it is, and breaks no rule. -/
theorem committable_single (he : IsEntry e) (hj : (s.copyEntry e.1 e.2).judgeEntry s e.1 e.2 = none) (ht : s.tstate < 2)
    (hflow : e.1 = 1 → s.on (flowShAt e.2) FL_CONC_EN = false ∧ s.on (flowAt e.2) FL_CONC_EN = false)
    (hgroup : e.1 = 3 → s.roundOf e.2 = none) (hm : e.1 = 6 → s.active = false) : Committable s [e] :=
  ⟨by simpa using he, List.nodup_singleton e, fun x hx => List.mem_singleton.1 hx ▸ hj, ht, by simpa using hflow,
    by simpa using hgroup, by simpa using hm⟩

/-! ### What a taken commit leaves, and what follows it -/

/-- From `s` to `u` the set of entries was taken, and beside registers, events and multicast banks nothing that the statements
name changed. -/
structure Took (set : List (Nat × Nat)) (s u : State) : Prop where
  entries : ∀ e ∈ set, u.tookCommit s e.1 e.2
  tblGen : u.tblGen = s.tblGen + 1
  del : u.del = s.del
  rx : u.rx = s.rx
  cells : u.cells = s.cells
  conc : u.conc = s.conc
  hops : u.ring.hops = s.ring.hops
  tags : u.ring.tags = s.ring.tags
  ring : (∀ e ∈ set, e.1 ≠ 6) → u.ring = s.ring
  pending : u.pending = s.pending
  time : u.time = s.time

theorem commitSet_took (hs : Committable s set) : ∃ u, s.commitSet page set = (true, u) ∧ Took set s u := by
  obtain ⟨u, l, hu, hset, hrest, hbanks⟩ := State.commitSet_committable (page := page) hs
  have hpart := fun (β : Type) (g : State → β) => congrArg g hrest
  exact ⟨u, hu, hset, hpart _ State.tblGen, hpart _ State.del, hpart _ State.rx, hpart _ State.cells, hpart _ State.conc,
    hpart _ (·.ring.hops), hpart _ (·.ring.tags), fun hno => (hpart _ State.ring).trans (by rw [hbanks hno]; rfl),
    hpart _ State.pending, hpart _ State.time⟩

theorem commitCell_evtKey {p : Nat} (hp : p < 256) (hk : commitCell k) : evtKey p k = false := by
  have hc : fldKey pgFLOW FLOW_C_COMMITS = 8 * 0x90820 := rfl
  rw [commitCell, hc] at hk
  rw [evtKey_iff]
  omega

/-- Writing a page's header field, or raising an event, leaves a taken commit taken. -/
theorem Took.frame {v : State} {fs : List (Nat × Fld)} {ps : List Nat} (h : Took set s u) (hs : ∀ e ∈ set, IsEntry e)
    (hf : Frame fs ps u v) (hfs : ∀ x ∈ fs, ¬ commitCell (fldKey x.1 x.2)) (hps : ∀ p ∈ ps, p < 256) : Took set s v := by
  have hk : ∀ k, commitCell k → regLook v.regs k = regLook u.regs k := fun k hk =>
    hf.1 k (fun x hx he => hfs x hx (he ▸ hk)) (fun p hp => commitCell_evtKey (hps p hp) hk)
  have hgen : v.tblGen = u.tblGen := by rw [hf.2.1]
  have hconc : v.conc = u.conc := by rw [hf.2.1]
  have hring : v.ring = u.ring := by rw [hf.2.1]
  exact ⟨fun e he => (h.entries e he).congr (hs e he) hk hgen, hgen.trans h.tblGen, hf.del.trans h.del, hf.rx.trans h.rx,
    hf.cells.trans h.cells, hconc.trans h.conc, hring ▸ h.hops, hring ▸ h.tags, fun hno => hring.trans (h.ring hno),
    hf.pending.trans h.pending, hf.time.trans h.time⟩

/-! ### Commit registers -/

/-- The commit register of entry `i` of table `tb` is written and reaches its page while no swap runs, and the entry, taken
alone, is committable. -/
structure CommitReaches (s : State) (tb i : Nat) : Prop where
  reaches : s.reaches (tblPage tb) true
  calm : s.swapping = false
  alone : s.singleSet tb i = [(tb, i)]
  committable : Committable s [(tb, i)]

theorem tblPage_lt : tblPage tb < 256 := by
  unfold tblPage; split <;> decide

theorem doneBit_lt : doneBit page < 32 := by
  unfold doneBit; split <;> decide

theorem happen_commitWrite_took (h : CommitReaches s tb i) (t : Nat) : ∃ u, s.happen t (·.commitWrite tb i) = .next u ∧
    Took [(tb, i)] (s.at t) u ∧ u.pends (tblPage tb) (doneBit (tblPage tb)) = true := by
  obtain ⟨hreach, hcalm, halone, hc⟩ := h
  obtain ⟨v, hv, htook⟩ := commitSet_took (page := tblPage tb) (hc.at t)
  have hact : (s.at t).commitWrite tb i = v.raise (tblPage tb) (doneBit (tblPage tb)) := by
    unfold State.commitWrite State.commitSingle
    rw [State.blkGuard_reaches (State.reaches_at.2 hreach),
      if_neg (by rw [show (s.at t).swapping = false from hcalm]; decide),
      show (s.at t).singleSet tb i = [(tb, i)] from halone, hv]
    rfl
  have hraise := htook.frame hc.entries
    (frame_raise (p := tblPage tb) (b := doneBit (tblPage tb)) (frame_refl [] [tblPage tb] v) (by simp)) (by simp)
    (by simpa using tblPage_lt)
  exact ⟨_, s.happen_eq hact hraise.pending hraise.time, hraise, pends_raise_self tblPage_lt doneBit_lt⟩

theorem singleSet_sub (h : s.listPend = []) : s.singleSet 4 i = [(4, i)] := by
  simp [State.singleSet, State.pendOf, h]

theorem singleSet_mgroup (h : s.mlistPend = []) : s.singleSet 6 i = [(6, i)] := by
  simp [State.singleSet, State.pendOf, h]

/-! ### Refused commits (R86, R90, R91) -/

/-- A flow that breaks a rule is itself what is reported. -/
theorem judgeEntry_flow {old : State} (h : (s.judgeEntry old 1 i).isSome = true) :
    ∃ d, s.judgeEntry old 1 i = some ⟨1, i, d⟩ := by
  obtain ⟨o, ho⟩ := Option.isSome_iff_exists.1 h
  rw [ho]
  obtain ⟨-, hnone⟩ | ⟨-, hsome⟩ := ite_eq_iff.1 ho
  · cases hnone
  · exact ⟨_, hsome.symm⟩

theorem judgeEntry_rule {old : State} (h : (s.judgeEntry old 2 i).isSome = true) :
    s.judgeEntry old 2 i = some ⟨2, i, none⟩ := by
  obtain ⟨o, ho⟩ := Option.isSome_iff_exists.1 h
  rw [ho]
  obtain ⟨-, hnone⟩ | ⟨-, hsome⟩ := ite_eq_iff.1 ho
  · cases hnone
  · exact hsome.symm

/-- What a refused commit notes before it is refused: the count, and the entry in ERR_INDEX. -/
def refusedCommit (s : State) (o : Offence) : State := (s.inc pgFLOW FLOW_C_COMMIT_REFUSED).noteOffence o

/-- A commit whose offence lies in its own table is noted and refused on that table's page. -/
theorem commitWrite_refused {o : Offence} (hreach : s.reaches (tblPage tb) true) (hcalm : s.swapping = false)
    (halone : s.singleSet tb i = [(tb, i)]) (hj : (s.copyEntry tb i).judgeEntry s tb i = some o) (ho : o.tb = tb) :
    s.commitWrite tb i = (refusedCommit s o).refuse (tblPage tb) errILLEGAL := by
  have hfind : [(tb, i)].findSome? (fun e => (s.copyAll [(tb, i)]).judgeEntry s e.1 e.2) = some o := by
    rw [List.findSome?_singleton]; exact hj
  unfold State.commitWrite State.commitSingle State.commitSet
  rw [State.blkGuard_reaches hreach, if_neg (by rw [hcalm]; decide), halone, ← State.copyAll]
  dsimp only
  rw [hfind]
  simp [ho, refusedCommit]

theorem copyEntry_judge_at (s : State) (t tb i : Nat) :
    ((s.at t).copyEntry tb i).judgeEntry (s.at t) tb i = (s.copyEntry tb i).judgeEntry s tb i :=
  copyAll_judge_at s t [(tb, i)] (tb, i)

theorem happen_commitWrite_refused {o : Offence} {fs : List (Nat × Fld)} (hreach : s.reaches (tblPage tb) true)
    (hcalm : s.swapping = false) (halone : s.singleSet tb i = [(tb, i)])
    (hj : (s.copyEntry tb i).judgeEntry s tb i = some o) (ho : o.tb = tb)
    (hframe : Frame fs [] (s.at t) (refusedCommit (s.at t) o)) :
    ∃ u, s.happen t (·.commitWrite tb i) = .next u ∧ Frame (fs ++ refusalFields (tblPage tb)) [0] (s.at t) u ∧
      u.on (pgAt (tblPage tb)) PG_ERROR = true ∧ u = (refusedCommit (s.at t) o).refuse (tblPage tb) errILLEGAL := by
  have hact : (s.at t).commitWrite tb i = (refusedCommit (s.at t) o).refuse (tblPage tb) errILLEGAL :=
    commitWrite_refused (State.reaches_at.2 hreach) hcalm halone ((copyEntry_judge_at s t tb i).trans hj) ho
  have hnoted := frame_mono (gs := fs ++ refusalFields (tblPage tb)) (qs := [0]) hframe (fun _ => List.mem_append_left _)
    (by simp)
  have hrefused := frame_refuse (c := errILLEGAL) hnoted (fun _ => List.mem_append_right _) (by simp)
  exact ⟨_, s.happen_eq hact hrefused.pending hrefused.time, hrefused, (refuse_error errILLEGAL tblPage_lt).1, rfl⟩

/-! ### Batch swaps -/

/-- SHADOW_SWAP reaches its page while no swap runs, and what is pending is committable together. -/
structure SwapReaches (s : State) (page : Nat) (tbs : List Nat) (set : List (Nat × Nat)) : Prop where
  reaches : s.reachesCtrl page true
  calm : s.swapping = false
  due : tbs.flatMap s.pendOf = set
  committable : Committable s set

theorem happen_shadowSwap_took {tbs : List Nat} (h : SwapReaches s page tbs set) (hp : page < 256) (t : Nat) :
    ∃ u, s.happen t (·.shadowSwap page tbs) = .next u ∧ Took set (s.at t) u ∧ u.rd (pgAt page) PG_SHADOW_SWAP = 1 := by
  obtain ⟨hreach, hcalm, hdue, hc⟩ := h
  obtain ⟨v, hv, htook⟩ := commitSet_took (page := page) (hc.at t)
  have hact : (s.at t).shadowSwap page tbs = v.wr (pgAt page) PG_SHADOW_SWAP 1 := by
    unfold State.shadowSwap
    rw [State.ctrlGuard_reaches (State.reachesCtrl_at.2 hreach),
      if_neg (by rw [show (s.at t).swapping = false from hcalm]; decide),
      show tbs.flatMap (s.at t).pendOf = set from hdue, hv]
    rfl
  have hwr := htook.frame hc.entries (frame_wr1 v (pgAt page) PG_SHADOW_SWAP 1) (by
    simp only [List.forall_mem_singleton, commitCell, fldKey, pgAt, pgFLOW]; omega) (by simp)
  exact ⟨_, s.happen_eq hact hwr.pending hwr.time, hwr, State.rd_wr_same _ _ _ _⟩

/-- Every pending rule is a rule. -/
theorem mem_pendOf_rule (h : e ∈ s.pendOf 2) : e.1 = 2 ∧ e.2 < 2048 := by
  obtain ⟨i, hi, rfl⟩ := List.mem_map.1 h
  exact ⟨rfl, lt_of_mem_listedBit hi (by decide)⟩

theorem swapPages_lt (h : page ∈ swapPages) : page < 256 := by
  revert page; decide

/-- With nothing held, the end of a swap clears SHADOW_SWAP and raises COMMIT_DONE. -/
theorem swapDone_of_none_held (hp : page ∈ swapPages) (hon : s.on (pgAt page) PG_SHADOW_SWAP = true)
    (hh : s.swapHeld = []) : s.swapDone page = (s.wr (pgAt page) PG_SHADOW_SWAP 0).raise page (doneBit page) := by
  have hheld : ((s.wr (pgAt page) PG_SHADOW_SWAP 0).raise page (doneBit page)).swapHeld = [] := by
    rw [(frame_raise (fs := []) (ps := [page]) (frame_refl _ _ _) (by simp)).2.1]; exact hh
  unfold State.swapDone
  rw [if_pos (by simp [hp, hon])]
  dsimp only
  split
  · rfl
  · rw [hheld, State.each_nil, ← hheld]

end Sys2Proof.Machine
end

section
/-! The clauses of O31 and O32. -/

namespace Sys2Proof.Machine

variable {s : State} {t tb i page : Nat} {e : Nat × Nat}

/-! ### What may be committed alone -/

/-- A flow outside every concord group (R86, R93). -/
theorem committable_flow (hi : i < 16384) (ht : s.tstate < 2) (hj : (s.copyEntry 1 i).judgeEntry s 1 i = none)
    (hconc : s.on (flowShAt i) FL_CONC_EN = false ∧ s.on (flowAt i) FL_CONC_EN = false) : Committable s [(1, i)] :=
  committable_single (.inl ⟨rfl, hi⟩) hj ht (fun _ => hconc) nofun nofun

/-- A rule (R80, R86). -/
theorem committable_rule (hi : i < 2048) (ht : s.tstate < 2) (hj : (s.copyEntry 2 i).judgeEntry s 2 i = none) :
    Committable s [(2, i)] :=
  committable_single (.inr (.inl ⟨rfl, hi⟩)) hj ht nofun nofun nofun

/-- A group without an open round (R93, R106). -/
theorem committable_group (hi : i < 512) (ht : s.tstate < 2) (hj : (s.copyEntry 3 i).judgeEntry s 3 i = none)
    (hround : s.roundOf i = none) : Committable s [(3, i)] :=
  committable_single (.inr (.inr (.inl ⟨rfl, hi⟩))) hj ht nofun (fun _ => hround) nofun

/-- A subscription (R114). -/
theorem committable_sub (hi : i < 16384) (ht : s.tstate < 2) (hj : (s.copyEntry 4 i).judgeEntry s 4 i = none) :
    Committable s [(4, i)] :=
  committable_single (.inr (.inr (.inr (.inl ⟨rfl, hi⟩)))) hj ht nofun nofun nofun

/-- A multicast group, on a hub that is not active (R230, R231). -/
theorem committable_mgroup (hi : i < 4096) (ht : s.tstate < 2) (hj : (s.copyEntry 6 i).judgeEntry s 6 i = none)
    (hact : s.active = false) : Committable s [(6, i)] :=
  committable_single (.inr (.inr (.inr (.inr ⟨rfl, hi⟩)))) hj ht nofun nofun (fun _ => hact)

/-! ### Commit registers -/

/-- A commit register that takes one entry, no multicast group, leaves the ring alone as well. -/
theorem happen_commitWrite_whole (h : CommitReaches s tb i) (htb : tb ≠ 6) (t : Nat) :
    ∃ u, s.happen t (·.commitWrite tb i) = .next u ∧ u.tookCommit s tb i ∧
      u.pends (tblPage tb) (doneBit (tblPage tb)) = true ∧ u.del = s.del ∧ u.rx = s.rx ∧ u.cells = s.cells ∧
      u.conc = s.conc ∧ u.ring = s.ring := by
  obtain ⟨u, hu, htook, hpend⟩ := happen_commitWrite_took h t
  exact ⟨u, hu, htook.entries (tb, i) (.head _), hpend, htook.del, htook.rx, htook.cells, htook.conc,
    htook.ring (by simpa using htb)⟩

theorem frame_refusedCommit_flow (s : State) (i : Nat) (d : Option Nat) : Frame [(pgFLOW, FLOW_C_COMMIT_REFUSED),
    (pgFLOW, FLOW_ERR_INDEX), (pgFLOW, FLOW_ERR_V), (pgFLOW, FLOW_DUP), (pgFLOW, FLOW_DUP_OF)] [] s
    (refusedCommit s ⟨1, i, d⟩) :=
  frame_wr (frame_wrB (frame_wr (frame_wr (frame_inc (frame_refl _ _ _) (by simp)) (by simp)) (by simp)) (by simp)) (by simp)

theorem frame_refusedCommit_rule (s : State) (i : Nat) : Frame [(pgFLOW, FLOW_C_COMMIT_REFUSED), (pgRULE, RULE_ERR_INDEX),
    (pgRULE, RULE_ERR_V)] [] s (refusedCommit s ⟨2, i, none⟩) :=
  frame_wr (frame_wr (frame_inc (frame_refl _ _ _) (by simp)) (by simp)) (by simp)

theorem rd_errIndex_refusedCommit_flow (hi : i < 16384) (d : Option Nat) :
    (refusedCommit s ⟨1, i, d⟩).rd pgFLOW FLOW_ERR_INDEX = i ∧ (refusedCommit s ⟨1, i, d⟩).rd pgFLOW FLOW_ERR_V = 1 := by
  simp (disch := decide) only [refusedCommit, State.noteOffence, State.rd_wr_ne, State.rd_wrB_ne, State.rd_wr_same]
  exact ⟨Nat.mod_eq_of_lt hi, rfl⟩

theorem rd_errIndex_refusedCommit_rule (hi : i < 2048) :
    (refusedCommit s ⟨2, i, none⟩).rd pgRULE RULE_ERR_INDEX = i ∧
      (refusedCommit s ⟨2, i, none⟩).rd pgRULE RULE_ERR_V = 1 := by
  simp (disch := decide) only [refusedCommit, State.noteOffence, State.rd_wr_ne, State.rd_wr_same]
  exact ⟨Nat.mod_eq_of_lt hi, rfl⟩

/-- A commit written while a swap runs is held (R86). -/
theorem commitWrite_held (hreach : s.reaches (tblPage tb) true) (hswap : s.swapping = true) :
    s.commitWrite tb i = { s with swapHeld := s.swapHeld ++ [(commitReg tb, i)] } := by
  rw [State.commitWrite, State.blkGuard_reaches hreach, if_pos hswap]

/-- Settles O31: five entries that are committable alone, two that are refused on their own page, and one that is held. -/
theorem tableCommitsTakeEffectWhole : Obligations.TableCommitsTakeEffectWhole := by
  unfold Obligations.TableCommitsTakeEffectWhole
  refine ⟨?_, ?_, ?_, ?_, ?_, ?_, ?_, ?_⟩
  · rintro s t i ⟨hi, hreach, hcalm, ht⟩ hj hconc
    rw [exec_flCommit, execFlCommit, Nat.mod_eq_of_lt hi]
    exact happen_commitWrite_whole ⟨hreach, hcalm, rfl, committable_flow hi ht hj hconc⟩ (by decide) t
  · rintro s t i ⟨hi, hreach, hcalm, ht⟩ hj
    rw [exec_rlCommit, execRlCommit, Nat.mod_eq_of_lt hi]
    exact happen_commitWrite_whole ⟨hreach, hcalm, rfl, committable_rule hi ht hj⟩ (by decide) t
  · rintro s t i ⟨hi, hreach, hcalm, ht⟩ hj hround
    rw [exec_gcCommit, execGcCommit, Nat.mod_eq_of_lt hi]
    exact happen_commitWrite_whole ⟨hreach, hcalm, rfl, committable_group hi ht hj hround⟩ (by decide) t
  · rintro s t i ⟨hi, hreach, hcalm, ht⟩ hj hlist
    rw [exec_sbCommit, execSbCommit, Nat.mod_eq_of_lt hi]
    exact happen_commitWrite_whole ⟨hreach, hcalm, singleSet_sub hlist, committable_sub hi ht hj⟩ (by decide) t
  · rintro s t i ⟨hi, hreach, hcalm, ht⟩ hj ⟨hlist, hact⟩
    rw [exec_mgCommit, execMgCommit, Nat.mod_eq_of_lt hi]
    obtain ⟨u, hu, htook, hpend⟩ :=
      happen_commitWrite_took ⟨hreach, hcalm, singleSet_mgroup hlist, committable_mgroup hi ht hj hact⟩ t
    exact ⟨u, hu, htook.entries (6, i) (.head _), hpend, htook.del, htook.rx, htook.cells, htook.conc, htook.hops,
      htook.tags⟩
  · rintro s t i ⟨hi, hreach, hcalm⟩ hj
    obtain ⟨d, hd⟩ := judgeEntry_flow hj
    obtain ⟨hindex, hvalid⟩ := rd_errIndex_refusedCommit_flow (s := s.at t) hi d
    obtain ⟨u, hu, hframe, herr, rfl⟩ :=
      happen_commitWrite_refused hreach hcalm rfl hd rfl (frame_refusedCommit_flow (s.at t) i d)
    rw [exec_flCommit, execFlCommit, Nat.mod_eq_of_lt hi]
    exact ⟨_, hu, hframe, (State.rd_refuse (by decide) (by decide) _).trans hindex,
      (State.rd_refuse (by decide) (by decide) _).trans hvalid, herr⟩
  · rintro s t i ⟨hi, hreach, hcalm⟩ hj
    obtain ⟨hindex, hvalid⟩ := rd_errIndex_refusedCommit_rule (s := s.at t) hi
    obtain ⟨u, hu, hframe, herr, rfl⟩ :=
      happen_commitWrite_refused hreach hcalm rfl (judgeEntry_rule hj) rfl (frame_refusedCommit_rule (s.at t) i)
    rw [exec_rlCommit, execRlCommit, Nat.mod_eq_of_lt hi]
    exact ⟨_, hu, hframe, (State.rd_refuse (by decide) (by decide) _).trans hindex,
      (State.rd_refuse (by decide) (by decide) _).trans hvalid, herr⟩
  · rintro s t i ⟨hi, hreach, hswap⟩
    rw [exec_flCommit, execFlCommit, Nat.mod_eq_of_lt hi]
    exact ⟨_, s.happen_eq (commitWrite_held (State.reaches_at.2 hreach) hswap) rfl rfl, frame_refl _ _ _, rfl⟩

/-! ### Batch swaps -/

/-- A swap of one pending entry takes it whole. -/
theorem happen_shadowSwap_whole {tbs : List Nat} (h : SwapReaches s page tbs [e]) (hp : page < 256) (t : Nat) :
    ∃ u, s.happen t (·.shadowSwap page tbs) = .next u ∧ u.tookCommit s e.1 e.2 ∧ u.rd (pgAt page) PG_SHADOW_SWAP = 1 ∧
      u.del = s.del ∧ u.rx = s.rx ∧ u.cells = s.cells ∧ u.conc = s.conc := by
  obtain ⟨u, hu, htook, hon⟩ := happen_shadowSwap_took h hp t
  exact ⟨u, hu, htook.entries e (.head _), hon, htook.del, htook.rx, htook.cells, htook.conc⟩

/-- Rules commit together whenever each is legal (R80, R86). -/
theorem committable_rules {set : List (Nat × Nat)} (hrules : ∀ e ∈ set, e.1 = 2 ∧ e.2 < 2048) (hnd : set.Nodup)
    (hj : ∀ e ∈ set, (s.copyAll set).judgeEntry s e.1 e.2 = none) (ht : s.tstate < 2) : Committable s set := by
  have hother : ∀ e ∈ set, ∀ n, n ≠ 2 → e.1 ≠ n := fun e he n hn h => hn (h.symm.trans (hrules e he).1)
  exact ⟨fun e he => .inr (.inl (hrules e he)), hnd, hj, ht, fun e he h => absurd h (hother e he 1 (by decide)),
    fun e he h => absurd h (hother e he 3 (by decide)), fun e he h => absurd h (hother e he 6 (by decide))⟩

/-- Settles O32: what each page's tables hold pending is committable together, and the end of a swap clears its bit and raises
COMMIT_DONE. -/
theorem batchSwapsCommitEveryPendingEntry : Obligations.BatchSwapsCommitEveryPendingEntry := by
  unfold Obligations.BatchSwapsCommitEveryPendingEntry
  refine ⟨?_, ?_, ?_, ?_, ?_, ?_, ?_⟩
  · rintro s t i ⟨hreach, hcalm, ht⟩ hdue hj ⟨hi, hconc⟩
    exact happen_shadowSwap_whole ⟨hreach, hcalm, hdue, committable_flow hi ht hj hconc⟩ (by decide) t
  · rintro s t i ⟨hreach, hcalm, ht⟩ hdue hj ⟨hi, hround⟩
    exact happen_shadowSwap_whole ⟨hreach, hcalm, by simpa using hdue, committable_group hi ht hj hround⟩ (by decide) t
  · rintro s t i ⟨hreach, hcalm, ht⟩ hdue hj ⟨hi, hlist⟩
    have hnone : s.pendOf 5 = [] := congrArg (List.map _) hlist
    exact happen_shadowSwap_whole ⟨hreach, hcalm, by simp [hdue, hnone], committable_sub hi ht hj⟩ (by decide) t
  · rintro s t i ⟨hreach, hcalm, ht⟩ hdue hj ⟨hi, hlist, hact⟩
    have hnone : s.pendOf 7 = [] := congrArg (List.map _) hlist
    exact happen_shadowSwap_whole ⟨hreach, hcalm, by simp [hdue, hnone], committable_mgroup hi ht hj hact⟩ (by decide) t
  · rintro s t ⟨hreach, hcalm, ht⟩ hj hnd
    have hrules : ∀ e ∈ s.pendOf 2, e.1 = 2 ∧ e.2 < 2048 := fun e he => mem_pendOf_rule he
    obtain ⟨u, hu, htook, hon⟩ := happen_shadowSwap_took (tbs := [2])
      ⟨hreach, hcalm, by simp, committable_rules hrules hnd hj ht⟩ (by decide) t
    refine ⟨u, hu, fun e he => ?_, hon, htook.tblGen, htook.del, htook.rx, htook.conc⟩
    obtain ⟨hlive, hpend, hgen, -⟩ := htook.entries e he
    rw [(hrules e he).1] at hlive hpend hgen
    exact ⟨hlive, hpend RL_PENDING (by decide), (hgen RL_GEN (by decide)).1⟩
  · rintro s t ⟨hreach, hswap⟩
    have hact : (s.at t).shadowSwap 0x90 [1, 2, 3, 4, 5, 6, 7] = s.at t :=
      (State.ctrlGuard_reaches (State.reachesCtrl_at.2 hreach)).trans (if_pos hswap)
    rw [exec_flowShadowSwap, execFlowShadowSwap]
    exact ⟨s.at t, s.happen_eq hact rfl rfl, rfl⟩
  · rintro s t page ⟨hp, hon, hheld⟩
    have hact : (s.at t).swapDone page = ((s.at t).wr (pgAt page) PG_SHADOW_SWAP 0).raise page (doneBit page) :=
      swapDone_of_none_held hp hon hheld
    have hlt := swapPages_lt hp
    refine happen_of (f := (·.swapDone page)) (hact ▸ frame_raise (frame_wr (frame_refl _ _ _) (by simp)) (by simp))
      (hact ▸ ⟨?_, pends_raise_self hlt doneBit_lt⟩)
    rw [State.rd_raise (by rw [evtKey_iff]; simp only [fldKey, pgAt]; omega), State.rd_wr_same, Nat.zero_mod]

end Sys2Proof.Machine
end

section
/-! SUPPORT. What resolving a reference leaves steady: the counters of dispositions, the queues, and the receive, cellar and
concord sides, for O28 (R140, R143). -/

namespace Sys2Proof.Machine

variable {s u : State} {b p q r h n : Nat} {f : Fld} {i : LItem}

/-! ### What stays steady -/

/-- The cells that count dispositions: the counters of page 0x0A1 below C_BP_SIG, of the queues and of the flows. -/
def tallyCell (k : Nat) : Prop :=
  (8 * 0xA1800 ≤ k ∧ k < 8 * 0xA1880) ∨ (8 * 0xA00000 ≤ k ∧ k < 8 * 0xB00000) ∨ (8 * 0xC00000 ≤ k ∧ k < 8 * 0xD00000)

/-- The parts of the state that neither a signal nor a settled item touches. -/
structure Steady where
  tally : { k // tallyCell k } → Option Nat
  queues : List (Nat × List Ref)
  rx : List (Nat × RxPort)
  cells : List Host.Cell
  conc : Conc

def State.steady (s : State) : Steady := ⟨fun k => regLook s.regs k, s.del.queues, s.rx, s.cells, s.conc⟩

section
variable (hsu : u.steady = s.steady)
include hsu

theorem rd_of_steady (hk : tallyCell (fldKey b f)) : u.rd b f = s.rd b f := by
  have hlook : regLook u.regs (fldKey b f) = regLook s.regs (fldKey b f) :=
    congrFun (congrArg Steady.tally hsu) ⟨fldKey b f, hk⟩
  rw [State.rd, hlook, State.rd]

theorem queueOf_of_steady : u.queueOf q = s.queueOf q :=
  congrArg (fun x : Steady => (tabGet? x.queues q).getD []) hsu

theorem rx_of_steady : u.rx = s.rx := congrArg Steady.rx hsu
theorem cells_of_steady : u.cells = s.cells := congrArg Steady.cells hsu
theorem conc_of_steady : u.conc = s.conc := congrArg Steady.conc hsu

end

theorem steady_wr {v : Nat} (hk : ¬ tallyCell (fldKey b f)) : (s.wr b f v).steady = s.steady := by
  have hlook : ∀ k : { k // tallyCell k }, regLook (s.wr b f v).regs k = regLook s.regs k := fun k =>
    State.regLook_wr_ne s fun he => hk (he ▸ k.2)
  simp only [State.steady, State.wr_del, State.wr_rx, State.wr_cells, State.wr_conc, hlook]

/-- A frame of other cells alone. -/
theorem steady_frame {fs : List (Nat × Fld)} {ps : List Nat} (hfr : Frame fs ps s u)
    (hf : ∀ x ∈ fs, ¬ tallyCell (fldKey x.1 x.2)) (hp : ∀ n ∈ ps, n = 0xA0 ∨ n = 0xA1) : u.steady = s.steady := by
  have hlook : ∀ k : { k // tallyCell k }, regLook u.regs k = regLook s.regs k := fun k => by
    refine hfr.1 k (fun x hx he => hf x hx (he ▸ k.2)) fun n hn => ?_
    have hk := k.2
    rw [evtKey_iff]
    rcases hp n hn with rfl | rfl <;> simp only [tallyCell] at hk <;> omega
  have hconc : u.conc = s.conc := by rw [hfr.2.1]
  simp only [State.steady, hlook, hfr.del, hfr.rx, hfr.cells, hconc]

theorem steady_raise (hp : p = 0xA0 ∨ p = 0xA1) : (s.raise p n).steady = s.steady :=
  steady_frame (fs := []) (ps := [p]) (frame_raise (frame_refl _ _ _) (by simp)) (by simp) (by simpa using hp)

/-! ### Which cells count nothing -/

theorem not_tallyCell_ring (hp : p < 4) (ho : f.off < 0x1000) (hl : f.lo < 32) : ¬ tallyCell (fldKey (pgRINGP p) f) := by
  simp only [tallyCell, fldKey, pgRINGP]; omega

theorem not_tallyCell_bell (ho : f.off < 0x7F0 ∨ 0x880 ≤ f.off ∧ f.off < 0x1000) (hl : f.lo < 32) :
    ¬ tallyCell (fldKey pgBELL f) := by
  simp only [tallyCell, fldKey, pgBELL]; omega

theorem not_tallyCell_lard (ho : f.off < 0x1000) (hl : f.lo < 32) : ¬ tallyCell (fldKey pgLARD f) := by
  simp only [tallyCell, fldKey, pgLARD]; omega

theorem not_tallyCell_lport (hp : p < 2048) (ho : f.off < 0x40) (hl : f.lo < 32) : ¬ tallyCell (fldKey (lportAt p) f) := by
  simp only [tallyCell, fldKey, lportAt]; omega

theorem not_tallyCell_queue (hq : q < 16384) (ho : f.off < 0x20) (hl : f.lo < 32) : ¬ tallyCell (fldKey (queueAt q) f) := by
  simp only [tallyCell, fldKey, queueAt]; omega

theorem tallyCell_queueCtr {c : Nat} (hq : q < 16384) (hc : c < 8) : tallyCell (fldKey (queueCtrAt q) (ctr c)) := by
  simp only [tallyCell, fldKey, queueCtrAt, ctr]; omega

theorem tallyCell_dispCtr {c : Nat} (hn : n < 16384) (hc : c < 8) : tallyCell (fldKey (dispCtrAt n) (ctr c)) := by
  simp only [tallyCell, fldKey, dispCtrAt, ctr]; omega

theorem tallyCell_bell (ho : 0x800 ≤ f.off ∧ f.off < 0x880) (hl : f.lo = 0) : tallyCell (fldKey pgBELL f) := by
  simp only [tallyCell, fldKey, pgBELL]; omega

/-! ### Packets on the ring (R191, R196, R199 to R201, R213) -/

theorem steady_emit (e : Emission) : (s.emit e).steady = s.steady := by
  unfold State.emit; split <;> rfl

theorem steady_setHop (x : Hop) : (s.setHop p x).steady = s.steady := rfl

theorem steady_hopInc (ho : f.off < 0x1000) (hl : f.lo < 32) : (s.hopInc p f).steady = s.steady := by
  unfold State.hopInc
  split
  · exact steady_wr (not_tallyCell_ring ‹_› ho hl)
  · rfl

theorem steady_sendFrame (ft vc lseq : Nat) (body : List Byte) : (s.sendFrame p ft vc lseq body).steady = s.steady :=
  (steady_hopInc (by decide) (by decide)).trans (steady_emit _)

theorem steady_mirrorHop : (s.mirrorHop p).steady = s.steady := by
  unfold State.mirrorHop
  split
  · have hring : ∀ {f : Fld}, f.off < 0x1000 → f.lo < 32 → ¬ tallyCell (fldKey (pgRINGP p) f) := not_tallyCell_ring ‹_›
    exact (steady_wr (hring (by decide) (by decide))).trans
      ((steady_wr (hring (by decide) (by decide))).trans (steady_wr (hring (by decide) (by decide))))
  · rfl

theorem steady_sendData (vc ft : Nat) (body : List Byte) : (s.sendData p vc ft body).steady = s.steady :=
  steady_mirrorHop.trans ((steady_sendFrame _ _ _ _).trans (steady_setHop _))

theorem not_tallyCell_credit (hp : p < 4) (vc : Nat) : ¬ tallyCell (fldKey (pgRINGP p) (credFld vc)) := by
  unfold credFld
  split
  · exact not_tallyCell_ring hp (by decide) (by decide)
  · split <;> exact not_tallyCell_ring hp (by decide) (by decide)

theorem steady_noteStall (hp : p < 4) (stalled : Bool) : (s.noteStall p stalled).steady = s.steady := by
  unfold State.noteStall
  dsimp only
  split
  · rfl
  · exact (steady_wr (not_tallyCell_ring hp (by decide) (by decide))).trans (steady_setHop _)
  · rfl

theorem steady_pumpN (hp : p < 4) (n : Nat) : ∀ s : State, (s.pumpN p n).steady = s.steady := by
  induction n with
  | zero => exact fun _ => rfl
  | succ n ih =>
    intro s
    unfold State.pumpN
    dsimp only
    split
    · rfl
    · split
      · exact steady_noteStall hp _
      · rw [ih, steady_sendData, steady_wr (not_tallyCell_credit hp _), steady_setHop]

theorem steady_toPort (hp : p < 4) (own : Bool) (k : RingPkt) : (s.toPort p own k).steady = s.steady := by
  unfold State.toPort
  split
  · exact steady_sendFrame _ _ _ _
  · exact (steady_pumpN hp _ _).trans (steady_setHop _)

theorem steady_sendPort (hp : p < 4) (own : Bool) (k : RingPkt) : (s.sendPort p own k).steady = s.steady := by
  unfold State.sendPort
  split
  · exact steady_toPort hp own k
  · split
    · exact steady_hopInc (by decide) (by decide)
    · split
      · exact steady_toPort (otherPort_lt hp) own _
      · rfl

theorem steady_sendUni (hr : r < 2) (k : RingPkt) : (s.sendUni r k).steady = s.steady := by
  unfold State.sendUni
  split
  · rename_i d n he
    obtain ⟨x, -, hx⟩ := Option.map_eq_some_iff.1 he
    have hd : d < 2 := by have := egressRoute_dir_lt (s.nodesOf r) x; rwa [hx] at this
    exact steady_sendPort (by simp only [ringPort]; omega) true _
  · rfl

theorem steady_sendBoth (k : RingPkt) : (s.sendBoth k).steady = s.steady := by
  have hone : ∀ (s : State) (r : Nat), r < 2 → (if s.admitted r k.dst then s.sendUni r k else s).steady = s.steady :=
    fun s r hr => by
      split
      · exact steady_sendUni hr k
      · rfl
  exact (hone _ 1 (by decide)).trans (hone s 0 (by decide))

theorem steady_raTagIf (c : Prop) [Decidable c] (k : RingPkt) : (if c then s.raTag k else (k, s)).2.steady = s.steady := by
  split
  · unfold State.raTag
    split
    · rfl
    · exact steady_wr (by simp only [tallyCell, fldKey, pgSBOX]; omega)
  · rfl

/-! ### Backpressure (R143) -/

theorem steady_sigBackpressure (leaf : Nat) (on : Bool) (depth : Nat) (src : Option (Nat × Nat)) :
    (s.sigBackpressure leaf q on depth src).steady = s.steady := by
  have hcount : (s.inc pgBELL BELL_C_BP_SIG).steady = s.steady := steady_wr (not_tallyCell_bell (by decide) (by decide))
  unfold State.sigBackpressure
  dsimp only
  split
  · exact hcount
  · exact (steady_sendBoth _).trans ((steady_raTagIf _ _).trans hcount)

theorem steady_bpTurn (hq : q < 16384) (on : Bool) : (s.bpTurn q on).steady = s.steady := by
  have hmark : ∀ v, ((s.wrB (queueAt q) QUEUE_BP on).wr (lportAt (q / 8)) LPORT_BP v).steady = s.steady := fun v =>
    (steady_wr (not_tallyCell_lport (by omega) (by decide) (by decide))).trans
      (steady_wr (not_tallyCell_queue hq (by decide) (by decide)))
  have hlast : ∀ {s : State} {f : Fld} {v : Nat}, f.off = 0x70 → f.lo < 32 → (s.wr pgBELL f v).steady = s.steady :=
    fun ho hl => steady_wr (not_tallyCell_bell (by omega) hl)
  unfold State.bpTurn
  dsimp only
  split
  · exact (steady_sigBackpressure _ _ _ _).trans (hmark _)
  · rw [steady_raise (.inr rfl), State.wrB, hlast rfl (by decide), hlast rfl (by decide), hlast rfl (by decide), hmark]

theorem steady_judgeBP (hq : q < 16384) : (s.judgeBP q).steady = s.steady := by
  unfold State.judgeBP
  dsimp only
  split
  · split
    · exact steady_bpTurn hq false
    · rfl
  · split
    · exact steady_bpTurn hq true
    · rfl

theorem steady_bpSource (port code : Nat) : (s.bpSource q port code).steady = s.steady := by
  unfold State.bpSource
  split
  · rfl
  · split
    · rfl
    · dsimp only
      split
      · split
        · rfl
        · exact steady_sigBackpressure _ _ _ _
      · exact steady_sigBackpressure _ _ _ _

/-! ### Queues mirrored, cells given back, items settled (R24, R117, R119, R120, R122, R132) -/

theorem steady_mirrorKeys : s.mirrorKeys.steady = s.steady := steady_wr (not_tallyCell_bell (by decide) (by decide))

theorem steady_setQueue (hq : q < 16384) (l : List Ref) : (s.setQueue q l).steady = (withQueue s q l).steady := by
  have hqueue : ∀ {s : State} {f : Fld} {v : Nat}, f.off < 0x20 → f.lo < 32 → (s.wr (queueAt q) f v).steady = s.steady :=
    fun ho hl => steady_wr (not_tallyCell_queue hq ho hl)
  unfold State.setQueue State.mirrorSpilled
  dsimp only [State.wrB]
  rw [hqueue (by decide) (by decide), steady_wr (not_tallyCell_lard (by decide) (by decide)),
    steady_wr (not_tallyCell_lport (by omega) (by decide) (by decide)), hqueue (by decide) (by decide),
    hqueue (by decide) (by decide), hqueue (by decide) (by decide)]
  rfl

theorem steady_freeCells : (s.freeCells n).steady = s.steady :=
  steady_frame (frame_freeCells s n) (by
    simp only [List.forall_mem_cons]
    exact ⟨not_tallyCell_lard (by decide) (by decide), not_tallyCell_lard (by decide) (by decide),
      not_tallyCell_lard (by decide) (by decide), by simp⟩) (by simp)

theorem steady_spillFlag {v : Nat} (ho : f.off = 0x50) (hl : f.lo < 32) : (s.wr pgLARD f v).steady = s.steady :=
  steady_wr (not_tallyCell_lard (by omega) hl)

theorem steady_spillNext : s.spillNext.steady = s.steady := by
  unfold State.spillNext
  split
  · rfl
  · split
    · rfl
    · split
      · rfl
      · split
        · rfl
        · split
          · rfl
          · rw [steady_raise (.inl rfl), steady_spillFlag rfl (by decide), steady_raise (.inl rfl),
              steady_spillFlag rfl (by decide)]

theorem steady_spillStart : s.spillStart.steady = s.steady := by
  unfold State.spillStart
  split
  · rw [steady_spillNext, steady_raise (.inl rfl), steady_spillFlag rfl (by decide)]
  · exact steady_spillNext

theorem steady_spillFreed : s.spillFreed.steady = s.steady := by
  unfold State.spillFreed
  split
  · exact steady_spillStart.trans (steady_spillFlag rfl (by decide))
  · rfl

/-- An item that no submission waits for settles without a trace in the counters. -/
theorem steady_settle (hi : s.item? h = some i) (hw : i.wb = none) : (s.settle h).steady = s.steady := by
  unfold State.settle
  dsimp only
  rw [State.wbFinish_of_no_wb hi hw, hi]
  dsimp only
  split
  · rfl
  · split
    · exact steady_freeCells
    · exact steady_spillFreed
    · exact steady_spillFreed.trans steady_freeCells
    · exact steady_spillFreed.trans steady_freeCells

end Sys2Proof.Machine
end

section
/-! SUPPORT. A queue's only reference refused: what it counts and what it leaves, for O28 (R134, R136, R140, R141). -/

namespace Sys2Proof.Machine

variable {s u : State} {q h code : Nat} {r : Ref} {c : Fld} {i : LItem}

/-! ### Out of the queue -/

/-- The queue's only reference taken out. -/
theorem State.unqueue_single (hone : s.queueOf q = [r]) :
    s.unqueue q r true = ((s.setQueue q []).judgeBP q).mirrorKeys := by
  simp [State.unqueue, hone]

theorem aside_unqueue_single (hq : q < 16384) (hone : s.queueOf q = [r]) :
    Aside (withQueue s q []) (s.unqueue q r true) := by
  rw [State.unqueue_single hone]
  exact ((aside_setQueue hq []).trans (aside_judgeBP hq)).trans aside_mirrorKeys

theorem steady_unqueue_single (hq : q < 16384) (hone : s.queueOf q = [r]) :
    (s.unqueue q r true).steady = (withQueue s q []).steady := by
  rw [State.unqueue_single hone, steady_mirrorKeys, steady_judgeBP hq, steady_setQueue hq]

theorem withQueue_nil_queueOf : (withQueue s q []).queueOf q = [] := by
  simp [withQueue, State.queueOf]

/-! ### Counted (R140, R141) -/

/-- A refusal counted: at the queue, at the flow, and in a counter of page 0x0A1. -/
def refusalCounted (s : State) (q : Nat) (r : Ref) (code : Nat) (c : Fld) : State :=
  ((s.inc (queueCtrAt q) (ctr code)).inc (dispCtrAt r.flow) (ctr code)).inc pgBELL c

theorem refusalCounted_del : (refusalCounted s q r code c).del = s.del := by simp [refusalCounted]
theorem refusalCounted_rx : (refusalCounted s q r code c).rx = s.rx := by simp [refusalCounted]
theorem refusalCounted_cells : (refusalCounted s q r code c).cells = s.cells := by simp [refusalCounted]
theorem refusalCounted_conc : (refusalCounted s q r code c).conc = s.conc := by simp [refusalCounted]

theorem refusalCounted_queueOf (n : Nat) : (refusalCounted s q r code c).queueOf n = s.queueOf n := by
  rw [State.queueOf, refusalCounted_del, State.queueOf]

/-- The codes of a reference refused for room or for its expiry, with their counters on page 0x0A1. -/
def RefusalCode (code : Nat) (c : Fld) : Prop :=
  (code = codeFULL ∧ c = BELL_C_REFUSED_FULL) ∨ (code = codeDEAD ∧ c = BELL_C_REFUSED_DEADLINE)

theorem RefusalCode.lt (hc : RefusalCode code c) : code < 8 := by
  rcases hc with ⟨rfl, -⟩ | ⟨rfl, -⟩ <;> decide

theorem RefusalCode.ctr_bounds (hc : RefusalCode code c) : c.off = 8 * code + 0x800 ∧ c.lo = 0 ∧ c.width = 64 := by
  rcases hc with ⟨rfl, rfl⟩ | ⟨rfl, rfl⟩ <;> decide

/-- The three counters of a refusal are apart from any field below the tables. -/
theorem rd_refusalCounted_ne {b : Nat} {f : Fld} (hc : fldKey b f ≠ fldKey pgBELL c) (hb : b < 0x100000)
    (ho : f.off < 0x1000) (hl : f.lo < 64) : (refusalCounted s q r code c).rd b f = s.rd b f := by
  rw [refusalCounted, State.rd_inc_ne hc, State.rd_inc_ne (by simp only [fldKey, dispCtrAt]; omega),
    State.rd_inc_ne (queueCtrKey_ne hb ho hl)]

theorem State.rd_setLed (p b : Nat) (f : Fld) (g : Ledger → Ledger) : (s.setLed p g).rd b f = s.rd b f := rfl
theorem State.items_setLed (p : Nat) (g : Ledger → Ledger) : (s.setLed p g).del.items = s.del.items := rfl
theorem State.queues_setLed (p : Nat) (g : Ledger → Ledger) : (s.setLed p g).del.queues = s.del.queues := rfl
theorem steady_setLed (p : Nat) (g : Ledger → Ledger) : (s.setLed p g).steady = s.steady := rfl

/-- A refusal counted, and entered in the port's ledger. -/
def refusalBooked (s : State) (q : Nat) (r : Ref) (code : Nat) (c : Fld) : State :=
  (refusalCounted s q r code c).setLed (q / 8) (fun g => ledNote g r.flow r.seq code)

theorem refusalBooked_item? (n : Nat) : (refusalBooked s q r code c).item? n = s.item? n := by
  rw [State.item?, refusalBooked, State.items_setLed, refusalCounted_del, State.item?]

theorem refusalBooked_queues : (refusalBooked s q r code c).del.queues = s.del.queues := by
  rw [refusalBooked, State.queues_setLed, refusalCounted_del]

/-- A refusal of an item that no submission waits for is booked, and signalled to its source. -/
theorem State.countDisp_refusal (hc : RefusalCode code c) (hi : s.item? r.handle = some i) (hw : i.wb = none)
    (ht : s.tstate < 2) : s.countDisp q r code 0 = (refusalBooked s q r code c).bpSource q i.item.port code := by
  have hitem : (refusalBooked s q r code c).item? r.handle = some i :=
    (refusalBooked_item? _).trans hi
  have hlog : ((refusalBooked s q r code c).bpSource q i.item.port code).tstate < 2 := by
    rw [State.tstate, (aside_bpSource _ _ _).rd not_resolveCell_tstate, refusalBooked]
    obtain ⟨hoff, hlo, -⟩ := hc.ctr_bounds
    rw [State.rd_setLed, rd_refusalCounted_ne (by simp only [fldKey, pgTWIN, pgBELL]; omega) (by decide) (by decide)
      (by decide)]
    exact ht
  have hlog' := State.log_of_no_twin hlog (.resolve code q r.handle)
  unfold State.countDisp
  rcases hc with ⟨rfl, rfl⟩ | ⟨rfl, rfl⟩ <;>
  · simp only [refusalBooked, refusalCounted, codeFULL, codeDEAD] at hitem hlog' ⊢
    simp only [bellCtr, Nat.reduceLeDiff, decide_false, State.when_false, hitem, hw, if_true]
    exact hlog'

theorem item?_countDisp_refusal (hc : RefusalCode code c) (hi : s.item? r.handle = some i) (hw : i.wb = none)
    (ht : s.tstate < 2) : (s.countDisp q r code 0).item? r.handle = some i := by
  rw [State.countDisp_refusal hc hi hw ht, (aside_bpSource _ _ _).item?, refusalBooked_item?, hi]

theorem steady_countDisp_refusal (hc : RefusalCode code c) (hi : s.item? r.handle = some i) (hw : i.wb = none)
    (ht : s.tstate < 2) : (s.countDisp q r code 0).steady = (refusalCounted s q r code c).steady := by
  rw [State.countDisp_refusal hc hi hw ht, steady_bpSource, refusalBooked, steady_setLed]

/-! ### Refused -/

/-- Queue `q` is empty, the refusal of `r` is counted at the queue, at the flow and in counter `c` of page 0x0A1, and
nothing was received, written to the cellar or offered to concord. -/
structure RefusedAs (s u : State) (q : Nat) (r : Ref) (code : Nat) (c : Fld) : Prop where
  queue : u.queueOf q = []
  atQueue : u.rd (queueCtrAt q) (ctr code) = (s.rd (queueCtrAt q) (ctr code) + 1) % 2 ^ 64
  atFlow : u.rd (dispCtrAt r.flow) (ctr code) = (s.rd (dispCtrAt r.flow) (ctr code) + 1) % 2 ^ 64
  atBell : u.rd pgBELL c = (s.rd pgBELL c + 1) % 2 ^ 64
  rx : u.rx = s.rx
  cells : u.cells = s.cells
  conc : u.conc = s.conc

section
variable (hq : q < 16384) (hf : r.flow < 16384) (hone : s.queueOf q = [r]) (hc : RefusalCode code c)
  (hi : s.item? r.handle = some i) (hw : i.wb = none) (ht : s.tstate < 2)

include hq hone in
theorem item?_unqueue_single (n : Nat) : (s.unqueue q r true).item? n = s.item? n :=
  ((aside_unqueue_single hq hone).item? n).trans (withQueue_item? s q n [])

include hq hone in
theorem tstate_unqueue_single : (s.unqueue q r true).tstate = s.tstate :=
  ((aside_unqueue_single hq hone).rd not_resolveCell_tstate).trans (withQueue_rd s q _ [] _)

include hq hone in
theorem rd_tally_unqueue_single {b : Nat} {f : Fld} (hk : tallyCell (fldKey b f)) :
    (s.unqueue q r true).rd b f = s.rd b f :=
  (rd_of_steady (steady_unqueue_single hq hone) hk).trans (withQueue_rd s q b [] f)

include hq hone hc hi hw ht in
/-- Refusing a queue's only reference leaves steady what counting the refusal alone would. -/
theorem steady_resolve_refusal (hs : r.stat = none) :
    (s.resolve q r code 0 true).steady = (refusalCounted (s.unqueue q r true) q r code c).steady := by
  have hi' := (item?_unqueue_single hq hone r.handle).trans hi
  have ht' := (tstate_unqueue_single hq hone).trans_lt ht
  rw [State.resolve_of_item hs, steady_settle (item?_countDisp_refusal hc hi' hw ht') hw,
    steady_countDisp_refusal hc hi' hw ht']

include hq hf hone hc hi hw ht in
theorem resolve_refusedAs (hs : r.stat = none) : RefusedAs s (s.resolve q r code 0 true) q r code c := by
  have hsteady := steady_resolve_refusal hq hone hc hi hw ht hs
  have hout := steady_unqueue_single hq hone
  have hkeep : ∀ {b : Nat} {f : Fld}, tallyCell (fldKey b f) → (s.unqueue q r true).rd b f = s.rd b f :=
    rd_tally_unqueue_single hq hone
  obtain ⟨hoff, hlo, hwidth⟩ := hc.ctr_bounds
  have hcode := hc.lt
  have hqueue := tallyCell_queueCtr hq hcode
  have hflow := tallyCell_dispCtr hf hcode
  refine ⟨?_, ?_, ?_, ?_, ?_, ?_, ?_⟩
  · rw [queueOf_of_steady hsteady, refusalCounted_queueOf, queueOf_of_steady hout, withQueue_nil_queueOf]
  · rw [rd_of_steady hsteady hqueue, refusalCounted, State.rd_inc_ne (by simp only [fldKey, queueCtrAt, pgBELL, ctr]; omega),
      State.rd_inc_ne (by simp only [fldKey, queueCtrAt, dispCtrAt, ctr]; omega), State.rd_inc_same, hkeep hqueue]
    rfl
  · rw [rd_of_steady hsteady hflow, refusalCounted, State.rd_inc_ne (by simp only [fldKey, dispCtrAt, pgBELL, ctr]; omega),
      State.rd_inc_same, State.rd_inc_ne (by simp only [fldKey, queueCtrAt, dispCtrAt, ctr]; omega), hkeep hflow]
    rfl
  · have hbell : tallyCell (fldKey pgBELL c) := tallyCell_bell (by omega) hlo
    rw [rd_of_steady hsteady hbell, refusalCounted, State.rd_inc_same,
      State.rd_inc_ne (by simp only [fldKey, dispCtrAt, pgBELL]; omega),
      State.rd_inc_ne (by simp only [fldKey, queueCtrAt, pgBELL]; omega), hkeep hbell, hwidth]
  · rw [rx_of_steady hsteady, refusalCounted_rx, rx_of_steady hout]; rfl
  · rw [cells_of_steady hsteady, refusalCounted_cells, cells_of_steady hout]; rfl
  · rw [conc_of_steady hsteady, refusalCounted_conc, conc_of_steady hout]; rfl

include hq hone hc hi hw ht in
/-- The other counters of page 0x0A1 below C_BP_SIG stand. -/
theorem rd_bell_resolve_refusal {f : Fld} (hs : r.stat = none) (ho : 0x800 ≤ f.off ∧ f.off < 0x880) (hl : f.lo = 0)
    (hne : f.off ≠ c.off) : (s.resolve q r code 0 true).rd pgBELL f = s.rd pgBELL f := by
  have hbell : tallyCell (fldKey pgBELL f) := tallyCell_bell ho hl
  obtain ⟨-, hlo, -⟩ := hc.ctr_bounds
  rw [rd_of_steady (steady_resolve_refusal hq hone hc hi hw ht hs) hbell,
    rd_refusalCounted_ne (by simp only [fldKey]; omega) (by decide) (by omega) (by omega),
    rd_tally_unqueue_single hq hone hbell]

end

/-- An item in the larder leaves with its only reference (R24). -/
theorem item?_resolve_refusal (hq : q < 16384) (ho : OnlyRef s q h r) (hc : RefusalCode code c) (hi : s.item? h = some i)
    (hw : i.wb = none) (hj : i.jrnl = true) (hl : i.loc = .larder) (ht : s.tstate < 2) :
    (s.resolve q r code 0 true).item? h = none := by
  have hi' := (item?_unqueue_single hq ho.queueOf r.handle).trans (ho.handle ▸ hi)
  have ht' := (tstate_unqueue_single hq ho.queueOf).trans_lt ht
  have hqueues : ((s.unqueue q r true).countDisp q r code 0).del.queues = [] := by
    rw [State.countDisp_refusal hc hi' hw ht', (aside_bpSource _ _ _).queues, refusalBooked_queues]
    exact (aside_unqueue hq ho).queues.trans (withQueue_nil_queues ho)
  have hnoref : ((s.unqueue q r true).countDisp q r code 0).refsTo h = [] := by simp [State.refsTo, hqueues]
  have hcounted := item?_countDisp_refusal hc hi' hw ht' (q := q)
  rw [ho.handle] at hcounted
  rw [State.resolve_of_item ho.stat, ho.handle]
  exact State.item?_settle_of_done hcounted hw hnoref hj hl

end Sys2Proof.Machine
end

section
/-! PROOF of O28: the timers of delivery (R121, R131, R132, R134, R136, R140, R142). -/

namespace Sys2Proof.Machine

variable {s u : State} {t p q h k e code : Nat} {r : Ref} {i : LItem}

/-! ### Timers of the hub's own (R144) -/

theorem State.follows_of_no_twin (ht : s.tstate < 2) : s.follows = false := by
  simp [State.follows, ht]

theorem State.ownTimers_of_no_twin (ht : s.tstate < 2) : s.ownTimers = true := by
  simp [State.ownTimers, State.follows_of_no_twin ht]

/-! ### An ALIGNED item is fetched (R121) -/

/-- Item `h` on its way back from the cellar, its cells taken. -/
def alignedFetched (s : State) (h : Nat) (i : LItem) : State :=
  ((s.putItem h { i with loc := .fetching }).setCells (s.rd pgLARD LARD_CELLS_USED + itemCells i.item)).add pgLARD
    LARD_C_CELLS_ALLOC (itemCells i.item)

theorem frame_alignedFetched (s : State) (h : Nat) (i : LItem) :
    Frame [(pgLARD, LARD_CELLS_USED), (pgLARD, LARD_RESERVE_ACT), (pgLARD, LARD_C_CELLS_ALLOC)] []
      (s.putItem h { i with loc := .fetching }) (alignedFetched s h i) :=
  frame_add (frame_mono (frame_setCells _ _) (by simp) (by simp)) (by simp)

theorem rd_cellsUsed_alignedFetched (hlt : s.rd pgLARD LARD_CELLS_USED + itemCells i.item < 65536) :
    (alignedFetched s h i).rd pgLARD LARD_CELLS_USED = s.rd pgLARD LARD_CELLS_USED + itemCells i.item := by
  rw [alignedFetched, State.rd_add_ne (by decide), State.rd_cellsUsed_setCells hlt]

/-- Below SPILL_HI nothing spills. -/
theorem State.spillStart_of_low (hsp : s.on pgLARD LARD_SPILLING = false)
    (hlow : s.rd pgLARD LARD_CELLS_USED < s.rd pgLARD LARD_SPILL_HI) : s.spillStart = s := by
  have : ¬ s.rd pgLARD LARD_SPILL_HI ≤ s.rd pgLARD LARD_CELLS_USED := by omega
  simp [State.spillStart, this, State.spillNext_of_calm hsp]

theorem State.fetchBack_of_low (hi : s.item? h = some i) (hl : i.loc = .spilled) (hroom : itemCells i.item ≤ s.cellsFree)
    (hsp : s.on pgLARD LARD_SPILLING = false)
    (hlow : s.rd pgLARD LARD_CELLS_USED + itemCells i.item < s.rd pgLARD LARD_SPILL_HI) :
    s.fetchBack h = alignedFetched s h i := by
  have hframe := frame_alignedFetched s h i
  have hhi : s.rd pgLARD LARD_SPILL_HI < 65536 := s.rd_lt _ _
  have hcalm : (alignedFetched s h i).spillStart = alignedFetched s h i := by
    refine State.spillStart_of_low ((hframe.on (by simpa using by decide) (by simp)).trans hsp) ?_
    rw [rd_cellsUsed_alignedFetched (by omega), hframe.rd (by simpa using by decide) (by simp)]
    exact hlow
  simp only [State.fetchBack, hi, hl, hroom, decide_true, Bool.and_true, beq_self_eq_true, if_true]
  exact hcalm

/-- The port's only reference, ALIGNED and near its release, has its spilled item fetched. -/
theorem State.alignedFetch_near (hone : s.portRefs p = [r]) (hm : r.mode = 1) (hs : r.stat = none)
    (hi : s.item? r.handle = some i) (hl : i.loc = .spilled) (hnear : r.inst ≤ s.time.h + s.lead p + 100 * usU) :
    s.alignedFetch p = s.fetchBack r.handle := by
  have hspill : s.refSpilled r = true := by simp [State.refSpilled, hs, hi, hl]
  simp [State.alignedFetch, hone, hm, hspill, hnear]

/-! ### A NEWEST hold ends (R132) -/

/-- The holds without the key's at a port. -/
def withoutHold (s : State) (p k : Nat) : State :=
  { s with del := { s.del with holds := s.del.holds.filter (fun x => !(x.1 == p && x.2.1 == k)) } }

theorem State.holdEnd_due (he : s.holdOf p k = some e) (hdue : e ≤ s.time.h) (ht : s.tstate < 2) :
    s.holdEnd p k = (withoutHold s p k).fresh.2.mirrorKeys := by
  have hlog : (withoutHold s p k).fresh.2.mirrorKeys.tstate < 2 :=
    (State.rd_wr_ne _ (by decide)).trans_lt ht
  simp only [State.holdEnd, he, State.ownTimers_of_no_twin ht, hdue, decide_true, Bool.and_self, if_true]
  exact State.log_of_no_twin hlog _

theorem holdOf_withoutHold : (withoutHold s p k).holdOf p k = none := by
  simp [State.holdOf, withoutHold, List.find?_eq_none, imp_iff_not_or]

/-! ### Refused by a timer (R134, R136) -/

theorem State.fetchNear_of_empty (hnone : s.queueOf q = []) : s.fetchNear q = s := by
  simp [State.fetchNear, hnone]

theorem State.expire_of_only (ho : OnlyRef s q h r) (hi : s.item? h = some i) (he : itemExpired i.item s.time.h = true)
    (ht : s.tstate < 2) : s.expire h = (s.resolve q r codeDEAD 0 true).fetchNear q := by
  simp [State.expire, hi, he, State.ownTimers_of_no_twin ht, ho.refsTo]

/-- The code of the class bound: by the class's policy. -/
def boundCode (s : State) (q : Nat) : Nat := if s.rd pgBELL (BELL_POLICY.at (q % 8) 4) < 2 then codeDEAD else codeFULL

theorem boundCode_refusal (s : State) (q : Nat) : ∃ c, RefusalCode (boundCode s q) c := by
  unfold boundCode
  split
  · exact ⟨_, .inr ⟨rfl, rfl⟩⟩
  · exact ⟨_, .inl ⟨rfl, rfl⟩⟩

theorem State.bound_due (hone : s.queueOf q = [r]) (hs : r.stat = none) (hi : s.item? r.handle = some i)
    (hclass : q % 8 < 4) (hold : i.born + msU ≤ s.time.clk) (ht : s.tstate < 2) : s.bound q r.handle =
      (((s.inc pgBELL BELL_C_BOUND_REFUSED).resolve q r (boundCode s q) 0 true).fetchNear q).raise 0xA1 2 := by
  simp [State.bound, hone, hs, hi, hclass, hold, State.ownTimers_of_no_twin ht, boundCode]

/-- What holds of a refusal holds of the answer of the command that made it. -/
theorem State.happen_refusedAs {c : Fld} {g : State → State} (hg : RefusedAs (s.at t) (g (s.at t)) q r code c) :
    ∃ u, s.happen t g = .next u ∧ u.regs = (g (s.at t)).regs ∧ u.del = (g (s.at t)).del ∧ RefusedAs s u q r code c :=
  ⟨_, rfl, rfl, rfl, hg.queue, hg.atQueue, hg.atFlow, hg.atBell, hg.rx, hg.cells, hg.conc⟩

theorem expire_refusedAs (hq : q < 16384) (hf : r.flow < 16384) (ho : OnlyRef s q h r) (hi : s.item? h = some i)
    (hw : i.wb = none) (he : itemExpired i.item s.time.h = true) (ht : s.tstate < 2) :
    s.expire h = s.resolve q r codeDEAD 0 true ∧ RefusedAs s (s.expire h) q r codeDEAD BELL_C_REFUSED_DEADLINE := by
  have hres : RefusedAs s (s.resolve q r codeDEAD 0 true) q r codeDEAD BELL_C_REFUSED_DEADLINE :=
    resolve_refusedAs hq hf ho.queueOf (.inr ⟨rfl, rfl⟩) (ho.handle ▸ hi) hw ht ho.stat
  have hexp : s.expire h = s.resolve q r codeDEAD 0 true :=
    (State.expire_of_only ho hi he ht).trans (State.fetchNear_of_empty hres.queue)
  exact ⟨hexp, hexp ▸ hres⟩

/-- A refusal counted beside BOUND_REFUSED, with the event BOUND of page 0x0A1, is a refusal. -/
theorem RefusedAs.bounded {c : Fld} (hc : RefusalCode code c)
    (hres : RefusedAs (s.inc pgBELL BELL_C_BOUND_REFUSED) u q r code c) (hq : q < 16384) (hf : r.flow < 16384) :
    RefusedAs s (u.raise 0xA1 2) q r code c := by
  have hst : (u.raise 0xA1 2).steady = u.steady := steady_raise (.inr rfl)
  have hcode := hc.lt
  obtain ⟨hoff, hlo, -⟩ := hc.ctr_bounds
  refine ⟨(queueOf_of_steady hst).trans hres.queue, ?_, ?_, ?_, (rx_of_steady hst).trans hres.rx,
    (cells_of_steady hst).trans hres.cells, (conc_of_steady hst).trans hres.conc⟩
  · rw [rd_of_steady hst (tallyCell_queueCtr hq hcode), hres.atQueue,
      State.rd_inc_ne (by simp only [fldKey, queueCtrAt, pgBELL, ctr]; omega)]
  · rw [rd_of_steady hst (tallyCell_dispCtr hf hcode), hres.atFlow,
      State.rd_inc_ne (by simp only [fldKey, dispCtrAt, pgBELL, ctr]; omega)]
  · rw [rd_of_steady hst (tallyCell_bell (by omega) hlo), hres.atBell, State.rd_inc_ne (by simp only [fldKey, pgBELL]; omega)]

section
variable (hq : q < 16384) (hf : r.flow < 16384) (hone : s.queueOf q = [r]) (hs : r.stat = none)
  (hi : s.item? r.handle = some i) (hw : i.wb = none) (hclass : q % 8 < 4) (hold : i.born + msU ≤ s.time.clk)
  (ht : s.tstate < 2)
include hq hf hone hs hi hw hclass hold ht

theorem bound_refusedAs : ∃ c, RefusedAs s (s.bound q r.handle) q r (boundCode s q) c ∧
    (s.bound q r.handle).rd pgBELL BELL_C_BOUND_REFUSED = (s.rd pgBELL BELL_C_BOUND_REFUSED + 1) % 2 ^ 64 ∧
    (s.bound q r.handle).pends 0xA1 2 = true := by
  obtain ⟨c, hc⟩ := boundCode_refusal s q
  have ht' : (s.inc pgBELL BELL_C_BOUND_REFUSED).tstate < 2 := (State.rd_inc_ne (by decide)).trans_lt ht
  have hres := resolve_refusedAs (s := s.inc pgBELL BELL_C_BOUND_REFUSED) hq hf hone hc hi hw ht' hs
  have hbound := State.bound_due hone hs hi hclass hold ht
  rw [State.fetchNear_of_empty hres.queue] at hbound
  have hoff : BELL_C_BOUND_REFUSED.off ≠ c.off := by have := hc.ctr_bounds; have := hc.lt; simp only; omega
  refine ⟨c, hbound ▸ hres.bounded hc hq hf, ?_, hbound ▸ pends_raise_self (by decide) (by decide)⟩
  rw [hbound, State.rd_raise (by decide), rd_bell_resolve_refusal (s := s.inc pgBELL BELL_C_BOUND_REFUSED) hq hone hc hi hw
    ht' hs (by decide) rfl hoff, State.rd_inc_same]

end

/-! ### Status boundaries (R142) -/

/-- A boundary's second recorded as taken. -/
def boundaryTaken (s : State) (p sec : Nat) : State := s.setLed p (fun g => { g with lastB := some sec })

theorem State.boundary_silent (hoff : s.on (lportAt p) LPORT_STAT_EN = false) (ht : s.tstate < 2) (sec : Nat) :
    s.boundary p sec = boundaryTaken s p sec := by
  have hlog : ∀ x, (boundaryTaken s p sec).log x = boundaryTaken s p sec := State.log_of_no_twin ht
  have hoff' : (boundaryTaken s p sec).on (lportAt p) LPORT_STAT_EN = false := hoff
  rw [boundaryTaken] at hlog hoff'
  simp [State.boundary, boundaryTaken, hlog, hoff']

theorem State.statBoundary_due (hper : s.rd (lportAt p) LPORT_STAT_PERIOD_S ≠ 0)
    (hsec : secOf s.time.h % s.rd (lportAt p) LPORT_STAT_PERIOD_S = 0)
    (hlater : ∀ b ∈ (s.lisOf p).led.lastB.toList, b < secOf s.time.h) (ht : s.tstate < 2) :
    s.statBoundary p = s.boundary p (secOf s.time.h) := by
  unfold State.statBoundary
  cases hlast : (s.lisOf p).led.lastB with
  | none => simp [State.ownTimers_of_no_twin ht, hper, hsec]
  | some b =>
    have hb : b < secOf s.time.h := hlater b (by simp [hlast])
    simp [State.ownTimers_of_no_twin ht, hper, hsec, hb]

theorem State.statBoundary_idle (h : s.follows = true ∨ s.rd (lportAt p) LPORT_STAT_PERIOD_S = 0 ∨
    secOf s.time.h % s.rd (lportAt p) LPORT_STAT_PERIOD_S ≠ 0) : s.statBoundary p = s := by
  rcases h with h | h | h <;> simp [State.statBoundary, State.ownTimers, h]

/-! ### The clauses -/

/-- Settles O28: each timer's effect is read off its own law, and the two that refuse a queue's only reference off
`RefusedAs`. -/
theorem deliveryTimersResolveReferences : Obligations.DeliveryTimersResolveReferences := by
  unfold Obligations.DeliveryTimersResolveReferences
  refine ⟨?_, ?_, ?_, ?_, ?_, ?_, ?_, ?_⟩
  · intro s t
    exact ⟨_, s.happen_eq rfl rfl rfl, rfl, fun p r hm hdue => by simp [State.alignedDue, hm, hdue]⟩
  · rintro s t p h r i hp ⟨hone, hm, hs, rfl⟩ ⟨hi, hl, hroom⟩ hnear ⟨hsp, -, hlow⟩
    have hframe := frame_alignedFetched (s.at t) r.handle i
    have hact : (s.at t).alignedFetch p = alignedFetched (s.at t) r.handle i :=
      (State.alignedFetch_near (s := s.at t) hone hm hs hi hl hnear).trans
        (State.fetchBack_of_low (s := s.at t) hi hl hroom hsp hlow)
    have hhi : s.rd pgLARD LARD_SPILL_HI < 65536 := s.rd_lt _ _
    rw [exec_alignedFetch, execAlignedFetch, Nat.mod_eq_of_lt hp]
    refine ⟨_, s.happen_eq hact hframe.pending hframe.time, ?_,
      rd_cellsUsed_alignedFetched (s := s.at t) (by rw [State.rd_at]; omega), frame_delBack hframe⟩
    rw [State.item?, hframe.del]
    exact State.item?_putItem_same _ _ _
  · rintro s t p k e hp ⟨he, hdue, ht⟩
    rw [exec_newestHoldEnd, execNewestHoldEnd, Nat.mod_eq_of_lt hp]
    exact ⟨_, s.happen_eq (State.holdEnd_due (s := s.at t) he hdue ht) rfl rfl, holdOf_withoutHold (s := s.at t), rfl,
      frame_wr1 (s.at t) pgBELL BELL_KEYIDX_USED _⟩
  · rintro s t h q r i ⟨hi, hw, hj, hl⟩ ⟨hqueues, hhandle, hs, hq, hf⟩ ⟨he, ht⟩
    have ho : OnlyRef (s.at t) q h r := ⟨hqueues, hhandle, hs⟩
    obtain ⟨hact, hres⟩ := expire_refusedAs hq hf ho hi hw he ht
    obtain ⟨u, hu, -, hdel, href⟩ := State.happen_refusedAs (g := (·.expire h)) hres
    have hgone : u.item? h = none := by
      rw [State.item?, hdel, hact]
      exact item?_resolve_refusal hq ho (.inr ⟨rfl, rfl⟩) hi hw hj hl ht
    exact ⟨u, hu, href.queue, hgone, href.atQueue, href.atBell, href.atFlow, href.rx, href.cells, href.conc⟩
  · rintro s t h i ⟨hi, he⟩
    have hact : (s.at t).expire h = s.at t := by simp [State.expire, he, show (s.at t).item? h = some i from hi]
    rw [exec_deadlineExpiry, execDeadlineExpiry]
    exact ⟨_, s.happen_eq hact rfl rfl, rfl⟩
  · rintro s t q h code r i ⟨hq, hclass, hf⟩ ⟨hone, rfl, hs⟩ ⟨hi, hw, hold, ht⟩ rfl
    obtain ⟨c, hres, hcount, hev⟩ := bound_refusedAs (s := s.at t) hq hf hone hs hi hw hclass (s.at_clk t ▸ hold) ht
    obtain ⟨u, hu, hregs, -, href⟩ := State.happen_refusedAs (g := (·.bound q r.handle)) hres
    rw [exec_classBoundExpiry, execClassBoundExpiry, Nat.mod_eq_of_lt hq]
    exact ⟨u, hu, href.queue, (State.rd_congr hregs _ _).trans hcount, href.atQueue, href.atFlow, pends_congr hregs hev,
      href.rx, href.cells, href.conc⟩
  · rintro s t p hp ⟨ht, hper, hsec⟩ hlater hoff
    have hact : (s.at t).statBoundary p = _ :=
      (State.statBoundary_due (s := s.at t) hper hsec hlater ht).trans (State.boundary_silent (s := s.at t) hoff ht _)
    rw [exec_statusBoundary, execStatusBoundary, Nat.mod_eq_of_lt hp]
    exact ⟨_, s.happen_eq hact rfl rfl, congrArg LisPort.led State.lisOf_setLis, rfl, rfl, rfl⟩
  · rintro s t p hp hidle
    rw [exec_statusBoundary, execStatusBoundary, Nat.mod_eq_of_lt hp]
    exact ⟨_, s.happen_eq (State.statBoundary_idle (s := s.at t) hidle) rfl rfl, rfl⟩

end Sys2Proof.Machine
end

section
/-! SUPPORT. What the time base keeps of domains and PPS lines beside the registers, and how a domain changes its state and
takes a sample, for O35 (R154, R157, R159). -/

namespace Sys2Proof.Machine

variable {fs : List (Nat × Fld)} {ps : List Nat} {s u w : State} {t x v at_ : Nat} {ofs : Int}

/-! ### Frames beside the time base -/

/-- From `s` to `u` the fields listed changed, with what raising events does, and what the time base keeps of its domains
and PPS lines; neither the reference clock nor H moved. -/
structure TimeFrame (fs : List (Nat × Fld)) (ps : List Nat) (s u : State) : Prop where
  frame : Frame fs ps s { u with time := s.time }
  clk : u.time.clk = s.time.clk
  h : u.time.h = s.time.h

theorem TimeFrame.of_frame (hf : Frame fs ps s u) : TimeFrame fs ps s u :=
  have hback : { u with time := s.time } = u := by rw [← hf.time]
  ⟨hback.symm ▸ hf, by rw [hf.time], by rw [hf.time]⟩

theorem TimeFrame.trans (hu : TimeFrame fs ps s u) (hw : TimeFrame fs ps u w) : TimeFrame fs ps s w := by
  obtain ⟨hregs, hrest, hout, hquiet⟩ := hw.frame
  have hback : Frame fs ps { u with time := s.time } { w with time := s.time } :=
    ⟨hregs, congrArg (fun v : State => { v with time := s.time }) hrest, hout, hquiet⟩
  exact ⟨frame_trans hu.frame hback, hw.clk.trans hu.clk, hw.h.trans hu.h⟩

/-- What the time base keeps of domains and PPS lines may change. -/
theorem timeFrame_time {b : TimeBase} (hclk : b.clk = s.time.clk) (hh : b.h = s.time.h) :
    TimeFrame fs ps s { s with time := b } := ⟨frame_refl _ _ _, hclk, hh⟩

theorem timeFrame_setDom (d : Dom) : TimeFrame fs ps s (s.setDom x d) :=
  timeFrame_time (by split <;> rfl) (by split <;> rfl)

/-- A command whose effect stays within such a frame answers that effect. -/
theorem State.happen_timeFrame {g : State → State} (hg : g (s.at t) = u) (hu : TimeFrame fs ps (s.at t) u) :
    s.happen t g = .next u := by
  have hpend : u.pending = s.pending := hu.frame.pending
  unfold State.happen
  simp only [hg]
  rw [← hu.clk, ← hpend]

/-- A block register write that reaches its page happens as its own effect. -/
theorem State.happen_blkGuard {p : Nat} {c : Bool} (hreach : s.reaches p c) (t : Nat) (f : State → State) :
    s.happen t (·.blkGuard p c f) = s.happen t f := by
  simp only [State.happen, State.blkGuard_reaches (State.reaches_at.2 hreach)]

/-! ### Domains -/

@[simp] theorem State.dom_setDom_same (s : State) (x : Nat) (d : Dom) : (s.setDom x d).dom x = d := by
  by_cases hx : x = 0 <;> simp [State.dom, State.setDom, hx]

theorem Frame.dom (hf : Frame fs ps s u) : u.dom x = s.dom x := by simp only [State.dom, hf.time]

/-- The counter of samples used. -/
abbrev smpCtr (x : Nat) : Fld := if x = 0 then TIME_C_SMP_A else TIME_C_SMP_B

/-- A domain's state, its offset and its counter lie in cells of their own, which no event of page 0x006 writes. -/
theorem domCells (hx : x < 2) :
    (fldKey pgTIME (stateFld x) ≠ fldKey pgTIME (smpCtr x) ∧
      fldKey pgTIME (domF TIME_DOM_OFS x) ≠ fldKey pgTIME (smpCtr x) ∧
      fldKey pgTIME (domF TIME_DOM_OFS x) ≠ fldKey pgTIME (stateFld x)) ∧
    evtKey 6 (fldKey pgTIME (stateFld x)) = false ∧ evtKey 6 (fldKey pgTIME (domF TIME_DOM_OFS x)) = false ∧
    evtKey 6 (fldKey pgTIME (smpCtr x)) = false := by
  revert x; decide

/-! ### A change of state other than to LOCKED (R157) -/

theorem State.setDomState_same (hs : s.domState x = v) : s.setDomState x v = s := if_pos hs

theorem State.setDomState_of_ne (hs : s.domState x ≠ v) (hv : v ≠ 2) :
    s.setDomState x v = (s.wr pgTIME (stateFld x) v).raise 6 (3 + x) := by
  have hlock : (v == 2) = false := beq_false_of_ne hv
  simp [State.setDomState, hs, hv, hlock]

theorem frame_setDomState (hv : v ≠ 2) : Frame [(pgTIME, stateFld x)] [6] s (s.setDomState x v) := by
  by_cases hs : s.domState x = v
  · rw [State.setDomState_same hs]; exact frame_refl _ _ _
  · rw [State.setDomState_of_ne hs hv]
    exact frame_raise (frame_wr (frame_refl _ _ _) (by simp)) (by simp)

theorem State.domState_setDomState (hx : x < 2) (hv : v ≠ 2) (hlt : v < 8) : (s.setDomState x v).domState x = v := by
  obtain ⟨-, hevt, -⟩ := domCells hx
  have hwidth : (stateFld x).width = 3 := by unfold stateFld; split <;> rfl
  by_cases hs : s.domState x = v
  · rw [State.setDomState_same hs, hs]
  · rw [State.setDomState_of_ne hs hv, State.domState, State.rd_raise hevt, State.rd_wr_same, hwidth]
    exact Nat.mod_eq_of_lt hlt

theorem pends_setDomState (hx : x < 2) (hs : s.domState x ≠ v) (hv : v ≠ 2) :
    (s.setDomState x v).pends 6 (3 + x) = true := by
  rw [State.setDomState_of_ne hs hv]
  exact pends_raise_self (by decide) (by omega)

theorem timeFrame_setDomState (hv : v ≠ 2) : TimeFrame [(pgTIME, stateFld x)] [6] s (s.setDomState x v) :=
  .of_frame (frame_setDomState hv)

/-! ### UNLOCKED (R157) -/

theorem timeFrame_unlock : TimeFrame [(pgTIME, stateFld x)] [6] s (s.unlock x) :=
  (timeFrame_setDom _).trans (timeFrame_setDomState (by decide))

theorem State.domState_unlock (hx : x < 2) : (s.unlock x).domState x = 0 :=
  State.domState_setDomState hx (by decide) (by decide)

/-- The model of the domain starts anew, but for the last sample's instant. -/
theorem State.dom_unlock :
    (s.unlock x).dom x = { Dom.fresh with heard := s.time.clk, last := (s.dom x).last } :=
  (frame_setDomState (by decide)).dom.trans (State.dom_setDom_same _ _ _)

theorem State.last_unlock : ((s.unlock x).dom x).last = (s.dom x).last := by
  rw [State.dom_unlock]

/-- A domain that was not UNLOCKED raises its state event. -/
theorem pends_unlock (hx : x < 2) (hs : s.domState x ≠ 0) : (s.unlock x).pends 6 (3 + x) = true :=
  pends_setDomState hx (s := s.setDom x _) hs (by decide)

/-! ### Samples missing (R157) -/

/-- UNLOCKED from ACQUIRING, HOLDOVER from LOCKED. -/
def samplesMissed (s : State) (x : Nat) : State :=
  if s.domState x = 1 then s.unlock x else if s.domState x = 2 then s.setDomState x 3 else s

theorem timeFrame_samplesMissed : TimeFrame [(pgTIME, stateFld x)] [6] s (samplesMissed s x) := by
  unfold samplesMissed
  split
  · exact timeFrame_unlock
  · split
    · exact timeFrame_setDomState (by decide)
    · exact .of_frame (frame_refl _ _ _)

theorem State.domState_samplesMissed (hx : x < 2) :
    (samplesMissed s x).domState x =
      if s.domState x = 1 then 0 else if s.domState x = 2 then 3 else s.domState x := by
  unfold samplesMissed
  split
  · exact State.domState_unlock hx
  · split
    · exact State.domState_setDomState hx (by decide) (by decide)
    · rfl

theorem pends_samplesMissed (hx : x < 2) (hs : s.domState x = 1 ∨ s.domState x = 2) :
    (samplesMissed s x).pends 6 (3 + x) = true := by
  rcases hs with hs | hs
  · rw [samplesMissed, if_pos hs]
    exact pends_unlock hx (by simp [hs])
  · rw [samplesMissed, if_neg (by simp [hs]), if_pos hs]
    exact pends_setDomState hx (by simp [hs]) (by decide)

/-! ### The sample that sets OFS (R157) -/

/-- The domain's offset set, and its model started anew. -/
def offsetSet (s : State) (x : Nat) (ofs : Int) : State :=
  let u := (s.setDom x { s.dom x with heard := s.time.clk }).setOfs x ofs
  u.setDom x { u.dom x with good := 0, outl := 0, setNext := false }

/-- ACQUIRING by a sample taken at instant `at_` of H, which is counted. -/
def acquiredBy (s : State) (x at_ : Nat) (ofs : Int) : State :=
  let u := (offsetSet s x ofs).setDomState x 1
  (u.setDom x { u.dom x with last := some at_ }).inc pgTIME (smpCtr x)

theorem State.sample_of_unlocked (hs : s.domState x = 0) : s.sample x at_ ofs = acquiredBy s x at_ ofs := by
  have hs' : (s.setDom x { s.dom x with heard := s.time.clk }).domState x = 0 := hs
  unfold State.sample
  simp only [hs']
  rfl

theorem timeFrame_acquiredBy :
    TimeFrame [(pgTIME, stateFld x), (pgTIME, domF TIME_DOM_OFS x), (pgTIME, smpCtr x)] [6] s (acquiredBy s x at_ ofs) := by
  have hofs := (timeFrame_setDom (fs := [(pgTIME, stateFld x), (pgTIME, domF TIME_DOM_OFS x), (pgTIME, smpCtr x)])
    (ps := [6]) (s := s) (x := x) { s.dom x with heard := s.time.clk }).trans
      (.of_frame (frame_wrI (v := ofs) (frame_refl _ _ _) (b := pgTIME) (f := domF TIME_DOM_OFS x) (by simp)))
  have hstate : TimeFrame [(pgTIME, stateFld x), (pgTIME, domF TIME_DOM_OFS x), (pgTIME, smpCtr x)] [6] _
      ((offsetSet s x ofs).setDomState x 1) := .of_frame (frame_mono (frame_setDomState (by decide)) (by simp) (by simp))
  exact (((hofs.trans (timeFrame_setDom _)).trans hstate).trans (timeFrame_setDom _)).trans
    (.of_frame (frame_inc (frame_refl _ _ _) (by simp)))

theorem State.domState_acquiredBy (hx : x < 2) : (acquiredBy s x at_ ofs).domState x = 1 := by
  obtain ⟨⟨hctr, -, -⟩, -⟩ := domCells hx
  exact (State.rd_inc_ne hctr).trans (State.domState_setDomState (s := offsetSet s x ofs) hx (by decide) (by decide))

theorem State.last_acquiredBy : ((acquiredBy s x at_ ofs).dom x).last = some at_ :=
  congrArg Dom.last (State.dom_setDom_same ((offsetSet s x ofs).setDomState x 1) x _)

theorem pends_acquiredBy (hx : x < 2) (hs : s.domState x = 0) : (acquiredBy s x at_ ofs).pends 6 (3 + x) = true := by
  obtain ⟨⟨-, -, hofs⟩, -, -, hevt⟩ := domCells hx
  have hne : (offsetSet s x ofs).domState x ≠ 1 := by
    rw [show (offsetSet s x ofs).domState x = s.domState x from State.rd_wr_ne s hofs.symm, hs]; decide
  exact pends_wr (evtKey_cases hevt).1.symm (pends_setDomState (s := offsetSet s x ofs) hx hne (by decide))

theorem State.rd_ofs_acquiredBy (hx : x < 2) :
    (acquiredBy s x at_ ofs).rd pgTIME (domF TIME_DOM_OFS x) = ofSigned 64 ofs % 2 ^ 64 := by
  obtain ⟨⟨-, hctr, hstate⟩, -, hevt, -⟩ := domCells hx
  calc (acquiredBy s x at_ ofs).rd pgTIME (domF TIME_DOM_OFS x)
      = ((offsetSet s x ofs).setDomState x 1).rd pgTIME (domF TIME_DOM_OFS x) := State.rd_inc_ne hctr
    _ = (offsetSet s x ofs).rd pgTIME (domF TIME_DOM_OFS x) :=
        (frame_setDomState (by decide)).rd (by simpa using hstate) (by simpa using hevt)
    _ = ofSigned 64 ofs % 2 ^ 64 := State.rd_wr_same s pgTIME (domF TIME_DOM_OFS x) (ofSigned 64 ofs)

theorem State.rd_smpCtr_acquiredBy (hx : x < 2) :
    (acquiredBy s x at_ ofs).rd pgTIME (smpCtr x) = (s.rd pgTIME (smpCtr x) + 1) % 2 ^ 64 := by
  obtain ⟨⟨hstate, hofs, -⟩, -, -, hevt⟩ := domCells hx
  have hwidth : (smpCtr x).width = 64 := by unfold smpCtr; split <;> rfl
  have hkept : ((offsetSet s x ofs).setDomState x 1).rd pgTIME (smpCtr x) = s.rd pgTIME (smpCtr x) :=
    ((frame_setDomState (by decide)).rd (by simpa using hstate.symm) (by simpa using hevt)).trans
      (State.rd_wr_ne s hofs.symm)
  rw [acquiredBy, State.rd_inc_same, hwidth]
  exact congrArg (fun n => (n + 1) % 2 ^ 64) hkept

/-! ### SMP_GO (R159) -/

theorem State.smpGo_illegal (hns : 1000000000 ≤ s.rd pgTIME (domF TIME_DOM_SMP_NS x)) :
    s.smpGo x = s.refuse 6 errILLEGAL := if_pos hns

/-- The instant of the sample that SMP_GO hands over. -/
def smpInstant (s : State) (x : Nat) : Nat :=
  instant (s.rd pgTIME (domF TIME_DOM_SMP_S x)) (s.rd pgTIME (domF TIME_DOM_SMP_NS x)) 0

/-- A sample of the future is stale. -/
theorem State.smpGo_future (hns : s.rd pgTIME (domF TIME_DOM_SMP_NS x) < 1000000000)
    (hsrc : s.rd pgTIME (domF TIME_DOM_SRC x) = 3) (hlate : s.time.h < smpInstant s x) :
    s.smpGo x = s.inc pgTIME TIME_C_STALE_SMP := by
  have hns' := Nat.not_le_of_gt hns
  rw [smpInstant] at hlate
  simp [State.smpGo, hns', hsrc, hlate]

/-- A domain's first sample, neither of the future nor older than 2 s, is used. -/
theorem State.smpGo_first (hns : s.rd pgTIME (domF TIME_DOM_SMP_NS x) < 1000000000)
    (hsrc : s.rd pgTIME (domF TIME_DOM_SRC x) = 3) (hyoung : s.time.h ≤ smpInstant s x + 2 * secU)
    (hpast : smpInstant s x ≤ s.time.h) (hlast : (s.dom x).last = none) :
    s.smpGo x = s.sample x (smpInstant s x)
      (s.rdI pgTIME (domF TIME_DOM_SMP_OFS x) * 65536 + s.rd pgTIME (domF TIME_DOM_SMP_FRAC x)) := by
  have hns' := Nat.not_le_of_gt hns
  have hyoung' := Nat.not_lt_of_ge hyoung
  have hpast' := Nat.not_lt_of_ge hpast
  rw [smpInstant] at hyoung' hpast'
  simp [State.smpGo, hns', hsrc, hyoung', hpast', hlast, smpInstant]

end Sys2Proof.Machine
end

section
/-! SUPPORT. PPS inputs and outputs, for O35 (R165, R166). -/

namespace Sys2Proof.Machine

variable {s : State} {n g l : Nat} {rising short : Bool}

/-! ### An edge that counts for nothing -/

theorem State.ppsEdge_ignored (h : s.on pgTIME (ppsF TIME_PPSI_EN n) = false ∨ short = true) :
    s.ppsEdge n rising short = s := by
  rcases h with h | h <;> simp [State.ppsEdge, h]

/-- An edge less than half a second after the last is extra. -/
theorem State.ppsEdge_extra (hen : s.on pgTIME (ppsF TIME_PPSI_EN n) = true) (hlast : tabGet? s.time.ppsAt n = some l)
    (hsoon : s.time.clk < l + secU / 2) :
    s.ppsEdge n (!s.on pgTIME (ppsF TIME_PPSI_FALL n)) false = s.inc pgTIME TIME_C_PPS_EXTRA := by
  simp [State.ppsEdge, hen, hlast, hsoon]

/-! ### An edge captured (R165) -/

/-- The counter of an input's edges. -/
abbrev edgeCtr (n : Nat) : Fld := if n = 0 then TIME_C_PPS_EDGES0 else TIME_C_PPS_EDGES1

/-- The fields that show an input's last edge. -/
abbrev captureFields (n : Nat) : List (Nat × Fld) :=
  [(pgTIME, ppsF TIME_PPSI_LAST_S n), (pgTIME, ppsF TIME_PPSI_LAST_NS n), (pgTIME, ppsF TIME_PPSI_LAST_FRAC n),
   (pgTIME, edgeCtr n)]

/-- The instant of H at which an edge entered the cable that brings it. -/
def edgeInstant (s : State) (n : Nat) : Nat := s.time.h - s.rd pgTIME (ppsF TIME_PPSI_CABLE_NS n) * nsU

/-- An edge accepted: it ends the input's gap. -/
def edgeAccepted (s : State) (n : Nat) : State :=
  { s with time := { s.time with ppsAt := tabPut s.time.ppsAt n s.time.clk, ppsGap := s.time.ppsGap.filter (· != n) } }

/-- An edge accepted, counted and captured. -/
def edgeCaptured (s : State) (n : Nat) : State :=
  ((((edgeAccepted s n).inc pgTIME (edgeCtr n)).wr pgTIME (ppsF TIME_PPSI_LAST_S n) (secOf (edgeInstant s n))).wr pgTIME
    (ppsF TIME_PPSI_LAST_NS n) (nsOf (edgeInstant s n))).wr pgTIME (ppsF TIME_PPSI_LAST_FRAC n) (fracOf (edgeInstant s n))

theorem frame_edgeCaptured : Frame (captureFields n) [] (edgeAccepted s n) (edgeCaptured s n) :=
  frame_wr (frame_wr (frame_wr (frame_inc (frame_refl _ _ _) (by simp)) (by simp)) (by simp)) (by simp)

theorem timeFrame_edgeCaptured : TimeFrame (captureFields n) [] s (edgeCaptured s n) :=
  have haccepted : TimeFrame (captureFields n) [] s (edgeAccepted s n) := timeFrame_time rfl rfl
  haccepted.trans (.of_frame frame_edgeCaptured)

/-- The cells of an edge's capture are not those of its counter, nor of the domains' sources. -/
theorem captureCells (hn : n < 2) :
    (∀ x ∈ captureFields n, fldKey pgTIME (domF TIME_DOM_SRC 0) ≠ fldKey x.1 x.2 ∧
      fldKey pgTIME (domF TIME_DOM_SRC 1) ≠ fldKey x.1 x.2) ∧
    (∀ f ∈ [TIME_PPSI_LAST_S, TIME_PPSI_LAST_NS, TIME_PPSI_LAST_FRAC],
      fldKey pgTIME (edgeCtr n) ≠ fldKey pgTIME (ppsF f n)) ∧
    fldKey pgTIME (ppsF TIME_PPSI_LAST_NS n) ≠ fldKey pgTIME (ppsF TIME_PPSI_LAST_FRAC n) := by
  revert n; decide

theorem State.rd_lastNs_edgeCaptured (hn : n < 2) :
    (edgeCaptured s n).rd pgTIME (ppsF TIME_PPSI_LAST_NS n) = nsOf (edgeInstant s n) := by
  obtain ⟨-, -, hfrac⟩ := captureCells hn
  have hlt : nsOf (edgeInstant s n) < 2 ^ 32 := by unfold nsOf; omega
  exact (State.rd_wr_ne _ hfrac).trans ((State.rd_wr_same _ _ _ _).trans (Nat.mod_eq_of_lt hlt))

theorem State.rd_lastFrac_edgeCaptured :
    (edgeCaptured s n).rd pgTIME (ppsF TIME_PPSI_LAST_FRAC n) = fracOf (edgeInstant s n) := by
  have hlt : fracOf (edgeInstant s n) < 2 ^ 16 := by unfold fracOf nsU; omega
  exact (State.rd_wr_same _ _ _ _).trans (Nat.mod_eq_of_lt hlt)

theorem State.rd_edgeCtr_edgeCaptured (hn : n < 2) :
    (edgeCaptured s n).rd pgTIME (edgeCtr n) = (s.rd pgTIME (edgeCtr n) + 1) % 2 ^ 64 := by
  obtain ⟨-, hkeys, -⟩ := captureCells hn
  have hwidth : (edgeCtr n).width = 64 := by unfold edgeCtr; split <;> rfl
  rw [edgeCaptured, State.rd_wr_ne _ (hkeys _ (by simp)), State.rd_wr_ne _ (hkeys _ (by simp)),
    State.rd_wr_ne _ (hkeys _ (by simp)), State.rd_inc_same, hwidth]
  rfl

theorem State.ppsAt_edgeCaptured : tabGet? (edgeCaptured s n).time.ppsAt n = some s.time.clk := tabGet?_tabPut_same

/-- Domain `x` takes an edge of instant `t0` as a sample when input `n` is its source (R159). -/
def takeEdge (n t0 : Nat) (s : State) (x : Nat) : State :=
  if s.rd pgTIME (domF TIME_DOM_SRC x) = n + 1 then s.ppsSample x t0 else s

/-- An edge of the enabled polarity, not too early, is captured and offered to both domains. -/
theorem State.ppsEdge_late (hen : s.on pgTIME (ppsF TIME_PPSI_EN n) = true)
    (hlate : ∀ l ∈ (tabGet? s.time.ppsAt n).toList, l + secU / 2 ≤ s.time.clk) :
    s.ppsEdge n (!s.on pgTIME (ppsF TIME_PPSI_FALL n)) false =
      (edgeCaptured s n).each [0, 1] (takeEdge n (edgeInstant s n)) := by
  rw [State.ppsEdge, if_neg (by simp [hen])]
  cases hlast : tabGet? s.time.ppsAt n with
  | none => rfl
  | some l =>
    have hl : ¬ s.time.clk < l + secU / 2 := Nat.not_lt_of_ge (hlate l (by simp [hlast]))
    simp only [decide_eq_false hl]
    rfl

/-- An edge that is no domain's source is captured alone. -/
theorem State.each_takeEdge_unused {t0 : Nat} (hn : n < 2) (hA : s.rd pgTIME (domF TIME_DOM_SRC 0) ≠ n + 1)
    (hB : s.rd pgTIME (domF TIME_DOM_SRC 1) ≠ n + 1) :
    (edgeCaptured s n).each [0, 1] (takeEdge n t0) = edgeCaptured s n := by
  obtain ⟨hsrc, -, -⟩ := captureCells hn
  have hA' : (edgeCaptured s n).rd pgTIME (domF TIME_DOM_SRC 0) ≠ n + 1 :=
    ne_of_eq_of_ne (frame_edgeCaptured.rd (fun x hx => (hsrc x hx).1) (by simp)) hA
  have hB' : (edgeCaptured s n).rd pgTIME (domF TIME_DOM_SRC 1) ≠ n + 1 :=
    ne_of_eq_of_ne (frame_edgeCaptured.rd (fun x hx => (hsrc x hx).2) (by simp)) hB
  simp only [State.each_cons, State.each_nil, takeEdge, hA', hB', if_false]

/-! ### Edges missing (R165) -/

/-- The present gap of an input noted. -/
def gapNoted (s : State) (n : Nat) : State := { s with time := { s.time with ppsGap := n :: s.time.ppsGap } }

/-- A gap noted and counted, with its event. -/
def gapCounted (s : State) (n : Nat) : State := ((gapNoted s n).inc pgTIME TIME_C_PPS_MISS).raise 6 7

theorem frame_gapCounted : Frame [(pgTIME, TIME_C_PPS_MISS)] [6] (gapNoted s n) (gapCounted s n) :=
  frame_raise (frame_inc (frame_refl _ _ _) (by simp)) (by simp)

theorem timeFrame_gapCounted : TimeFrame [(pgTIME, TIME_C_PPS_MISS)] [6] s (gapCounted s n) :=
  have hnoted : TimeFrame [(pgTIME, TIME_C_PPS_MISS)] [6] s (gapNoted s n) := timeFrame_time rfl rfl
  hnoted.trans (.of_frame frame_gapCounted)

theorem State.ppsGap_gapCounted : (gapCounted s n).time.ppsGap.contains n = true := by
  rw [frame_gapCounted.time]; simp [gapNoted]

theorem State.rd_miss_gapCounted :
    (gapCounted s n).rd pgTIME TIME_C_PPS_MISS = (s.rd pgTIME TIME_C_PPS_MISS + 1) % 2 ^ 64 :=
  (State.rd_raise (by decide) _).trans State.rd_inc_same

theorem pends_gapCounted : (gapCounted s n).pends 6 7 = true := pends_raise_self (by decide) (by decide)

/-! ### Outputs (R166) -/

theorem mem_insertNat_self (n : Nat) (l : List Nat) : n ∈ insertNat n l := by
  induction l with
  | nil => simp [insertNat]
  | cons m l ih =>
    rw [insertNat]
    split
    · simp
    · split
      · simp [*]
      · exact .tail _ ih

/-- The output waits for a whole second of its source. -/
def pulseWaits (s : State) (n : Nat) : State :=
  { s with time := { s.time with ppsWait := insertNat n s.time.ppsWait } }

theorem timeFrame_pulseWaits : TimeFrame [] [] s (pulseWaits s n) := timeFrame_time rfl rfl

theorem State.ppsWait_pulseWaits : (pulseWaits s n).time.ppsWait.contains n = true :=
  List.contains_iff_mem.2 (mem_insertNat_self _ _)

/-- The pulse of an output whose source is H, due when H reaches `g` ns. -/
def pulseOfH (s : State) (n g : Nat) : Emission :=
  .ppsPulse n ((g * nsU : Int) - s.rdI pgTIME (ppsF TIME_PPSO_ADV_NS n) * nsU).toNat
    (s.rd pgTIME (ppsF TIME_PPSO_WIDTH_NS n)) (s.rd pgTIME (ppsF TIME_PPSO_POL n) == 0)

/-- The pulse leaves the device, and the output waits for nothing. -/
def pulseSent (s : State) (n g : Nat) : State :=
  { s with time := { s.time with ppsWait := s.time.ppsWait.filter (· != n) }, out := s.out ++ [pulseOfH s n g] }

section
variable (hen : s.on pgTIME (ppsF TIME_PPSO_EN n) = true) (hvalid : s.on pgTIME TIME_H_VALID = true)
include hen hvalid

theorem State.ppsPulse_waits (hgate : s.ppsGate n = false) : s.ppsPulse n g = pulseWaits s n := by
  simp [State.ppsPulse, hen, hvalid, hgate, pulseWaits]

theorem State.ppsPulse_sent (hgate : s.ppsGate n = true) (hsrc : s.rd pgTIME (ppsF TIME_PPSO_SRC n) = 0)
    (hmult : g % 1000000000 % s.rd pgTIME (ppsF TIME_PPSO_PERIOD_NS n) = 0) (hwait : s.time.ppsWait.contains n = false)
    (hjtag : s.sys.jtag = false) (hbank : s.sys.banksOff.testBit 1 = false) : s.ppsPulse n g = pulseSent s n g := by
  have hball : ∀ (u : State) a b c, u.sys = s.sys → u.ballOff (.ppsPulse n a b c) = false := fun u a b c hu => by
    simp [State.ballOff, hu, hjtag, hbank]
  have hwait' : n ∉ s.time.ppsWait := by simpa using hwait
  simp [State.ppsPulse, hen, hvalid, hgate, hsrc, hmult, hwait', State.emit, hball, pulseSent, pulseOfH]

end

end Sys2Proof.Machine
end

section
/-! PROOF of O35: samples and missing samples of a domain, PPS edges and PPS pulses (R156, R157, R159, R160, R165, R166). -/

namespace Sys2Proof.Machine

variable {s : State} {t x n : Nat}

/-! ### Commands of the two domains -/

theorem exec_smpGo_reaches (hx : x < 2) (hreach : s.reaches 6 false) :
    exec (.smpGo t x) s = s.happen t (·.smpGo x) := by
  rw [exec_smpGo, execSmpGo, Nat.mod_eq_of_lt hx, State.happen_blkGuard hreach]

theorem exec_dreset_reaches (hx : x < 2) (hreach : s.reaches 6 false) :
    exec (.dreset t x) s = .next ((s.at t).unlock x) := by
  rw [exec_dreset, execDreset, Nat.mod_eq_of_lt hx, State.happen_blkGuard hreach]
  exact State.happen_timeFrame rfl timeFrame_unlock

theorem exec_domainMissTimeout_due (hx : x < 2)
    (hdue : (s.dom x).heard + s.rd pgTIME (domF TIME_DOM_MISS_MS x) * msU ≤ max s.time.clk t) :
    exec (.domainMissTimeout t x) s = .next (samplesMissed (s.at t) x) := by
  have hdue' : ¬ (s.at t).time.clk < (s.dom x).heard + s.rd pgTIME (domF TIME_DOM_MISS_MS x) * msU := by
    rw [State.at_clk]; exact Nat.not_lt_of_ge hdue
  rw [exec_domainMissTimeout, execDomainMissTimeout, Nat.mod_eq_of_lt hx]
  exact State.happen_timeFrame (if_neg hdue') timeFrame_samplesMissed

/-! ### Commands of the PPS lines -/

theorem exec_ppsMiss_due (hn : n < 2) (hen : s.on pgTIME (ppsF TIME_PPSI_EN n) = true)
    (hgap : s.time.ppsGap.contains n = false)
    (hdue : (tabGet? s.time.ppsAt n).getD s.time.relClk + 3 * secU / 2 ≤ max s.time.clk t) :
    exec (.ppsMiss t n) s = .next (gapCounted (s.at t) n) := by
  have hdue' : (tabGet? s.time.ppsAt n).getD s.time.relClk + 3 * secU / 2 ≤ (s.at t).time.clk := by
    rw [State.at_clk]; exact hdue
  have hcond : (s.on pgTIME (ppsF TIME_PPSI_EN n) && !s.time.ppsGap.contains n &&
      decide ((tabGet? s.time.ppsAt n).getD s.time.relClk + 3 * secU / 2 ≤ (s.at t).time.clk)) = true := by
    simp only [hen, hgap, hdue']; decide
  rw [exec_ppsMiss, execPpsMiss, Nat.mod_eq_of_lt hn]
  exact State.happen_timeFrame (if_pos hcond) timeFrame_gapCounted

theorem exec_ppsMiss_counted (hn : n < 2) (hgap : s.time.ppsGap.contains n = true) :
    exec (.ppsMiss t n) s = .next (s.at t) := by
  have hcond (c d : Bool) : ¬ (c && !s.time.ppsGap.contains n && d) = true := by simp only [hgap]; simp
  rw [exec_ppsMiss, execPpsMiss, Nat.mod_eq_of_lt hn]
  exact State.happen_eq s (if_neg (hcond _ _)) rfl rfl

/-! ### The clauses -/

/-- Settles O35: each command is its named effect, whose frame and fields are read off its own laws. -/
theorem domainSamplesAndPulsePerSecond : Obligations.DomainSamplesAndPulsePerSecond := by
  unfold Obligations.DomainSamplesAndPulsePerSecond
  refine ⟨?_, ?_, ?_, ?_, ?_, ?_, ?_, ?_, ?_, ?_, ?_, ?_⟩
  · rintro s t x a ⟨hx, hreach, hs, hsrc⟩ hns rfl ⟨hyoung, hpast, hlast⟩
    have hlast' : ((s.at t).dom x).last = none := hlast
    have hact := (State.smpGo_first (s := s.at t) hns hsrc hyoung hpast hlast').trans (State.sample_of_unlocked hs)
    rw [exec_smpGo_reaches hx hreach]
    exact ⟨_, State.happen_timeFrame hact timeFrame_acquiredBy, State.domState_acquiredBy hx, State.last_acquiredBy,
      pends_acquiredBy hx hs, State.rd_ofs_acquiredBy hx, timeFrame_acquiredBy.h, State.rd_smpCtr_acquiredBy hx,
      timeFrame_acquiredBy.frame⟩
  · rintro s t x ⟨hx, hreach, hsrc⟩ ⟨hns, hlate⟩
    have hact := State.smpGo_future (s := s.at t) hns hsrc hlate
    rw [exec_smpGo_reaches hx hreach]
    exact happen_of (hact ▸ frame_inc (frame_refl _ _ _) (by simp)) (hact ▸ State.rd_inc_same)
  · rintro s t x ⟨hx, hreach, hns⟩
    obtain ⟨u, hu, hframe, herr, -⟩ := State.happen_refuse s (t := t) (p := 6) (c := errILLEGAL) (f := (·.smpGo x))
      (by decide) (by decide) (State.smpGo_illegal (s := s.at t) hns)
    rw [exec_smpGo_reaches hx hreach]
    exact ⟨u, hu, hframe, herr⟩
  · rintro s t x ⟨hx, hdue⟩
    exact ⟨_, exec_domainMissTimeout_due hx hdue, State.domState_samplesMissed hx,
      pends_samplesMissed (s := s.at t) hx, timeFrame_samplesMissed.frame, timeFrame_samplesMissed.h⟩
  · rintro s t x ⟨hx, hreach⟩
    exact ⟨_, exec_dreset_reaches hx hreach, State.domState_unlock hx, congrArg Dom.good State.dom_unlock,
      State.last_unlock, timeFrame_unlock.h, timeFrame_unlock.frame⟩
  · rintro s t n _ ⟨hn, hen, rfl⟩ hlate ⟨hA, hB⟩
    have hlate' : ∀ l ∈ (tabGet? s.time.ppsAt n).toList, l + secU / 2 ≤ (s.at t).time.clk := by
      rw [State.at_clk]; exact hlate
    have hact := (State.ppsEdge_late (s := s.at t) hen hlate').trans (State.each_takeEdge_unused hn hA hB)
    rw [exec_ppsInputEdge, execPpsInputEdge, Nat.mod_eq_of_lt hn]
    have hinst : edgeInstant (s.at t) n = (s.at t).time.h - s.rd pgTIME (ppsF TIME_PPSI_CABLE_NS n) * nsU := by
      rw [edgeInstant, State.rd_at]
    rw [← hinst]
    exact ⟨_, State.happen_timeFrame hact timeFrame_edgeCaptured, State.rd_lastNs_edgeCaptured hn,
      State.rd_lastFrac_edgeCaptured, State.ppsAt_edgeCaptured.trans (congrArg some (s.at_clk t)),
      State.rd_edgeCtr_edgeCaptured hn, timeFrame_edgeCaptured.frame⟩
  · rintro s t n rising short ⟨hn, hoff⟩
    rw [exec_ppsInputEdge, execPpsInputEdge, Nat.mod_eq_of_lt hn]
    exact ⟨_, State.happen_eq s (State.ppsEdge_ignored (s := s.at t) hoff) rfl rfl, rfl⟩
  · rintro s t n l _ ⟨hn, hen, rfl⟩ ⟨hlast, hsoon⟩
    have hact := State.ppsEdge_extra (s := s.at t) hen hlast (by rw [State.at_clk]; exact hsoon)
    rw [exec_ppsInputEdge, execPpsInputEdge, Nat.mod_eq_of_lt hn]
    exact ⟨_, State.happen_eq s hact rfl rfl, frame_wr1 _ _ _ _, State.rd_inc_same⟩
  · rintro s t n ⟨hn, hen, hgap⟩ hdue
    exact ⟨_, exec_ppsMiss_due hn hen hgap hdue, State.ppsGap_gapCounted, State.rd_miss_gapCounted, pends_gapCounted,
      timeFrame_gapCounted.frame⟩
  · rintro s t n ⟨hn, hgap⟩
    exact ⟨_, exec_ppsMiss_counted hn hgap, rfl⟩
  · rintro s t n g ⟨hn, hen, hvalid, hgate⟩ ⟨hsrc, hmult, hwait⟩ ⟨hjtag, hbank⟩
    have hact := State.ppsPulse_sent (s := s.at t) hen hvalid hgate hsrc hmult hwait hjtag hbank
    rw [exec_ppsOutputPulse, execPpsOutputPulse, Nat.mod_eq_of_lt hn, State.happen, hact]
    exact ⟨_, rfl, rfl, rfl, rfl, rfl⟩
  · rintro s t n g ⟨hn, hen, hvalid, hgate⟩
    rw [exec_ppsOutputPulse, execPpsOutputPulse, Nat.mod_eq_of_lt hn]
    exact ⟨_, State.happen_timeFrame (State.ppsPulse_waits (s := s.at t) hen hvalid hgate) timeFrame_pulseWaits,
      State.ppsWait_pulseWaits, rfl, rfl⟩

end Sys2Proof.Machine
end

section
/-! SUPPORT. The hops of the ring as parts of the state, and the frames of a ring port: what they change beside the hops and
what leaves the device (R190, R191, R238). -/

namespace Sys2Proof.Machine

variable {s u w : State} {b p q ft vc lseq : Nat} {f : Fld} {fs : List (Nat × Fld)} {body : List Byte}

/-! ### Hops -/

@[simp] theorem State.hop_setHop_same (s : State) (p : Nat) (h : Hop) : (s.setHop p h).hop p = h := by
  rw [State.hop, State.setHop, tabGet?_tabPut_same, Option.getD_some]

@[simp] theorem State.rd_setHop (s : State) (p : Nat) (h : Hop) : (s.setHop p h).rd b f = s.rd b f := rfl

theorem State.hop_congr (h : u.ring = s.ring) (p : Nat) : u.hop p = s.hop p := by rw [State.hop, h, State.hop]

/-- The effect of one frame sent on a ring port's line: the frame leaves, and the port counts it. -/
theorem State.sendFrame_port (hp : p < 4) (s : State) (ft vc lseq : Nat) (body : List Byte) :
    s.sendFrame p ft vc lseq body =
      State.inc { s with out := s.out ++ [.lineTx p (frameBytes ft vc lseq body)] } (pgRINGP p) RINGP_C_FRAMES_TX :=
  if_pos hp

@[simp] theorem State.sendFrame_ring (s : State) : (s.sendFrame p ft vc lseq body).ring = s.ring := by
  unfold State.sendFrame State.hopInc; split <;> rfl

@[simp] theorem State.sendFrame_hop (s : State) : (s.sendFrame p ft vc lseq body).hop q = s.hop q :=
  State.hop_congr (State.sendFrame_ring s) q

@[simp] theorem State.sendFrame_out (s : State) :
    (s.sendFrame p ft vc lseq body).out = s.out ++ [.lineTx p (frameBytes ft vc lseq body)] := by
  unfold State.sendFrame State.hopInc; split <;> rfl

theorem State.hopInc_port (hp : p < 4) (s : State) (c : Fld) : s.hopInc p c = s.inc (pgRINGP p) c := if_pos hp

/-- Two fields of a ring port's page at different places. -/
theorem ringpKey_ne {g : Fld} (h : 8 * f.off + f.lo ≠ 8 * g.off + g.lo) : fldKey (pgRINGP p) f ≠ fldKey (pgRINGP p) g := by
  simp only [fldKey]; omega

theorem State.rd_sendFrame (hp : p < 4) (h : fldKey b f ≠ fldKey (pgRINGP p) RINGP_C_FRAMES_TX) (s : State) :
    (s.sendFrame p ft vc lseq body).rd b f = s.rd b f := by
  rw [State.sendFrame_port hp]
  exact State.rd_inc_ne h

/-! ### Changes that frames on a line make -/

/-- `u` is `s` but for the fields listed, the ring's own state and what left the device. -/
def LineFrame (fs : List (Nat × Fld)) (s u : State) : Prop := Frame fs [] s { u with ring := s.ring, out := s.out }

theorem LineFrame.refl (fs : List (Nat × Fld)) (s : State) : LineFrame fs s s := frame_refl _ _ s

/-- Only the ring's own state and what left the device changed. -/
theorem LineFrame.same {r : Ring} {o : List Emission} (h : LineFrame fs s u) :
    LineFrame fs s { u with ring := r, out := o } := h

theorem LineFrame.wr {v : Nat} (h : LineFrame fs s u) (hm : (b, f) ∈ fs) : LineFrame fs s (u.wr b f v) :=
  frame_wr (u := { u with ring := s.ring, out := s.out }) h hm

theorem LineFrame.inc (h : LineFrame fs s u) (hm : (b, f) ∈ fs) : LineFrame fs s (u.inc b f) := h.wr hm

theorem LineFrame.setHop {x : Hop} (h : LineFrame fs s u) : LineFrame fs s (u.setHop q x) := h

theorem LineFrame.sendFrame (h : LineFrame fs s u) (hp : p < 4) (hm : (pgRINGP p, RINGP_C_FRAMES_TX) ∈ fs) :
    LineFrame fs s (u.sendFrame p ft vc lseq body) := by
  rw [State.sendFrame_port hp]
  exact h.same.inc hm

theorem LineFrame.rd (h : LineFrame fs s u) (hf : ∀ x ∈ fs, fldKey b f ≠ fldKey x.1 x.2) : u.rd b f = s.rd b f :=
  Frame.rd (u := { u with ring := s.ring, out := s.out }) h hf (by simp)

theorem LineFrame.pending (h : LineFrame fs s u) : u.pending = s.pending :=
  Frame.pending (u := { u with ring := s.ring, out := s.out }) h
theorem LineFrame.time (h : LineFrame fs s u) : u.time = s.time :=
  Frame.time (u := { u with ring := s.ring, out := s.out }) h
theorem LineFrame.del (h : LineFrame fs s u) : u.del = s.del :=
  Frame.del (u := { u with ring := s.ring, out := s.out }) h

theorem LineFrame.regs (h : LineFrame fs s u) : RegsBut fs [] s u := h.1

/-- Where nothing left the device, only the ring's own state lies outside the frame. -/
theorem LineFrame.frame (h : LineFrame fs s u) (ho : u.out = s.out) : Frame fs [] s { u with ring := s.ring } := by
  have hself : ({ u with ring := s.ring } : State) = { u with ring := s.ring, out := s.out } := by rw [← ho]
  rw [hself]
  exact h

/-- A command of a line answers its effect. -/
theorem State.happen_line (s : State) {t : Nat} {g : State → State} (hg : g (s.at t) = u) (h : LineFrame fs (s.at t) u) :
    s.happen t g = .next u :=
  State.happen_eq s hg h.pending h.time

end Sys2Proof.Machine
end

section
/-! SUPPORT. What a frame received or sent on a ring port that is UP does, for O40 (R190, R192, R196, R197, R199, R206). -/

namespace Sys2Proof.Machine

variable {s : State} {p : Nat}

/-! ### DATA frames (R190, R192, R197) -/

/-- The port's hop with a frame in order taken into its channel's buffer. -/
def frameTaken (h : Hop) (vc : Nat) (body : List Byte) : Hop :=
  { h with rxSeq := (h.rxSeq + 1) % 65536, nakAt := none, rxq := h.rxq ++ [(vc, body)] }

/-- Lengths that a DATA frame may have. -/
theorem lenOk_data {n : Nat} (hlo : 8 ≤ n) (hhi : n ≤ 2368) : lenOk 1 n = true := by simp [lenOk, hlo, hhi]

section
variable (hup : s.portUp p = true) {vc lseq : Nat} {body : List Byte}
include hup

theorem State.takeFrame_badBlock (ft : Nat) : s.takeFrame p ft vc lseq 2 body = s.inc (pgRINGP p) RINGP_C_BLOCK_ERR := by
  simp [State.takeFrame, hup]

theorem State.takeFrame_badCrc : s.takeFrame p 1 vc lseq 1 body = (s.inc (pgRINGP p) RINGP_C_LCRC_ERR).sendNak p := by
  simp [State.takeFrame, hup, ftDATA]

theorem State.takeFrame_inOrder (hvc : vc < 4) (hlo : 8 ≤ body.length)
    (hhi : body.length ≤ 2368) : s.takeFrame p 1 vc (s.hop p).rxSeq 0 body =
      ((s.inc (pgRINGP p) RINGP_C_FRAMES_RX).setHop p (frameTaken (s.hop p) vc body)).sendAck p ftACK := by
  have hhop : (s.inc (pgRINGP p) RINGP_C_FRAMES_RX).hop p = s.hop p := rfl
  have hd : ((s.hop p).rxSeq % 65536 + 65536 - (s.hop p).rxSeq) % 65536 = 0 := by omega
  simp [State.takeFrame, hup, ftDATA, ftTIMED, lenOk_data hlo hhi, hhop, hd, Nat.mod_eq_of_lt hvc, frameTaken]

theorem State.takeFrame_duplicate (hlo : 8 ≤ body.length) (hhi : body.length ≤ 2368)
    (hold : 32768 ≤ (lseq % 65536 + 65536 - (s.hop p).rxSeq) % 65536) : s.takeFrame p 1 vc lseq 0 body =
      ((s.inc (pgRINGP p) RINGP_C_FRAMES_RX).inc (pgRINGP p) RINGP_C_LSEQ_DUP).sendAck p ftACK := by
  have hhop : (s.inc (pgRINGP p) RINGP_C_FRAMES_RX).hop p = s.hop p := rfl
  have hd : (lseq % 65536 + 65536 - (s.hop p).rxSeq) % 65536 ≠ 0 := by omega
  simp [State.takeFrame, hup, ftDATA, ftTIMED, lenOk_data hlo hhi, hhop, hd, Nat.not_lt_of_ge hold]

end

theorem State.takeFrame_down (hdown : s.portUp p = false) (ft vc lseq fate : Nat) (body : List Byte) :
    s.takeFrame p ft vc lseq fate body = s := by simp [State.takeFrame, hdown]

/-- The acknowledgement of a frame just taken names that frame. -/
theorem ack_frameTaken {h : Hop} (hseq : h.rxSeq < 65536) (vc : Nat) (body : List Byte) :
    ((frameTaken h vc body).rxSeq + 65535) % 65536 = h.rxSeq := by
  simp only [frameTaken]; omega

/-- A NAK leaves where none stands (R197). -/
theorem State.sendNak_first (hp : p < 4) (hnak : (s.hop p).nakAt = none) : s.sendNak p =
    ((s.setHop p { s.hop p with nakAt := some s.time.clk }).sendAck p ftNAK).inc (pgRINGP p) RINGP_C_NAK_TX := by
  simp [State.sendNak, hnak, State.hopInc_port hp]

/-! ### Acknowledgements (R196) -/

theorem State.hopIsUp_port (hp : p < 4) : s.hopIsUp p = s.portUp p := if_pos hp
theorem replayHop_port (hp : p < 4) : replayHop p = p := if_pos hp

/-- Nothing waits and no stall runs: there is nothing to send. -/
theorem State.pump_idle (hq : (s.hop p).queue = []) (hstall : (s.hop p).stallAt = none) : s.pump p = s := by
  cases hup : s.portUp p <;> simp [State.pump, State.pumpN, hq, hup, headOf, State.noteStall, hstall]

theorem State.takeAck_unknown {k : Nat} (hp : p < 4) (hk : ackRest (k % 65536) (s.hop p).replay = none) :
    s.takeAck p k = s := by simp [State.takeAck, replayHop_port hp, hk]

/-- The port's hop with `l` left to acknowledge. -/
def hopAcked (s : State) (p : Nat) (l : List (Nat × Nat × List Byte)) : Hop :=
  { s.hop p with replay := l, progAt := s.time.clk, stuck := 0 }

@[simp] theorem State.mirrorHop_ring (s : State) (p : Nat) : (s.mirrorHop p).ring = s.ring := by
  unfold State.mirrorHop; split <;> rfl

theorem State.mirrorHop_out (s : State) (p : Nat) : (s.mirrorHop p).out = s.out := by
  unfold State.mirrorHop; split <;> rfl

/-- The registers that mirror a transmitter. -/
def mirrorFields (p : Nat) : List (Nat × Fld) :=
  [(pgRINGP p, RINGP_TX_LSEQ), (pgRINGP p, RINGP_ACK_LSEQ), (pgRINGP p, RINGP_REPLAY_BYTES)]

theorem LineFrame.mirrorHop {u : State} {fs : List (Nat × Fld)} (h : LineFrame fs s u) (hm : ∀ x ∈ mirrorFields p, x ∈ fs) :
    LineFrame fs s (u.mirrorHop p) := by
  unfold State.mirrorHop
  split
  · exact ((h.wr (hm _ (by simp [mirrorFields]))).wr (hm _ (by simp [mirrorFields]))).wr (hm _ (by simp [mirrorFields]))
  · exact h

theorem State.rd_replayBytes_mirrorHop (hp : p < 4) : (s.mirrorHop p).rd (pgRINGP p) RINGP_REPLAY_BYTES =
    replayBytes (s.hop p).replay % 2 ^ RINGP_REPLAY_BYTES.width := by
  rw [State.mirrorHop, if_pos hp]
  exact State.rd_wr_same _ _ _ _

theorem State.takeAck_known {k : Nat} {l : List (Nat × Nat × List Byte)} (hp : p < 4) (hq : (s.hop p).queue = [])
    (hstall : (s.hop p).stallAt = none) (hk : ackRest (k % 65536) (s.hop p).replay = some l) :
    s.takeAck p k = (s.setHop p (hopAcked s p l)).mirrorHop p := by
  have hhop : ((s.setHop p (hopAcked s p l)).mirrorHop p).hop p = hopAcked s p l := by
    rw [State.hop_congr (State.mirrorHop_ring _ _), State.hop_setHop_same]
  have hidle := State.pump_idle (s := (s.setHop p (hopAcked s p l)).mirrorHop p) (p := p) (by rw [hhop]; exact hq)
    (by rw [hhop]; exact hstall)
  rw [State.takeAck, replayHop_port hp, hk]
  exact (if_pos hp).trans hidle

/-- One frame of the replay buffer sent again and counted (R196). -/
def sentAgain (p : Nat) (s : State) (e : Nat × Nat × List Byte) : State :=
  (s.sendFrame p ftDATA e.2.1 e.1 e.2.2).inc (pgRINGP p) RINGP_C_REPLAYED

theorem State.resendAll_port (hp : p < 4) : s.resendAll p = s.each (s.hop p).replay (sentAgain p) := by
  simp only [State.resendAll, replayHop_port hp, if_pos hp]
  rfl

theorem ring_sentAgain (l : List (Nat × Nat × List Byte)) (s : State) : (s.each l (sentAgain p)).ring = s.ring :=
  State.each_keeps State.ring (sentAgain p) (fun s _ => State.sendFrame_ring s) l s

theorem out_sentAgain (l : List (Nat × Nat × List Byte)) (s : State) :
    (s.each l (sentAgain p)).out = s.out ++ l.map (fun e => .lineTx p (frameBytes ftDATA e.2.1 e.1 e.2.2)) := by
  induction l generalizing s with
  | nil => simp
  | cons e l ih =>
    rw [State.each_cons, ih, List.map_cons, List.append_cons]
    exact congrArg (· ++ _) (State.sendFrame_out s)

theorem lineFrame_sentAgain (hp : p < 4) (l : List (Nat × Nat × List Byte)) (s : State) :
    LineFrame [(pgRINGP p, RINGP_C_FRAMES_TX), (pgRINGP p, RINGP_C_REPLAYED)] s (s.each l (sentAgain p)) := by
  induction l using List.reverseRecOn with
  | nil => exact .refl _ s
  | append_singleton l e ih =>
    have hlast : s.each (l ++ [e]) (sentAgain p) = sentAgain p (s.each l (sentAgain p)) e := by simp [State.each]
    rw [hlast]
    exact (ih.sendFrame hp (by simp)).inc (by simp)

theorem rd_replayed_sentAgain (hp : p < 4) (l : List (Nat × Nat × List Byte)) (s : State) :
    (s.each l (sentAgain p)).rd (pgRINGP p) RINGP_C_REPLAYED = (s.rd (pgRINGP p) RINGP_C_REPLAYED + l.length) % 2 ^ 64 := by
  induction l generalizing s with
  | nil => exact (Nat.mod_eq_of_lt (State.rd_lt s _ _)).symm
  | cons e l ih =>
    have hone : (sentAgain p s e).rd (pgRINGP p) RINGP_C_REPLAYED = (s.rd (pgRINGP p) RINGP_C_REPLAYED + 1) % 2 ^ 64 := by
      rw [sentAgain, State.rd_inc_same, State.rd_sendFrame hp (ringpKey_ne (by decide))]
    rw [State.each_cons, ih, hone, List.length_cons]
    omega

/-! ### Credits (R199) -/

/-- Credits freed since the last count, added to the channels' registers. -/
def creditsAdded (s : State) (p dc dr di : Nat) : State :=
  ((s.add (pgRINGP p) RINGP_CR_CPL dc).add (pgRINGP p) RINGP_CR_REQ dr).add (pgRINGP p) RINGP_CR_ITEM di

@[simp] theorem State.hop_creditsAdded (s : State) (p dc dr di q : Nat) : (creditsAdded s p dc dr di).hop q = s.hop q :=
  State.hop_congr rfl q

/-- What a cumulative count of 16 bits grew by. -/
theorem credit_grown {a a0 : Nat} (ha : a < 65536) (h0 : a0 ≤ a) : (a % 65536 + 65536 - a0) % 65536 = a - a0 := by omega

theorem State.takeCredits_idle {a b c a0 b0 c0 : Nat} (hq : (s.hop p).queue = []) (hstall : (s.hop p).stallAt = none)
    (ha : a < 65536) (hb : b < 65536) (hc : c < 65536) (hfreed : (s.hop p).peerFreed = [a0, b0, c0]) (ha0 : a0 ≤ a)
    (hb0 : b0 ≤ b) (hc0 : c0 ≤ c) : s.takeCredits p [a % 65536, b % 65536, c % 65536] =
      creditsAdded (s.setHop p { s.hop p with peerFreed := [a, b, c] }) p (a - a0) (b - b0) (c - c0) := by
  have hidle := State.pump_idle (p := p) (s := creditsAdded (s.setHop p { s.hop p with peerFreed := [a, b, c] }) p
    (a - a0) (b - b0) (c - c0)) (by simpa using hq) (by simpa using hstall)
  simp only [State.takeCredits, hfreed, List.zip_cons_cons, List.zip_nil_right, State.each_cons, State.each_nil,
    credit_grown ha ha0, credit_grown hb hb0, credit_grown hc hc0]
  rw [Nat.mod_eq_of_lt ha, Nat.mod_eq_of_lt hb, Nat.mod_eq_of_lt hc]
  exact hidle

/-! ### Probes (R206) -/

/-- A hop with one more result measured, of which the last 16 stand. -/
def hopMeasured (h : Hop) (r : Int) : Hop := { h with hopRes := (h.hopRes ++ [r]).drop (h.hopRes.length + 1 - 16) }

theorem State.hop_hopResult (s : State) (p : Nat) (r : Int) : (s.hopResult p r).hop p = hopMeasured (s.hop p) r :=
  (State.hop_congr (s := s.setHop p (hopMeasured (s.hop p) r)) rfl p).trans (State.hop_setHop_same s p _)

/-- The four instants of a probe give twice the hop's delay where both clocks went forward (R206). -/
theorem probe_span {a b : Nat} (hab : a ≤ b) (hb : b < 2 ^ 63) :
    toSigned 64 ((b + 2 ^ 64 - a % 2 ^ 64) % 2 ^ 64) = (b : Int) - a := by
  have hspan : (b + 2 ^ 64 - a % 2 ^ 64) % 2 ^ 64 = b - a := by omega
  rw [hspan, toSigned, if_pos (by omega)]
  omega

end Sys2Proof.Machine
end

section
/-! PROOF of O40: numbered frames are taken and acknowledged, and credits and probes are counted (R190, R192, R196, R197,
R199, R206). -/

namespace Sys2Proof.Machine

variable {s : State} {t p : Nat}

/-- A frame sent with a change of its hop. -/
theorem happen_hopSent (s : State) (t : Nat) (hp : p < 4) (h : Hop) (ft lseq : Nat) (body : List Byte) {g : State → State}
    (hg : g (s.at t) = ((s.at t).setHop p h).sendFrame p ft 0 lseq body) : ∃ u, s.happen t g = .next u ∧ u.hop p = h ∧
      u.out = s.out ++ [.lineTx p (frameBytes ft 0 lseq body)] ∧ RegsBut [(pgRINGP p, RINGP_C_FRAMES_TX)] [] s u := by
  have hframe : LineFrame [(pgRINGP p, RINGP_C_FRAMES_TX)] (s.at t) (((s.at t).setHop p h).sendFrame p ft 0 lseq body) :=
    (LineFrame.refl _ _).setHop.sendFrame hp (by simp)
  refine ⟨_, State.happen_line s hg hframe, ?_, State.sendFrame_out _, hframe.regs⟩
  rw [State.sendFrame_hop, State.hop_setHop_same]

/-! ### DATA frames -/

section
variable (hp : p < 4) (hup : s.portUp p = true) {vc lseq : Nat} {body : List Byte}
include hp hup

theorem exec_dataFrame_inOrder (hseq : (s.hop p).rxSeq < 65536) (hvc : vc < 4) (hlo : 8 ≤ body.length)
    (hhi : body.length ≤ 2368) : ∃ u, exec (.dataFrame t p 1 vc (s.hop p).rxSeq 0 body) s = .next u ∧
      u.hop p = frameTaken (s.hop p) vc body ∧
      u.out = s.out ++ [.lineTx p (frameBytes ftACK 0 (s.hop p).rxSeq (leBytes 8 0))] ∧
      u.rd (pgRINGP p) RINGP_C_FRAMES_RX = (s.rd (pgRINGP p) RINGP_C_FRAMES_RX + 1) % 2 ^ 64 ∧
      RegsBut [(pgRINGP p, RINGP_C_FRAMES_RX), (pgRINGP p, RINGP_C_FRAMES_TX)] [] s u := by
  have hact : (s.at t).takeFrame p 1 vc (s.hop p).rxSeq 0 body =
      (((s.at t).inc (pgRINGP p) RINGP_C_FRAMES_RX).setHop p (frameTaken (s.hop p) vc body)).sendAck p ftACK :=
    State.takeFrame_inOrder (s := s.at t) hup hvc hlo hhi
  have hframe : LineFrame [(pgRINGP p, RINGP_C_FRAMES_RX), (pgRINGP p, RINGP_C_FRAMES_TX)] (s.at t)
      ((s.at t).takeFrame p 1 vc (s.hop p).rxSeq 0 body) :=
    hact ▸ (((LineFrame.refl _ _).inc (by simp)).setHop).sendFrame hp (by simp)
  rw [exec_dataFrame, execDataFrame, Nat.mod_eq_of_lt hp]
  refine ⟨_, State.happen_line s rfl hframe, ?_, ?_, ?_, hframe.regs⟩ <;> rw [hact]
  · rw [State.sendAck, State.sendFrame_hop, State.hop_setHop_same]
  · rw [State.sendAck, State.sendFrame_out, State.hop_setHop_same, ack_frameTaken hseq]; rfl
  · rw [State.sendAck, State.rd_sendFrame hp (ringpKey_ne (by decide)), State.rd_setHop, State.rd_inc_same, State.rd_at]

theorem exec_dataFrame_duplicate (hlo : 8 ≤ body.length) (hhi : body.length ≤ 2368)
    (hold : 32768 ≤ (lseq % 65536 + 65536 - (s.hop p).rxSeq) % 65536) :
    ∃ u, exec (.dataFrame t p 1 vc lseq 0 body) s = .next u ∧ u.ring = s.ring ∧
      u.rd (pgRINGP p) RINGP_C_LSEQ_DUP = (s.rd (pgRINGP p) RINGP_C_LSEQ_DUP + 1) % 2 ^ 64 ∧
      u.out = s.out ++ [.lineTx p (frameBytes ftACK 0 (((s.hop p).rxSeq + 65535) % 65536) (leBytes 8 0))] := by
  have hact := State.takeFrame_duplicate (s := s.at t) (p := p) (vc := vc) hup hlo hhi hold
  have hframe : LineFrame [(pgRINGP p, RINGP_C_FRAMES_RX), (pgRINGP p, RINGP_C_LSEQ_DUP), (pgRINGP p, RINGP_C_FRAMES_TX)]
      (s.at t) ((s.at t).takeFrame p 1 vc lseq 0 body) :=
    hact ▸ (((LineFrame.refl _ _).inc (by simp)).inc (by simp)).sendFrame hp (by simp)
  rw [exec_dataFrame, execDataFrame, Nat.mod_eq_of_lt hp]
  refine ⟨_, State.happen_line s rfl hframe, ?_, ?_, ?_⟩ <;> rw [hact, State.sendAck]
  · exact State.sendFrame_ring _
  · rw [State.rd_sendFrame hp (ringpKey_ne (by decide)), State.rd_inc_same, State.rd_inc_ne (ringpKey_ne (by decide)),
      State.rd_at]
  · exact State.sendFrame_out _

theorem exec_dataFrame_badCrc (hnak : (s.hop p).nakAt = none) :
    ∃ u, exec (.dataFrame t p 1 vc lseq 1 body) s = .next u ∧
      u.hop p = { s.hop p with nakAt := some (max s.time.clk t) } ∧
      u.out = s.out ++ [.lineTx p (frameBytes ftNAK 0 (((s.hop p).rxSeq + 65535) % 65536) (leBytes 8 0))] ∧
      u.rd (pgRINGP p) RINGP_C_LCRC_ERR = (s.rd (pgRINGP p) RINGP_C_LCRC_ERR + 1) % 2 ^ 64 ∧
      u.rd (pgRINGP p) RINGP_C_NAK_TX = (s.rd (pgRINGP p) RINGP_C_NAK_TX + 1) % 2 ^ 64 := by
  have hact : (s.at t).takeFrame p 1 vc lseq 1 body = _ :=
    (State.takeFrame_badCrc (s := s.at t) hup).trans
      (State.sendNak_first (s := (s.at t).inc (pgRINGP p) RINGP_C_LCRC_ERR) hp hnak)
  have hframe : LineFrame [(pgRINGP p, RINGP_C_LCRC_ERR), (pgRINGP p, RINGP_C_FRAMES_TX), (pgRINGP p, RINGP_C_NAK_TX)]
      (s.at t) ((s.at t).takeFrame p 1 vc lseq 1 body) :=
    hact ▸ (((LineFrame.refl _ _).inc (by simp)).setHop.sendFrame hp (by simp)).inc (by simp)
  rw [exec_dataFrame, execDataFrame, Nat.mod_eq_of_lt hp]
  refine ⟨_, State.happen_line s rfl hframe, ?_, ?_, ?_, ?_⟩ <;> rw [hact, State.sendAck]
  · refine (State.sendFrame_hop _).trans ((State.hop_setHop_same _ _ _).trans ?_)
    rw [State.inc_time, State.at_clk]
    rfl
  · refine (State.sendFrame_out _).trans ?_
    rw [State.hop_setHop_same]
    rfl
  · rw [State.rd_inc_ne (ringpKey_ne (by decide)), State.rd_sendFrame hp (ringpKey_ne (by decide)), State.rd_setHop,
      State.rd_inc_same, State.rd_at]
  · rw [State.rd_inc_same, State.rd_sendFrame hp (ringpKey_ne (by decide)), State.rd_setHop,
      State.rd_inc_ne (ringpKey_ne (by decide)), State.rd_at]

theorem exec_dataFrame_badBlock (ft : Nat) : ∃ u, exec (.dataFrame t p ft vc lseq 2 body) s = .next u ∧
    Frame [(pgRINGP p, RINGP_C_BLOCK_ERR)] [] (s.at t) u ∧
    u.rd (pgRINGP p) RINGP_C_BLOCK_ERR = (s.rd (pgRINGP p) RINGP_C_BLOCK_ERR + 1) % 2 ^ 64 := by
  have hact := State.takeFrame_badBlock (s := s.at t) (p := p) hup (vc := vc) (lseq := lseq) (body := body) ft
  rw [exec_dataFrame, execDataFrame, Nat.mod_eq_of_lt hp]
  refine ⟨_, State.happen_eq s hact rfl rfl, frame_wr1 _ _ _ _, ?_⟩
  exact State.rd_inc_same

end

theorem exec_dataFrame_down (hp : p < 4) (hdown : s.portUp p = false) (ft vc lseq fate : Nat) (body : List Byte) :
    exec (.dataFrame t p ft vc lseq fate body) s = .next (s.at t) := by
  rw [exec_dataFrame, execDataFrame, Nat.mod_eq_of_lt hp]
  exact State.happen_eq s (State.takeFrame_down (s := s.at t) hdown ft vc lseq fate body) rfl rfl

/-! ### Acknowledgements -/

section
variable (hp : p < 4) (hup : s.portUp p = true) {k : Nat}
include hp hup

/-- An ACK on a port that is UP is counted, and takes what it acknowledges out of the replay buffer. -/
theorem exec_ackFrame_up : exec (.ackFrame t p k) s =
    s.happen t (fun _ => ((s.at t).inc (pgRINGP p) RINGP_C_FRAMES_RX).takeAck p k) := by
  have hmod : p % 6 = p := by omega
  have hup' : (s.at t).hopIsUp p = true := (State.hopIsUp_port hp).trans hup
  simp [execAckFrame, State.happen, hmod, hup', State.hopInc_port hp]

theorem exec_ackFrame_known {l : List (Nat × Nat × List Byte)} (hq : (s.hop p).queue = []) (hstall : (s.hop p).stallAt = none)
    (hk : ackRest (k % 65536) (s.hop p).replay = some l) : ∃ u, exec (.ackFrame t p k) s = .next u ∧
      u.hop p = { s.hop p with replay := l, progAt := max s.time.clk t, stuck := 0 } ∧
      u.rd (pgRINGP p) RINGP_REPLAY_BYTES = replayBytes l % 2 ^ RINGP_REPLAY_BYTES.width ∧
      RegsBut [(pgRINGP p, RINGP_C_FRAMES_RX), (pgRINGP p, RINGP_TX_LSEQ), (pgRINGP p, RINGP_ACK_LSEQ),
        (pgRINGP p, RINGP_REPLAY_BYTES)] [] s u ∧ u.out = s.out ∧ u.del = s.del := by
  have hact := State.takeAck_known (s := (s.at t).inc (pgRINGP p) RINGP_C_FRAMES_RX) hp hq hstall hk
  have hframe : LineFrame ((pgRINGP p, RINGP_C_FRAMES_RX) :: mirrorFields p) (s.at t)
      (((s.at t).inc (pgRINGP p) RINGP_C_FRAMES_RX).takeAck p k) :=
    hact ▸ (((LineFrame.refl _ _).inc (by simp)).setHop).mirrorHop fun _ hx => List.mem_cons_of_mem _ hx
  rw [exec_ackFrame_up hp hup]
  refine ⟨_, State.happen_line s rfl hframe, ?_, ?_, hframe.regs, ?_, hframe.del⟩ <;> rw [hact]
  · rw [State.hop_congr (State.mirrorHop_ring _ _), State.hop_setHop_same, hopAcked, State.inc_time, State.at_clk]
    rfl
  · rw [State.rd_replayBytes_mirrorHop hp, State.hop_setHop_same]
    rfl
  · exact State.mirrorHop_out _ _

theorem exec_ackFrame_unknown (hk : ackRest (k % 65536) (s.hop p).replay = none) :
    ∃ u, exec (.ackFrame t p k) s = .next u ∧ Frame [(pgRINGP p, RINGP_C_FRAMES_RX)] [] (s.at t) u := by
  have hact := State.takeAck_unknown (s := (s.at t).inc (pgRINGP p) RINGP_C_FRAMES_RX) hp hk
  rw [exec_ackFrame_up hp hup]
  exact ⟨_, State.happen_eq s hact rfl rfl, frame_wr1 _ _ _ _⟩

theorem exec_nakFrame_unknown (hk : ackRest (k % 65536) (s.hop p).replay = none) :
    ∃ u, exec (.nakFrame t p k) s = .next u ∧
      u.out = s.out ++ (s.hop p).replay.map (fun e => .lineTx p (frameBytes ftDATA e.2.1 e.1 e.2.2)) ∧ u.ring = s.ring ∧
      u.rd (pgRINGP p) RINGP_C_NAK_RX = (s.rd (pgRINGP p) RINGP_C_NAK_RX + 1) % 2 ^ 64 ∧
      u.rd (pgRINGP p) RINGP_C_REPLAYED = (s.rd (pgRINGP p) RINGP_C_REPLAYED + (s.hop p).replay.length) % 2 ^ 64 := by
  have hmod : p % 6 = p := by omega
  have hup' : (s.at t).hopIsUp p = true := (State.hopIsUp_port hp).trans hup
  let v := ((s.at t).inc (pgRINGP p) RINGP_C_FRAMES_RX).inc (pgRINGP p) RINGP_C_NAK_RX
  have hack : v.takeAck p k = v := State.takeAck_unknown hp hk
  have hres : v.resendAll p = v.each (s.hop p).replay (sentAgain p) := State.resendAll_port hp
  have hframe := lineFrame_sentAgain hp (s.hop p).replay v
  have hnext : exec (.nakFrame t p k) s = .next (v.each (s.hop p).replay (sentAgain p)) := by
    rw [exec_nakFrame, execNakFrame]
    refine State.happen_eq s ?_ hframe.pending hframe.time
    simp only [hmod, hup', if_true, State.hopInc_port hp]
    rw [show ((s.at t).inc (pgRINGP p) RINGP_C_FRAMES_RX).inc (pgRINGP p) RINGP_C_NAK_RX = v from rfl, hack, hres]
  refine ⟨_, hnext, out_sentAgain _ v, ring_sentAgain _ v, ?_, ?_⟩
  · rw [hframe.rd (by simpa using ⟨ringpKey_ne (by decide), ringpKey_ne (by decide)⟩), State.rd_inc_same,
      State.rd_inc_ne (ringpKey_ne (by decide))]
    rfl
  · rw [rd_replayed_sentAgain hp, State.rd_inc_ne (ringpKey_ne (by decide)), State.rd_inc_ne (ringpKey_ne (by decide))]
    rfl

/-! ### Credits -/

theorem exec_creditFrame_idle {a b c a0 b0 c0 : Nat} (hq : (s.hop p).queue = []) (hstall : (s.hop p).stallAt = none)
    (ha : a < 65536) (hb : b < 65536) (hc : c < 65536) (hfreed : (s.hop p).peerFreed = [a0, b0, c0]) (ha0 : a0 ≤ a)
    (hb0 : b0 ≤ b) (hc0 : c0 ≤ c) : ∃ u, exec (.creditFrame t p a b c) s = .next u ∧
      u.hop p = { s.hop p with peerFreed := [a, b, c] } ∧
      u.rd (pgRINGP p) RINGP_CR_CPL = (s.rd (pgRINGP p) RINGP_CR_CPL + (a - a0)) % 2 ^ RINGP_CR_CPL.width ∧
      u.rd (pgRINGP p) RINGP_CR_REQ = (s.rd (pgRINGP p) RINGP_CR_REQ + (b - b0)) % 2 ^ RINGP_CR_REQ.width ∧
      u.rd (pgRINGP p) RINGP_CR_ITEM = (s.rd (pgRINGP p) RINGP_CR_ITEM + (c - c0)) % 2 ^ RINGP_CR_ITEM.width ∧
      RegsBut [(pgRINGP p, RINGP_C_FRAMES_RX), (pgRINGP p, RINGP_CR_CPL), (pgRINGP p, RINGP_CR_REQ),
        (pgRINGP p, RINGP_CR_ITEM)] [] s u := by
  let v := ((s.at t).inc (pgRINGP p) RINGP_C_FRAMES_RX).setHop p { s.hop p with peerFreed := [a, b, c] }
  have hframe : LineFrame [(pgRINGP p, RINGP_C_FRAMES_RX), (pgRINGP p, RINGP_CR_CPL), (pgRINGP p, RINGP_CR_REQ),
      (pgRINGP p, RINGP_CR_ITEM)] (s.at t) (creditsAdded v p (a - a0) (b - b0) (c - c0)) :=
    ((((LineFrame.refl _ _).inc (by simp)).setHop.wr (by simp)).wr (by simp)).wr (by simp)
  have hnext : exec (.creditFrame t p a b c) s = .next (creditsAdded v p (a - a0) (b - b0) (c - c0)) := by
    rw [exec_creditFrame, execCreditFrame, Nat.mod_eq_of_lt hp]
    refine State.happen_line s ?_ hframe
    rw [if_pos (show (s.at t).portUp p = true from hup), State.hopInc_port hp]
    exact State.takeCredits_idle (s := (s.at t).inc (pgRINGP p) RINGP_C_FRAMES_RX) hq hstall ha hb hc hfreed ha0 hb0 hc0
  have hcount : ∀ {f : Fld}, 8 * f.off + f.lo ≠ 16448 → v.rd (pgRINGP p) f = s.rd (pgRINGP p) f := fun hf =>
    State.rd_inc_ne (s := s.at t) (ringpKey_ne hf)
  refine ⟨_, hnext, ?_, ?_, ?_, ?_, hframe.regs⟩
  · rw [State.hop_creditsAdded, State.hop_setHop_same]
  · rw [creditsAdded, State.rd_add_ne (ringpKey_ne (by decide)), State.rd_add_ne (ringpKey_ne (by decide)),
      State.rd_add_same, hcount (by decide)]
  · rw [creditsAdded, State.rd_add_ne (ringpKey_ne (by decide)), State.rd_add_same,
      State.rd_add_ne (ringpKey_ne (by decide)), hcount (by decide)]
  · rw [creditsAdded, State.rd_add_same, State.rd_add_ne (ringpKey_ne (by decide)),
      State.rd_add_ne (ringpKey_ne (by decide)), hcount (by decide)]

theorem exec_creditSend_up : ∃ u, exec (.creditSend t p) s = .next u ∧ u.hop p = { s.hop p with freedSent := (s.hop p).freed } ∧
    u.out = s.out ++ [.lineTx p (frameBytes ftCREDIT 0 0 ((s.hop p).freed.flatMap (beBytes 2) ++ beBytes 2 0))] ∧
    RegsBut [(pgRINGP p, RINGP_C_FRAMES_TX)] [] s u := by
  rw [exec_creditSend, execCreditSend, Nat.mod_eq_of_lt hp]
  exact happen_hopSent s t hp _ _ _ _ (if_pos hup)

/-! ### Probes -/

theorem exec_probeSend_up : ∃ u, exec (.probeSend t p) s = .next u ∧
    u.hop p = { s.hop p with probeNo := ((s.hop p).probeNo + 1) % 65536 } ∧
    u.out = s.out ++ [.lineTx p (frameBytes ftPROBE 0 (((s.hop p).probeNo + 1) % 65536)
      (probeBody false (max s.time.clk t) 0 0))] ∧ RegsBut [(pgRINGP p, RINGP_C_FRAMES_TX)] [] s u := by
  rw [exec_probeSend, execProbeSend, Nat.mod_eq_of_lt hp, ← State.at_clk]
  exact happen_hopSent s t hp _ _ _ _ (if_pos hup)

theorem exec_probeFrame_asks (n t1 t2 t3 : Nat) : ∃ u, exec (.probeFrame t p n false t1 t2 t3) s = .next u ∧
    u.out = s.out ++ [.lineTx p (frameBytes ftPROBE 0 n (probeBody true t1 (max s.time.clk t) (max s.time.clk t)))] ∧
    u.ring = s.ring ∧ RegsBut [(pgRINGP p, RINGP_C_FRAMES_TX), (pgRINGP p, RINGP_C_FRAMES_RX)] [] s u := by
  let v := (s.at t).inc (pgRINGP p) RINGP_C_FRAMES_RX
  have hframe : LineFrame [(pgRINGP p, RINGP_C_FRAMES_TX), (pgRINGP p, RINGP_C_FRAMES_RX)] (s.at t)
      (v.sendFrame p ftPROBE 0 n (probeBody true t1 (s.at t).time.clk (s.at t).time.clk)) :=
    ((LineFrame.refl _ _).inc (by simp)).sendFrame hp (by simp)
  rw [exec_probeFrame, execProbeFrame, Nat.mod_eq_of_lt hp, ← State.at_clk]
  refine ⟨_, State.happen_line s ?_ hframe, State.sendFrame_out v, State.sendFrame_ring v, hframe.regs⟩
  simp [show (s.at t).portUp p = true from hup, v]

theorem exec_probeFrame_replies {t1 t2 t3 : Nat} (hroom : (s.hop p).hopRes.length < 16) (h14 : t1 ≤ max s.time.clk t)
    (h4 : max s.time.clk t < 2 ^ 63) (h23 : t2 ≤ t3) (h3 : t3 < 2 ^ 63) :
    ∃ u, exec (.probeFrame t p (s.hop p).probeNo true t1 t2 t3) s = .next u ∧
      (u.hop p).hopRes = (s.hop p).hopRes ++ [((max s.time.clk t : Int) - t1) - ((t3 : Int) - t2)] ∧
      Frame [(pgRINGP p, RINGP_C_FRAMES_RX), (pgRINGP p, RINGP_HOP_NS)] [] (s.at t) { u with ring := s.ring } := by
  let v := (s.at t).inc (pgRINGP p) RINGP_C_FRAMES_RX
  let r : Int := ((max s.time.clk t : Int) - t1) - ((t3 : Int) - t2)
  have hspan : toSigned 64 (((s.at t).time.clk + 2 ^ 64 - t1 % 2 ^ 64) % 2 ^ 64) -
      toSigned 64 ((t3 + 2 ^ 64 - t2 % 2 ^ 64) % 2 ^ 64) = r := by
    rw [State.at_clk, probe_span h14 h4, probe_span h23 h3, Nat.cast_max]
  have hframe : LineFrame [(pgRINGP p, RINGP_C_FRAMES_RX), (pgRINGP p, RINGP_HOP_NS)] (s.at t) (v.hopResult p r) :=
    ((LineFrame.refl _ _).inc (by simp)).setHop.wr (by simp)
  have hkept : (s.hop p).hopRes.length + 1 - 16 = 0 := by omega
  rw [exec_probeFrame, execProbeFrame, Nat.mod_eq_of_lt hp]
  refine ⟨v.hopResult p r, State.happen_line s ?_ hframe, ?_, hframe.frame rfl⟩
  · have hno : (s.hop p).probeNo = (v.hop p).probeNo := rfl
    simp only [show (s.at t).portUp p = true from hup, Bool.not_true, Bool.false_eq_true, if_false]
    rw [if_pos hno]
    exact congrArg (v.hopResult p) hspan
  · have hhop : v.hop p = s.hop p := rfl
    rw [State.hop_hopResult, hhop, hopMeasured, hkept, List.drop_zero]

end

/-! ### The clauses together -/

/-- Settles O40: each frame's own law gives its effect, and the hop's laws what is read of it. -/
theorem numberedFramesAreAcknowledged : Obligations.NumberedFramesAreAcknowledged := by
  unfold Obligations.NumberedFramesAreAcknowledged
  refine ⟨?_, ?_, ?_, ?_, ?_, ?_, ?_, ?_, ?_, ?_, ?_, ?_, ?_⟩
  · rintro s t p vc body ⟨hp, hup, hseq, hvc, hlo, hhi⟩
    exact exec_dataFrame_inOrder hp hup hseq hvc hlo hhi
  · rintro s t p vc lseq body ⟨hp, hup, hlo, hhi⟩ hold
    exact exec_dataFrame_duplicate hp hup hlo hhi hold
  · rintro s t p vc lseq body ⟨hp, hup, hnak⟩
    exact exec_dataFrame_badCrc hp hup hnak
  · rintro s t p ft vc lseq fate body ⟨hp, hdown⟩
    exact ⟨_, exec_dataFrame_down hp hdown ft vc lseq fate body, rfl⟩
  · rintro s t p ft vc lseq body ⟨hp, hup⟩
    exact exec_dataFrame_badBlock hp hup ft
  · rintro s t p k l ⟨hp, hup, hq, hstall, hk⟩
    exact exec_ackFrame_known hp hup hq hstall hk
  · rintro s t p k ⟨hp, hup, hk⟩
    exact exec_ackFrame_unknown hp hup hk
  · rintro s t p k ⟨hp, hup, hk⟩
    exact exec_nakFrame_unknown hp hup hk
  · rintro s t p a b c a0 b0 c0 ⟨hp, hup, hq, hstall⟩ ⟨ha, hb, hc, hfreed, ha0, hb0, hc0⟩
    exact exec_creditFrame_idle hp hup hq hstall ha hb hc hfreed ha0 hb0 hc0
  · rintro s t p ⟨hp, hup⟩
    exact exec_creditSend_up hp hup
  · rintro s t p ⟨hp, hup⟩
    exact exec_probeSend_up hp hup
  · rintro s t p n t1 t2 t3 ⟨hp, hup⟩
    exact exec_probeFrame_asks hp hup n t1 t2 t3
  · rintro s t p t1 t2 t3 ⟨hp, hup, hroom⟩ ⟨h14, h4, h23, h3⟩
    exact exec_probeFrame_replies hp hup hroom h14 h4 h23 h3

end Sys2Proof.Machine
end

section
/-! SUPPORT. Packets sent on the ring and wraps judged: the cells written and the hops' sequence numbers and channel buffers
(R191, R196, R199 to R201, R213). -/

namespace Sys2Proof.Machine

variable {c : Nat → Prop} {s u w : State} {b p q : Nat} {f : Fld}

/-! ### A hop changed beside the others -/

section
variable {α : Type} {l : List (Nat × α)} {k a : Nat} {v : α}

theorem tabGet?_tabDel_ne (h : a ≠ k) : tabGet? (tabDel l k) a = tabGet? l a := by
  induction l with
  | nil => rfl
  | cons x l ih =>
    by_cases hk : x.1 = k
    · have hka : k ≠ a := Ne.symm h
      simpa [tabDel, tabGet?, hk, hka] using ih
    · simp only [tabDel, List.filter_cons, beq_eq_false_iff_ne.2 hk, Bool.not_false, if_true, tabGet?]
      rw [show List.filter (fun c : Nat × α => !(c.1 == k)) l = tabDel l k from rfl, ih]

theorem tabGet?_tabIns_ne (h : a ≠ k) : tabGet? (tabIns k v l) a = tabGet? l a := by
  have hka : k ≠ a := Ne.symm h
  induction l with
  | nil => simp [tabIns, tabGet?, hka]
  | cons x l ih =>
    rw [tabIns]
    split
    · simp [tabGet?, hka]
    · rw [tabGet?, ih, tabGet?]

/-- Reading another key than the one set. -/
theorem tabGet?_tabPut_ne (h : a ≠ k) : tabGet? (tabPut l k v) a = tabGet? l a :=
  (tabGet?_tabIns_ne h).trans (tabGet?_tabDel_ne h)

end

theorem State.hop_setHop_ne (s : State) (h : q ≠ p) (x : Hop) : (s.setHop p x).hop q = s.hop q := by
  rw [State.hop, State.setHop, tabGet?_tabPut_ne h, State.hop]

/-! ### What sending changes -/

/-- A hop as sending leaves it: the receive side stands, and the number of the next frame stays within its 16 bits. -/
structure HopSends (h x : Hop) : Prop where
  rxSeq : x.rxSeq = h.rxSeq
  rxq : x.rxq = h.rxq
  txSeq : h.txSeq < 65536 → x.txSeq < 65536

theorem HopSends.refl (h : Hop) : HopSends h h := ⟨rfl, rfl, id⟩

/-- From `s` to `u` packets were sent: of the registers only cells of `c` changed, of the hops only what sending changes, and
neither the delivery side, nor the receive side, nor the cellar. -/
structure Sends (c : Nat → Prop) (s u : State) : Prop where
  regs : ∀ k, ¬ c k → regLook u.regs k = regLook s.regs k
  hop : ∀ q, HopSends (s.hop q) (u.hop q)
  del : u.del = s.del
  rx : u.rx = s.rx
  cells : u.cells = s.cells

theorem Sends.refl (c : Nat → Prop) (s : State) : Sends c s s := ⟨fun _ _ => rfl, fun _ => .refl _, rfl, rfl, rfl⟩

theorem Sends.trans (h : Sends c s u) (h' : Sends c u w) : Sends c s w :=
  ⟨fun k hk => (h'.regs k hk).trans (h.regs k hk),
    fun q => ⟨(h'.hop q).rxSeq.trans (h.hop q).rxSeq, (h'.hop q).rxq.trans (h.hop q).rxq,
      (h'.hop q).txSeq ∘ (h.hop q).txSeq⟩,
    h'.del.trans h.del, h'.rx.trans h.rx, h'.cells.trans h.cells⟩

/-- A field of another cell reads as before. -/
theorem Sends.rd (h : Sends c s u) (hk : ¬ c (fldKey b f)) : u.rd b f = s.rd b f := by
  unfold State.rd; rw [h.regs _ hk]

theorem Frame.ring {fs : List (Nat × Fld)} {ps : List Nat} (h : Frame fs ps s u) : u.ring = s.ring := by rw [h.2.1]

/-- A frame of cells of `c` alone. -/
theorem sends_frame {fs : List (Nat × Fld)} {ps : List Nat} (h : Frame fs ps s u) (hf : ∀ x ∈ fs, c (fldKey x.1 x.2))
    (hp : ∀ n ∈ ps, ∀ k, evtKey n k = true → c k) : Sends c s u := by
  refine ⟨fun k hk => h.1 k (fun x hx he => hk (he ▸ hf x hx)) fun n hn => ?_,
    fun q => State.hop_congr h.ring q ▸ .refl _, h.del, h.rx, h.cells⟩
  exact Bool.eq_false_iff.2 fun he => hk (hp n hn k he)

theorem sends_step {fs : List (Nat × Fld)} {ps : List Nat} (h : Sends c s u) (hu : Frame fs ps u w)
    (hf : ∀ x ∈ fs, c (fldKey x.1 x.2)) (hp : ∀ n ∈ ps, ∀ k, evtKey n k = true → c k) : Sends c s w :=
  h.trans (sends_frame hu hf hp)

theorem sends_wr {v : Nat} (h : Sends c s u) (hk : c (fldKey b f)) : Sends c s (u.wr b f v) :=
  sends_step h (frame_wr1 u b f v) (by simpa using hk) (by simp)

theorem sends_raise {n e : Nat} (h : Sends c s u) (hn : ∀ k, evtKey n k = true → c k) : Sends c s (u.raise n e) :=
  sends_step (fs := []) (ps := [n]) h (frame_raise (frame_refl _ _ _) (by simp)) (by simp) (by simpa using hn)

theorem sends_setHop {x : Hop} (h : Sends c s u) (hx : HopSends (u.hop p) x) : Sends c s (u.setHop p x) := by
  refine h.trans ⟨fun _ _ => rfl, fun q => ?_, rfl, rfl, rfl⟩
  by_cases hq : q = p
  · subst hq; rwa [State.hop_setHop_same]
  · rw [State.hop_setHop_ne u hq]; exact .refl _

theorem sends_emit (h : Sends c s u) (e : Emission) : Sends c s (u.emit e) := by
  unfold State.emit
  split
  · exact h
  · exact h.trans ⟨fun _ _ => rfl, fun _ => .refl _, rfl, rfl, rfl⟩

theorem sends_sigPayload (h : Sends c s u) (type : Nat) (data : List Byte) : Sends c s (u.sigPayload type data).2 :=
  h.trans ⟨fun _ _ => rfl, fun _ => .refl _, rfl, rfl, rfl⟩

theorem sends_each {α : Type} {g : State → α → State} {l : List α}
    (hg : ∀ (u : State), ∀ a ∈ l, Sends c s u → Sends c s (g u a)) :
    ∀ u : State, Sends c s u → Sends c s (u.each l g) := by
  induction l with
  | nil => exact fun _ h => h
  | cons a l ih =>
    intro u h
    rw [State.each_cons]
    exact ih (fun u x hx => hg u x (by simp [hx])) _ (hg u a (by simp) h)

/-! ### Packets (R191, R196, R199 to R201, R213) -/

/-- `c` holds the cells that sending packets and judging wraps may write: those of the ports' pages behind the round trip,
WRAP_A, WRAP_B, HEALTH, and what events of page 0x014 write. -/
structure SendCells (c : Nat → Prop) : Prop where
  port : ∀ q f, 0x54 ≤ f.off → f.off < 0x1000 → f.lo < 32 → c (fldKey (pgRINGP q) f)
  wrapA : c (fldKey pgRING RING_WRAP_A)
  wrapB : c (fldKey pgRING RING_WRAP_B)
  health : c (fldKey pgTWIN TWIN_HEALTH)
  events : ∀ k, evtKey 0x14 k = true → c k

section
variable (hc : SendCells c) (h : Sends c s u)
include hc h

theorem sends_wrPort {v : Nat} (hlo : 0x54 ≤ f.off) (hhi : f.off < 0x1000) (hbit : f.lo < 32) :
    Sends c s (u.wr (pgRINGP p) f v) := sends_wr h (hc.port p f hlo hhi hbit)

theorem sends_addPort {n : Nat} (hlo : 0x54 ≤ f.off) (hhi : f.off < 0x1000) (hbit : f.lo < 32) :
    Sends c s (u.add (pgRINGP p) f n) := sends_wrPort hc h hlo hhi hbit

theorem sends_hopInc (hlo : 0x54 ≤ f.off) (hhi : f.off < 0x1000) (hbit : f.lo < 32) : Sends c s (u.hopInc p f) := by
  unfold State.hopInc
  split
  · exact sends_wrPort hc h hlo hhi hbit
  · exact h

theorem sends_sendFrame (ft vc lseq : Nat) (body : List Byte) : Sends c s (u.sendFrame p ft vc lseq body) :=
  sends_hopInc hc (sends_emit h _) (by decide) (by decide) (by decide)

theorem sends_mirrorHop (p : Nat) : Sends c s (u.mirrorHop p) := by
  have hput : ∀ {u : State} {f : Fld} {v : Nat}, f ∈ [RINGP_TX_LSEQ, RINGP_ACK_LSEQ, RINGP_REPLAY_BYTES] →
      Sends c s u → Sends c s (u.wr (pgRINGP p) f v) := fun hf h => by
    have hplace : ∀ g ∈ [RINGP_TX_LSEQ, RINGP_ACK_LSEQ, RINGP_REPLAY_BYTES], 0x54 ≤ g.off ∧ g.off < 0x1000 ∧ g.lo < 32 := by
      decide
    obtain ⟨hlo, hhi, hbit⟩ := hplace _ hf
    exact sends_wrPort hc h hlo hhi hbit
  unfold State.mirrorHop
  split
  · exact hput (by simp) (hput (by simp) (hput (by simp) h))
  · exact h

theorem sends_sendData (vc ft : Nat) (body : List Byte) : Sends c s (u.sendData p vc ft body) :=
  sends_mirrorHop hc (sends_sendFrame hc
    (sends_setHop h (by exact ⟨rfl, rfl, fun _ => Nat.mod_lt _ (by decide)⟩)) ft vc _ body) p

theorem sends_noteStall (stalled : Bool) : Sends c s (u.noteStall p stalled) := by
  unfold State.noteStall
  dsimp only
  split
  · exact sends_setHop h (by exact ⟨rfl, rfl, id⟩)
  · exact sends_addPort hc (sends_setHop h (by exact ⟨rfl, rfl, id⟩)) (by decide) (by decide) (by decide)
  · exact h

omit h in
theorem cell_credFld (p vc : Nat) : c (fldKey (pgRINGP p) (credFld vc)) := by
  unfold credFld
  split
  · exact hc.port p _ (by decide) (by decide) (by decide)
  · split <;> exact hc.port p _ (by decide) (by decide) (by decide)

omit h in
theorem sends_pumpN (n : Nat) : ∀ u : State, Sends c s u → Sends c s (u.pumpN p n) := by
  induction n with
  | zero => exact fun _ h => h
  | succ n ih =>
    intro u h
    unfold State.pumpN
    dsimp only
    split
    · exact h
    · split
      · exact sends_noteStall hc h _
      · exact ih _ (sends_sendData hc (sends_wr (sends_setHop h (by exact ⟨rfl, rfl, id⟩)) (cell_credFld hc p _)) _ _ _)

theorem sends_pump (p : Nat) : Sends c s (u.pump p) := sends_pumpN hc _ u h

theorem sends_toPort (own : Bool) (k : RingPkt) : Sends c s (u.toPort p own k) := by
  unfold State.toPort
  split
  · exact sends_sendFrame hc h _ _ _ _
  · exact sends_pump hc (sends_setHop h (by exact ⟨rfl, rfl, id⟩)) p

theorem sends_sendPort (own : Bool) (k : RingPkt) : Sends c s (u.sendPort p own k) := by
  unfold State.sendPort
  split
  · exact sends_toPort hc h own k
  · split
    · exact sends_hopInc hc h (by decide) (by decide) (by decide)
    · split
      · exact sends_toPort hc h own _
      · exact h

theorem sends_sendSig (type : Nat) (data : List Byte) : Sends c s (u.sendSig type data) :=
  sends_each (fun _ _ _ h => sends_sendPort hc h true _) _ (sends_sigPayload h type data)

/-! ### Wraps (R213, R214) -/

theorem sends_mirrorWrap (r : Nat) : Sends c s (u.mirrorWrap r) := by
  have hfld : c (fldKey pgRING (if r = 0 then RING_WRAP_A else RING_WRAP_B)) := by
    split
    exacts [hc.wrapA, hc.wrapB]
  unfold State.mirrorWrap
  dsimp only
  generalize (if r = 0 then RING_WRAP_A else RING_WRAP_B) = f at hfld ⊢
  have hmark : ∀ v : Bool, Sends c s ((u.wrB pgRING f v).mirrorRingHealth r) := fun v =>
    sends_wr (sends_wr h hfld) hc.health
  split
  · exact sends_raise (hmark _) hc.events
  · split
    · exact sends_raise (hmark _) hc.events
    · exact hmark _

end

end Sys2Proof.Machine
end

section
/-! SUPPORT. Training of a ring port or Ngato lane, and its link coming UP, for O38 (R193, R195, R208, R243). -/

namespace Sys2Proof.Machine

variable {s u : State} {p : Nat}

/-! ### Training begins (R193) -/

/-- A hop from the first step of a training attempt. -/
def trainBegun (h : Hop) (slow : Bool) (now : Nat) : Hop :=
  { h with lock := false, slow := slow, trainAt := now, trains := 0, hello := false }

/-- The fields of a ring port that show its training. -/
abbrev trainFields (p : Nat) : List (Nat × Fld) := [(pgRINGP p, RINGP_LSTATE), (pgRINGP p, RINGP_RATE)]

section
variable (hp : p < 4)
include hp

theorem State.trainFrom_port (s : State) (slow : Bool) : s.trainFrom p slow =
    ((s.setHop p (trainBegun (s.hop p) slow s.time.clk)).wrB (pgRINGP p) RINGP_RATE slow).wr (pgRINGP p) RINGP_LSTATE
      lsTRAIN := if_pos hp

theorem State.hop_trainFrom (s : State) (slow : Bool) :
    (s.trainFrom p slow).hop p = trainBegun (s.hop p) slow s.time.clk := by
  rw [State.trainFrom_port hp, State.hop_congr (State.wr_ring _ _ _ _), State.hop_congr (State.wrB_ring _ _ _ _),
    State.hop_setHop_same]

theorem State.lstate_trainFrom (s : State) (slow : Bool) : (s.trainFrom p slow).lstate p = 1 := by
  rw [State.trainFrom_port hp, State.lstate, State.rd_wr_same]
  rfl

theorem LineFrame.trainFrom {fs : List (Nat × Fld)} (h : LineFrame fs s u) (hm : ∀ x ∈ trainFields p, x ∈ fs)
    (slow : Bool) : LineFrame fs s (u.trainFrom p slow) := by
  rw [State.trainFrom_port hp]
  exact (h.setHop.wr (hm _ (by simp))).wr (hm _ (by simp))

theorem State.out_trainFrom (s : State) (slow : Bool) : (s.trainFrom p slow).out = s.out := by
  rw [State.trainFrom_port hp]
  rfl

end

/-! ### A good TRAIN frame (R193, R195) -/

/-- A hop after a TRAIN frame of these versions and credits, the `n`th alike in a row. -/
def trainHeard (h : Hop) (mx mn minor : Nat) (cred : List Nat) (n : Nat) : Hop :=
  { h with trains := n, peerMax := mx, peerMin := mn, peerMinor := minor, peerCred := cred }

/-- The hop's TRAIN frame heard and the common version of it shown. -/
def versionShown (s : State) (p minor : Nat) (h : Hop) : State :=
  ((s.setHop p h).wr (pgRINGP p) RINGP_VER_MAJ 3).wr (pgRINGP p) RINGP_VER_MIN (min minor Config.ringMinor)

@[simp] theorem State.hop_versionShown (s : State) (p minor : Nat) (h : Hop) : (versionShown s p minor h).hop p = h :=
  (State.hop_congr (s := s.setHop p h) rfl p).trans (State.hop_setHop_same s p h)

theorem State.trainRing_third {minor : Nat} {cred : List Nat} (hcred : ∀ n ∈ cred, 38 ≤ n)
    (htrains : (s.hop p).trains = 2) (hmax : (s.hop p).peerMax = 3) (hmin : (s.hop p).peerMin = 2) (hminor : (s.hop p).peerMinor = minor)
    (hpeer : (s.hop p).peerCred = cred) : s.trainRing p 3 2 minor cred =
      (versionShown s p minor (trainHeard (s.hop p) 3 2 minor cred 3)).setHop p
        { s.hop p with trains := 3, hello := true } := by
  have hmaj : commonMajor 3 2 = some 3 := by decide
  have henough : (cred.any fun n => decide (n < 38)) = false := by
    simpa [List.any_eq_false] using fun n hn => hcred n hn
  have hready : { trainHeard (s.hop p) 3 2 minor cred 3 with hello := true } =
      { s.hop p with trains := 3, hello := true } := by rw [trainHeard, ← hmax, ← hmin, ← hminor, ← hpeer]
  have hstep : s.trainRing p 3 2 minor cred = (versionShown s p minor (trainHeard (s.hop p) 3 2 minor cred 3)).setHop p
      { (versionShown s p minor (trainHeard (s.hop p) 3 2 minor cred 3)).hop p with hello := true } := by
    unfold State.trainRing
    rw [hmaj]
    simp only [hmax, hmin, hminor, hpeer, htrains, henough, beq_self_eq_true, Bool.and_self, if_true]
    rw [if_neg (by simp), if_neg (by simp), if_neg (by simp)]
    rfl
  rw [hstep, State.hop_versionShown, hready]

theorem lineFrame_versionShown (minor : Nat) (h : Hop) :
    LineFrame [(pgRINGP p, RINGP_VER_MAJ), (pgRINGP p, RINGP_VER_MIN)] s (versionShown s p minor h) :=
  ((LineFrame.refl _ _).setHop.wr (by simp)).wr (by simp)

theorem State.rd_verMaj_versionShown (minor : Nat) (h : Hop) :
    (versionShown s p minor h).rd (pgRINGP p) RINGP_VER_MAJ = 3 := by
  rw [versionShown, State.rd_wr_ne _ (ringpKey_ne (by decide)), State.rd_wr_same]
  rfl

/-- No version in common: the hop is refused with cause 4 and trains on. -/
theorem State.trainRing_noVersion {mx mn : Nat} (hmn : 3 < mn) (minor : Nat) (cred : List Nat) :
    s.trainRing p mx mn minor cred = (s.setHop p { s.hop p with trains := 0 }).refuseHop p lsTRAIN 4 := by
  have hmaj : commonMajor mx mn = none := if_neg (by simp only [majMin, majMax]; omega)
  unfold State.trainRing
  rw [hmaj]

/-! ### A hop refused (R193, R208) -/

section
variable {ls cause : Nat}

theorem frame_refuseHop (ls cause : Nat) : Frame [(pgRINGP p, RINGP_LSTATE), (pgRINGP p, RINGP_CAUSE)] [0x10 + p] s
    (s.refuseHop p ls cause) :=
  frame_raise (frame_wr (frame_wr (frame_refl _ _ _) (by simp)) (by simp)) (by simp)

theorem State.hop_refuseHop (ls cause q : Nat) : (s.refuseHop p ls cause).hop q = s.hop q :=
  State.hop_congr (frame_refuseHop ls cause).ring q

theorem pends_refuseHop (hp : p < 4) : (s.refuseHop p ls cause).pends (0x10 + p) 3 = true :=
  pends_raise_self (by omega) (by decide)

/-- No event of a ring port's page writes the words behind its header. -/
theorem evtKey_ringp {f : Fld} (hp : p < 4) (hlo : 0x40 ≤ f.off) (hhi : f.off < 0x1000) (hbit : f.lo < 32) :
    evtKey (0x10 + p) (fldKey (pgRINGP p) f) = false := by
  rw [evtKey_iff]; simp only [fldKey, pgRINGP]; omega

theorem State.rd_refuseHop (hp : p < 4) (hls : ls < 4) (hcause : cause < 16) :
    (s.refuseHop p ls cause).lstate p = ls ∧ (s.refuseHop p ls cause).rd (pgRINGP p) RINGP_CAUSE = cause := by
  unfold State.refuseHop State.lstate
  dsimp only
  rw [State.rd_raise (evtKey_ringp hp (by decide) (by decide) (by decide)),
    State.rd_raise (evtKey_ringp hp (by decide) (by decide) (by decide)), State.rd_wr_ne _ (ringpKey_ne (by decide)),
    State.rd_wr_same, State.rd_wr_same]
  exact ⟨Nat.mod_eq_of_lt hls, Nat.mod_eq_of_lt hcause⟩

end

/-! ### A port comes UP (R193, R208) -/

/-- The cells of a ring port's page that show the state of its link: LSTATE to PEER_ID, and RTT_NS. -/
def statusCell (p k : Nat) : Prop := 8 * (pgRINGP p + 0x40) ≤ k ∧ k < 8 * (pgRINGP p + 0x50)

theorem sendCells_not_status (hp : p < 4) : SendCells (fun k => ¬ statusCell p k) where
  port q f hlo hhi hbit := by simp only [statusCell, fldKey, pgRINGP]; omega
  wrapA := by simp only [statusCell, fldKey, pgRINGP, pgRING]; omega
  wrapB := by simp only [statusCell, fldKey, pgRINGP, pgRING]; omega
  health := by simp only [statusCell, fldKey, pgRINGP, pgTWIN]; omega
  events k hk := by
    rintro ⟨hlo, hhi⟩
    simp only [pgRINGP] at hlo hhi
    exact absurd hk (Bool.eq_false_iff.1 ((evtKey_iff _ _).2 (by omega)))

/-- The peer's credits shown. -/
def creditsShown (s : State) (p : Nat) (cred : List Nat) : State :=
  s.each (cred.zip [RINGP_CR_CPL, RINGP_CR_REQ, RINGP_CR_ITEM]) (fun s e => s.wr (pgRINGP p) e.2 e.1)

/-- A hop as its link comes UP: numbers from 0 both ways, the receive side empty. -/
def hopBegun (h : Hop) : Hop :=
  { h with txSeq := 0, rxSeq := 0, nakAt := none, stuck := 0, freed := [0, 0, 0], freedSent := [0, 0, 0]
           peerFreed := [0, 0, 0], hopRes := [], rxq := [] }

/-- The link as LINK_UP begins: numbers from 0, buffers empty, the neighbour and the round trip shown. -/
def linkBegun (s : State) (p id rtt : Nat) : State :=
  let b := pgRINGP p
  let u := (((s.setHop p (hopBegun (s.hop p))).wr b RINGP_LSTATE lsUP).wr b RINGP_CAUSE 0).wr b RINGP_PEER_ID id
  ((creditsShown u p (s.hop p).peerCred).wr b RINGP_RTT_NS rtt).wr b RINGP_REPLAY_US (max 5 (roundDiv rtt 1000 + 4))

/-- The events of LINK_UP raised. -/
def linkAnnounced (s : State) (p : Nat) : State :=
  let s := (s.mirrorHop p).raise (0x10 + p) 0
  s.when (s.rd (pgRINGP p) RINGP_VER_MAJ == 2) (·.raise (0x10 + p) 4)

/-- The wrap judged, and a SIG with data of the hub's state sent to both hubs before the port's own packets. -/
def linkTold (s : State) (p : Nat) : State :=
  let s := s.mirrorWrap (ringOf p)
  (s.sendSig 0x02 (leBytes 1 (ringOf p) ++ leBytes 1 (sideOf p) ++ leBytes 1 (s.rd (pgRINGP p) RINGP_VER_MAJ)
    ++ leBytes 1 (s.rd (pgRINGP p) RINGP_RATE))).pump p

theorem State.linkUp_eq (s : State) (p id rtt : Nat) :
    s.linkUp p id rtt = linkTold (linkAnnounced (linkBegun s p id rtt) p) p := rfl

theorem sends_linkAnnounced {c : Nat → Prop} (hc : SendCells c) (hev : ∀ k, evtKey (0x10 + p) k = true → c k)
    (h : Sends c s u) : Sends c s (linkAnnounced u p) := by
  have hup := sends_raise (e := 0) (sends_mirrorHop hc h p) hev
  unfold linkAnnounced State.when
  dsimp only
  split
  · exact sends_raise hup hev
  · exact hup

theorem sends_linkTold {c : Nat → Prop} (hc : SendCells c) (h : Sends c s u) : Sends c s (linkTold u p) :=
  sends_pump hc (sends_sendSig hc (sends_mirrorWrap hc h _) _ _) p

/-- Everything after the link's registers are set leaves them, and the hop's receive side, as they are. -/
theorem sends_linkUp (hp : p < 4) (id rtt : Nat) :
    Sends (fun k => ¬ statusCell p k) (linkBegun s p id rtt) (s.linkUp p id rtt) := by
  have hev : ∀ k, evtKey (0x10 + p) k = true → ¬ statusCell p k := by
    rintro k hk ⟨hlo, hhi⟩
    simp only [pgRINGP] at hlo hhi
    exact absurd hk (Bool.eq_false_iff.1 ((evtKey_iff _ _).2 (by omega)))
  rw [State.linkUp_eq]
  exact sends_linkTold (sendCells_not_status hp) (sends_linkAnnounced (sendCells_not_status hp) hev (.refl _ _))

/-- Sending leaves the pending events of a ring port's page alone. -/
theorem sendCells_not_pendingEvents (hp : p < 4) : SendCells (fun k => k ≠ fldKey (pgAt (0x10 + p)) PG_PG_EVT) where
  port q f hlo hhi hbit := by simp only [fldKey, pgRINGP, pgAt]; omega
  wrapA := by simp only [fldKey, pgAt, pgRING]; omega
  wrapB := by simp only [fldKey, pgAt, pgRING]; omega
  health := by simp only [fldKey, pgAt, pgTWIN]; omega
  events k hk := by
    rintro rfl
    exact absurd hk (Bool.eq_false_iff.1 ((evtKey_iff _ _).2 (by simp only [fldKey, pgAt]; omega)))

/-- LINK_UP stands pending after all that follows it. -/
theorem pends_linkUp (hp : p < 4) (id rtt : Nat) : (s.linkUp p id rtt).pends (0x10 + p) 0 = true := by
  have hannounced : (linkAnnounced (linkBegun s p id rtt) p).pends (0x10 + p) 0 = true :=
    pends_when (pends_raise_self (by omega) (by decide))
      (pends_raise (by omega) (by decide) (by omega) (pends_raise_self (by omega) (by decide)))
  rw [State.linkUp_eq, State.pends, (sends_linkTold (sendCells_not_pendingEvents hp) (.refl _ _)).rd (by simp)]
  exact hannounced

/-! ### What a port that came UP shows -/

/-- Fields of one page written in turn. -/
theorem frame_wrAll {b : Nat} {fs : List (Nat × Fld)} {l : List (Nat × Fld)} (hl : ∀ e ∈ l, (b, e.2) ∈ fs) :
    ∀ u : State, Frame fs [] s u → Frame fs [] s (u.each l fun u e => u.wr b e.2 e.1) := by
  induction l with
  | nil => exact fun _ h => h
  | cons e l ih => exact fun u h => ih (fun x hx => hl x (by simp [hx])) _ (frame_wr h (hl e (by simp)))

theorem frame_creditsShown (s : State) (cred : List Nat) :
    Frame [(pgRINGP p, RINGP_CR_CPL), (pgRINGP p, RINGP_CR_REQ), (pgRINGP p, RINGP_CR_ITEM)] [] s (creditsShown s p cred) :=
  frame_wrAll (fun e he => by simpa using (List.of_mem_zip he).2) s (frame_refl _ _ _)

theorem State.rd_creditsShown {f : Fld} (s : State) (cred : List Nat)
    (hf : ∀ g ∈ [RINGP_CR_CPL, RINGP_CR_REQ, RINGP_CR_ITEM], 8 * f.off + f.lo ≠ 8 * g.off + g.lo) :
    (creditsShown s p cred).rd (pgRINGP p) f = s.rd (pgRINGP p) f := by
  obtain ⟨hcpl, hreq, hitem⟩ : _ ∧ _ ∧ _ := by simpa using hf
  exact (frame_creditsShown s cred).rd (by simpa using ⟨ringpKey_ne hcpl, ringpKey_ne hreq, ringpKey_ne hitem⟩) (by simp)

theorem State.lstate_linkBegun (id rtt : Nat) : (linkBegun s p id rtt).lstate p = 2 := by
  rw [State.lstate, linkBegun, State.rd_wr_ne _ (ringpKey_ne (by decide)), State.rd_wr_ne _ (ringpKey_ne (by decide)),
    State.rd_creditsShown _ _ (by decide), State.rd_wr_ne _ (ringpKey_ne (by decide)),
    State.rd_wr_ne _ (ringpKey_ne (by decide)), State.rd_wr_same]
  rfl

theorem State.rd_cause_linkBegun (id rtt : Nat) : (linkBegun s p id rtt).rd (pgRINGP p) RINGP_CAUSE = 0 := by
  rw [linkBegun, State.rd_wr_ne _ (ringpKey_ne (by decide)), State.rd_wr_ne _ (ringpKey_ne (by decide)),
    State.rd_creditsShown _ _ (by decide), State.rd_wr_ne _ (ringpKey_ne (by decide)), State.rd_wr_same]
  rfl

theorem State.rd_peerId_linkBegun (id rtt : Nat) :
    (linkBegun s p id rtt).rd (pgRINGP p) RINGP_PEER_ID = id % 2 ^ RINGP_PEER_ID.width := by
  rw [linkBegun, State.rd_wr_ne _ (ringpKey_ne (by decide)), State.rd_wr_ne _ (ringpKey_ne (by decide)),
    State.rd_creditsShown _ _ (by decide), State.rd_wr_same]

theorem State.rd_rtt_linkBegun (id rtt : Nat) :
    (linkBegun s p id rtt).rd (pgRINGP p) RINGP_RTT_NS = rtt % 2 ^ RINGP_RTT_NS.width := by
  rw [linkBegun, State.rd_wr_ne _ (ringpKey_ne (by decide)), State.rd_wr_same]

/-- From the hop begun on, only registers of the port change. -/
theorem frame_linkBegun (id rtt : Nat) :
    Frame ([RINGP_LSTATE, RINGP_CAUSE, RINGP_PEER_ID, RINGP_CR_CPL, RINGP_CR_REQ, RINGP_CR_ITEM, RINGP_RTT_NS,
      RINGP_REPLAY_US].map (pgRINGP p, ·)) [] (s.setHop p (hopBegun (s.hop p))) (linkBegun s p id rtt) :=
  frame_wr (frame_wr (frame_wrAll (fun e he => by
      have hfld : e.2 ∈ [RINGP_CR_CPL, RINGP_CR_REQ, RINGP_CR_ITEM] := (List.of_mem_zip he).2
      simp only [List.mem_cons, List.not_mem_nil, or_false] at hfld
      simp only [List.map_cons, List.map_nil, List.mem_cons, Prod.mk.injEq, true_and]
      tauto) _
    (frame_wr (frame_wr (frame_wr (frame_refl _ _ _) (by simp)) (by simp)) (by simp))) (by simp)) (by simp)

theorem State.hop_linkBegun (id rtt : Nat) : (linkBegun s p id rtt).hop p = hopBegun (s.hop p) := by
  rw [State.hop_congr (frame_linkBegun id rtt).ring, State.hop_setHop_same]

/-- A port that came UP: its state and the neighbour shown, the receive side empty, the event pending, and nothing of
delivery, reception or the cellar touched (R193, R208). -/
structure CameUp (s : State) (p id rtt : Nat) (u : State) : Prop where
  lstate : u.lstate p = 2
  cause : u.rd (pgRINGP p) RINGP_CAUSE = 0
  peerId : u.rd (pgRINGP p) RINGP_PEER_ID = id % 2 ^ RINGP_PEER_ID.width
  rtt : u.rd (pgRINGP p) RINGP_RTT_NS = rtt % 2 ^ RINGP_RTT_NS.width
  rxSeq : (u.hop p).rxSeq = 0
  rxq : (u.hop p).rxq = []
  pends : u.pends (0x10 + p) 0 = true
  del : u.del = s.del
  rx : u.rx = s.rx
  cells : u.cells = s.cells

/-- The command's instant is no part of it. -/
theorem CameUp.atInstant {id rtt : Nat} (h : CameUp s p id rtt u) (pending : List Instr) (time : TimeBase) :
    CameUp s p id rtt { u with pending := pending, time := time } :=
  ⟨h.lstate, h.cause, h.peerId, h.rtt, h.rxSeq, h.rxq, h.pends, h.del, h.rx, h.cells⟩

theorem cameUp_linkUp (hp : p < 4) (id rtt : Nat) : CameUp s p id rtt (s.linkUp p id rtt) := by
  have hsent := sends_linkUp (s := s) hp id rtt
  have hshown : ∀ {f : Fld}, 8 * 0x40 ≤ 8 * f.off + f.lo → 8 * f.off + f.lo < 8 * 0x50 →
      (s.linkUp p id rtt).rd (pgRINGP p) f = (linkBegun s p id rtt).rd (pgRINGP p) f := fun hlo hhi =>
    hsent.rd (not_not_intro ⟨by simp only [fldKey]; omega, by simp only [fldKey]; omega⟩)
  have hbegun := frame_linkBegun (s := s) (p := p) id rtt
  have hhop := State.hop_linkBegun (s := s) (p := p) id rtt
  exact
    { lstate := (hshown (by decide) (by decide)).trans (State.lstate_linkBegun id rtt)
      cause := (hshown (by decide) (by decide)).trans (State.rd_cause_linkBegun id rtt)
      peerId := (hshown (by decide) (by decide)).trans (State.rd_peerId_linkBegun id rtt)
      rtt := (hshown (by decide) (by decide)).trans (State.rd_rtt_linkBegun id rtt)
      rxSeq := (hsent.hop p).rxSeq.trans (congrArg Hop.rxSeq hhop)
      rxq := (hsent.hop p).rxq.trans (congrArg Hop.rxq hhop)
      pends := pends_linkUp hp id rtt
      del := hsent.del.trans hbegun.del
      rx := hsent.rx.trans hbegun.rx
      cells := hsent.cells.trans hbegun.cells }

end Sys2Proof.Machine
end

section
/-! PROOF of O38: what a lane that trains receives and sends, and how it comes UP (R193, R195, R198, R208, R213, R241,
R243). -/

namespace Sys2Proof.Machine

variable {s : State} {p t : Nat}

section
variable (hp : p < 4)
include hp

/-- A ring port's number counts the ring ports and Ngato lanes. -/
theorem port_mod_six : p % 6 = p := Nat.mod_eq_of_lt (by omega)

/-! ### Signal and lock -/

/-- Training begins in a state whose hop is `h`. -/
theorem happen_trainFrom {h : Hop} {slow : Bool} {g : State → State}
    (hg : g (s.at t) = ((s.at t).setHop p h).trainFrom p slow) : ∃ u, s.happen t g = .next u ∧ u.lstate p = 1 ∧
      u.hop p = trainBegun h slow (max s.time.clk t) ∧ Frame (trainFields p) [] (s.at t) { u with ring := s.ring } := by
  have hframe : LineFrame (trainFields p) (s.at t) (((s.at t).setHop p h).trainFrom p slow) :=
    LineFrame.trainFrom hp (LineFrame.refl _ _).setHop (fun _ hx => hx) slow
  refine ⟨_, State.happen_line s hg hframe, State.lstate_trainFrom hp _ slow, ?_,
    hframe.frame (State.out_trainFrom hp _ slow)⟩
  rw [State.hop_trainFrom hp, State.hop_setHop_same]
  exact congrArg (trainBegun h slow) (State.at_clk s t)

theorem exec_signalDetect_port (hdown : s.lstate p = 0)
    (hmay : ({ s.setHop p { s.hop p with signal := true } with out := s.out }).mayTrain p = true) :
    ∃ u, exec (.signalDetect t p) s = .next u ∧ u.lstate p = 1 ∧
      u.hop p = trainBegun { s.hop p with signal := true } (s.startSlow p) (max s.time.clk t) ∧
      Frame (trainFields p) [] (s.at t) { u with ring := s.ring } := by
  rw [exec_signalDetect, execSignalDetect, Nat.mod_eq_of_lt (show p < 8 by omega)]
  refine happen_trainFrom hp ?_
  have hslow : ((s.at t).setHop p { (s.at t).hop p with signal := true }).startSlow p = s.startSlow p := by
    simp only [State.startSlow, State.hop_setHop_same]
    rfl
  have hdown' : ((s.at t).setHop p { (s.at t).hop p with signal := true }).lstate p = lsDOWN := hdown
  have hmay' : ((s.at t).setHop p { (s.at t).hop p with signal := true }).mayTrain p = true := hmay
  simp only [State.signalOn, if_pos hp, State.startTrain]
  rw [if_pos hdown', if_pos hmay', hslow]
  rfl

theorem exec_blockLock_training (htrain : s.training p = true) (hlock : (s.hop p).lock = false) :
    ∃ u, exec (.blockLock t p) s = .next u ∧
      u.hop p = { s.hop p with lock := true, trainAt := max s.time.clk t, trains := 0 } ∧
      u.out = s.out ++ [.lineTx p (frameBytes ftTRAIN 0 0 (Config.trainBody (s.trainFields p)))] ∧
      RegsBut [(pgRINGP p, RINGP_C_FRAMES_TX)] [] s u := by
  rw [exec_blockLock, execBlockLock, port_mod_six hp, ← State.at_clk]
  have hgo : ((s.at t).training p && !((s.at t).hop p).lock) = true := by
    rw [show (s.at t).training p = true from htrain, show ((s.at t).hop p).lock = false from hlock]
    rfl
  exact happen_hopSent s t hp _ _ _ _ (if_pos hgo)

theorem exec_blockLockTimeout_late (htrain : s.training p = true) (hlock : (s.hop p).lock = false)
    (hlate : (s.hop p).trainAt + 2 * msU ≤ max s.time.clk t) : ∃ u, exec (.blockLockTimeout t p) s = .next u ∧
      (u.hop p).slow = (if s.rd (pgRINGP p) RINGP_RATE_CTL == 0 then !(s.hop p).slow else (s.hop p).slow) ∧
      (u.hop p).trainAt = max s.time.clk t ∧ u.lstate p = 1 ∧
      Frame (trainFields p) [] (s.at t) { u with ring := s.ring } := by
  have hhop : (s.at t).hop p = s.hop p := rfl
  have hgo : ((s.at t).training p && !(s.hop p).lock &&
      decide ((s.hop p).trainAt + 2 * msU ≤ (s.at t).time.clk)) = true := by
    rw [show (s.at t).training p = true from htrain, hlock, State.at_clk, decide_eq_true hlate]
    rfl
  let slow := if s.rd (pgRINGP p) RINGP_RATE_CTL == 0 then !(s.hop p).slow else (s.hop p).slow
  have hframe : LineFrame (trainFields p) (s.at t) ((s.at t).trainFrom p slow) :=
    LineFrame.trainFrom hp (LineFrame.refl _ _) (fun _ hx => hx) slow
  have hbegun := State.hop_trainFrom hp (s.at t) slow
  rw [exec_blockLockTimeout, execBlockLockTimeout, port_mod_six hp]
  refine ⟨_, State.happen_line s ?_ hframe, congrArg Hop.slow hbegun, ?_, State.lstate_trainFrom hp _ slow,
    hframe.frame (State.out_trainFrom hp _ slow)⟩
  · dsimp only
    rw [hhop, if_pos hgo, decide_eq_true hp, Bool.true_and]
    rfl
  · exact (congrArg Hop.trainAt hbegun).trans (State.at_clk s t)

/-! ### TRAIN frames -/

/-- A frame leaves and nothing else happens. -/
theorem happen_sent {ft vc lseq : Nat} {body : List Byte} {g : State → State}
    (hg : g (s.at t) = (s.at t).sendFrame p ft vc lseq body) : ∃ u, s.happen t g = .next u ∧
      u.out = s.out ++ [.lineTx p (frameBytes ft vc lseq body)] ∧ RegsBut [(pgRINGP p, RINGP_C_FRAMES_TX)] [] s u ∧
      u.ring = s.ring ∧ u.del = s.del := by
  have hframe : LineFrame [(pgRINGP p, RINGP_C_FRAMES_TX)] (s.at t) ((s.at t).sendFrame p ft vc lseq body) :=
    (LineFrame.refl _ _).sendFrame hp (by simp)
  exact ⟨_, State.happen_line s hg hframe, State.sendFrame_out _, hframe.regs, State.sendFrame_ring _, hframe.del⟩

theorem exec_trainSend_locked {bad : Nat} (htrain : s.training p = true) (hlock : (s.hop p).lock = true)
    (hbad : bad ≤ 16) : ∃ u, exec (.trainSend t p bad) s = .next u ∧
      u.out = s.out ++ [.lineTx p (frameBytes ftTRAIN 0 0 (Config.trainBody (s.trainFields p)))] ∧
      RegsBut [(pgRINGP p, RINGP_C_FRAMES_TX)] [] s u ∧ u.ring = s.ring ∧ u.del = s.del := by
  rw [exec_trainSend, execTrainSend, port_mod_six hp]
  refine happen_sent hp ?_
  have htrain' : (s.at t).training p = true := htrain
  have hlock' : ((s.at t).hop p).lock = true := hlock
  have hfew : ¬ 16 < bad := by omega
  simp only [htrain', hlock', hfew, Bool.not_true, Bool.or_self, decide_false, Bool.false_and, Bool.false_eq_true, if_false]
  rfl

section
variable (htrain : s.training p = true) (hlock : (s.hop p).lock = true)
include htrain hlock

/-- A good TRAIN frame on a ring port is counted and heard. -/
theorem State.trainIn_good (mx mn minor build : Nat) (cred : List Nat) :
    s.trainIn p true mx mn minor build cred = (s.inc (pgRINGP p) RINGP_C_FRAMES_RX).trainRing p mx mn minor cred := by
  unfold State.trainIn
  simp only [htrain, hlock, Bool.not_true, Bool.or_self, Bool.false_eq_true, if_false, if_pos hp, State.hopInc_port hp]

theorem exec_trainFrame_third {minor build : Nat} {cred : List Nat} (htrains : (s.hop p).trains = 2) (hminor : minor < 256)
    (hcred : ∀ c ∈ cred, 38 ≤ c ∧ c < 65536) (hmax : (s.hop p).peerMax = 3) (hmin : (s.hop p).peerMin = 2)
    (hsame : (s.hop p).peerMinor = minor) (hpeer : (s.hop p).peerCred = cred) :
    ∃ u, exec (.trainFrame t p true 3 2 minor build cred) s = .next u ∧
      u.hop p = { s.hop p with trains := 3, hello := true } ∧ u.rd (pgRINGP p) RINGP_VER_MAJ = 3 ∧
      Frame [(pgRINGP p, RINGP_C_FRAMES_RX), (pgRINGP p, RINGP_VER_MAJ), (pgRINGP p, RINGP_VER_MIN)] [] (s.at t)
        { u with ring := s.ring } := by
  have hcred' : cred.map (· % 65536) = cred :=
    (List.map_congr_left fun c hc => Nat.mod_eq_of_lt (hcred c hc).2).trans (List.map_id cred)
  let v := (s.at t).inc (pgRINGP p) RINGP_C_FRAMES_RX
  let u := (versionShown v p minor (trainHeard (s.hop p) 3 2 minor cred 3)).setHop p
    { s.hop p with trains := 3, hello := true }
  have hframe : LineFrame [(pgRINGP p, RINGP_C_FRAMES_RX), (pgRINGP p, RINGP_VER_MAJ), (pgRINGP p, RINGP_VER_MIN)]
      (s.at t) u := ((((LineFrame.refl _ _).inc (by simp)).setHop.wr (by simp)).wr (by simp)).setHop
  rw [exec_trainFrame, execTrainFrame, port_mod_six hp, hcred', Nat.mod_eq_of_lt hminor]
  refine ⟨u, State.happen_line s ?_ hframe, State.hop_setHop_same _ _ _, State.rd_verMaj_versionShown _ _,
    hframe.frame rfl⟩
  exact (State.trainIn_good hp (s := s.at t) htrain hlock 3 2 minor _ cred).trans
    (State.trainRing_third (s := v) (fun c hc => (hcred c hc).1) htrains hmax hmin hsame hpeer)

theorem exec_trainFrame_noVersion {mx mn : Nat} (hmn : 3 < mn) (hle : mn ≤ mx) (hmx : mx < 256) (minor build : Nat)
    (cred : List Nat) : ∃ u, exec (.trainFrame t p true mx mn minor build cred) s = .next u ∧ (u.hop p).trains = 0 ∧
      u.rd (pgRINGP p) RINGP_CAUSE = 4 ∧ u.pends (0x10 + p) 3 = true ∧ u.lstate p = 1 := by
  let v := (s.at t).inc (pgRINGP p) RINGP_C_FRAMES_RX
  let w := v.setHop p { s.hop p with trains := 0 }
  have hin : (s.at t).trainIn p true mx mn (minor % 256) (build % 65536) (cred.map (· % 65536)) = w.refuseHop p lsTRAIN 4 :=
    (State.trainIn_good hp (s := s.at t) htrain hlock _ _ _ _ _).trans (State.trainRing_noVersion (s := v) hmn _ _)
  obtain ⟨hlstate, hcause⟩ := State.rd_refuseHop (s := w) hp (ls := lsTRAIN) (cause := 4) (by decide) (by decide)
  have hframe : Frame _ _ w (w.refuseHop p lsTRAIN 4) := frame_refuseHop lsTRAIN 4
  rw [exec_trainFrame, execTrainFrame, port_mod_six hp, Nat.mod_eq_of_lt hmx, Nat.mod_eq_of_lt (by omega)]
  refine ⟨_, State.happen_eq s hin hframe.pending hframe.time, ?_, hcause, pends_refuseHop hp, hlstate⟩
  rw [State.hop_refuseHop, State.hop_setHop_same]

/-- A frame that fails its LCRC where the rate may not fall starts the count again. -/
theorem exec_trainFrame_badCrc (hfall : (s.at t).mayFall p = false) (mx mn minor build : Nat) (cred : List Nat) :
    ∃ u, exec (.trainFrame t p false mx mn minor build cred) s = .next u ∧ u.hop p = { s.hop p with trains := 0 } ∧
      Frame [(pgRINGP p, RINGP_C_LCRC_ERR)] [] (s.at t) { u with ring := s.ring } := by
  let w := ((s.at t).inc (pgRINGP p) RINGP_C_LCRC_ERR).setHop p { s.hop p with trains := 0 }
  have hframe : LineFrame [(pgRINGP p, RINGP_C_LCRC_ERR)] (s.at t) w := ((LineFrame.refl _ _).inc (by simp)).setHop
  have hkept : w.mayFall p = false := by
    have hctl : w.rd (pgRINGP p) RINGP_RATE_CTL = (s.at t).rd (pgRINGP p) RINGP_RATE_CTL :=
      State.rd_inc_ne (ringpKey_ne (by decide))
    rw [← hfall, State.mayFall, hctl, State.hop_setHop_same]
    rfl
  have hin : (s.at t).trainIn p false (mx % 256) (mn % 256) (minor % 256) (build % 65536) (cred.map (· % 65536)) = w := by
    have hheard : (!(s.at t).training p || !((s.at t).hop p).lock) = false := by
      rw [show (s.at t).training p = true from htrain, show ((s.at t).hop p).lock = true from hlock]
      rfl
    rw [State.trainIn, if_neg (Bool.eq_false_iff.1 hheard), if_pos (by rfl), State.hopInc_port hp]
    exact if_neg (Bool.eq_false_iff.1 hkept)
  rw [exec_trainFrame, execTrainFrame, port_mod_six hp]
  exact ⟨w, State.happen_line s hin hframe, State.hop_setHop_same _ _ _, hframe.frame rfl⟩

end

omit hp in
/-- Once a millisecond has gone since lock, or at the low rate, or with the rate set, the rate does not fall. -/
theorem State.mayFall_at
    (hwhy : (s.hop p).trainAt + msU ≤ s.time.clk ∨ (s.hop p).slow = true ∨ s.rd (pgRINGP p) RINGP_RATE_CTL ≠ 0) :
    (s.at t).mayFall p = false := by
  have hclk : s.time.clk ≤ (s.at t).time.clk := by rw [State.at_clk]; exact le_max_left _ _
  have hhop : (s.at t).hop p = s.hop p := rfl
  have hctl : (s.at t).rd (pgRINGP p) RINGP_RATE_CTL = s.rd (pgRINGP p) RINGP_RATE_CTL := rfl
  unfold State.mayFall
  rw [hhop, hctl]
  rcases hwhy with hlate | hslow | hset
  · rw [decide_eq_false (show ¬ (s.at t).time.clk < (s.hop p).trainAt + msU by omega), Bool.and_false]
  · simp [hslow]
  · simp [hset]

/-! ### HELLO frames -/

theorem exec_helloSend_ready (hready : (s.hop p).hello = true) : ∃ u, exec (.helloSend t p) s = .next u ∧
    u.out = s.out ++ [.lineTx p (frameBytes ftHELLO 0 0 (Config.helloBody [s.nodeId, 1, p / 2, p % 2,
      Config.incarn (s.rd pgSBOX SBOX_BOOT), 3, Config.ringMinor]))] ∧
    RegsBut [(pgRINGP p, RINGP_C_FRAMES_TX)] [] s u ∧ u.ring = s.ring ∧ u.del = s.del := by
  rw [exec_helloSend, execHelloSend, port_mod_six hp]
  refine happen_sent hp ?_
  simp only [show ((s.at t).hop p).hello = true from hready, Bool.not_true, Bool.false_eq_true, if_false, if_pos hp]
  rfl

section
variable (hready : (s.hop p).hello = true) (htrain : s.lstate p = 1) {id : Nat}
include hready htrain

/-- A HELLO of a device is counted and judged. -/
theorem State.helloIn_port (id ring side rtt : Nat) :
    s.helloIn p id false ring side rtt = (s.inc (pgRINGP p) RINGP_C_FRAMES_RX).helloRing p id false ring side rtt := by
  have hdown : s.lstate p ≠ lsDOWN := by rw [htrain]; decide
  unfold State.helloIn
  simp only [if_pos hp, hready, hdown, Bool.not_true, Bool.false_or, decide_false, Bool.false_eq_true, if_false,
    State.hopInc_port hp, Bool.false_and, State.when]

omit hp hready in
/-- The count of frames leaves LSTATE. -/
theorem portUp_counted : (s.inc (pgRINGP p) RINGP_C_FRAMES_RX).portUp p = false := by
  have hlstate : (s.inc (pgRINGP p) RINGP_C_FRAMES_RX).rd (pgRINGP p) RINGP_LSTATE = 1 :=
    (State.rd_inc_ne (ringpKey_ne (by decide))).trans htrain
  rw [State.portUp, hlstate]
  rfl

theorem exec_helloFrame_fits (hlo : 1 ≤ id) (hhi : id ≤ 250) (rtt : Nat) :
    ∃ u, exec (.helloFrame t p id false (p / 2) (1 - p % 2) rtt) s = .next u ∧ CameUp s p id rtt u := by
  let v := (s.at t).inc (pgRINGP p) RINGP_C_FRAMES_RX
  have hown : id ≠ v.nodeId := by unfold State.nodeId; split <;> omega
  have hcause : v.helloCause p id false (p / 2) (1 - p % 2) = 0 := by
    unfold State.helloCause ringOf sideOf
    have hside : 1 - p % 2 ≠ p % 2 := by omega
    simp [hside, hlo, hhi, hown]
  have hin : (s.at t).helloIn p id false (p / 2) (1 - p % 2) rtt = v.linkUp p id rtt := by
    rw [State.helloIn_port hp (s := s.at t) hready htrain, State.helloRing]
    simp only [v, hcause, portUp_counted (s := s.at t) htrain, if_true, Bool.false_eq_true, if_false]
  have hcame := cameUp_linkUp (s := v) hp id rtt
  have hup : CameUp s p id rtt (v.linkUp p id rtt) := { hcame with del := hcame.del, rx := hcame.rx, cells := hcame.cells }
  rw [exec_helloFrame, execHelloFrame, port_mod_six hp, Nat.mod_eq_of_lt (show id < 256 by omega),
    Nat.mod_eq_of_lt (show p / 2 < 2 by omega), Nat.mod_eq_of_lt (show 1 - p % 2 < 2 by omega), State.happen, hin]
  exact ⟨_, rfl, hup.atInstant _ _⟩

theorem exec_helloFrame_wrongRing {ring : Nat} (hring : ring < 2) (hother : ring ≠ p / 2)
    (hcause : s.rd (pgRINGP p) RINGP_CAUSE ≠ 5) (id side rtt : Nat) :
    ∃ u, exec (.helloFrame t p id false ring side rtt) s = .next u ∧ u.lstate p = 3 ∧
      u.rd (pgRINGP p) RINGP_CAUSE = 1 ∧ u.pends (0x10 + p) 3 = true ∧
      Frame [(pgRINGP p, RINGP_C_FRAMES_RX), (pgRINGP p, RINGP_LSTATE), (pgRINGP p, RINGP_CAUSE)] [0x10 + p] (s.at t) u := by
  let v := (s.at t).inc (pgRINGP p) RINGP_C_FRAMES_RX
  have hwrong : v.helloCause p (id % 256) false ring (side % 2) = 1 := by
    unfold State.helloCause ringOf
    exact if_pos hother
  have hnot5 : (v.rd (pgRINGP p) RINGP_CAUSE == 5) = false := by
    rw [State.rd_inc_ne (ringpKey_ne (by decide))]
    exact beq_false_of_ne hcause
  have hin : (s.at t).helloIn p (id % 256) false ring (side % 2) rtt = v.refuseHop p lsREFUSED 1 := by
    rw [State.helloIn_port hp (s := s.at t) hready htrain, State.helloRing]
    simp only [v, hwrong, hnot5, portUp_counted (s := s.at t) htrain, Nat.one_ne_zero, Bool.false_eq_true, if_false,
      State.when]
  have hframe : Frame [(pgRINGP p, RINGP_C_FRAMES_RX), (pgRINGP p, RINGP_LSTATE), (pgRINGP p, RINGP_CAUSE)] [0x10 + p]
      (s.at t) (v.refuseHop p lsREFUSED 1) :=
    frame_raise (frame_wr (frame_wr (frame_inc (frame_refl _ _ _) (by simp)) (by simp)) (by simp)) (by simp)
  obtain ⟨hlstate, hone⟩ := State.rd_refuseHop (s := v) hp (ls := lsREFUSED) (cause := 1) (by decide) (by decide)
  rw [exec_helloFrame, execHelloFrame, port_mod_six hp, Nat.mod_eq_of_lt hring]
  exact ⟨_, State.happen_eq s hin hframe.pending hframe.time, hlstate, hone, pends_refuseHop hp, hframe⟩

end

end

/-! ### Other lanes (R243) -/

theorem exec_signalDetect_eth {e : Nat} (he : e < 2) (s : State) (t : Nat) :
    ∃ u, exec (.signalDetect t (6 + e)) s = .next u ∧ u.ethOf e = { s.ethOf e with signal := true } ∧
      u.regs = s.regs ∧ u.out = s.out := by
  have hon : (s.at t).signalOn (6 + e) = (s.at t).setEth e { s.ethOf e with signal := true } := by
    unfold State.signalOn
    rw [if_neg (by omega), if_neg (by omega), Nat.add_sub_cancel_left]
    rfl
  rw [exec_signalDetect, execSignalDetect, Nat.mod_eq_of_lt (show 6 + e < 8 by omega)]
  refine ⟨_, State.happen_eq s hon rfl rfl, ?_, rfl, rfl⟩
  rw [State.ethOf, State.setEth, tabGet?_tabPut_same, Option.getD_some]

/-- The lanes shown UP after lane `l` came. -/
theorem State.laneUp_laneComes {l k : Nat} (hk : k < 2) :
    (s.laneComes l).laneUp k = (s.laneUp k || decide (k = l)) := by
  have hshown : (s.laneComes l).rd pgTWIN TWIN_LANES = (s.rd pgTWIN TWIN_LANES ||| 2 ^ l) % 2 ^ TWIN_LANES.width :=
    State.rd_wr_same _ _ _ _
  rw [State.laneUp, hshown, Nat.testBit_mod_two_pow, Nat.testBit_or, Nat.testBit_two_pow, State.laneUp]
  simp [show k < TWIN_LANES.width from hk, eq_comm]

theorem lineFrame_laneComes (l : Nat) : LineFrame [(pgTWIN, TWIN_LANES)] s (s.laneComes l) := by
  unfold State.laneComes
  dsimp only
  split
  · exact (LineFrame.refl _ _).setHop.wr (by simp)
  · exact (LineFrame.refl _ _).wr (by simp)

theorem out_laneComes (l : Nat) : (s.laneComes l).out = s.out := by
  unfold State.laneComes; dsimp only; split <;> rfl

theorem exec_helloFrame_lane {l id : Nat} (hl : l < 2) (hready : (s.hop (4 + l)).hello = true) (hdown : s.laneUp l = false)
    (hid : id < 256) (hother : id ≠ s.nodeId) (ring side rtt : Nat) :
    ∃ u, exec (.helloFrame t (4 + l) id true ring side rtt) s = .next u ∧ u.laneUp l = true ∧
      u.laneUp (1 - l) = s.laneUp (1 - l) ∧ Frame [(pgTWIN, TWIN_LANES)] [] (s.at t) { u with ring := s.ring } := by
  have hin : (s.at t).helloIn (4 + l) id true (ring % 2) (side % 2) rtt = (s.at t).laneComes l := by
    unfold State.helloIn
    rw [if_neg (by omega), Nat.add_sub_cancel_left]
    have hother' : (id == (s.at t).nodeId) = false := beq_false_of_ne hother
    simp only [show ((s.at t).hop (4 + l)).hello = true from hready, show (s.at t).laneUp l = false from hdown, hother',
      Bool.not_true, Bool.or_self, Bool.and_false, Bool.false_eq_true, if_false]
  rw [exec_helloFrame, execHelloFrame, Nat.mod_eq_of_lt (show 4 + l < 6 by omega), Nat.mod_eq_of_lt hid]
  refine ⟨_, State.happen_line s hin (lineFrame_laneComes l), ?_, ?_, (lineFrame_laneComes l).frame (out_laneComes l)⟩
  · rw [State.laneUp_laneComes hl, decide_eq_true rfl, Bool.or_true]
  · rw [State.laneUp_laneComes (by omega), decide_eq_false (by omega), Bool.or_false]
    rfl

/-! ### The clauses together -/

/-- Settles O38: training's own laws give each step up to the link, and `cameUp_linkUp` the port that came UP. -/
theorem lanesTrainAndAgree : Obligations.LanesTrainAndAgree := by
  unfold Obligations.LanesTrainAndAgree
  refine ⟨?_, ?_, ?_, ?_, ?_, ?_, ?_, ?_, ?_, ?_, ?_, ?_⟩
  · rintro s t p ⟨hp, hdown, hmay⟩
    exact exec_signalDetect_port hp hdown hmay
  · intro s t e he
    exact exec_signalDetect_eth he s t
  · rintro s t p ⟨hp, htrain, hlock⟩
    exact exec_blockLock_training hp htrain hlock
  · rintro s t p ⟨hp, htrain, hlock, hlate⟩
    exact exec_blockLockTimeout_late hp htrain hlock hlate
  · rintro s t p bad ⟨hp, htrain, hlock, hbad⟩
    exact exec_trainSend_locked hp htrain hlock hbad
  · rintro s t p minor build cred ⟨hp, htrain, hlock, htrains⟩ ⟨hminor, -, -, hcred⟩ ⟨hmax, hmin, hsame, hpeer⟩
    exact exec_trainFrame_third hp htrain hlock htrains hminor hcred hmax hmin hsame hpeer
  · rintro s t p mx mn minor build cred ⟨hp, htrain, hlock, hmn, hle, hmx⟩
    exact exec_trainFrame_noVersion hp htrain hlock hmn hle hmx minor build cred
  · rintro s t p mx mn minor build cred ⟨hp, htrain, hlock, -⟩ hwhy
    exact exec_trainFrame_badCrc hp htrain hlock (State.mayFall_at hwhy) mx mn minor build cred
  · rintro s t p ⟨hp, hready⟩
    exact exec_helloSend_ready hp hready
  · rintro s t p id rtt ⟨hp, hready, htrain, hlo, hhi, -⟩ -
    obtain ⟨u, hnext, hup⟩ := exec_helloFrame_fits (t := t) hp hready htrain hlo hhi rtt
    have hid : id % 2 ^ RINGP_PEER_ID.width = id := Nat.mod_eq_of_lt (show id < 256 by omega)
    exact ⟨u, hnext, hup.lstate, hup.cause, hup.peerId.trans hid, hup.rtt, hup.rxSeq, hup.rxq, hup.pends, hup.del, hup.rx,
      hup.cells⟩
  · rintro s t p id ring side rtt ⟨hp, hready, htrain, hring, hother, hcause⟩
    exact exec_helloFrame_wrongRing hp hready htrain hring hother hcause id side rtt
  · rintro s t l id ring side rtt ⟨hl, hready, hdown, hid, hother⟩
    exact exec_helloFrame_lane hl hready hdown hid hother ring side rtt

end Sys2Proof.Machine
end

section
/-! SUPPORT. What keeps the frame numbers of the hops within their 16 bits: the ways the model puts states together, for O5
(R196, R243). -/

namespace Sys2Proof.Machine

variable {s u : State}

/-- Where the hops are as they were, their numbers still fit. -/
theorem State.linksFit.congr (h : s.linksFit) (he : u.ring.hops = s.ring.hops) : u.linksFit := by
  intro l
  rw [State.hop, he]
  exact h l

/-- A hop set with numbers that fit. -/
theorem State.linksFit.setHop {p : Nat} {x : Hop} (h : s.linksFit) (htx : x.txSeq < 65536) (hrx : x.rxSeq < 65536) :
    (s.setHop p x).linksFit := by
  intro l
  by_cases hl : l = p
  · subst hl
    rw [State.hop_setHop_same]
    exact ⟨htx, hrx⟩
  · rw [State.hop_setHop_ne s hl]
    exact h l

/-- A hop set with the numbers it had. -/
theorem State.linksFit.keepHop {p : Nat} {x : Hop} (h : s.linksFit) (htx : x.txSeq = (s.hop p).txSeq)
    (hrx : x.rxSeq = (s.hop p).rxSeq) : (s.setHop p x).linksFit :=
  h.setHop (htx ▸ (h p).1) (hrx ▸ (h p).2)

/-- No hop is kept: each stands at 0. -/
theorem linksFit_of_noHops (h : u.ring.hops = []) : u.linksFit := by
  intro l
  rw [State.hop, h]
  exact ⟨Nat.zero_lt_succ _, Nat.zero_lt_succ _⟩

/-! ### Branches -/

theorem State.linksFit.ite {c : Prop} {_ : Decidable c} {a b : State} (ha : a.linksFit) (hb : b.linksFit) :
    (if c then a else b).linksFit := by
  split
  exacts [ha, hb]

theorem State.linksFit.iteSnd {α : Type} {c : Prop} {_ : Decidable c} {a b : α × State} (ha : a.2.linksFit)
    (hb : b.2.linksFit) : (if c then a else b).2.linksFit := by
  split
  exacts [ha, hb]

theorem State.linksFit.iteFst {α : Type} {c : Prop} {_ : Decidable c} {a b : State × α} (ha : a.1.linksFit)
    (hb : b.1.linksFit) : (if c then a else b).1.linksFit := by
  split
  exacts [ha, hb]

/-- The state of a pair taken apart. -/
theorem State.linksFit.ofEq {α : Type} {p : α × State} {a : α} (h : p.2.linksFit) (he : p = (a, u)) : u.linksFit := by
  subst he
  exact h

theorem State.linksFit.when {c : Bool} {g : State → State} (h : s.linksFit)
    (hg : ∀ {s : State}, s.linksFit → (g s).linksFit) : (s.when c g).linksFit := (hg h).ite h

/-! ### Loops -/

theorem State.linksFit.each {α : Type} {l : List α} {g : State → α → State} (h : s.linksFit)
    (hg : ∀ {s : State} {a : α}, s.linksFit → (g s a).linksFit) : (s.each l g).linksFit := by
  induction l generalizing s with
  | nil => exact h
  | cons a l ih => exact ih (hg h)

theorem State.linksFit.foldl {α β : Type} {l : List β} {g : α × State → β → α × State} {a : α} (h : s.linksFit)
    (hg : ∀ {x : α × State} {b : β}, x.2.linksFit → (g x b).2.linksFit) : (l.foldl g (a, s)).2.linksFit := by
  suffices hall : ∀ x : α × State, x.2.linksFit → (l.foldl g x).2.linksFit from hall _ h
  induction l with
  | nil => exact fun _ hx => hx
  | cons b l ih => exact fun _ hx => ih _ (hg hx)

theorem State.linksFit.foldlFst {α β : Type} {l : List β} {g : State × α → β → State × α} {a : α} (h : s.linksFit)
    (hg : ∀ {x : State × α} {b : β}, x.1.linksFit → (g x b).1.linksFit) : (l.foldl g (s, a)).1.linksFit := by
  suffices hall : ∀ x : State × α, x.1.linksFit → (l.foldl g x).1.linksFit from hall _ h
  induction l with
  | nil => exact fun _ hx => hx
  | cons b l ih => exact fun _ hx => ih _ (hg hx)

/-! ### Answers that may be missing -/

/-- A state, if there is one, has numbers that fit. -/
def OptFit (o : Option State) : Prop := ∀ u, o = some u → u.linksFit

theorem OptFit.absent : OptFit none := by
  rintro _ ⟨⟩

theorem State.linksFit.present (h : s.linksFit) : OptFit (some s) := by
  rintro _ ⟨⟩
  exact h

theorem OptFit.ite {c : Prop} {_ : Decidable c} {a b : Option State} (ha : OptFit a) (hb : OptFit b) :
    OptFit (if c then a else b) := by
  split
  exacts [ha, hb]

theorem OptFit.map {α : Type} {o : Option α} {g : α → State} (hg : ∀ a, (g a).linksFit) : OptFit (o.map g) := by
  intro u hu
  obtain ⟨a, -, rfl⟩ := Option.map_eq_some_iff.1 hu
  exact hg a

/-- The state in its place, or another that fits. -/
theorem OptFit.getD {o : Option State} (ho : OptFit o) (h : s.linksFit) : (o.getD s).linksFit := by
  cases o with
  | none => exact h
  | some u => exact ho u rfl

/-! ### Commands -/

/-- A next state, if there is one, has numbers that fit. -/
def AnswersFit (o : Host.Outcome State Fault Refusal) : Prop := ∀ u, o = .next u → u.linksFit

theorem State.linksFit.happen {t : Nat} {g : State → State} (h : s.linksFit)
    (hg : ∀ {s : State}, s.linksFit → (g s).linksFit) : AnswersFit (s.happen t g) := by
  rintro u ⟨⟩
  have hnow : (s.at t).linksFit := h.congr rfl
  exact (hg hnow).congr rfl

end Sys2Proof.Machine
end

section
/-! SUPPORT. The frame numbers keep within their 16 bits, for O5 (R196, R243): registers, the journal, candidates, flow
  tables, the rings of the host, frames and deliveries. -/

namespace Sys2Proof.Machine

variable {s u : State}

/-! ### Registers, events and errors -/

theorem State.linksFit.wr {base f v} (h : s.linksFit) : (s.wr base f v).linksFit := h.congr rfl

theorem State.linksFit.wrB {base f b} (h : s.linksFit) : (s.wrB base f b).linksFit := h.wr

theorem State.linksFit.wrI {base f i} (h : s.linksFit) : (s.wrI base f i).linksFit := h.wr

theorem State.linksFit.add {base f n} (h : s.linksFit) : (s.add base f n).linksFit := h.wr

theorem State.linksFit.inc {base f} (h : s.linksFit) : (s.inc base f).linksFit := h.add

theorem State.linksFit.incSat {base f} (h : s.linksFit) : (s.incSat base f).linksFit := h.wr

theorem State.linksFit.at {t} (h : s.linksFit) : (s.at t).linksFit := h.congr rfl

theorem State.linksFit.fresh (h : s.linksFit) : s.fresh.2.linksFit := h.congr rfl

theorem State.linksFit.emit {e} (h : s.linksFit) : (s.emit e).linksFit := h.ite (h.congr (by rfl))

theorem State.linksFit.setHealth {b on} (h : s.linksFit) : (s.setHealth b on).linksFit := h.wr

theorem State.linksFit.msixSend {v} (h : s.linksFit) : (s.msixSend v).linksFit :=
  (h.inc.emit.congr (by with_reducible rfl)).ite h.wr

theorem State.linksFit.msixReq {v} (h : s.linksFit) : (s.msixReq v).linksFit :=
  h.wr.ite (by split; exacts [(h.congr (by rfl)).ite h.msixSend, h.msixSend])

theorem State.linksFit.evtSum {page} (h : s.linksFit) : (s.evtSum page).linksFit := h.wr

theorem State.linksFit.popLose (h : s.linksFit) : s.popLose.linksFit :=
  (((h.congr (by rfl)).wr.evtSum.when fun h => h.inc).when fun h => h.msixReq).ite (h.congr (by rfl)).wr.evtSum

theorem State.linksFit.popPush {page bit} (h : s.linksFit) : (s.popPush page bit).linksFit :=
  h.popLose.ite (h.congr (by rfl)).wr

theorem State.linksFit.evtNotify {page bit} (h : s.linksFit) : (s.evtNotify page bit).linksFit :=
  (h.when fun h => h.popPush).when fun h => h.msixReq

theorem State.linksFit.raise {page bit} (h : s.linksFit) : (s.raise page bit).linksFit :=
  h.wr.evtSum.when fun h => h.evtNotify

theorem State.linksFit.markError {page code} (h : s.linksFit) : (s.markError page code).linksFit :=
  (h.wr.when fun h => h.wr).wr.raise

theorem State.linksFit.refuse {page code} (h : s.linksFit) : (s.refuse page code).linksFit :=
  (h.inc.when fun h => h.inc).markError

theorem State.linksFit.snapBlock {src dst n} (h : s.linksFit) : (s.snapBlock src dst n).linksFit := h.each fun h => h.wr

theorem State.linksFit.clearBlock {src n} (h : s.linksFit) : (s.clearBlock src n).linksFit := h.each fun h => h.wr

/-! ### Words of registers -/

theorem State.linksFit.setWord {base rows off w} (h : s.linksFit) : (s.setWord base rows off w).linksFit :=
  h.each fun h => by split; exacts [h.wr, h.wr, h.wr, h.wr, h, h]

theorem State.linksFit.applyHeld {base rows offs} (h : s.linksFit) : (s.applyHeld base rows offs).linksFit :=
  h.each fun h => by split; exacts [h.setWord.congr (by with_reducible rfl), h]

theorem State.linksFit.dropHeld {base offs} (h : s.linksFit) : (s.dropHeld base offs).linksFit := h.congr rfl

/-! ### The journal -/

theorem State.linksFit.celWrite {a bs} (h : s.linksFit) : (s.celWrite a bs).linksFit := (h.congr (by rfl)).ite h

theorem State.linksFit.ueWords {a n} (h : s.linksFit) : (s.ueWords a n).linksFit := by
  unfold State.ueWords
  exact h.add.wr.raise.congr (by with_reducible rfl)

theorem State.linksFit.jOldest (h : s.linksFit) : s.jOldest.linksFit := h.wr

theorem State.linksFit.jOpenBlock (h : s.linksFit) : s.jOpenBlock.linksFit :=
  h.ite (by split; exacts [h, ((h.when fun h => h.inc).congr (by with_reducible rfl)).wr.jOldest])

theorem State.linksFit.jSeal {o flags closeS} (h : s.linksFit) : (s.jSeal o flags closeS).2.linksFit :=
  .iteSnd h (by split; exacts [h.inc.raise, (h.when fun h => h.wr).congr (by with_reducible rfl)])

theorem State.linksFit.jClose {byTime} (h : s.linksFit) : (s.jClose byTime).linksFit := by
  unfold State.jClose
  split
  exacts [h, h.jSeal.celWrite.inc.add.congr (by with_reducible rfl)]

theorem State.linksFit.jAppend {hdr body} (h : s.linksFit) : (s.jAppend hdr body).linksFit := by
  unfold State.jAppend
  extract_lets len s1 s2
  have h2 : s2.linksFit := (h.jClose.ite h).jOpenBlock.ite (h.jClose.ite h)
  clear_value s2
  split
  · exact h2
  · exact (h2.celWrite.congr (by with_reducible rfl)).inc.add.wr

theorem State.linksFit.jTrim {w n} (h : s.linksFit) : (s.jTrim w n).linksFit := by
  induction n generalizing s with
  | zero => exact h
  | succ n ih => exact State.linksFit.ite (ih h.wr.wr) h

theorem State.linksFit.jTrigger {cause} (h : s.linksFit) : (s.jTrigger cause).linksFit := by
  unfold State.jTrigger
  dsimp only
  split
  · exact h.wr.wr.inc
  · split
    exacts [h.inc.raise, h.wr.wr.wr.wr.wr.wr.wr.inc.jTrim]

theorem State.linksFit.jLocate (h : s.linksFit) : s.jLocate.linksFit := h.wr

/-! ### Candidates of the ports -/

theorem State.linksFit.setRx {p r} (h : s.linksFit) : (s.setRx p r).linksFit := (h.congr (by rfl)).wr.wrB.wrB.wrB

theorem State.linksFit.icAdd {p i n} (h : s.linksFit) : (s.icAdd p i n).linksFit := h.add

theorem State.linksFit.icInc {p i} (h : s.linksFit) : (s.icInc p i).linksFit := h.icAdd

theorem State.linksFit.overrun {p} (h : s.linksFit) : (s.overrun p).linksFit := h.wr.icInc

theorem State.linksFit.rewindCand {p i fr} (h : s.linksFit) : (s.rewindCand p i fr).linksFit := h.setRx.icInc

theorem State.linksFit.commitCand {c} (h : s.linksFit) : (s.commitCand c).linksFit := (h.congr (by rfl)).setRx.icInc

theorem State.linksFit.offerCand {c} (h : s.linksFit) : (s.offerCand c).linksFit := h.commitCand.ite h.overrun

theorem State.linksFit.uartOpen {p fr b} (h : s.linksFit) : (s.uartOpen p fr b).linksFit := by
  unfold State.uartOpen
  dsimp only
  split
  exacts [h.setRx, h.overrun]

theorem State.linksFit.uartByte {p b} (h : s.linksFit) : (s.uartByte p b).linksFit := by
  unfold State.uartByte
  dsimp only
  split
  · exact h.setRx.icInc
  · exact h.setRx
  · exact h.uartOpen
  · exact h.rewindCand
  · exact h.rewindCand.uartOpen
  · split
    · exact h
    · split
      exacts [h.setRx, h.setRx.overrun]
  · split
    · exact h
    · split
      · split
        exacts [h.setRx.commitCand, h]
      · exact h.setRx.overrun

theorem State.linksFit.uartFault {p i} (h : s.linksFit) : (s.uartFault p i).linksFit := h.rewindCand.ite h.icInc

theorem State.linksFit.uartChar {p b badPar badStop allLow} (h : s.linksFit) :
    (s.uartChar p b badPar badStop allLow).linksFit :=
  h.ite ((h.setRx.wr.when fun h => h.uartFault).ite (h.setRx.ite (h.setRx.icInc.uartFault.ite h.setRx.icInc.uartByte)))

theorem State.linksFit.uartEdge {p} (h : s.linksFit) : (s.uartEdge p).linksFit := h.ite (h.setRx.when fun h => h.wr)

theorem State.linksFit.uartIcto {p} (h : s.linksFit) : (s.uartIcto p).linksFit := by
  unfold State.uartIcto
  dsimp only
  split
  exacts [h.rewindCand.ite h, h]

theorem State.linksFit.uartSilence {p} (h : s.linksFit) : (s.uartSilence p).linksFit := h.wr.icInc.ite h

theorem State.linksFit.uartHigh {p} (h : s.linksFit) : (s.uartHigh p).linksFit := h.wr

theorem State.linksFit.ingestRestart {old p} (h : s.linksFit) : (s.ingestRestart old p).linksFit :=
  ((h.setRx.ite h).setRx.when fun h => h.icInc).ite (h.setRx.ite h)

theorem State.linksFit.ingestCommit {p w} (h : s.linksFit) : (s.ingestCommit p w).2.linksFit :=
  .iteSnd (h.applyHeld.setWord.ingestRestart.ite h.applyHeld.setWord) h.dropHeld.refuse

theorem State.linksFit.rxFlush {p held} (h : s.linksFit) : (s.rxFlush p held).linksFit := h.setRx.add

/-! ### What leaves -/

theorem State.linksFit.hopInc {p c} (h : s.linksFit) : (s.hopInc p c).linksFit := h.inc.ite h

theorem State.linksFit.sendFrame {p ft vc lseq body} (h : s.linksFit) : (s.sendFrame p ft vc lseq body).linksFit :=
  h.emit.hopInc

theorem State.linksFit.sendLanes {ft lseq body} (h : s.linksFit) : (s.sendLanes ft lseq body).linksFit :=
  h.each fun h => h.when fun h => h.sendFrame

theorem State.linksFit.lanesData {ft body} (h : s.linksFit) : (s.lanesData ft body).linksFit :=
  (h.setHop (Nat.mod_lt _ (by decide)) (by exact (h _).2)).sendLanes

theorem State.linksFit.lanesPump {n} (h : s.linksFit) : (s.lanesPump n).linksFit := by
  induction n generalizing s with
  | zero => exact h
  | succ n ih =>
    unfold State.lanesPump
    split
    · exact h
    · exact .ite (ih (h.congr (by rfl)).lanesData) h

theorem State.linksFit.lanesSend {ft body} (h : s.linksFit) : (s.lanesSend ft body).linksFit := (h.congr (by rfl)).lanesPump

theorem State.linksFit.log {r} (h : s.linksFit) : (s.log r).linksFit := (h.congr (by rfl)).lanesSend.ite h

/-! ### Flow tables -/

theorem State.linksFit.findFlow {kind port body} (h : s.linksFit) : (s.findFlow kind port body).2.linksFit := by
  unfold State.findFlow
  dsimp only
  split
  · exact h.inc
  · exact .iteSnd h.inc.inc (by split; exacts [h.inc.inc, h.inc.inc.inc])

theorem State.linksFit.clearFlowState {f} (h : s.linksFit) : (s.clearFlowState f).linksFit := h.each fun h => h.wr

theorem State.linksFit.quarStart {port i e} (h : s.linksFit) : (s.quarStart port i e).linksFit :=
  (h.wr.wr.wr.ite h.wr.wr.wr.clearFlowState).wr.wrB.raise.log

theorem State.linksFit.quarEnd {port i} (h : s.linksFit) : (s.quarEnd port i).linksFit := (h.wr.ite h.wr).raise.log.ite h

theorem State.linksFit.quarExpire {port i stamp} (h : s.linksFit) : (s.quarExpire port i stamp).linksFit := by
  unfold State.quarExpire
  split
  exacts [h.quarEnd.ite h, h]

theorem State.linksFit.putSlot {f r v} (h : s.linksFit) : (s.putSlot f r v).linksFit := (h.when fun h => h.wr).wr.wr.wr

theorem State.linksFit.ruleStep {f kind stamp body o r} (h : s.linksFit) :
    (s.ruleStep f kind stamp body o r).1.linksFit := by
  unfold State.ruleStep
  extract_lets own slot delta res s0 s1 s2 s3 s4 s5 n s6
  have h4 : s4.linksFit :=
    (((h.inc.inc.when fun h => h.inc.inc).when fun h => h.inc.inc).when fun h => h.inc).when fun h => h.inc
  clear_value s4
  have h5 : s5.linksFit := by
    unfold s5
    split
    exacts [h4.putSlot, h4]
  clear_value s5
  refine State.linksFit.ite (.ite h5.wr ?_) h5
  split
  exacts [h5.putSlot.wr.inc.ite h5.wr, h5.wr]

theorem State.linksFit.runChain {f kind stamp body} (h : s.linksFit) : (s.runChain f kind stamp body).1.linksFit :=
  h.foldlFst fun h => h.ruleStep

theorem State.linksFit.divert {f} (h : s.linksFit) : (s.divert f).1.linksFit := .iteFst h.wr h.inc

theorem State.linksFit.quarEntry {f} (h : s.linksFit) : (s.quarEntry f).linksFit := h.wr

theorem State.linksFit.judge {f kind port stamp body} (h : s.linksFit) : (s.judge f kind port stamp body).1.linksFit := by
  unfold State.judge
  extract_lets s1 b s2 so s3 s4 s5
  have h1 : s1.linksFit := h.quarExpire.quarExpire
  clear_value s1
  have h2 : s2.linksFit := h1.inc.clearFlowState
  clear_value s2
  have h3 : s3.linksFit := .when (.iteFst h1 h1.runChain) fun h => h.inc
  clear_value s3
  have h5 : s5.linksFit := (h3.each fun h => h.quarStart.quarEntry).clearFlowState
  clear_value s5
  exact .iteFst (.iteFst h2.divert h2) (.iteFst h3 (.iteFst h3.divert (.iteFst h3 (.iteFst h5.divert h5))))

theorem State.linksFit.admitState {f stamp atAdm} (h : s.linksFit) : (s.admitState f stamp atAdm).linksFit :=
  (h.each fun h => h.putSlot).wr.wr.wr

/-! ### The rings of the host -/

theorem State.linksFit.hostWrite {addr data} (h : s.linksFit) : (s.hostWrite addr data).linksFit := h.emit.ite h

theorem State.linksFit.mirrorRing {k} (h : s.linksFit) : (s.mirrorRing k).linksFit := h.wr.wrB

theorem State.linksFit.dropBell {k nxt} (h : s.linksFit) : (s.dropBell k nxt).linksFit := by
  unfold State.dropBell
  split
  exacts [(h.congr (by rfl)).ite h, h]

theorem State.linksFit.fetchOne {k} (h : s.linksFit) : (s.fetchOne k).linksFit :=
  ((h.congr (by rfl)).when fun h => h.add).emit.dropBell.mirrorRing

theorem State.linksFit.fetchN {k n} (h : s.linksFit) : (s.fetchN k n).linksFit := by
  induction n generalizing s with
  | zero => exact h
  | succ n ih => exact .ite (ih h.fetchOne) h

theorem State.linksFit.fetchRing {k} (h : s.linksFit) : (s.fetchRing k).linksFit := h.fetchN

theorem State.linksFit.fetchItems (h : s.linksFit) : s.fetchItems.linksFit := h.each fun h => h.ite h.fetchRing

theorem State.linksFit.headN {k n} (h : s.linksFit) : (s.headN k n).linksFit := by
  induction n generalizing s with
  | zero => exact h
  | succ n ih => exact .ite (ih (h.congr (by rfl))) h

theorem State.linksFit.descDone {k idx} (h : s.linksFit) : (s.descDone k idx).linksFit :=
  (h.congr (by rfl)).headN.mirrorRing.fetchRing.when fun h => h.fetchItems

theorem State.linksFit.putTxDesc {d} (h : s.linksFit) : (s.putTxDesc d).linksFit := h.congr rfl

theorem State.linksFit.txComplete {k idx dstat wb} (h : s.linksFit) : (s.txComplete k idx dstat wb).linksFit := by
  unfold State.txComplete
  split
  exacts [h, ((h.when fun h => h.hostWrite).hostWrite.when fun h => h.wr).descDone.when fun h => h.msixReq]

theorem State.linksFit.wbWrite {status flow seq stamp dom admitted w} (h : s.linksFit) :
    (s.wbWrite status flow seq stamp dom admitted w).linksFit := by
  unfold State.wbWrite
  split
  exacts [h.inc.txComplete, h.inc.raise]

theorem State.linksFit.rxComplete {d data dstat rflags stamp} (h : s.linksFit) :
    (s.rxComplete d data dstat rflags stamp).linksFit := by
  unfold State.rxComplete
  exact (h.when fun h => h.hostWrite).hostWrite.hostWrite.descDone.msixReq

/-! ### Frames of the ring -/

theorem State.linksFit.mirrorHop {p} (h : s.linksFit) : (s.mirrorHop p).linksFit := h.wr.wr.wr.ite h

theorem State.linksFit.sendData {p vc ft body} (h : s.linksFit) : (s.sendData p vc ft body).linksFit :=
  (h.setHop (Nat.mod_lt _ (by decide)) (by exact (h _).2)).sendFrame.mirrorHop

theorem State.linksFit.noteStall {p stalled} (h : s.linksFit) : (s.noteStall p stalled).linksFit := by
  unfold State.noteStall
  dsimp only
  split
  exacts [h.keepHop (by rfl) (by rfl), (h.keepHop (by rfl) (by rfl)).add, h]

theorem State.linksFit.pumpN {p n} (h : s.linksFit) : (s.pumpN p n).linksFit := by
  induction n generalizing s with
  | zero => exact h
  | succ n ih =>
    unfold State.pumpN
    refine h.ite ?_
    dsimp only
    split
    exacts [h.noteStall, ih (h.keepHop (by rfl) (by rfl)).wr.sendData]

theorem State.linksFit.pump {p} (h : s.linksFit) : (s.pump p).linksFit := h.pumpN

theorem State.linksFit.toPort {p own k} (h : s.linksFit) : (s.toPort p own k).linksFit :=
  h.sendFrame.ite (h.keepHop (by rfl) (by rfl)).pump

theorem State.linksFit.sendPort {p own k} (h : s.linksFit) : (s.sendPort p own k).linksFit :=
  h.toPort.ite (h.hopInc.ite (h.toPort.ite h))

theorem State.linksFit.sendUni {r k} (h : s.linksFit) : (s.sendUni r k).linksFit := by
  unfold State.sendUni
  split
  exacts [h.sendPort, h]

theorem State.linksFit.sendBoth {k} (h : s.linksFit) : (s.sendBoth k).linksFit := h.each fun h => h.sendUni.ite h

theorem State.linksFit.raTag {k} (h : s.linksFit) : (s.raTag k).2.linksFit := by
  unfold State.raTag
  split
  exacts [h, (h.congr (by rfl)).inc]

theorem State.linksFit.sigPayload {type data} (h : s.linksFit) : (s.sigPayload type data).2.linksFit := h.congr rfl

/-! ### Deliveries -/

theorem State.linksFit.setCells {n} (h : s.linksFit) : (s.setCells n).linksFit := h.wr.wrB

theorem State.linksFit.putItem {h i} (hs : s.linksFit) : (s.putItem h i).linksFit := hs.congr rfl

theorem State.linksFit.setLis {p l} (h : s.linksFit) : (s.setLis p l).linksFit := h.congr rfl

theorem State.linksFit.mirrorSpilled {q} (h : s.linksFit) : (s.mirrorSpilled q).linksFit := h.wr

theorem State.linksFit.setQueue {q l} (h : s.linksFit) : (s.setQueue q l).linksFit :=
  (h.congr (by rfl)).wr.wr.wrB.wr.wr.mirrorSpilled

theorem State.linksFit.mirrorKeys (h : s.linksFit) : s.mirrorKeys.linksFit := h.wr

theorem State.linksFit.sigBackpressure {leaf q on depth src} (h : s.linksFit) :
    (s.sigBackpressure leaf q on depth src).linksFit := by
  unfold State.sigBackpressure
  extract_lets data s1 ps k ks
  have hps : ps.2.linksFit := State.linksFit.sigPayload (s := s1) h.inc
  clear_value ps
  have hks : ks.2.linksFit := .iteSnd hps.raTag hps
  exact h.inc.ite hks.sendBoth

theorem State.linksFit.bpTurn {q on} (h : s.linksFit) : (s.bpTurn q on).linksFit := by
  unfold State.bpTurn
  dsimp only
  split
  exacts [h.wrB.wr.sigBackpressure, h.wrB.wr.wr.wr.wrB.raise]

theorem State.linksFit.judgeBP {q} (h : s.linksFit) : (s.judgeBP q).linksFit := (h.bpTurn.ite h).ite (h.bpTurn.ite h)

theorem State.linksFit.bpSource {q port code} (h : s.linksFit) : (s.bpSource q port code).linksFit := by
  unfold State.bpSource
  refine h.ite ?_
  split
  · exact h
  · dsimp only
    split
    exacts [h.ite (h.congr (by rfl)).sigBackpressure, (h.congr (by rfl)).sigBackpressure]

theorem State.linksFit.setLed {p f} (h : s.linksFit) : (s.setLed p f).linksFit := h.setLis

theorem State.linksFit.statDone {p k released} (h : s.linksFit) : (s.statDone p k released).linksFit := h.inc.setLed.log

theorem State.linksFit.spillNext (h : s.linksFit) : s.spillNext.linksFit :=
  h.ite (by split; exacts [h, by split; exacts [h, h.putItem.ite (h.ite h.wr.raise.wr.raise)]])

theorem State.linksFit.spillStart (h : s.linksFit) : s.spillStart.linksFit := h.wr.raise.spillNext.ite h.spillNext

theorem State.linksFit.freeCells {n} (h : s.linksFit) : (s.freeCells n).linksFit := h.setCells.wr.raise.ite h.setCells

theorem State.linksFit.spillFreed (h : s.linksFit) : s.spillFreed.linksFit := h.wr.spillStart.ite h

theorem State.linksFit.takeCells {n} (h : s.linksFit) : (s.takeCells n).linksFit := h.setCells.add.spillStart

theorem State.linksFit.wbFinish {h} (hs : s.linksFit) : (s.wbFinish h).linksFit := by
  unfold State.wbFinish
  split
  · exact hs
  · split
    exacts [hs, hs.ite hs.putItem.wbWrite]

theorem State.linksFit.settle {h} (hs : s.linksFit) : (s.settle h).linksFit := by
  unfold State.settle
  extract_lets s1 src s2
  have h1 : s1.linksFit := hs.wbFinish
  clear_value s1
  have h2 : s2.linksFit := h1.congr rfl
  clear_value s2
  split
  · exact h1
  · refine h1.ite ?_
    split
    exacts [h2.freeCells, h2.spillFreed, h2.freeCells.spillFreed, h2.freeCells.spillFreed]

theorem State.linksFit.countDisp {q r code bytes} (h : s.linksFit) : (s.countDisp q r code bytes).linksFit := by
  unfold State.countDisp
  extract_lets s0 s1 s2 s3 s4 s5 s6 s7
  have h3 : s3.linksFit := (h.inc.when fun h => h.add).inc.when fun h => h.inc
  have h4 : s4.linksFit := by
    unfold s4
    split
    exacts [h3.inc, h3]
  have h6 : s6.linksFit := by
    unfold s6
    split
    · split
      exacts [h4.setLed.putItem, h4.setLed]
    · exact h4.setLed
  have h7 : s7.linksFit := by
    refine State.linksFit.ite ?_ h6
    split
    exacts [h6.bpSource, h6]
  exact h7.log

theorem State.linksFit.unqueue {q r judge} (h : s.linksFit) : (s.unqueue q r judge).linksFit :=
  (h.setQueue.when fun h => h.judgeBP).mirrorKeys

theorem State.linksFit.resolve {q r code bytes judge} (h : s.linksFit) : (s.resolve q r code bytes judge).linksFit := by
  unfold State.resolve
  dsimp only
  split
  exacts [h.unqueue.statDone, h.unqueue.countDisp.settle]

theorem State.linksFit.enqAt {q r pos} (h : s.linksFit) : (s.enqAt q r pos).linksFit := h.setQueue.judgeBP.mirrorKeys

theorem State.linksFit.replaceRef {q old new} (h : s.linksFit) : (s.replaceRef q old new).linksFit := h.resolve.enqAt.log

theorem State.linksFit.refuseRef {q r code} (h : s.linksFit) : (s.refuseRef q r code).linksFit := by
  unfold State.refuseRef
  split
  exacts [h.statDone, h.countDisp]

theorem State.linksFit.arrive {q r i} (h : s.linksFit) : (s.arrive q r i).linksFit := by
  unfold State.arrive
  extract_lets p pol want trk s1 r l lim full put
  have h1 : s1.linksFit := h.inc.raise.ite h
  have hput : ∀ {s : State}, s.linksFit → (put s).linksFit := fun h => h.inc.refuseRef.ite h.enqAt
  clear_value s1 put l pol trk
  refine h.refuseRef.ite (h.inc.refuseRef.ite (h.refuseRef.ite (h.refuseRef.ite ?_)))
  split
  · exact h1.replaceRef
  · refine (hput h1).ite ?_
    split
    · exact h1.refuseRef.ite (hput h1)
    · split
      exacts [h1.replaceRef, h1.refuseRef]
    · exact h1.refuseRef
    · split
      exacts [hput h1, hput h1.resolve]

theorem State.linksFit.mkRef {h i} (hs : s.linksFit) : (s.mkRef h i).2.linksFit := hs.congr rfl

theorem State.linksFit.arriveStandby {q r} (h : s.linksFit) : (s.arriveStandby q r).linksFit := h.enqAt

theorem State.linksFit.enqueueItem {h i} (hs : s.linksFit) : (s.enqueueItem h i).linksFit := by
  unfold State.enqueueItem
  extract_lets ps s1 s2
  have h1 : s1.linksFit := by
    unfold s1
    split
    · split
      exacts [hs.putItem, hs]
    · exact hs
  clear_value s1
  exact .ite h1.inc.inc.settle (h1.each fun hs => hs.mkRef.arriveStandby.ite hs.mkRef.arrive).settle

end Sys2Proof.Machine
end

section
/-! SUPPORT. The frame numbers keep within their 16 bits, for O5 (R196, R243): admission, rounds, release of references
  and time. -/

namespace Sys2Proof.Machine

variable {s u : State}

/-! ### Admission -/

theorem State.linksFit.cellRefuse {f} (h : s.linksFit) : (s.cellRefuse f).linksFit := by
  unfold State.cellRefuse
  split
  exacts [h, h.inc.raise, h.inc]

theorem State.linksFit.logAdmit {r h i} (hs : s.linksFit) : (s.logAdmit r h i).linksFit := by
  unfold State.logAdmit
  split
  exacts [hs.log.when fun h' => h'.log, hs.log]

theorem State.linksFit.admitAt {i r h born wb} (hs : s.linksFit) : (s.admitAt i r h born wb).2.linksFit :=
  (hs.wr.logAdmit.congr (by with_reducible rfl)).putItem.takeCells.jAppend.enqueueItem

theorem State.linksFit.admitNew {i r born wb} (h : s.linksFit) : (s.admitNew i r born wb).2.linksFit := by
  unfold State.admitNew
  split
  exacts [h.admitAt, h.cellRefuse]

/-! ### Egress -/

theorem State.linksFit.itemFrame {e i body} (h : s.linksFit) : (s.itemFrame e i body).2.linksFit := h.fresh

theorem State.linksFit.pnNext {e} (h : s.linksFit) : (s.pnNext e).linksFit :=
  (h.wr.raise.ite h.wr).raise.ite (h.wr.raise.ite h.wr)

theorem State.linksFit.ethSend {e frame} (h : s.linksFit) : (s.ethSend e frame).2.linksFit :=
  .iteSnd h.inc.emit (by split; exacts [h.inc, .iteSnd h.inc.emit.pnNext h])

/-! ### Requests of leaves -/

theorem State.linksFit.blkGuard {page carried} {f : State → State} (h : s.linksFit)
    (hf : ∀ {s : State}, s.linksFit → (f s).linksFit) : (s.blkGuard page carried f).linksFit :=
  h.refuse.ite (h.refuse.ite (h.refuse.ite (h.refuse.ite (hf h))))

theorem State.linksFit.winGuard {page carried} {f : State → State} (h : s.linksFit)
    (hf : ∀ {s : State}, s.linksFit → (f s).linksFit) : (s.winGuard page carried f).linksFit :=
  h.refuse.ite (h.refuse.ite (hf h))

theorem State.linksFit.logDelta {off w} (h : s.linksFit) : (s.logDelta off w).linksFit := h.log

theorem State.linksFit.logHeld {old base offs} (h : s.linksFit) : (s.logHeld old base offs).linksFit :=
  h.each fun h => by split; exacts [h.logDelta, h]

theorem State.linksFit.raDone {k st data} (h : s.linksFit) : (s.raDone k st data).linksFit :=
  ((h.wr.wr.wr.each fun h => h.wr).congr (by with_reducible rfl)).when fun h => h.raise

theorem State.linksFit.cfgFail {p} (h : s.linksFit) : (s.cfgFail p).linksFit := h.wr.wr.raise

theorem State.linksFit.setSwitch {g f} (h : s.linksFit) : (s.setSwitch g f).linksFit := by
  unfold State.setSwitch
  split
  exacts [h.congr (by rfl), h]

theorem State.linksFit.setInfo {n f} (h : s.linksFit) : (s.setInfo n f).linksFit := h.congr rfl

theorem State.linksFit.reqDone {r st data} (h : s.linksFit) : (s.reqDone r st data).linksFit := by
  unfold State.reqDone
  split
  · exact h.raDone
  · exact h.cfgFail.ite (h.wr.ite h)
  · exact h.setSwitch.ite (h.setSwitch.congr (by with_reducible rfl)).inc
  · exact h.setInfo.ite h
  · exact (h.each fun h => h.cfgFail).ite h
  · exact h.wr.ite ((h.each fun h => h.cfgFail).ite h)
  · exact h.inc
  · exact h

theorem State.linksFit.mirrorTags (h : s.linksFit) : s.mirrorTags.linksFit := h.wr

theorem State.linksFit.sendReq {tag r} (h : s.linksFit) : (s.sendReq tag r).linksFit := by
  unfold State.sendReq
  extract_lets gen src s1 s2 s3 k ks
  have h2 : s2.linksFit := (State.linksFit.inc (s := s1) (h.congr (by rfl))).mirrorTags
  clear_value s2
  have h3 : s3.linksFit := by
    unfold s3
    split
    exacts [h2.wr.inc, h2]
  clear_value s3
  have hks : ks.2.linksFit := .iteSnd h3.raTag h3
  clear_value ks
  split
  exacts [hks.sendUni, hks]

theorem State.linksFit.issue {r} (h : s.linksFit) : (s.issue r).linksFit :=
  h.reqDone.ite (h.inc.reqDone.ite (by split; exacts [h.sendReq, h.congr (by rfl)]))

theorem State.linksFit.issueWaiting {n} (h : s.linksFit) : (s.issueWaiting n).linksFit := by
  induction n generalizing s with
  | zero => exact h
  | succ n ih =>
    unfold State.issueWaiting
    split
    exacts [ih (h.congr (by rfl)).sendReq, h]

theorem State.linksFit.tagDone {tag st data} (h : s.linksFit) : (s.tagDone tag st data).linksFit := by
  unfold State.tagDone
  split
  exacts [h, (h.congr (by rfl)).mirrorTags.reqDone.issueWaiting]

theorem State.linksFit.dropNode {n st} (h : s.linksFit) : (s.dropNode n st).linksFit :=
  (((h.congr (by rfl)).each fun h => h.reqDone).when fun h => h.add).each fun h => h.tagDone

theorem State.linksFit.leafWrite {n addr w o} (h : s.linksFit) : (s.leafWrite n addr w o).linksFit := h.issue

theorem State.linksFit.leafRead {n addr o} (h : s.linksFit) : (s.leafRead n addr o).linksFit := h.issue

theorem State.linksFit.mirrorPort {p} (h : s.linksFit) : (s.mirrorPort p).linksFit := by
  unfold State.mirrorPort
  split
  · exact h
  · split
    exacts [h, h.ite ((h.wr.wr.each fun h => h.leafWrite).each fun h => h.leafWrite)]

theorem State.linksFit.writeEntry {x valid lp o} (h : s.linksFit) : (s.writeEntry x valid lp o).linksFit := by
  unfold State.writeEntry
  split
  exacts [h, h.issue]

theorem State.linksFit.installMember {g bank i p} (h : s.linksFit) : (s.installMember g bank i p).linksFit := by
  unfold State.installMember
  dsimp only
  split
  · exact h.setSwitch.inc
  · split
    exacts [h.setSwitch.inc, h.setSwitch.inc.ite (h.congr (by rfl)).setSwitch.writeEntry]

theorem State.linksFit.startSwitch {g ports} (h : s.linksFit) : (s.startSwitch g ports).linksFit :=
  (h.congr (by rfl)).ite (by split; exacts [h.congr (by rfl), (h.congr (by rfl)).each fun h => h.installMember])

theorem State.linksFit.rewriteEntries {n} (h : s.linksFit) : (s.rewriteEntries n).linksFit :=
  (h.each fun h => h.writeEntry).each fun h => h.setSwitch.writeEntry

theorem State.linksFit.readLeaf {n} (h : s.linksFit) : (s.readLeaf n).linksFit := h.ite (h.wr.each fun h => h.leafRead)

theorem State.linksFit.configLeaf {n} (h : s.linksFit) : (s.configLeaf n).linksFit :=
  (h.each fun h => h.mirrorPort).rewriteEntries.leafWrite

/-! ### Rounds of CONCORD -/

theorem State.linksFit.setRound {g r} (h : s.linksFit) : (s.setRound g r).linksFit := by
  unfold State.setRound
  dsimp only
  split
  exacts [(h.congr (by rfl)).wr.wr.wr.wr, (h.congr (by rfl)).wr.wrB.wr.wr.wr.wr.wr.wr]

theorem State.linksFit.decideRound {gr r} (h : s.linksFit) : (s.decideRound gr r).2.linksFit := by
  unfold State.decideRound
  extract_lets oc g mk lost out vmask s1 s2
  have h2 : s2.linksFit := h.log.inc.ite (h.log.inc.ite (h.log.inc.ite h.log))
  clear_value s2 out
  clear_value lost
  clear_value mk
  split
  · exact h2
  · exact .iteSnd (h2.inc.cellRefuse.ite h2.inc) (h2.when fun h => h.inc).admitNew

theorem State.linksFit.memberTurn {g m live} (h : s.linksFit) : (s.memberTurn g m live).linksFit := h.wr.inc.wr.wr.raise

theorem State.linksFit.memberHealth {gr r vals m} (h : s.linksFit) : (s.memberHealth gr r vals m).linksFit :=
  (h.wr.ite (h.wr.memberTurn.ite h.wr)).ite ((h.wr.memberTurn.ite h.wr).ite h.wr)

theorem State.linksFit.statItem {gr mem r out before} (h : s.linksFit) : (s.statItem gr mem r out before).linksFit :=
  h.ite (h.inc.ite (h.admitNew.ite h.admitNew.inc))

theorem State.linksFit.closeRound {gr mem r cause} (h : s.linksFit) : (s.closeRound gr mem r cause).linksFit := by
  unfold State.closeRound
  extract_lets g before out vals s1 s2 s3 s4 s5 s6
  have h4 : s4.linksFit := (h.ite (h.each fun h => h.memberHealth)).log.setRound.wr.wr.inc
  have h6 : s6.linksFit := (h4.when fun h => h.inc).when fun h => h.raise
  exact h6.ite h6.statItem

theorem State.linksFit.endRound {gr r cause} (h : s.linksFit) : (s.endRound gr r cause).linksFit :=
  .closeRound (.iteSnd h.decideRound h)

theorem State.linksFit.settleRound {gr r} (h : s.linksFit) : (s.settleRound gr r).linksFit :=
  .ite (.endRound (.setRound (.iteSnd h.decideRound h))) (.setRound (.iteSnd h.decideRound h))

theorem State.linksFit.openRound {gr c exp} (h : s.linksFit) : (s.openRound gr c exp).linksFit :=
  h.setRound.ite h.setRound.settleRound

theorem State.linksFit.offerConcord {i} (h : s.linksFit) : (s.offerConcord i).linksFit := by
  refine h.ite (h.ite ?_)
  · split
    · exact h.openRound
    · exact h.inc.ite ((h.setRound.ite (h.when fun h => h.inc).endRound.openRound).ite (h.setRound.ite h.settleRound))

theorem State.linksFit.expireRound {g} (h : s.linksFit) : (s.expireRound g).linksFit := by
  unfold State.expireRound
  split
  exacts [h.endRound.ite h, h]

theorem State.linksFit.execRoundExpiry {t group} (h : s.linksFit) : AnswersFit (execRoundExpiry t group s) :=
  h.happen fun h => h.expireRound

theorem State.linksFit.abortRound {old mem} (h : s.linksFit) : (s.abortRound old mem).linksFit := by
  unfold State.abortRound
  split
  exacts [h.ite h.closeRound, h]

theorem State.linksFit.forceMember {g m live} (h : s.linksFit) : (s.forceMember g m live).linksFit := h.wr.wr.log

theorem State.linksFit.concCtrl {g m live both} (h : s.linksFit) : (s.concCtrl g m live both).linksFit :=
  h.refuse.ite h.forceMember

theorem State.linksFit.execForceOut {t group member both} (h : s.linksFit) :
    AnswersFit (execForceOut t group member both s) :=
  h.happen fun h => h.blkGuard fun h => h.concCtrl

theorem State.linksFit.execForceIn {t group member both} (h : s.linksFit) : AnswersFit (execForceIn t group member both s) :=
  h.happen fun h => h.blkGuard fun h => h.concCtrl

theorem State.linksFit.clashCheck {i} (h : s.linksFit) : (s.clashCheck i).linksFit :=
  h.ite (by split; exacts [(h.congr (by rfl)).inc.wr.wr.raise.ite (h.congr (by rfl)), h.congr (by rfl)])

/-! ### Release of references -/

theorem State.linksFit.setTx {p l} (h : s.linksFit) : (s.setTx p l).linksFit := h.setLis.wr.wrB.wrB.ite h.setLis

theorem State.linksFit.paceTake {p w} (h : s.linksFit) : (s.paceTake p w).linksFit := h.setLis.ite (h.ite h.setLis.wr)

theorem State.linksFit.tagItemOut {k} (h : s.linksFit) : (s.tagItemOut k).2.linksFit := .iteSnd h.raTag h

theorem State.linksFit.sendMcast {leaves k} (h : s.linksFit) : (s.sendMcast leaves k).linksFit :=
  h.each fun h => h.each fun h => by
    dsimp only
    split
    exacts [h.sendPort, h]

theorem State.linksFit.ringOut {i ports g} (h : s.linksFit) : (s.ringOut i ports g).linksFit := by
  refine .each ?_ fun h => ?_
  · split
    exacts [h.ite h.tagItemOut.inc.sendMcast, h]
  · split
    exacts [h, (h.inc.raise.ite h).tagItemOut.inc.sendBoth]

theorem State.linksFit.txPush {p handle kind body} (h : s.linksFit) : (s.txPush p handle kind body).linksFit := h.setTx

theorem State.linksFit.uartDrive {p} (h : s.linksFit) : (s.uartDrive p).linksFit := h.wr.when fun h => h.wr

theorem State.linksFit.handLocal {p r i e} (h : s.linksFit) : (s.handLocal p r i e).linksFit := by
  refine h.inc.ite (h.txPush.uartDrive.ite (h.txPush.ite (h.itemFrame.txPush.ite (h.txPush.ite (.ite ?_ h)))))
  · split
    exacts [h.inc.rxComplete, h.inc, h]

theorem State.linksFit.settleSent {q r i e code w} (h : s.linksFit) : (s.settleSent q r i e code w).linksFit := by
  unfold State.settleSent
  extract_lets p l s1 s2 s3 ms src s4 s5
  have h3 : s3.linksFit := ((h.setLis.ite h).when fun h => h.inc).when fun h => h.inc
  clear_value s3
  have h4 : s4.linksFit := (h3.congr (by rfl)).ite h3
  clear_value s4
  have h5 : s5.linksFit := by
    unfold s5
    split
    · split
      exacts [h4.putItem.ite h4, h4]
    · exact h4
  exact h5.resolve

theorem State.linksFit.settleRelease {q r i e code w} (h : s.linksFit) : (s.settleRelease q r i e code w).linksFit :=
  (h.when fun h => h.inc).paceTake.settleSent

theorem State.linksFit.fetchBack {h} (hs : s.linksFit) : (s.fetchBack h).linksFit := by
  unfold State.fetchBack
  split
  exacts [hs.putItem.takeCells.ite hs, hs]

theorem State.linksFit.fetchNear {q} (h : s.linksFit) : (s.fetchNear q).linksFit := h.each fun h => h.fetchBack.ite h

theorem State.linksFit.turnN {p n} (h : s.linksFit) : (s.turnN p n).2.linksFit := by
  induction n generalizing s with
  | zero => exact h
  | succ n ih =>
    unfold State.turnN
    split
    · exact ih (h.when fun h => h.inc).resolve.fetchNear
    · exact h.ite h.setLis.inc.raise
    · exact h

theorem State.linksFit.releasePort {p more} (h : s.linksFit) : (s.releasePort p more).linksFit := by
  unfold State.releasePort
  refine h.ite ?_
  extract_lets ts
  have hts : ts.2.linksFit := h.turnN
  clear_value ts
  split
  · refine State.linksFit.ite (hts.handLocal.when fun h => h.setLis).settleRelease.fetchNear
      (.ite hts.ringOut.settleRelease.fetchNear ?_)
    exact ((hts.when fun h => h.ringOut).when fun h => h.ringOut).each fun h => h.settleRelease.fetchNear
  · exact hts

/-! ### Candidates admitted -/

theorem State.linksFit.mirrorAnvils (h : s.linksFit) : s.mirrorAnvils.linksFit := (h.each fun h => h.wrB).setHealth

theorem State.linksFit.freeAnvil {id} (h : s.linksFit) : (s.freeAnvil id).linksFit := by
  unfold State.freeAnvil
  split
  exacts [(h.congr (by rfl)).wr, h]

theorem State.linksFit.dropCand {c} (h : s.linksFit) : (s.dropCand c).linksFit := h.freeAnvil.setRx

theorem State.linksFit.logRefuse {c cause} (h : s.linksFit) : (s.logRefuse c cause).linksFit :=
  .log (by split; exacts [h, h.fresh])

theorem State.linksFit.refuseCand {c cause} (h : s.linksFit) : (s.refuseCand c cause).linksFit := h.dropCand.logRefuse

theorem State.linksFit.countFail {p n} (h : s.linksFit) : (s.countFail p n).linksFit :=
  h.inc.ite (h.inc.ite (h.inc.ite h.icInc))

theorem State.linksFit.noteNoFlow {p} (h : s.linksFit) : (s.noteNoFlow p).linksFit := h.inc.wr.raise

theorem State.linksFit.lookCand {b} (h : s.linksFit) : (s.lookCand b).2.linksFit := by
  unfold State.lookCand
  dsimp only
  split
  exacts [h.findFlow, .iteSnd h.findFlow.noteNoFlow.icInc h.findFlow.noteNoFlow]

theorem State.linksFit.examine {a c} (h : s.linksFit) : (s.examine a c).2.linksFit := by
  unfold State.examine
  dsimp only
  split
  · exact ((h.when fun h => h.icInc).icAdd.icInc.inc.when fun h => h.icInc).lookCand
  · exact .iteSnd ((h.when fun h => h.icInc).countFail.icInc.icInc.inc.when fun h => h.icInc) (h.when fun h =>
      h.icInc).countFail.inc

theorem State.linksFit.dispatch {a p} (h : s.linksFit) : (s.dispatch a p).linksFit := by
  unfold State.dispatch
  split
  · extract_lets r s1 s2 x src s3
    have h2 : s2.linksFit := h.setRx.wr.wr
    clear_value s2
    have hx : x.2.linksFit := h2.examine
    clear_value x
    have h3 : s3.linksFit := hx.congr rfl
    clear_value s3
    refine State.linksFit.ite ?_ h
    split
    exacts [h3.refuseCand.ite h3, h3]
  · exact h

theorem State.linksFit.noteBlock {i} (h : s.linksFit) : (s.noteBlock i).linksFit :=
  ((h.when fun h => h.inc).congr (by with_reducible rfl)).ite h

theorem State.linksFit.afterAdmit {i own atAdm} (h : s.linksFit) : (s.afterAdmit i own atAdm).linksFit :=
  h.noteBlock.admitState.offerConcord.clashCheck.ite h.noteBlock

theorem State.linksFit.fateOf {b} (h : s.linksFit) : (s.fateOf b).1.linksFit := by
  unfold State.fateOf
  split
  · exact h
  · exact h
  · split
    exacts [h, h.judge]

theorem State.linksFit.relook {b} (h : s.linksFit) : (s.relook b).2.linksFit := .iteSnd h h.inc.lookCand

theorem State.linksFit.placeCand {b wb} (h : s.linksFit) : (s.placeCand b wb).2.linksFit := by
  unfold State.placeCand
  extract_lets x b fate s1
  have hfate : fate.1.linksFit := h.relook.fateOf
  have h1 : s1.linksFit := hfate.dropCand
  clear_value fate s1
  split
  · exact hfate.refuseCand
  · extract_lets r
    have hr : r.2.linksFit := h1.admitNew
    clear_value r
    split
    exacts [hr.afterAdmit, hr.logRefuse]

theorem State.linksFit.hostBuilt {c} (h : s.linksFit) : (s.hostBuilt c).2.linksFit := h.lookCand

theorem State.linksFit.admitHost (h : s.linksFit) : s.admitHost.linksFit := by
  unfold State.admitHost
  split
  · exact h
  · extract_lets w x b y
    have hy : y.2.linksFit := h.hostBuilt.placeCand
    clear_value y
    split
    exacts [hy, hy.wbWrite]

theorem State.linksFit.admitNext {src} (h : s.linksFit) : (s.admitNext src).linksFit :=
  h.ite (h.admitHost.ite (by split; exacts [h.placeCand.ite h, h]))

theorem State.linksFit.execAdmitItem {t src} (h : s.linksFit) : AnswersFit (execAdmitItem t src s) :=
  h.happen fun h => h.admitNext

theorem State.linksFit.golden {a pass} (h : s.linksFit) : (s.golden a pass).linksFit :=
  (h.inc.ite h.inc.inc.wr.mirrorAnvils.raise).ite h

theorem State.linksFit.execGoldenItem {t anvil pass} (h : s.linksFit) : AnswersFit (execGoldenItem t anvil pass s) :=
  h.happen fun h => h.golden

theorem State.linksFit.execGoldFailedClear {t anvil} (h : s.linksFit) : AnswersFit (execGoldFailedClear t anvil s) :=
  h.happen fun h => h.blkGuard fun h => h.wr.mirrorAnvils

/-! ### Time -/

theorem State.linksFit.setDom {x d} (h : s.linksFit) : (s.setDom x d).linksFit := h.congr rfl

theorem State.linksFit.setOfs {x v} (h : s.linksFit) : (s.setOfs x v).linksFit := h.wrI

theorem State.linksFit.moveH {d} (h : s.linksFit) : (s.moveH d).linksFit := (h.congr (by rfl)).each fun h => h.setOfs

theorem State.linksFit.setDomState {x v} (h : s.linksFit) : (s.setDomState x v).linksFit :=
  h.ite ((h.wr.raise.when fun h => h.setDom).moveH.wr.raise.ite (h.wr.raise.when fun h => h.setDom))

theorem State.linksFit.acquire {x ofs} (h : s.linksFit) : (s.acquire x ofs).linksFit := h.setOfs.setDom.setDomState

theorem State.linksFit.applySample {x at_ r} (h : s.linksFit) : (s.applySample x at_ r).linksFit := h.setOfs.wrI

theorem State.linksFit.sample {x at_ ofs} (h : s.linksFit) : (s.sample x at_ ofs).linksFit := by
  unfold State.sample
  dsimp only
  split
  · exact h.setDom.acquire.setDom.inc
  · exact h.setDom.acquire.setDom.inc.ite (h.setDom.applySample.setDom.inc.setDom.setDomState.ite
      h.setDom.applySample.setDom.inc.setDom)
  · exact (h.setDom.inc.setDom.setDomState.ite h.setDom.inc.setDom).ite h.setDom.applySample.setDom.inc.setDom
  · exact h.setDom.acquire.setDom.inc.ite h.setDom.applySample.setDom.inc.setDomState

theorem State.linksFit.unlock {x} (h : s.linksFit) : (s.unlock x).linksFit := h.setDom.setDomState

theorem State.linksFit.select {x} (h : s.linksFit) : (s.select x).linksFit := h.ite h.wr.inc.raise

theorem State.linksFit.selectNow (h : s.linksFit) : s.selectNow.linksFit :=
  h.select.ite (((h.congr (by rfl)).select.ite (h.congr (by rfl))).ite (((h.congr (by rfl)).select.ite
    (h.ite (h.congr (by rfl)).raise)).ite (h.congr (by rfl))))

theorem State.linksFit.msUpdate (h : s.linksFit) : s.msUpdate.linksFit := by
  unfold State.msUpdate
  extract_lets y s1 twin s2 limit sel e c src s3 s4 src'
  have h1 : s1.linksFit := h.each fun h => h.setOfs
  clear_value s1
  have h2 : s2.linksFit := h1.ite h1.selectNow
  clear_value s2
  have h3 : s3.linksFit := h2.congr rfl
  clear_value s3
  have h4 : s4.linksFit := h3.wrB
  clear_value s4
  split
  · have h5 : State.linksFit { s4 with time := { src' with step := none } } := h4.congr rfl
    exact h5.wr.moveH.inc.raise
  · exact h4

theorem State.linksFit.execMsUpdate {t} (h : s.linksFit) : AnswersFit (execMsUpdate t s) := h.happen fun h => h.msUpdate

theorem State.linksFit.smpGo {x} (h : s.linksFit) : (s.smpGo x).linksFit := h.refuse.ite (h.ite (h.inc.ite h.sample))

theorem State.linksFit.execSmpGo {t domain} (h : s.linksFit) : AnswersFit (execSmpGo t domain s) :=
  h.happen fun h => h.blkGuard fun h => h.smpGo

theorem State.linksFit.execDomainMissTimeout {t domain} (h : s.linksFit) : AnswersFit (execDomainMissTimeout t domain s) :=
  h.happen fun h => h.ite (h.unlock.ite (h.setDomState.ite h))

theorem State.linksFit.execDreset {t domain} (h : s.linksFit) : AnswersFit (execDreset t domain s) :=
  h.happen fun h => h.blkGuard fun h => h.unlock

theorem State.linksFit.execSetGo {t} (h : s.linksFit) : AnswersFit (execSetGo t s) :=
  h.happen fun h => h.blkGuard fun h => h.refuse.ite h.moveH.wr.raise

theorem State.linksFit.execStepGo {t} (h : s.linksFit) : AnswersFit (execStepGo t s) :=
  h.happen fun h => h.blkGuard fun h => h.refuse.ite (h.congr (by rfl)).wr

theorem State.linksFit.execTimeCap {t} (h : s.linksFit) : AnswersFit (execTimeCap t s) :=
  h.happen fun h => h.blkGuard fun h => h.wr.wr.wr.wr.wrI.wrI

theorem State.linksFit.execLeap {t} (h : s.linksFit) : AnswersFit (execLeap t s) := h.happen fun h => h.wr.wr.raise.ite h

theorem State.linksFit.ppsSample {x t0} (h : s.linksFit) : (s.ppsSample x t0).linksFit := h.ite h.wr.sample

theorem State.linksFit.ppsEdge {n rising short} (h : s.linksFit) : (s.ppsEdge n rising short).linksFit :=
  h.ite (h.inc.ite ((h.congr (by rfl)).inc.wr.wr.wr.each fun h => h.ppsSample.ite h))

theorem State.linksFit.execPpsInputEdge {t input rising short} (h : s.linksFit) :
    AnswersFit (execPpsInputEdge t input rising short s) :=
  h.happen fun h => h.ppsEdge

theorem State.linksFit.execPpsMiss {t input} (h : s.linksFit) : AnswersFit (execPpsMiss t input s) :=
  h.happen fun h => (h.congr (by rfl)).inc.raise.ite h

theorem State.linksFit.ppsPulse {n target} (h : s.linksFit) : (s.ppsPulse n target).linksFit :=
  h.ite ((h.congr (by rfl)).ite (h.ite (h.congr (by rfl)).emit))

theorem State.linksFit.execPpsOutputPulse {t output target} (h : s.linksFit) :
    AnswersFit (execPpsOutputPulse t output target s) :=
  h.happen fun h => h.ppsPulse

theorem State.linksFit.sendSync {p} (h : s.linksFit) : (s.sendSync p).linksFit := h.ite (h.congr (by rfl)).sendPort.inc

theorem State.linksFit.sendSyncs (h : s.linksFit) : s.sendSyncs.linksFit := (h.each fun h => h.sendSync).ite h

theorem State.linksFit.execTimeSyncSend {t} (h : s.linksFit) : AnswersFit (execTimeSyncSend t s) :=
  h.happen fun h => h.sendSyncs

end Sys2Proof.Machine
end

section
/-! SUPPORT. The frame numbers keep within their 16 bits, for O5 (R196, R243): queues, engines, axes, CAN frames
  received and Ethernet. -/

namespace Sys2Proof.Machine

variable {s u : State}

/-! ### Queues and timers -/

theorem State.linksFit.execRelease {t port more} (h : s.linksFit) : AnswersFit (execRelease t port more s) :=
  h.happen fun h => h.releasePort

theorem State.linksFit.wireStamp {handle p stamp} (h : s.linksFit) : (s.wireStamp handle p stamp).linksFit := by
  unfold State.wireStamp
  split
  · split
    exacts [h.putItem.settle.ite h, h]
  · exact h

theorem State.linksFit.wireLost {handle p} (h : s.linksFit) : (s.wireLost handle p).linksFit := by
  unfold State.wireLost
  split
  · split
    exacts [h.putItem.settle.ite h, h]
  · exact h

theorem State.linksFit.txPop {p} (h : s.linksFit) : (s.txPop p).linksFit := h.setTx

theorem State.linksFit.lineFree {p} (h : s.linksFit) : (s.lineFree p).linksFit := h.setLis.ite h

theorem State.linksFit.itemSent {p stamp} (h : s.linksFit) : (s.itemSent p stamp).linksFit := by
  refine (h.lineFree.ite h).ite (.ite ?_ h)
  · split
    · exact h
    · exact ((h.add.when fun h => h.emit).txPop.lineFree.setLis.when fun h => h.wr).wireStamp.ite (h.ite
        (h.ethSend.txPop.wireStamp.ite (h.ethSend.txPop.wireLost.ite h.ethSend)))

theorem State.linksFit.execItemTransmitted {t port stamp} (h : s.linksFit) :
    AnswersFit (execItemTransmitted t port stamp s) :=
  h.happen fun h => h.itemSent

theorem State.linksFit.execAlignedReleaseTime {t} (h : s.linksFit) : AnswersFit (execAlignedReleaseTime t s) :=
  h.happen fun h => h

theorem State.linksFit.alignedFetch {p} (h : s.linksFit) : (s.alignedFetch p).linksFit := h.each fun h => h.fetchBack

theorem State.linksFit.execAlignedFetch {t port} (h : s.linksFit) : AnswersFit (execAlignedFetch t port s) :=
  h.happen fun h => h.alignedFetch

theorem State.linksFit.holdEnd {p k} (h : s.linksFit) : (s.holdEnd p k).linksFit := by
  unfold State.holdEnd
  split
  exacts [(h.congr (by rfl)).fresh.mirrorKeys.log.ite h, h]

theorem State.linksFit.execNewestHoldEnd {t port key} (h : s.linksFit) : AnswersFit (execNewestHoldEnd t port key s) :=
  h.happen fun h => h.holdEnd

theorem State.linksFit.expire {h} (hs : s.linksFit) : (s.expire h).linksFit := by
  unfold State.expire
  split
  exacts [(hs.each fun hs => hs.resolve.fetchNear).ite hs, hs]

theorem State.linksFit.execDeadlineExpiry {t handle} (h : s.linksFit) : AnswersFit (execDeadlineExpiry t handle s) :=
  h.happen fun h => h.expire

theorem State.linksFit.bound {q h} (hs : s.linksFit) : (s.bound q h).linksFit := by
  unfold State.bound
  split
  exacts [hs.inc.resolve.fetchNear.raise.ite hs, hs]

theorem State.linksFit.execClassBoundExpiry {t queue handle} (h : s.linksFit) :
    AnswersFit (execClassBoundExpiry t queue handle s) :=
  h.happen fun h => h.bound

theorem State.linksFit.queueStat {p sec k} (h : s.linksFit) : (s.queueStat p sec k).linksFit :=
  (h.congr (by rfl)).enqAt.ite (h.congr (by rfl)).arrive

theorem State.linksFit.boundary {p sec} (h : s.linksFit) : (s.boundary p sec).linksFit :=
  (h.setLed.log.each fun h => h.queueStat).ite h.setLed.log

theorem State.linksFit.statBoundary {p} (h : s.linksFit) : (s.statBoundary p).linksFit := h.boundary.ite h

theorem State.linksFit.execStatusBoundary {t port} (h : s.linksFit) : AnswersFit (execStatusBoundary t port s) :=
  h.happen fun h => h.statBoundary

theorem State.linksFit.qflush {p} (h : s.linksFit) : (s.qflush p).linksFit :=
  (h.wr.each fun h => h.each fun h => h.resolve).ite h.wr

theorem State.linksFit.lportCommit {p w} (h : s.linksFit) : (s.lportCommit p w).linksFit :=
  h.ite (h.dropHeld.refuse.ite ((h.applyHeld.setWord.logHeld.logDelta.when fun h => h.qflush).when fun h => h.mirrorPort))

theorem State.linksFit.execListenerPortCommit {t port word} (h : s.linksFit) :
    AnswersFit (execListenerPortCommit t port word s) :=
  h.happen fun h => h.winGuard fun h => h.lportCommit

theorem State.linksFit.execQflush {t port} (h : s.linksFit) : AnswersFit (execQflush t port s) := by
  refine h.happen fun h => h.winGuard fun h => h.when fun h => ?_
  exact h.logDelta.qflush

theorem State.linksFit.flushDone {p} (h : s.linksFit) : (s.flushDone p).linksFit := h.wr

theorem State.linksFit.execQflushComplete {t port} (h : s.linksFit) : AnswersFit (execQflushComplete t port s) :=
  h.happen fun h => h.flushDone

theorem State.linksFit.qlimWrite {q v} (h : s.linksFit) : (s.qlimWrite q v).linksFit :=
  h.refuse.ite h.wr.logDelta.wrB.judgeBP

theorem State.linksFit.execQlimWrite {t queue word} (h : s.linksFit) : AnswersFit (execQlimWrite t queue word s) :=
  h.happen fun h => h.winGuard fun h => h.qlimWrite

theorem State.linksFit.mirrorSpillOf {h} (hs : s.linksFit) : (s.mirrorSpillOf h).linksFit :=
  hs.each fun hs => hs.mirrorSpilled

theorem State.linksFit.spillDone {h} (hs : s.linksFit) : (s.spillDone h).linksFit := by
  unfold State.spillDone
  split
  exacts [(hs.putItem.inc.mirrorSpillOf.freeCells.add.each fun hs => hs.fetchNear).spillNext.ite hs, hs]

theorem State.linksFit.execSpillWriteDone {t handle} (h : s.linksFit) : AnswersFit (execSpillWriteDone t handle s) :=
  h.happen fun h => h.spillDone

theorem State.linksFit.discardItem {h} (hs : s.linksFit) : (s.discardItem h).linksFit := hs.add.inc.each fun hs => hs.resolve

theorem State.linksFit.fetchDone {h err a} (hs : s.linksFit) : (s.fetchDone h err a).linksFit := by
  unfold State.fetchDone
  split
  · extract_lets src s1 s2 s3 s4 s5
    have h4 : s4.linksFit := (hs.putItem.add.when fun hs => hs.ueWords).mirrorSpillOf
    clear_value s4
    have h5 : s5.linksFit := h4.discardItem.ite h4.inc
    exact h5.spillFreed.ite hs
  · exact hs

theorem State.linksFit.execSpillFetchDone {t handle err addr} (h : s.linksFit) :
    AnswersFit (execSpillFetchDone t handle err addr s) :=
  h.happen fun h => h.fetchDone

/-! ### Engines of TONGS -/

theorem State.linksFit.setEng {n e} (h : s.linksFit) : (s.setEng n e).linksFit := h.congr rfl

theorem State.linksFit.tongSettle {n} (h : s.linksFit) : (s.tongSettle n).linksFit := h.setEng.when fun h => h.add

theorem State.linksFit.tongClkrst {n} (h : s.linksFit) : (s.tongClkrst n).linksFit := h.tongSettle.setEng

theorem State.linksFit.pinSync {l h} (hs : s.linksFit) : (s.pinSync l h).linksFit := hs.wrB.ite (hs.congr (by rfl)).emit

theorem State.linksFit.pinSyncAll (h : s.linksFit) : s.pinSyncAll.linksFit := h.each fun h => h.pinSync

theorem State.linksFit.pinDenied {n} (h : s.linksFit) : (s.pinDenied n).linksFit := h.inc.raise

theorem State.linksFit.pinLevel {n l v h} (hs : s.linksFit) : (s.pinLevel n l v h).linksFit :=
  hs.pinDenied.ite hs.wrB.pinSync

theorem State.linksFit.pinDir {n l v h} (hs : s.linksFit) : (s.pinDir n l v h).linksFit :=
  hs.pinDenied.ite (hs.congr (by rfl)).pinSync

theorem State.linksFit.tongTxDrop {n} (h : s.linksFit) : (s.tongTxDrop n).linksFit := by
  unfold State.tongTxDrop
  dsimp only
  split
  exacts [h, h.add.txPop.wireLost]

theorem State.linksFit.tongRewind {n} (h : s.linksFit) : (s.tongRewind n).linksFit := h.setEng.setRx.inc.ite h.setEng

theorem State.linksFit.tongSrDrop {n} (h : s.linksFit) : (s.tongSrDrop n).linksFit := h.add.wr.wr.setEng

theorem State.linksFit.tongDiscard {n} (h : s.linksFit) : (s.tongDiscard n).linksFit := h.tongRewind.tongSrDrop.tongTxDrop

theorem State.linksFit.tongMove {n} (h : s.linksFit) : (s.tongMove n).linksFit := h.wr.wr.wr.wr

theorem State.linksFit.tongShadowPut {a w} (h : s.linksFit) : (s.tongShadowPut a w).linksFit := h.wr

theorem State.linksFit.tongSwapEnd (h : s.linksFit) : s.tongSwapEnd.linksFit :=
  (((h.each fun h => h.tongShadowPut).wr.inc.congr (by with_reducible rfl)).each fun h => h.tongShadowPut).ite h

theorem State.linksFit.tongUnwait {n} (h : s.linksFit) : (s.tongUnwait n).linksFit := (h.wr.ite h).tongSwapEnd

theorem State.linksFit.tongLeave {n} (h : s.linksFit) : (s.tongLeave n).linksFit := h.tongMove.tongUnwait.ite h

theorem State.linksFit.tongFault {n code} (h : s.linksFit) : (s.tongFault n code).linksFit :=
  h.tongSettle.wr.wr.raise.tongLeave

theorem State.linksFit.tongStart {n} (h : s.linksFit) : (s.tongStart n).linksFit := by
  unfold State.tongStart
  extract_lets b e s1 s2 s3 s4
  have h4 : s4.linksFit := (h.setEng.each fun h => h.wr).wr.wr.wr
  exact h4.ite h4.tongFault

theorem State.linksFit.tongHold {n} (h : s.linksFit) : (s.tongHold n).linksFit := h.setEng.wr.wr.wr.wr

theorem State.linksFit.tongBegin {n} (h : s.linksFit) : (s.tongBegin n).linksFit := h.tongHold.ite h.tongStart

theorem State.linksFit.tongEnable {n} (h : s.linksFit) : (s.tongEnable n).linksFit := h.ite (h.wr.when fun h => h.tongBegin)

theorem State.linksFit.tongHalt {n} (h : s.linksFit) : (s.tongHalt n).linksFit := h.tongSettle.tongDiscard.tongLeave

theorem State.linksFit.tongDisable {n} (h : s.linksFit) : (s.tongDisable n).linksFit := h.ite h.tongHalt.wr.wr.wr.wr

theorem State.linksFit.tongTxFlush {n} (h : s.linksFit) : (s.tongTxFlush n).linksFit := h.each fun h => h.tongTxDrop

theorem State.linksFit.tongReset {n} (h : s.linksFit) : (s.tongReset n).linksFit :=
  ((h.tongHalt.tongTxFlush.wr.each fun h => h.wr).wr.setEng.congr (by with_reducible rfl)).pinSyncAll

theorem State.linksFit.tongFreeze {n} (h : s.linksFit) : (s.tongFreeze n).linksFit := h.tongSettle.when fun h => h.wr

theorem State.linksFit.tongResume {n} (h : s.linksFit) : (s.tongResume n).linksFit := h.setEng.wr.ite h

theorem State.linksFit.tongGrpSet {mask} (h : s.linksFit) : (s.tongGrpSet mask).linksFit :=
  h.each fun h => h.when fun h => h.tongEnable

theorem State.linksFit.tongGrpClr {mask} (h : s.linksFit) : (s.tongGrpClr mask).linksFit :=
  h.each fun h => h.when fun h => h.tongDisable

theorem State.linksFit.tongGrpClkrst {mask} (h : s.linksFit) : (s.tongGrpClkrst mask).linksFit :=
  h.each fun h => h.when fun h => h.tongClkrst

theorem State.linksFit.tongRole {n} (h : s.linksFit) : (s.tongRole n).linksFit :=
  h.ite ((h.ite h.tongStart).ite (h.tongHalt.tongHold.ite h))

theorem State.linksFit.tongsRole (h : s.linksFit) : s.tongsRole.linksFit := (h.each fun h => h.tongRole).pinSyncAll

theorem State.linksFit.tongLatch {slot f n} (h : s.linksFit) : (s.tongLatch slot f n).linksFit := h.inc.ite h.setEng

theorem State.linksFit.tongFire {slot f} (h : s.linksFit) : (s.tongFire slot f).linksFit :=
  (h.tongGrpSet.wr.ite h).each fun h => h.tongLatch

/-! ### Axes -/

theorem State.linksFit.setEnc {n e} (h : s.linksFit) : (s.setEnc n e).linksFit := h.congr rfl

theorem State.linksFit.mirrorAx {k} (h : s.linksFit) : (s.mirrorAx k).linksFit := h.wr

theorem State.linksFit.setAx {k m} (h : s.linksFit) : (s.setAx k m).linksFit := (h.congr (by rfl)).mirrorAx

theorem State.linksFit.axCount {k c h} (hs : s.linksFit) : (s.axCount k c h).linksFit := hs.setAx

theorem State.linksFit.axShift {k d} (h : s.linksFit) : (s.axShift k d).linksFit := h.setAx

theorem State.linksFit.axError {k} (h : s.linksFit) : (s.axError k).linksFit := h.setAx

theorem State.linksFit.encLevels {n a' b'} (h : s.linksFit) : (s.encLevels n a' b').linksFit :=
  h.setEnc.ite ((h.setEnc.inc.wr.raise.each fun h => h.axError).ite (h.setEnc.ite (h.setEnc.setEnc.wr.each fun h =>
    h.axCount)))

theorem State.linksFit.execEncoderCount {t encoder a b} (h : s.linksFit) : AnswersFit (execEncoderCount t encoder a b s) :=
  h.happen fun h => h.encLevels

theorem State.linksFit.mirrorEnc {n} (h : s.linksFit) : (s.mirrorEnc n).linksFit := h.each fun h => h.mirrorAx

theorem State.linksFit.encIndex {n} (h : s.linksFit) : (s.encIndex n).linksFit := by
  refine h.ite ((h.setEnc.each fun h => h.axShift).wr.setEnc.raise.mirrorEnc.ite ?_)
  · split
    · exact h
    · split
      exacts [h.setEnc.wr.mirrorEnc, h.ite ((h.inc.raise.setEnc.each fun h => h.axShift).ite h.inc.raise)]

theorem State.linksFit.execEncoderIndex {t encoder} (h : s.linksFit) : AnswersFit (execEncoderIndex t encoder s) :=
  h.happen fun h => h.encIndex

theorem State.linksFit.execAxisStill {t axis} (h : s.linksFit) : AnswersFit (execAxisStill t axis s) :=
  h.happen fun h => h.setAx.ite h

theorem State.linksFit.edgeEntry {k l o} (h : s.linksFit) : (s.edgeEntry k l o).linksFit :=
  (h.when fun h => h.axError).ite (h.when fun h => h.axError).axCount

theorem State.linksFit.takeEdges {leaf l} (h : s.linksFit) : (s.takeEdges leaf l).linksFit :=
  h.ite (((h.congr (by rfl)).when fun h => h.inc).inc.ite (((h.congr (by rfl)).when fun h => h.inc).inc.each fun h =>
    h.setAx.each fun h =>
    h.edgeEntry))

theorem State.linksFit.axCommit {k w} (h : s.linksFit) : (s.axCommit k w).linksFit :=
  h.dropHeld.refuse.ite h.applyHeld.setWord.logHeld.logDelta.setAx

theorem State.linksFit.execAxisConfigCommit {t axis word} (h : s.linksFit) :
    AnswersFit (execAxisConfigCommit t axis word s) :=
  h.happen fun h => h.blkGuard fun h => h.axCommit

theorem State.linksFit.axisCap (h : s.linksFit) : s.axisCap.linksFit :=
  (h.wr.wr.each fun h => h.wrI).each fun h => h.ite h.wr.wrI

theorem State.linksFit.execAxisCap {t} (h : s.linksFit) : AnswersFit (execAxisCap t s) :=
  h.happen fun h => h.blkGuard fun h => h.axisCap.logDelta

theorem State.linksFit.sendAxis {k} (h : s.linksFit) : (s.sendAxis k).linksFit := h.each fun h => h.sendPort.inc.ite h

theorem State.linksFit.execAxisStateSend {t axis} (h : s.linksFit) : AnswersFit (execAxisStateSend t axis s) :=
  h.happen fun h => h.sendAxis.ite h

theorem State.linksFit.disarm {k} (h : s.linksFit) : (s.disarm k).linksFit := h.wr.wr

theorem State.linksFit.slotSkip {k} (h : s.linksFit) : (s.slotSkip k).2.linksFit := .iteSnd h (.iteSnd h.wrI h.wrI)

theorem State.linksFit.fireSlot {k jump} (h : s.linksFit) : (s.fireSlot k jump).linksFit := by
  unfold State.fireSlot
  extract_lets b st s1 s2 s3 s4 s5 cnt left s6 per s7 x
  have h6 : s6.linksFit :=
    (((h.when fun h => h.tongFire).when fun h => h.raise).wr.wr.wrI.add.inc.when fun h => h.inc).when fun h => h.wr
  clear_value s6
  exact h6.disarm.ite h6.wrI.slotSkip.add.add

theorem State.linksFit.slotFire {k jump} (h : s.linksFit) : (s.slotFire k jump).linksFit := h.ite (h.ite h.fireSlot)

theorem State.linksFit.execSlotFire {t slot jump} (h : s.linksFit) : AnswersFit (execSlotFire t slot jump s) :=
  h.happen fun h => h.slotFire

theorem State.linksFit.slotSet {k w} (h : s.linksFit) : (s.slotSet k w).linksFit := h.applyHeld.setWord

theorem State.linksFit.slotArm {k w} (h : s.linksFit) : (s.slotArm k w).linksFit :=
  h.slotSet.wr.ite (h.slotSet.wr.wr.ite (h.slotSet.wr.wr.inc.raise.fireSlot.ite (h.slotSet.wr.wr.inc.raise.disarm.ite
    h.slotSet.wr.wr.inc.raise.slotSkip)))

theorem State.linksFit.slotWrite {k w race} (h : s.linksFit) : (s.slotWrite k w race).linksFit :=
  (h.fireSlot.inc.ite h).dropHeld.refuse.ite (((h.fireSlot.inc.ite h).dropHeld.each fun h => h.log.congr
    (by with_reducible rfl)).ite
    (h.fireSlot.inc.ite h).slotArm)

theorem State.linksFit.execSlotWrite {t slot word race} (h : s.linksFit) : AnswersFit (execSlotWrite t slot word race s) :=
  h.happen fun h => h.winGuard fun h => h.slotWrite

theorem State.linksFit.slotWord {a w} (h : s.linksFit) : (s.slotWord a w).linksFit := by
  unfold State.slotWord
  exact .ite h.slotArm (h.congr (by rfl))

theorem State.linksFit.deltasDue (h : s.linksFit) : s.deltasDue.linksFit := (h.congr (by rfl)).each fun h => h.slotWord

theorem State.linksFit.execDeltaAtH {t} (h : s.linksFit) : AnswersFit (execDeltaAtH t s) := h.happen fun h => h.deltasDue

/-! ### CAN received -/

theorem State.linksFit.setCtl {n c} (h : s.linksFit) : (s.setCtl n c).linksFit := h.congr rfl

theorem State.linksFit.giveCand {m src body} (h : s.linksFit) : (s.giveCand m src body).linksFit := h.ite h.offerCand

theorem State.linksFit.fcInc {p i} (h : s.linksFit) : (s.fcInc p i).linksFit := h.inc

theorem State.linksFit.giveMsg {m pgn pri mech sa da first data} (h : s.linksFit) :
    (s.giveMsg m pgn pri mech sa da first data).linksFit :=
  h.fcInc.giveCand

theorem State.linksFit.ownFrame {n id data} (h : s.linksFit) : (s.ownFrame n id data).linksFit := h.setCtl.ite h

theorem State.linksFit.tpAnswer {port pgn dst from_ data} (h : s.linksFit) : (s.tpAnswer port pgn dst from_ data).linksFit :=
  h.ite h.ownFrame

theorem State.linksFit.sendCts {x} (h : s.linksFit) : (s.sendCts x).2.linksFit := h.tpAnswer

theorem State.linksFit.cutTp {x} (h : s.linksFit) : (s.cutTp x).linksFit := h.congr rfl

theorem State.linksFit.tpDrop {x counter reason} (h : s.linksFit) : (s.tpDrop x counter reason).linksFit := by
  unfold State.tpDrop
  exact h.cutTp.fcInc.when fun h => h.tpAnswer

theorem State.linksFit.dropFp {x} (h : s.linksFit) : (s.dropFp x).linksFit := h.congr rfl

theorem State.linksFit.clashEvt {p} (h : s.linksFit) : (s.clashEvt p).linksFit := h.raise.ite h

theorem State.linksFit.fpDone {m x} (h : s.linksFit) : (s.fpDone m x).linksFit := h.dropFp.giveMsg

theorem State.linksFit.fastFrame {m id d} (h : s.linksFit) : (s.fastFrame m id d).linksFit := by
  unfold State.fastFrame
  extract_lets b0 seq c p old s0 s1 total x src s2
  clear_value old
  have h0 : s0.linksFit := h.fcInc
  clear_value s0
  have h1 : s1.linksFit := by
    cases old with
    | none => exact h0
    | some y => exact h0.dropFp.fcInc
  clear_value s1
  have h2 : s2.linksFit := h1.congr rfl
  clear_value s2
  refine State.linksFit.ite (h1.fcInc.ite (h1.fcInc.ite (h2.fpDone.ite h2))) ?_
  cases old with
  | none => exact h0
  | some y =>
    exact h0.ite (h0.dropFp.fcInc.clashEvt.ite (h0.dropFp.fcInc.ite
      (h0.fpDone.ite (h0.dropFp.fcInc.ite (h0.dropFp.congr (by with_reducible rfl))))))

theorem State.linksFit.putTp {x} (h : s.linksFit) : (s.putTp x).linksFit := h.congr rfl

theorem State.linksFit.tpOpen {m id d own bam} (h : s.linksFit) : (s.tpOpen m id d own bam).linksFit := by
  unfold State.tpOpen
  extract_lets size n x abort s1 y
  have h1 : s1.linksFit := by
    unfold s1
    split
    exacts [h.tpDrop, h]
  clear_value s1
  have habort : ∀ {s : State} {why}, s.linksFit → (abort s why).linksFit := fun h => h.when fun h => h.tpAnswer
  clear_value abort
  exact .ite (habort h1.fcInc) (.ite (habort h1.fcInc) (h1.fcInc.ite (h1.sendCts.putTp.ite h1.putTp)))

theorem State.linksFit.tpData {m x d} (h : s.linksFit) : (s.tpData m x d).linksFit :=
  h.tpDrop.ite ((h.cutTp.when fun h => h.tpAnswer).giveMsg.ite (h.sendCts.putTp.ite h.putTp))

theorem State.linksFit.tpFrame {m id d} (h : s.linksFit) : OptFit (s.tpFrame m id d) := by
  unfold State.tpFrame
  refine .ite (.ite (h.fcInc.icInc.when fun h => h.tpAnswer).present h.fcInc.present)
    (.ite (.map fun _ => h.fcInc.tpData) (.ite .absent ?_))
  split
  · exact h.fcInc.tpOpen.present
  · exact .ite h.fcInc.tpOpen.present (.ite h.fcInc.tpOpen.present .absent)
  · split
    exacts [h.fcInc.tpDrop.present, .absent]
  · split
    exacts [h.fcInc.putTp.present, .absent]

theorem State.linksFit.sendClaim {n v sa} (h : s.linksFit) : (s.sendClaim n v sa).linksFit := h.ownFrame

theorem State.linksFit.setVn {n v sa st} (h : s.linksFit) : (s.setVn n v sa st).linksFit := h.wr.wr

theorem State.linksFit.claimAt {n v sa} (h : s.linksFit) : (s.claimAt n v sa).linksFit := h.setCtl.setVn.sendClaim

theorem State.linksFit.loseAddr {n v} (h : s.linksFit) : (s.loseAddr n v).linksFit :=
  h.inc.raise.setCtl.claimAt.ite h.inc.raise.setCtl.setVn.ownFrame

theorem State.linksFit.startVn {n v} (h : s.linksFit) : (s.startVn n v).linksFit := h.ite (h.setVn.sendClaim.ite h.claimAt)

theorem State.linksFit.seeClaim {n sa name} (h : s.linksFit) : (s.seeClaim n sa name).linksFit :=
  h.setCtl.each fun h => h.ite ((h.setVn.ite h).ite (h.ite (h.loseAddr.ite h.sendClaim)))

theorem State.linksFit.claimRequest {n da} (h : s.linksFit) : (s.claimRequest n da).linksFit :=
  h.each fun h => h.sendClaim.ite h

theorem State.linksFit.canItem {m r} (h : s.linksFit) : (s.canItem m r).linksFit := by
  unfold State.canItem
  refine h.giveCand.ite (h.fastFrame.ite ?_)
  split
  case h_1 u hu => exact h.tpFrame u hu
  case h_2 => exact h.giveCand

/-! ### Ethernet -/

theorem State.linksFit.setEth {e x} (h : s.linksFit) : (s.setEth e x).linksFit := h.congr rfl

theorem State.linksFit.rawToHost {e stamp frame} (h : s.linksFit) : (s.rawToHost e stamp frame).linksFit := by
  unfold State.rawToHost
  split
  exacts [h.fcInc.rxComplete, h.inc.raise]

theorem State.linksFit.notForUs {e stamp frame} (h : s.linksFit) : (s.notForUs e stamp frame).linksFit :=
  h.rawToHost.ite h.inc

theorem State.linksFit.msVerify {e frame} (h : s.linksFit) : (s.msVerify e frame).2.linksFit := by
  refine .iteSnd (.iteSnd h (h.when fun h => h.inc)) ?_
  · split
    · exact .iteSnd h (h.when fun h => h.inc)
    · split
      · exact h
      · exact .iteSnd h (by split; exacts [h.setEth, .iteSnd h h])

theorem State.linksFit.igmpReport {e g} (h : s.linksFit) : (s.igmpReport e g).linksFit := h.fresh.ethSend.when fun h => h.inc

theorem State.linksFit.igmpQuery {e group} (h : s.linksFit) : (s.igmpQuery e group).linksFit := h.each fun h => h.igmpReport

theorem State.linksFit.datagram {m src dst udp} (h : s.linksFit) : (s.datagram m src dst udp).linksFit :=
  h.fcInc.fcInc.ite (h.fcInc.icInc.ite (h.fcInc.fcInc.ite (h.fcInc.icInc.ite h.fcInc.giveCand)))

theorem State.linksFit.ethIp {e first fin frame ip} (h : s.linksFit) : (s.ethIp e first fin frame ip).linksFit := by
  unfold State.ethIp
  exact h.fcInc.ite (h.datagram.ite (h.igmpQuery.ite h.notForUs))

theorem State.linksFit.tunFrame {m frame} (h : s.linksFit) : (s.tunFrame m frame).linksFit := by
  unfold State.tunFrame
  exact h.ite (h.fcInc.ite (h.datagram.ite h))

theorem State.linksFit.ethUpper {e first fin frame} (h : s.linksFit) : (s.ethUpper e first fin frame).linksFit :=
  h.notForUs.ite (h.inc.rawToHost.ite (h.notForUs.ite (h.inc.notForUs.ite h.ethIp)))

theorem State.linksFit.takePause {e frame} (h : s.linksFit) : (s.takePause e frame).linksFit := h.inc.setEth

theorem State.linksFit.ethRx {e ago fcsGood frame} (h : s.linksFit) : (s.ethRx e ago fcsGood frame).linksFit := by
  unfold State.ethRx
  refine h.ite ?_
  extract_lets s0 n s1 lim first fin
  have h1 : s1.linksFit := h.inc.when fun h => h.icAdd
  clear_value s1
  refine h1.inc.ite (h1.inc.ite (h1.inc.ite (h1.takePause.ite (.ite ?_ h1.ethUpper))))
  split
  case h_1 hv => exact (h1.msVerify.ofEq hv).ethUpper
  case h_2 hv => exact (h1.msVerify.ofEq hv).inc.when fun h => h.raise

theorem State.linksFit.execEthFrameRx {t port ago fcsGood frame} (h : s.linksFit) :
    AnswersFit (execEthFrameRx t port ago fcsGood frame s) :=
  h.happen fun h => h.ethRx

theorem State.linksFit.ethUp {e speed} (h : s.linksFit) : (s.ethUp e speed).linksFit := h.ite h.wr.wr.setEth.wrB.raise

theorem State.linksFit.execEthLinkUp {t port speed} (h : s.linksFit) : AnswersFit (execEthLinkUp t port speed s) :=
  h.happen fun h => h.ethUp

theorem State.linksFit.ethDown {e} (h : s.linksFit) : (s.ethDown e).linksFit := h.wr.wr.raise.ite h

theorem State.linksFit.execEthLinkDown {t port} (h : s.linksFit) : AnswersFit (execEthLinkDown t port s) :=
  h.happen fun h => h.ethDown

theorem State.linksFit.groupJoin {e w} (h : s.linksFit) : (s.groupJoin e w).linksFit :=
  h.blkGuard fun h => h.wr.when fun h => h.each fun h => h.igmpReport

theorem State.linksFit.execGroupJoin {t port groups} (h : s.linksFit) : AnswersFit (execGroupJoin t port groups s) :=
  h.happen fun h => h.groupJoin

/-! ### Commands of the host -/

theorem State.linksFit.hdrGuard {page} {f : State → State} (h : s.linksFit)
    (hf : ∀ {s : State}, s.linksFit → (f s).linksFit) : (s.hdrGuard page f).linksFit :=
  h.when fun h => hf h

theorem State.linksFit.execPgEvtClear {t page word} (h : s.linksFit) : AnswersFit (execPgEvtClear t page word s) :=
  h.happen fun h => h.hdrGuard fun h => h.wr.evtSum

theorem State.linksFit.execPgEvtEnWrite {t page word} (h : s.linksFit) : AnswersFit (execPgEvtEnWrite t page word s) :=
  h.happen fun h => h.hdrGuard fun h => h.wr.evtSum.each fun h => h.evtNotify

theorem State.linksFit.holdoffEnd {v} (h : s.linksFit) : (s.holdoffEnd v).linksFit :=
  ((h.congr (by rfl)).wr.ite (h.congr (by rfl)).msixSend).ite h

theorem State.linksFit.execMsixHoldoffEnd {t vec} (h : s.linksFit) : AnswersFit (execMsixHoldoffEnd t vec s) :=
  h.happen fun h => h.holdoffEnd

theorem State.linksFit.execMsixUnmask {t vec} (h : s.linksFit) : AnswersFit (execMsixUnmask t vec s) :=
  h.happen fun h => h.blkGuard fun h => h.wr.wr.msixReq.ite h.wr

theorem State.linksFit.pop (h : s.linksFit) : s.pop.linksFit := by
  unfold State.pop
  split
  exacts [h.fresh.emit, (h.congr (by rfl)).wr.wr.inc.emit]

theorem State.linksFit.execPopRead {t} (h : s.linksFit) : AnswersFit (execPopRead t s) := h.happen fun h => h.pop

theorem State.linksFit.execUnsupportedAccess {t addr} (h : s.linksFit) : AnswersFit (execUnsupportedAccess t addr s) :=
  h.happen fun h => h.wr.inc.emit.raise

theorem State.linksFit.execHoleAccess {t addr} (h : s.linksFit) : AnswersFit (execHoleAccess t addr s) :=
  h.happen fun h => h.wr.inc.raise

theorem State.linksFit.execPoisonedWrite {t} (h : s.linksFit) : AnswersFit (execPoisonedWrite t s) := h.happen fun h => h.inc

theorem State.linksFit.ringWrite {k w} (h : s.linksFit) : (s.ringWrite k w).linksFit :=
  h.refuse.ite (h.setWord.when fun h => h.wr).fetchRing

theorem State.linksFit.execRingEnable {t ring rx word} (h : s.linksFit) : AnswersFit (execRingEnable t ring rx word s) :=
  h.happen fun h => h.winGuard fun h => h.ringWrite

theorem State.linksFit.doorbell {k tail} (h : s.linksFit) : (s.doorbell k tail).linksFit :=
  h.refuse.ite (h.ite (h.congr (by rfl)).fetchRing)

theorem State.linksFit.execTxRingDoorbell {t ring tail} (h : s.linksFit) : AnswersFit (execTxRingDoorbell t ring tail s) :=
  h.happen fun h => h.winGuard fun h => h.doorbell

theorem State.linksFit.execRxRingDoorbell {t ring tail} (h : s.linksFit) : AnswersFit (execRxRingDoorbell t ring tail s) :=
  h.happen fun h => h.winGuard fun h => h.doorbell

theorem State.linksFit.submitRefused {d status} (h : s.linksFit) : (s.submitRefused d status).linksFit := h.wbWrite

theorem State.linksFit.txDescIn {d raw hdr} (h : s.linksFit) : (s.txDescIn d raw hdr).linksFit :=
  h.inc.putTxDesc.ite (h.inc.putTxDesc.icInc.submitRefused.ite (h.inc.putTxDesc.icInc.icInc.submitRefused.ite
    (h.inc.putTxDesc.icInc.submitRefused.ite h.inc.putTxDesc.icInc.icInc)))

theorem State.linksFit.rxDescIn {d raw} (h : s.linksFit) : (s.rxDescIn d raw).linksFit :=
  h.inc.inc.rxComplete.ite (h.congr (by rfl))

theorem State.linksFit.execDescriptorFetchDone {t rx ring idx raw hdr} (h : s.linksFit) :
    AnswersFit (execDescriptorFetchDone t rx ring idx raw hdr s) :=
  h.happen fun h => .ite (by split; exacts [h.ite h.rxDescIn, h]) (by split; exacts [h.txDescIn.ite h, h])

theorem State.linksFit.bufferIn {d data} (h : s.linksFit) : (s.bufferIn d data).linksFit :=
  h.putTxDesc.ite (h.congr (by rfl))

theorem State.linksFit.execBufferFetchDone {t ring idx data} (h : s.linksFit) :
    AnswersFit (execBufferFetchDone t ring idx data s) :=
  h.happen fun h => by split; exacts [h.bufferIn.ite h, h]

theorem State.linksFit.fetchFails {k idx} (h : s.linksFit) : (s.fetchFails k idx).linksFit := by
  refine .ite ?_ h.inc.wr.raise.hostWrite.descDone.msixReq
  · split
    exacts [(h.inc.wr.raise.hostWrite.when fun h => h.wr).descDone.ite h.inc.wr.raise.txComplete, h.inc.wr.raise]

theorem State.linksFit.execFetchError {t rx ring idx} (h : s.linksFit) : AnswersFit (execFetchError t rx ring idx s) :=
  h.happen fun h => (h.fetchFails.ite h).ite (h.fetchFails.ite h)

theorem State.linksFit.rawDone {d rstatus stamp} (h : s.linksFit) : (s.rawDone d rstatus stamp).linksFit := h.txComplete

theorem State.linksFit.rawSend {d cap} (h : s.linksFit) : (s.rawSend d cap).linksFit := by
  unfold State.rawSend
  refine h.rawDone.ite (h.rawDone.ite (h.rawDone.ite (h.ite ?_)))
  dsimp only
  split
  case h_1 hs => exact ((h.ethSend.ofEq hs).inc.when fun h => h.inc).rawDone
  case h_2 hs => exact (h.ethSend.ofEq hs).rawDone

theorem State.linksFit.execRawFrameSent {t ring idx ago} (h : s.linksFit) : AnswersFit (execRawFrameSent t ring idx ago s) :=
  h.happen fun h => by split; exacts [h.rawSend.ite h, h]

theorem State.linksFit.raStart {k} (h : s.linksFit) : (s.raStart k).linksFit :=
  (h.congr (by rfl)).raDone.ite ((h.congr (by rfl)).raDone.ite (h.congr (by rfl)).issue)

theorem State.linksFit.raGo {k w} (h : s.linksFit) : (s.raGo k w).linksFit := h.refuse.ite h.wr.wr.wr.wr.raStart

theorem State.linksFit.execRaGo {t slot word} (h : s.linksFit) : AnswersFit (execRaGo t slot word s) :=
  h.happen fun h => h.winGuard fun h => h.raGo

theorem State.linksFit.execRaAck {t slot} (h : s.linksFit) : AnswersFit (execRaAck t slot s) :=
  h.happen fun h => h.winGuard fun h => h.wr.wr.ite h

theorem State.linksFit.wipeRegs {lo hi} (h : s.linksFit) : (s.wipeRegs lo hi).linksFit := h.congr rfl

theorem State.linksFit.dropHostCands (h : s.linksFit) : s.dropHostCands.linksFit := h.congr rfl

theorem State.linksFit.orphanSlots (h : s.linksFit) : s.orphanSlots.linksFit := by
  unfold State.orphanSlots
  extract_lets isRa src s1 s2
  have h1 : s1.linksFit := h.congr rfl
  clear_value s1
  have h2 : s2.linksFit := h1.each fun h => h.wr
  clear_value s2
  exact State.linksFit.wr (s := { s2 with host := { s2.host with raAt := [] } }) (h2.congr (by rfl))

theorem State.linksFit.hostReset (h : s.linksFit) : s.hostReset.linksFit :=
  (h.congr (by rfl)).dropHostCands.orphanSlots.wipeRegs.wipeRegs.wr.wr.wr.wr.raise

theorem State.linksFit.execHostInterfaceReset {t} (h : s.linksFit) : AnswersFit (execHostInterfaceReset t s) :=
  h.happen fun h => h.hostReset

end Sys2Proof.Machine
end

section
/-! SUPPORT. The frame numbers keep within their 16 bits, for O5 (R196, R243): counters, tables, UART, CAN and flushes. -/

namespace Sys2Proof.Machine

variable {s u : State}

/-! ### Counters -/

theorem State.linksFit.snapCells {src delta} (h : s.linksFit) : (s.snapCells src delta).linksFit := h.congr rfl

theorem State.linksFit.clearCells {src} (h : s.linksFit) : (s.clearCells src).linksFit := h.congr rfl

theorem State.linksFit.snapClear {snap clear src delta} (h : s.linksFit) : (s.snapClear snap clear src delta).linksFit :=
  (h.when fun h => h.snapCells).when fun h => h.clearCells

theorem State.linksFit.pageAct {page off w} {f : State → State} (h : s.linksFit)
    (hf : ∀ {s : State}, s.linksFit → (f s).linksFit) : (s.pageAct page off w f).linksFit :=
  h.blkGuard fun h => (hf h).when fun h => h.logDelta

theorem State.linksFit.pageCtrs {page snap clear} (h : s.linksFit) : (s.pageCtrs page snap clear).linksFit := by
  unfold State.pageCtrs
  split
  exacts [h.pageAct fun h' => h'.snapClear, h]

theorem State.linksFit.execSnap {t page clear} (h : s.linksFit) : AnswersFit (execSnap t page clear s) :=
  h.happen fun h => h.pageCtrs

theorem State.linksFit.execClear {t page} (h : s.linksFit) : AnswersFit (execClear t page s) := h.happen fun h => h.pageCtrs

theorem State.linksFit.ingestCtrs {port all snap clear} (h : s.linksFit) : (s.ingestCtrs port all snap clear).linksFit :=
  h.blkGuard fun h => h.snapClear.logDelta

theorem State.linksFit.execPsnap {t port all clear} (h : s.linksFit) : AnswersFit (execPsnap t port all clear s) :=
  h.happen fun h => h.ingestCtrs

theorem State.linksFit.execPclear {t port all} (h : s.linksFit) : AnswersFit (execPclear t port all s) :=
  h.happen fun h => h.ingestCtrs

theorem State.linksFit.flowCtrs {rule i all snap clear} (h : s.linksFit) : (s.flowCtrs rule i all snap clear).linksFit :=
  (h.pageAct fun h => h.snapClear).ite (h.pageAct fun h => h.snapClear)

theorem State.linksFit.execFsnap {t rule index all clear} (h : s.linksFit) :
    AnswersFit (execFsnap t rule index all clear s) :=
  h.happen fun h => h.flowCtrs

theorem State.linksFit.execFclear {t rule index all} (h : s.linksFit) : AnswersFit (execFclear t rule index all s) :=
  h.happen fun h => h.flowCtrs

theorem State.linksFit.groupCtrs {g all snap clear} (h : s.linksFit) : (s.groupCtrs g all snap clear).linksFit :=
  h.pageAct fun h => h.snapClear

theorem State.linksFit.execGsnap {t group all clear} (h : s.linksFit) : AnswersFit (execGsnap t group all clear s) :=
  h.happen fun h => h.groupCtrs

theorem State.linksFit.execGclear {t group all} (h : s.linksFit) : AnswersFit (execGclear t group all s) :=
  h.happen fun h => h.groupCtrs

theorem State.linksFit.hwClear {q all} (h : s.linksFit) : (s.hwClear q all).linksFit := h.clearCells.each fun h => h.wr

theorem State.linksFit.queueCtrs {q all snap clear} (h : s.linksFit) : (s.queueCtrs q all snap clear).linksFit :=
  h.pageAct fun h => h.snapClear.when fun h => h.hwClear

theorem State.linksFit.execQsnap {t queue all clear} (h : s.linksFit) : AnswersFit (execQsnap t queue all clear s) :=
  h.happen fun h => h.queueCtrs

theorem State.linksFit.execQclear {t queue all} (h : s.linksFit) : AnswersFit (execQclear t queue all s) :=
  h.happen fun h => h.queueCtrs

theorem State.linksFit.dispCtrs {f all snap clear} (h : s.linksFit) : (s.dispCtrs f all snap clear).linksFit :=
  h.pageAct fun h => h.snapClear

theorem State.linksFit.execDispositionFsnap {t flow all clear} (h : s.linksFit) :
    AnswersFit (execDispositionFsnap t flow all clear s) :=
  h.happen fun h => h.dispCtrs

theorem State.linksFit.execDispositionFclear {t flow all} (h : s.linksFit) :
    AnswersFit (execDispositionFclear t flow all s) :=
  h.happen fun h => h.dispCtrs

theorem State.linksFit.fifoCtrs {p snap clear} (h : s.linksFit) : (s.fifoCtrs p snap clear).linksFit :=
  h.ite (h.winGuard fun h => h.snapClear)

theorem State.linksFit.execFifoFsnap {t port clear} (h : s.linksFit) : AnswersFit (execFifoFsnap t port clear s) :=
  h.happen fun h => h.fifoCtrs

theorem State.linksFit.execFifoFclear {t port} (h : s.linksFit) : AnswersFit (execFifoFclear t port s) :=
  h.happen fun h => h.fifoCtrs

/-! ### Tables -/

theorem State.linksFit.setPend {tb i b} (h : s.linksFit) : (s.setPend tb i b).linksFit := by
  unfold State.setPend
  split
  exacts [h.wrB, (h.congr (by rfl)).ite (h.congr (by rfl))]

theorem State.linksFit.copyEntry {tb i} (h : s.linksFit) : (s.copyEntry tb i).linksFit := h.each fun h => h.wr.ite h

theorem State.linksFit.relive {old g} (h : s.linksFit) : (s.relive old g).linksFit := h.wr.wr

theorem State.linksFit.mirrorOrphans (h : s.linksFit) : s.mirrorOrphans.linksFit :=
  (h.each fun h => h.wr).each fun h => h.wrB

theorem State.linksFit.logCommits {l} (h : s.linksFit) : (s.logCommits l).linksFit := by
  induction l generalizing s with
  | nil => exact h
  | cons e l ih => exact ih h.log

theorem State.linksFit.commitOne {old e} (h : s.linksFit) : (s.commitOne old e).linksFit :=
  .when (by split; exacts [h.setPend.wr.wr, h.setPend]) fun h => h.clearFlowState

theorem State.linksFit.commitEffect {old set} (h : s.linksFit) : (s.commitEffect old set).linksFit := by
  unfold State.commitEffect
  exact (((((h.each fun h => h.commitOne).logCommits.each fun h => h.abortRound).each fun h => h.relive).when fun h =>
    h.mirrorOrphans).each fun h => h.startSwitch).congr (by with_reducible rfl)

theorem State.linksFit.noteOffence {o} (h : s.linksFit) : (s.noteOffence o).linksFit := by
  unfold State.noteOffence
  split
  exacts [h.wr.wr.wrB.wr, h.wr.wr, h.wr.wr, h.wr.wr, h.wr.wr]

theorem State.linksFit.commitSet {page set} (h : s.linksFit) : (s.commitSet page set).2.linksFit := by
  unfold State.commitSet
  dsimp only
  split
  exacts [h.inc.noteOffence.refuse.when fun h' => h'.markError, (h.each fun h => h.copyEntry).inc.commitEffect]

theorem State.linksFit.commitSingle {tb i} (h : s.linksFit) : (s.commitSingle tb i).linksFit :=
  h.commitSet.when fun h => h.raise

theorem State.linksFit.commitWrite {tb i} (h : s.linksFit) : (s.commitWrite tb i).linksFit :=
  h.blkGuard fun h => (h.congr (by rfl)).ite h.commitSingle

theorem State.linksFit.execFlCommit {t index} (h : s.linksFit) : AnswersFit (execFlCommit t index s) :=
  h.happen fun h => h.commitWrite

theorem State.linksFit.execRlCommit {t index} (h : s.linksFit) : AnswersFit (execRlCommit t index s) :=
  h.happen fun h => h.commitWrite

theorem State.linksFit.execGcCommit {t index} (h : s.linksFit) : AnswersFit (execGcCommit t index s) :=
  h.happen fun h => h.commitWrite

theorem State.linksFit.execSbCommit {t index} (h : s.linksFit) : AnswersFit (execSbCommit t index s) :=
  h.happen fun h => h.commitWrite

theorem State.linksFit.execMgCommit {t index} (h : s.linksFit) : AnswersFit (execMgCommit t index s) :=
  h.happen fun h => h.commitWrite

theorem State.linksFit.ctrlGuard {page carried} {f : State → State} (h : s.linksFit)
    (hf : ∀ {s : State}, s.linksFit → (f s).linksFit) : (s.ctrlGuard page carried f).linksFit :=
  h.refuse.ite (h.refuse.ite (hf h))

theorem State.linksFit.shadowSwap {page tbs} (h : s.linksFit) : (s.shadowSwap page tbs).linksFit :=
  h.ctrlGuard fun h => h.ite (h.commitSet.when fun h => h.wr)

theorem State.linksFit.execFlowShadowSwap {t} (h : s.linksFit) : AnswersFit (execFlowShadowSwap t s) :=
  h.happen fun h => h.shadowSwap

theorem State.linksFit.execRuleShadowSwap {t} (h : s.linksFit) : AnswersFit (execRuleShadowSwap t s) :=
  h.happen fun h => h.shadowSwap

theorem State.linksFit.execConcShadowSwap {t} (h : s.linksFit) : AnswersFit (execConcShadowSwap t s) :=
  h.happen fun h => h.shadowSwap

theorem State.linksFit.execBellShadowSwap {t} (h : s.linksFit) : AnswersFit (execBellShadowSwap t s) :=
  h.happen fun h => h.shadowSwap

theorem State.linksFit.execRingShadowSwap {t} (h : s.linksFit) : AnswersFit (execRingShadowSwap t s) :=
  h.happen fun h => h.shadowSwap

theorem State.linksFit.shadowPut {tb i off w} (h : s.linksFit) : (s.shadowPut tb i off w).linksFit :=
  h.setWord.setPend.logDelta

theorem State.linksFit.shadowWrite {a w} (h : s.linksFit) : (s.shadowWrite a w).linksFit := by
  unfold State.shadowWrite
  split
  exacts [(h.congr (by rfl)).setPend.ite h.shadowPut, h]

theorem State.linksFit.applySwapHeld {e} (h : s.linksFit) : (s.applySwapHeld e).linksFit := by
  unfold State.applySwapHeld
  split
  · exact h.commitSingle
  · split
    exacts [h.shadowPut, h]

theorem State.linksFit.swapDone {page} (h : s.linksFit) : (s.swapDone page).linksFit :=
  (h.wr.raise.ite ((h.wr.raise.congr (by with_reducible rfl)).each fun h => h.applySwapHeld)).ite h

theorem State.linksFit.execTableSwapDone {t page} (h : s.linksFit) : AnswersFit (execTableSwapDone t page s) :=
  h.happen fun h => h.swapDone

theorem State.linksFit.quarCtrl {port enter both i} (h : s.linksFit) : (s.quarCtrl port enter both i).linksFit :=
  h.blkGuard fun h => h.refuse.ite ((h.quarStart.when fun h => h.quarEntry).ite h.quarEnd)

theorem State.linksFit.execQuarRelease {t port both index} (h : s.linksFit) :
    AnswersFit (execQuarRelease t port both index s) :=
  h.happen fun h => h.quarCtrl

theorem State.linksFit.execQuarEnter {t port both index} (h : s.linksFit) : AnswersFit (execQuarEnter t port both index s) :=
  h.happen fun h => h.quarCtrl

/-! ### UART -/

theorem State.linksFit.execUartStartEdge {t port} (h : s.linksFit) : AnswersFit (execUartStartEdge t port s) :=
  h.happen fun h => h.wr.uartEdge

theorem State.linksFit.execUartCharacter {t port data badParity badStop allLow} (h : s.linksFit) :
    AnswersFit (execUartCharacter t port data badParity badStop allLow s) :=
  h.happen fun h => h.wrB.uartChar

theorem State.linksFit.execIctoTimeout {t port} (h : s.linksFit) : AnswersFit (execIctoTimeout t port s) :=
  h.happen fun h => h.uartIcto

theorem State.linksFit.execSilenceTimeout {t port} (h : s.linksFit) : AnswersFit (execSilenceTimeout t port s) :=
  h.happen fun h => h.uartSilence

theorem State.linksFit.execLineGoesHigh {t port} (h : s.linksFit) : AnswersFit (execLineGoesHigh t port s) :=
  h.happen fun h => h.wr.uartHigh

theorem State.linksFit.ingestWrite {p w} (h : s.linksFit) : (s.ingestWrite p w).linksFit :=
  h.ite ((h.ingestCommit.logHeld.logDelta.when fun h => h.mirrorPort).ite h.ingestCommit)

theorem State.linksFit.execIngestPortCommit {t port word} (h : s.linksFit) :
    AnswersFit (execIngestPortCommit t port word s) :=
  h.happen fun h => h.winGuard fun h => h.ingestWrite

theorem State.linksFit.mirrorDE {p} (h : s.linksFit) : (s.mirrorDE p).linksFit := h.wrB

theorem State.linksFit.mirrorDEs (h : s.linksFit) : s.mirrorDEs.linksFit := h.each fun h => h.mirrorDE

theorem State.linksFit.sendBreak {p bits} (h : s.linksFit) : (s.sendBreak p bits).linksFit :=
  h.blkGuard fun h => h.refuse.ite (h.ite h.setLis.uartDrive)

theorem State.linksFit.execSendBreak {t port bits} (h : s.linksFit) : AnswersFit (execSendBreak t port bits s) :=
  h.happen fun h => h.sendBreak

theorem State.linksFit.breakEnd {p} (h : s.linksFit) : (s.breakEnd p).linksFit :=
  h.ite ((h.when fun h => h.emit).setLis.inc.when fun h => h.wr).raise

theorem State.linksFit.execBreakEnd {t port} (h : s.linksFit) : AnswersFit (execBreakEnd t port s) :=
  h.happen fun h => h.breakEnd

theorem State.linksFit.deHoldEnd {p} (h : s.linksFit) : (s.deHoldEnd p).linksFit := h.wr.ite h

theorem State.linksFit.execDeHoldEnd {t port} (h : s.linksFit) : AnswersFit (execDeHoldEnd t port s) :=
  h.happen fun h => h.deHoldEnd

/-! ### CAN -/

theorem State.linksFit.mirrorMon (h : s.linksFit) : s.mirrorMon.linksFit := h.each fun h => h.when fun h => h.wr

theorem State.linksFit.mirrorRole (h : s.linksFit) : s.mirrorRole.linksFit := h.mirrorDEs.mirrorMon.tongsRole

theorem State.linksFit.startVns (h : s.linksFit) : s.startVns.linksFit := h.each fun h => h.each fun h => h.startVn

theorem State.linksFit.canApply {n} (h : s.linksFit) : (s.canApply n).linksFit := h.wrB.setCtl.ite h.wrB.setCtl.wr

theorem State.linksFit.confine {n} (h : s.linksFit) : (s.confine n).linksFit :=
  (h.wr.wr.wr.when fun h => h.raise).when fun h => h.inc.raise

theorem State.linksFit.addTec {n k} (h : s.linksFit) : (s.addTec n k).linksFit := h.setCtl.confine

theorem State.linksFit.okTec {n} (h : s.linksFit) : (s.okTec n).linksFit := h.setCtl.confine

theorem State.linksFit.addRec {n} (h : s.linksFit) : (s.addRec n).linksFit := h.setCtl.confine

theorem State.linksFit.okRec {n} (h : s.linksFit) : (s.okRec n).linksFit := h.setCtl.confine

theorem State.linksFit.busOn {n} (h : s.linksFit) : (s.busOn n).linksFit := h.setCtl.wr.wr.wr.ite h

theorem State.linksFit.loadHead {n} (h : s.linksFit) : (s.loadHead n).linksFit := by
  unfold State.loadHead
  dsimp only
  split
  exacts [h.setCtl.ite (h.setCtl.ite (h.setCtl.ite (h.setCtl.ite h.setCtl))), h]

theorem State.linksFit.attemptStart {n} (h : s.linksFit) : (s.attemptStart n).linksFit := by
  unfold State.attemptStart
  refine h.ite ?_
  dsimp only
  split
  exacts [h.loadHead, h.loadHead.setCtl.incSat.ite (h.loadHead.setCtl.setCtl.ite h.loadHead.setCtl)]

theorem State.linksFit.execAttemptStart {t controller} (h : s.linksFit) : AnswersFit (execAttemptStart t controller s) :=
  h.happen fun h => h.attemptStart

theorem State.linksFit.qDone {n e result cres} (h : s.linksFit) : (s.qDone n e result cres).linksFit := h.wr.wr.wr.raise

theorem State.linksFit.headDone {n sent} (h : s.linksFit) : (s.headDone n sent).linksFit := by
  unfold State.headDone
  dsimp only
  split
  · exact h
  · split
    exacts [h.setCtl.txPop.wireStamp, h.setCtl.txPop.wireLost]

theorem State.linksFit.tpTxAbort {n} (h : s.linksFit) : (s.tpTxAbort n).linksFit := h.inc.headDone

theorem State.linksFit.headSent {n} (h : s.linksFit) : (s.headSent n).linksFit := by
  unfold State.headSent
  dsimp only
  split
  exacts [h.setCtl.headDone.ite h.setCtl, h]

theorem State.linksFit.canAnswers {n id d} (h : s.linksFit) : OptFit (s.canAnswers n id d) := by
  unfold State.canAnswers
  extract_lets c s1 a nx
  have h1 : s1.linksFit := h.fcInc
  clear_value s1
  split
  · refine .ite .absent ?_
    dsimp only
    split
    exacts [.ite h1.setCtl.present h1.setCtl.present, h1.headDone.present, h1.tpTxAbort.present, .absent]
  · exact .absent

theorem State.linksFit.canGood {n sof r own} (h : s.linksFit) : (s.canGood n sof r own).linksFit := by
  unfold State.canGood
  extract_lets b id p s1 s2 d s3 s4 m
  have h3 : s3.linksFit := (h.inc.inc.raise.ite h.inc).when fun h => h.icAdd
  have h4 : s4.linksFit := .ite (h3.seeClaim.ite (h3.claimRequest.ite h3)) h3
  have hanswer : OptFit (if recExt r && !recRtr r && !own && idPgn id == pgnCM then s4.canAnswers n id d else none) :=
    .ite h4.canAnswers .absent
  split
  case h_1 u hu => exact hanswer u hu
  case h_2 => exact h4.canItem

theorem State.linksFit.attEnd {n} (h : s.linksFit) : (s.attEnd n).linksFit := h.setCtl.when fun h => h.canApply

theorem State.linksFit.canTxDone {n} (h : s.linksFit) : (s.canTxDone n).linksFit := by
  unfold State.canTxDone
  split
  · exact h
  · extract_lets b loop_ s1 s2 src s3 s4 s5 src' s6 s7
    have h4 : s4.linksFit := (h.inc.when fun h => h.emit).setCtl.okTec
    clear_value s4
    have h6 : s6.linksFit := (h4.ite h4.wr.wr.qDone).ite (h4.headSent.ite (h4.setCtl.ite h4))
    clear_value s6
    exact (h6.canGood.ite h6).attEnd

theorem State.linksFit.execCanFrameTxDone {t controller} (h : s.linksFit) : AnswersFit (execCanFrameTxDone t controller s) :=
  h.happen fun h => h.canTxDone

theorem State.linksFit.clashTrack {n cause frame} (h : s.linksFit) : (s.clashTrack n cause frame).linksFit :=
  h.setCtl.ite (h.inc.wr.raise.ite h.setCtl)

theorem State.linksFit.canLost {n cause} (h : s.linksFit) : (s.canLost n cause).linksFit := by
  unfold State.canLost
  split
  · exact h
  · extract_lets s1 s2 passiveAck s3 s4
    have h3 : s3.linksFit := h.inc.clashTrack.when fun h => h.addTec
    clear_value s3
    have h4 : s4.linksFit := (h3.qDone.ite (h3.qDone.ite h3)).ite h3
    exact h4.attEnd

theorem State.linksFit.execCanAttemptLost {t controller cause} (h : s.linksFit) :
    AnswersFit (execCanAttemptLost t controller cause s) :=
  h.happen fun h => h.canLost

theorem State.linksFit.canRx {n ago cause r} (h : s.linksFit) : (s.canRx n ago cause r).linksFit := by
  unfold State.canRx
  extract_lets b fdOff drives bad
  have hbad : ∀ {f}, (bad s f).linksFit := h.inc.when fun h => h.addRec
  clear_value bad
  refine h.ite ?_
  split
  · exact hbad
  · exact hbad
  · exact hbad
  · exact hbad
  · exact hbad
  · exact (h.setCtl.inc.raise.ite hbad).ite (h.when fun h => h.okRec).canGood

theorem State.linksFit.execCanFrameRx {t controller ago cause record} (h : s.linksFit) :
    AnswersFit (execCanFrameRx t controller ago cause record s) :=
  h.happen fun h => h.canRx

theorem State.linksFit.qSubmit {n e w} (h : s.linksFit) : (s.qSubmit n e w).linksFit :=
  h.blkGuard fun h => h.refuse.ite h.setWord.wr.wr.wr.wr

theorem State.linksFit.execCanSubmit {t controller entry word} (h : s.linksFit) :
    AnswersFit (execCanSubmit t controller entry word s) :=
  h.happen fun h => h.qSubmit

theorem State.linksFit.qCancel {n e} (h : s.linksFit) : (s.qCancel n e).linksFit :=
  h.blkGuard fun h => h.ite (by split; exacts [h.setCtl.ite h.qDone, h.qDone])

theorem State.linksFit.execCanCancel {t controller entry} (h : s.linksFit) :
    AnswersFit (execCanCancel t controller entry s) :=
  h.happen fun h => h.qCancel

theorem State.linksFit.qAck {n e} (h : s.linksFit) : (s.qAck n e).linksFit := h.blkGuard fun h => h.wr.ite h

theorem State.linksFit.execCanAck {t controller entry} (h : s.linksFit) : AnswersFit (execCanAck t controller entry s) :=
  h.happen fun h => h.qAck

theorem State.linksFit.canRecover {n} (h : s.linksFit) : (s.canRecover n).linksFit := h.blkGuard fun h => h.busOn

theorem State.linksFit.canCommit {n w} (h : s.linksFit) : (s.canCommit n w).linksFit :=
  h.blkGuard fun h => ((h.applyHeld.setWord.setCtl.ite h.applyHeld.setWord.canApply).when fun h => h.busOn).ite
    h.dropHeld.refuse

theorem State.linksFit.execCanConfigCommit {t controller word} (h : s.linksFit) :
    AnswersFit (execCanConfigCommit t controller word s) :=
  h.happen fun h => h.canCommit

theorem State.linksFit.canIntegrate {n} (h : s.linksFit) : (s.canIntegrate n).linksFit := h.ite h.setCtl.wrB

theorem State.linksFit.execCanIntegration {t controller} (h : s.linksFit) : AnswersFit (execCanIntegration t controller s) :=
  h.happen fun h => h.canIntegrate

theorem State.linksFit.execCanRecover {t controller} (h : s.linksFit) : AnswersFit (execCanRecover t controller s) :=
  h.happen fun h => h.canRecover

theorem State.linksFit.execBusOffRecovery {t controller} (h : s.linksFit) : AnswersFit (execBusOffRecovery t controller s) :=
  h.happen fun h => h.busOn.ite h

theorem State.linksFit.stopVn {n v} (h : s.linksFit) : (s.stopVn n v).linksFit := (h.congr (by rfl)).setVn

theorem State.linksFit.vnWrite {n v w} (h : s.linksFit) : (s.vnWrite n v w).linksFit :=
  h.blkGuard fun h => h.refuse.ite (h.setWord.startVn.ite (h.setWord.stopVn.ite h.setWord))

theorem State.linksFit.execVnEnable {t controller node word} (h : s.linksFit) :
    AnswersFit (execVnEnable t controller node word s) :=
  h.happen fun h => h.vnWrite

theorem State.linksFit.claimWon {n v} (h : s.linksFit) : (s.claimWon n v).linksFit := by
  unfold State.claimWon
  dsimp only
  split
  exacts [h.setCtl.setVn.ite h, h]

theorem State.linksFit.execAddrClaimTimeout {t controller node} (h : s.linksFit) :
    AnswersFit (execAddrClaimTimeout t controller node s) :=
  h.happen fun h => h.claimWon

theorem State.linksFit.fpExpire (h : s.linksFit) : s.fpExpire.linksFit := h.each fun h => h.dropFp.fcInc

theorem State.linksFit.execFpTimeout {t} (h : s.linksFit) : AnswersFit (execFpTimeout t s) := h.happen fun h => h.fpExpire

theorem State.linksFit.tpExpire (h : s.linksFit) : s.tpExpire.linksFit :=
  (h.each fun h => h.tpDrop).each fun h => by split; exacts [h.ownFrame.tpTxAbort.ite h, h]

theorem State.linksFit.execTpTimeout {t} (h : s.linksFit) : AnswersFit (execTpTimeout t s) := h.happen fun h => h.tpExpire

theorem State.linksFit.bamNext {n} (h : s.linksFit) : (s.bamNext n).linksFit := by
  unfold State.bamNext
  dsimp only
  split
  exacts [h.setCtl.ite h, h]

theorem State.linksFit.execBamGap {t controller} (h : s.linksFit) : AnswersFit (execBamGap t controller s) :=
  h.happen fun h => h.bamNext

theorem State.linksFit.canSleep {n} (h : s.linksFit) : (s.canSleep n).linksFit := h.setCtl.wr.ite h

theorem State.linksFit.execCanSleepEntry {t controller} (h : s.linksFit) : AnswersFit (execCanSleepEntry t controller s) :=
  h.happen fun h => h.canSleep

theorem State.linksFit.canWake {n low ago r} (h : s.linksFit) : (s.canWake n low ago r).linksFit :=
  h.ite (h.inc.raise.wr.canApply.canItem.ite h.inc.raise.wr.canApply)

theorem State.linksFit.execCanWake {t controller low ago record} (h : s.linksFit) :
    AnswersFit (execCanWake t controller low ago record s) :=
  h.happen fun h => h.canWake

theorem State.linksFit.frameSnap {ports} (h : s.linksFit) : (s.frameSnap ports).linksFit := h.each fun h => h.snapBlock

theorem State.linksFit.frameClear {ports} (h : s.linksFit) : (s.frameClear ports).linksFit := h.each fun h => h.clearBlock

theorem State.linksFit.execFrameFsnap {t port all clear} (h : s.linksFit) : AnswersFit (execFrameFsnap t port all clear s) :=
  h.happen fun h => h.blkGuard fun h => h.frameSnap.when fun h => h.frameClear

theorem State.linksFit.execFrameFclear {t port all} (h : s.linksFit) : AnswersFit (execFrameFclear t port all s) :=
  h.happen fun h => h.blkGuard fun h => h.frameClear

/-! ### Flushes -/

theorem State.linksFit.txEmpty {p n stamp} (h : s.linksFit) : (s.txEmpty p n stamp).linksFit := by
  unfold State.txEmpty
  dsimp only
  split
  · exact h.setTx.add
  · exact .each (by split; exacts [h.setTx.add.wireStamp, h.setTx.add.wireLost]) fun h => h.wireLost

theorem State.linksFit.uartTxFlush {p sent stamp} (h : s.linksFit) : (s.uartTxFlush p sent stamp).linksFit := by
  unfold State.uartTxFlush
  dsimp only
  split
  exacts [h, (h.add.when fun h => h.emit).txEmpty.lineFree.setLis.when fun h => h.wr]

theorem State.linksFit.canTxFlush {n} (h : s.linksFit) : (s.canTxFlush n).linksFit := h.setCtl.txEmpty

theorem State.linksFit.ethTxFlush {e} (h : s.linksFit) : (s.ethTxFlush e).linksFit := h.txEmpty.each fun h => h.rawDone

theorem State.linksFit.txFlushPort {p sent stamp} (h : s.linksFit) : (s.txFlushPort p sent stamp).linksFit :=
  h.uartTxFlush.ite (h.canTxFlush.ite (h.ethTxFlush.ite (h.tongTxFlush.add.ite h)))

theorem State.linksFit.rxFlushPort {p} (h : s.linksFit) : (s.rxFlushPort p).linksFit :=
  h.ite (h.rxFlush.setEng.ite h.rxFlush)

theorem State.linksFit.execRxFlush {t port} (h : s.linksFit) : AnswersFit (execRxFlush t port s) :=
  h.happen fun h => h.winGuard fun h => h.rxFlushPort

theorem State.linksFit.execTxFlush {t port sent stamp} (h : s.linksFit) : AnswersFit (execTxFlush t port sent stamp s) :=
  h.happen fun h => h.winGuard fun h => h.txFlushPort

end Sys2Proof.Machine
end

section
/-! SUPPORT. The frame numbers keep within their 16 bits, for O5 (R196, R243): the hops, the twin, links, the cellar and
  self tests. -/

namespace Sys2Proof.Machine

variable {s u : State}

/-! ### Hops of the ring -/

theorem State.linksFit.mirrorRingHealth {r} (h : s.linksFit) : (s.mirrorRingHealth r).linksFit := h.setHealth

theorem State.linksFit.mirrorWrap {r} (h : s.linksFit) : (s.mirrorWrap r).linksFit :=
  h.wrB.mirrorRingHealth.raise.ite (h.wrB.mirrorRingHealth.raise.ite h.wrB.mirrorRingHealth)

theorem State.linksFit.sendSig {type data} (h : s.linksFit) : (s.sendSig type data).linksFit :=
  h.sigPayload.each fun h => h.sendPort

theorem State.linksFit.trainFrom {p slow} (h : s.linksFit) : (s.trainFrom p slow).linksFit :=
  (h.keepHop (by rfl) (by rfl)).wrB.wr.ite (h.keepHop (by rfl) (by rfl))

theorem State.linksFit.startTrain {p} (h : s.linksFit) : (s.startTrain p).linksFit := h.trainFrom.ite (h.wr.ite h)

theorem State.linksFit.rateFall {p} (h : s.linksFit) : (s.rateFall p).linksFit := h.inc.raise.trainFrom

theorem State.linksFit.refuseHop {p ls cause} (h : s.linksFit) : (s.refuseHop p ls cause).linksFit := h.wr.wr.raise

theorem State.linksFit.linkUp {p id rtt} (h : s.linksFit) : (s.linkUp p id rtt).linksFit := by
  unfold State.linkUp
  exact (((h.setHop (Nat.zero_lt_succ _) (Nat.zero_lt_succ _)).wr.wr.wr.each fun h => h.wr).wr.wr.mirrorHop.raise.when
    fun h =>
    h.raise).mirrorWrap.sendSig.pump

theorem State.linksFit.portLost {p} (h : s.linksFit) : (s.portLost p).linksFit := by
  refine ((h.keepHop (by rfl) (by rfl)).mirrorHop.mirrorWrap.each fun h => ?_).each fun h => h.sendPort
  · split
    exacts [(h.when fun h => h.inc).sendPort, h]

theorem State.linksFit.linkDown {p cause} (h : s.linksFit) : (s.linkDown p cause).linksFit :=
  h.wr.inc.raise.portLost.sendSig.ite h

theorem State.linksFit.relink {p cause} (h : s.linksFit) : (s.relink p cause).linksFit := h.linkDown.wr.startTrain

theorem State.linksFit.sendAck {p ft} (h : s.linksFit) : (s.sendAck p ft).linksFit := h.sendFrame

theorem State.linksFit.sendNak {p} (h : s.linksFit) : (s.sendNak p).linksFit :=
  h.ite (h.keepHop (by rfl) (by rfl)).sendAck.hopInc

theorem State.linksFit.takeFrame {p ft vc lseq fate body} (h : s.linksFit) :
    (s.takeFrame p ft vc lseq fate body).linksFit := by
  have hnext : ((s.hop p).rxSeq + 1) % 65536 < 65536 := Nat.mod_lt _ (by decide)
  exact h.ite (h.inc.ite ((h.inc.when fun h => h.sendNak).ite ((h.inc.inc.when fun h => h.sendNak).ite
    ((h.inc.keepHop (by rfl) (by rfl)).ite (h.inc.ite ((h.inc.setHop (by exact (h p).1) (by exact hnext)).sendAck.ite
      (h.inc.sendNak.ite h.inc.inc.sendAck)))))))

theorem State.linksFit.takeAck {p k} (h : s.linksFit) : (s.takeAck p k).linksFit := by
  unfold State.takeAck
  dsimp only
  split
  exacts [h, (h.keepHop (by rfl) (by rfl)).mirrorHop.pump.ite (h.keepHop (by rfl) (by rfl)).lanesPump]

theorem State.linksFit.resendAll {p} (h : s.linksFit) : (s.resendAll p).linksFit :=
  h.each fun h => h.sendFrame.inc.ite h.sendLanes

theorem State.linksFit.takeCredits {p c} (h : s.linksFit) : (s.takeCredits p c).linksFit :=
  ((h.keepHop (by rfl) (by rfl)).each fun h => h.wr).pump

theorem State.linksFit.sendCredits {p} (h : s.linksFit) : (s.sendCredits p).linksFit :=
  (h.keepHop (by rfl) (by rfl)).sendFrame

theorem State.linksFit.hopResult {p r} (h : s.linksFit) : (s.hopResult p r).linksFit := (h.keepHop (by rfl) (by rfl)).wr

theorem State.linksFit.execBlockLock {t port} (h : s.linksFit) : AnswersFit (execBlockLock t port s) :=
  h.happen fun h => (h.keepHop (by rfl) (by rfl)).sendFrame.ite h

theorem State.linksFit.execBlockLockTimeout {t port} (h : s.linksFit) : AnswersFit (execBlockLockTimeout t port s) :=
  h.happen fun h => h.trainFrom.ite h

theorem State.linksFit.execTrainSend {t port bad} (h : s.linksFit) : AnswersFit (execTrainSend t port bad s) :=
  h.happen fun h => h.ite (h.rateFall.ite h.sendFrame)

theorem State.linksFit.trainRing {p mx mn minor cred} (h : s.linksFit) : (s.trainRing p mx mn minor cred).linksFit := by
  unfold State.trainRing
  split
  exacts [(h.keepHop (by rfl) (by rfl)).refuseHop, h.trainFrom.ite ((h.keepHop (by rfl) (by rfl)).wr.wr.ite
    ((h.keepHop (by rfl) (by rfl)).wr.wr.refuseHop.ite ((h.keepHop (by rfl) (by rfl)).wr.wr.keepHop (by rfl) (by rfl))))]

theorem State.linksFit.execHelloSend {t port} (h : s.linksFit) : AnswersFit (execHelloSend t port s) :=
  h.happen fun h => h.ite h.sendFrame

theorem State.linksFit.helloRing {p id hub ring side rtt} (h : s.linksFit) : (s.helloRing p id hub ring side rtt).linksFit :=
  (h.ite h.linkUp).ite (h.ite (h.refuseHop.when fun h => h.portLost))

theorem State.linksFit.execAdminDown {t port on} (h : s.linksFit) : AnswersFit (execAdminDown t port on s) :=
  h.happen fun h => h.blkGuard fun h => h.wrB.linkDown.wr.ite (h.wrB.startTrain.ite h.wrB)

theorem State.linksFit.execRetrain {t port} (h : s.linksFit) : AnswersFit (execRetrain t port s) :=
  h.happen fun h => h.blkGuard fun h => h.relink

theorem State.linksFit.execDataFrame {t port ft vc lseq fate body} (h : s.linksFit) :
    AnswersFit (execDataFrame t port ft vc lseq fate body s) :=
  h.happen fun h => h.takeFrame

theorem State.linksFit.execAckFrame {t port lseq} (h : s.linksFit) : AnswersFit (execAckFrame t port lseq s) :=
  h.happen fun h => h.hopInc.takeAck.ite h

theorem State.linksFit.execNakFrame {t port lseq} (h : s.linksFit) : AnswersFit (execNakFrame t port lseq s) :=
  h.happen fun h => h.hopInc.hopInc.takeAck.resendAll.ite h

theorem State.linksFit.execCreditFrame {t port cpl req item} (h : s.linksFit) :
    AnswersFit (execCreditFrame t port cpl req item s) :=
  h.happen fun h => h.hopInc.takeCredits.ite h

theorem State.linksFit.execCreditSend {t port} (h : s.linksFit) : AnswersFit (execCreditSend t port s) :=
  h.happen fun h => h.sendCredits.ite h

theorem State.linksFit.execProbeSend {t port} (h : s.linksFit) : AnswersFit (execProbeSend t port s) :=
  h.happen fun h => (h.keepHop (by rfl) (by rfl)).sendFrame.ite h

theorem State.linksFit.execProbeFrame {t port number reply t1 t2 t3} (h : s.linksFit) :
    AnswersFit (execProbeFrame t port number reply t1 t2 t3 s) :=
  h.happen fun h => h.ite (h.inc.sendFrame.ite (h.inc.hopResult.ite h.inc))

/-! ### The twin -/

theorem State.linksFit.seeToken {e} (h : s.linksFit) : (s.seeToken e).linksFit := h.ite ((h.wr.ite h).raise.ite (h.wr.ite h))

theorem State.linksFit.sendHubBeat {active} (h : s.linksFit) : (s.sendHubBeat active).linksFit := by
  unfold State.sendHubBeat
  extract_lets n src s1 ps k ks
  have hps : ps.2.linksFit := State.linksFit.sigPayload (s := s1) (h.congr (by rfl))
  clear_value ps
  have hks : ks.2.linksFit := .iteSnd hps.raTag hps
  exact hks.each fun h => h.sendPort.ite h

theorem State.linksFit.execHubBeatSend {t} (h : s.linksFit) : AnswersFit (execHubBeatSend t s) :=
  h.happen fun h => h.sendHubBeat.ite h

theorem State.linksFit.mirrorK (h : s.linksFit) : s.mirrorK.linksFit := h.wr

theorem State.linksFit.leaveStep (h : s.linksFit) : s.leaveStep.linksFit :=
  h.ite ((h.congr (by rfl)).raise.ite (h.congr (by rfl)).inc.raise)

theorem State.linksFit.sealHub {cause} (h : s.linksFit) : (s.sealHub cause).linksFit :=
  ((h.congr (by rfl)).raise.when fun h => h.jTrigger).mirrorRole

theorem State.linksFit.dualSeal (h : s.linksFit) : s.dualSeal.linksFit := (h.inc.raise.when fun h => h.jTrigger).sealHub

theorem State.linksFit.adoptLeaf {tko n} (h : s.linksFit) : (s.adoptLeaf tko n).linksFit := h.readLeaf.when fun h => h.wr

theorem State.linksFit.dropMatched (h : s.linksFit) : s.dropMatched.linksFit := by
  unfold State.dropMatched
  exact (h.each fun h => h.each fun h => h.dropCand).congr (by with_reducible rfl)

theorem State.linksFit.becomeActive {cause hold replay} (h : s.linksFit) : (s.becomeActive cause hold replay).linksFit := by
  unfold State.becomeActive
  extract_lets tko s1 s2 s3 s4 s5 s6 s7 s8 src s9 src' s10 s11 s12 s13
  have h6 : s6.linksFit := ((h.when fun h => h.wr).when fun h => h.wr).wr.wr.inc.wr.raise.when fun h => h.jTrigger
  clear_value s6
  have h8 : s8.linksFit := h6.wr.wr.sendHubBeat.wr
  clear_value s8
  have h9 : s9.linksFit := State.linksFit.sendSyncs (s := { s8 with time := { src with twinOfs := 0 } }) (h8.congr (by rfl))
  clear_value s9
  have h10 : s10.linksFit := h9.congr rfl
  clear_value s10
  have h12 : s12.linksFit := h10.wrB.when fun h => h.congr (by rfl)
  clear_value s12
  exact ((h12.dropMatched.each fun h => h.adoptLeaf).mirrorRole.when fun h => h.startVns).fetchItems

theorem State.linksFit.rejoinHub (h : s.linksFit) : s.rejoinHub.linksFit := h.wr

theorem State.linksFit.relinquishHub (h : s.linksFit) : s.relinquishHub.linksFit :=
  (h.inc.raise.congr (by with_reducible rfl)).fresh.sendLanes.sendHubBeat.sealHub

theorem State.linksFit.allLost (h : s.linksFit) : s.allLost.linksFit := by
  unfold State.allLost
  extract_lets s1 s2 src
  have h2 : s2.linksFit := h.leaveStep.wr.mirrorK
  clear_value s2
  exact (h2.ite h2.sealHub).ite (((h2.congr (by rfl)).ite h2.sealHub).ite h2)

theorem State.linksFit.losePath {p} (h : s.linksFit) : (s.losePath p).linksFit :=
  h.ite (h.wr.inc.raise.allLost.ite h.wr.inc.raise)

theorem State.linksFit.ngatoDown (h : s.linksFit) : s.ngatoDown.linksFit := h.leaveStep.losePath

theorem State.linksFit.twinBeat {p role epoch} (h : s.linksFit) : (s.twinBeat p role epoch).linksFit := by
  unfold State.twinBeat
  extract_lets s1 src s2 s3 s4
  have h2 : s2.linksFit := h.congr rfl
  have h4 : s4.linksFit := (h2.when fun h => h.wr).wr.seeToken
  exact h4.dualSeal.ite (h4.rejoinHub.ite h4)

theorem State.linksFit.strapClash (h : s.linksFit) : s.strapClash.linksFit := h.raise.when fun h => h.congr (by rfl)

theorem State.linksFit.checkDrained {sent} (h : s.linksFit) : (s.checkDrained sent).linksFit :=
  (h.log.log.congr (by with_reducible rfl)).wr.inc.raise.ite h

theorem State.linksFit.resyncStart (h : s.linksFit) : s.resyncStart.linksFit := (h.congr (by rfl)).lanesSend

theorem State.linksFit.drain (h : s.linksFit) : s.drain.linksFit :=
  (h.each fun h => by split; exacts [h.log.putItem, h]).checkDrained

theorem State.linksFit.hubBeat {ring node role epoch} (h : s.linksFit) : (s.hubBeat ring node role epoch).linksFit :=
  h.strapClash.ite ((h.twinBeat.congr (by with_reducible rfl)).ite h.twinBeat)

theorem State.linksFit.sendBeat (h : s.linksFit) : s.sendBeat.linksFit := (h.congr (by rfl)).sendLanes

theorem State.linksFit.execBeatSend {t} (h : s.linksFit) : AnswersFit (execBeatSend t s) :=
  h.happen fun h => h.sendBeat.ite h

theorem State.linksFit.mirrorLag (h : s.linksFit) : s.mirrorLag.linksFit := h.wr

theorem State.linksFit.takeLack {n} (h : s.linksFit) : (s.takeLack n).linksFit :=
  h.mirrorLag.ite (h.congr (by rfl)).wr.mirrorLag

theorem State.linksFit.beatIn {role ts join epoch health lpos} (h : s.linksFit) :
    (s.beatIn role ts join epoch health lpos).linksFit := by
  unfold State.beatIn
  extract_lets was s1 s2 s3 s4 src src' s5 s6
  have h2 : s2.linksFit := (h.when fun h => h.wr.raise).twinBeat
  clear_value s2
  have h3 : s3.linksFit := h2.takeLack.ite h2
  clear_value s3
  have h4 : s4.linksFit := h3.resyncStart.ite h3
  clear_value s4
  have hsrc : src.linksFit := h4.wr
  clear_value src
  have h5 : s5.linksFit := .ite (hsrc.congr (by rfl)) (h4.leaveStep.ite h4)
  clear_value s5
  have h6 : s6.linksFit := h5.checkDrained
  clear_value s6
  exact .ite (h6.congr (by rfl)) h6

theorem State.linksFit.execBeatRx {t role tstate join epoch health lpos} (h : s.linksFit) :
    AnswersFit (execBeatRx t role tstate join epoch health lpos s) :=
  h.happen fun h => h.ite h.beatIn

theorem State.linksFit.execPathTimeout {t path} (h : s.linksFit) : AnswersFit (execPathTimeout t path s) :=
  h.happen fun h => h.losePath.ite h

theorem State.linksFit.execRoleDecision {t} (h : s.linksFit) : AnswersFit (execRoleDecision t s) :=
  h.happen fun h => h.mirrorK.ite ((h.mirrorK.becomeActive.ite h.mirrorK).ite (h.mirrorK.wr.ite (h.mirrorK.becomeActive.ite
    h.mirrorK)))

theorem State.linksFit.execQuorumCheck {t} (h : s.linksFit) : AnswersFit (execQuorumCheck t s) :=
  h.happen fun h => h.mirrorK.ite ((h.mirrorK.ite h.mirrorK.sealHub).ite (h.mirrorK.allLost.ite h.mirrorK))

theorem State.linksFit.execLackFrame {t lpos} (h : s.linksFit) : AnswersFit (execLackFrame t lpos s) :=
  h.happen fun h => h.takeLack.ite h

theorem State.linksFit.execLogTimeout {t} (h : s.linksFit) : AnswersFit (execLogTimeout t s) :=
  h.happen fun h => by split; exacts [h.inc.leaveStep.ite h, h]

theorem State.linksFit.execFetchFrame {t leaf iseq lpos} (h : s.linksFit) : AnswersFit (execFetchFrame t leaf iseq lpos s) :=
  h.happen fun h => by split; exacts [h.lanesSend.ite h, h]

theorem State.linksFit.execDrainTimeout {t} (h : s.linksFit) : AnswersFit (execDrainTimeout t s) :=
  h.happen fun h => h.drain.ite h

theorem State.linksFit.execLocalHoldExpiry {t port} (h : s.linksFit) : AnswersFit (execLocalHoldExpiry t port s) :=
  h.happen fun h => by
    dsimp only
    split
    exacts [h.dropCand.inc.ite h, h]

theorem State.linksFit.execTimeXferSend {t} (h : s.linksFit) : AnswersFit (execTimeXferSend t s) :=
  h.happen fun h => (h.congr (by rfl)).sendLanes

theorem State.linksFit.timeXfer {reply t1 t2 t3 dom} (h : s.linksFit) : (s.timeXfer reply t1 t2 t3 dom).linksFit :=
  h.sendLanes.ite (h.ite ((h.wr.select.moveH.inc.ite h.wr.select.moveH.wr.raise).ite (h.wr.select.congr
    (by with_reducible rfl))))

theorem State.linksFit.execTimeXfer {t reply t1 t2 t3 dom} (h : s.linksFit) :
    AnswersFit (execTimeXfer t reply t1 t2 t3 dom s) :=
  h.happen fun h => h.timeXfer

theorem State.linksFit.healthFault {bit on} (h : s.linksFit) : (s.healthFault bit on).linksFit :=
  ((h.ite h.setHealth).relinquishHub.ite (h.ite h.setHealth).raise).ite (h.ite h.setHealth)

theorem State.linksFit.execHealthFault {t bit on} (h : s.linksFit) : AnswersFit (execHealthFault t bit on s) :=
  h.happen fun h => h.healthFault

theorem State.linksFit.execRelinquish {t lpos} (h : s.linksFit) : AnswersFit (execRelinquish t lpos s) :=
  h.happen fun h => (h.congr (by rfl)).ite h

theorem State.linksFit.execTakeover {t} (h : s.linksFit) : AnswersFit (execTakeover t s) :=
  h.happen fun h => by split; exacts [h.leaveStep.becomeActive.ite h, h]

theorem State.linksFit.execBusHoldEnd {t} (h : s.linksFit) : AnswersFit (execBusHoldEnd t s) :=
  h.happen fun h => h.wr.mirrorRole.startVns.ite h

theorem State.linksFit.twinWrite {others} {f : State → State} (h : s.linksFit)
    (hf : ∀ {s : State}, s.linksFit → (f s).linksFit) : (s.twinWrite others f).linksFit :=
  h.blkGuard fun h => h.refuse.ite (hf h)

theorem State.linksFit.execSeal {t others} (h : s.linksFit) : AnswersFit (execSeal t others s) :=
  h.happen fun h => h.twinWrite fun h => (h.relinquishHub.ite h.raise).ite (h.ite h.sealHub)

theorem State.linksFit.execRejoin {t others} (h : s.linksFit) : AnswersFit (execRejoin t others s) :=
  h.happen fun h => h.twinWrite fun h => h.rejoinHub.ite h.refuse

theorem State.linksFit.execForceActive {t others} (h : s.linksFit) : AnswersFit (execForceActive t others s) :=
  h.happen fun h => h.twinWrite fun h => h.refuse.ite (h.ite h.becomeActive)

theorem State.linksFit.execHandover {t others} (h : s.linksFit) : AnswersFit (execHandover t others s) :=
  h.happen fun h => h.twinWrite fun h => (h.congr (by rfl)).ite h.refuse

theorem State.linksFit.execHandoverDrained {t} (h : s.linksFit) : AnswersFit (execHandoverDrained t s) :=
  h.happen fun h => (h.log.congr (by with_reducible rfl)).wr.wr.mirrorRole.ite h

/-! ### Links -/

theorem State.linksFit.laneComes {l} (h : s.linksFit) : (s.laneComes l).linksFit :=
  ((h.setHop (Nat.zero_lt_succ _) (Nat.zero_lt_succ _)).ite h).wr

theorem State.linksFit.laneGoes {l} (h : s.linksFit) : (s.laneGoes l).linksFit :=
  (((h.wr.inc.raise.keepHop (by rfl) (by rfl)).keepHop (by rfl) (by rfl)).ngatoDown.ite
    (h.wr.inc.raise.keepHop (by rfl) (by rfl))).ite h

theorem State.linksFit.relane {l} (h : s.linksFit) : (s.relane l).linksFit := h.laneGoes.startTrain

theorem State.linksFit.trainLane {p maj minor build} (h : s.linksFit) : (s.trainLane p maj minor build).linksFit :=
  ((h.wr.wr.wr.keepHop (by rfl) (by rfl)).when fun h => h.wr).inc.raise.ite (h.wr.wr.wr.keepHop (by rfl) (by rfl))

theorem State.linksFit.signalOn {p} (h : s.linksFit) : (s.signalOn p).linksFit :=
  ((h.keepHop (by rfl) (by rfl)).startTrain.ite (h.keepHop (by rfl) (by rfl))).ite (((h.keepHop (by rfl) (by rfl)).ite
    (h.keepHop (by rfl) (by rfl)).startTrain).ite h.setEth)

theorem State.linksFit.execSignalDetect {t lane} (h : s.linksFit) : AnswersFit (execSignalDetect t lane s) :=
  h.happen fun h => h.signalOn

theorem State.linksFit.trainIn {p crcGood mx mn minor build cred} (h : s.linksFit) :
    (s.trainIn p crcGood mx mn minor build cred).linksFit := by
  unfold State.trainIn
  refine h.ite (.ite ?_ (h.hopInc.trainRing.ite h.hopInc.trainLane))
  have h1 := State.linksFit.setHop (p := p) (x := { s.hop p with trains := 0 })
    (h.hopInc (p := p) (c := RINGP_C_LCRC_ERR)) (h p).1 (h p).2
  exact h1.rateFall.ite h1

theorem State.linksFit.execTrainFrame {t port crcGood major low minor build credits} (h : s.linksFit) :
    AnswersFit (execTrainFrame t port crcGood major low minor build credits s) :=
  h.happen fun h => h.trainIn

theorem State.linksFit.helloIn {p id hub ring side rtt} (h : s.linksFit) : (s.helloIn p id hub ring side rtt).linksFit :=
  (h.ite (h.hopInc.when fun h => h.strapClash).helloRing).ite (h.ite (h.strapClash.ite h.laneComes))

theorem State.linksFit.execHelloFrame {t port node hub ring side rtt} (h : s.linksFit) :
    AnswersFit (execHelloFrame t port node hub ring side rtt s) :=
  h.happen fun h => h.helloIn

theorem State.linksFit.lockLost {p signal} (h : s.linksFit) : (s.lockLost p signal).linksFit :=
  ((h.keepHop (by rfl) (by rfl)).ite (h.keepHop (by rfl) (by rfl)).relink).ite ((h.keepHop (by rfl) (by rfl)).relane.ite
    h.setEth.ethDown)

theorem State.linksFit.execLossOfLock {t lane signal} (h : s.linksFit) : AnswersFit (execLossOfLock t lane signal s) :=
  h.happen fun h => h.lockLost

theorem State.linksFit.replayLate {p} (h : s.linksFit) : (s.replayLate p).linksFit := by
  unfold State.replayLate
  extract_lets q x s1 s2
  have hx := h q
  have h1 : s1.linksFit := h.hopInc
  clear_value s1
  have h2 : s2.linksFit := h1.setHop hx.1 hx.2
  clear_value s2
  refine h.ite (.ite (h2.relink.ite h2.relane.relane) ?_)
  refine State.linksFit.resendAll ?_
  exact h1.setHop hx.1 hx.2

theorem State.linksFit.execReplayTimeout {t port} (h : s.linksFit) : AnswersFit (execReplayTimeout t port s) :=
  h.happen fun h => h.replayLate

/-! ### Commands of the cellar -/

theorem State.linksFit.mirrorCellar (h : s.linksFit) : s.mirrorCellar.linksFit := h.setHealth

theorem State.linksFit.chLost {c cause} (h : s.linksFit) : (s.chLost c cause).linksFit := h.wr.wr.raise.mirrorCellar

theorem State.linksFit.startChannels (h : s.linksFit) : s.startChannels.linksFit := h.each fun h => h.wr

theorem State.linksFit.chTrained {c trained tested} (h : s.linksFit) : (s.chTrained c trained tested).linksFit :=
  h.ite (h.chLost.ite (h.chLost.ite (h.congr (by rfl))))

theorem State.linksFit.execCellarChannelTrained {t channel trained tested} (h : s.linksFit) :
    AnswersFit (execCellarChannelTrained t channel trained tested s) :=
  h.happen fun h => h.chTrained

theorem State.linksFit.layCellar (h : s.linksFit) : s.layCellar.linksFit :=
  (h.congr (by rfl)).wr.wr.wrB.when fun h => h.raise

theorem State.linksFit.celInit (h : s.linksFit) : s.celInit.linksFit := h.congr rfl

theorem State.linksFit.execCellarInitDone {t} (h : s.linksFit) : AnswersFit (execCellarInitDone t s) :=
  h.happen fun h => h.celInit

theorem State.linksFit.execChannelOos {t channel} (h : s.linksFit) : AnswersFit (execChannelOos t channel s) :=
  h.happen fun h => h.blkGuard fun h => h.chLost.ite h

theorem State.linksFit.execUeLimitExceeded {t channel} (h : s.linksFit) : AnswersFit (execUeLimitExceeded t channel s) :=
  h.happen fun h => h.chLost.ite h

theorem State.linksFit.retire {a} (h : s.linksFit) : (s.retire a).linksFit := h.ite (h.congr (by rfl)).wr.inc.raise

theorem State.linksFit.scrub {a ce ceAddr ue ueAddr last} (h : s.linksFit) : (s.scrub a ce ceAddr ue ueAddr last).linksFit :=
  (((h.when fun h => h.add.wr.raise).when fun h => h.ueWords).when fun h => h.retire).when fun h => h.inc

theorem State.linksFit.execCellarScrub {t addr ce ceAddr ue ueAddr last} (h : s.linksFit) :
    AnswersFit (execCellarScrub t addr ce ceAddr ue ueAddr last s) :=
  h.happen fun h => h.scrub

theorem State.linksFit.bar2 {off data} (h : s.linksFit) : (s.bar2 off data).linksFit := h.celWrite.ite h.inc.raise

theorem State.linksFit.execBar2Write {t offset data} (h : s.linksFit) : AnswersFit (execBar2Write t offset data s) :=
  h.happen fun h => h.bar2

theorem State.linksFit.jWritten {h} (hs : s.linksFit) : (s.jWritten h).linksFit := by
  unfold State.jWritten
  split
  exacts [hs.putItem.settle, hs]

theorem State.linksFit.execJournalWriteDone {t handle} (h : s.linksFit) : AnswersFit (execJournalWriteDone t handle s) :=
  h.happen fun h => h.jWritten

theorem State.linksFit.execJournalBlockClose {t} (h : s.linksFit) : AnswersFit (execJournalBlockClose t s) :=
  h.happen fun h => h.jClose.ite h

theorem State.linksFit.execJournalFreeze {t} (h : s.linksFit) : AnswersFit (execJournalFreeze t s) :=
  h.happen fun h => h.blkGuard fun h => h.jTrigger

theorem State.linksFit.jFreezeEnd {w} (h : s.linksFit) : (s.jFreezeEnd w).linksFit := h.wr.wr.raise.jTrim.ite h

theorem State.linksFit.execFreezePostEnd {t window} (h : s.linksFit) : AnswersFit (execFreezePostEnd t window s) :=
  h.happen fun h => h.jFreezeEnd

theorem State.linksFit.execUnfreeze {t window} (h : s.linksFit) : AnswersFit (execUnfreeze t window s) :=
  h.happen fun h => h.blkGuard fun h => h.wr.ite h.refuse

/-! ### Self tests -/

theorem State.linksFit.setTs {k f v} (h : s.linksFit) : (s.setTs k f v).linksFit := h.wr

theorem State.linksFit.larderLost (h : s.linksFit) : s.larderLost.linksFit :=
  ((h.each fun h => h.setQueue).congr (by with_reducible rfl)).setCells

theorem State.linksFit.poolLost (h : s.linksFit) : s.poolLost.linksFit := h.congr rfl

theorem State.linksFit.tsStart {k} (h : s.linksFit) : (s.tsStart k).linksFit := by
  unfold State.tsStart
  dsimp only
  split
  exacts [(h.congr (by rfl)).larderLost, (h.congr (by rfl)).poolLost, h.congr (by rfl)]

theorem State.linksFit.tsEnd {k result} (h : s.linksFit) : (s.tsEnd k result).linksFit :=
  (h.congr (by rfl)).setTs.raise.when fun h => h.raise.setHealth

theorem State.linksFit.tsCounts {k n errs} (h : s.linksFit) : (s.tsCounts k n errs).linksFit := by
  unfold State.tsCounts
  split
  exacts [h.setTs.setTs.ite h, h]

theorem State.linksFit.tsGo {k w} (h : s.linksFit) : (s.tsGo k w).linksFit :=
  h.blkGuard fun h => h.refuse.ite (h.refuse.ite (h.setWord.tsStart.ite h.setWord.setTs))

theorem State.linksFit.execTestGo {t slot word} (h : s.linksFit) : AnswersFit (execTestGo t slot word s) :=
  h.happen fun h => h.tsGo

theorem State.linksFit.execTestStart {t slot} (h : s.linksFit) : AnswersFit (execTestStart t slot s) :=
  h.happen fun h => h.tsStart.ite h

theorem State.linksFit.tsCancel {k checked errs} (h : s.linksFit) : (s.tsCancel k checked errs).linksFit :=
  h.blkGuard fun h => by split; exacts [h.tsEnd, h.tsCounts.tsEnd, h]

theorem State.linksFit.execTestCancel {t slot checked errs} (h : s.linksFit) :
    AnswersFit (execTestCancel t slot checked errs s) :=
  h.happen fun h => h.tsCancel

theorem State.linksFit.execTestAbort {t slot checked errs} (h : s.linksFit) :
    AnswersFit (execTestAbort t slot checked errs s) :=
  h.happen fun h => h.tsCounts.tsEnd.ite h

theorem State.linksFit.tsExpire {k checked errs} (h : s.linksFit) : (s.tsExpire k checked errs).linksFit := by
  unfold State.tsExpire
  split
  exacts [h, h.ite (h.tsCounts.fresh.tsEnd.ite h.tsCounts.tsEnd)]

theorem State.linksFit.execTestDurationEnd {t slot checked errs} (h : s.linksFit) :
    AnswersFit (execTestDurationEnd t slot checked errs s) :=
  h.happen fun h => h.tsExpire

theorem State.linksFit.execTestAck {t slot} (h : s.linksFit) : AnswersFit (execTestAck t slot s) :=
  h.happen fun h => h.blkGuard fun h => h.setTs.ite h

theorem State.linksFit.execTfClr {t} (h : s.linksFit) : AnswersFit (execTfClr t s) :=
  h.happen fun h => h.blkGuard fun h => h.setHealth

theorem State.linksFit.tsLock {k} (h : s.linksFit) : (s.tsLock k).linksFit := by
  unfold State.tsLock
  split
  exacts [(h.congr (by rfl)).ite h, h]

theorem State.linksFit.execCheckerLock {t slot} (h : s.linksFit) : AnswersFit (execCheckerLock t slot s) :=
  h.happen fun h => h.tsLock

theorem State.linksFit.tsLockLost {k checked errs} (h : s.linksFit) : (s.tsLockLost k checked errs).linksFit := by
  unfold State.tsLockLost
  split
  exacts [h.tsCounts.tsEnd, h]

theorem State.linksFit.execCheckerLockLost {t slot checked errs} (h : s.linksFit) :
    AnswersFit (execCheckerLockLost t slot checked errs s) :=
  h.happen fun h => h.tsLockLost

theorem State.linksFit.execLarderScrubPass {t errs} (h : s.linksFit) : AnswersFit (execLarderScrubPass t errs s) :=
  h.happen fun h => h.inc.add

end Sys2Proof.Machine
end

section
/-! SUPPORT. The frame numbers keep within their 16 bits, for O5 (R196, R243): the STRONGBOX, pages, resets, topology
  and the ring received. -/

namespace Sys2Proof.Machine

variable {s u : State}

/-! ### The STRONGBOX -/

theorem State.linksFit.winPut {base l} (h : s.linksFit) : (s.winPut base l).linksFit := h.each fun h => h.wr

theorem State.linksFit.mirrorSlots (h : s.linksFit) : s.mirrorSlots.linksFit := h.wrB.wrB.winPut

theorem State.linksFit.dropKey {k} (h : s.linksFit) : (s.dropKey k).linksFit := h.congr rfl

theorem State.linksFit.putKey {k alg eng parent level origin key} (h : s.linksFit) :
    (s.putKey k alg eng parent level origin key).linksFit :=
  (h.congr (by rfl)).mirrorSlots

theorem State.linksFit.slotLeave {k state cause} (h : s.linksFit) : (s.slotLeave k state cause).linksFit :=
  ((h.wr.wr.dropKey.each fun h => h.wr.wr.dropKey).when fun h => h.raise).mirrorSlots

theorem State.linksFit.slotRevoke {k cause} (h : s.linksFit) : (s.slotRevoke k cause).linksFit := h.slotLeave.ite h

theorem State.linksFit.slotCheck {k} (h : s.linksFit) : (s.slotCheck k).linksFit := h.inc.raise.slotLeave.ite h

theorem State.linksFit.newRoot (h : s.linksFit) : s.newRoot.linksFit := (h.congr (by rfl)).putKey

theorem State.linksFit.setLatch {v} (h : s.linksFit) : (s.setLatch v).linksFit := h.wr.setHealth

theorem State.linksFit.sbService (h : s.linksFit) : s.sbService.linksFit := h.wr

theorem State.linksFit.sbResume (h : s.linksFit) : s.sbResume.linksFit := h.ite (h.sbService.when fun h => h.wr)

theorem State.linksFit.updApply {kupd c} (h : s.linksFit) : (s.updApply kupd c).1.linksFit := by
  refine .iteFst h ?_
  · split
    · exact (h.when fun h => h.slotLeave).newRoot
    · exact .iteFst h (by split; exacts [h.putKey, h])
    · exact h.slotRevoke
    · exact h.winPut
    · exact h.setLatch
    · exact .iteFst h h.wr
    · exact h.sbResume
    · exact .iteFst h h.slotLeave

theorem State.linksFit.updAll {kupd l} (h : s.linksFit) : (s.updAll kupd l).1.linksFit := by
  induction l generalizing s with
  | nil => exact h
  | cons c l ih => exact .iteFst (ih h.updApply) h.updApply

theorem State.linksFit.updMessage (h : s.linksFit) : (s.updMessage).1.linksFit :=
  .iteFst h (by split; exacts [h, .iteFst h (.iteFst h (.iteFst h (.iteFst h (.iteFst h.updAll.wr h))))])

theorem State.linksFit.zeroBufs (h : s.linksFit) : s.zeroBufs.linksFit := h.winPut.winPut.winPut

theorem State.linksFit.sbEnd {status} (h : s.linksFit) : (s.sbEnd status).linksFit :=
  (((h.congr (by rfl)).wr.when fun h => h.inc).when fun h => h.inc).zeroBufs.raise

theorem State.linksFit.sbGuard {f : State → State} (h : s.linksFit)
    (hf : ∀ {s : State}, s.linksFit → (f s).linksFit) : (s.sbGuard f).linksFit :=
  (h.refuse.ite (hf h)).ite (h.blkGuard fun h => hf h)

theorem State.linksFit.sbGo {cmd adv} (h : s.linksFit) : (s.sbGo cmd adv).linksFit :=
  h.sbGuard fun h => h.refuse.ite (h.refuse.ite (h.inc.sbEnd.ite (h.congr (by rfl)).wr))

theorem State.linksFit.endLoad {o} (h : s.linksFit) : (s.endLoad o).linksFit := h.sbEnd.ite (h.sbEnd.ite h.putKey.sbEnd)

theorem State.linksFit.withKey {k} {f : State → State} (h : s.linksFit)
    (hf : ∀ {s : State}, s.linksFit → (f s).linksFit) : (s.withKey k f).linksFit :=
  h.slotCheck.sbEnd.ite (hf h.slotCheck)

theorem State.linksFit.endDerive {o} (h : s.linksFit) : (s.endDerive o).linksFit :=
  h.sbEnd.ite (h.sbEnd.ite (h.sbEnd.ite (h.withKey fun h => h.putKey.sbEnd)))

theorem State.linksFit.endAttest {o} (h : s.linksFit) : (s.endAttest o).linksFit :=
  h.sbEnd.ite (h.withKey fun h => h.winPut.inc.sbEnd)

theorem State.linksFit.endVerify {o} (h : s.linksFit) : (s.endVerify o).linksFit :=
  h.wr.sbEnd.ite (h.wr.sbEnd.ite (h.withKey fun h => (h.when fun h => h.wr).wr.sbEnd))

theorem State.linksFit.endUpdate (h : s.linksFit) : s.endUpdate.linksFit := h.updMessage.inc.sbEnd.ite h.inc.raise.sbEnd

theorem State.linksFit.sbDone (h : s.linksFit) : s.sbDone.linksFit := by
  unfold State.sbDone
  split
  · exact h
  · refine h.ite ?_
    · split
      · exact h.endLoad
      · exact h.endDerive
      · exact h.slotRevoke.sbEnd
      · exact h.sbEnd.ite h.slotLeave.sbEnd
      · exact h.sbEnd.ite (h.sbEnd.ite h.newRoot.sbEnd)
      · exact h.endUpdate
      · exact h.endAttest
      · exact h.endVerify

theorem State.linksFit.execLoadClear {t} (h : s.linksFit) : AnswersFit (execLoadClear t s) := h.happen fun h => h.sbGo

theorem State.linksFit.execDerive {t} (h : s.linksFit) : AnswersFit (execDerive t s) := h.happen fun h => h.sbGo

theorem State.linksFit.execRevoke {t} (h : s.linksFit) : AnswersFit (execRevoke t s) := h.happen fun h => h.sbGo

theorem State.linksFit.execErase {t} (h : s.linksFit) : AnswersFit (execErase t s) := h.happen fun h => h.sbGo

theorem State.linksFit.execNewRoot {t} (h : s.linksFit) : AnswersFit (execNewRoot t s) := h.happen fun h => h.sbGo

theorem State.linksFit.execApplyUpdate {t} (h : s.linksFit) : AnswersFit (execApplyUpdate t s) := h.happen fun h => h.sbGo

theorem State.linksFit.execAttest {t} (h : s.linksFit) : AnswersFit (execAttest t s) := h.happen fun h => h.sbGo

theorem State.linksFit.execVerifyImage {t advance} (h : s.linksFit) : AnswersFit (execVerifyImage t advance s) :=
  h.happen fun h => h.sbGo

theorem State.linksFit.execCommandDone {t} (h : s.linksFit) : AnswersFit (execCommandDone t s) := h.happen fun h => h.sbDone

theorem State.linksFit.alarmActs (h : s.linksFit) : s.alarmActs.linksFit :=
  (h.slotRevoke.sbEnd.ite h.slotRevoke.zeroBufs).inc.raise.when fun h => h.jTrigger

theorem State.linksFit.tamper {src} (h : s.linksFit) : (s.tamper src).linksFit :=
  h.setLatch.ite ((h.congr (by rfl)).ite (h.setLatch.inc.ite h.setLatch.inc.alarmActs))

theorem State.linksFit.execTampArm {t mask} (h : s.linksFit) : AnswersFit (execTampArm t mask s) :=
  h.happen fun h => h.sbGuard fun h => h.wr

theorem State.linksFit.execTampClr {t} (h : s.linksFit) : AnswersFit (execTampClr t s) :=
  h.happen fun h => h.sbGuard fun h => h.setLatch.ite h

theorem State.linksFit.execClearLock {t} (h : s.linksFit) : AnswersFit (execClearLock t s) :=
  h.happen fun h => h.sbGuard fun h => h.wr

theorem State.linksFit.sbBoot (h : s.linksFit) : s.sbBoot.linksFit := by
  unfold State.sbBoot
  extract_lets s1 s2 src s3
  have h2 : s2.linksFit := h.add.each fun h => h.slotCheck
  clear_value s2
  have h3 : s3.linksFit := .ite (.alarmActs (.inc (h2.congr (by rfl)))) h2
  exact h3.wr.ite h3.sbService

theorem State.linksFit.chainStart (h : s.linksFit) : s.chainStart.linksFit := h.congr rfl

/-! ### Pages -/

theorem State.linksFit.clearError {page} (h : s.linksFit) : (s.clearError page).linksFit :=
  .wr (by split; exacts [h.wr.wr.wr, h.wr.wr])

theorem State.linksFit.execPgStatErrorClear {t page} (h : s.linksFit) : AnswersFit (execPgStatErrorClear t page s) :=
  h.happen fun h => h.hdrGuard fun h => h.clearError

theorem State.linksFit.lockPage {page key} (h : s.linksFit) : (s.lockPage page key).linksFit := h.refuse.ite h.wr.wr

theorem State.linksFit.execPageLock {t page key} (h : s.linksFit) : AnswersFit (execPageLock t page key s) :=
  h.happen fun h => h.hdrGuard fun h => h.lockPage

theorem State.linksFit.unlockPage {page key} (h : s.linksFit) : (s.unlockPage page key).linksFit :=
  h.ite (h.wr.wr.ite h.refuse)

theorem State.linksFit.execPageUnlock {t page key} (h : s.linksFit) : AnswersFit (execPageUnlock t page key s) :=
  h.happen fun h => h.hdrGuard fun h => h.unlockPage

theorem State.linksFit.ctrlAct {page w} {f : State → State} (h : s.linksFit)
    (hf : ∀ {s : State}, s.linksFit → (f s).linksFit) : (s.ctrlAct page w f).linksFit :=
  h.ctrlGuard fun h => (hf h).when fun h => h.logDelta

theorem State.linksFit.enableWrite {page on} (h : s.linksFit) : (s.enableWrite page on).linksFit :=
  h.ite (h.ctrlAct fun h => (h.tongEnable.ite h.tongDisable).ite (h.wrB.when fun h => h.mirrorAnvils))

theorem State.linksFit.execEnableWrite {t page on} (h : s.linksFit) : AnswersFit (execEnableWrite t page on s) :=
  h.happen fun h => h.hdrGuard fun h => h.enableWrite

theorem State.linksFit.freezeWrite {page on} (h : s.linksFit) : (s.freezeWrite page on).linksFit :=
  h.ite (h.ctrlAct fun h => h.wrB.tongFreeze.ite h.wrB.tongResume)

theorem State.linksFit.execBlockFreeze {t page on} (h : s.linksFit) : AnswersFit (execBlockFreeze t page on s) :=
  h.happen fun h => h.freezeWrite

theorem State.linksFit.testModeWrite {page on} (h : s.linksFit) : (s.testModeWrite page on).linksFit :=
  h.ite (h.ctrlAct fun h => by
    dsimp only
    split
    exacts [h.wrB.sbService, h.wrB.sbService, h.wrB])

theorem State.linksFit.execTestMode {t page on} (h : s.linksFit) : AnswersFit (execTestMode t page on s) :=
  h.happen fun h => h.testModeWrite

theorem State.linksFit.clearHeader {page} (h : s.linksFit) : (s.clearHeader page).linksFit := h.clearError.wr.wr.wr.evtSum

theorem State.linksFit.srstPort {p sent stamp} (h : s.linksFit) : (s.srstPort p sent stamp).linksFit := by
  unfold State.srstPort
  exact h.txFlushPort.setRx.congr (by with_reducible rfl)

theorem State.linksFit.canSrst {n} (h : s.linksFit) : (s.canSrst n).linksFit := h.setCtl.each fun h => h.qDone

theorem State.linksFit.anvilSrst {a} (h : s.linksFit) : (s.anvilSrst a).linksFit := by
  unfold State.anvilSrst
  split
  exacts [h.setRx.freeAnvil.inc.raise, h]

theorem State.linksFit.srstBlock {page sent stamp} (h : s.linksFit) : (s.srstBlock page sent stamp).linksFit :=
  h.clearHeader.inc.hostReset.wr.ite ((h.clearHeader.inc.each fun h => h.tsEnd).wr.ite
    (h.clearHeader.inc.linkDown.wr.startTrain.ite (h.clearHeader.inc.ethDown.srstPort.setEth.wr.ite
    (h.clearHeader.inc.srstPort.canSrst.wr.ite (h.clearHeader.inc.srstPort.wr.ite
    (h.clearHeader.inc.srstPort.tongReset.wr.ite (h.clearHeader.inc.anvilSrst.wr.mirrorAnvils.ite h.clearHeader.inc.wr)))))))

theorem State.linksFit.srst {page sent stamp} (h : s.linksFit) : (s.srst page sent stamp).linksFit :=
  h.ctrlAct fun h => ((h.clearHeader.when fun h => h.sbEnd).ite h.clearHeader).ite (h.clearHeader.ite h.srstBlock)

theorem State.linksFit.blockStart {page} (h : s.linksFit) : (s.blockStart page).linksFit :=
  h.startTrain.ite (((h.setCtl.ite h.canApply).each fun h => h.startVn).ite (h.setRx.ite ((h.when fun h => h.tongBegin).ite
    (h.mirrorAnvils.ite h))))

theorem State.linksFit.portSettle {p} (h : s.linksFit) : (s.portSettle p).linksFit := (h.each fun h => h.wireLost).lineFree

theorem State.linksFit.resetEnd {page} (h : s.linksFit) : (s.resetEnd page).linksFit :=
  .ite (by split; exacts [h.wr.portSettle, h.wr]) (.blockStart (by split; exacts [h.wr.portSettle, h.wr]))

theorem State.linksFit.softDone {page np late} (h : s.linksFit) : (s.softDone page np late).linksFit :=
  h.ite (h.add.add.when fun h => h.wr.raise).resetEnd

theorem State.linksFit.execSoftResetDone {t page np late} (h : s.linksFit) :
    AnswersFit (execSoftResetDone t page np late s) :=
  h.happen fun h => h.softDone

theorem State.linksFit.domDown {d} (h : s.linksFit) : (s.domDown d).linksFit :=
  (h.wr.each fun h => h.srstBlock).when fun h => h.laneGoes.laneGoes

theorem State.linksFit.execPowerDown {t mask} (h : s.linksFit) : AnswersFit (execPowerDown t mask s) :=
  h.happen fun h => h.blkGuard fun h => h.each fun h => h.domDown

theorem State.linksFit.domGone {d} (h : s.linksFit) : (s.domGone d).linksFit :=
  (((h.each fun h => h.resetEnd).wr.raise.when fun h => h.mirrorAnvils).when fun h => h.pinSyncAll).ite h

theorem State.linksFit.execPowerDownDone {t domain} (h : s.linksFit) : AnswersFit (execPowerDownDone t domain s) :=
  h.happen fun h => h.domGone

theorem State.linksFit.domUp {d} (h : s.linksFit) : (s.domUp d).linksFit :=
  ((h.wr.wr.each fun h => h.blockStart).when fun h => h.startTrain.startTrain).ite h.wr

theorem State.linksFit.execPowerUp {t mask} (h : s.linksFit) : AnswersFit (execPowerUp t mask s) :=
  h.happen fun h => h.blkGuard fun h => h.each fun h => h.domUp

/-! ### Resets -/

theorem linksFit_wiped {sys : SysCtl} : (s.wiped sys).linksFit := linksFit_of_noHops rfl

theorem State.linksFit.mirrorKept (h : s.linksFit) : s.mirrorKept.linksFit := h.mirrorSlots.setHealth.setHealth

theorem State.linksFit.deviceReset {cause} (_ : s.linksFit) : (s.deviceReset cause).linksFit := linksFit_wiped.wr.mirrorKept

theorem linksFit_powerOn : s.powerOn.linksFit := by
  have h : (s.wiped { SysCtl.fresh with rstAt := some s.time.clk, aoBase := s.time.clk }).linksFit := linksFit_wiped
  unfold State.powerOn
  exact ((h.congr (by with_reducible rfl)).wr.wr).mirrorKept

theorem State.linksFit.execPowerOn {t} (h : s.linksFit) : AnswersFit (execPowerOn t s) := h.happen fun _ => linksFit_powerOn

theorem State.linksFit.execResetPin {t} (h : s.linksFit) : AnswersFit (execResetPin t s) :=
  h.happen fun h => h.deviceReset.when fun h => h.emit

theorem State.linksFit.execSupplyReset {t} (h : s.linksFit) : AnswersFit (execSupplyReset t s) :=
  h.happen fun h => h.ite h.deviceReset

theorem State.linksFit.execDevrstArm {t value} (h : s.linksFit) : AnswersFit (execDevrstArm t value s) :=
  h.happen fun h => h.blkGuard fun h => h.congr (by rfl)

theorem State.linksFit.execDevrstArmExpiry {t} (h : s.linksFit) : AnswersFit (execDevrstArmExpiry t s) :=
  h.happen fun h => h.ite (h.congr (by rfl))

theorem State.linksFit.deviceSrst (h : s.linksFit) : s.deviceSrst.linksFit :=
  h.ctrlGuard fun h => h.deviceReset.ite h.refuse

theorem State.linksFit.execDeviceSrst {t} (h : s.linksFit) : AnswersFit (execDeviceSrst t s) :=
  h.happen fun h => h.deviceSrst

theorem State.linksFit.execSoftReset {t page sent stamp} (h : s.linksFit) : AnswersFit (execSoftReset t page sent stamp s) :=
  h.happen fun h => h.hdrGuard fun h => h.deviceSrst.ite h.srst

theorem State.linksFit.execWipeArm {t value} (h : s.linksFit) : AnswersFit (execWipeArm t value s) :=
  h.happen fun h => h.blkGuard fun h => (h.congr (by rfl)).ite h

theorem State.linksFit.execWipeArmExpiry {t} (h : s.linksFit) : AnswersFit (execWipeArmExpiry t s) :=
  h.happen fun h => h.ite (h.congr (by rfl))

theorem State.linksFit.factoryWipe (h : s.linksFit) : s.factoryWipe.linksFit := (h.congr (by rfl)).deviceReset

theorem State.linksFit.execWipeGo {t} (h : s.linksFit) : AnswersFit (execWipeGo t s) :=
  h.happen fun h => h.blkGuard fun h => h.factoryWipe.ite h.refuse

theorem State.linksFit.release {first wipe hold} (h : s.linksFit) : (s.release first wipe hold).linksFit :=
  h.ite (h.congr (by rfl)).wrB.wr.wr

theorem State.linksFit.execResetRelease {t first wipe hold} (h : s.linksFit) :
    AnswersFit (execResetRelease t first wipe hold s) :=
  h.happen fun h => h.release

theorem State.linksFit.sleepEntry (h : s.linksFit) : s.sleepEntry.linksFit :=
  (((h.congr (by rfl)).each fun h => h.qflush).each fun h => h.tsEnd).inc.wr

theorem State.linksFit.execSleep {t value} (h : s.linksFit) : AnswersFit (execSleep t value s) :=
  h.happen fun h => h.blkGuard fun h => h.ite (h.refuse.ite h.sleepEntry)

theorem State.linksFit.powerOff (h : s.linksFit) : s.powerOff.linksFit := by
  unfold State.powerOff
  exact (linksFit_wiped.congr (by with_reducible rfl)).wr.ite h

theorem State.linksFit.execSleepPowerOff {t} (h : s.linksFit) : AnswersFit (execSleepPowerOff t s) :=
  h.happen fun h => h.powerOff

theorem State.linksFit.wakeCause {b} (h : s.linksFit) : (s.wakeCause b).linksFit := (h.congr (by rfl)).ite h

theorem State.linksFit.execWakeNInput {t} (h : s.linksFit) : AnswersFit (execWakeNInput t s) := h.happen fun h => h.wakeCause

theorem State.linksFit.execCanWakeInSleep {t controller} (h : s.linksFit) : AnswersFit (execCanWakeInSleep t controller s) :=
  h.happen fun h => h.wakeCause.ite h

theorem State.linksFit.execWakeTimer {t} (h : s.linksFit) : AnswersFit (execWakeTimer t s) :=
  h.happen fun h => h.wakeCause.ite h

theorem State.linksFit.execTamperAlarm {t source} (h : s.linksFit) : AnswersFit (execTamperAlarm t source s) :=
  h.happen fun h => h.tamper.wakeCause.ite h.tamper

theorem State.linksFit.wakeUp (h : s.linksFit) : s.wakeUp.linksFit := h.deviceReset.emit.wr.inc.ite h

theorem State.linksFit.execWakePowerUp {t} (h : s.linksFit) : AnswersFit (execWakePowerUp t s) := h.happen fun h => h.wakeUp

theorem State.linksFit.supplyWarn {rail low} (h : s.linksFit) : (s.supplyWarn rail low).linksFit :=
  h.ite h.wr.inc.raise.setHealth

theorem State.linksFit.execSupplyWarning {t rail low} (h : s.linksFit) : AnswersFit (execSupplyWarning t rail low s) :=
  h.happen fun h => h.supplyWarn

theorem State.linksFit.execBankOutOfRange {t bank} (h : s.linksFit) : AnswersFit (execBankOutOfRange t bank s) :=
  h.happen fun h => (h.congr (by rfl)).wr.pinSyncAll

theorem State.linksFit.execJtagInstruction {t instr} (h : s.linksFit) : AnswersFit (execJtagInstruction t instr s) :=
  h.happen fun h => (h.congr (by rfl)).pinSyncAll

/-! ### Topology -/

theorem State.linksFit.writeRoutes {n} (h : s.linksFit) : (s.writeRoutes n).linksFit :=
  h.ite ((h.congr (by rfl)).each fun h => h.leafWrite)

theorem State.linksFit.leafResets {n incarn} (h : s.linksFit) : (s.leafResets n incarn).linksFit :=
  (h.congr (by rfl)).dropNode.raise.writeRoutes.readLeaf

theorem State.linksFit.nodeEntry {id d admA admB} (h : s.linksFit) : (s.nodeEntry id d admA admB).linksFit := by
  unfold State.nodeEntry
  extract_lets b ia ib tp ns s1 s2 s3 s4 s5 s6 s7
  have hns : ∀ {s : State} {r i fin fout fpos fdir}, s.linksFit → (ns s r i fin fout fpos fdir).linksFit := by
    rintro s r (_ | i) fin fout fpos fdir h
    exacts [h, h.wr.wr.wr.wr]
  clear_value ns
  exact hns (hns h.wrB.wrB.wrB.wrB.wrB.wr.wr.wr.wr.wr.wr.wr)

theorem State.linksFit.nodeUpdate {admA admB id} (h : s.linksFit) : (s.nodeUpdate admA admB id).linksFit := by
  unfold State.nodeUpdate
  extract_lets b was s0 a bb old
  split
  · exact h.wr.wr.wr.raise.dropNode.ite h
  · extract_lets s1 s2 s3 s4 s5
    have h3 : s3.linksFit := (h.nodeEntry.when fun h => h.raise).when fun h => h.raise
    clear_value s3
    exact (h3.wr.dropNode.ite h3.wr).ite (h3.leafResets.ite (h3.wr.writeRoutes.ite h3.wr.writeRoutes.readLeaf))

theorem State.linksFit.mirrorReach (h : s.linksFit) : s.mirrorReach.linksFit :=
  (h.each fun h => by split; exacts [h.wrB.wrB, h]).wr.wr

theorem State.linksFit.passDone {r recs} (h : s.linksFit) : (s.passDone r recs).linksFit :=
  (((h.congr (by rfl)).inc.when fun h => h.raise).each fun h => h.nodeUpdate).mirrorReach

theorem State.linksFit.discover {r} (h : s.linksFit) : (s.discover r).linksFit := (h.congr (by rfl)).sendPort

theorem State.linksFit.discoverAll (h : s.linksFit) : s.discoverAll.linksFit := h.discover.discover

theorem State.linksFit.execDiscoverSend {t} (h : s.linksFit) : AnswersFit (execDiscoverSend t s) :=
  h.happen fun h => h.discoverAll

theorem State.linksFit.passLate (h : s.linksFit) : s.passLate.linksFit :=
  h.each fun h => by split; exacts [h.inc.discover.ite h, h]

theorem State.linksFit.execDiscoverTimeout {t} (h : s.linksFit) : AnswersFit (execDiscoverTimeout t s) :=
  h.happen fun h => h.passLate

theorem State.linksFit.execTopoGo {t} (h : s.linksFit) : AnswersFit (execTopoGo t s) :=
  h.happen fun h => h.blkGuard fun h => h.discoverAll

/-! ### The ring received -/

theorem State.linksFit.takeSeq {leaf q} (h : s.linksFit) : (s.takeSeq leaf q).2.linksFit := by
  unfold State.takeSeq
  extract_lets set
  have hset : ∀ {s : State} {w}, s.linksFit → (set s w).linksFit := fun h => h.congr (by rfl)
  clear_value set
  split
  · exact hset h
  · refine .iteSnd (hset h).add ?_
    split
    exacts [(hset h).inc, h.inc, h.inc]

theorem State.linksFit.seqSweep (h : s.linksFit) : s.seqSweep.linksFit := h.each fun h => (h.congr (by rfl)).add

theorem State.linksFit.execIseqTimeout {t} (h : s.linksFit) : AnswersFit (execIseqTimeout t s) :=
  h.happen fun h => h.seqSweep

theorem State.linksFit.takeCopy {p foreign k} (h : s.linksFit) : (s.takeCopy p foreign k).linksFit :=
  (h.when fun h => h.congr (by rfl)).ite (h.ite (((h.congr (by rfl)).ite h).ite ((h.when fun h => h.congr (by rfl)).ite
    ((h.congr (by rfl)).ite (h.ite h.inc)))))

theorem State.linksFit.takePacket {p resid foreign k} (h : s.linksFit) : (s.takePacket p resid foreign k).linksFit :=
  ((h.when fun h => h.takeCopy).when fun h => h.inc).ite (h.when fun h => h.takeCopy).sendPort

theorem State.linksFit.packetIn {p vc resid foreign} (h : s.linksFit) : (s.packetIn p vc resid foreign).linksFit := by
  unfold State.packetIn
  dsimp only
  split
  · exact h
  · split
    exacts [(h.keepHop (by rfl) (by rfl)).inc, (h.keepHop (by rfl) (by rfl)).takePacket]

theorem State.linksFit.execPacketReceive {t port vc resid foreign} (h : s.linksFit) :
    AnswersFit (execPacketReceive t port vc resid foreign s) :=
  h.happen fun h => h.packetIn

/-- A packet taken out of the inbox. -/
theorem State.linksFit.fromInbox {f e} (h : s.linksFit) (hu : s.fromInbox f = some (e, u)) : u.linksFit := by
  obtain ⟨a, -, ha⟩ := Option.map_eq_some_iff.1 hu
  obtain ⟨-, rfl⟩ := Prod.mk.inj ha
  exact h.congr rfl

theorem State.linksFit.execDiscoverReturn {t} (h : s.linksFit) : AnswersFit (execDiscoverReturn t s) :=
  h.happen fun h => by
    split
    case h_1 hu => exact (h.fromInbox hu).passDone
    case h_2 => exact h

theorem State.linksFit.execAxisEdges {t} (h : s.linksFit) : AnswersFit (execAxisEdges t s) :=
  h.happen fun h => by
    split
    case h_1 hu => exact (h.fromInbox hu).takeEdges.ite (h.fromInbox hu)
    case h_2 => exact h

theorem State.linksFit.sigLast {node type cause} (h : s.linksFit) : (s.sigLast node type cause).linksFit := h.wr.wr.wr

theorem State.linksFit.lineCounts {leaf l} (h : s.linksFit) : (s.lineCounts leaf l).linksFit := by
  unfold State.lineCounts
  split
  exacts [h.each fun h' => h'.icAdd, h]

theorem State.linksFit.beatAck {leaf l} (h : s.linksFit) : (s.beatAck leaf l).linksFit :=
  (h.congr (by rfl)).mirrorK.seeToken.dualSeal.ite (h.congr (by rfl)).mirrorK.seeToken

theorem State.linksFit.actSig {r k} (h : s.linksFit) : (s.actSig r k).linksFit := by
  unfold State.actSig
  dsimp only
  split
  exacts [h.discoverAll, h.discoverAll, h.sigLast.discoverAll, h.sigLast.raise, h.lineCounts, h.hubBeat, h.beatAck, h]

theorem State.linksFit.freeSigs {leaf n} (h : s.linksFit) : (s.freeSigs leaf n).linksFit := by
  induction n generalizing s with
  | zero => exact h
  | succ n ih =>
    unfold State.freeSigs
    split
    exacts [h, ih (h.congr (by rfl)).actSig]

theorem State.linksFit.takeSig {r clk k} (h : s.linksFit) : (s.takeSig r clk k).linksFit := by
  unfold State.takeSig
  refine h.actSig.ite (h.inc.ite ?_)
  extract_lets inc s1 q
  have h1 : s1.linksFit := h.when fun h => h.leafResets
  clear_value s1
  split
  case h_1 hq => exact h1.takeSeq.ofEq hq
  case h_2 hq =>
    have h2 := h1.takeSeq.ofEq hq
    exact (h2.congr (by rfl)).ite h2.actSig.freeSigs

theorem State.linksFit.nextSig {type} (h : s.linksFit) : (s.nextSig type).linksFit := by
  unfold State.nextSig
  split
  case h_1 hu => exact (h.fromInbox hu).takeSig
  case h_2 => exact h

theorem State.linksFit.execLinkDownSig {t} (h : s.linksFit) : AnswersFit (execLinkDownSig t s) := h.happen fun h => h.nextSig

theorem State.linksFit.execLinkUpSig {t} (h : s.linksFit) : AnswersFit (execLinkUpSig t s) := h.happen fun h => h.nextSig

theorem State.linksFit.execLeafReset {t} (h : s.linksFit) : AnswersFit (execLeafReset t s) := h.happen fun h => h.nextSig

theorem State.linksFit.execInterruptSig {t} (h : s.linksFit) : AnswersFit (execInterruptSig t s) :=
  h.happen fun h => h.nextSig

theorem State.linksFit.execLineCountsSig {t} (h : s.linksFit) : AnswersFit (execLineCountsSig t s) :=
  h.happen fun h => h.nextSig

theorem State.linksFit.execHubBeatRx {t} (h : s.linksFit) : AnswersFit (execHubBeatRx t s) := h.happen fun h => h.nextSig

theorem State.linksFit.execBeatAckRx {t} (h : s.linksFit) : AnswersFit (execBeatAckRx t s) := h.happen fun h => h.nextSig

theorem State.linksFit.sigLate (h : s.linksFit) : s.sigLate.linksFit := (h.congr (by rfl)).each fun h => h.actSig

theorem State.linksFit.execSigHoldTimeout {t} (h : s.linksFit) : AnswersFit (execSigHoldTimeout t s) :=
  h.happen fun h => h.sigLate

theorem State.linksFit.itemToPort {r p leaf l} (h : s.linksFit) : (s.itemToPort r p leaf l).linksFit :=
  h.ite (by split; exacts [h.giveCand, h.canItem, h.tunFrame, h.giveCand, h.giveCand, h])

theorem State.linksFit.itemIn {r k} (h : s.linksFit) : (s.itemIn r k).linksFit := by
  unfold State.itemIn
  refine h.inc.ite ?_
  dsimp only
  split
  case h_1 hq => exact h.takeSeq.ofEq hq
  case h_2 hq =>
    split
    exacts [(h.takeSeq.ofEq hq).inc.itemToPort.freeSigs, (h.takeSeq.ofEq hq).inc.inc.freeSigs]

theorem State.linksFit.execItemIn {t} (h : s.linksFit) : AnswersFit (execItemIn t s) :=
  h.happen fun h => by
    split
    case h_1 hu => exact (h.fromInbox hu).itemIn
    case h_2 => exact h

theorem State.linksFit.answer {k st data} (h : s.linksFit) : (s.answer k st data).linksFit := by
  unfold State.answer
  dsimp only
  split
  exacts [h.sendUni, h]

theorem State.linksFit.execWrReqRx {t} (h : s.linksFit) : AnswersFit (execWrReqRx t s) :=
  h.happen fun h => by
    split
    case h_1 hu => exact (h.fromInbox hu).inc.answer
    case h_2 => exact h

theorem State.linksFit.cplIn {l} (h : s.linksFit) : (s.cplIn l).linksFit := by
  unfold State.cplIn
  extract_lets w tag st s1 s2
  have h2 : s2.linksFit := (h.when fun h => h.inc).when fun h => h.inc
  clear_value s2
  split
  · exact h.inc
  · exact h.inc.ite (h2.tagDone.configLeaf.ite h2.tagDone)

theorem State.linksFit.execCplRx {t} (h : s.linksFit) : AnswersFit (execCplRx t s) :=
  h.happen fun h => by
    split
    case h_1 hu => exact (h.fromInbox hu).cplIn
    case h_2 => exact h

theorem State.linksFit.cplLate (h : s.linksFit) : s.cplLate.linksFit := h.each fun h => h.inc.raise.tagDone

theorem State.linksFit.execCplTimeout {t} (h : s.linksFit) : AnswersFit (execCplTimeout t s) := h.happen fun h => h.cplLate

theorem State.linksFit.portMapSet {p w} (h : s.linksFit) : (s.portMapSet p w).linksFit := h.wr.wr.wr.wr.wr.wrB.wrB.mirrorPort

theorem State.linksFit.portMapWrite {p w} (h : s.linksFit) : (s.portMapWrite p w).linksFit :=
  h.ite (h.winGuard fun h => h.refuse.ite h.portMapSet.logDelta)

theorem State.linksFit.execPortMapWrite {t port word} (h : s.linksFit) : AnswersFit (execPortMapWrite t port word s) :=
  h.happen fun h => h.portMapWrite

theorem State.linksFit.bankSwitch {g} (h : s.linksFit) : (s.bankSwitch g).linksFit := by
  unfold State.bankSwitch
  split
  · exact h
  · extract_lets old ports s1 gone src s2 s3 src' s4 s5
    have h1 : s1.linksFit := h.wr
    clear_value s1
    have h2 : s2.linksFit := h1.congr rfl
    clear_value s2
    have h3 : s3.linksFit := h2.each fun h => h.writeEntry
    clear_value s3
    have h4 : s4.linksFit := h3.congr rfl
    clear_value s4
    exact h.ite (h4.wr.when fun h => h.startSwitch)

theorem State.linksFit.execMbankSwitch {t group} (h : s.linksFit) : AnswersFit (execMbankSwitch t group s) :=
  h.happen fun h => h.bankSwitch

end Sys2Proof.Machine
end

section
/-! SUPPORT. The frame numbers keep within their 16 bits, for O5 (R196, R243): register writes, boot, engines and the
  log of the twin. -/

namespace Sys2Proof.Machine

variable {s u : State}

/-! ### Register writes -/

theorem State.linksFit.oosWrite {old : State} (h : s.linksFit) : (old.oosWrite s).linksFit :=
  h.each fun h => (h.linkDown.wr.ite (h.laneGoes.ite h.ethDown)).ite (h.startTrain.ite h)

theorem State.linksFit.divWrite {t n} (h : s.linksFit) : (s.divWrite t n).linksFit := h.tongSettle.wr.setEng

theorem State.linksFit.bpEnWrite (h : s.linksFit) : s.bpEnWrite.linksFit := h.each fun h => h.judgeBP

theorem State.linksFit.pageEffect {t p off} (h : s.linksFit) (ht : State.linksFit t) : (s.pageEffect t p off).linksFit := by
  have htime : (t.each [0, 1] fun t x =>
      t.when (s.rd pgTIME (domF TIME_DOM_SRC x) != t.rd pgTIME (domF TIME_DOM_SRC x)) (·.unlock x)).linksFit :=
    ht.each fun h => h.when fun h => h.unlock
  unfold State.pageEffect
  exact (ht.oosWrite.ite ht).ite (.ite ((htime.congr (by rfl)).ite htime) ((ht.when fun h => h.ethDown).ite (ht.mirrorDE.ite
    (.ite ((h.divWrite.ite ht).when fun h => h.pinSyncAll) (ht.setCells.freeCells.spillStart.ite
      ((ht.when fun h => h.bpEnWrite).ite ((ht.when fun h => h.jLocate).ite ht)))))))

theorem State.linksFit.writeWord {a w} (h : s.linksFit) : OptFit (s.writeWord a w) := by
  unfold State.writeWord
  split
  · exact h.present
  · refine .ite h.present (.ite (h.congr (by rfl)).present (.ite h.shadowWrite.present (.ite ((h.congr (by rfl)).ite
      h.setWord).present
      (.ite h.wr.present (.ite (h.when fun h => h.wr).present ?_)))))
    exact .ite .absent ((h.pageEffect h.setWord).ite h.setWord |>.when fun h => h.logDelta).present

theorem State.linksFit.placeGuard {p} {f : State → State} (h : s.linksFit)
    (hf : ∀ {s : State}, s.linksFit → (f s).linksFit) : (s.placeGuard p f).linksFit :=
  ((hf h).ite (h.ite ((h.sbGuard fun h => hf h).ite (h.blkGuard fun h => hf h)))).ite (h.ite ((hf h).ite (h.winGuard fun h
    => hf h)))

theorem State.linksFit.registerWrite {a wide v} (h : s.linksFit) : (s.registerWrite a wide v).linksFit := by
  unfold State.registerWrite
  refine h.wr.inc.raise.ite ?_
  split
  · exact h
  · refine h.placeGuard fun {s} h => ?_
    extract_lets hi
    have hhi : OptFit hi := .ite h.writeWord h.present
    split
    case h_1 u hu =>
      obtain ⟨u', hu', hw⟩ := Option.bind_eq_some_iff.1 hu
      exact (hhi u' hu').writeWord u hw
    case h_2 => exact h.refuse

theorem State.linksFit.execRegisterWrite {t addr wide value} (h : s.linksFit) :
    AnswersFit (execRegisterWrite t addr wide value s) := h.happen fun h => h.registerWrite

theorem State.linksFit.readReq {k} (h : s.linksFit) : (s.readReq k).linksFit := h.ite (h.answer.ite (h.answer.ite h.answer))

theorem State.linksFit.execRdReqRx {t} (h : s.linksFit) : AnswersFit (execRdReqRx t s) :=
  h.happen fun h => by
    split
    case h_1 hu => exact (h.fromInbox hu).readReq
    case h_2 => exact h

/-! ### Boot -/

theorem State.linksFit.commitReq (h : s.linksFit) : s.commitReq.linksFit := by
  unfold State.commitReq
  exact (h.when fun h => h.inc).congr (by with_reducible rfl)

theorem State.linksFit.execCommit {t page} (h : s.linksFit) : AnswersFit (execCommit t page s) :=
  h.happen fun h => h.hdrGuard fun h => h.commitReq

/-- R406: whatever image it begins, only wear counts and the attic move. -/
theorem State.beginImage_eq (s : State) : ∃ l a, s.beginImage =
    { s.fresh.2.each l (fun s b => s.inc pgATTC (ATTC_WEAR.at b 8)) with attic := a } := ⟨_, _, rfl⟩

theorem State.linksFit.beginImage (h : s.linksFit) : s.beginImage.linksFit := by
  obtain ⟨l, a, he⟩ := s.beginImage_eq
  rw [he]
  exact (h.fresh.each fun h => h.inc).congr (by with_reducible rfl)

theorem State.linksFit.commitTaken (h : s.linksFit) : s.commitTaken.linksFit := h.beginImage.ite h

theorem State.linksFit.execCommitTaken {t} (h : s.linksFit) : AnswersFit (execCommitTaken t s) :=
  h.happen fun h => h.commitTaken

theorem State.linksFit.setCurrent {i} (h : s.linksFit) : (s.setCurrent i).linksFit := h.wr.wr.wr.wr.wr.wr

theorem State.linksFit.commitWritten (h : s.linksFit) : s.commitWritten.linksFit := by
  unfold State.commitWritten
  split
  exacts [h, (h.congr (by rfl)).setCurrent.inc.raise]

theorem State.linksFit.execCommitWritten {t} (h : s.linksFit) : AnswersFit (execCommitWritten t s) :=
  h.happen fun h => h.commitWritten

theorem State.linksFit.restoreField {c} (h : s.linksFit) : (s.restoreField c).linksFit := h.congr rfl

theorem State.linksFit.checkTables {n} (h : s.linksFit) : (s.checkTables n).linksFit := by
  induction n generalizing s with
  | zero => exact h
  | succ n ih =>
    unfold State.checkTables
    split
    exacts [h, ih h.wipeRegs.wipeRegs.inc]

theorem State.linksFit.tablesUp (h : s.linksFit) : s.tablesUp.linksFit := by
  unfold State.tablesUp
  exact ((h.each fun h => h.relive).mirrorOrphans.each fun h => h.startSwitch).congr (by with_reducible rfl)

theorem State.linksFit.applyImage {i} (h : s.linksFit) : (s.applyImage i).linksFit :=
  ((h.each fun h => h.restoreField).checkTables.when fun h => h.raise).setCurrent.tablesUp

theorem State.linksFit.inert {cause} (h : s.linksFit) : (s.inert cause).linksFit := h.wr.wr.raise

theorem State.linksFit.restore {hdrBad bodyBad} (h : s.linksFit) : (s.restore hdrBad bodyBad).linksFit := by
  unfold State.restore
  dsimp only
  split
  · exact (h.congr (by rfl)).inert
  · refine (h.congr (by rfl)).wr.applyImage.ite ?_
    split
    exacts [(h.congr (by rfl)).wr.applyImage.raise.ite (h.congr (by rfl)).inert, (h.congr (by rfl)).inert]

theorem State.linksFit.goForward (h : s.linksFit) : s.goForward.linksFit := by
  unfold State.goForward
  extract_lets s1 s2 src s3 s4 s5 s6 s7 s8
  have h2 : s2.linksFit := h.wr.wr
  clear_value s2
  have h3 : s3.linksFit := h2.congr rfl
  clear_value s3
  have h5 : s5.linksFit := h3.mirrorAnvils.each fun h => h.blockStart
  clear_value s5
  have h7 : s7.linksFit := (h5.each fun h => h.blockStart).each fun h => h.blockStart
  clear_value s7
  exact h7.mirrorDEs.pinSyncAll.mirrorRingHealth.mirrorRingHealth.when fun h => h.raise

theorem State.linksFit.atticStage {hdrBad bodyBad} (h : s.linksFit) : (s.atticStage hdrBad bodyBad).linksFit :=
  h.factoryWipe.ite h.restore.startChannels.chainStart.wr

theorem State.linksFit.memoryStage (h : s.linksFit) : s.memoryStage.linksFit :=
  h.ite (h.layCellar.wr.raise.ite h.layCellar.goForward)

theorem State.linksFit.stageDone {hdrBad bodyBad} (h : s.linksFit) : (s.stageDone hdrBad bodyBad).linksFit := by
  unfold State.stageDone
  split
  exacts [h.wr.each fun h' => h'.startTrain, h.sbBoot.wr, h.atticStage, h.memoryStage, h]

theorem State.linksFit.execBootStageDone {t hdrBad bodyBad} (h : s.linksFit) :
    AnswersFit (execBootStageDone t hdrBad bodyBad s) :=
  h.happen fun h => h.stageDone

theorem State.linksFit.execBootGo {t} (h : s.linksFit) : AnswersFit (execBootGo t s) :=
  h.happen fun h => h.ctrlGuard fun h => h.goForward.ite h.refuse

/-! ### Instructions of TONGS -/

theorem State.linksFit.tongNext {n op pc} (h : s.linksFit) : (s.tongNext n op pc).linksFit :=
  h.wr.wr.wr.ite h.wr.wr.tongFault

theorem State.linksFit.tongStep {n op} (h : s.linksFit) : (s.tongStep n op).linksFit := h.tongNext

theorem State.linksFit.tongExec {n op} {f : State → Nat → Nat → State} (h : s.linksFit) (hf : ∀ {s : State} {w k : Nat},
    s.linksFit → (f s w k).linksFit) : (s.tongExec n op f).linksFit := by
  unfold State.tongExec
  refine h.ite (h.tongFault.ite ?_)
  extract_lets e plain pins s1
  have h1 : s1.linksFit := h.setEng
  clear_value s1
  split
  exacts [hf h1, (hf (h1.when fun h => h.inc)).ite (hf h1)]

theorem State.linksFit.setSr {n l} (h : s.linksFit) : (s.setSr n l).linksFit := h.setEng.wr

theorem State.linksFit.srAppend {n msb b} (h : s.linksFit) : (s.srAppend n msb b).linksFit := h.inc.ite h.setSr

theorem State.linksFit.srRemove {n msb} (h : s.linksFit) : (s.srRemove n msb).2.linksFit :=
  .iteSnd h (.iteSnd h.setSr h.setSr)

theorem State.linksFit.srLoad {n msb cnt v} (h : s.linksFit) : (s.srLoad n msb cnt v).linksFit := h.each fun h => h.srAppend

theorem State.linksFit.srTake {n msb cnt} (h : s.linksFit) : (s.srTake n msb cnt).2.linksFit :=
  h.foldl fun h => h.srRemove

theorem State.linksFit.execTongGo {t engine lines} (h : s.linksFit) : AnswersFit (execTongGo t engine lines s) :=
  h.happen fun h => (h.congr (by rfl)).tongExec fun h => h.tongFault.ite (h.tongNext.ite h.tongStep)

theorem State.linksFit.execTongLoad {t engine} (h : s.linksFit) : AnswersFit (execTongLoad t engine s) := by
  refine h.happen fun h => State.linksFit.tongExec h fun h => ?_
  exact h.wr.tongStep

theorem State.linksFit.execTongAlu {t engine} (h : s.linksFit) : AnswersFit (execTongAlu t engine s) := by
  refine h.happen fun h => State.linksFit.tongExec h fun h => ?_
  exact (h.wr.ite h.wr).tongStep

theorem State.linksFit.execTongTimer {t engine} (h : s.linksFit) : AnswersFit (execTongTimer t engine s) := by
  refine h.happen fun h => State.linksFit.tongExec h fun h => ?_
  exact h.setEng.tongStep

theorem State.linksFit.execTongFlag {t engine} (h : s.linksFit) : AnswersFit (execTongFlag t engine s) := by
  refine h.happen fun h => State.linksFit.tongExec h fun h => ?_
  extract_lets fl i
  refine State.linksFit.tongStep ?_
  split
  exacts [h.wr, h.wr, h.wr.raise]

theorem State.linksFit.execTongLut {t engine lines} (h : s.linksFit) : AnswersFit (execTongLut t engine lines s) :=
  h.happen fun h => (h.congr (by rfl)).tongExec fun h => (((h.when fun h => h.wr).when fun h => h.each fun h =>
    h.pinLevel).when fun h
    => h.wr).tongStep

theorem State.linksFit.tongMark {n h} (hs : s.linksFit) : (s.tongMark n h).linksFit := hs.ite hs.setEng

theorem State.linksFit.execTongPins {t engine} (h : s.linksFit) : AnswersFit (execTongPins t engine s) := by
  refine h.happen fun h => State.linksFit.tongExec h fun h => ?_
  exact ((h.each fun h => h.pinDir.ite h.pinLevel).when fun h => h.tongMark).tongStep

theorem State.linksFit.awaitEnd {n w edge} (h : s.linksFit) : (s.awaitEnd n w edge).linksFit := by
  refine .tongStep ?_
  · split
    exacts [(h.tongSettle.setEng.ite h.tongSettle).when fun h' => h'.tongMark, h.tongSettle.setEng.ite h.tongSettle]

theorem State.linksFit.execTongAwait {t engine lines} (h : s.linksFit) : AnswersFit (execTongAwait t engine lines s) :=
  h.happen fun h => (h.congr (by rfl)).tongExec fun h => h.awaitEnd.ite h.setEng.wr

theorem State.linksFit.execTongAwaitDone {t engine lines ago} (h : s.linksFit) :
    AnswersFit (execTongAwaitDone t engine lines ago s) :=
  h.happen fun h => (h.congr (by rfl)).ite (((h.congr (by rfl)).awaitEnd.ite (h.congr (by rfl))).ite
    ((h.congr (by rfl)).awaitEnd.ite (h.congr (by rfl))))

theorem State.linksFit.shiftLines {n w h} (hs : s.linksFit) : (s.shiftLines n w h).linksFit := by
  unfold State.shiftLines
  extract_lets b ph cnt lead msb r s1 s2 sdi s3 src s4 src'
  have h3 : s3.linksFit := (((hs.srRemove.ite hs.srRemove.pinLevel).ite hs).when fun hs => hs.pinLevel).ite
    ((hs.when fun hs => hs.pinLevel).when fun hs => hs.srAppend)
  have h4 : s4.linksFit := h3.setEng
  exact h4.setEng.wr.tongStep.ite h4.wr

theorem State.linksFit.execTongShift {t engine lines} (h : s.linksFit) : AnswersFit (execTongShift t engine lines s) := by
  refine h.happen fun h => State.linksFit.tongExec (h.congr (by rfl)) fun h => ?_
  dsimp only
  split
  exacts [h.shiftLines, h.srLoad.tongStep, h.srTake.wr.tongStep]

theorem State.linksFit.tongTake {n v last} (h : s.linksFit) (hu : s.tongTake n = some (v, last, u)) : u.linksFit := by
  unfold State.tongTake at hu
  dsimp only at hu
  split at hu
  · exact nomatch hu
  · obtain ⟨-, -, rfl⟩ := by simpa using hu
    exact (h.txPop.ite h.setTx).inc

theorem State.linksFit.fetchWord {n w v last} (h : s.linksFit) : (s.fetchWord n w v last).linksFit :=
  (h.setEng.wrB.srLoad.ite h.setEng.wrB.wr).tongStep

theorem State.linksFit.tongFetch {n w} (h : s.linksFit) : (s.tongFetch n w).linksFit := by
  unfold State.tongFetch
  split
  case h_1 hu => exact (h.tongTake hu).tongSettle.fetchWord
  case h_2 => exact h.ite (h.setEng.wr.ite h.tongStep)

theorem State.linksFit.execTongFetch {t engine} (h : s.linksFit) : AnswersFit (execTongFetch t engine s) := by
  refine h.happen fun h => State.linksFit.tongExec h fun h => ?_
  exact h.tongFetch

theorem State.linksFit.storeWord {n w} (h : s.linksFit) : (s.storeWord n w).2.2.linksFit := by
  unfold State.storeWord
  split
  exacts [h.setSr.add, h]

theorem State.linksFit.storePut {n v at_ fin} (h : s.linksFit) : (s.storePut n v at_ fin).linksFit := by
  refine .ite (.setEng (.icInc (.setRx (.icAdd (.inc ?_))))) (.ite (.setEng (.inc (.commitCand (.setRx (.icAdd (.inc
    ?_)))))) (.setRx (.icAdd (.inc ?_))))
  · split
    exacts [h, h.setEng]
  · split
    exacts [h, h.setEng]
  · split
    exacts [h, h.setEng]

theorem State.linksFit.tongStore {n w} (h : s.linksFit) : (s.tongStore n w).linksFit := by
  unfold State.tongStore
  exact .ite h.tongSettle.storeWord.setEng.tongStep (.ite h.tongSettle.storeWord.storePut.tongStep
    (.ite (h.ite h.setEng.wr) h.storeWord.setRx.wr.inc.raise.setEng.tongStep))

theorem State.linksFit.execTongStore {t engine} (h : s.linksFit) : AnswersFit (execTongStore t engine s) := by
  refine h.happen fun h => State.linksFit.tongExec h fun h => ?_
  exact h.tongStore

theorem State.linksFit.execStallEnd {t engine} (h : s.linksFit) : AnswersFit (execStallEnd t engine s) :=
  h.happen fun h => h.ite (by split; exacts [h.tongFetch, h.tongStore, h])

theorem State.linksFit.execEngineEnable {t engine} (h : s.linksFit) : AnswersFit (execEngineEnable t engine s) :=
  h.happen fun h => h.ctrlGuard fun h => h.tongEnable

theorem State.linksFit.execEngineDisable {t engine} (h : s.linksFit) : AnswersFit (execEngineDisable t engine s) :=
  h.happen fun h => h.ctrlGuard fun h => h.tongDisable

theorem State.linksFit.execGrpEnSet {t mask} (h : s.linksFit) : AnswersFit (execGrpEnSet t mask s) :=
  h.happen fun h => h.blkGuard fun h => h.tongGrpSet

theorem State.linksFit.execGrpEnClr {t mask} (h : s.linksFit) : AnswersFit (execGrpEnClr t mask s) :=
  h.happen fun h => h.blkGuard fun h => h.tongGrpClr

theorem State.linksFit.execGrpClkrst {t mask} (h : s.linksFit) : AnswersFit (execGrpClkrst t mask s) :=
  h.happen fun h => h.blkGuard fun h => h.tongGrpClkrst

theorem State.linksFit.execTongShadowSwap {t} (h : s.linksFit) : AnswersFit (execTongShadowSwap t s) := by
  refine h.happen fun h => h.ctrlGuard fun {s} h => h.ite ?_
  extract_lets s1 s2 runs s3 src s4 s5
  have h1 : s1.linksFit := h.each fun h => h.wr.wr
  clear_value s1
  have h3 : s3.linksFit := h1.wr.wr.wr
  clear_value s3
  have h4 : s4.linksFit := h3.congr rfl
  clear_value s4
  exact (h4.each fun h => h.tongMove.when fun h => h.wr).tongSwapEnd

theorem State.linksFit.bankMove {n} (h : s.linksFit) : (s.bankMove n).linksFit :=
  (h.tongSettle.tongMove.when fun h => h.wr).wr.tongUnwait

theorem State.linksFit.execEngineBankMove {t engine} (h : s.linksFit) : AnswersFit (execEngineBankMove t engine s) :=
  h.happen fun h => h.bankMove.ite h

theorem State.linksFit.forceMove {n} (h : s.linksFit) : (s.forceMove n).linksFit :=
  h.tongSettle.tongDiscard.inc.raise.inc.bankMove

theorem State.linksFit.forceAll (h : s.linksFit) : s.forceAll.linksFit := h.each fun h => h.forceMove

theorem State.linksFit.execSwapTimeout {t} (h : s.linksFit) : AnswersFit (execSwapTimeout t s) :=
  h.happen fun h => h.forceAll.ite h

theorem State.linksFit.execTongForce {t} (h : s.linksFit) : AnswersFit (execTongForce t s) :=
  h.happen fun h => h.blkGuard fun h => h.forceAll

/-! ### The twin's log -/

theorem State.linksFit.lanesAck {ft} (h : s.linksFit) : (s.lanesAck ft).linksFit := h.sendLanes

theorem State.linksFit.lanesNak (h : s.linksFit) : s.lanesNak.linksFit := h.ite (h.keepHop (by rfl) (by rfl)).lanesAck

theorem State.linksFit.lanesIn {lane lseq good} {f : State → State} (h : s.linksFit)
    (hf : ∀ {s : State}, s.linksFit → (f s).linksFit) : (s.lanesIn lane lseq good f).linksFit := by
  have hnext : ((s.hop 4).rxSeq + 1) % 65536 < 65536 := Nat.mod_lt _ (by decide)
  exact h.ite (h.lanesNak.ite ((hf (h.setHop (by exact (h 4).1) (by exact hnext)).lanesAck).ite
    (h.lanesNak.ite h.lanesAck)))

theorem State.linksFit.ownCopy {leaf iseq b} (h : s.linksFit) (hu : s.ownCopy leaf iseq = some (b, u)) : u.linksFit := by
  unfold State.ownCopy at hu
  dsimp only at hu
  split at hu
  · obtain ⟨-, rfl⟩ := by simpa using hu
    exact h
  · obtain ⟨c, -, hc⟩ := Option.map_eq_some_iff.1 hu
    exact h.examine.ofEq hc

theorem State.linksFit.copyBuilt {i leaf iseq} (h : s.linksFit) : (s.copyBuilt i leaf iseq).2.linksFit :=
  .iteSnd h.lookCand h.examine

theorem State.linksFit.keepQuar {old f p} (h : s.linksFit) : (s.keepQuar old f p).linksFit :=
  (h.each fun h => h.wr).each fun h => h.wr

theorem State.linksFit.ownFate {b} (h : s.linksFit) : (s.ownFate b).2.linksFit := h.relook.fateOf.keepQuar

theorem State.linksFit.agree {fate f} (h : s.linksFit) : (s.agree fate f).2.linksFit := by
  unfold State.agree
  split
  exacts [.iteSnd h h.inc, h.inc]

theorem State.linksFit.followCopy {b hc f h stx} (hs : s.linksFit) : (s.followCopy b hc f h stx).linksFit :=
  (hs.ownFate.agree.dropCand.when fun hs => hs.inc).admitAt.afterAdmit

theorem State.linksFit.followItem {i r h leaf iseq} (hs : s.linksFit) : (s.followItem i r h leaf iseq).linksFit :=
  hs.wr.admitAt.ite hs.copyBuilt.ownFate.agree.wr.admitAt.afterAdmit

theorem State.linksFit.matchLocal {i} (h : s.linksFit) : (s.matchLocal i).linksFit :=
  h.ite (by split; exacts [h.dropCand.congr (by with_reducible rfl), h])

theorem State.linksFit.followRefuse {leaf iseq} (h : s.linksFit) : (s.followRefuse leaf iseq).linksFit := by
  unfold State.followRefuse
  split
  case h_1 hu =>
    dsimp only
    split
    exacts [(h.ownCopy hu).ownFate.inc.dropCand, (h.ownCopy hu).ownFate.dropCand]
  case h_2 => exact h

theorem State.linksFit.followResolve {code q h} (hs : s.linksFit) : (s.followResolve code q h).linksFit := by
  unfold State.followResolve
  split
  exacts [hs.settleSent.ite (hs.when fun hs => hs.inc).resolve, hs]

theorem State.linksFit.followPlace {q h after} (hs : s.linksFit) : (s.followPlace q h after).linksFit := by
  unfold State.followPlace
  split
  exacts [hs.setQueue, hs]

theorem State.linksFit.followTimer {kind p arg} (h : s.linksFit) : (s.followTimer kind p arg).linksFit := by
  unfold State.followTimer
  split
  · exact (h.congr (by rfl)).mirrorKeys
  · exact h.boundary
  · split
    · split
      exacts [h.settleSent, h.resolve]
    · exact h

theorem State.linksFit.followQcopy {q h after i} (hs : s.linksFit) : (s.followQcopy q h after i).linksFit := by
  unfold State.followQcopy
  extract_lets src s1 pol
  have h1 : s1.linksFit := by
    unfold s1
    split
    exacts [(hs.congr (by rfl)).putItem.takeCells, hs]
  clear_value s1
  split
  exacts [h1.mkRef.enqAt, h1]

theorem State.linksFit.followDecide {out g sel} (h : s.linksFit) : (s.followDecide out g sel).linksFit := by
  unfold State.followDecide
  split
  · exact h
  · extract_lets gr own same s1 s2
    have h1 : s1.linksFit := h.when fun h => h.inc
    clear_value s1
    have h2 : s2.linksFit := h1.inc.ite (h1.inc.ite (h1.inc.ite (h1.inc.ite h1)))
    exact h2.setRound

theorem State.linksFit.followClose {cause g live} (h : s.linksFit) : (s.followClose cause g live).linksFit := by
  unfold State.followClose
  split
  · exact h
  · extract_lets gr s1 s2 s3
    have h3 : s3.linksFit := (h.when fun h => h.inc).closeRound.when fun h => h.wr
    split
    exacts [h3.openRound, h3]

theorem State.linksFit.followCtrl {kind i ns sec} (h : s.linksFit) : (s.followCtrl kind i ns sec).linksFit := by
  unfold State.followCtrl
  split
  exacts [h.quarStart.quarEntry, h.quarStart, h.quarEnd, h.quarEnd, h.forceMember, h.forceMember, h]

theorem State.linksFit.followCommits {l} (h : s.linksFit) : (s.followCommits l).linksFit :=
  (h.each fun h => h.each fun h => h.setWord).inc.commitEffect

theorem State.linksFit.unguarded {page} {f : State → State} (h : s.linksFit)
    (hf : ∀ {s : State}, s.linksFit → (f s).linksFit) : (s.unguarded page f).linksFit :=
  (hf h.wr.wr.wr).wr.wr.wr

theorem State.linksFit.deltaPage {a w} (h : s.linksFit) : (s.deltaPage a w).linksFit := by
  unfold State.deltaPage
  refine (h.wrB.when fun h => h.clearHeader).ite (.ite (h.unguarded fun h => ?_)
    ((h.unguarded fun h => h.ingestCtrs).ite ((h.unguarded fun h => h.flowCtrs).ite ((h.unguarded fun h => h.groupCtrs).ite
      ((h.unguarded fun h => h.queueCtrs.ite h.dispCtrs).ite (h.axisCap.ite ?_))))))
  · split
    exacts [h.pageCtrs, h]
  · split
    exacts [h.axCommit, h.writeWord.getD h]

theorem State.linksFit.deltaWord {a w} (h : s.linksFit) : (s.deltaWord a w).linksFit := by
  unfold State.deltaWord
  refine (h.congr (by rfl)).ite (h.deltaPage.ite ?_)
  split
  · exact h.shadowPut
  · exact h.ingestWrite.ite (h.lportCommit.ite (h.qlimWrite.ite (h.slotWord.ite (h.portMapSet.ite (h.writeWord.getD h)))))

theorem State.linksFit.followDelta {off size data atH} (h : s.linksFit) : (s.followDelta off size data atH).linksFit := by
  unfold State.followDelta
  split
  exacts [h.congr (by rfl), (h.deltaWord.ite h).deltaWord]

theorem State.linksFit.followMark {kind} (h : s.linksFit) : (s.followMark kind).linksFit := by
  unfold State.followMark
  split
  exacts [h.wr.inc.raise.ite h, h.congr (by rfl), h.becomeActive, h]

theorem State.linksFit.passRecs {n} (h : s.linksFit) : (s.passRecs n).linksFit := h.congr rfl

theorem State.linksFit.followAdmit {stx leaf hc iseq f i} (h : s.linksFit) :
    OptFit (s.followAdmit stx leaf hc iseq f i) := by
  unfold State.followAdmit
  extract_lets sx
  clear_value sx
  split
  · exact .absent
  · dsimp only
    split
    case h_1 hu => exact (h.ownCopy hu).passRecs.followCopy.present
    case h_2 => exact .map fun _ => (h.congr (by rfl)).passRecs.followItem

theorem State.linksFit.applyOne (h : s.linksFit) : OptFit (s.applyOne) := by
  unfold State.applyOne
  split
  · exact .absent
  · extract_lets go
    have hgo : ∀ {f : State → State}, (∀ {s : State}, s.linksFit → (f s).linksFit) → OptFit (go f) :=
      fun hf => (hf h.passRecs).present
    clear_value go
    split
    · exact h.followAdmit
    · exact hgo fun h => h
    · exact hgo fun h => h.matchLocal.followItem
    · exact .ite (hgo fun h => h) (.ite .absent (hgo fun h => h.followRefuse))
    · exact hgo fun h => h.followResolve
    · exact hgo fun h => h.followPlace
    · exact hgo fun h => h.followTimer
    · exact hgo fun h => h.followDecide
    · exact hgo fun h => h.followClose
    · exact hgo fun h => h.followCtrl
    · exact .map fun _ => h.passRecs.followCommits
    · exact hgo fun h => h.followDelta
    · exact hgo fun h => h.followMark
    · exact hgo fun h => h.followQcopy
    · exact hgo fun h => h.ite h.leaveStep

theorem State.linksFit.applyN {n} (h : s.linksFit) : (s.applyN n).linksFit := by
  induction n generalizing s with
  | zero => exact h
  | succ n ih =>
    unfold State.applyN
    refine h.ite ?_
    split
    case h_1 u hu => exact ih (h.applyOne u hu)
    case h_2 => exact h

theorem State.linksFit.applyLog (h : s.linksFit) : s.applyLog.linksFit := h.applyN.sendLanes.ite h.applyN

theorem State.linksFit.takeRecs {first recs} (h : s.linksFit) : (s.takeRecs first recs).linksFit :=
  h.ite (h.congr (by rfl)).applyLog

theorem State.linksFit.execLogFrame {t lane lseq good firstLpos recs} (h : s.linksFit) :
    AnswersFit (execLogFrame t lane lseq good firstLpos recs s) :=
  h.happen fun h => h.lanesIn fun h => h.takeRecs

theorem State.linksFit.execDispatch {t anvil port} (h : s.linksFit) : AnswersFit (execDispatch t anvil port s) :=
  h.happen fun h => h.dispatch.applyLog.ite h.dispatch

theorem State.linksFit.fetchLate (h : s.linksFit) : s.fetchLate.linksFit := by
  unfold State.fetchLate
  refine h.ite ?_
  dsimp only
  split
  exacts [(h.applyLog.inc.sendLanes.congr (by with_reducible rfl)).ite h.applyLog, h.applyLog]

theorem State.linksFit.execFetchTimeout {t} (h : s.linksFit) : AnswersFit (execFetchTimeout t s) :=
  h.happen fun h => h.fetchLate

theorem State.linksFit.bulkStart {p0} (h : s.linksFit) : (s.bulkStart p0).linksFit := by
  unfold State.bulkStart
  extract_lets s1 src s2 s3 s4
  have h1 : s1.linksFit := h.each fun h => h.setQueue
  clear_value s1
  have h2 : s2.linksFit := h1.congr rfl
  clear_value s2
  have h3 : s3.linksFit := h2.setCells.mirrorKeys
  clear_value s3
  exact h3.congr rfl

theorem State.linksFit.bulkPart {b} (h : s.linksFit) : (s.bulkPart b).linksFit := by
  unfold State.bulkPart
  split
  · exact h.bulkStart.ite h
  · exact (h.congr (by rfl)).ite h
  · exact h.setRound.ite h
  · exact h.setLed.ite h
  · exact (h.congr (by rfl)).mirrorKeys.ite h
  · exact (h.congr (by rfl)).ite h
  · exact (h.congr (by rfl)).ite h
  · exact (h.congr (by rfl)).ite h
  · exact h.followQcopy.ite h
  · exact h

theorem State.linksFit.takeBulk {parts} (h : s.linksFit) : (s.takeBulk parts).linksFit :=
  (h.each fun h => h.bulkPart).applyLog.ite (h.each fun h => h.bulkPart)

theorem State.linksFit.execBulkFrame {t lane lseq good parts} (h : s.linksFit) :
    AnswersFit (execBulkFrame t lane lseq good parts s) :=
  h.happen fun h => h.lanesIn fun h => h.takeBulk

end Sys2Proof.Machine
end

section
/-! PROOF of O5: every command, and so every step, keeps the frame numbers within their 16 bits (R196, R243). -/

namespace Sys2Proof.Machine

variable {s : State}

/-- Every command answers a state whose frame numbers fit. -/
theorem answersFit_exec (h : s.linksFit) (i : Instr) : AnswersFit (exec i s) :=
  match i with
  | .registerWrite .. => h.execRegisterWrite
  | .pgStatErrorClear .. => h.execPgStatErrorClear
  | .pgEvtClear .. => h.execPgEvtClear
  | .pgEvtEnWrite .. => h.execPgEvtEnWrite
  | .pageLock .. => h.execPageLock
  | .pageUnlock .. => h.execPageUnlock
  | .enableWrite .. => h.execEnableWrite
  | .softReset .. => h.execSoftReset
  | .softResetDone .. => h.execSoftResetDone
  | .blockFreeze .. => h.execBlockFreeze
  | .testMode .. => h.execTestMode
  | .unsupportedAccess .. => h.execUnsupportedAccess
  | .holeAccess .. => h.execHoleAccess
  | .poisonedWrite .. => h.execPoisonedWrite
  | .powerOn .. => h.execPowerOn
  | .resetPin .. => h.execResetPin
  | .supplyReset .. => h.execSupplyReset
  | .devrstArm .. => h.execDevrstArm
  | .devrstArmExpiry .. => h.execDevrstArmExpiry
  | .deviceSrst .. => h.execDeviceSrst
  | .resetRelease .. => h.execResetRelease
  | .bootStageDone .. => h.execBootStageDone
  | .bootGo .. => h.execBootGo
  | .cellarChannelTrained .. => h.execCellarChannelTrained
  | .cellarInitDone .. => h.execCellarInitDone
  | .wipeArm .. => h.execWipeArm
  | .wipeArmExpiry .. => h.execWipeArmExpiry
  | .wipeGo .. => h.execWipeGo
  | .commit .. => h.execCommit
  | .commitTaken .. => h.execCommitTaken
  | .commitWritten .. => h.execCommitWritten
  | .sleep .. => h.execSleep
  | .sleepPowerOff .. => h.execSleepPowerOff
  | .wakeNInput .. => h.execWakeNInput
  | .wakeTimer .. => h.execWakeTimer
  | .wakePowerUp .. => h.execWakePowerUp
  | .powerDown .. => h.execPowerDown
  | .powerDownDone .. => h.execPowerDownDone
  | .powerUp .. => h.execPowerUp
  | .testGo .. => h.execTestGo
  | .testStart .. => h.execTestStart
  | .testCancel .. => h.execTestCancel
  | .testAbort .. => h.execTestAbort
  | .testDurationEnd .. => h.execTestDurationEnd
  | .testAck .. => h.execTestAck
  | .tfClr .. => h.execTfClr
  | .larderScrubPass .. => h.execLarderScrubPass
  | .hostInterfaceReset .. => h.execHostInterfaceReset
  | .msixHoldoffEnd .. => h.execMsixHoldoffEnd
  | .msixUnmask .. => h.execMsixUnmask
  | .popRead .. => h.execPopRead
  | .ringEnable .. => h.execRingEnable
  | .txRingDoorbell .. => h.execTxRingDoorbell
  | .rxRingDoorbell .. => h.execRxRingDoorbell
  | .descriptorFetchDone .. => h.execDescriptorFetchDone
  | .bufferFetchDone .. => h.execBufferFetchDone
  | .fetchError .. => h.execFetchError
  | .rawFrameSent .. => h.execRawFrameSent
  | .raGo .. => h.execRaGo
  | .raAck .. => h.execRaAck
  | .uartCharacter .. => h.execUartCharacter
  | .ictoTimeout .. => h.execIctoTimeout
  | .silenceTimeout .. => h.execSilenceTimeout
  | .ingestPortCommit .. => h.execIngestPortCommit
  | .sendBreak .. => h.execSendBreak
  | .breakEnd .. => h.execBreakEnd
  | .deHoldEnd .. => h.execDeHoldEnd
  | .dispatch .. => h.execDispatch
  | .goldenItem .. => h.execGoldenItem
  | .goldFailedClear .. => h.execGoldFailedClear
  | .admitItem .. => h.execAdmitItem
  | .roundExpiry .. => h.execRoundExpiry
  | .forceOut .. => h.execForceOut
  | .forceIn .. => h.execForceIn
  | .flCommit .. => h.execFlCommit
  | .rlCommit .. => h.execRlCommit
  | .gcCommit .. => h.execGcCommit
  | .sbCommit .. => h.execSbCommit
  | .mgCommit .. => h.execMgCommit
  | .flowShadowSwap .. => h.execFlowShadowSwap
  | .ruleShadowSwap .. => h.execRuleShadowSwap
  | .concShadowSwap .. => h.execConcShadowSwap
  | .bellShadowSwap .. => h.execBellShadowSwap
  | .ringShadowSwap .. => h.execRingShadowSwap
  | .tableSwapDone .. => h.execTableSwapDone
  | .quarRelease .. => h.execQuarRelease
  | .quarEnter .. => h.execQuarEnter
  | .release .. => h.execRelease
  | .itemTransmitted .. => h.execItemTransmitted
  | .alignedReleaseTime .. => h.execAlignedReleaseTime
  | .newestHoldEnd .. => h.execNewestHoldEnd
  | .deadlineExpiry .. => h.execDeadlineExpiry
  | .classBoundExpiry .. => h.execClassBoundExpiry
  | .statusBoundary .. => h.execStatusBoundary
  | .listenerPortCommit .. => h.execListenerPortCommit
  | .qflush .. => h.execQflush
  | .qflushComplete .. => h.execQflushComplete
  | .qlimWrite .. => h.execQlimWrite
  | .spillWriteDone .. => h.execSpillWriteDone
  | .spillFetchDone .. => h.execSpillFetchDone
  | .journalWriteDone .. => h.execJournalWriteDone
  | .journalBlockClose .. => h.execJournalBlockClose
  | .journalFreeze .. => h.execJournalFreeze
  | .freezePostEnd .. => h.execFreezePostEnd
  | .unfreeze .. => h.execUnfreeze
  | .msUpdate .. => h.execMsUpdate
  | .ppsInputEdge .. => h.execPpsInputEdge
  | .ppsMiss .. => h.execPpsMiss
  | .smpGo .. => h.execSmpGo
  | .domainMissTimeout .. => h.execDomainMissTimeout
  | .dreset .. => h.execDreset
  | .setGo .. => h.execSetGo
  | .stepGo .. => h.execStepGo
  | .timeCap .. => h.execTimeCap
  | .leap .. => h.execLeap
  | .ppsOutputPulse .. => h.execPpsOutputPulse
  | .timeSyncSend .. => h.execTimeSyncSend
  | .axisStateSend .. => h.execAxisStateSend
  | .encoderCount .. => h.execEncoderCount
  | .encoderIndex .. => h.execEncoderIndex
  | .axisStill .. => h.execAxisStill
  | .axisEdges .. => h.execAxisEdges
  | .axisConfigCommit .. => h.execAxisConfigCommit
  | .axisCap .. => h.execAxisCap
  | .slotWrite .. => h.execSlotWrite
  | .slotFire .. => h.execSlotFire
  | .signalDetect .. => h.execSignalDetect
  | .blockLockTimeout .. => h.execBlockLockTimeout
  | .trainSend .. => h.execTrainSend
  | .trainFrame .. => h.execTrainFrame
  | .helloSend .. => h.execHelloSend
  | .helloFrame .. => h.execHelloFrame
  | .lossOfLock .. => h.execLossOfLock
  | .adminDown .. => h.execAdminDown
  | .retrain .. => h.execRetrain
  | .dataFrame .. => h.execDataFrame
  | .ackFrame .. => h.execAckFrame
  | .nakFrame .. => h.execNakFrame
  | .replayTimeout .. => h.execReplayTimeout
  | .creditFrame .. => h.execCreditFrame
  | .creditSend .. => h.execCreditSend
  | .probeSend .. => h.execProbeSend
  | .probeFrame .. => h.execProbeFrame
  | .packetReceive .. => h.execPacketReceive
  | .itemIn .. => h.execItemIn
  | .iseqTimeout .. => h.execIseqTimeout
  | .linkDownSig .. => h.execLinkDownSig
  | .linkUpSig .. => h.execLinkUpSig
  | .leafReset .. => h.execLeafReset
  | .interruptSig .. => h.execInterruptSig
  | .lineCountsSig .. => h.execLineCountsSig
  | .sigHoldTimeout .. => h.execSigHoldTimeout
  | .hubBeatSend .. => h.execHubBeatSend
  | .hubBeatRx .. => h.execHubBeatRx
  | .beatAckRx .. => h.execBeatAckRx
  | .discoverSend .. => h.execDiscoverSend
  | .discoverReturn .. => h.execDiscoverReturn
  | .discoverTimeout .. => h.execDiscoverTimeout
  | .topoGo .. => h.execTopoGo
  | .rdReqRx .. => h.execRdReqRx
  | .wrReqRx .. => h.execWrReqRx
  | .cplRx .. => h.execCplRx
  | .cplTimeout .. => h.execCplTimeout
  | .portMapWrite .. => h.execPortMapWrite
  | .mbankSwitch .. => h.execMbankSwitch
  | .beatSend .. => h.execBeatSend
  | .beatRx .. => h.execBeatRx
  | .pathTimeout .. => h.execPathTimeout
  | .roleDecision .. => h.execRoleDecision
  | .quorumCheck .. => h.execQuorumCheck
  | .logFrame .. => h.execLogFrame
  | .lackFrame .. => h.execLackFrame
  | .logTimeout .. => h.execLogTimeout
  | .fetchTimeout .. => h.execFetchTimeout
  | .fetchFrame .. => h.execFetchFrame
  | .bulkFrame .. => h.execBulkFrame
  | .drainTimeout .. => h.execDrainTimeout
  | .localHoldExpiry .. => h.execLocalHoldExpiry
  | .timeXferSend .. => h.execTimeXferSend
  | .timeXfer .. => h.execTimeXfer
  | .healthFault .. => h.execHealthFault
  | .relinquish .. => h.execRelinquish
  | .takeover .. => h.execTakeover
  | .busHoldEnd .. => h.execBusHoldEnd
  | .seal .. => h.execSeal
  | .rejoin .. => h.execRejoin
  | .forceActive .. => h.execForceActive
  | .handover .. => h.execHandover
  | .handoverDrained .. => h.execHandoverDrained
  | .canFrameRx .. => h.execCanFrameRx
  | .canFrameTxDone .. => h.execCanFrameTxDone
  | .canAttemptLost .. => h.execCanAttemptLost
  | .canSubmit .. => h.execCanSubmit
  | .canCancel .. => h.execCanCancel
  | .canAck .. => h.execCanAck
  | .canConfigCommit .. => h.execCanConfigCommit
  | .canIntegration .. => h.execCanIntegration
  | .canRecover .. => h.execCanRecover
  | .busOffRecovery .. => h.execBusOffRecovery
  | .vnEnable .. => h.execVnEnable
  | .addrClaimTimeout .. => h.execAddrClaimTimeout
  | .fpTimeout .. => h.execFpTimeout
  | .tpTimeout .. => h.execTpTimeout
  | .bamGap .. => h.execBamGap
  | .canSleepEntry .. => h.execCanSleepEntry
  | .canWake .. => h.execCanWake
  | .ethFrameRx .. => h.execEthFrameRx
  | .ethLinkUp .. => h.execEthLinkUp
  | .ethLinkDown .. => h.execEthLinkDown
  | .groupJoin .. => h.execGroupJoin
  | .tongGo .. => h.execTongGo
  | .tongAwait .. => h.execTongAwait
  | .tongAwaitDone .. => h.execTongAwaitDone
  | .tongPins .. => h.execTongPins
  | .tongLoad .. => h.execTongLoad
  | .tongAlu .. => h.execTongAlu
  | .tongTimer .. => h.execTongTimer
  | .tongShift .. => h.execTongShift
  | .tongFetch .. => h.execTongFetch
  | .tongStore .. => h.execTongStore
  | .stallEnd .. => h.execStallEnd
  | .tongLut .. => h.execTongLut
  | .tongFlag .. => h.execTongFlag
  | .engineEnable .. => h.execEngineEnable
  | .engineDisable .. => h.execEngineDisable
  | .grpEnSet .. => h.execGrpEnSet
  | .grpEnClr .. => h.execGrpEnClr
  | .grpClkrst .. => h.execGrpClkrst
  | .tongShadowSwap .. => h.execTongShadowSwap
  | .engineBankMove .. => h.execEngineBankMove
  | .swapTimeout .. => h.execSwapTimeout
  | .tongForce .. => h.execTongForce
  | .rxFlush .. => h.execRxFlush
  | .txFlush .. => h.execTxFlush
  | .channelOos .. => h.execChannelOos
  | .ueLimitExceeded .. => h.execUeLimitExceeded
  | .cellarScrub .. => h.execCellarScrub
  | .bar2Write .. => h.execBar2Write
  | .loadClear .. => h.execLoadClear
  | .derive .. => h.execDerive
  | .revoke .. => h.execRevoke
  | .erase .. => h.execErase
  | .newRoot .. => h.execNewRoot
  | .applyUpdate .. => h.execApplyUpdate
  | .attest .. => h.execAttest
  | .verifyImage .. => h.execVerifyImage
  | .commandDone .. => h.execCommandDone
  | .tamperAlarm .. => h.execTamperAlarm
  | .tampArm .. => h.execTampArm
  | .tampClr .. => h.execTampClr
  | .clearLock .. => h.execClearLock
  | .snap .. => h.execSnap
  | .clear .. => h.execClear
  | .psnap .. => h.execPsnap
  | .pclear .. => h.execPclear
  | .fsnap .. => h.execFsnap
  | .fclear .. => h.execFclear
  | .gsnap .. => h.execGsnap
  | .gclear .. => h.execGclear
  | .qsnap .. => h.execQsnap
  | .qclear .. => h.execQclear
  | .dispositionFsnap .. => h.execDispositionFsnap
  | .dispositionFclear .. => h.execDispositionFclear
  | .fifoFsnap .. => h.execFifoFsnap
  | .fifoFclear .. => h.execFifoFclear
  | .frameFsnap .. => h.execFrameFsnap
  | .frameFclear .. => h.execFrameFclear
  | .uartStartEdge .. => h.execUartStartEdge
  | .lineGoesHigh .. => h.execLineGoesHigh
  | .blockLock .. => h.execBlockLock
  | .checkerLock .. => h.execCheckerLock
  | .checkerLockLost .. => h.execCheckerLockLost
  | .supplyWarning .. => h.execSupplyWarning
  | .bankOutOfRange .. => h.execBankOutOfRange
  | .canWakeInSleep .. => h.execCanWakeInSleep
  | .jtagInstruction .. => h.execJtagInstruction
  | .deltaAtH .. => h.execDeltaAtH
  | .attemptStart .. => h.execAttemptStart
  | .alignedFetch .. => h.execAlignedFetch

/-- Settles O5: no function of the model but the sending and taking of frames writes a hop's numbers, and these count modulo
65536. -/
theorem stepsKeepLinkNumbersInRange : Obligations.StepsKeepLinkNumbersInRange := by
  rintro s u ⟨h, hu⟩
  unfold step at hu
  split at hu
  case h_1 =>
    cases hu
    exact h
  case h_2 c rest _ =>
    have hrest : { s with pending := rest }.linksFit := h.congr rfl
    exact answersFit_exec hrest c u hu

end Sys2Proof.Machine
end

section
/-! SUPPORT. Supply warnings, and the balls of the tongs lines as their bank or a JTAG instruction takes them, for O23 (R253,
R306, R429, R435, R441). -/

namespace Sys2Proof.Machine

variable {s u : State} {fs : List (Nat × Fld)}

/-! ### Clearing a bit, and bits of HEALTH (R253) -/

/-- The mask of `n` bits without bit `i` reads 1 at every other of its bits. -/
theorem testBit_maskBut {n i j : Nat} (hi : i < n) (hj : j < n) :
    (2 ^ n - 1 - 2 ^ i).testBit j = decide (j ≠ i) := by
  have hlt : 2 ^ i < 2 ^ n := Nat.pow_lt_pow_right (by decide) hi
  rw [Nat.sub_sub, Nat.add_comm, Nat.testBit_two_pow_sub_succ hlt, Nat.testBit_two_pow]
  simp [hj, eq_comm]

theorem State.testBit_setHealth {b : Nat} (hb : b < 12) (on : Bool) :
    ((s.setHealth b on).rd pgTWIN TWIN_HEALTH).testBit b = on := by
  have hmask : (4095 - 2 ^ b).testBit b = false := by simpa using testBit_maskBut (n := 12) hb hb
  rw [State.setHealth, State.rd_wr_same, Nat.testBit_mod_two_pow, decide_eq_true (show b < TWIN_HEALTH.width from hb)]
  cases on with
  | true => simp
  | false => simp [hmask]

theorem State.rd_setHealth_ne {b n : Nat} {f : Fld} {on : Bool} (h : fldKey b f ≠ fldKey pgTWIN TWIN_HEALTH) :
    (s.setHealth n on).rd b f = s.rd b f := State.rd_wr_ne s h

/-! ### Supply warnings (R429) -/

/-- The warning bits `w` after a rail crossed its level. -/
def warnBits (w rail : Nat) (low : Bool) : Nat := if low then w ||| 2 ^ rail else w &&& (63 - 2 ^ rail)

theorem testBit_warnBits {w rail b : Nat} {low : Bool} (hr : rail < 6) (hb : b < 6) :
    (warnBits w rail low).testBit b = if b = rail then low else w.testBit b := by
  unfold warnBits
  cases low with
  | true =>
    rw [if_pos rfl, Nat.testBit_or, Nat.testBit_two_pow]
    by_cases h : b = rail
    · simp [h]
    · simp [h, Ne.symm h]
  | false =>
    have hmask : (63 - 2 ^ rail).testBit b = decide (b ≠ rail) := testBit_maskBut (n := 6) hr hb
    rw [if_neg Bool.false_ne_true, Nat.testBit_and, hmask]
    by_cases h : b = rail <;> simp [h]

theorem warnBits_lt {w rail : Nat} {low : Bool} (hr : rail < 6) (hw : w < 64) : warnBits w rail low < 64 := by
  unfold warnBits
  split
  · exact Nat.or_lt_two_pow (n := 6) hw (Nat.pow_lt_pow_right (by decide) hr)
  · exact Nat.lt_of_le_of_lt Nat.and_le_left hw

/-- What a crossing does that leaves the warning bits `w`. -/
def supplyWarned (s : State) (w : Nat) : State :=
  (((s.wr pgPWR PWR_SUP_WARNB w).inc pgPWR PWR_C_SUP_WARNS).raise 2 0).setHealth 1 (w != 0)

theorem State.supplyWarn_crosses {rail : Nat} {low : Bool} (h : (s.rd pgPWR PWR_SUP_WARNB).testBit rail = !low) :
    s.supplyWarn rail low = supplyWarned s (warnBits (s.rd pgPWR PWR_SUP_WARNB) rail low) := by
  unfold State.supplyWarn
  rw [if_neg (by rw [h]; cases low <;> decide)]
  rfl

theorem frame_supplyWarned (s : State) (w : Nat) :
    Frame [(pgPWR, PWR_SUP_WARNB), (pgPWR, PWR_C_SUP_WARNS), (pgTWIN, TWIN_HEALTH)] [2] s (supplyWarned s w) :=
  frame_setHealth (frame_raise (frame_inc (frame_wr (frame_refl _ _ s) (by simp)) (by simp)) (by simp)) (by simp)

theorem rd_warnb_supplyWarned {w : Nat} (hw : w < 64) : (supplyWarned s w).rd pgPWR PWR_SUP_WARNB = w := by
  rw [supplyWarned, State.rd_setHealth_ne (by decide), State.rd_raise (by decide), State.rd_inc_ne (by decide),
    State.rd_wr_same]
  exact Nat.mod_eq_of_lt hw

theorem rd_warns_supplyWarned (w : Nat) :
    (supplyWarned s w).rd pgPWR PWR_C_SUP_WARNS = (s.rd pgPWR PWR_C_SUP_WARNS + 1) % 2 ^ 64 := by
  rw [supplyWarned, State.rd_setHealth_ne (by decide), State.rd_raise (by decide), State.rd_inc_same,
    State.rd_wr_ne _ (by decide)]

theorem pends_supplyWarned (w : Nat) : (supplyWarned s w).pends 2 0 = true :=
  pends_wr (by decide) (pends_raise_self (by decide) (by decide))

theorem exec_supplyWarning_crosses {rail : Nat} {low : Bool} (t : Nat) (hr : rail < 6)
    (hcross : (s.rd pgPWR PWR_SUP_WARNB).testBit rail = !low) :
    ∃ u, exec (.supplyWarning t rail low) s = .next u ∧
      Frame [(pgPWR, PWR_SUP_WARNB), (pgPWR, PWR_C_SUP_WARNS), (pgTWIN, TWIN_HEALTH)] [2] (s.at t) u ∧
      (∀ b : Nat, b < 6 → (u.rd pgPWR PWR_SUP_WARNB).testBit b =
        (if b = rail then low else (s.rd pgPWR PWR_SUP_WARNB).testBit b)) ∧
      u.rd pgPWR PWR_C_SUP_WARNS = (s.rd pgPWR PWR_C_SUP_WARNS + 1) % 2 ^ 64 ∧ u.pends 2 0 = true ∧
      (u.rd pgTWIN TWIN_HEALTH).testBit 1 = (u.rd pgPWR PWR_SUP_WARNB != 0) := by
  have hwarn : (s.at t).supplyWarn rail low =
      supplyWarned (s.at t) (warnBits (s.rd pgPWR PWR_SUP_WARNB) rail low) := State.supplyWarn_crosses hcross
  have hbits := rd_warnb_supplyWarned (s := s.at t) (warnBits_lt (low := low) hr (s.rd_lt pgPWR PWR_SUP_WARNB))
  have hframe := frame_supplyWarned (s.at t) (warnBits (s.rd pgPWR PWR_SUP_WARNB) rail low)
  rw [exec_supplyWarning, execSupplyWarning, Nat.mod_eq_of_lt hr]
  refine ⟨_, State.happen_eq s hwarn hframe.pending hframe.time, hframe, fun b hb => ?_, rd_warns_supplyWarned _,
    pends_supplyWarned _, ?_⟩
  · rw [hbits, testBit_warnBits hr hb]
  · rw [hbits]
    exact State.testBit_setHealth (by decide) _

/-! ### Lines and their balls (R306, R435, R441) -/

/-- `u` is `s` but for the fields listed, the tongs' own state and what left the device. -/
def PinFrame (fs : List (Nat × Fld)) (s u : State) : Prop := Frame fs [] s { u with tong := s.tong, out := s.out }

/-- The fields that show which lines drive their balls. -/
def drivingFields : List (Nat × Fld) := (List.range 64).map (fun l => (pgTONG 0, lnF TONG_LN_DRIVING l))

theorem PinFrame.pinSync {l h : Nat} (hu : PinFrame fs s u) (hm : (pgTONG 0, lnF TONG_LN_DRIVING l) ∈ fs) :
    PinFrame fs s (u.pinSync l h) := by
  have hshown : PinFrame fs s (u.wrB (pgTONG 0) (lnF TONG_LN_DRIVING l) (u.lineDrives l)) :=
    frame_wrB (u := { u with tong := s.tong, out := s.out }) hu hm
  unfold State.pinSync
  dsimp only
  split <;> exact hshown

theorem PinFrame.each_pinSync {L : List Nat} (hL : ∀ l ∈ L, (pgTONG 0, lnF TONG_LN_DRIVING l) ∈ fs) :
    ∀ u, PinFrame fs s u → PinFrame fs s (u.each L (fun s l => s.pinSync l s.time.h)) := by
  induction L with
  | nil => exact fun _ hu => hu
  | cons l L ih =>
    intro u hu
    obtain ⟨hl, hL⟩ := List.forall_mem_cons.1 hL
    exact ih hL _ (hu.pinSync hl)

theorem PinFrame.pinSyncAll (hu : PinFrame fs s u) (hfs : ∀ x ∈ drivingFields, x ∈ fs) : PinFrame fs s u.pinSyncAll :=
  PinFrame.each_pinSync (fun _ hl => hfs _ (List.mem_map_of_mem hl)) u hu

theorem PinFrame.sys (h : PinFrame fs s u) : u.sys = s.sys := by
  obtain ⟨-, hsame, -⟩ := h
  exact (congrArg State.sys hsame :)

/-- What a change of lines leaves as it was. -/
theorem PinFrame.rest (h : PinFrame fs s u) : RegsBut fs [] s u ∧ u.del = s.del ∧ u.rx = s.rx ∧ u.cells = s.cells ∧
    u.ring = s.ring ∧ u.host = s.host ∧ u.can = s.can := by
  obtain ⟨hregs, hsame, -, hquiet⟩ := h
  exact ⟨hregs, (congrArg State.del hsame :), (congrArg State.rx hsame :), (congrArg State.cells hsame :),
    (congrArg State.ring hsame :), (hquiet rfl).1, (congrArg State.can hsame :)⟩

theorem PinFrame.pending (h : PinFrame fs s u) : u.pending = s.pending :=
  Frame.pending (u := { u with tong := s.tong, out := s.out }) h
theorem PinFrame.time (h : PinFrame fs s u) : u.time = s.time :=
  Frame.time (u := { u with tong := s.tong, out := s.out }) h
theorem PinFrame.rd {b : Nat} {f : Fld} (h : PinFrame fs s u) (hf : ∀ x ∈ fs, fldKey b f ≠ fldKey x.1 x.2) :
    u.rd b f = s.rd b f :=
  Frame.rd (u := { u with tong := s.tong, out := s.out }) h hf (by simp)

/-- A command whose effect beside the lines is on the device's own control state answers that effect. -/
theorem State.happen_pins {t : Nat} {g : State → State} {y : SysCtl} (hg : g (s.at t) = u)
    (h : PinFrame fs { s.at t with sys := y } u) : s.happen t g = .next u :=
  State.happen_eq s hg h.pending h.time

theorem State.emit_tong (s : State) (e : Emission) : (s.emit e).tong = s.tong := by
  unfold State.emit; split <;> rfl

/-- The balls of the lines are taken: by a JTAG instruction or with their I/O bank. -/
def ballsTaken (s : State) : Prop := s.sys.jtag = true ∨ s.sys.banksOff.testBit 2 = true

theorem State.lineBall_taken (h : ballsTaken s) (l : Nat) : s.lineBall l = none := by
  unfold State.lineBall
  rcases h with h | h <;> simp [h]

theorem ballsTaken_pinSync {l h : Nat} (ht : ballsTaken s) : ballsTaken (s.pinSync l h) := by
  have hsys : (s.pinSync l h).sys = s.sys :=
    (PinFrame.pinSync (fs := [(pgTONG 0, lnF TONG_LN_DRIVING l)]) (frame_refl _ _ s) List.mem_cons_self).sys
  unfold ballsTaken
  rwa [hsys]

/-- A line gives its ball what it has for it. -/
theorem State.balls_pinSync_same (s : State) (l h : Nat) : tabGet? (s.pinSync l h).tong.balls l = s.lineBall l := by
  unfold State.pinSync
  dsimp only
  split
  · exact Eq.symm ‹_›
  · rw [State.emit_tong]
    cases s.lineBall l with
    | none => exact tabGet?_tabDel_same
    | some v => exact tabGet?_tabPut_same

theorem State.balls_pinSync_ne (s : State) {l k : Nat} (hk : k ≠ l) (h : Nat) :
    tabGet? (s.pinSync l h).tong.balls k = tabGet? s.tong.balls k := by
  unfold State.pinSync
  dsimp only
  split
  · rfl
  · rw [State.emit_tong]
    cases s.lineBall l with
    | none => exact tabGet?_tabDel_ne hk
    | some v => exact tabGet?_tabPut_ne hk

/-- Lines whose balls are taken leave them at high impedance. -/
theorem State.balls_each_pinSync {k : Nat} (L : List Nat) :
    ∀ s : State, ballsTaken s → k ∈ L ∨ tabGet? s.tong.balls k = none →
      tabGet? (s.each L (fun s l => s.pinSync l s.time.h)).tong.balls k = none := by
  induction L with
  | nil => exact fun _ _ h => h.resolve_left List.not_mem_nil
  | cons l L ih =>
    intro s ht h
    refine ih _ (ballsTaken_pinSync ht) ?_
    by_cases hk : k = l
    · subst hk
      exact .inr ((s.balls_pinSync_same k _).trans (State.lineBall_taken ht k))
    · exact h.imp (fun hm => (List.mem_cons.1 hm).resolve_left hk) (s.balls_pinSync_ne hk _).trans

theorem State.balls_pinSyncAll_taken {l : Nat} (ht : ballsTaken s) (hl : l < 64) :
    tabGet? s.pinSyncAll.tong.balls l = none := by
  unfold State.pinSyncAll
  exact State.balls_each_pinSync (List.range 64) s ht (.inl (List.mem_range.2 hl))

/-! ### The commands that take balls (R435, R441) -/

/-- SUP_OK is none of the fields that show lines driving. -/
theorem supOk_ne_driving : ∀ x ∈ drivingFields, fldKey pgPWR PWR_SUP_OK ≠ fldKey x.1 x.2 := by
  simp only [drivingFields, List.forall_mem_map]
  intro l _
  simp only [fldKey, pgPWR, pgTONG, lnF, Fld.at]
  omega

/-- The control state with one more bank out of range. -/
def bankLost (s : State) (bank : Nat) : SysCtl := { s.sys with banksOff := s.sys.banksOff ||| 2 ^ bank }

theorem testBit_bankLost (s : State) (bank : Nat) : (bankLost s bank).banksOff.testBit bank = true := by
  simp [bankLost]

/-- A value cut to its bits 0 to 4 has no bit 5. -/
theorem testBit_five_and_31 (n m : Nat) : ((n &&& 31) % 2 ^ m).testBit 5 = false := by
  have h31 : Nat.testBit 31 5 = false := by decide
  rw [Nat.testBit_mod_two_pow, Nat.testBit_and, h31, Bool.and_false, Bool.and_false]

theorem exec_bankOutOfRange_of_lt {bank : Nat} (s : State) (t : Nat) (hb : bank < 4) :
    ∃ u, exec (.bankOutOfRange t bank) s = .next u ∧ u.sys = bankLost s bank ∧
      (u.rd pgPWR PWR_SUP_OK).testBit 5 = false ∧ RegsBut ([(pgPWR, PWR_SUP_OK)] ++ drivingFields) [] s u ∧
      u.del = s.del ∧ u.rx = s.rx ∧ u.cells = s.cells ∧ u.ring = s.ring ∧ u.host = s.host ∧ u.can = s.can ∧
      (bank = 2 → ∀ l : Nat, l < 64 → tabGet? u.tong.balls l = none) := by
  let v : State := { s.at t with sys := bankLost s bank }
  let w : State := v.wr pgPWR PWR_SUP_OK (s.rd pgPWR PWR_SUP_OK &&& 31)
  have hlost : PinFrame ([(pgPWR, PWR_SUP_OK)] ++ drivingFields) v w.pinSyncAll :=
    PinFrame.pinSyncAll (u := w) (frame_wr (frame_refl _ _ v) (by simp)) (fun _ h => List.mem_append_right _ h)
  have hpins : PinFrame drivingFields w w.pinSyncAll := PinFrame.pinSyncAll (frame_refl _ _ w) (fun _ h => h)
  have hok : w.pinSyncAll.rd pgPWR PWR_SUP_OK = (s.rd pgPWR PWR_SUP_OK &&& 31) % 2 ^ PWR_SUP_OK.width :=
    (hpins.rd supOk_ne_driving).trans (State.rd_wr_same _ _ _ _)
  obtain ⟨hregs, hdel, hrx, hcells, hring, hhost, hcan⟩ := hlost.rest
  rw [exec_bankOutOfRange, execBankOutOfRange, Nat.mod_eq_of_lt hb]
  refine ⟨w.pinSyncAll, State.happen_pins rfl hlost, hlost.sys, ?_, hregs, hdel, hrx, hcells, hring, hhost, hcan, ?_⟩
  · rw [hok]
    exact testBit_five_and_31 _ _
  · rintro rfl l hl
    have htaken : ballsTaken w := .inr (testBit_bankLost s 2)
    exact State.balls_pinSyncAll_taken htaken hl

/-- The control state after a JTAG instruction is loaded: EXTEST, CLAMP and HIGHZ take the balls. -/
def jtagLoaded (s : State) (instr : Nat) : SysCtl := { s.sys with jtag := decide (3 ≤ instr) }

theorem exec_jtagInstruction_of_lt {instr : Nat} (s : State) (t : Nat) (hi : instr < 6) :
    ∃ u, exec (.jtagInstruction t instr) s = .next u ∧
      (3 ≤ instr → ∀ l : Nat, l < 64 → tabGet? u.tong.balls l = none) ∧ u.sys = jtagLoaded s instr ∧
      RegsBut drivingFields [] s u ∧ u.del = s.del ∧ u.rx = s.rx ∧ u.cells = s.cells ∧ u.ring = s.ring ∧
      u.host = s.host ∧ u.can = s.can := by
  let v : State := { s.at t with sys := jtagLoaded s instr }
  have hpins : PinFrame drivingFields v v.pinSyncAll := PinFrame.pinSyncAll (frame_refl _ _ v) (fun _ h => h)
  rw [exec_jtagInstruction, execJtagInstruction, Nat.mod_eq_of_lt hi]
  refine ⟨v.pinSyncAll, State.happen_pins rfl hpins, fun h3 l hl => ?_, hpins.sys, hpins.rest⟩
  have htaken : ballsTaken v := .inl (decide_eq_true h3)
  exact State.balls_pinSyncAll_taken htaken hl

/-- Settles O23: a crossing is one change of the warning bits with its consequences, and each line whose ball is taken has
nothing for it. -/
theorem suppliesAndBoundaryScan : Obligations.SuppliesAndBoundaryScan := by
  unfold Obligations.SuppliesAndBoundaryScan
  exact ⟨fun s t rail low hr hcross _ => exec_supplyWarning_crosses t hr hcross,
    fun s t bank hb => exec_bankOutOfRange_of_lt s t hb, fun s t instr hi => exec_jtagInstruction_of_lt s t hi⟩

end Sys2Proof.Machine
end

section
/-! SUPPORT. The counterexamples to O45 and O46: error counts that ESTATE does not show, and a register cell wider than its
field. -/

namespace Sys2Proof.Machine

/-- A command's instant and its hold on the queue leave the registers as its act left them. -/
theorem State.happen_regs {s u : State} {t : Nat} {f : State → State} (h : s.happen t f = .next u) :
    u.regs = (f (s.at t)).regs := by
  cases h; rfl

/-! ### Error counts past bus-off -/

/-- CAN controller 3 in NORMAL with its ingest entry enabled: its transmit error count stands at 256, yet ESTATE says error
active. -/
def tecPastBusOff : State := wit205.setCtl 3 { canCtl1 with tec := 256 }

/-- A good frame's fault confinement finds the count past 255 and counts a bus-off. -/
theorem canRx_tecPastBusOff_busOffs :
    regLook ((tecPastBusOff.at 0).canRx 3 0 0 (zeros 8)).regs (fldKey (pgCAN 3) CAN_C_BUS_OFFS) = some 1 := by
  decide +kernel

/-- Refutes O45: its tenth clause has a good base frame write no counter of the controller's page but FRAMES_RX, yet the
good frame steps REC and fault confinement then judges both counts (R268), so a controller whose TEC is past 255 while ESTATE
is not bus-off goes bus-off and counts it. No hypothesis of the clause excludes `tecPastBusOff`, though every step that takes
TEC past 255 sets ESTATE as well. -/
theorem not_controllersSendAndHearFrames : ¬ Obligations.ControllersSendAndHearFrames := by
  unfold Obligations.ControllersSendAndHearFrames
  rintro ⟨-, -, -, -, -, -, -, -, -, hgood, -⟩
  obtain ⟨u, hu, -, -, -, -, hregs⟩ := hgood tecPastBusOff 0 3 0 (zeros 8) (by decide +kernel)
  have hkept : regLook u.regs (fldKey (pgCAN 3) CAN_C_BUS_OFFS) =
      regLook tecPastBusOff.regs (fldKey (pgCAN 3) CAN_C_BUS_OFFS) := hregs _ (by decide) (by decide)
  have hcounted : regLook u.regs (fldKey (pgCAN 3) CAN_C_BUS_OFFS) = some 1 := by
    rw [exec_canFrameRx, execCanFrameRx] at hu
    rw [State.happen_regs hu]
    exact canRx_tecPastBusOff_busOffs
  have hnone : regLook tecPastBusOff.regs (fldKey (pgCAN 3) CAN_C_BUS_OFFS) = none := by decide +kernel
  rw [hcounted, hnone] at hkept
  cases hkept

/-! ### A cell wider than its field -/

/-- Node 2 of CAN controller 3 is enabled. The cell of its 8-bit PREF_SA holds 333, which reads as 77. -/
def prefSaTooWide : State :=
  let s := ready.wr (pgCAN 3) (vnF CAN_VN_EN 2) 1
  { s with regs := regIns (fldKey (pgCAN 3) (vnF CAN_PREF_SA 2)) 333 s.regs }

/-- Writing the node's word with the preferred address it reads stores 77 in the cell. -/
theorem vnWrite_prefSaTooWide_cell :
    regLook ((prefSaTooWide.at 0).vnWrite 3 2 77).regs (fldKey (pgCAN 3) (vnF CAN_PREF_SA 2)) = some 77 := by
  decide +kernel

/-- Refutes O46: its tenth clause leaves PREF_SA out of the fields that clearing VN_EN may write, but the write of the node's
word stores every settable field of it again, and a frame compares the cells themselves. Where the cell held more than its
field's 8 bits, what is stored differs from what was there. No hypothesis of the clause excludes `prefSaTooWide`, though a
field write cuts its value to the field's width. -/
theorem not_controllersConfigureClaimAndSleep : ¬ Obligations.ControllersConfigureClaimAndSleep := by
  unfold Obligations.ControllersConfigureClaimAndSleep
  rintro ⟨-, -, -, -, -, -, -, -, -, hstop, -⟩
  have hreach : prefSaTooWide.reaches (0x20 + 3) false := by delta State.reaches; decide +kernel
  obtain ⟨u, hu, -, -, -, hframe⟩ := hstop prefSaTooWide 0 3 2 77
    ⟨by decide, by decide, by decide, hreach, by decide +kernel, by decide +kernel⟩
  have hkept : regLook u.regs (fldKey (pgCAN 3) (vnF CAN_PREF_SA 2)) =
      regLook prefSaTooWide.regs (fldKey (pgCAN 3) (vnF CAN_PREF_SA 2)) := hframe.1 _ (by decide) (by decide)
  have hstored : regLook u.regs (fldKey (pgCAN 3) (vnF CAN_PREF_SA 2)) = some 77 := by
    rw [exec_vnEnable, execVnEnable] at hu
    rw [State.happen_regs hu]
    exact vnWrite_prefSaTooWide_cell
  have hwide : regLook prefSaTooWide.regs (fldKey (pgCAN 3) (vnF CAN_PREF_SA 2)) = some 333 := by decide +kernel
  rw [hstored, hwide] at hkept
  exact absurd hkept (by decide)

end Sys2Proof.Machine
end

section
/-! SUPPORT. What an Ethernet port reads while frames are counted, candidates that arrive whole, and Ethernet ports put beside
a frame, for O47 (R39, R284, R285, R325). -/

namespace Sys2Proof.Machine

variable {s u : State} {fs : List (Nat × Fld)} {ps : List Nat} {e n t : Nat} {f : Fld} {c : Cand} {m : RxMeta}

theorem Frame.eth (h : Frame fs ps s u) : u.eth = s.eth := by rw [h.2.1]
theorem Frame.candNo (h : Frame fs ps s u) : u.candNo = s.candNo := by rw [h.2.1]
theorem RxFrame.eth (h : RxFrame fs s u) : u.eth = s.eth := Frame.eth (u := { u with rx := s.rx }) h
theorem RxFrame.candNo (h : RxFrame fs s u) : u.candNo = s.candNo := Frame.candNo (u := { u with rx := s.rx }) h

/-! ### A port's own state beside the registers -/

@[simp] theorem State.ethOf_setEth_same (s : State) (e : Nat) (x : EthPort) : (s.setEth e x).ethOf e = x := by
  rw [State.ethOf, State.setEth, tabGet?_tabPut_same, Option.getD_some]

theorem State.rd_setEth (s : State) (e : Nat) (x : EthPort) (b : Nat) (f : Fld) : (s.setEth e x).rd b f = s.rd b f := rfl

/-- A frame holds beside any state of the Ethernet ports that both sides share. -/
theorem frame_withEth {l : List (Nat × EthPort)} (h : Frame fs ps s u) :
    Frame fs ps { s with eth := l } { u with eth := l } := by
  obtain ⟨hregs, hu, hout, hquiet⟩ := h
  exact ⟨hregs, congrArg (fun v : State => { v with eth := l }) hu, hout, hquiet⟩

/-- What a frame says of `u` it says of `u` with a port's own state set, that state put back. -/
theorem frame_setEth {x : EthPort} (h : Frame fs ps s u) : Frame fs ps s { u.setEth e x with eth := s.eth } := by
  have hback : { u.setEth e x with eth := s.eth } = u := by rw [← h.eth]; rfl
  exact hback ▸ h

theorem pending_of_frame_withEth {l : List (Nat × EthPort)} (h : Frame fs ps s { u with eth := l }) :
    u.pending = s.pending := Frame.pending (u := { u with eth := l }) h

theorem time_of_frame_withEth {l : List (Nat × EthPort)} (h : Frame fs ps s { u with eth := l }) : u.time = s.time :=
  Frame.time (u := { u with eth := l }) h

/-! ### Counting a frame (R285) -/

/-- The frame counted, and its `n` bytes where the ingest entry is enabled. -/
def ethCounted (s : State) (e n : Nat) : State :=
  let s := s.inc (pgETH e) ETH_C_FRAMES_RX
  s.when (s.on (ingestAt (40 + e)) INGEST_RX_EN) (·.icAdd (40 + e) icBYTES n)

/-- The counters that every frame of a port with link may write. -/
def ethCounters (e : Nat) : List (Nat × Fld) := [(pgETH e, ETH_C_FRAMES_RX), (ingestCtrAt (40 + e), ctr icBYTES)]

theorem frame_ethCounted (s : State) (e n : Nat) : Frame (ethCounters e) [] s (ethCounted s e n) := by
  have hinc : Frame (ethCounters e) [] s (s.inc (pgETH e) ETH_C_FRAMES_RX) :=
    frame_inc (frame_refl _ _ s) (by simp [ethCounters])
  exact frame_when hinc (frame_add hinc (by simp [ethCounters]))

/-- Outside the counters of a port's page the page's fields lie apart from what counting a frame writes. -/
theorem ethKey_ne_counters (he : e < 2) (ho : f.off < 0x700 ∨ 0x808 ≤ f.off ∧ f.off < 0x1000) (hl : f.lo < 64) :
    ∀ x ∈ ethCounters e, fldKey (pgETH e) f ≠ fldKey x.1 x.2 := by
  simp only [ethCounters, List.forall_mem_cons, fldKey, pgETH, ingestCtrAt, ctr]
  refine ⟨?_, ?_, by simp⟩ <;> omega

theorem State.rd_ethCounted (he : e < 2) (ho : f.off < 0x700 ∨ 0x808 ≤ f.off ∧ f.off < 0x1000) (hl : f.lo < 64) :
    (ethCounted s e n).rd (pgETH e) f = s.rd (pgETH e) f :=
  (frame_ethCounted s e n).rd (ethKey_ne_counters he ho hl) (by simp)

theorem State.on_ethCounted (he : e < 2) (ho : f.off < 0x700 ∨ 0x808 ≤ f.off ∧ f.off < 0x1000) (hl : f.lo < 64) :
    (ethCounted s e n).on (pgETH e) f = s.on (pgETH e) f := congrArg (· == 1) (State.rd_ethCounted he ho hl)

/-- Below the counter windows only the port's page has a cell that counting a frame writes. -/
theorem State.rd_ethCounted_below {b : Nat} (hkey : fldKey b f < 8 * 0x400000)
    (hne : fldKey b f ≠ fldKey (pgETH e) ETH_C_FRAMES_RX) : (ethCounted s e n).rd b f = s.rd b f := by
  refine (frame_ethCounted s e n).rd ?_ (by simp)
  simp only [ethCounters, List.forall_mem_cons]
  refine ⟨hne, ?_, by simp⟩
  simp only [fldKey, ingestCtrAt] at hkey ⊢
  omega

theorem State.rd_framesRx_ethCounted (he : e < 2) :
    (ethCounted s e n).rd (pgETH e) ETH_C_FRAMES_RX = (s.rd (pgETH e) ETH_C_FRAMES_RX + 1) % 2 ^ 64 := by
  unfold ethCounted
  refine (State.when_keeps (State.rd · (pgETH e) ETH_C_FRAMES_RX) (State.rd_add_ne ?_)).trans State.rd_inc_same
  simp only [fldKey, pgETH, ingestCtrAt, ctr]
  omega

/-! ### A candidate that arrives whole (R39, R325) -/

/-- The receive side of a port after a candidate has been committed. -/
def rxCommitted (s : State) (c : Cand) : RxPort :=
  let r := s.rxOf c.port
  { r with wp := r.cp + c.words, cp := r.cp + c.words, openC := none, cands := r.cands ++ [{ c with id := s.candNo }] }

theorem State.commitCand_eq (s : State) (c : Cand) : s.commitCand c =
    (({ s with candNo := s.candNo + 1 } : State).setRx c.port (rxCommitted s c)).icInc c.port icCAND := rfl

theorem State.rxOf_commitCand (s : State) (c : Cand) : (s.commitCand c).rxOf c.port = rxCommitted s c := by
  rw [State.commitCand_eq, State.rxOf_icInc, State.rxOf_setRx]

theorem rxFrame_commitCand (s : State) (c : Cand) :
    RxFrame ((ingestCtrAt c.port, ctr icCAND) :: rxFields c.port) { s with candNo := s.candNo + 1 } (s.commitCand c) :=
  rxFrame_icInc (rxFrame_setRx (rxFrame_refl _) (fun _ h => List.mem_cons_of_mem _ h)) List.mem_cons_self

/-- Room in a receive FIFO depends on the receive sides alone. -/
theorem State.rxRoom_congr (h : u.rx = s.rx) (p w : Nat) : u.rxRoom p w = s.rxRoom p w := by
  unfold State.rxRoom State.poolUsed State.rxOf
  rw [h]

/-- The candidate that arrives whole at a port. -/
def wholeCand (s : State) (m : RxMeta) (src : CandSrc) (body : List Byte) : Cand :=
  { id := 0, port := m.port, src := src, remote := decide (64 ≤ m.port), body := body, cfg := s.portCfg m.port
    first := m.first, sent := m.first, fin := m.fin, ingest := s.time.h, born := s.time.clk, timeOk := m.timeOk, dom := m.dom
    path256 := m.path256, words := wordsOf body.length, poison := false, leaf := m.leaf, iseq := m.iseq, host := [] }

/-- An enabled port that runs and has room takes a candidate. -/
theorem State.giveCand_taken {src : CandSrc} {body : List Byte} (hen : s.on (ingestAt m.port) INGEST_RX_EN = true)
    (hdown : s.portDown m.port = false) (hroom : s.rxRoom m.port (wordsOf body.length) = true) :
    s.giveCand m src body = s.commitCand (wholeCand s m src body) := by
  have hcfg : (s.portCfg m.port).rxEn = true := hen
  simp only [State.giveCand, hcfg, hdown, Bool.not_true, Bool.or_self, Bool.false_eq_true, if_false]
  exact if_pos hroom

end Sys2Proof.Machine
end

section
/-! SUPPORT. A frame at an Ethernet port judged by its FCS, its length, PAUSE and MACsec, and its datagram taken, for O47 (R284
to R289). -/

namespace Sys2Proof.Machine

variable {s u : State} {e n ago first fin src dst : Nat} {frame ip pay body : List Byte} {good : Bool}

/-! ### The checks in their order (R285) -/

/-- The longest frame that the port takes, with its FCS: a VLAN tag is allowed on top (R285). -/
def ethLimit (s : State) (e : Nat) (frame : List Byte) : Nat :=
  s.rd (pgETH e) ETH_MAX_FRAME + if beAt frame 12 2 = 0x8100 then 4 else 0

/-- What becomes of a counted frame that passed FCS, length and PAUSE. -/
def ethAccepted (s : State) (e first fin : Nat) (frame : List Byte) : State :=
  if s.on (pgETH e) ETH_MACSEC_EN then
    match s.msVerify e frame with
    | (.pass f, s') => s'.ethUpper e first fin f
    | (.drop c key, s') => (s'.inc (pgETH e) c).when key (·.raise (0x18 + e) 4)
  else s.ethUpper e first fin frame

/-- What becomes of a counted frame: the first check that it fails counts it. -/
def ethChecked (s : State) (e ago : Nat) (good : Bool) (frame : List Byte) : State :=
  let first := s.ethIngress e (s.time.h - ago)
  let fin := first + (frame.length + 4) * s.byteTime10 e * nsU / 10
  if !good then s.inc (pgETH e) ETH_C_FCS_ERR
  else if frame.length + 4 < 64 then s.inc (pgETH e) ETH_C_RUNT
  else if ethLimit s e frame < frame.length + 4 then s.inc (pgETH e) ETH_C_OVERSIZE
  else if s.on (pgETH e) ETH_PAUSE_RX && isPause frame then s.takePause e frame
  else ethAccepted s e first fin frame

/-- A port that takes frames counts each and checks it. -/
theorem State.ethRx_hears (h : s.ethHears e) :
    s.ethRx e ago good frame = ethChecked (ethCounted s e (frame.length + 4)) e ago good frame := by
  obtain ⟨hmode, hlink, hdown, hreset⟩ := h
  unfold State.ethRx
  rw [if_neg (by simp [hmode, hlink, hdown, hreset])]
  rfl

theorem ethChecked_badFcs : ethChecked s e ago false frame = s.inc (pgETH e) ETH_C_FCS_ERR := rfl

theorem ethChecked_runt (hn : frame.length < 60) : ethChecked s e ago true frame = s.inc (pgETH e) ETH_C_RUNT := by
  unfold ethChecked
  simp only [Bool.not_true, Bool.false_eq_true, if_false]
  rw [if_pos (by omega)]

theorem ethChecked_oversize (hn : 60 ≤ frame.length) (hbig : ethLimit s e frame < frame.length + 4) :
    ethChecked s e ago true frame = s.inc (pgETH e) ETH_C_OVERSIZE := by
  unfold ethChecked
  simp only [Bool.not_true, Bool.false_eq_true, if_false]
  rw [if_neg (by omega), if_pos hbig]

/-- A frame whose FCS and length are right goes on to PAUSE and what follows. -/
theorem ethChecked_whole (hn : 60 ≤ frame.length) (hfit : frame.length + 4 ≤ s.rd (pgETH e) ETH_MAX_FRAME) :
    ethChecked s e ago true frame = if s.on (pgETH e) ETH_PAUSE_RX && isPause frame then s.takePause e frame
      else ethAccepted s e (s.ethIngress e (s.time.h - ago))
        (s.ethIngress e (s.time.h - ago) + (frame.length + 4) * s.byteTime10 e * nsU / 10) frame := by
  have hlimit : ¬ ethLimit s e frame < frame.length + 4 := by unfold ethLimit; omega
  unfold ethChecked
  simp only [Bool.not_true, Bool.false_eq_true, if_false]
  rw [if_neg (by omega), if_neg hlimit]

theorem ethChecked_noPause (hn : 60 ≤ frame.length) (hfit : frame.length + 4 ≤ s.rd (pgETH e) ETH_MAX_FRAME)
    (hpause : s.on (pgETH e) ETH_PAUSE_RX = false) :
    ∃ first fin, ethChecked s e ago true frame = ethAccepted s e first fin frame := by
  refine ⟨_, _, (ethChecked_whole hn hfit).trans (if_neg ?_)⟩
  simp [hpause]

/-! ### MACsec (R289) -/

theorem ethAccepted_plain (hms : s.on (pgETH e) ETH_MACSEC_EN = false) :
    ethAccepted s e first fin frame = s.ethUpper e first fin frame := by
  unfold ethAccepted
  rw [hms]
  rfl

/-- With VALIDATE 2 an unprotected frame is dropped. -/
theorem ethAccepted_unsecured (hms : s.on (pgETH e) ETH_MACSEC_EN = true) (hval : s.rd (pgETH e) ETH_VALIDATE = 2)
    (htype : beAt frame 12 2 ≠ 0x88E5) : ethAccepted s e first fin frame = s.inc (pgETH e) ETH_C_MS_UNSEC := by
  have hdrop : s.msVerify e frame = (.drop ETH_C_MS_UNSEC false, s) := by
    unfold State.msVerify
    exact (if_pos htype).trans (if_pos hval)
  unfold ethAccepted
  rw [hms, if_pos rfl, hdrop]
  rfl

/-! ### Frames for the port (R285) -/

/-- An untagged frame of no type that the Yileo takes is not for it, on a port with a VLAN and on one without. -/
theorem State.ethUpper_otherType (hraw : s.on (pgETH e) ETH_RAW_OTHER = false) (htag : beAt frame 12 2 ≠ 0x8100)
    (hptp : beAt frame 12 2 ≠ 0x88F7) (hip : beAt frame 12 2 ≠ 0x0800) :
    s.ethUpper e first fin frame = s.inc (pgETH e) ETH_C_NOT_FOR_US := by
  have hother : s.notForUs e first frame = s.inc (pgETH e) ETH_C_NOT_FOR_US := by
    unfold State.notForUs
    rw [hraw]
    rfl
  have htagged : (beAt frame 12 2 == 0x8100) = false := beq_eq_false_iff_ne.2 htag
  unfold State.ethUpper
  simp only [htagged, Bool.false_eq_true, if_false, hother, Nat.reduceSub, hptp, hip, beq_eq_false_iff_ne.2 hip,
    Bool.false_and, or_false, ne_eq, not_false_eq_true, true_or, if_true, ite_self]

/-- An untagged IPv4 packet without VLAN_EN that is sound and no PTP event goes to the IPv4 checks. -/
theorem State.ethUpper_ip (hvlan : s.on (pgETH e) ETH_VLAN_EN = false) (htype : beAt frame 12 2 = 0x0800)
    (hsound : ipSound (frame.drop 14) = true) (hptp : ptpUdp (frame.drop 14) = false) :
    s.ethUpper e first fin frame = s.ethIp e first fin frame (frame.drop 14) := by
  have hversion : leAt (frame.drop 14) 0 1 = 0x45 := by
    simp only [ipSound, Bool.and_eq_true, beq_iff_eq] at hsound
    exact hsound.1.1.1
  unfold State.ethUpper
  simp [hvlan, htype, hsound, hptp, hversion]

/-! ### Datagrams (R285, R286) -/

/-- The datagram's place in the candidate's record of where it came from. -/
def dgMeta (s : State) (e first fin : Nat) : RxMeta := ⟨40 + e, first, fin, true, s.rd pgTIME TIME_SEL_DOM, 0, 0, 0⟩

/-- A sound UDP datagram, whole, for one of the port's groups or its own address, is taken. -/
theorem State.ethIp_datagram (hparts : ipParts ip = (17, src, dst, pay)) (hwhole : beAt ip 6 2 % 16384 = 0)
    (hudp : udpSound pay = true) (hfor : s.dgForUs e dst (beAt pay 2 2) = true) :
    s.ethIp e first fin frame ip = s.datagram (dgMeta s e first fin) src dst (pay.take (beAt pay 4 2)) := by
  unfold State.ethIp
  simp only [hparts, hwhole, hudp, hfor, ne_eq, not_true, if_false, and_self, if_true]
  rfl

/-- Bytes 6 and 7 of a list cut behind them. -/
theorem beAt_take_six {l : List Byte} {k : Nat} (hk : 8 ≤ k) : beAt (l.take k) 6 2 = beAt l 6 2 := by
  unfold beAt slice
  rw [List.drop_take, List.take_take, Nat.min_eq_left (by omega)]

/-- A datagram without checksum whose body begins UdPbC and fits is given to the port. -/
theorem State.datagram_given {m : RxMeta} {udp : List Byte} (hsum : beAt udp 6 2 = 0)
    (htok : (udp.drop 8).take 6 = tokUdPbC) (hfit : (udp.drop 8).length ≤ 2040) :
    s.datagram m src dst udp = (s.fcInc m.port 0).giveCand m .datagram (udp.drop 8) := by
  have hother : ¬(tokUdPbC = tokRaUdP ∨ tokUdPbC = tokRrUdP) := by decide
  unfold State.datagram
  simp only [hsum, htok, hother, ne_eq, not_true, false_and, if_false]
  exact if_neg (by omega)

/-- Frame `frame` carries a whole, sound UDP datagram from `src` to `dst` for port `e`, with UDP packet `pay`, without checksum,
whose body begins UdPbC and fits a candidate (R285, R286). -/
structure CarriesDatagram (s : State) (e src dst : Nat) (frame pay body : List Byte) : Prop where
  type : beAt frame 12 2 = 0x0800
  sound : ipSound (frame.drop 14) = true
  noPtp : ptpUdp (frame.drop 14) = false
  whole : beAt (frame.drop 14) 6 2 % 16384 = 0
  parts : ipParts (frame.drop 14) = (17, src, dst, pay)
  udp : udpSound pay = true
  forPort : s.dgForUs e dst (beAt pay 2 2) = true
  noSum : beAt pay 6 2 = 0
  body_eq : body = (pay.take (beAt pay 4 2)).drop 8
  token : body.take 6 = tokUdPbC
  fits : body.length ≤ 2040

/-- A datagram for the port is given to it. -/
theorem State.ethUpper_datagram (hd : CarriesDatagram s e src dst frame pay body)
    (hvlan : s.on (pgETH e) ETH_VLAN_EN = false) : s.ethUpper e first fin frame =
      (s.fcInc (40 + e) 0).giveCand (dgMeta s e first fin) .datagram body := by
  obtain ⟨htype, hsound, hptp, hwhole, hparts, hudp, hfor, hsum, rfl, htok, hfit⟩ := hd
  have hlen : 8 ≤ beAt pay 4 2 := (of_decide_eq_true hudp).1
  rw [State.ethUpper_ip hvlan htype hsound hptp, State.ethIp_datagram hparts hwhole hudp hfor,
    State.datagram_given ((beAt_take_six hlen).trans hsum) htok hfit]
  rfl

/-- Which datagrams are for the port depends on its page alone, below the counters. -/
theorem State.dgForUs_congr (h : ∀ f : Fld, f.off < 0x700 → f.lo < 64 → u.rd (pgETH e) f = s.rd (pgETH e) f)
    (dst dport : Nat) : u.dgForUs e dst dport = s.dgForUs e dst dport := by
  have hgroup : ∀ g ∈ List.range 32, ∀ f : Fld, f.off < 0x500 → f.lo < 64 →
      u.rd (pgETH e) (f.at g 16) = s.rd (pgETH e) (f.at g 16) := fun g hg f ho hl =>
    h _ (by rw [List.mem_range] at hg; simp only [Fld.at]; omega) hl
  have hjoined : u.joined e = s.joined e := by
    unfold State.joined State.on
    refine List.filter_congr fun g hg => ?_
    rw [h _ (by decide) (by decide), hgroup g hg _ (by decide) (by decide)]
  unfold State.dgForUs
  dsimp only
  rw [hjoined, h _ (by decide) (by decide), h _ (by decide) (by decide)]
  congr 1
  rw [Bool.eq_iff_iff, List.any_eq_true, List.any_eq_true]
  refine exists_congr fun g => and_congr_right fun hg => ?_
  have hrange : g ∈ List.range 32 := List.mem_of_mem_filter hg
  rw [hgroup g hrange _ (by decide) (by decide), hgroup g hrange _ (by decide) (by decide)]

end Sys2Proof.Machine
end

section
/-! PROOF of O47: Ethernet frames are checked in order and counted by their first fault, datagrams become candidates, PAUSE
holds the transmitter, and links come up and go down (R284 to R289). -/

namespace Sys2Proof.Machine

variable {s u : State} {fs : List (Nat × Fld)} {e n t ago speed src dst : Nat} {frame pay body : List Byte} {good : Bool}
  {f : Fld}

/-! ### Frames that are counted -/

/-- A port without mode or link takes no frame. -/
theorem exec_ethFrameRx_deaf (t ago : Nat) (good : Bool) (frame : List Byte) (he : e < 2)
    (hdeaf : s.rd (pgETH e) ETH_MODE = 0 ∨ s.on (pgETH e) ETH_LINK = false) :
    ∃ u, exec (.ethFrameRx t e ago good frame) s = .next u ∧ u = s.at t := by
  have hsame : (s.at t).ethRx e ago good frame = s.at t := by
    unfold State.ethRx
    rw [if_pos (by rcases hdeaf with h | h <;> simp [h])]
  rw [exec_ethFrameRx, execEthFrameRx, Nat.mod_eq_of_lt he]
  exact ⟨_, s.happen_eq hsame rfl rfl, rfl⟩

/-- A frame at a port that takes frames: counted, then checked. -/
theorem exec_ethFrameRx_hears (he : e < 2) (h : s.ethHears e) (hu : ethChecked (ethCounted (s.at t) e (frame.length + 4)) e ago
    good frame = u) (hp : u.pending = s.pending) (ht : u.time = (s.at t).time) :
    exec (.ethFrameRx t e ago good frame) s = .next u := by
  rw [exec_ethFrameRx, execEthFrameRx, Nat.mod_eq_of_lt he]
  exact s.happen_eq ((State.ethRx_hears (s := s.at t) h).trans hu) hp ht

/-- One of the port's counters behind FRAMES_RX. -/
abbrev IsEthCtr (f : Fld) : Prop := 0x808 ≤ f.off ∧ f.off < 0x1000 ∧ f.lo = 0 ∧ f.width = 64

/-- The answer to a frame that one counter of the page counts beside FRAMES_RX. -/
theorem frame_inc_ethCounted (hu : Frame (ethCounters e) [] s u) :
    Frame [(pgETH e, ETH_C_FRAMES_RX), (pgETH e, f), (ingestCtrAt (40 + e), ctr icBYTES)] [] s (u.inc (pgETH e) f) :=
  frame_inc (frame_mono hu (by simp [ethCounters]) (by simp)) (by simp)

theorem exec_ethFrameRx_counts (hf : IsEthCtr f) (he : e < 2) (h : s.ethHears e)
    (hcheck : ethChecked (ethCounted (s.at t) e (frame.length + 4)) e ago good frame =
      (ethCounted (s.at t) e (frame.length + 4)).inc (pgETH e) f) :
    ∃ u, exec (.ethFrameRx t e ago good frame) s = .next u ∧
      u.rd (pgETH e) ETH_C_FRAMES_RX = (s.rd (pgETH e) ETH_C_FRAMES_RX + 1) % 2 ^ 64 ∧
      u.rd (pgETH e) f = (s.rd (pgETH e) f + 1) % 2 ^ 64 ∧
      Frame [(pgETH e, ETH_C_FRAMES_RX), (pgETH e, f), (ingestCtrAt (40 + e), ctr icBYTES)] [] (s.at t) u := by
  obtain ⟨hlo, hhi, hbit, hwidth⟩ := hf
  have hframe := frame_inc_ethCounted (f := f) (frame_ethCounted (s.at t) e (frame.length + 4))
  refine ⟨_, exec_ethFrameRx_hears he h hcheck hframe.pending hframe.time, ?_, ?_, hframe⟩
  · rw [State.rd_inc_ne (by simp only [fldKey]; omega), State.rd_framesRx_ethCounted he, State.rd_at]
  · rw [State.rd_inc_same, State.rd_ethCounted he (.inr ⟨hlo, hhi⟩) (by omega), State.rd_at, hwidth]

/-- What is said of a frame that fails a later check: the check's counter, and the frame. -/
theorem exec_ethFrameRx_fault (hf : IsEthCtr f) (he : e < 2) (h : s.ethHears e)
    (hcheck : ethChecked (ethCounted (s.at t) e (frame.length + 4)) e ago good frame =
      (ethCounted (s.at t) e (frame.length + 4)).inc (pgETH e) f) :
    ∃ u, exec (.ethFrameRx t e ago good frame) s = .next u ∧ u.rd (pgETH e) f = (s.rd (pgETH e) f + 1) % 2 ^ 64 ∧
      Frame [(pgETH e, ETH_C_FRAMES_RX), (pgETH e, f), (ingestCtrAt (40 + e), ctr icBYTES)] [] (s.at t) u := by
  obtain ⟨u, hu, -, hcount, hframe⟩ := exec_ethFrameRx_counts hf he h hcheck
  exact ⟨u, hu, hcount, hframe⟩

/-! ### PAUSE (R284) -/

/-- The port's own state while a PAUSE frame that came at `s` holds its transmitter. -/
def pausedBy (s : State) (e : Nat) (frame : List Byte) : EthPort :=
  { s.ethOf e with
    pauseFrom := s.time.h, pauseTo := s.time.h + beAt frame 16 2 * 64 * s.byteTime10 e * nsU / 10 }

theorem exec_ethFrameRx_pause (t ago : Nat) (he : e < 2) (h : s.ethHears e) (hn : 60 ≤ frame.length)
    (hfit : frame.length + 4 ≤ s.rd (pgETH e) ETH_MAX_FRAME) (hen : s.on (pgETH e) ETH_PAUSE_RX = true)
    (hpause : isPause frame = true) :
    ∃ u, exec (.ethFrameRx t e ago true frame) s = .next u ∧ u.ethOf e = pausedBy (s.at t) e frame ∧
      u.rd (pgETH e) ETH_C_PAUSE_RX = (s.rd (pgETH e) ETH_C_PAUSE_RX + 1) % 2 ^ 64 ∧
      Frame [(pgETH e, ETH_C_FRAMES_RX), (pgETH e, ETH_C_PAUSE_RX), (ingestCtrAt (40 + e), ctr icBYTES)] [] (s.at t)
        { u with eth := s.eth } := by
  let v : State := ethCounted (s.at t) e (frame.length + 4)
  have hv : Frame (ethCounters e) [] (s.at t) v := frame_ethCounted _ _ _
  have hrd : ∀ f : Fld, (f.off < 0x700 ∨ 0x808 ≤ f.off ∧ f.off < 0x1000) → f.lo < 64 →
      v.rd (pgETH e) f = s.rd (pgETH e) f := fun f => State.rd_ethCounted (s := s.at t) he
  have hrx : ∀ u, ethChecked v e ago true frame = u → u.pending = s.pending → u.time = (s.at t).time →
      exec (.ethFrameRx t e ago true frame) s = .next u := fun u => exec_ethFrameRx_hears he h
  clear_value v
  have hheld : pausedBy v e frame = pausedBy (s.at t) e frame := by
    simp only [pausedBy, State.ethOf, State.byteTime10, hv.eth, hv.time, hrd ETH_SPEED (.inl (by decide)) (by decide),
      State.rd_at]
  have htaken : ethChecked v e ago true frame =
      (v.inc (pgETH e) ETH_C_PAUSE_RX).setEth e (pausedBy (s.at t) e frame) := by
    have hen' : v.on (pgETH e) ETH_PAUSE_RX = true := by rw [State.on, hrd _ (.inl (by decide)) (by decide)]; exact hen
    rw [ethChecked_whole hn (by rw [hrd _ (.inl (by decide)) (by decide)]; exact hfit), hen', hpause, ← hheld]
    rfl
  have hw := frame_inc_ethCounted (f := ETH_C_PAUSE_RX) hv
  refine ⟨_, hrx _ htaken hw.pending hw.time, State.ethOf_setEth_same _ _ _, ?_, frame_setEth hw⟩
  rw [State.rd_setEth, State.rd_inc_same, hrd _ (.inr (by decide)) (by decide)]

/-! ### Frames that pass the checks of length and PAUSE -/

/-- A frame that is whole, at a port where PAUSE_RX is 0, goes on from the counted state with the port's settings. -/
theorem ethChecked_counted_noPause (he : e < 2) (hn : 60 ≤ frame.length)
    (hfit : frame.length + 4 ≤ s.rd (pgETH e) ETH_MAX_FRAME) (hpause : s.on (pgETH e) ETH_PAUSE_RX = false) :
    ∃ first fin, ethChecked (ethCounted s e n) e ago true frame = ethAccepted (ethCounted s e n) e first fin frame :=
  ethChecked_noPause hn (by rw [State.rd_ethCounted (f := ETH_MAX_FRAME) he (.inl (by decide)) (by decide)]; exact hfit)
    ((State.on_ethCounted he (.inl (by decide)) (by decide)).trans hpause)

/-- With VALIDATE 2 an unprotected frame is dropped and counted. -/
theorem ethChecked_counted_unsecured (he : e < 2) (hn : 60 ≤ frame.length)
    (hfit : frame.length + 4 ≤ s.rd (pgETH e) ETH_MAX_FRAME) (hpause : s.on (pgETH e) ETH_PAUSE_RX = false)
    (hms : s.on (pgETH e) ETH_MACSEC_EN = true) (hval : s.rd (pgETH e) ETH_VALIDATE = 2) (htype : beAt frame 12 2 ≠ 0x88E5) :
    ethChecked (ethCounted s e n) e ago true frame = (ethCounted s e n).inc (pgETH e) ETH_C_MS_UNSEC := by
  obtain ⟨first, fin, hgoes⟩ := ethChecked_counted_noPause (n := n) (ago := ago) he hn hfit hpause
  exact hgoes.trans (ethAccepted_unsecured ((State.on_ethCounted he (.inl (by decide)) (by decide)).trans hms)
    ((State.rd_ethCounted he (.inl (by decide)) (by decide)).trans hval) htype)

/-- Without MACsec the frame goes on to the checks of its type. -/
theorem ethChecked_counted_plain (he : e < 2) (hn : 60 ≤ frame.length)
    (hfit : frame.length + 4 ≤ s.rd (pgETH e) ETH_MAX_FRAME) (hpause : s.on (pgETH e) ETH_PAUSE_RX = false)
    (hms : s.on (pgETH e) ETH_MACSEC_EN = false) :
    ∃ first fin, ethChecked (ethCounted s e n) e ago true frame = (ethCounted s e n).ethUpper e first fin frame := by
  obtain ⟨first, fin, hgoes⟩ := ethChecked_counted_noPause (n := n) (ago := ago) he hn hfit hpause
  exact ⟨first, fin, hgoes.trans (ethAccepted_plain ((State.on_ethCounted he (.inl (by decide)) (by decide)).trans hms))⟩

theorem ethChecked_counted_otherType (he : e < 2) (hn : 60 ≤ frame.length)
    (hfit : frame.length + 4 ≤ s.rd (pgETH e) ETH_MAX_FRAME) (hpause : s.on (pgETH e) ETH_PAUSE_RX = false)
    (hms : s.on (pgETH e) ETH_MACSEC_EN = false) (hraw : s.on (pgETH e) ETH_RAW_OTHER = false)
    (htag : beAt frame 12 2 ≠ 0x8100) (hptp : beAt frame 12 2 ≠ 0x88F7) (hip : beAt frame 12 2 ≠ 0x0800) :
    ethChecked (ethCounted s e n) e ago true frame = (ethCounted s e n).inc (pgETH e) ETH_C_NOT_FOR_US := by
  obtain ⟨first, fin, hgoes⟩ := ethChecked_counted_plain (n := n) (ago := ago) he hn hfit hpause hms
  exact hgoes.trans
    (State.ethUpper_otherType ((State.on_ethCounted he (.inl (by decide)) (by decide)).trans hraw) htag hptp hip)

/-! ### Datagrams become candidates (R285, R286) -/

/-- The counters and fields that a datagram taken as a candidate may write. -/
def dgFields (e : Nat) : List (Nat × Fld) :=
  [(pgETH e, ETH_C_FRAMES_RX), (ingestCtrAt (40 + e), ctr icBYTES), (ingestCtrAt (40 + e), ctr icCAND),
    (frameCtrAt (40 + e), ctr 0)] ++ rxFields (40 + e)

/-- The state in which a datagram is given to its port: its frame and itself counted. -/
def dgCounted (s : State) (e n : Nat) : State := (ethCounted s e n).fcInc (40 + e) 0

theorem frame_dgCounted (s : State) (e n : Nat) : Frame (dgFields e) [] s (dgCounted s e n) :=
  frame_inc (frame_mono (frame_ethCounted s e n) (by simp [ethCounters, dgFields]) (by simp)) (by simp [dgFields])

theorem State.rd_dgCounted_below {b : Nat} (hkey : fldKey b f < 8 * 0x400000)
    (hne : fldKey b f ≠ fldKey (pgETH e) ETH_C_FRAMES_RX) : (dgCounted s e n).rd b f = s.rd b f := by
  have hctr : fldKey b f ≠ fldKey (frameCtrAt (40 + e)) (ctr 0) := by
    simp only [fldKey, frameCtrAt, ctr] at hkey ⊢; omega
  exact (State.rd_inc_ne hctr).trans (State.rd_ethCounted_below hkey hne)

theorem rxEn_dgCounted (he : e < 2) :
    (dgCounted s e n).on (ingestAt (40 + e)) INGEST_RX_EN = s.on (ingestAt (40 + e)) INGEST_RX_EN :=
  congrArg (· == 1) (State.rd_dgCounted_below (by simp only [fldKey, ingestAt]; omega)
    (by simp only [fldKey, ingestAt, pgETH]; omega))

theorem portDown_dgCounted (p : Nat) : (dgCounted s e n).portDown p = s.portDown p := by
  have hpwr : ∀ f : Fld, f.off < 0x1000 → f.lo < 64 → (dgCounted s e n).rd pgPWR f = s.rd pgPWR f := fun f ho hl =>
    State.rd_dgCounted_below (by simp only [fldKey, pgPWR]; omega) (by simp only [fldKey, pgPWR, pgETH]; omega)
  unfold State.portDown State.forward
  rw [hpwr _ (by decide) (by decide), hpwr _ (by decide) (by decide)]

/-- A datagram given to a port with room is one candidate more. -/
theorem exists_candidate {v : State} {m : RxMeta} (hm : m.port = 40 + e) (hv : Frame (dgFields e) [] s v)
    (hen : v.on (ingestAt (40 + e)) INGEST_RX_EN = true) (hdown : v.portDown (40 + e) = false)
    (hroom : s.rxRoom (40 + e) (wordsOf body.length) = true) :
    ∃ u, v.giveCand m .datagram body = u ∧
      ((u.rxOf (40 + e)).cands.map (·.body) = (s.rxOf (40 + e)).cands.map (·.body) ++ [body] ∧
        u.candNo = s.candNo + 1 ∧ RegsBut (dgFields e) [] s u ∧ u.eth = s.eth ∧ u.out = s.out) ∧
      u.pending = s.pending ∧ u.time = s.time := by
  let c : Cand := wholeCand v m .datagram body
  have hc : c.port = 40 + e := hm
  have htaken : v.giveCand m .datagram body = v.commitCand c :=
    State.giveCand_taken (hm ▸ hen) (hm ▸ hdown) (hm ▸ (State.rxRoom_congr hv.rx _ _).trans hroom)
  have hframe : RxFrame (dgFields e) { v with candNo := v.candNo + 1 } (v.commitCand c) :=
    (rxFrame_commitCand v c).mono (by
      rw [hc]
      exact List.forall_mem_cons.2 ⟨by simp [dgFields], fun x hx => List.mem_append_right _ hx⟩)
  have hcands : ((v.commitCand c).rxOf (40 + e)).cands.map (·.body) = (s.rxOf (40 + e)).cands.map (·.body) ++ [body] := by
    have hrx : v.rxOf (40 + e) = s.rxOf (40 + e) := congrArg (fun l => (tabGet? l (40 + e)).getD RxPort.empty) hv.rx
    rw [← hc, State.rxOf_commitCand, rxCommitted, hc, hrx]
    simp [c, wholeCand]
  exact ⟨_, htaken, ⟨hcands, hframe.candNo.trans (congrArg (· + 1) hv.candNo),
    fun k hk hp => (hframe.1 k hk hp).trans (hv.1 k hk hp), hframe.eth.trans hv.eth, hframe.out.trans (hv.2.2.2 rfl).2⟩,
    hframe.pending.trans hv.pending, hframe.time.trans hv.time⟩

theorem exec_ethFrameRx_datagram (t ago : Nat) (he : e < 2) (h : s.ethHears e) (hn : 60 ≤ frame.length)
    (hfit : frame.length + 4 ≤ s.rd (pgETH e) ETH_MAX_FRAME) (hpause : s.on (pgETH e) ETH_PAUSE_RX = false)
    (hms : s.on (pgETH e) ETH_MACSEC_EN = false) (hvlan : s.on (pgETH e) ETH_VLAN_EN = false)
    (hd : CarriesDatagram s e src dst frame pay body) (hen : s.on (ingestAt (40 + e)) INGEST_RX_EN = true)
    (hroom : s.rxRoom (40 + e) (wordsOf body.length) = true) :
    ∃ u, exec (.ethFrameRx t e ago true frame) s = .next u ∧
      (u.rxOf (40 + e)).cands.map (·.body) = (s.rxOf (40 + e)).cands.map (·.body) ++ [body] ∧
      u.candNo = s.candNo + 1 ∧ RegsBut (dgFields e) [] s u ∧ u.eth = s.eth ∧ u.out = s.out := by
  have ⟨_, _, hruns, _⟩ := h
  have hfor : (ethCounted (s.at t) e (frame.length + 4)).dgForUs e dst (beAt pay 2 2) = true :=
    have hpage : ∀ f : Fld, f.off < 0x700 → f.lo < 64 →
        (ethCounted (s.at t) e (frame.length + 4)).rd (pgETH e) f = s.rd (pgETH e) f := fun f ho hl =>
      (State.rd_ethCounted he (.inl ho) hl).trans (State.rd_at s t _ f)
    (State.dgForUs_congr hpage _ _).trans hd.forPort
  have hvlan' : (ethCounted (s.at t) e (frame.length + 4)).on (pgETH e) ETH_VLAN_EN = false :=
    (State.on_ethCounted he (.inl (by decide)) (by decide)).trans hvlan
  have hdown : (dgCounted (s.at t) e (frame.length + 4)).portDown (40 + e) = false :=
    (portDown_dgCounted _).trans hruns
  have hroom' : (s.at t).rxRoom (40 + e) (wordsOf body.length) = true :=
    (State.rxRoom_congr (State.at_rx s t) _ _).trans hroom
  obtain ⟨first, fin, hgoes⟩ :=
    ethChecked_counted_plain (s := s.at t) (n := frame.length + 4) (ago := ago) he hn hfit hpause hms
  have hen' : (dgCounted (s.at t) e (frame.length + 4)).on (ingestAt (40 + e)) INGEST_RX_EN = true :=
    (rxEn_dgCounted he).trans hen
  have hframe := frame_dgCounted (s.at t) e (frame.length + 4)
  obtain ⟨u, hu, heffect, hp, ht⟩ := exists_candidate (m := dgMeta (ethCounted (s.at t) e (frame.length + 4)) e first fin)
    (e := e) rfl hframe hen' hdown hroom'
  have hgiven := State.ethUpper_datagram (first := first) (fin := fin) { hd with forPort := hfor } hvlan'
  exact ⟨u, exec_ethFrameRx_hears he h (hgoes.trans (hgiven.trans hu)) hp ht, heffect⟩

/-! ### The link (R284) -/

/-- The link has come up at a speed. -/
def linkShown (s : State) (e speed : Nat) : State := (s.wr (pgETH e) ETH_LINK 1).wr (pgETH e) ETH_SPEED speed

/-- What the link coming up at SGMII's speed does. -/
def linkCame (s : State) (e speed : Nat) : State :=
  (((linkShown s e speed).setEth e { s.ethOf e with signal := true }).wrB (pgETH e) ETH_AN_DONE
    (s.on (pgETH e) ETH_AN_EN)).raise (0x18 + e) 0

/-- The fields that the link coming up may write. -/
def linkFields (e : Nat) : List (Nat × Fld) := [(pgETH e, ETH_LINK), (pgETH e, ETH_SPEED), (pgETH e, ETH_AN_DONE)]

theorem frame_linkCame (s : State) (e speed : Nat) :
    Frame (linkFields e) [0x18 + e] s { linkCame s e speed with eth := s.eth } := by
  have hshown : Frame (linkFields e) [0x18 + e] s (linkShown s e speed) :=
    frame_wr (frame_wr (frame_refl _ _ s) (by simp [linkFields])) (by simp [linkFields])
  have hrest : Frame (linkFields e) [0x18 + e] ((linkShown s e speed).setEth e { s.ethOf e with signal := true })
      (linkCame s e speed) :=
    frame_raise (frame_wrB (frame_refl _ _ _) (by simp [linkFields])) (by simp)
  exact frame_trans (frame_setEth hshown) (frame_withEth hrest)

/-- Events of the port's page write none of its settings and status words. -/
theorem evtKey_eth (he : e < 2) (hlo : 0x40 ≤ f.off) (hhi : f.off < 0x800) (hl : f.lo < 32) :
    evtKey (0x18 + e) (fldKey (pgETH e) f) = false := by
  rw [evtKey_iff]
  simp only [fldKey, pgETH]
  omega

theorem State.ethUp_sgmii (hlink : s.on (pgETH e) ETH_LINK = false) (hdown : s.portDown (40 + e) = false)
    (hreset : s.on (pgETH e) PG_IN_RESET = false) (hmode : s.rd (pgETH e) ETH_MODE = 2) :
    s.ethUp e speed = linkCame s e speed := by
  have han : (linkShown s e speed).on (pgETH e) ETH_AN_EN = s.on (pgETH e) ETH_AN_EN := by
    have hne : ∀ {g : Fld}, g = ETH_LINK ∨ g = ETH_SPEED → fldKey (pgETH e) ETH_AN_EN ≠ fldKey (pgETH e) g := by
      rintro g (rfl | rfl) <;> simp only [fldKey] <;> omega
    rw [State.on, linkShown, State.rd_wr_ne _ (hne (.inr rfl)), State.rd_wr_ne _ (hne (.inl rfl)), State.on]
  unfold State.ethUp
  simp only [hlink, hdown, hreset, hmode]
  rw [if_neg (by simp), linkCame, ← han]
  rfl

/-- After the link came up, a status field of the port's page reads as the fields written say. -/
theorem State.rd_linkCame (he : e < 2) (hlo : 0x40 ≤ f.off) (hhi : f.off < 0x800) (hl : f.lo < 32) :
    (linkCame s e speed).rd (pgETH e) f =
      ((linkShown s e speed).wrB (pgETH e) ETH_AN_DONE (s.on (pgETH e) ETH_AN_EN)).rd (pgETH e) f :=
  State.rd_raise (evtKey_eth he hlo hhi hl) _

theorem link_linkCame (he : e < 2) : (linkCame s e speed).on (pgETH e) ETH_LINK = true := by
  have h1 : fldKey (pgETH e) ETH_LINK ≠ fldKey (pgETH e) ETH_AN_DONE := by simp only [fldKey]; omega
  have h2 : fldKey (pgETH e) ETH_LINK ≠ fldKey (pgETH e) ETH_SPEED := by simp only [fldKey]; omega
  rw [State.on, State.rd_linkCame he (by decide) (by decide) (by decide), State.rd_wrB_ne h1, linkShown, State.rd_wr_ne _ h2,
    State.rd_wr_same]
  rfl

theorem speed_linkCame (he : e < 2) (hs : speed < 3) : (linkCame s e speed).rd (pgETH e) ETH_SPEED = speed := by
  have h1 : fldKey (pgETH e) ETH_SPEED ≠ fldKey (pgETH e) ETH_AN_DONE := by simp only [fldKey]; omega
  rw [State.rd_linkCame he (by decide) (by decide) (by decide), State.rd_wrB_ne h1, linkShown, State.rd_wr_same]
  exact Nat.mod_eq_of_lt (by show speed < 4; omega)

theorem anDone_linkCame (he : e < 2) :
    (linkCame s e speed).on (pgETH e) ETH_AN_DONE = s.on (pgETH e) ETH_AN_EN := by
  rw [State.on, State.rd_linkCame he (by decide) (by decide) (by decide), State.wrB, State.rd_wr_same]
  cases s.on (pgETH e) ETH_AN_EN <;> rfl

theorem pends_linkCame (he : e < 2) : (linkCame s e speed).pends (0x18 + e) 0 = true :=
  pends_raise_self (by omega) (by decide)

theorem ethOf_linkCame : (linkCame s e speed).ethOf e = { s.ethOf e with signal := true } := by
  have hraise := frame_raise (b := 0) (frame_refl [] [0x18 + e] (((linkShown s e speed).setEth e
    { s.ethOf e with signal := true }).wrB (pgETH e) ETH_AN_DONE (s.on (pgETH e) ETH_AN_EN))) List.mem_cons_self
  have heth : (linkCame s e speed).eth = ((linkShown s e speed).setEth e { s.ethOf e with signal := true }).eth := hraise.eth
  rw [State.ethOf, heth]
  exact State.ethOf_setEth_same _ _ _

theorem exec_ethLinkUp_sgmii (t : Nat) (he : e < 2) (hs : speed < 3) (hlink : s.on (pgETH e) ETH_LINK = false)
    (hdown : s.portDown (40 + e) = false) (hreset : s.on (pgETH e) PG_IN_RESET = false)
    (hmode : s.rd (pgETH e) ETH_MODE = 2) :
    ∃ u, exec (.ethLinkUp t e speed) s = .next u ∧ u.on (pgETH e) ETH_LINK = true ∧ u.rd (pgETH e) ETH_SPEED = speed ∧
      u.on (pgETH e) ETH_AN_DONE = s.on (pgETH e) ETH_AN_EN ∧ u.pends (0x18 + e) 0 = true ∧
      u.ethOf e = { s.ethOf e with signal := true } ∧ Frame (linkFields e) [0x18 + e] (s.at t) { u with eth := s.eth } := by
  have hup : (s.at t).ethUp e speed = linkCame (s.at t) e speed :=
    State.ethUp_sgmii (s := s.at t) hlink hdown hreset hmode
  have hframe := frame_linkCame (s.at t) e speed
  have hpend := pending_of_frame_withEth hframe
  have htime := time_of_frame_withEth hframe
  rw [exec_ethLinkUp, execEthLinkUp, Nat.mod_eq_of_lt he, Nat.mod_eq_of_lt hs]
  exact ⟨_, s.happen_eq hup hpend htime, link_linkCame he, speed_linkCame he hs, anDone_linkCame he, pends_linkCame he,
    ethOf_linkCame, hframe⟩

/-- A port without mode or with link takes no link. -/
theorem exec_ethLinkUp_idle (t speed : Nat) (he : e < 2)
    (hidle : s.rd (pgETH e) ETH_MODE = 0 ∨ s.on (pgETH e) ETH_LINK = true) :
    ∃ u, exec (.ethLinkUp t e speed) s = .next u ∧ u = s.at t := by
  have hsame : (s.at t).ethUp e (speed % 3) = s.at t := by
    unfold State.ethUp
    rw [if_pos (by rcases hidle with h | h <;> simp [h])]
  rw [exec_ethLinkUp, execEthLinkUp, Nat.mod_eq_of_lt he]
  exact ⟨_, s.happen_eq hsame rfl rfl, rfl⟩

/-- What a link that goes down does. -/
def linkWent (s : State) (e : Nat) : State := ((s.wr (pgETH e) ETH_LINK 0).wr (pgETH e) ETH_AN_DONE 0).raise (0x18 + e) 1

theorem frame_linkWent (s : State) (e : Nat) :
    Frame [(pgETH e, ETH_LINK), (pgETH e, ETH_AN_DONE)] [0x18 + e] s (linkWent s e) :=
  frame_raise (frame_wr (frame_wr (frame_refl _ _ s) (by simp)) (by simp)) (by simp)

theorem link_linkWent (he : e < 2) : (linkWent s e).on (pgETH e) ETH_LINK = false := by
  have hne : fldKey (pgETH e) ETH_LINK ≠ fldKey (pgETH e) ETH_AN_DONE := by simp only [fldKey]; omega
  rw [State.on, linkWent, State.rd_raise (evtKey_eth he (by decide) (by decide) (by decide)), State.rd_wr_ne _ hne,
    State.rd_wr_same]
  rfl

theorem anDone_linkWent (he : e < 2) : (linkWent s e).on (pgETH e) ETH_AN_DONE = false := by
  rw [State.on, linkWent, State.rd_raise (evtKey_eth he (by decide) (by decide) (by decide)), State.rd_wr_same]
  rfl

theorem exec_ethLinkDown_of_lt (s : State) (t : Nat) (he : e < 2) :
    ∃ u, exec (.ethLinkDown t e) s = .next u ∧ u.on (pgETH e) ETH_LINK = false ∧
      (s.on (pgETH e) ETH_LINK = true → u.pends (0x18 + e) 1 = true ∧ u.on (pgETH e) ETH_AN_DONE = false) ∧
      Frame (if s.on (pgETH e) ETH_LINK then [(pgETH e, ETH_LINK), (pgETH e, ETH_AN_DONE)] else [])
        (if s.on (pgETH e) ETH_LINK then [0x18 + e] else []) (s.at t) u := by
  have hdown : (s.at t).ethDown e = if s.on (pgETH e) ETH_LINK then linkWent (s.at t) e else s.at t := rfl
  rw [exec_ethLinkDown, execEthLinkDown, Nat.mod_eq_of_lt he]
  cases hlink : s.on (pgETH e) ETH_LINK with
  | true =>
    rw [hlink, if_pos rfl] at hdown
    have hframe := frame_linkWent (s.at t) e
    exact ⟨_, s.happen_eq hdown hframe.pending hframe.time, link_linkWent he,
      fun _ => ⟨pends_raise_self (by omega) (by decide), anDone_linkWent he⟩, hframe⟩
  | false =>
    rw [hlink, if_neg Bool.false_ne_true] at hdown
    exact ⟨_, s.happen_eq hdown rfl rfl, hlink, fun h => absurd h Bool.false_ne_true, frame_refl _ _ _⟩

/-! ### Groups (R287) -/

theorem exec_groupJoin_silent (t : Nat) (g : Word) (he : e < 2) (hreach : s.reaches (0x18 + e) false)
    (hquiet : s.on (pgETH e) ETH_IGMP_EN = false ∨ s.on (pgETH e) ETH_LINK = false) :
    ∃ u, exec (.groupJoin t e g) s = .next u ∧ u.rd (pgETH e) ETH_RX_GRP = g.toNat ∧
      Frame [(pgETH e, ETH_RX_GRP)] [] (s.at t) u := by
  have hkept : ∀ f : Fld, fldKey (pgETH e) f ≠ fldKey (pgETH e) ETH_RX_GRP →
      ((s.at t).wr (pgETH e) ETH_RX_GRP g.toNat).on (pgETH e) f = s.on (pgETH e) f := fun f hne =>
    congrArg (· == 1) (State.rd_wr_ne (s.at t) hne)
  have hjoin : (s.at t).groupJoin e g.toNat = (s.at t).wr (pgETH e) ETH_RX_GRP g.toNat := by
    unfold State.groupJoin
    rw [State.blkGuard_reaches (State.reaches_at.2 hreach)]
    dsimp only
    rw [hkept ETH_IGMP_EN (by simp only [fldKey]; omega),
      hkept ETH_LINK (by simp only [fldKey]; omega), Bool.and_eq_false_iff.2 hquiet, State.when_false]
  rw [exec_groupJoin, execGroupJoin, Nat.mod_eq_of_lt he]
  refine ⟨_, s.happen_eq hjoin rfl rfl, ?_, frame_wr1 _ _ _ _⟩
  rw [State.rd_wr_same]
  exact Nat.mod_eq_of_lt g.isLt

/-- A locked page refuses a block register write. -/
theorem State.blkGuard_locked {p : Nat} {c : Bool} {g : State → State} (hdown : s.pageDown p = false)
    (hready : s.pageReady p = true) (hlock : s.on (pgAt p) PG_LOCK = true) : s.blkGuard p c g = s.refuse p errLOCKED := by
  simp [State.blkGuard, hdown, hready, hlock]

theorem exec_groupJoin_locked (t : Nat) (g : Word) (he : e < 2) (hlock : s.on (pgAt (0x18 + e)) PG_LOCK = true)
    (hdown : s.pageDown (0x18 + e) = false) (hready : s.pageReady (0x18 + e) = true) :
    ∃ u, exec (.groupJoin t e g) s = .next u ∧ Frame (refusalFields (0x18 + e)) [0] (s.at t) u ∧
      u.on (pgAt (0x18 + e)) PG_ERROR = true := by
  rw [exec_groupJoin, execGroupJoin, Nat.mod_eq_of_lt he]
  obtain ⟨u, hu, hframe, herr, -⟩ := State.happen_refuse s (t := t) (p := 0x18 + e) (c := errLOCKED)
    (f := (·.groupJoin e g.toNat)) (by omega) (by decide) (State.blkGuard_locked (s := s.at t) hdown hready hlock)
  exact ⟨u, hu, hframe, herr⟩

/-! ### The clauses together -/

/-- Settles O47: a port with link counts each frame and the first check it fails, one that passes them all is taken by PAUSE,
dropped, counted as not for the port or given to it as a candidate, and the link and the groups are fields written. -/
theorem ethernetPortsReceiveAndLink : Obligations.EthernetPortsReceiveAndLink := by
  unfold Obligations.EthernetPortsReceiveAndLink
  refine ⟨fun s t e ago good frame ⟨he, hdeaf⟩ => exec_ethFrameRx_deaf t ago good frame he hdeaf,
    fun s t e ago frame ⟨he, h⟩ => exec_ethFrameRx_counts (by decide) he h ethChecked_badFcs,
    fun s t e ago frame ⟨he, h, hn⟩ => exec_ethFrameRx_fault (by decide) he h (ethChecked_runt hn),
    fun s t e ago frame ⟨he, h, hn, htag, hbig⟩ => ?oversize,
    fun s t e ago frame ⟨he, h, hn, hfit, hen, hpause⟩ => exec_ethFrameRx_pause t ago he h hn hfit hen hpause,
    fun s t e ago frame ⟨he, h, hn, hfit, hpause⟩ ⟨hms, hval, htype⟩ => ?unsecured,
    fun s t e ago frame ⟨he, h, hn, hfit, hpause⟩ ⟨hms, hraw, htag, hptp, hip⟩ => ?notForUs,
    fun s t e ago src dst frame pay body ⟨he, h, hn, hfit, hpause, hms, hvlan⟩ ⟨htype, hsound, hptp, hwhole⟩
      ⟨hparts, hudp, hfor, hsum⟩ ⟨hbody, htok, hlen, hen, hroom⟩ =>
      exec_ethFrameRx_datagram t ago he h hn hfit hpause hms hvlan
        ⟨htype, hsound, hptp, hwhole, hparts, hudp, hfor, hsum, hbody, htok, hlen⟩ hen hroom,
    fun s t e speed ⟨he, hs, hlink, hdown, hreset, hmode⟩ => exec_ethLinkUp_sgmii t he hs hlink hdown hreset hmode,
    fun s t e speed ⟨he, hidle⟩ => exec_ethLinkUp_idle t speed he hidle,
    fun s t e he => exec_ethLinkDown_of_lt s t he,
    fun s t e g ⟨he, hreach, hquiet⟩ => exec_groupJoin_silent t g he hreach hquiet,
    fun s t e g ⟨he, hlock, hdown, hready⟩ => exec_groupJoin_locked t g he hlock hdown hready⟩
  case oversize =>
    have hlimit : ethLimit (ethCounted (s.at t) e (frame.length + 4)) e frame < frame.length + 4 := by
      rw [ethLimit, if_neg htag, State.rd_ethCounted (f := ETH_MAX_FRAME) he (.inl (by decide)) (by decide)]
      exact hbig
    exact exec_ethFrameRx_fault (by decide) he h (ethChecked_oversize hn hlimit)
  case unsecured =>
    exact exec_ethFrameRx_fault (by decide) he h
      (ethChecked_counted_unsecured (s := s.at t) he hn hfit hpause hms hval htype)
  case notForUs =>
    exact exec_ethFrameRx_fault (by decide) he h
      (ethChecked_counted_otherType (s := s.at t) he hn hfit hpause hms hraw htag hptp hip)

end Sys2Proof.Machine
end

section
/-! SUPPORT. A tongs engine beside the register file: frames that leave the tongs' own state aside, engines set and read, and
what completing an instruction writes (R299, R300, R303, R305), for O48 and O49. -/

namespace Sys2Proof.Machine

variable {fs gs : List (Nat × Fld)} {ps : List Nat} {s u v : State} {b n m op pc t k x w : Nat} {f g : Fld} {e : TongEng}
  {lines : BitVec 64}

/-! ### Fields of one page -/

/-- Fields that start at different bits of a page have cells of their own. -/
theorem fldKey_ne_of_start (h : f.start ≠ g.start) : fldKey b f ≠ fldKey b g := by
  simp only [fldKey, Fld.start] at h ⊢; omega

theorem State.rd_wr_start (h : f.start ≠ g.start) : (s.wr b g x).rd b f = s.rd b f :=
  State.rd_wr_ne s (fldKey_ne_of_start h)

/-- Fields that start at different bits of engines' pages have cells of their own, be it one page or two. -/
theorem fldKey_tong_ne (h : f.start ≠ g.start) (hf : f.start < 0x8000) (hg : g.start < 0x8000) :
    fldKey (pgTONG n) f ≠ fldKey (pgTONG m) g := by
  simp only [fldKey, pgTONG, Fld.start] at h hf hg ⊢; omega

theorem pgAt_tong (n : Nat) : pgAt (0x60 + n) = pgTONG n := by
  simp only [pgAt, pgTONG]; omega

/-- Events of the tongs pages write PG_EVT of their own page, and no other cell of such a page. -/
theorem evtKey_tong (hn : n < 16) (hm : m < 16) (ho : f.off < 0x1000) (hl : f.lo < 32)
    (hne : f.start ≠ PG_PG_EVT.start) : evtKey (0x60 + m) (fldKey (pgTONG n) f) = false := by
  rw [evtKey_iff]
  simp only [Fld.start] at hne
  simp only [fldKey, pgTONG]
  omega

/-- The page of the program store holds nothing that events of the engines' pages write. -/
theorem evtKey_tongs (hm : m < 16) (ho : f.off < 0x1000) (hl : f.lo < 32) :
    evtKey (0x60 + m) (fldKey pgTONGS f) = false := by
  rw [evtKey_iff]
  simp only [fldKey, pgTONGS]
  omega

/-! ### Frames beside the tongs -/

/-- `u` is `s` but for the fields listed, what raising events of the listed pages does, and the tongs' own state. -/
def TongFrame (fs : List (Nat × Fld)) (ps : List Nat) (s u : State) : Prop := Frame fs ps s { u with tong := s.tong }

theorem tongFrame_refl (s : State) : TongFrame fs ps s s := frame_refl _ _ s

theorem Frame.tong (h : Frame fs ps s u) : u.tong = s.tong := by rw [h.2.1]

theorem TongFrame.of_frame (h : Frame fs ps s u) : TongFrame fs ps s u := by
  have hsame : { u with tong := s.tong } = u := by rw [← h.tong]
  exact hsame.symm ▸ h

theorem TongFrame.trans (hu : TongFrame fs ps s u) (hv : TongFrame fs ps u v) : TongFrame fs ps s v := by
  obtain ⟨hregs, hrest, hout, hquiet⟩ := hv
  have hback : Frame fs ps { u with tong := s.tong } { v with tong := s.tong } :=
    ⟨hregs, congrArg (fun y : State => { y with tong := s.tong }) hrest, hout, hquiet⟩
  exact frame_trans hu hback

theorem TongFrame.mono {qs : List Nat} (h : TongFrame fs ps s u) (hf : ∀ x ∈ fs, x ∈ gs) (hp : ∀ p ∈ ps, p ∈ qs) :
    TongFrame gs qs s u := frame_mono h hf hp

theorem tongFrame_wr (h : TongFrame fs ps s u) (hm : (b, f) ∈ fs) : TongFrame fs ps s (u.wr b f x) :=
  frame_wr (u := { u with tong := s.tong }) h hm

theorem tongFrame_inc (h : TongFrame fs ps s u) (hm : (b, f) ∈ fs) : TongFrame fs ps s (u.inc b f) := tongFrame_wr h hm

theorem tongFrame_raise (h : TongFrame fs ps s u) (hm : m ∈ ps) : TongFrame fs ps s (u.raise m k) :=
  h.trans (.of_frame (frame_raise (frame_refl _ _ _) hm))

theorem tongFrame_setEng (h : TongFrame fs ps s u) : TongFrame fs ps s (u.setEng n e) := h

theorem TongFrame.rd (h : TongFrame fs ps s u) (hf : ∀ x ∈ fs, fldKey b f ≠ fldKey x.1 x.2)
    (hp : ∀ p ∈ ps, evtKey p (fldKey b f) = false) : u.rd b f = s.rd b f :=
  Frame.rd (u := { u with tong := s.tong }) h hf hp

theorem TongFrame.pending (h : TongFrame fs ps s u) : u.pending = s.pending :=
  Frame.pending (u := { u with tong := s.tong }) h
theorem TongFrame.time (h : TongFrame fs ps s u) : u.time = s.time := Frame.time (u := { u with tong := s.tong }) h
theorem TongFrame.del (h : TongFrame fs ps s u) : u.del = s.del := Frame.del (u := { u with tong := s.tong }) h
theorem TongFrame.rx (h : TongFrame fs ps s u) : u.rx = s.rx := Frame.rx (u := { u with tong := s.tong }) h

/-- A command whose effect stays within such a frame answers that effect. -/
theorem State.happen_tongFrame {a : State → State} (ha : a (s.at t) = u) (h : TongFrame fs ps (s.at t) u) :
    s.happen t a = .next u := State.happen_eq s ha h.pending h.time

/-! ### Engines -/

@[simp] theorem State.eng_setEng_same : (s.setEng n e).eng n = e := by
  rw [State.eng, State.setEng, tabGet?_tabPut_same, Option.getD_some]

theorem State.eng_setEng_ne (h : m ≠ n) : (s.setEng n e).eng m = s.eng m := by
  rw [State.eng, State.setEng, tabGet?_tabPut_ne h, State.eng]

theorem State.eng_congr (h : u.tong = s.tong) : u.eng n = s.eng n := by rw [State.eng, h, State.eng]

@[simp] theorem State.eng_wr : (s.wr b f x).eng n = s.eng n := rfl
@[simp] theorem State.eng_at : (s.at t).eng n = s.eng n := rfl
@[simp] theorem State.rd_setEng : (s.setEng n e).rd b f = s.rd b f := rfl

/-- An engine with its timer and its stall brought up to the engine clock in progress (R303). -/
def settledEng (s : State) (n : Nat) : TongEng :=
  { s.eng n with
    tmr := s.tongTmr n, tmrK := if s.tongStill n then (s.eng n).tmrK else max (s.eng n).tmrK (s.tongIdx n)
    stallK := s.tongIdx n }

theorem State.tongSettle_eq (s : State) (n : Nat) : s.tongSettle n = (s.setEng n (settledEng s n)).when (s.tongStalled n)
    (·.add (pgTONG n) TONG_C_STALL_CLOCKS (s.tongIdx n - (s.eng n).stallK)) := rfl

theorem State.tongSettle_idle (h : s.tongStalled n = false) : s.tongSettle n = s.setEng n (settledEng s n) := by
  rw [State.tongSettle_eq, h, State.when_false]

theorem State.tongStalled_of_zero (h : s.rd (pgTONG n) TONG_STALL = 0) : s.tongStalled n = false := by
  simp [State.tongStalled, h]

theorem tongFrame_tongSettle (s : State) (n : Nat) :
    TongFrame [(pgTONG n, TONG_C_STALL_CLOCKS)] [] s (s.tongSettle n) := by
  have hset : TongFrame [(pgTONG n, TONG_C_STALL_CLOCKS)] [] s (s.setEng n (settledEng s n)) := tongFrame_refl s
  rw [State.tongSettle_eq]
  unfold State.when
  split
  · exact tongFrame_wr hset (by simp)
  · exact hset

/-! ### Completing an instruction (R300) -/

/-- An instruction of OP `op` has completed and the next is at `pc`. -/
def State.wentTo (s : State) (n op pc : Nat) : State :=
  ((s.wr (pgTONG n) TONG_LAST_OP op).wr (pgTONG n) TONG_STALL 0).wr (pgTONG n) TONG_PC pc

/-- Where the fields that completing an instruction writes start on their page. -/
def seqStarts : List Nat := [TONG_PC.start, TONG_STALL.start, TONG_LAST_OP.start]

/-- Of an engine's page the fields listed hold neither PC nor the program region. -/
def seqApart (n : Nat) (fs : List (Nat × Fld)) : Prop :=
  ∀ x ∈ fs, ∀ f ∈ [TONG_PC, TONG_LO, TONG_HI], fldKey (pgTONG n) f ≠ fldKey x.1 x.2

theorem seqApart_nil : seqApart n [] := by simp [seqApart]

theorem seqApart_cons (h : g.start ∉ [TONG_PC.start, TONG_LO.start, TONG_HI.start]) (hfs : seqApart n fs) :
    seqApart n ((pgTONG n, g) :: fs) := by
  simp only [seqApart, List.forall_mem_cons] at hfs ⊢
  simp only [List.mem_cons, List.not_mem_nil, or_false, not_or] at h
  exact ⟨⟨fldKey_ne_of_start (Ne.symm h.1), fldKey_ne_of_start (Ne.symm h.2.1), fldKey_ne_of_start (Ne.symm h.2.2), by simp⟩,
    hfs⟩

theorem seqApart_one (h : g.start ∉ [TONG_PC.start, TONG_LO.start, TONG_HI.start]) : seqApart n [(pgTONG n, g)] :=
  seqApart_cons h seqApart_nil

theorem State.tongInside_congr {a : Nat} (hlo : u.rd (pgTONG n) TONG_LO = s.rd (pgTONG n) TONG_LO)
    (hhi : u.rd (pgTONG n) TONG_HI = s.rd (pgTONG n) TONG_HI) : u.tongInside n a = s.tongInside n a := by
  unfold State.tongInside; rw [hlo, hhi]

theorem State.tongNext_inside (h : s.tongInside n pc = true) (hpc : pc < 64) : s.tongNext n op pc = s.wentTo n op pc := by
  have hin : ((s.wr (pgTONG n) TONG_LAST_OP op).wr (pgTONG n) TONG_STALL 0).tongInside n pc = true := by
    rw [State.tongInside_congr (s := s), h] <;> rw [State.rd_wr_start (by decide), State.rd_wr_start (by decide)]
  unfold State.tongNext
  simp [hin, hpc, State.wentTo]

/-- A field of the page beside those that completing an instruction writes. -/
theorem State.rd_wentTo (h : f.start ∉ seqStarts) : (s.wentTo n op pc).rd (pgTONG n) f = s.rd (pgTONG n) f := by
  simp only [seqStarts, List.mem_cons, List.not_mem_nil, or_false, not_or] at h
  obtain ⟨hpc, hstall, hop⟩ := h
  rw [State.wentTo, State.rd_wr_start hpc, State.rd_wr_start hstall, State.rd_wr_start hop]

theorem State.rd_wentTo_ne (h : ∀ x ∈ tongFields n, fldKey b f ≠ fldKey x.1 x.2) :
    (s.wentTo n op pc).rd b f = s.rd b f := by
  simp only [tongFields, List.forall_mem_cons] at h
  obtain ⟨hpc, hstall, hop, -⟩ := h
  rw [State.wentTo, State.rd_wr_ne _ hpc, State.rd_wr_ne _ hstall, State.rd_wr_ne _ hop]

@[simp] theorem State.eng_wentTo : (s.wentTo n op pc).eng m = s.eng m := rfl

theorem State.rd_pc_wentTo (hpc : pc < 64) : (s.wentTo n op pc).rd (pgTONG n) TONG_PC = pc := by
  rw [State.wentTo, State.rd_wr_same]
  exact Nat.mod_eq_of_lt hpc

theorem State.rd_stall_wentTo : (s.wentTo n op pc).rd (pgTONG n) TONG_STALL = 0 := by
  rw [State.wentTo, State.rd_wr_start (by decide), State.rd_wr_same]; rfl

theorem State.rd_lastOp_wentTo (hop : op < 16) : (s.wentTo n op pc).rd (pgTONG n) TONG_LAST_OP = op := by
  rw [State.wentTo, State.rd_wr_start (by decide), State.rd_wr_start (by decide), State.rd_wr_same]
  exact Nat.mod_eq_of_lt hop

theorem TongFrame.wentTo (h : TongFrame fs ps s v) : TongFrame (fs ++ tongFields n) ps s (v.wentTo n op pc) := by
  have hmono : TongFrame (fs ++ tongFields n) ps s v := h.mono (fun _ hx => List.mem_append_left _ hx) (fun _ hp => hp)
  exact tongFrame_wr (tongFrame_wr (tongFrame_wr hmono (by simp [tongFields])) (by simp [tongFields])) (by simp [tongFields])

theorem pends_wentTo (h : s.pends m k = true) : (s.wentTo n op pc).pends m k = true := by
  have hpage : ∀ {f : Fld}, f.off = 0x60 → f.lo < 32 → fldKey (pgAt m) PG_PG_EVT ≠ fldKey (pgTONG n) f := fun ho hl => by
    simp only [fldKey, pgAt, pgTONG, ho]; omega
  exact pends_wr (hpage rfl (by decide)) (pends_wr (hpage rfl (by decide)) (pends_wr (hpage rfl (by decide)) h))

/-! ### What an instruction does before it completes -/

/-- From `s` to `v` an instruction did its work: of the registers only the fields listed and what events of the pages
write changed, and neither the clock nor the queue of commands. -/
structure Worked (fs : List (Nat × Fld)) (ps : List Nat) (s v : State) : Prop where
  regs : RegsBut fs ps s v
  pending : v.pending = s.pending
  time : v.time = s.time

theorem TongFrame.worked (h : TongFrame fs ps s v) : Worked fs ps s v := ⟨h.1, h.pending, h.time⟩

theorem Worked.rd (h : Worked fs ps s v) (hf : ∀ x ∈ fs, fldKey b f ≠ fldKey x.1 x.2)
    (hp : ∀ p ∈ ps, evtKey p (fldKey b f) = false) : v.rd b f = s.rd b f := by
  unfold State.rd; rw [h.regs _ hf hp]

/-- PC and the program region stand until the instruction completes. -/
theorem Worked.rd_seq (h : Worked fs ps s v) (hn : n < 16) (hfs : seqApart n fs) (hps : ∀ p ∈ ps, p = 0x60 + n)
    (hf : f ∈ [TONG_PC, TONG_LO, TONG_HI]) : v.rd (pgTONG n) f = s.rd (pgTONG n) f := by
  refine h.rd (fun x hx => hfs x hx f hf) fun p hp => ?_
  rw [hps p hp]
  simp only [List.mem_cons, List.not_mem_nil, or_false] at hf
  obtain rfl | rfl | rfl := hf <;> exact evtKey_tong hn hn (by decide) (by decide) (by decide)

section
variable (hv : Worked fs ps s v) (hn : n < 16) (hfs : seqApart n fs) (hps : ∀ p ∈ ps, p = 0x60 + n)
include hv hn hfs hps

theorem Worked.tongNext (hin : s.tongInside n pc = true) (hpc : pc < 64) : v.tongNext n op pc = v.wentTo n op pc := by
  refine State.tongNext_inside ?_ hpc
  rw [State.tongInside_congr (hv.rd_seq hn hfs hps (by simp)) (hv.rd_seq hn hfs hps (by simp)), hin]

theorem Worked.tongStep (hon : s.tongGoesOn n) :
    v.tongStep n op = v.wentTo n op (s.rd (pgTONG n) TONG_PC + 1) := by
  rw [State.tongStep, hv.rd_seq hn hfs hps (by simp)]
  exact hv.tongNext hn hfs hps hon.1 hon.2

end

theorem State.tongWent_wentTo (hon : s.tongGoesOn n) (hop : op < 16) :
    (v.wentTo n op (s.rd (pgTONG n) TONG_PC + 1)).tongWent s n op :=
  ⟨State.rd_pc_wentTo hon.2, State.rd_stall_wentTo, State.rd_lastOp_wentTo hop⟩

/-- A command that does its work and then completes its instruction answers the state it completed in. -/
theorem State.happen_step {a : State → State} {P : State → Prop} (ha : a (s.at t) = v.tongStep n op)
    (hv : Worked fs ps (s.at t) v) (hn : n < 16) (hfs : seqApart n fs) (hps : ∀ p ∈ ps, p = 0x60 + n)
    (hon : s.tongGoesOn n) (hop : op < 16) (hP : P (v.wentTo n op (s.rd (pgTONG n) TONG_PC + 1))) :
    ∃ u, s.happen t a = .next u ∧ u.tongWent s n op ∧ P u :=
  ⟨_, State.happen_eq s (ha.trans (hv.tongStep hn hfs hps hon)) hv.pending hv.time, State.tongWent_wentTo hon hop, hP⟩

/-! ### Running an instruction (R300, R305, R311) -/

/-- A legal word of the instruction's OP runs on a running engine, with the instant its line writes leave the balls. -/
theorem State.tongExec_runs {a : State → Nat → Nat → State} (h : s.tongRuns n op w) :
    s.tongExec n op a = a (s.setEng n (s.eng n)) w (s.time.h + 5 * nsU) := by
  obtain ⟨hstall, hup, hwait, hword, hop, hlegal, hfine⟩ := h
  have hlive : s.tongLive n = true := by simp [State.tongLive, hstall, hup, hwait]
  have hkeep : { s.eng n with fine := none } = s.eng n := by rw [← hfine]
  unfold State.tongExec
  simp only [hword, hstall, hlive, hop, hlegal, hfine, hkeep, bne_self_eq_false, beq_self_eq_true, Bool.true_or,
    Bool.not_true, Bool.or_self, Bool.false_eq_true, if_false]

/-- The present of a command that samples the lines. -/
def State.sampled (s : State) (t : Nat) (lines : BitVec 64) : State :=
  { s.at t with tong := { s.tong with lines := lines.toNat } }

/-- What an instruction finds that keeps no FINE instant: the present, without and with the lines sampled. -/
def State.ticked (s : State) (t n : Nat) : State := (s.at t).setEng n (s.eng n)
def State.begun (s : State) (t : Nat) (lines : BitVec 64) (n : Nat) : State := (s.sampled t lines).setEng n (s.eng n)

@[simp] theorem State.rd_ticked : (s.ticked t n).rd b f = s.rd b f := rfl
@[simp] theorem State.rd_begun : (s.begun t lines n).rd b f = s.rd b f := rfl
@[simp] theorem State.eng_ticked : (s.ticked t n).eng n = s.eng n := State.eng_setEng_same
@[simp] theorem State.eng_begun : (s.begun t lines n).eng n = s.eng n := State.eng_setEng_same
@[simp] theorem State.tongInside_begun {a : Nat} : (s.begun t lines n).tongInside n a = s.tongInside n a := rfl

theorem tongFrame_ticked (s : State) (t n : Nat) : TongFrame fs ps (s.at t) (s.ticked t n) := tongFrame_refl (s.at t)
theorem tongFrame_begun (s : State) (t : Nat) (lines : BitVec 64) (n : Nat) :
    TongFrame fs ps (s.at t) (s.begun t lines n) := tongFrame_refl (s.at t)

theorem State.tongExec_at {a : State → Nat → Nat → State} (h : s.tongRuns n op w) :
    (s.at t).tongExec n op a = a (s.ticked t n) w ((s.at t).time.h + 5 * nsU) := State.tongExec_runs (s := s.at t) h

theorem State.tongExec_sampled {a : State → Nat → Nat → State} (h : s.tongRuns n op w) :
    (s.sampled t lines).tongExec n op a = a (s.begun t lines n) w ((s.at t).time.h + 5 * nsU) :=
  State.tongExec_runs (s := s.sampled t lines) h

theorem State.tongExec_illegal {a : State → Nat → Nat → State} (hstall : s.rd (pgTONG n) TONG_STALL = 0)
    (hup : s.portDown 42 = false) (hwait : s.tongWaits n = false) (hop : 10 < tongOp (s.tongWord n)) :
    s.tongExec n 0 a = s.tongFault n 1 := by
  have hlive : s.tongLive n = true := by simp [State.tongLive, hstall, hup, hwait]
  have hlegal : tongLegal (s.tongWord n) = false := by
    obtain ⟨m, hm⟩ : ∃ m, tongOp (s.tongWord n) = m + 11 := ⟨tongOp (s.tongWord n) - 11, by omega⟩
    rw [tongLegal, hm]
    rfl
  unfold State.tongExec
  simp [hlive, hstall, hop, hlegal]

end Sys2Proof.Machine
end

section
/-! SUPPORT. The instructions of a tongs engine that use its registers alone, and the faults that stop it: GO, LOAD, ALU, TIMER,
FLAG and LUT, for O48 (R300 to R303, R305, R310, R312). -/

namespace Sys2Proof.Machine

variable {fs : List (Nat × Fld)} {ps : List Nat} {s u v : State} {n m op pc t k w i code : Nat} {f g : Fld} {lines : BitVec 64}

/-! ### Bits of a word, and the working registers -/

theorem bits_lt (w hi lo : Nat) : bits w hi lo < 2 ^ (hi - lo + 1) := by
  unfold bits
  exact Nat.mod_lt _ (Nat.two_pow_pos _)

theorem testBit_bits (w hi lo k : Nat) : (bits w hi lo).testBit k = (decide (k < hi - lo + 1) && w.testBit (k + lo)) := by
  rw [bits, Nat.testBit_mod_two_pow, Nat.testBit_div_two_pow]

/-- A two-bit field that reads 0. -/
theorem testBit_of_bits {lo : Nat} (h : bits w (lo + 1) lo = 0) : w.testBit lo = false ∧ w.testBit (lo + 1) = false := by
  have hbit : ∀ k < 2, w.testBit (k + lo) = false := fun k hk => by
    have hin : decide (k < lo + 1 - lo + 1) = true := decide_eq_true (by omega)
    have hzero := testBit_bits w (lo + 1) lo k
    rwa [h, Nat.zero_testBit, hin, Bool.true_and, eq_comm] at hzero
  have hlow := hbit 0 (by decide)
  have hhigh := hbit 1 (by decide)
  rw [Nat.zero_add] at hlow
  rw [Nat.add_comm] at hhigh
  exact ⟨hlow, hhigh⟩

/-- Working register `i` starts behind every field that sequencing an engine uses. -/
theorem tongW_start (i : Nat) : (tongW i).start = 832 + 32 * i := by
  simp only [tongW, Fld.at, Fld.start]; omega

theorem tongW_apart (i : Nat) : (tongW i).start ∉ [TONG_PC.start, TONG_LO.start, TONG_HI.start] := by
  rw [tongW_start]
  simp only [Fld.start, List.mem_cons, List.not_mem_nil, or_false, not_or]
  omega

theorem tongW_notMem_seqStarts (i : Nat) : (tongW i).start ∉ seqStarts := by
  rw [tongW_start]
  simp only [seqStarts, Fld.start, List.mem_cons, List.not_mem_nil, or_false, not_or]
  omega

theorem State.rd_tongW_wr (x : Nat) : (s.wr (pgTONG n) (tongW i) x).rd (pgTONG n) (tongW i) = x % 2 ^ 32 :=
  State.rd_wr_same _ _ _ _

/-! ### Faults (R300, R305) -/

/-- An engine that waits for no bank stops where it is. -/
theorem State.tongFault_eq (hstall : s.rd (pgTONG n) TONG_STALL = 0) (hwait : s.tongWaits n = false) (hn : n < 16) :
    s.tongFault n code = (((s.setEng n (settledEng s n)).wr (pgTONG n) TONG_FAULT code).wr (pgTONG n) TONG_STALL 6).raise
      (0x60 + n) 0 := by
  have hapart : ∀ {f : Fld}, f.off < 0x1000 → f.lo < 32 → fldKey pgTONGS TONGS_WAITING ≠ fldKey (pgTONG n) f :=
    fun ho hl => by simp only [fldKey, pgTONGS, pgTONG]; omega
  have hstays : ((((s.setEng n (settledEng s n)).wr (pgTONG n) TONG_FAULT code).wr (pgTONG n) TONG_STALL 6).raise
      (0x60 + n) 0).tongWaits n = false := by
    rw [State.tongWaits, State.rd_raise (evtKey_tongs hn (by decide) (by decide)), State.rd_wr_ne _ (hapart (by decide) (by decide)),
      State.rd_wr_ne _ (hapart (by decide) (by decide))]
    exact hwait
  unfold State.tongFault
  rw [State.tongSettle_idle (State.tongStalled_of_zero hstall)]
  dsimp only
  rw [State.tongLeave, hstays, if_neg Bool.false_ne_true]

/-- What a fault shows: FAULT, STALL 6 and event 0, and PC where it was. -/
structure Faulted (s u : State) (n code : Nat) : Prop where
  fault : u.rd (pgTONG n) TONG_FAULT = code
  stall : u.rd (pgTONG n) TONG_STALL = 6
  raised : u.pends (0x60 + n) 0 = true
  frame : TongFrame [(pgTONG n, TONG_FAULT), (pgTONG n, TONG_STALL)] [0x60 + n] s u
  pc : u.rd (pgTONG n) TONG_PC = s.rd (pgTONG n) TONG_PC

theorem faulted_tongFault (hstall : s.rd (pgTONG n) TONG_STALL = 0) (hwait : s.tongWaits n = false) (hn : n < 16)
    (hcode : code < 256) : Faulted s (s.tongFault n code) n code := by
  have hquiet : ∀ {f : Fld}, f.off < 0x1000 → f.lo < 32 → f.start ≠ PG_PG_EVT.start →
      evtKey (0x60 + n) (fldKey (pgTONG n) f) = false := evtKey_tong hn hn
  rw [State.tongFault_eq hstall hwait hn]
  refine ⟨?_, ?_, pends_raise_self (by omega) (by decide), ?_, ?_⟩
  · rw [State.rd_raise (hquiet (by decide) (by decide) (by decide)), State.rd_wr_start (by decide), State.rd_wr_same]
    exact Nat.mod_eq_of_lt hcode
  · rw [State.rd_raise (hquiet (by decide) (by decide) (by decide)), State.rd_wr_same]; rfl
  · exact tongFrame_raise (tongFrame_wr (tongFrame_wr (tongFrame_setEng (tongFrame_refl s)) (by simp)) (by simp)) (by simp)
  · rw [State.rd_raise (hquiet (by decide) (by decide) (by decide)), State.rd_wr_start (by decide),
      State.rd_wr_start (by decide), State.rd_setEng]

/-! ### GO (R303, R305) -/

theorem exec_tongGo_jump (hn : n < 16) (hrun : s.tongRuns n 0 w) (hcond : bits w 27 24 = 0)
    (hin : s.tongInside n (bits w 5 0) = true) : ∃ u, exec (.tongGo t n lines) s = .next u ∧
      u.rd (pgTONG n) TONG_PC = bits w 5 0 ∧ u.rd (pgTONG n) TONG_STALL = 0 ∧ u.rd (pgTONG n) TONG_LAST_OP = 0 ∧
      Frame (tongFields n) [] (s.at t) { u with tong := s.tong } ∧ u.tong.lines = lines.toNat ∧ u.eng n = s.eng n := by
  have hpc : bits w 5 0 < 64 := bits_lt w 5 0
  have hframe : TongFrame (tongFields n) [] (s.at t) ((s.begun t lines n).wentTo n 0 (bits w 5 0)) :=
    (tongFrame_begun (fs := []) s t lines n).wentTo
  rw [exec_tongGo, execTongGo, Nat.mod_eq_of_lt hn]
  refine ⟨_, State.happen_tongFrame ?_ hframe, State.rd_pc_wentTo hpc, State.rd_stall_wentTo,
    State.rd_lastOp_wentTo (by decide), hframe, rfl, State.eng_begun⟩
  refine (State.tongExec_sampled hrun).trans ?_
  simp [hcond, hin, State.tongNext_inside (s := s.begun t lines n) hin hpc]

theorem exec_tongGo_goesOn (hn : n < 16) (hrun : s.tongRuns n 0 w) (hon : s.tongGoesOn n) (hcond : bits w 27 24 = 1)
    (hin : s.tongInside n (bits w 5 0) = true) (hreg : s.rd (pgTONG n) (tongW (bits w 19 18)) ≠ 0) :
    ∃ u, exec (.tongGo t n lines) s = .next u ∧ u.tongWent s n 0 ∧
      Frame (tongFields n) [] (s.at t) { u with tong := s.tong } := by
  have hframe : TongFrame [] [] (s.at t) (s.begun t lines n) := tongFrame_begun s t lines n
  rw [exec_tongGo, execTongGo, Nat.mod_eq_of_lt hn]
  refine State.happen_step ?_ hframe.worked hn seqApart_nil (by simp) hon (by decide) hframe.wentTo
  refine (State.tongExec_sampled hrun).trans ?_
  simp [hcond, hin, hreg]

theorem exec_tongGo_outside (hn : n < 16) (hrun : s.tongRuns n 0 w) (hin : s.tongInside n (bits w 5 0) = false) :
    ∃ u, exec (.tongGo t n lines) s = .next u ∧ u.rd (pgTONG n) TONG_FAULT = 2 ∧ u.rd (pgTONG n) TONG_STALL = 6 ∧
      u.pends (0x60 + n) 0 = true ∧
      Frame [(pgTONG n, TONG_FAULT), (pgTONG n, TONG_STALL)] [0x60 + n] (s.at t) { u with tong := s.tong } := by
  have ⟨hstall, _, hwait, _⟩ := hrun
  obtain ⟨hfault, hstop, hraised, hframe, -⟩ : Faulted (s.begun t lines n) ((s.begun t lines n).tongFault n 2) n 2 :=
    faulted_tongFault hstall hwait hn (by decide)
  have hpresent := (tongFrame_begun s t lines n).trans hframe
  rw [exec_tongGo, execTongGo, Nat.mod_eq_of_lt hn]
  refine ⟨_, State.happen_tongFrame ?_ hpresent, hfault, hstop, hraised, hpresent⟩
  refine (State.tongExec_sampled hrun).trans ?_
  simp [hin]

/-- A word of no instruction stops the engine as GO meets it (R305). -/
theorem exec_tongGo_illegal (hn : n < 16) (hstall : s.rd (pgTONG n) TONG_STALL = 0) (hup : s.portDown 42 = false)
    (hwait : s.tongWaits n = false) (hop : 10 < tongOp (s.tongWord n)) :
    ∃ u, exec (.tongGo t n lines) s = .next u ∧ u.rd (pgTONG n) TONG_FAULT = 1 ∧ u.rd (pgTONG n) TONG_STALL = 6 ∧
      u.pends (0x60 + n) 0 = true ∧ u.rd (pgTONG n) TONG_PC = s.rd (pgTONG n) TONG_PC := by
  obtain ⟨hfault, hstop, hraised, hframe, hpc⟩ : Faulted (s.sampled t lines) ((s.sampled t lines).tongFault n 1) n 1 :=
    faulted_tongFault hstall hwait hn (by decide)
  rw [exec_tongGo, execTongGo, Nat.mod_eq_of_lt hn]
  exact ⟨_, State.happen_eq s (State.tongExec_illegal (s := s.sampled t lines) hstall hup hwait hop) hframe.pending
    hframe.time, hfault, hstop, hraised, hpc⟩

/-! ### LOAD and ALU (R302) -/

/-- An instruction that only writes a working register before it completes. -/
theorem happen_wrW {a : State → State} {x : Nat} (ha : a (s.at t) = (v.wr (pgTONG n) (tongW i) x).tongStep n op)
    (hv : TongFrame [] [] (s.at t) v) (hn : n < 16) (hon : s.tongGoesOn n) (hop : op < 16) :
    ∃ u, s.happen t a = .next u ∧ u.tongWent s n op ∧ u.rd (pgTONG n) (tongW i) = x % 2 ^ 32 ∧
      Frame ((pgTONG n, tongW i) :: tongFields n) [] (s.at t) { u with tong := s.tong } := by
  have hframe : TongFrame [(pgTONG n, tongW i)] [] (s.at t) (v.wr (pgTONG n) (tongW i) x) :=
    tongFrame_wr (hv.mono (by simp) (by simp)) (by simp)
  refine State.happen_step ha hframe.worked hn (seqApart_one (tongW_apart i)) (by simp) hon hop ⟨?_, hframe.wentTo⟩
  rw [State.rd_wentTo (tongW_notMem_seqStarts i), State.rd_tongW_wr]

/-- The same for a value that fits the register. -/
theorem happen_wrW_of_lt {a : State → State} {x : Nat} (hx : x < 2 ^ 32)
    (ha : a (s.at t) = (v.wr (pgTONG n) (tongW i) x).tongStep n op)
    (hv : TongFrame [] [] (s.at t) v) (hn : n < 16) (hon : s.tongGoesOn n) (hop : op < 16) :
    ∃ u, s.happen t a = .next u ∧ u.tongWent s n op ∧ u.rd (pgTONG n) (tongW i) = x ∧
      Frame ((pgTONG n, tongW i) :: tongFields n) [] (s.at t) { u with tong := s.tong } :=
  (happen_wrW ha hv hn hon hop).imp fun _ ⟨hu, hwent, hrd, hframe⟩ =>
    ⟨hu, hwent, hrd.trans (Nat.mod_eq_of_lt hx), hframe⟩

theorem exec_tongLoad_low (hn : n < 16) (hrun : s.tongRuns n 3 w) (hon : s.tongGoesOn n) (hhigh : w.testBit 25 = false) :
    ∃ u, exec (.tongLoad t n) s = .next u ∧ u.tongWent s n 3 ∧ u.rd (pgTONG n) (tongW (bits w 27 26)) = bits w 15 0 ∧
      Frame ((pgTONG n, tongW (bits w 27 26)) :: tongFields n) [] (s.at t) { u with tong := s.tong } := by
  have himm : bits w 15 0 < 2 ^ 16 := bits_lt w 15 0
  rw [exec_tongLoad, execTongLoad, Nat.mod_eq_of_lt hn]
  refine happen_wrW_of_lt (op := 3) (by omega) ?_ (tongFrame_ticked s t n) hn hon (by decide)
  refine (State.tongExec_at hrun).trans ?_
  simp [hhigh]

theorem exec_tongLoad_high (hn : n < 16) (hrun : s.tongRuns n 3 w) (hon : s.tongGoesOn n) (hhigh : w.testBit 25 = true) :
    ∃ u, exec (.tongLoad t n) s = .next u ∧ u.tongWent s n 3 ∧ u.rd (pgTONG n) (tongW (bits w 27 26)) =
      bits w 15 0 * 65536 + s.rd (pgTONG n) (tongW (bits w 27 26)) % 65536 := by
  have himm : bits w 15 0 < 2 ^ 16 := bits_lt w 15 0
  rw [exec_tongLoad, execTongLoad, Nat.mod_eq_of_lt hn]
  refine Exists.imp (fun u ⟨hu, hwent, hrd, _⟩ => ⟨hu, hwent, hrd⟩)
    (happen_wrW_of_lt (op := 3) (by omega) ?_ (tongFrame_ticked s t n) hn hon (by decide))
  refine (State.tongExec_at hrun).trans ?_
  simp [hhigh]

theorem exec_tongAlu_imm (hn : n < 16) (hrun : s.tongRuns n 4 w) (hon : s.tongGoesOn n) (himm : w.testBit 20 = true)
    (hst : w.testBit 19 = false) : ∃ u, exec (.tongAlu t n) s = .next u ∧ u.tongWent s n 4 ∧
      u.rd (pgTONG n) (tongW (bits w 24 23)) =
        tongAluOp (bits w 27 25) (s.rd (pgTONG n) (tongW (bits w 24 23))) (bits w 7 0) % 2 ^ 32 ∧
      Frame ((pgTONG n, tongW (bits w 24 23)) :: tongFields n) [] (s.at t) { u with tong := s.tong } := by
  rw [exec_tongAlu, execTongAlu, Nat.mod_eq_of_lt hn]
  refine happen_wrW (op := 4) ?_ (tongFrame_ticked s t n) hn hon (by decide)
  refine (State.tongExec_at hrun).trans ?_
  simp [himm, hst]

theorem exec_tongAlu_status (hn : n < 16) (hrun : s.tongRuns n 4 w) (hon : s.tongGoesOn n) (himm : w.testBit 20 = false)
    (hst : w.testBit 19 = true) : ∃ u, exec (.tongAlu t n) s = .next u ∧ u.tongWent s n 4 ∧
      u.rd (pgTONG n) TONG_ST = tongAluOp (bits w 27 25) (s.rd (pgTONG n) (tongW (bits w 24 23)))
        (s.rd (pgTONG n) (tongW (bits w 22 21))) % 256 ∧
      Frame ((pgTONG n, TONG_ST) :: tongFields n) [] (s.at t) { u with tong := s.tong } := by
  let r := tongAluOp (bits w 27 25) (s.rd (pgTONG n) (tongW (bits w 24 23))) (s.rd (pgTONG n) (tongW (bits w 22 21)))
  have hframe : TongFrame [(pgTONG n, TONG_ST)] [] (s.at t) ((s.ticked t n).wr (pgTONG n) TONG_ST (r % 256)) :=
    tongFrame_wr (tongFrame_ticked s t n) (by simp)
  rw [exec_tongAlu, execTongAlu, Nat.mod_eq_of_lt hn]
  refine State.happen_step (op := 4) ?_ hframe.worked hn (seqApart_one (by decide)) (by simp) hon (by decide)
    ⟨?_, hframe.wentTo⟩
  · refine (State.tongExec_at hrun).trans ?_
    simp [himm, hst, r]
  · rw [State.rd_wentTo (by decide), State.rd_wr_same]
    exact Nat.mod_mod _ _

/-! ### TIMER, FLAG and LUT (R303, R312) -/

theorem State.tongIdx_ticked : (s.ticked t n).tongIdx n = (s.at t).tongIdx n := by
  unfold State.tongIdx
  rw [State.eng_ticked]
  rfl

theorem exec_tongTimer_sets (hn : n < 16) (hrun : s.tongRuns n 5 w) (hon : s.tongGoesOn n) :
    ∃ u, exec (.tongTimer t n) s = .next u ∧ u.tongWent s n 5 ∧
      (u.eng n).tmr = (if w.testBit 27 then s.rd (pgTONG n) (tongW (bits w 25 24)) else bits w 23 0) ∧
      (u.eng n).tmrK = (s.at t).tongIdx n + 1 ∧ Frame (tongFields n) [] (s.at t) { u with tong := s.tong } := by
  let e := { s.eng n with
    tmr := if w.testBit 27 then s.rd (pgTONG n) (tongW (bits w 25 24)) else bits w 23 0, tmrK := (s.at t).tongIdx n + 1 }
  have hframe : TongFrame [] [] (s.at t) ((s.ticked t n).setEng n e) := tongFrame_setEng (tongFrame_ticked s t n)
  rw [exec_tongTimer, execTongTimer, Nat.mod_eq_of_lt hn]
  refine State.happen_step (op := 5) ?_ hframe.worked hn seqApart_nil (by simp) hon (by decide) ⟨?_, ?_, hframe.wentTo⟩
  · refine (State.tongExec_at hrun).trans ?_
    simp [e, State.tongIdx_ticked]
  · rw [State.eng_wentTo, State.eng_setEng_same]
  · rw [State.eng_wentTo, State.eng_setEng_same]

/-- The flags lie apart from what sequencing an engine reads and writes. -/
theorem seqApart_flags : seqApart n [(pgTONG 0, TONG_FLAGS)] := by
  simp only [seqApart, List.forall_mem_cons]
  exact ⟨⟨fldKey_tong_ne (by decide) (by decide) (by decide), fldKey_tong_ne (by decide) (by decide) (by decide),
    fldKey_tong_ne (by decide) (by decide) (by decide), by simp⟩, by simp⟩

theorem flags_ne_tongFields : ∀ x ∈ tongFields n, fldKey (pgTONG 0) TONG_FLAGS ≠ fldKey x.1 x.2 := by
  simp only [tongFields, List.forall_mem_cons]
  exact ⟨fldKey_tong_ne (by decide) (by decide) (by decide), fldKey_tong_ne (by decide) (by decide) (by decide),
    fldKey_tong_ne (by decide) (by decide) (by decide), by simp⟩

theorem exec_tongFlag_set (hn : n < 16) (hrun : s.tongRuns n 10 w) (hon : s.tongGoesOn n) (hcmd : bits w 27 26 = 0) :
    ∃ u, exec (.tongFlag t n) s = .next u ∧ u.tongWent s n 10 ∧
      (∀ i : Nat, i < 16 → (u.rd (pgTONG 0) TONG_FLAGS).testBit i =
        ((s.rd (pgTONG 0) TONG_FLAGS).testBit i || i == bits w 3 0)) ∧
      Frame ((pgTONG 0, TONG_FLAGS) :: tongFields n) [] (s.at t) { u with tong := s.tong } := by
  let v := (s.ticked t n).wr (pgTONG 0) TONG_FLAGS (s.rd (pgTONG 0) TONG_FLAGS ||| 2 ^ bits w 3 0)
  have hframe : TongFrame [(pgTONG 0, TONG_FLAGS)] [] (s.at t) v := tongFrame_wr (tongFrame_ticked s t n) (by simp)
  rw [exec_tongFlag, execTongFlag, Nat.mod_eq_of_lt hn]
  refine State.happen_step (op := 10) ?_ hframe.worked hn seqApart_flags (by simp) hon (by decide)
    ⟨fun i hi => ?_, hframe.wentTo⟩
  · refine (State.tongExec_at hrun).trans ?_
    simp [hcmd, v]
  · rw [State.rd_wentTo_ne flags_ne_tongFields, State.rd_wr_same, Nat.testBit_mod_two_pow, Nat.testBit_or,
      Nat.testBit_two_pow]
    simp [hi, beq_eq_decide, eq_comm]

theorem exec_tongFlag_host (hn : n < 16) (hrun : s.tongRuns n 10 w) (hon : s.tongGoesOn n) (hcmd : bits w 27 26 = 2) :
    ∃ u, exec (.tongFlag t n) s = .next u ∧ u.tongWent s n 10 ∧ u.rd (pgTONG n) TONG_HOST_CODE = bits w 7 0 ∧
      u.pends (0x60 + n) 1 = true ∧
      Frame ((pgTONG n, TONG_HOST_CODE) :: tongFields n) [0x60 + n] (s.at t) { u with tong := s.tong } := by
  have hframe : TongFrame [(pgTONG n, TONG_HOST_CODE)] [0x60 + n] (s.at t)
      (((s.ticked t n).wr (pgTONG n) TONG_HOST_CODE (bits w 7 0)).raise (0x60 + n) 1) :=
    tongFrame_raise (tongFrame_wr (tongFrame_ticked s t n) (by simp)) (by simp)
  have hcode : bits w 7 0 < 2 ^ 8 := bits_lt w 7 0
  rw [exec_tongFlag, execTongFlag, Nat.mod_eq_of_lt hn]
  refine State.happen_step (op := 10) ?_ hframe.worked hn (seqApart_one (by decide)) (by simp) hon (by decide)
    ⟨?_, pends_wentTo (pends_raise_self (by omega) (by decide)), hframe.wentTo⟩
  · refine (State.tongExec_at hrun).trans ?_
    simp [hcmd]
  · rw [State.rd_wentTo (by decide), State.rd_raise (evtKey_tong hn hn (by decide) (by decide) (by decide)),
      State.rd_wr_same]
    exact Nat.mod_eq_of_lt hcode

theorem State.tongLut_lt (s : State) (n i : Nat) : s.tongLut n i < 256 := Nat.mod_lt _ (by decide)

theorem exec_tongLut_reg (hn : n < 16) (hrun : s.tongRuns n 9 w) (hon : s.tongGoesOn n) (hmode : bits w 27 26 = 0)
    (hlines : w.testBit 23 = false) (hwrite : w.testBit 22 = true) :
    ∃ u, exec (.tongLut t n lines) s = .next u ∧ u.tongWent s n 9 ∧ u.rd (pgTONG n) (tongW (bits w 25 24)) =
        s.tongLut n (s.rd (pgTONG n) TONG_ST % 16 * 16 + s.rd (pgTONG n) (tongW (bits w 25 24)) % 16) ∧
      Frame ((pgTONG n, tongW (bits w 25 24)) :: tongFields n) [] (s.at t) { u with tong := s.tong } := by
  have hlut : ∀ i, (s.begun t lines n).tongLut n i = s.tongLut n i := fun _ => rfl
  obtain ⟨h26, h27⟩ := testBit_of_bits hmode
  rw [exec_tongLut, execTongLut, Nat.mod_eq_of_lt hn]
  refine happen_wrW_of_lt (op := 9) (Nat.lt_trans (s.tongLut_lt n _) (by decide)) ?_ (tongFrame_begun s t lines n) hn hon
    (by decide)
  refine (State.tongExec_sampled hrun).trans ?_
  simp [h26, h27, hlines, hwrite, hlut]

end Sys2Proof.Machine
end

section
/-! SUPPORT. The instructions of a tongs engine that reach its lines, its shift register and its timer: PINS, SHIFT and AWAIT,
for O48 (R304, R306, R310, R311). -/

namespace Sys2Proof.Machine

variable {fs : List (Nat × Fld)} {ps : List Nat} {s u v : State} {n m op pc t k l w i cnt ago : Nat} {f g : Fld}
  {lines : BitVec 64} {msb : Bool}

/-! ### PINS (R306) -/

/-- The window lines that a mask of 1 names. -/
theorem filter_testBit_one {m : Nat} (hm : 1 ≤ m) : (List.range m).filter (fun i => Nat.testBit 1 i) = [0] := by
  obtain ⟨k, rfl⟩ : ∃ k, m = k + 1 := ⟨m - 1, by omega⟩
  rw [List.range_succ_eq_map, List.filter_cons, if_pos (by decide), List.filter_eq_nil_iff.2]
  intro a ha
  obtain ⟨j, -, rfl⟩ := List.mem_map.1 ha
  simp [Nat.testBit_succ]

@[simp] theorem State.winLine_ticked : (s.ticked t n).winLine m i = s.winLine m i := rfl

theorem State.winLine_lt (s : State) (n i : Nat) : s.winLine n i < 64 := Nat.mod_lt _ (by decide)

/-- What PINS does for window line 0 alone. -/
theorem exec_tongPins_line0 (hn : n < 16) (hrun : s.tongRuns n 2 w) (hmode : bits w 27 26 = 0)
    (hmark : w.testBit 16 = false) (hmask : bits w 15 8 = 1) (hcnt : 1 ≤ s.rd (pgTONG n) TONG_PIN_CNT) :
    ∃ a, exec (.tongPins t n) s = s.happen t a ∧ a (s.at t) = ((s.ticked t n).pinLevel n (s.winLine n 0) (w.testBit 0)
      ((s.at t).time.h + 5 * nsU)).tongStep n 2 := by
  obtain ⟨h26, h27⟩ := testBit_of_bits hmode
  have hval : (bits w 7 0).testBit 0 = w.testBit 0 := by rw [testBit_bits]; rfl
  rw [exec_tongPins, execTongPins, Nat.mod_eq_of_lt hn]
  refine ⟨_, rfl, (State.tongExec_at hrun).trans ?_⟩
  have hline : (List.range (min 8 (s.rd (pgTONG n) TONG_PIN_CNT))).filter (fun i => Nat.testBit 1 i) = [0] :=
    filter_testBit_one (by omega)
  simp [h26, h27, hmark, hmask, hline, hval]

theorem lineOut_start (l : Nat) : (lnF TONG_LN_OUT l).start = 2065 + 32 * l := by
  simp only [lnF, Fld.at, Fld.start]; omega

theorem lineDriving_start (l : Nat) : (lnF TONG_LN_DRIVING l).start = 2066 + 32 * l := by
  simp only [lnF, Fld.at, Fld.start]; omega

/-- The fields that a write of a line's level shows in. -/
def lineOut (l : Nat) : List (Nat × Fld) := [(pgTONG 0, lnF TONG_LN_OUT l), (pgTONG 0, lnF TONG_LN_DRIVING l)]

/-- The lines' entries lie behind the other fields of the engines' pages. -/
theorem lineOut_ne (hl : l < 64) (hf : f.start < 2048) : ∀ x ∈ lineOut l, fldKey (pgTONG n) f ≠ fldKey x.1 x.2 := by
  have hout := lineOut_start l
  have hdriving := lineDriving_start l
  simp only [lineOut, List.forall_mem_cons]
  exact ⟨fldKey_tong_ne (by omega) (by omega) (by omega), fldKey_tong_ne (by omega) (by omega) (by omega), by simp⟩

theorem lineOut_ne_tongFields (hl : l < 64) :
    ∀ x ∈ tongFields n, fldKey (pgTONG 0) (lnF TONG_LN_OUT l) ≠ fldKey x.1 x.2 := by
  have hfar : ∀ {f : Fld}, f.start < 2048 → fldKey (pgTONG 0) (lnF TONG_LN_OUT l) ≠ fldKey (pgTONG n) f := fun hf =>
    (lineOut_ne hl hf (pgTONG 0, lnF TONG_LN_OUT l) (by simp [lineOut])).symm
  simp only [tongFields, List.forall_mem_cons]
  exact ⟨hfar (by decide), hfar (by decide), hfar (by decide), by simp⟩

/-- The engine that owns a line sets its level, and the line follows. -/
theorem pinLevel_owned {c : Bool} {h : Nat} (hown : s.rd (pgTONG 0) (lnF TONG_LN_OWNER l) = n) :
    PinFrame (lineOut l) s (s.pinLevel n l c h) ∧ (s.pinLevel n l c h).on (pgTONG 0) (lnF TONG_LN_OUT l) = c := by
  let y : State := s.wrB (pgTONG 0) (lnF TONG_LN_OUT l) c
  have hlevel : s.pinLevel n l c h = y.pinSync l h := by rw [State.pinLevel, if_neg (not_not_intro hown)]
  have hy : PinFrame (lineOut l) s y := frame_wrB (frame_refl _ _ s) (by simp [lineOut])
  have hsync : PinFrame [(pgTONG 0, lnF TONG_LN_DRIVING l)] y (y.pinSync l h) :=
    PinFrame.pinSync (frame_refl _ _ y) (by simp)
  have hne : fldKey (pgTONG 0) (lnF TONG_LN_OUT l) ≠ fldKey (pgTONG 0) (lnF TONG_LN_DRIVING l) :=
    fldKey_ne_of_start (by rw [lineOut_start, lineDriving_start]; omega)
  have hset : y.rd (pgTONG 0) (lnF TONG_LN_OUT l) = c.toNat % 2 ^ 1 := State.rd_wr_same _ _ _ _
  rw [hlevel]
  refine ⟨hy.pinSync (by simp [lineOut]), ?_⟩
  rw [State.on, hsync.rd (by simpa using hne), hset]
  cases c <;> rfl

theorem seqApart_lineOut (hl : l < 64) : seqApart n (lineOut l) := by
  intro x hx f hf
  refine lineOut_ne hl ?_ x hx
  simp only [List.mem_cons, List.not_mem_nil, or_false] at hf
  obtain rfl | rfl | rfl := hf <;> decide

theorem Worked.wentTo (h : Worked fs ps s v) : Worked (fs ++ tongFields n) ps s (v.wentTo n op pc) := by
  refine ⟨fun k hk hp => ?_, h.pending, h.time⟩
  have hne : ∀ x ∈ tongFields n, k ≠ fldKey x.1 x.2 := fun x hx => hk x (List.mem_append_right _ hx)
  simp only [tongFields, List.forall_mem_cons] at hne
  obtain ⟨hpc, hstall, hop, -⟩ := hne
  rw [State.wentTo, State.regLook_wr_ne _ hpc, State.regLook_wr_ne _ hstall, State.regLook_wr_ne _ hop]
  exact h.regs k (fun x hx => hk x (List.mem_append_left _ hx)) hp

theorem exec_tongPins_owned (hn : n < 16) (hrun : s.tongRuns n 2 w) (hon : s.tongGoesOn n) (hmode : bits w 27 26 = 0)
    (hmark : w.testBit 16 = false) (hmask : bits w 15 8 = 1) (hcnt : 1 ≤ s.rd (pgTONG n) TONG_PIN_CNT)
    (hown : s.rd (pgTONG 0) (lnF TONG_LN_OWNER (s.winLine n 0)) = n) :
    ∃ u, exec (.tongPins t n) s = .next u ∧ u.tongWent s n 2 ∧
      u.on (pgTONG 0) (lnF TONG_LN_OUT (s.winLine n 0)) = w.testBit 0 ∧
      RegsBut ((pgTONG 0, lnF TONG_LN_OUT (s.winLine n 0)) :: (pgTONG 0, lnF TONG_LN_DRIVING (s.winLine n 0)) ::
        tongFields n) [] s u := by
  have hl : s.winLine n 0 < 64 := s.winLine_lt n 0
  obtain ⟨hlevel, hout⟩ := pinLevel_owned (s := s.ticked t n) (c := w.testBit 0) (h := (s.at t).time.h + 5 * nsU) hown
  have hwork : Worked (lineOut (s.winLine n 0)) [] (s.at t) ((s.ticked t n).pinLevel n (s.winLine n 0) (w.testBit 0)
      ((s.at t).time.h + 5 * nsU)) := ⟨hlevel.1, hlevel.pending, hlevel.time⟩
  obtain ⟨a, hexec, ha⟩ := exec_tongPins_line0 (t := t) hn hrun hmode hmark hmask hcnt
  rw [hexec]
  refine State.happen_step (op := 2) ha hwork hn (seqApart_lineOut hl) (by simp) hon (by decide)
    ⟨?_, hwork.wentTo.regs⟩
  rw [State.on, State.rd_wentTo_ne (lineOut_ne_tongFields hl)]
  exact hout

theorem exec_tongPins_denied (hn : n < 16) (hrun : s.tongRuns n 2 w) (hon : s.tongGoesOn n) (hmode : bits w 27 26 = 0)
    (hmark : w.testBit 16 = false) (hmask : bits w 15 8 = 1) (hcnt : 1 ≤ s.rd (pgTONG n) TONG_PIN_CNT)
    (hown : s.rd (pgTONG 0) (lnF TONG_LN_OWNER (s.winLine n 0)) ≠ n) :
    ∃ u, exec (.tongPins t n) s = .next u ∧ u.tongWent s n 2 ∧
      u.rd (pgTONG n) TONG_C_PIN_DENIED = (s.rd (pgTONG n) TONG_C_PIN_DENIED + 1) % 2 ^ 64 ∧
      u.pends (0x60 + n) 4 = true ∧
      Frame ((pgTONG n, TONG_C_PIN_DENIED) :: tongFields n) [0x60 + n] (s.at t) { u with tong := s.tong } := by
  have hlevel : (s.ticked t n).pinLevel n (s.winLine n 0) (w.testBit 0) ((s.at t).time.h + 5 * nsU) =
      (s.ticked t n).pinDenied n := by
    rw [State.pinLevel, if_pos (by exact hown)]
  have hframe : TongFrame [(pgTONG n, TONG_C_PIN_DENIED)] [0x60 + n] (s.at t) ((s.ticked t n).pinDenied n) :=
    tongFrame_raise (tongFrame_inc (tongFrame_ticked s t n) (by simp)) (by simp)
  obtain ⟨a, hexec, ha⟩ := exec_tongPins_line0 (t := t) hn hrun hmode hmark hmask hcnt
  rw [hexec]
  refine State.happen_step (op := 2) (ha.trans (congrArg (State.tongStep · n 2) hlevel)) hframe.worked hn
    (seqApart_one (by decide)) (by simp) hon (by decide)
    ⟨?_, pends_wentTo (pends_raise_self (by omega) (by decide)), hframe.wentTo⟩
  rw [State.rd_wentTo (by decide), State.pinDenied,
    State.rd_raise (evtKey_tong hn hn (by decide) (by decide) (by decide)), State.rd_inc_same, State.rd_ticked]

/-! ### The shift register (R304) -/

/-- The bits of a word's first `cnt`, as SHIFT appends them. -/
def wordBits (cnt x h : Nat) : List SrBit := (List.range cnt).map (fun i => ⟨x.testBit i, h, none⟩)

theorem length_wordBits (cnt x h : Nat) : (wordBits cnt x h).length = cnt := by simp [wordBits]

theorem wordBits_succ (cnt x h : Nat) :
    wordBits (cnt + 1) x h = ⟨x.testBit 0, h, none⟩ :: wordBits cnt (x / 2) h := by
  simp [wordBits, List.range_succ_eq_map, Nat.testBit_succ, Function.comp_def]

theorem foldr_wordBits (cnt x h : Nat) : (wordBits cnt x h).foldr (fun b a => b.bit.toNat + 2 * a) 0 = x % 2 ^ cnt := by
  induction cnt generalizing x with
  | zero => simp [wordBits, Nat.mod_one]
  | succ cnt ih =>
    rw [wordBits_succ, List.foldr_cons, ih, Nat.pow_succ, Nat.mul_comm (2 ^ cnt) 2, Nat.mod_mul, Nat.toNat_testBit,
      Nat.pow_zero, Nat.div_one]

/-- SR[31:0] of as many bits of a word is the word cut to them. -/
theorem srWord_wordBits {x h : Nat} (hcnt : cnt ≤ 32) : srWord (wordBits cnt x h) = x % 2 ^ cnt := by
  rw [srWord, List.take_of_length_le (by rw [length_wordBits]; exact hcnt), foldr_wordBits]

theorem State.srAppend_room {b : SrBit} (h : (s.eng n).sr.length < 64) : s.srAppend n msb b =
    s.setSr n (if msb then b :: (s.eng n).sr else (s.eng n).sr ++ [b]) := by
  unfold State.srAppend
  simp [Nat.not_le.2 h]

/-- From `s` to `u` the engine's SR became `L`. -/
structure SrHolds (s u : State) (n : Nat) (L : List SrBit) : Prop where
  sr : (u.eng n).sr = L
  cnt : u.rd (pgTONG n) TONG_SR_CNT = L.length
  frame : TongFrame [(pgTONG n, TONG_SR_CNT)] [] s u

theorem srHolds_setSr {L : List SrBit} (h : TongFrame [(pgTONG n, TONG_SR_CNT)] [] s u) (hL : L.length ≤ 64) :
    SrHolds s (u.setSr n L) n L := by
  refine ⟨by simp [State.setSr], ?_, tongFrame_wr (tongFrame_setEng h) (by simp)⟩
  rw [State.setSr, State.rd_wr_same]
  exact Nat.mod_eq_of_lt (Nat.lt_of_le_of_lt hL (by decide))

/-- SR after more bits: in front of it with MSB, else behind it. -/
def appended (msb : Bool) (L bs : List SrBit) : List SrBit := if msb then bs.reverse ++ L else L ++ bs

theorem length_appended (L bs : List SrBit) : (appended msb L bs).length = L.length + bs.length := by
  unfold appended; split <;> simp [Nat.add_comm]

theorem appended_cons (L bs : List SrBit) (b : SrBit) : appended msb (appended msb L [b]) bs = appended msb L (b :: bs) := by
  unfold appended; split <;> simp

theorem srHolds_srAppend {b : SrBit} (h : TongFrame [(pgTONG n, TONG_SR_CNT)] [] s u) (hroom : (u.eng n).sr.length < 64) :
    SrHolds s (u.srAppend n msb b) n (appended msb (u.eng n).sr [b]) := by
  have hset : u.srAppend n msb b = u.setSr n (appended msb (u.eng n).sr [b]) := by
    rw [State.srAppend_room hroom]; rfl
  rw [hset]
  exact srHolds_setSr h (by rw [length_appended]; exact hroom)

theorem SrHolds.each {x : Nat} (L : List Nat) : ∀ {u : State} {l : List SrBit}, SrHolds s u n l → l.length + L.length ≤ 64 →
    SrHolds s (u.each L (fun s i => s.srAppend n msb ⟨x.testBit i, s.time.h, none⟩)) n
      (appended msb l (L.map fun i => ⟨x.testBit i, s.time.h, none⟩)) := by
  induction L with
  | nil =>
    intro u l h _
    have hsame : appended msb l [] = l := by unfold appended; split <;> simp
    rwa [List.map_nil, hsame]
  | cons i L ih =>
    intro u l h hroom
    rw [List.length_cons] at hroom
    have hbit : (⟨x.testBit i, u.time.h, none⟩ : SrBit) = ⟨x.testBit i, s.time.h, none⟩ := by rw [h.frame.time]
    have hone := srHolds_srAppend (msb := msb) (b := ⟨x.testBit i, u.time.h, none⟩) h.frame (by rw [h.sr]; omega)
    rw [h.sr] at hone
    rw [List.map_cons, ← appended_cons, ← hbit]
    exact ih hone (by rw [length_appended, List.length_singleton]; omega)

theorem length_bitOrder (msb : Bool) (cnt : Nat) : (bitOrder msb cnt).length = cnt := by
  unfold bitOrder; split <;> simp

/-- In either order of moving them, the bits of a word stand in SR as in the word. -/
theorem appended_bitOrder (msb : Bool) (cnt x h : Nat) :
    appended msb [] ((bitOrder msb cnt).map fun i => ⟨x.testBit i, h, none⟩) = wordBits cnt x h := by
  unfold appended bitOrder wordBits
  split <;> simp

/-- Bits of a word moved into an empty SR. -/
theorem srHolds_srLoad {x : Nat} (hempty : (s.eng n).sr = []) (hpos : 1 ≤ cnt) (hcnt : cnt ≤ 32) :
    SrHolds s (s.srLoad n msb cnt x) n (wordBits cnt x s.time.h) := by
  have hlen := length_bitOrder msb cnt
  obtain ⟨i, L, hL⟩ : ∃ i L, bitOrder msb cnt = i :: L := List.exists_cons_of_length_pos (by omega)
  have hone := srHolds_srAppend (n := n) (msb := msb) (b := ⟨x.testBit i, s.time.h, none⟩) (tongFrame_refl s)
    (by rw [hempty]; decide)
  rw [hempty] at hone
  rw [hL, List.length_cons] at hlen
  rw [← appended_bitOrder msb, State.srLoad, hL, List.map_cons, ← appended_cons]
  exact hone.each L (by rw [length_appended, List.length_singleton, List.length_nil]; omega)

theorem tongLegal_shift (hop : tongOp w = 6) (hlegal : tongLegal w = true) (hmode : bits w 27 26 ≠ 0) :
    1 ≤ bits w 5 0 ∧ bits w 5 0 ≤ 32 := by
  unfold tongLegal at hlegal
  rw [hop] at hlegal
  simp only [Bool.and_eq_true, Bool.or_eq_true, beq_iff_eq, decide_eq_true_eq] at hlegal
  obtain ⟨⟨-, hcnt⟩, -⟩ := hlegal
  exact hcnt.resolve_left hmode

theorem exec_tongShift_load (hn : n < 16) (hrun : s.tongRuns n 6 w) (hon : s.tongGoesOn n) (hmode : bits w 27 26 = 1)
    (hempty : (s.eng n).sr = []) : ∃ u, exec (.tongShift t n lines) s = .next u ∧ u.tongWent s n 6 ∧
      (u.eng n).sr.length = bits w 5 0 ∧ u.rd (pgTONG n) TONG_SR_CNT = bits w 5 0 ∧
      srWord (u.eng n).sr = s.rd (pgTONG n) (tongW (bits w 19 18)) % 2 ^ bits w 5 0 ∧
      Frame ((pgTONG n, TONG_SR_CNT) :: tongFields n) [] (s.at t) { u with tong := s.tong } := by
  have ⟨_, _, _, _, hop, hlegal, _⟩ := hrun
  obtain ⟨hpos, hcnt⟩ := tongLegal_shift hop hlegal (by omega)
  obtain ⟨hsr, hrd, hframe⟩ := srHolds_srLoad (s := s.begun t lines n) (n := n) (msb := w.testBit 24)
    (x := s.rd (pgTONG n) (tongW (bits w 19 18))) (by rw [State.eng_begun, hempty]) hpos hcnt
  have hpresent := (tongFrame_begun s t lines n).trans hframe
  rw [exec_tongShift, execTongShift, Nat.mod_eq_of_lt hn]
  refine State.happen_step (op := 6) ?_ hpresent.worked hn (seqApart_one (by decide)) (by simp) hon (by decide)
    ⟨?_, ?_, ?_, hpresent.wentTo⟩
  · refine (State.tongExec_sampled hrun).trans ?_
    simp [hmode]
  · rw [State.eng_wentTo, hsr, length_wordBits]
  · rw [State.rd_wentTo (by decide), hrd, length_wordBits]
  · rw [State.eng_wentTo, hsr, srWord_wordBits hcnt]

/-- The first engine clock of a SHIFT that neither clocks nor sends only counts itself. -/
theorem State.shiftLines_first {h : Nat} (hphase : (s.eng n).phase = 0) (hsend : w.testBit 22 = false)
    (hclk : w.testBit 23 = false) :
    s.shiftLines n w h = (s.setEng n { s.eng n with phase := 1 }).wr (pgTONG n) TONG_SHIFTING 1 := by
  have hclocks : 0 + 1 ≠ 2 * (if bits w 5 0 = 0 then 64 else bits w 5 0) := by split <;> omega
  unfold State.shiftLines
  simp only [hphase, hsend, hclk, Nat.zero_mod, if_true, Bool.false_eq_true, if_false, State.when_false]
  exact if_neg hclocks

theorem exec_tongShift_clock (hn : n < 16) (hrun : s.tongRuns n 6 w) (hmode : bits w 27 26 = 0)
    (hphase : (s.eng n).phase = 0) (hsend : w.testBit 22 = false) (hclk : w.testBit 23 = false) :
    ∃ u, exec (.tongShift t n lines) s = .next u ∧ (u.eng n).phase = 1 ∧ u.rd (pgTONG n) TONG_SHIFTING = 1 ∧
      u.rd (pgTONG n) TONG_PC = s.rd (pgTONG n) TONG_PC ∧
      Frame [(pgTONG n, TONG_SHIFTING)] [] (s.at t) { u with tong := s.tong } := by
  let v := ((s.begun t lines n).setEng n { s.eng n with phase := 1 }).wr (pgTONG n) TONG_SHIFTING 1
  have hframe : TongFrame [(pgTONG n, TONG_SHIFTING)] [] (s.at t) v :=
    tongFrame_wr (tongFrame_setEng (tongFrame_begun s t lines n)) (by simp)
  rw [exec_tongShift, execTongShift, Nat.mod_eq_of_lt hn]
  refine ⟨_, State.happen_tongFrame ?_ hframe, ?_, State.rd_wr_same _ _ _ _, State.rd_wr_start (by decide), hframe⟩
  · refine (State.tongExec_sampled hrun).trans ?_
    have hfirst := State.shiftLines_first (s := s.begun t lines n) (n := n) (w := w) (h := (s.at t).time.h + 5 * nsU)
      (by rw [State.eng_begun, hphase]) hsend hclk
    rw [State.eng_begun] at hfirst
    simpa only [hmode] using hfirst
  · exact congrArg TongEng.phase State.eng_setEng_same

/-! ### AWAIT (R310, R311) -/

theorem State.tongTmr_begun : (s.begun t lines n).tongTmr n = (s.at t).tongTmr n := by
  unfold State.tongTmr State.tongIdx
  rw [State.eng_begun]
  rfl

theorem State.tongIdx_begun : (s.begun t lines n).tongIdx n = (s.at t).tongIdx n := by
  unfold State.tongIdx
  rw [State.eng_begun]
  rfl

theorem exec_tongAwait_timer_runs (hn : n < 16) (hrun : s.tongRuns n 1 w) (hsrc : bits w 27 25 = 4)
    (htmr : (s.at t).tongTmr n ≠ 0) : ∃ u, exec (.tongAwait t n lines) s = .next u ∧
      u.rd (pgTONG n) TONG_STALL = 1 ∧ (u.eng n).waitH = (s.at t).time.h ∧
      Frame [(pgTONG n, TONG_STALL)] [] (s.at t) { u with tong := s.tong } := by
  let v := ((s.begun t lines n).setEng n
    { s.eng n with waitH := (s.at t).time.h, stallK := (s.at t).tongIdx n }).wr (pgTONG n) TONG_STALL 1
  have hframe : TongFrame [(pgTONG n, TONG_STALL)] [] (s.at t) v :=
    tongFrame_wr (tongFrame_setEng (tongFrame_begun s t lines n)) (by simp)
  have hwait : (s.begun t lines n).awaitHolds n w = false := by
    simp [State.awaitHolds, hsrc, State.tongTmr_begun, htmr]
  rw [exec_tongAwait, execTongAwait, Nat.mod_eq_of_lt hn]
  refine ⟨_, State.happen_tongFrame ?_ hframe, State.rd_wr_same _ _ _ _, ?_, hframe⟩
  · refine (State.tongExec_sampled hrun).trans ?_
    simp only [hwait, Bool.false_eq_true, if_false, State.eng_begun, State.tongIdx_begun]
    rfl
  · exact congrArg TongEng.waitH State.eng_setEng_same

/-- An AWAIT of another source than a slot completes without consuming anything. -/
theorem State.awaitEnd_eq (hsrc : bits w 27 25 ≠ 2) : s.awaitEnd n w none = (s.tongSettle n).tongStep n 1 := by
  simp [State.awaitEnd, hsrc]

theorem exec_tongAwait_timer_done (hn : n < 16) (hrun : s.tongRuns n 1 w) (hon : s.tongGoesOn n) (hsrc : bits w 27 25 = 4)
    (htmr : (s.at t).tongTmr n = 0) : ∃ u, exec (.tongAwait t n lines) s = .next u ∧ u.tongWent s n 1 ∧
      Frame (tongFields n) [] (s.at t) { u with tong := s.tong } := by
  have hdone : (s.begun t lines n).awaitHolds n w = true := by
    simp [State.awaitHolds, hsrc, State.tongTmr_begun, htmr]
  have hidle : (s.begun t lines n).tongStalled n = false := State.tongStalled_of_zero hrun.1
  have hframe : TongFrame [] [] (s.at t) ((s.begun t lines n).tongSettle n) := by
    rw [State.tongSettle_idle hidle]
    exact tongFrame_setEng (tongFrame_begun s t lines n)
  rw [exec_tongAwait, execTongAwait, Nat.mod_eq_of_lt hn]
  refine State.happen_step (op := 1) ?_ hframe.worked hn seqApart_nil (by simp) hon (by decide) hframe.wentTo
  refine (State.tongExec_sampled hrun).trans ?_
  rw [hdone, if_pos rfl, State.awaitEnd_eq (by omega)]

/-- An AWAIT of another source than a line's edge completes or waits on as its condition says. -/
theorem exec_tongAwaitDone_level (hn : n < 16) (hstall : s.rd (pgTONG n) TONG_STALL = 1) (hlive : s.tongLive n = true)
    (hsrc : bits (s.tongWord n) 27 25 ≠ 1) :
    ∃ a, exec (.tongAwaitDone t n lines ago) s = s.happen t a ∧ a (s.at t) =
      if (s.sampled t lines).awaitHolds n (s.tongWord n) then (s.sampled t lines).awaitEnd n (s.tongWord n) none
      else s.sampled t lines := by
  have hgoes : ¬ (!(s.sampled t lines).tongLive n || (s.sampled t lines).rd (pgTONG n) TONG_STALL != 1) = true := by
    rw [show (s.sampled t lines).tongLive n = true from hlive,
      show (s.sampled t lines).rd (pgTONG n) TONG_STALL = 1 from hstall]
    decide
  rw [exec_tongAwaitDone, execTongAwaitDone, Nat.mod_eq_of_lt hn]
  exact ⟨_, rfl, (if_neg hgoes).trans (if_neg hsrc)⟩

theorem exec_tongAwaitDone_flag (hn : n < 16) (hstall : s.rd (pgTONG n) TONG_STALL = 1) (hlive : s.tongLive n = true)
    (hsrc : bits (s.tongWord n) 27 25 = 3) (hon : s.tongGoesOn n) :
    ∃ u, exec (.tongAwaitDone t n lines ago) s = .next u ∧
      (if (s.rd (pgTONG 0) TONG_FLAGS).testBit (bits (s.tongWord n) 5 0 % 16) = (s.tongWord n).testBit 24
        then u.tongWent s n 1 else u.regs = s.regs) ∧
      Frame ((pgTONG n, TONG_C_STALL_CLOCKS) :: tongFields n) [] (s.at t) { u with tong := s.tong } := by
  let y := s.sampled t lines
  have hpresent : TongFrame [(pgTONG n, TONG_C_STALL_CLOCKS)] [] (s.at t) y := tongFrame_refl (s.at t)
  have hframe := hpresent.trans (tongFrame_tongSettle y n)
  have hholds : y.awaitHolds n (s.tongWord n) = ((s.rd (pgTONG 0) TONG_FLAGS).testBit (bits (s.tongWord n) 5 0 % 16) ==
      (s.tongWord n).testBit 24) := by
    simp only [State.awaitHolds, hsrc]
    rfl
  obtain ⟨a, hexec, ha⟩ := exec_tongAwaitDone_level (t := t) (lines := lines) (ago := ago) hn hstall hlive
    (hsrc.symm ▸ by decide)
  rw [hexec]
  by_cases hflag : (s.rd (pgTONG 0) TONG_FLAGS).testBit (bits (s.tongWord n) 5 0 % 16) = (s.tongWord n).testBit 24
  · simp only [hflag, if_true]
    refine State.happen_step (op := 1) ?_ hframe.worked hn (seqApart_one (by decide)) (by simp) hon (by decide)
      hframe.wentTo
    rw [ha, hholds, if_pos (beq_iff_eq.2 hflag), State.awaitEnd_eq (by omega)]
  · simp only [hflag, if_false]
    refine ⟨y, State.happen_tongFrame ?_ hpresent, rfl, hpresent.mono (by simp) (by simp)⟩
    rw [ha, hholds, if_neg (mt beq_iff_eq.1 hflag)]

end Sys2Proof.Machine
end

section
/-! SUPPORT. FETCH and STORE of a tongs engine and the stalls they end, for O48 (R307, R308, R309). -/

namespace Sys2Proof.Machine

variable {fs gs : List (Nat × Fld)} {ps : List Nat} {s u v : State} {b n m op pc t k l w i p x : Nat} {f g : Fld}

/-! ### Work done in steps -/

theorem Worked.trans (hu : Worked fs ps s u) (hv : Worked fs ps u v) : Worked fs ps s v :=
  ⟨fun k hk hp => (hv.regs k hk hp).trans (hu.regs k hk hp), hv.pending.trans hu.pending, hv.time.trans hu.time⟩

theorem Worked.mono (h : Worked fs ps s v) (hf : ∀ x ∈ fs, x ∈ gs) : Worked gs ps s v :=
  ⟨fun k hk hp => h.regs k (fun x hx => hk x (hf x hx)) hp, h.pending, h.time⟩

theorem Worked.wr (h : Worked fs ps s v) (hm : (b, f) ∈ fs) : Worked fs ps s (v.wr b f x) :=
  ⟨fun k hk hp => (State.regLook_wr_ne v (hk _ hm)).trans (h.regs k hk hp), h.pending, h.time⟩

theorem Worked.wrB {c : Bool} (h : Worked fs ps s v) (hm : (b, f) ∈ fs) : Worked fs ps s (v.wrB b f c) := h.wr hm

theorem Worked.setEng {e : TongEng} (h : Worked fs ps s v) : Worked fs ps s (v.setEng n e) := ⟨h.regs, h.pending, h.time⟩

theorem Worked.inc (h : Worked fs ps s v) (hm : (b, f) ∈ fs) : Worked fs ps s (v.inc b f) := h.wr hm

theorem Worked.icAdd (h : Worked fs ps s v) (hm : (ingestCtrAt p, ctr i) ∈ fs) : Worked fs ps s (v.icAdd p i k) := h.wr hm

/-- Tables above the pages lie apart from the engines' pages. -/
theorem fldKey_tong_ne_far (hn : n < 16) (hf : f.start < 0x8000) (hb : 0x71000 ≤ b) :
    fldKey (pgTONG n) f ≠ fldKey b g := by
  simp only [fldKey, pgTONG, Fld.start] at hf ⊢; omega

theorem seqApart_far (hn : n < 16) (hfs : ∀ x ∈ fs, 0x71000 ≤ x.1) : seqApart n fs := by
  intro x hx f hf
  refine fldKey_tong_ne_far hn ?_ (hfs x hx)
  simp only [List.mem_cons, List.not_mem_nil, or_false] at hf
  obtain rfl | rfl | rfl := hf <;> decide

/-! ### FETCH (R307) -/

theorem leVal_lt (l : List Byte) : leVal l < 256 ^ l.length := by
  induction l with
  | nil => decide
  | cons b l ih =>
    have hb := b.isLt
    rw [leVal, List.length_cons, Nat.pow_succ]
    omega

theorem leAt_lt (l : List Byte) (o n : Nat) : leAt l o n < 256 ^ n :=
  Nat.lt_of_lt_of_le (leVal_lt _) (Nat.pow_le_pow_right (by decide) (List.length_take_le _ _))

theorem txFields_far : ∀ x ∈ txFields p, 0x71000 ≤ x.1 := by
  simp only [txFields, List.forall_mem_cons, fifoAt]
  refine ⟨?_, ?_, ?_, by simp⟩ <;> omega

theorem worked_setTx {l : LisPort} : Worked (txFields p) [] s (s.setTx p l) :=
  ⟨(txFrame_setTx s p l).1, (txFrame_setTx s p l).pending, (txFrame_setTx s p l).time⟩

/-- The head packet of an engine's transmit FIFO with one word more taken. -/
def tookWord (s : State) (n : Nat) : State :=
  (s.setTx (tongPort n) { s.lisOf (tongPort n) with txp := (s.lisOf (tongPort n)).txp + 1 }).inc (pgTONG n) TONG_C_TX_WORDS

theorem State.tongTake_within {k : TxPkt} {l : List TxPkt} (htx : (s.lisOf (tongPort n)).tx = k :: l)
    (hmore : (s.lisOf (tongPort n)).txp + 1 < k.words) :
    s.tongTake n = some (leAt k.body (4 * (s.lisOf (tongPort n)).txp) 4, false, tookWord s n) := by
  have hlast : decide (k.words ≤ (s.lisOf (tongPort n)).txp + 1) = false := decide_eq_false (by omega)
  unfold State.tongTake
  simp only [htx, hlast, Bool.false_eq_true, if_false, tookWord]

theorem State.tongTake_none (htx : (s.lisOf (tongPort n)).tx = []) : s.tongTake n = none := by
  unfold State.tongTake
  simp only [htx]

theorem State.setEng_del (s : State) (n : Nat) (e : TongEng) : (s.setEng n e).del = s.del := rfl
theorem State.lisOf_wentTo : (s.wentTo n op pc).lisOf p = s.lisOf p := rfl

theorem lisOf_tookWord : (tookWord s n).lisOf (tongPort n) =
    { s.lisOf (tongPort n) with txp := (s.lisOf (tongPort n)).txp + 1 } := State.lisOf_setTx

theorem worked_tookWord : Worked ((pgTONG n, TONG_C_TX_WORDS) :: txFields (tongPort n)) [] s (tookWord s n) :=
  (worked_setTx.mono fun _ hx => List.mem_cons_of_mem _ hx).wr List.mem_cons_self

theorem rd_txWords_tookWord (hn : n < 16) :
    (tookWord s n).rd (pgTONG n) TONG_C_TX_WORDS = (s.rd (pgTONG n) TONG_C_TX_WORDS + 1) % 2 ^ 64 := by
  rw [tookWord, State.rd_inc_same, (txFrame_setTx s _ _).rd fun x hx => fldKey_tong_ne_far hn (by decide) (txFields_far x hx)]

/-- The state in which a FETCH of a packet's word into a working register completes. -/
def fetchedInto (s : State) (n i x : Nat) : State :=
  ((((tookWord s n).tongSettle n).setEng n { ((tookWord s n).tongSettle n).eng n with fetched := true }).wrB (pgTONG n)
    TONG_LASTF false).wr (pgTONG n) (tongW i) x

theorem State.tongFetch_within {k : TxPkt} {l : List TxPkt} (hreg : w.testBit 26 = false)
    (htx : (s.lisOf (tongPort n)).tx = k :: l) (hmore : (s.lisOf (tongPort n)).txp + 1 < k.words) :
    s.tongFetch n w = (fetchedInto s n (bits w 25 24) (leAt k.body (4 * (s.lisOf (tongPort n)).txp) 4)).tongStep n 7 := by
  unfold State.tongFetch State.fetchWord
  rw [State.tongTake_within htx hmore]
  simp only [hreg, Bool.false_eq_true, if_false]
  rfl

/-- The fields that a FETCH into a working register writes before it completes. -/
def takeFields (n i : Nat) : List (Nat × Fld) :=
  (pgTONG n, tongW i) :: (pgTONG n, TONG_LASTF) :: (pgTONG n, TONG_C_STALL_CLOCKS) :: (pgTONG n, TONG_C_TX_WORDS) ::
    txFields (tongPort n)

theorem worked_fetchedInto : Worked (takeFields n i) [] s (fetchedInto s n i x) := by
  have htook : Worked (takeFields n i) [] s (tookWord s n) :=
    worked_tookWord.mono fun _ hx => List.mem_cons_of_mem _ (List.mem_cons_of_mem _ (List.mem_cons_of_mem _ hx))
  have hsettle : Worked (takeFields n i) [] (tookWord s n) ((tookWord s n).tongSettle n) :=
    (tongFrame_tongSettle (tookWord s n) n).worked.mono (by simp [takeFields])
  exact ((htook.trans hsettle).setEng.wrB (by simp [takeFields])).wr (by simp [takeFields])

theorem seqApart_takeFields (hn : n < 16) : seqApart n (takeFields n i) :=
  seqApart_cons (tongW_apart i) (seqApart_cons (by decide) (seqApart_cons (by decide) (seqApart_cons (by decide)
    (seqApart_far hn txFields_far))))

theorem lisOf_fetchedInto : (fetchedInto s n i x).lisOf (tongPort n) =
    { s.lisOf (tongPort n) with txp := (s.lisOf (tongPort n)).txp + 1 } := by
  rw [fetchedInto, State.lisOf, State.wr_del, State.wrB_del, State.setEng_del, (tongFrame_tongSettle _ n).del]
  exact lisOf_tookWord

/-- A FETCH, run or stalled before, takes a word that is not its packet's last (R307). -/
theorem happen_fetch {a : State → State} {k : TxPkt} {l : List TxPkt} (ha : a (s.at t) = v.tongFetch n w)
    (hv : TongFrame [] [] (s.at t) v) (hn : n < 16) (hon : s.tongGoesOn n) (hreg : w.testBit 26 = false)
    (htx : (s.lisOf (tongPort n)).tx = k :: l) (hmore : (s.lisOf (tongPort n)).txp + 1 < k.words) :
    ∃ u, s.happen t a = .next u ∧ u.tongWent s n 7 ∧
      u.rd (pgTONG n) (tongW (bits w 25 24)) = leAt k.body (4 * (s.lisOf (tongPort n)).txp) 4 ∧
      u.on (pgTONG n) TONG_LASTF = false ∧
      u.lisOf (tongPort n) = { s.lisOf (tongPort n) with txp := (s.lisOf (tongPort n)).txp + 1 } ∧
      u.rd (pgTONG n) TONG_C_TX_WORDS = (s.rd (pgTONG n) TONG_C_TX_WORDS + 1) % 2 ^ 64 := by
  have hlis : v.lisOf (tongPort n) = s.lisOf (tongPort n) := by rw [State.lisOf, hv.del]; rfl
  have hword := leAt_lt k.body (4 * (s.lisOf (tongPort n)).txp) 4
  have hfetch := State.tongFetch_within (s := v) (n := n) hreg (hlis ▸ htx) (hlis ▸ hmore)
  rw [hlis] at hfetch
  have hwork : Worked (takeFields n (bits w 25 24)) [] (s.at t)
      (fetchedInto v n (bits w 25 24) (leAt k.body (4 * (s.lisOf (tongPort n)).txp) 4)) :=
    (hv.worked.mono (by simp)).trans worked_fetchedInto
  refine State.happen_step (op := 7) (ha.trans hfetch) hwork hn (seqApart_takeFields hn) (by simp) hon (by decide)
    ⟨?_, ?_, ?_, ?_⟩
  · rw [State.rd_wentTo (tongW_notMem_seqStarts _), fetchedInto, State.rd_tongW_wr]
    exact Nat.mod_eq_of_lt hword
  · have hstart := tongW_start (bits w 25 24)
    have hlastf : TONG_LASTF.start = 818 := rfl
    rw [State.on, State.rd_wentTo (by decide), fetchedInto, State.rd_wr_start (by omega), State.wrB, State.rd_wr_same]
    rfl
  · rw [State.lisOf_wentTo, lisOf_fetchedInto, hlis]
  · have hstart := tongW_start (bits w 25 24)
    have hcount : TONG_C_TX_WORDS.start = 16384 := rfl
    have hi : bits w 25 24 < 4 := bits_lt w 25 24
    rw [State.rd_wentTo (by decide), fetchedInto, State.rd_wr_start (by omega), State.rd_wrB_ne (fldKey_ne_of_start (by decide)),
      State.rd_setEng, (tongFrame_tongSettle (tookWord v n) n).rd (by simpa using fldKey_ne_of_start (by decide)) (by simp),
      rd_txWords_tookWord hn, hv.rd (by simp) (by simp)]
    rfl

theorem exec_tongFetch_takes {k : TxPkt} {l : List TxPkt} (hn : n < 16) (hrun : s.tongRuns n 7 w) (hon : s.tongGoesOn n)
    (hreg : w.testBit 26 = false) (htx : (s.lisOf (tongPort n)).tx = k :: l)
    (hmore : (s.lisOf (tongPort n)).txp + 1 < k.words) :
    ∃ u, exec (.tongFetch t n) s = .next u ∧ u.tongWent s n 7 ∧
      u.rd (pgTONG n) (tongW (bits w 25 24)) = leAt k.body (4 * (s.lisOf (tongPort n)).txp) 4 ∧
      u.on (pgTONG n) TONG_LASTF = false ∧
      u.lisOf (tongPort n) = { s.lisOf (tongPort n) with txp := (s.lisOf (tongPort n)).txp + 1 } ∧
      u.rd (pgTONG n) TONG_C_TX_WORDS = (s.rd (pgTONG n) TONG_C_TX_WORDS + 1) % 2 ^ 64 := by
  rw [exec_tongFetch, execTongFetch, Nat.mod_eq_of_lt hn]
  exact happen_fetch (State.tongExec_at hrun) (tongFrame_ticked s t n) hn hon hreg htx hmore

/-- An instruction stalls, its stall counted from the engine clock in progress. -/
def stalledAs (s : State) (n c : Nat) : State :=
  (s.setEng n { s.eng n with stallK := s.tongIdx n }).wr (pgTONG n) TONG_STALL c

theorem happen_stall {a : State → State} {c : Nat} (hc : c < 8) (ha : a (s.at t) = stalledAs (s.ticked t n) n c) :
    ∃ u, s.happen t a = .next u ∧ u.rd (pgTONG n) TONG_STALL = c ∧ (u.eng n).stallK = (s.at t).tongIdx n ∧
      Frame [(pgTONG n, TONG_STALL)] [] (s.at t) { u with tong := s.tong } := by
  have hframe : TongFrame [(pgTONG n, TONG_STALL)] [] (s.at t) (stalledAs (s.ticked t n) n c) :=
    tongFrame_wr (tongFrame_setEng (tongFrame_ticked s t n)) (by simp)
  refine ⟨_, State.happen_tongFrame ha hframe, ?_, ?_, hframe⟩
  · rw [stalledAs, State.rd_wr_same]
    exact Nat.mod_eq_of_lt hc
  · rw [stalledAs, State.eng_wr, State.eng_setEng_same, State.tongIdx_ticked]

theorem State.tongFetch_stalls (hidle : s.tongStalled n = false) (htx : (s.lisOf (tongPort n)).tx = [])
    (hwait : w.testBit 27 = true) : s.tongFetch n w = stalledAs s n 3 := by
  unfold State.tongFetch
  simp only [State.tongTake_none htx, hidle, hwait, Bool.false_eq_true, if_false, if_true]
  rfl

theorem exec_tongFetch_stalls (hn : n < 16) (hrun : s.tongRuns n 7 w) (hwait : w.testBit 27 = true)
    (htx : (s.lisOf (tongPort n)).tx = []) : ∃ u, exec (.tongFetch t n) s = .next u ∧ u.rd (pgTONG n) TONG_STALL = 3 ∧
      (u.eng n).stallK = (s.at t).tongIdx n ∧ Frame [(pgTONG n, TONG_STALL)] [] (s.at t) { u with tong := s.tong } := by
  have hidle : (s.ticked t n).tongStalled n = false := State.tongStalled_of_zero hrun.1
  rw [exec_tongFetch, execTongFetch, Nat.mod_eq_of_lt hn]
  exact happen_stall (by decide) ((State.tongExec_at hrun).trans (State.tongFetch_stalls hidle htx hwait))

/-- STALL_END of a FETCH looks at the transmit FIFO again. -/
theorem exec_stallEnd_fetch (hn : n < 16) (hstall : s.rd (pgTONG n) TONG_STALL = 3) (hlive : s.tongLive n = true) :
    ∃ a, exec (.stallEnd t n) s = s.happen t a ∧ a (s.at t) = (s.at t).tongFetch n (s.tongWord n) := by
  have hlive' : ¬ (!(s.at t).tongLive n) = true := by rw [show (s.at t).tongLive n = true from hlive]; decide
  rw [exec_stallEnd, execStallEnd, Nat.mod_eq_of_lt hn]
  refine ⟨_, rfl, (if_neg hlive').trans ?_⟩
  rw [State.rd_at, hstall]
  rfl

theorem exec_stallEnd_takes {k : TxPkt} {l : List TxPkt} (hn : n < 16) (hstall : s.rd (pgTONG n) TONG_STALL = 3)
    (hlive : s.tongLive n = true) (hon : s.tongGoesOn n) (hreg : (s.tongWord n).testBit 26 = false)
    (htx : (s.lisOf (tongPort n)).tx = k :: l) (hmore : (s.lisOf (tongPort n)).txp + 1 < k.words) :
    ∃ u, exec (.stallEnd t n) s = .next u ∧ u.tongWent s n 7 ∧
      u.rd (pgTONG n) (tongW (bits (s.tongWord n) 25 24)) = leAt k.body (4 * (s.lisOf (tongPort n)).txp) 4 := by
  obtain ⟨a, hexec, ha⟩ := exec_stallEnd_fetch (t := t) hn hstall hlive
  rw [hexec]
  obtain ⟨u, hu, hwent, hrd, -⟩ := happen_fetch ha (tongFrame_refl _) hn hon hreg htx hmore
  exact ⟨u, hu, hwent, hrd⟩

theorem exec_stallEnd_waits (hn : n < 16) (hstall : s.rd (pgTONG n) TONG_STALL = 3)
    (htx : (s.lisOf (tongPort n)).tx = []) : ∃ u, exec (.stallEnd t n) s = .next u ∧ u = s.at t := by
  refine ⟨_, ?_, rfl⟩
  cases hlive : s.tongLive n with
  | true =>
    obtain ⟨a, hexec, ha⟩ := exec_stallEnd_fetch (t := t) hn hstall hlive
    have hstalled : (s.at t).tongStalled n = true := by simp [State.tongStalled, hstall]
    rw [hexec]
    refine State.happen_eq s (ha.trans ?_) rfl rfl
    rw [State.tongFetch, State.tongTake_none (s := s.at t) htx]
    exact if_pos hstalled
  | false =>
    have hlive' : (!(s.at t).tongLive n) = true := by rw [show (s.at t).tongLive n = false from hlive]; rfl
    rw [exec_stallEnd, execStallEnd, Nat.mod_eq_of_lt hn]
    exact State.happen_eq s (if_pos hlive') rfl rfl

/-! ### STORE (R308, R309) -/

theorem State.storeWord_reg (hreg : w.testBit 26 = false) :
    s.storeWord n w = (s.rd (pgTONG n) (tongW (bits w 25 24)), s.time.h, s) := by
  rw [State.storeWord, if_neg (by rw [hreg]; decide)]

/-- The candidate that a STORE opens when no mark dates it. -/
def openedBy (s : State) (n x at_ : Nat) : OpenCand :=
  ⟨leBytes 4 x, s.portCfg (tongPort n), at_, s.rd pgTIME TIME_SEL_DOM, at_, s.rd pgTIME TIME_SEL_DOM⟩

/-- The receive side with a candidate's first word. -/
def firstWord (s : State) (n x at_ : Nat) : RxPort :=
  { s.rxOf (tongPort n) with wp := (s.rxOf (tongPort n)).wp + 1, openC := some (openedBy s n x at_) }

/-- The state in which a STORE has put a candidate's first word. -/
def storedFirst (s : State) (n x at_ : Nat) : State :=
  (((s.setEng n { s.eng n with mark := none, candMark := (s.eng n).mark }).inc (pgTONG n) TONG_C_RX_WORDS).icAdd (tongPort n)
    icBYTES 4).setRx (tongPort n) (firstWord s n x at_)

theorem State.storePut_first {at_ : Nat} (hopen : (s.rxOf (tongPort n)).openC = none) (hmark : (s.eng n).mark = none) :
    s.storePut n x at_ false = storedFirst s n x at_ := by
  unfold State.storePut
  simp only [hopen, hmark, List.nil_append, leBytes_length]
  rw [if_neg (by decide), if_neg Bool.false_ne_true, storedFirst, firstWord, openedBy, hmark]

/-- The fields that the first STORE of a candidate writes before it completes. -/
def storeFields (n : Nat) : List (Nat × Fld) :=
  (pgTONG n, TONG_C_RX_WORDS) :: (ingestCtrAt (tongPort n), ctr icBYTES) :: rxFields (tongPort n)

theorem rxFields_far : ∀ x ∈ rxFields p, 0x71000 ≤ x.1 := by
  simp only [rxFields, List.forall_mem_cons, fifoAt, ingestAt]
  refine ⟨?_, ?_, ?_, ?_, by simp⟩ <;> omega

theorem ingestCtr_far : 0x71000 ≤ ingestCtrAt p := by
  simp only [ingestCtrAt]; omega

theorem seqApart_storeFields (hn : n < 16) : seqApart n (storeFields n) :=
  seqApart_cons (by decide) (seqApart_far hn (List.forall_mem_cons.2 ⟨ingestCtr_far, rxFields_far⟩))

theorem worked_setRx {r : RxPort} : Worked (rxFields p) [] s (s.setRx p r) :=
  have h : RxFrame (rxFields p) s (s.setRx p r) := rxFrame_setRx (rxFrame_refl s) fun _ hx => hx
  ⟨h.1, h.pending, h.time⟩

theorem worked_storedFirst {at_ : Nat} : Worked (storeFields n) [] s (storedFirst s n x at_) := by
  have hmark : Worked (storeFields n) [] s (s.setEng n { s.eng n with mark := none, candMark := (s.eng n).mark }) :=
    (tongFrame_setEng (tongFrame_refl s)).worked
  refine Worked.trans ((hmark.inc ?_).icAdd ?_) (worked_setRx.mono ?_)
  · simp [storeFields]
  · simp [storeFields]
  · exact fun _ hx => List.mem_cons_of_mem _ (List.mem_cons_of_mem _ hx)

theorem rd_rxWords_storedFirst {at_ : Nat} (hn : n < 16) :
    (storedFirst s n x at_).rd (pgTONG n) TONG_C_RX_WORDS = (s.rd (pgTONG n) TONG_C_RX_WORDS + 1) % 2 ^ 64 := by
  rw [storedFirst, worked_setRx.rd (fun x hx => fldKey_tong_ne_far hn (by decide) (rxFields_far x hx)) (by simp),
    State.icAdd, State.rd_add_ne (fldKey_tong_ne_far hn (by decide) ingestCtr_far), State.rd_inc_same, State.rd_setEng]

theorem rxOf_storedFirst {at_ : Nat} : (storedFirst s n x at_).rxOf (tongPort n) = firstWord s n x at_ := State.rxOf_setRx

theorem State.rxOf_wentTo : (s.wentTo n op pc).rxOf p = s.rxOf p := rfl

/-- A STORE of a register with room for its word goes to the open candidate. -/
theorem State.tongStore_puts (hskip : (s.eng n).skip = false) (hen : s.on (ingestAt (tongPort n)) INGEST_RX_EN = true)
    (hroom : s.rxRoom (tongPort n) 1 = true) (hreg : w.testBit 26 = false) (hend : w.testBit 23 = false) :
    s.tongStore n w = ((s.tongSettle n).storePut n ((s.tongSettle n).rd (pgTONG n) (tongW (bits w 25 24)))
      (s.tongSettle n).time.h false).tongStep n 8 := by
  unfold State.tongStore
  simp only [hskip, hen, hroom, hend, State.storeWord_reg hreg, Bool.not_true, Bool.or_self, Bool.false_eq_true, if_false,
    if_true]

theorem exec_tongStore_first (hn : n < 16) (hrun : s.tongRuns n 8 w) (hon : s.tongGoesOn n) (hmode : bits w 27 26 = 0)
    (hend : w.testBit 23 = false) (hskip : (s.eng n).skip = false) (hmark : (s.eng n).mark = none)
    (hen : s.on (ingestAt (tongPort n)) INGEST_RX_EN = true) (hroom : s.rxRoom (tongPort n) 1 = true)
    (hopen : (s.rxOf (tongPort n)).openC = none) : ∃ u, exec (.tongStore t n) s = .next u ∧ u.tongWent s n 8 ∧
      (u.rxOf (tongPort n)).openC.map (·.bytes) = some (leBytes 4 (s.rd (pgTONG n) (tongW (bits w 25 24)))) ∧
      (u.rxOf (tongPort n)).wp = (s.rxOf (tongPort n)).wp + 1 ∧
      u.rd (pgTONG n) TONG_C_RX_WORDS = (s.rd (pgTONG n) TONG_C_RX_WORDS + 1) % 2 ^ 64 := by
  obtain ⟨hreg, -⟩ := testBit_of_bits hmode
  let y := (s.ticked t n).setEng n (settledEng (s.ticked t n) n)
  have hsettle : (s.ticked t n).tongSettle n = y := State.tongSettle_idle (State.tongStalled_of_zero hrun.1)
  have hyrd : y.rd (pgTONG n) (tongW (bits w 25 24)) = s.rd (pgTONG n) (tongW (bits w 25 24)) := rfl
  have hyrx : y.rxOf (tongPort n) = s.rxOf (tongPort n) := rfl
  have hymark : (y.eng n).mark = none := by
    rw [State.eng_setEng_same, settledEng, State.eng_ticked]
    exact hmark
  have hy : Worked (storeFields n) [] (s.at t) y := (tongFrame_setEng (tongFrame_ticked s t n)).worked
  have hstore : (s.ticked t n).tongStore n w =
      (storedFirst y n (s.rd (pgTONG n) (tongW (bits w 25 24))) y.time.h).tongStep n 8 := by
    rw [State.tongStore_puts (s := s.ticked t n) (by rw [State.eng_ticked, hskip]) hen hroom hreg hend, hsettle, hyrd,
      State.storePut_first (by rw [hyrx, hopen]) hymark]
  rw [exec_tongStore, execTongStore, Nat.mod_eq_of_lt hn]
  refine State.happen_step (op := 8) ((State.tongExec_at hrun).trans hstore) (hy.trans worked_storedFirst) hn
    (seqApart_storeFields hn) (by simp) hon (by decide) ⟨?_, ?_, ?_⟩
  · rw [State.rxOf_wentTo, rxOf_storedFirst]; rfl
  · rw [State.rxOf_wentTo, rxOf_storedFirst, firstWord, hyrx]
  · rw [State.rd_wentTo (by decide), rd_rxWords_storedFirst hn]; rfl

/-- A STORE with WAIT that meets a full FIFO stalls. -/
theorem State.tongStore_stalls (hidle : s.tongStalled n = false) (hskip : (s.eng n).skip = false)
    (hen : s.on (ingestAt (tongPort n)) INGEST_RX_EN = true) (hroom : s.rxRoom (tongPort n) 1 = false)
    (hwait : w.testBit 27 = true) : s.tongStore n w = stalledAs s n 2 := by
  have hgoes : ¬ ((s.eng n).skip || !s.on (ingestAt (tongPort n)) INGEST_RX_EN) = true := by rw [hskip, hen]; decide
  have hfull : ¬ s.rxRoom (tongPort n) 1 = true := by rw [hroom]; decide
  have hnew : ¬ s.tongStalled n = true := by rw [hidle]; decide
  unfold State.tongStore
  exact (if_neg hgoes).trans ((if_neg hfull).trans ((if_pos hwait).trans (if_neg hnew)))

theorem exec_tongStore_stalls (hn : n < 16) (hrun : s.tongRuns n 8 w) (hwait : w.testBit 27 = true)
    (hskip : (s.eng n).skip = false) (hen : s.on (ingestAt (tongPort n)) INGEST_RX_EN = true)
    (hroom : s.rxRoom (tongPort n) 1 = false) : ∃ u, exec (.tongStore t n) s = .next u ∧
      u.rd (pgTONG n) TONG_STALL = 2 ∧ Frame [(pgTONG n, TONG_STALL)] [] (s.at t) { u with tong := s.tong } := by
  have hidle : (s.ticked t n).tongStalled n = false := State.tongStalled_of_zero hrun.1
  rw [exec_tongStore, execTongStore, Nat.mod_eq_of_lt hn]
  obtain ⟨u, hu, hstall, -, hframe⟩ := happen_stall (t := t) (a := (·.tongExec n 8 fun s w _ => s.tongStore n w)) (by decide)
    ((State.tongExec_at hrun).trans
      (State.tongStore_stalls hidle (by rw [State.eng_ticked, hskip]) hen hroom hwait))
  exact ⟨u, hu, hstall, hframe⟩

end Sys2Proof.Machine
end

section
/-! PROOF of O48: each tongs instruction has its effect on its engine, then goes on or stalls (R300 to R312). -/

namespace Sys2Proof.Machine

/-- Settles O48: a command that runs an instruction does that instruction's work and completes it, stalls or stops the engine. -/
theorem tongsInstructionsActOnTheirEngine : Obligations.TongsInstructionsActOnTheirEngine := by
  unfold Obligations.TongsInstructionsActOnTheirEngine
  refine ⟨fun s t n w lines ⟨hn, hrun, hcond, hin⟩ => exec_tongGo_jump hn hrun hcond hin,
    fun s t n w lines ⟨hn, hrun, hon, hcond, hin, hreg⟩ => exec_tongGo_goesOn hn hrun hon hcond hin hreg,
    fun s t n w lines ⟨hn, hrun, hin⟩ => exec_tongGo_outside hn hrun hin, ?_,
    fun s t n w ⟨hn, hrun, hon, hhigh⟩ => exec_tongLoad_low hn hrun hon hhigh,
    fun s t n w ⟨hn, hrun, hon, hhigh⟩ => exec_tongLoad_high hn hrun hon hhigh,
    fun s t n w ⟨hn, hrun, hon, himm, hst⟩ => exec_tongAlu_imm hn hrun hon himm hst,
    fun s t n w ⟨hn, hrun, hon, himm, hst⟩ => exec_tongAlu_status hn hrun hon himm hst,
    fun s t n w ⟨hn, hrun, hon⟩ => exec_tongTimer_sets hn hrun hon,
    fun s t n w ⟨hn, hrun, hon, hcmd⟩ => exec_tongFlag_set hn hrun hon hcmd,
    fun s t n w ⟨hn, hrun, hon, hcmd⟩ => exec_tongFlag_host hn hrun hon hcmd,
    fun s t n w lines ⟨hn, hrun, hon, hmode, hlines, hwrite⟩ => exec_tongLut_reg hn hrun hon hmode hlines hwrite,
    fun s t n w ⟨hn, hrun, hon, hmode, hmark, hmask, hcnt⟩ hown =>
      exec_tongPins_owned hn hrun hon hmode hmark hmask hcnt hown,
    fun s t n w ⟨hn, hrun, hon, hmode, hmark, hmask, hcnt⟩ hown =>
      exec_tongPins_denied hn hrun hon hmode hmark hmask hcnt hown,
    fun s t n w lines ⟨hn, hrun, hon, hmode, hempty⟩ => exec_tongShift_load hn hrun hon hmode hempty,
    fun s t n w lines ⟨hn, hrun, hmode, hphase, hsend, hclk⟩ => exec_tongShift_clock hn hrun hmode hphase hsend hclk,
    fun s t n w k l ⟨hn, hrun, hon, hreg, htx, hmore⟩ => exec_tongFetch_takes hn hrun hon hreg htx hmore,
    fun s t n w ⟨hn, hrun, hwait, htx⟩ => exec_tongFetch_stalls hn hrun hwait htx,
    fun s t n w ⟨hn, hrun, hon, hmode, hend, hskip, hmark⟩ ⟨hen, hroom, hopen⟩ =>
      exec_tongStore_first hn hrun hon hmode hend hskip hmark hen hroom hopen,
    fun s t n w ⟨hn, hrun, hwait, hskip, hen, hroom⟩ => exec_tongStore_stalls hn hrun hwait hskip hen hroom,
    fun s t n k l ⟨hn, hstall, hlive, hon, hreg, htx, hmore⟩ => exec_stallEnd_takes hn hstall hlive hon hreg htx hmore,
    fun s t n ⟨hn, hstall, htx⟩ => exec_stallEnd_waits hn hstall htx,
    fun s t n w lines ⟨hn, hrun, hsrc, htmr⟩ => exec_tongAwait_timer_runs hn hrun hsrc htmr,
    fun s t n w lines ⟨hn, hrun, hon, hsrc, htmr⟩ => exec_tongAwait_timer_done hn hrun hon hsrc htmr,
    fun s t n ago lines ⟨hn, hstall, hlive, hsrc, hon⟩ => exec_tongAwaitDone_flag hn hstall hlive hsrc hon⟩
  rintro s t n w lines ⟨hn, hstall, hup, hwait, rfl, hop⟩
  exact exec_tongGo_illegal hn hstall hup hwait hop

end Sys2Proof.Machine
end

section
/-! SUPPORT. The program store of the tongs and the moves of an engine in it, as frames of what they write (R316, R317), and
loops whose turns write apart from each other, for O49. -/

namespace Sys2Proof.Machine

variable {fs gs : List (Nat × Fld)} {ps : List Nat} {s u v : State} {b n m a k t w i x code : Nat} {f g : Fld} {L M : List Fld}

/-! ### Loops -/

theorem State.each_keeps_mem {α β : Type} {l : List α} {F : State → α → State} (g : State → β)
    (h : ∀ u, ∀ a ∈ l, g (F u a) = g u) (s : State) : g (s.each l F) = g s := by
  induction l generalizing s with
  | nil => rfl
  | cons a l ih =>
    rw [State.each_cons, ih (fun u c hc => h u c (List.mem_cons_of_mem a hc)), h s a List.mem_cons_self]

/-- What one turn alone of a loop writes (`g`) is, after the loop, what that turn makes of the part of the state that it
reads (`r`), which no other turn writes. -/
theorem State.each_turn {α β γ : Type} {l : List α} {F : State → α → State} {i : α} {g : State → β} {r : State → γ} {y : β}
    (hnd : l.Nodup) (hi : i ∈ l) (hg : ∀ u, ∀ a ∈ l, a ≠ i → g (F u a) = g u) (hr : ∀ u, ∀ a ∈ l, a ≠ i → r (F u a) = r u)
    (hy : ∀ u, r u = r s → g (F u i) = y) : g (s.each l F) = y := by
  induction l generalizing s with
  | nil => simp at hi
  | cons c l ih =>
    obtain ⟨hc, hnd⟩ := List.nodup_cons.1 hnd
    rw [State.each_cons]
    by_cases hci : c = i
    · subst hci
      rw [State.each_keeps_mem g fun u a ha => hg u a (List.mem_cons_of_mem c ha) (fun h => hc (h ▸ ha))]
      exact hy s rfl
    · have hil : i ∈ l := (List.mem_cons.1 hi).resolve_left (Ne.symm hci)
      refine ih hnd hil (fun u a ha => hg u a (List.mem_cons_of_mem c ha)) (fun u a ha => hr u a (List.mem_cons_of_mem c ha))
        fun u hu => hy u ?_
      rw [hu, hr s c List.mem_cons_self hci]

theorem tongFrame_each {α : Type} {l : List α} {F : State → α → State} (h : ∀ u, ∀ a ∈ l, TongFrame fs ps u (F u a)) :
    TongFrame fs ps s (s.each l F) := by
  induction l generalizing s with
  | nil => exact tongFrame_refl s
  | cons c l ih => exact (h s c List.mem_cons_self).trans (ih fun u a ha => h u a (List.mem_cons_of_mem c ha))

theorem tongFrame_when {c : Bool} {F : State → State} (h : TongFrame fs ps s u) (hF : TongFrame fs ps s (F u)) :
    TongFrame fs ps s (u.when c F) := by
  unfold State.when
  split
  exacts [hF, h]

/-! ### Fields of a page -/

/-- The fields of a list on one page. -/
def onPage (b : Nat) (L : List Fld) : List (Nat × Fld) := L.map fun f => (b, f)

@[simp] theorem mem_onPage : (k, f) ∈ onPage b L ↔ k = b ∧ f ∈ L := by
  simp only [onPage, List.mem_map, Prod.mk.injEq]
  constructor
  · rintro ⟨g, hg, rfl, rfl⟩
    exact ⟨rfl, hg⟩
  · rintro ⟨rfl, hf⟩
    exact ⟨f, hf, rfl, rfl⟩

theorem onPage_mono (h : L ⊆ M) : ∀ x ∈ onPage b L, x ∈ onPage b M := by
  rintro ⟨c, f⟩ hx
  rw [mem_onPage] at hx ⊢
  exact ⟨hx.1, h hx.2⟩

/-- Engines' pages, and the program store's behind them, hold different cells. -/
theorem fldKey_tong_page (h : n ≠ m) (hf : f.start < 0x8000) (hg : g.start < 0x8000) :
    fldKey (pgTONG n) f ≠ fldKey (pgTONG m) g := by
  simp only [fldKey, pgTONG, Fld.start] at hf hg ⊢; omega

theorem pgTONGS_eq : pgTONGS = pgTONG 16 := rfl

/-- A field of an engine's page is no field of another page of the tongs, and none of another start of its own. -/
theorem onPage_apart (hf : f.start < 0x8000) (hL : ∀ g ∈ L, g.start < 0x8000) (h : n ≠ m ∨ f.start ∉ L.map Fld.start) :
    ∀ x ∈ onPage (pgTONG m) L, fldKey (pgTONG n) f ≠ fldKey x.1 x.2 := by
  rintro ⟨c, g⟩ hx
  obtain ⟨rfl, hg⟩ := mem_onPage.1 hx
  rcases h with hpage | hstart
  · exact fldKey_tong_page hpage hf (hL g hg)
  · exact fldKey_tong_ne (fun he => hstart (he ▸ List.mem_map_of_mem hg)) hf (hL g hg)

theorem TongFrame.rd_page (h : TongFrame (onPage (pgTONG m) L) [] s u) (hf : f.start < 0x8000)
    (hL : ∀ g ∈ L, g.start < 0x8000) (hout : n ≠ m ∨ f.start ∉ L.map Fld.start) : u.rd (pgTONG n) f = s.rd (pgTONG n) f :=
  h.rd (onPage_apart hf hL hout) (by simp)

/-! ### The shadow bank -/

/-- The words of the shadow bank. -/
def shadowWords : List Fld := (List.range 64).map fun a => TONGS_SHADOW.at a 4

/-- What ending a swap writes of the program store's page. -/
def swapEndFlds : List Fld := PG_SHADOW_SWAP :: TONGS_C_SWAPS :: shadowWords

theorem shadowWord_mem (a : Nat) : TONGS_SHADOW.at (a % 64) 4 ∈ shadowWords :=
  List.mem_map.2 ⟨a % 64, List.mem_range.2 (Nat.mod_lt _ (by decide)), rfl⟩

theorem swapEndFlds_small : ∀ g ∈ swapEndFlds, g.start < 0x8000 := by decide

theorem shadowWord_start (a : Nat) : (TONGS_SHADOW.at a 4).start = 0x800 + 32 * a := by
  simp only [Fld.at, Fld.start]; omega

theorem liveWord_start (a : Nat) : (TONGS_LIVE.at a 4).start = 0x1000 + 32 * a := by
  simp only [Fld.at, Fld.start]; omega

theorem tongFrame_tongShadowPut : TongFrame (onPage pgTONGS swapEndFlds) [] s (s.tongShadowPut a w) :=
  tongFrame_wr (tongFrame_refl s) (mem_onPage.2 ⟨rfl, List.mem_cons_of_mem _ (List.mem_cons_of_mem _ (shadowWord_mem a))⟩)

/-- The live bank copied into the shadow bank. -/
def bankCopied (s : State) : State :=
  s.each (List.range 64) fun s a => s.tongShadowPut a (s.rd pgTONGS (TONGS_LIVE.at a 4))

/-- The swap over: the banks alike, SHADOW_SWAP clear and the swap counted. -/
def swapClosed (s : State) : State := ((bankCopied s).wr pgTONGS PG_SHADOW_SWAP 0).inc pgTONGS TONGS_C_SWAPS

/-- No write held any more. -/
def heldCleared (s : State) : State := { s with tong := { s.tong with held := [] } }

/-- The writes held while the swap lasted, applied. -/
def heldApplied (s : State) : State :=
  (heldCleared s).each s.tong.held fun s (e : Nat × Nat) => s.tongShadowPut e.1 e.2

@[simp] theorem rd_heldCleared : (heldCleared s).rd b f = s.rd b f := rfl
@[simp] theorem on_heldCleared : (heldCleared s).on b f = s.on b f := rfl

theorem State.tongSwapEnd_over (hswap : s.on pgTONGS PG_SHADOW_SWAP = true) (hnone : s.rd pgTONGS TONGS_WAITING = 0) :
    s.tongSwapEnd = heldApplied (swapClosed s) := by
  have hover : (s.on pgTONGS PG_SHADOW_SWAP && s.rd pgTONGS TONGS_WAITING == 0) = true := by rw [hswap, hnone]; rfl
  unfold State.tongSwapEnd heldApplied heldCleared swapClosed bankCopied
  rw [if_pos hover]

theorem State.tongSwapEnd_waits (hwait : s.rd pgTONGS TONGS_WAITING ≠ 0) : s.tongSwapEnd = s := by
  have hzero : (s.rd pgTONGS TONGS_WAITING == 0) = false := beq_eq_false_iff_ne.2 hwait
  unfold State.tongSwapEnd
  simp only [hzero, Bool.and_false, Bool.false_eq_true, if_false]

theorem tongFrame_bankCopied (s : State) : TongFrame (onPage pgTONGS swapEndFlds) [] s (bankCopied s) :=
  tongFrame_each fun _ _ _ => tongFrame_tongShadowPut

theorem tongFrame_swapClosed (s : State) : TongFrame (onPage pgTONGS swapEndFlds) [] s (swapClosed s) :=
  tongFrame_inc (tongFrame_wr (tongFrame_bankCopied s) (mem_onPage.2 ⟨rfl, List.mem_cons_self⟩))
    (mem_onPage.2 ⟨rfl, List.mem_cons_of_mem _ List.mem_cons_self⟩)

theorem tongFrame_heldApplied (s : State) : TongFrame (onPage pgTONGS swapEndFlds) [] s (heldApplied s) :=
  TongFrame.trans (u := heldCleared s) (tongFrame_refl s)
    (tongFrame_each fun _ _ _ => tongFrame_tongShadowPut)

theorem tongFrame_tongSwapEnd (s : State) : TongFrame (onPage pgTONGS swapEndFlds) [] s s.tongSwapEnd := by
  by_cases hover : s.on pgTONGS PG_SHADOW_SWAP = true ∧ s.rd pgTONGS TONGS_WAITING = 0
  · rw [State.tongSwapEnd_over hover.1 hover.2]
    exact (tongFrame_swapClosed s).trans (tongFrame_heldApplied _)
  · have hno : (s.on pgTONGS PG_SHADOW_SWAP && s.rd pgTONGS TONGS_WAITING == 0) = false := by
      rw [Bool.eq_false_iff]; simpa using hover
    unfold State.tongSwapEnd
    rw [hno, if_neg Bool.false_ne_true]
    exact tongFrame_refl s

theorem tong_bankCopied (s : State) : (bankCopied s).tong = s.tong := by
  have hput : ∀ (u : State) (a w : Nat), (u.tongShadowPut a w).tong = u.tong := fun _ _ _ => rfl
  exact State.each_keeps_mem (·.tong) (fun u a _ => hput u a _) s

theorem heldApplied_nil (h : s.tong.held = []) : heldApplied s = heldCleared s := by
  rw [heldApplied, h, State.each_nil]

/-- What a swap's end leaves when no write was held. -/
structure SwapOver (s u : State) : Prop where
  frame : TongFrame (onPage pgTONGS swapEndFlds) [] s u
  swap : u.on pgTONGS PG_SHADOW_SWAP = false
  counted : u.rd pgTONGS TONGS_C_SWAPS = (s.rd pgTONGS TONGS_C_SWAPS + 1) % 2 ^ 64
  copied : ∀ a < 64, u.rd pgTONGS (TONGS_SHADOW.at a 4) = s.rd pgTONGS (TONGS_LIVE.at a 4)

theorem rd_bankCopied_shadow (ha : a < 64) :
    (bankCopied s).rd pgTONGS (TONGS_SHADOW.at a 4) = s.rd pgTONGS (TONGS_LIVE.at a 4) := by
  refine State.each_turn (i := a) (g := (·.rd pgTONGS (TONGS_SHADOW.at a 4))) (r := (·.rd pgTONGS (TONGS_LIVE.at a 4)))
    List.nodup_range (List.mem_range.2 ha) (fun u c hc hca => ?_) (fun u c hc _ => ?_) fun u hu => ?_
  all_goals dsimp only [State.tongShadowPut]
  · have hc : c % 64 = c := Nat.mod_eq_of_lt (List.mem_range.1 hc)
    exact State.rd_wr_start (by rw [hc, shadowWord_start, shadowWord_start]; omega)
  · have hc : c % 64 = c := Nat.mod_eq_of_lt (List.mem_range.1 hc)
    exact State.rd_wr_start (by rw [hc, shadowWord_start, liveWord_start]; have := List.mem_range.1 ‹_›; omega)
  · rw [Nat.mod_eq_of_lt ha, State.rd_wr_same, hu]
    exact Nat.mod_eq_of_lt (s.rd_lt _ _)

theorem swapOver_tongSwapEnd (hswap : s.on pgTONGS PG_SHADOW_SWAP = true) (hnone : s.rd pgTONGS TONGS_WAITING = 0)
    (hheld : s.tong.held = []) : SwapOver s s.tongSwapEnd := by
  have hnil : (swapClosed s).tong.held = [] := by
    rw [swapClosed, State.inc, State.add]
    exact (congrArg (·.held) (tong_bankCopied s)).trans hheld
  have hcount : (bankCopied s).rd pgTONGS TONGS_C_SWAPS = s.rd pgTONGS TONGS_C_SWAPS :=
    State.each_keeps_mem (·.rd pgTONGS TONGS_C_SWAPS) (fun u c hc => State.rd_wr_start (by
      rw [shadowWord_start, Nat.mod_eq_of_lt (List.mem_range.1 hc)]
      have hlt := List.mem_range.1 hc
      simp only [Fld.start]; omega)) s
  refine ⟨tongFrame_tongSwapEnd s, ?_, ?_, fun a ha => ?_⟩
  all_goals rw [State.tongSwapEnd_over hswap hnone, heldApplied_nil hnil]
  · rw [on_heldCleared, State.on, swapClosed, State.rd_inc_ne (fldKey_ne_of_start (by decide)), State.rd_wr_same]
    rfl
  · rw [rd_heldCleared, swapClosed, State.rd_inc_same, State.rd_wr_start (by decide), hcount]
  · rw [rd_heldCleared, swapClosed, State.rd_inc_ne (fldKey_ne_of_start ?_), State.rd_wr_start ?_, rd_bankCopied_shadow ha]
    all_goals rw [shadowWord_start]; simp only [Fld.start]; omega

/-! ### An engine's moves (R317) -/

/-- What a move writes of the engine's page, and what leaving WAITING writes of the program store's. -/
def moveFlds : List Fld := [TONG_ENTRY, TONG_LO, TONG_HI, TONG_BANK]
def unwaitFlds : List Fld := TONGS_WAITING :: swapEndFlds

theorem unwaitFlds_small : ∀ g ∈ unwaitFlds, g.start < 0x8000 := by decide

theorem tongFrame_tongMove (s : State) (n : Nat) : TongFrame (onPage (pgTONG n) moveFlds) [] s (s.tongMove n) :=
  tongFrame_wr (tongFrame_wr (tongFrame_wr (tongFrame_wr (tongFrame_refl s) (by simp [moveFlds])) (by simp [moveFlds]))
    (by simp [moveFlds])) (by simp [moveFlds])

theorem tongFrame_tongUnwait (s : State) (n : Nat) : TongFrame (onPage pgTONGS unwaitFlds) [] s (s.tongUnwait n) := by
  have hend : ∀ u : State, TongFrame (onPage pgTONGS unwaitFlds) [] u u.tongSwapEnd := fun u =>
    (tongFrame_tongSwapEnd u).mono (onPage_mono (List.subset_cons_self _ _)) (by simp)
  unfold State.tongUnwait
  dsimp only
  split
  · exact (tongFrame_wr (tongFrame_refl s) (mem_onPage.2 ⟨rfl, List.mem_cons_self⟩)).trans (hend _)
  · exact hend s

theorem tongFrame_tongLeave (s : State) (n : Nat) :
    TongFrame (onPage (pgTONG n) moveFlds ++ onPage pgTONGS unwaitFlds) [] s (s.tongLeave n) := by
  unfold State.tongLeave
  split
  · exact ((tongFrame_tongMove s n).mono (fun _ => List.mem_append_left _) (by simp)).trans
      ((tongFrame_tongUnwait _ n).mono (fun _ => List.mem_append_right _) (by simp))
  · exact tongFrame_refl s

theorem State.tongLeave_stays (h : s.tongWaits n = false) : s.tongLeave n = s := by
  rw [State.tongLeave, h, if_neg Bool.false_ne_true]

end Sys2Proof.Machine
end

section
/-! SUPPORT. What discarding an engine's work leaves of the tongs: the settling of items and the write-backs of host
descriptors that it brings about reach no cell of pages 0x060 to 0x070 (R313, R318), for O49. -/

namespace Sys2Proof.Machine

variable {fs gs : List (Nat × Fld)} {ps : List Nat} {s u v : State} {b n m a k t w i x p q h : Nat} {f g : Fld}

/-! ### The tongs apart from the rest of the hub -/

/-- A cell of pages 0x060 to 0x070. -/
def tongCell (k : Nat) : Prop := 8 * 0x60000 ≤ k ∧ k < 8 * 0x71000

/-- Of the cells of the tongs' pages `u` differs from `s` in the fields listed alone; clock, queue of commands and twin are
the same. -/
structure TongsBut (fs : List (Nat × Fld)) (s u : State) : Prop where
  regs : ∀ k, tongCell k → (∀ x ∈ fs, k ≠ fldKey x.1 x.2) → regLook u.regs k = regLook s.regs k
  pending : u.pending = s.pending
  time : u.time = s.time
  twin : u.twin = s.twin

/-- From `s` to `u` nothing of the tongs changed, nor what they received. -/
structure TongsKept (s u : State) : Prop extends TongsBut [] s u where
  tong : u.tong = s.tong
  rx : u.rx = s.rx

theorem tongsBut_refl (s : State) : TongsBut fs s s := ⟨fun _ _ _ => rfl, rfl, rfl, rfl⟩

theorem TongsBut.trans (hu : TongsBut fs s u) (hv : TongsBut fs u v) : TongsBut fs s v :=
  ⟨fun k hk hfs => (hv.regs k hk hfs).trans (hu.regs k hk hfs), hv.pending.trans hu.pending, hv.time.trans hu.time,
    hv.twin.trans hu.twin⟩

theorem TongsBut.mono (h : TongsBut fs s u) (hf : ∀ x ∈ fs, x ∈ gs) : TongsBut gs s u :=
  ⟨fun k hk hgs => h.regs k hk fun x hx => hgs x (hf x hx), h.pending, h.time, h.twin⟩

theorem TongsBut.wr (h : TongsBut fs s u) (hm : (b, f) ∈ fs) : TongsBut fs s (u.wr b f x) :=
  ⟨fun k hk hfs => (State.regLook_wr_ne u (hfs _ hm)).trans (h.regs k hk hfs), h.pending, h.time, h.twin⟩

theorem TongsBut.setEng {e : TongEng} (h : TongsBut fs s u) : TongsBut fs s (u.setEng n e) :=
  ⟨h.regs, h.pending, h.time, h.twin⟩

theorem TongsBut.rd (h : TongsBut fs s u) (hn : n ≤ 16) (hf : f.start < 0x8000)
    (hfs : ∀ x ∈ fs, fldKey (pgTONG n) f ≠ fldKey x.1 x.2) : u.rd (pgTONG n) f = s.rd (pgTONG n) f := by
  have hcell : tongCell (fldKey (pgTONG n) f) := by
    simp only [tongCell, fldKey, pgTONG, Fld.start] at hf ⊢; omega
  unfold State.rd
  rw [h.regs _ hcell hfs]

theorem tongsKept_refl (s : State) : TongsKept s s := ⟨tongsBut_refl s, rfl, rfl⟩

theorem TongsKept.trans (hu : TongsKept s u) (hv : TongsKept u v) : TongsKept s v :=
  ⟨hu.toTongsBut.trans hv.toTongsBut, hv.tong.trans hu.tong, hv.rx.trans hu.rx⟩

/-- Other parts of the state do not bear on the tongs. -/
theorem TongsKept.congr (h : TongsKept s u) (hv : (v.regs, v.pending, v.time, v.twin, v.tong, v.rx) =
    (u.regs, u.pending, u.time, u.twin, u.tong, u.rx)) : TongsKept s v := by
  simp only [Prod.mk.injEq] at hv
  obtain ⟨hregs, hpending, htime, htwin, htong, hrx⟩ := hv
  refine h.trans ⟨⟨fun k _ _ => by rw [hregs], hpending, htime, htwin⟩, htong, hrx⟩

theorem TongsKept.wr (h : TongsKept s u) (hk : ¬ tongCell (fldKey b f)) : TongsKept s (u.wr b f x) :=
  h.trans ⟨⟨fun _ hc _ => State.regLook_wr_ne u fun he => hk (he ▸ hc), rfl, rfl, rfl⟩, rfl, rfl⟩

theorem notTongCell_of_lt (hk : fldKey b f < 8 * 0x60000) : ¬ tongCell (fldKey b f) := fun hc => absurd hc.1 (by omega)
theorem notTongCell_of_ge (hk : 0x71000 ≤ b) : ¬ tongCell (fldKey b f) := fun hc => by
  have hlt := hc.2
  simp only [fldKey] at hlt
  omega

/-- Events of pages below and above the tongs' write no cell of theirs. -/
theorem evtKey_tongCell (hk : tongCell k) (hm : m < 0x60 ∨ 0x70 < m ∧ m < 0x1000) : evtKey m k = false := by
  obtain ⟨hlow, hhigh⟩ := hk
  rw [evtKey_iff]
  omega

theorem TongsKept.raise (h : TongsKept s u) (hm : m < 0x60 ∨ 0x70 < m ∧ m < 0x1000) : TongsKept s (u.raise m k) := by
  obtain ⟨hregs, hrest, -, -⟩ := frame_raise (fs := []) (ps := [m]) (b := k) (frame_refl _ _ u) List.mem_cons_self
  refine h.trans ⟨⟨fun c hc _ => hregs c (by simp) fun q hq => ?_, ?_, ?_, ?_⟩, ?_, ?_⟩
  · rw [List.mem_singleton.1 hq]
    exact evtKey_tongCell hc hm
  all_goals rw [hrest]

theorem TongsKept.msixReq (h : TongsKept s u) : TongsKept s (u.msixReq k) := by
  obtain ⟨hregs, hrest, -, -⟩ := frame_msixReq (fs := []) (ps := [1]) (v := k) (frame_refl _ _ u) List.mem_cons_self
  refine h.trans ⟨⟨fun c hc _ => hregs c (by simp) fun q hq => ?_, ?_, ?_, ?_⟩, ?_, ?_⟩
  · rw [List.mem_singleton.1 hq]
    exact evtKey_tongCell hc (Or.inl (by decide))
  all_goals rw [hrest]

/-! ### Branches and loops -/

theorem TongsKept.ite {c : Prop} {_ : Decidable c} (hu : TongsKept s u) (hv : TongsKept s v) :
    TongsKept s (if c then u else v) := by
  split
  exacts [hu, hv]

theorem TongsKept.when {c : Bool} {F : State → State} (h : TongsKept s u)
    (hF : ∀ {u : State}, TongsKept s u → TongsKept s (F u)) : TongsKept s (u.when c F) := (hF h).ite h

theorem TongsKept.each {α : Type} {l : List α} {F : State → α → State} (h : TongsKept s u)
    (hF : ∀ {u : State} {a : α}, TongsKept s u → TongsKept s (F u a)) : TongsKept s (u.each l F) := by
  induction l generalizing u with
  | nil => exact h
  | cons a l ih => exact ih (hF h)

/-! ### Host rings (R386 to R390) -/

theorem ringAt_far : 0x71000 ≤ ringAt k := by
  simp only [ringAt, txringAt, rxringAt]
  split <;> omega

theorem TongsKept.wrRing (h : TongsKept s u) : TongsKept s (u.wr (ringAt k) f x) := h.wr (notTongCell_of_ge ringAt_far)

theorem TongsKept.wrHost (h : TongsKept s u) (hf : fldKey pgHOST f < 8 * 0x60000) : TongsKept s (u.wr pgHOST f x) :=
  h.wr (notTongCell_of_lt hf)

theorem TongsKept.wrLard (h : TongsKept s u) : TongsKept s (u.wr pgLARD f x) := h.wr (notTongCell_of_ge (by decide))

theorem TongsKept.emit {e : Emission} (h : TongsKept s u) : TongsKept s (u.emit e) := h.ite (h.congr (by rfl))

theorem TongsKept.hostWrite {d : List Byte} (h : TongsKept s u) : TongsKept s (u.hostWrite a d) := h.emit.ite h

theorem TongsKept.mirrorRing (h : TongsKept s u) : TongsKept s (u.mirrorRing k) := h.wrRing.wrRing

theorem TongsKept.dropBell (h : TongsKept s u) : TongsKept s (u.dropBell k x) := by
  unfold State.dropBell
  split
  exacts [(h.congr (by rfl)).ite h, h]

theorem TongsKept.fetchOne (h : TongsKept s u) : TongsKept s (u.fetchOne k) :=
  ((h.congr (by rfl)).when fun h => h.wrHost (by decide)).emit.dropBell.mirrorRing

theorem TongsKept.fetchN (h : TongsKept s u) : TongsKept s (u.fetchN k n) := by
  induction n generalizing u with
  | zero => exact h
  | succ n ih => exact .ite (ih h.fetchOne) h

theorem TongsKept.fetchRing (h : TongsKept s u) : TongsKept s (u.fetchRing k) := h.fetchN

theorem TongsKept.fetchItems (h : TongsKept s u) : TongsKept s u.fetchItems := h.each fun h => h.ite h.fetchRing

theorem TongsKept.headN (h : TongsKept s u) : TongsKept s (u.headN k n) := by
  induction n generalizing u with
  | zero => exact h
  | succ n ih => exact .ite (ih (h.congr (v := { u with host := _ }) (by rfl)).wrRing) h

theorem TongsKept.descDone (h : TongsKept s u) : TongsKept s (u.descDone k x) :=
  (h.congr (by rfl)).headN.mirrorRing.fetchRing.when fun h => h.fetchItems

theorem TongsKept.txComplete {d : List Byte} (h : TongsKept s u) : TongsKept s (u.txComplete k x w d) := by
  unfold State.txComplete
  split
  exacts [h, ((h.when fun h => h.hostWrite).hostWrite.when fun h => h.wrHost (by decide)).descDone.when fun h => h.msixReq]

theorem TongsKept.wbWrite {status flow seq stamp dom : Nat} {admitted : Bool} {wb : WriteBack} (h : TongsKept s u) :
    TongsKept s (u.wbWrite status flow seq stamp dom admitted wb) := by
  unfold State.wbWrite
  split
  exacts [(h.wrHost (by decide)).txComplete, (h.wrHost (by decide)).raise (Or.inl (by decide))]

/-! ### Items that settle (R24, R33) -/

theorem TongsKept.putItem {y : LItem} (h : TongsKept s u) : TongsKept s (u.putItem k y) := h.congr rfl

theorem TongsKept.spillNext (h : TongsKept s u) : TongsKept s u.spillNext := by
  have hfull : TongsKept s ((((u.wr pgLARD LARD_SPILL_FULL 1).raise 0xA0 2).wr pgLARD LARD_SPILLING 0).raise 0xA0 1) :=
    (h.wrLard.raise (Or.inr (by decide))).wrLard.raise (Or.inr (by decide))
  exact h.ite (by split; exacts [h, by split; exacts [h, h.putItem.ite (h.ite hfull)]])

theorem TongsKept.spillStart (h : TongsKept s u) : TongsKept s u.spillStart :=
  (h.wrLard.raise (Or.inr (by decide))).spillNext.ite h.spillNext

theorem TongsKept.spillFreed (h : TongsKept s u) : TongsKept s u.spillFreed := h.wrLard.spillStart.ite h

theorem TongsKept.freeCells (h : TongsKept s u) : TongsKept s (u.freeCells n) :=
  (h.wrLard.wrLard.wrLard.raise (Or.inr (by decide))).ite h.wrLard.wrLard

theorem TongsKept.wbFinish (h : TongsKept s u) : TongsKept s (u.wbFinish k) := by
  unfold State.wbFinish
  split
  · exact h
  · split
    exacts [h, h.ite h.putItem.wbWrite]

theorem TongsKept.settle (h : TongsKept s u) : TongsKept s (u.settle k) := by
  unfold State.settle
  extract_lets u1 src u2
  have h1 : TongsKept s u1 := h.wbFinish
  clear_value u1
  have h2 : TongsKept s u2 := h1.congr rfl
  clear_value u2
  split
  · exact h1
  · refine h1.ite ?_
    split
    exacts [h2.freeCells, h2.spillFreed, h2.freeCells.spillFreed, h2.freeCells.spillFreed]

theorem TongsKept.wireLost (h : TongsKept s u) : TongsKept s (u.wireLost k p) := by
  unfold State.wireLost
  split
  · split
    exacts [h.putItem.settle.ite h, h]
  · exact h

theorem TongsKept.wrFifo (h : TongsKept s u) : TongsKept s (u.wr (fifoAt p) f x) :=
  h.wr (notTongCell_of_ge (by unfold fifoAt; omega))

theorem TongsKept.txPop (h : TongsKept s u) : TongsKept s (u.txPop p) := by
  have hlis : ∀ l : LisPort, TongsKept s (u.setLis p l) := fun _ => h.congr rfl
  exact .ite (hlis _).wrFifo.wrFifo.wrFifo (hlis _)

end Sys2Proof.Machine
end

section
/-! SUPPORT. What starting, stopping, forcing and discarding write of an engine, for O49 (R313 to R318). -/

namespace Sys2Proof.Machine

variable {fs gs : List (Nat × Fld)} {ps : List Nat} {s u v : State} {b n m a k t w i x p q code : Nat} {f g : Fld} {L M : List Fld}

/-! ### Reading beside an engine's operations -/

/-- Fields of an engine's page and of the program store's. -/
def onTongs (m : Nat) (L M : List Fld) : List (Nat × Fld) := onPage (pgTONG m) L ++ onPage pgTONGS M

theorem onTongs_mono {L' M' : List Fld} (hL : L ⊆ L') (hM : M ⊆ M') : ∀ x ∈ onTongs m L M, x ∈ onTongs m L' M' :=
  fun x hx => List.mem_append.2 ((List.mem_append.1 hx).imp (onPage_mono hL x) (onPage_mono hM x))

theorem onTongs_engine : ∀ x ∈ onPage (pgTONG m) L, x ∈ onTongs m L M := fun _ => List.mem_append_left _
theorem onTongs_store : ∀ x ∈ onPage pgTONGS M, x ∈ onTongs m L M := fun _ => List.mem_append_right _

theorem mem_onTongs (h : f ∈ L) : (pgTONG m, f) ∈ onTongs m L M := onTongs_engine _ (mem_onPage.2 ⟨rfl, h⟩)

/-- Of the lists' fields none lies at field `f` of page `n` of the tongs. -/
theorem onTongs_apart (hf : f.start < 0x8000) (hL : ∀ g ∈ L, g.start < 0x8000) (hM : ∀ g ∈ M, g.start < 0x8000)
    (hengine : n ≠ m ∨ f.start ∉ L.map Fld.start) (hstore : n ≠ 16 ∨ f.start ∉ M.map Fld.start) :
    ∀ x ∈ onTongs m L M, fldKey (pgTONG n) f ≠ fldKey x.1 x.2 := fun x hx =>
  (List.mem_append.1 hx).elim (onPage_apart hf hL hengine x) (onPage_apart hf hM hstore x)

/-- Events of a page of the tongs write PG_EVT of that page and no other cell of theirs. -/
theorem TongFrame.tongsBut (h : TongFrame gs ps s u) (hgs : ∀ x ∈ gs, x ∈ fs)
    (hps : ∀ q ∈ ps, q < 0x1000 ∧ (pgAt q, PG_PG_EVT) ∈ fs) : TongsBut fs s u := by
  have hrest := h.2.1
  refine ⟨fun k hk hfs => h.1 k (fun x hx => hfs x (hgs x hx)) fun q hq => ?_, h.pending, h.time, congrArg (·.twin) hrest⟩
  obtain ⟨hlt, hmem⟩ := hps q hq
  have hevt := hfs _ hmem
  obtain ⟨hlow, hhigh⟩ := hk
  rw [evtKey_iff]
  simp only [fldKey, pgAt] at hevt
  omega

/-- A loop over engines writes what its turns write. -/
theorem TongsBut.each {α : Type} {l : List α} {F : State → α → State} {fs : α → List (Nat × Fld)}
    (h : ∀ u, ∀ a ∈ l, TongsBut (fs a) u (F u a)) : TongsBut (l.flatMap fs) s (s.each l F) := by
  induction l generalizing s with
  | nil => exact tongsBut_refl s
  | cons c l ih =>
    exact ((h s c List.mem_cons_self).mono fun x hx => List.mem_append_left _ hx).trans
      ((ih fun u a ha => h u a (List.mem_cons_of_mem c ha)).mono fun x hx => List.mem_append_right _ hx)

theorem tongFrame_eachOwn {α : Type} {l : List α} {F : State → α → State} {fs : α → List (Nat × Fld)} {ps : α → List Nat}
    (h : ∀ u, ∀ a ∈ l, TongFrame (fs a) (ps a) u (F u a)) :
    TongFrame (l.flatMap fs) (l.flatMap ps) s (s.each l F) := by
  induction l generalizing s with
  | nil => exact tongFrame_refl s
  | cons c l ih =>
    exact ((h s c List.mem_cons_self).mono (fun x hx => List.mem_append_left _ hx) fun q hq => List.mem_append_left _ hq).trans
      ((ih fun u a ha => h u a (List.mem_cons_of_mem c ha)).mono (fun x hx => List.mem_append_right _ hx)
        fun q hq => List.mem_append_right _ hq)

/-! ### Starting (R313, R315) -/

/-- What a start clears of the engine's page, and all that it writes there while ENTRY lies in the program region. -/
def clearFlds : List Fld := [TONG_W0, TONG_W1, TONG_W2, TONG_W3, TONG_ST, TONG_SR_CNT, TONG_SHIFTING, TONG_LASTF, TONG_HELD]
def startFlds : List Fld := clearFlds ++ [TONG_PC, TONG_BANK, TONG_STALL]

/-- The engine at its start: no bits in SR, no count, no latch, its divider restarted. -/
def startedEng (s : State) (n : Nat) : TongEng :=
  { s.eng n with
    sr := [], divAt := s.time.clk, tmr := 0, tmrK := 0, stallK := 0, phase := 0, latch := []
    fine := none, skip := false, fetched := false }

/-- Zeros in the fields listed. -/
def State.clears (s : State) (b : Nat) (L : List Fld) : State := s.each L fun s f => s.wr b f 0

/-- The engine's registers cleared for a start. -/
def clearedAt (s : State) (n : Nat) : State := (s.setEng n (startedEng s n)).clears (pgTONG n) clearFlds

/-- The engine then at ENTRY on the live bank. -/
def placedAt (s : State) (n : Nat) : State :=
  ((clearedAt s n).wr (pgTONG n) TONG_PC ((clearedAt s n).rd (pgTONG n) TONG_ENTRY)).wr (pgTONG n) TONG_BANK
    ((clearedAt s n).rd pgTONGS TONGS_LIVE_BANK)

/-- The engine started, held by FREEZE where that is set. -/
def startedAt (s : State) (n : Nat) : State :=
  (placedAt s n).wr (pgTONG n) TONG_STALL (if (placedAt s n).on (pgTONG n) PG_FREEZE then 4 else 0)

/-- The program store's cells are none of an engine's page. -/
theorem fldKey_store_ne (hn : n < 16) (hf : f.start < 0x8000) (hg : g.start < 0x8000) :
    fldKey pgTONGS f ≠ fldKey (pgTONG n) g := fldKey_tong_page (n := 16) (by omega) hf hg

theorem tongFrame_clears (hL : ∀ f ∈ L, (b, f) ∈ fs) : TongFrame fs ps s (s.clears b L) :=
  tongFrame_each fun u f hf => tongFrame_wr (tongFrame_refl u) (hL f hf)

theorem State.rd_clears_apart (h : f.start ∉ L.map Fld.start) : (s.clears b L).rd b f = s.rd b f :=
  State.each_keeps_mem (F := fun s f => s.wr b f 0) (·.rd b f)
    (fun _ _ hg => State.rd_wr_start fun he => h (he ▸ List.mem_map_of_mem hg)) s

/-- A field that reads 0 does so whatever cell is cleared. -/
theorem State.rd_wr_zero (h : s.rd b f = 0) (hw : f.start = g.start → f = g) : (s.wr b g 0).rd b f = 0 := by
  by_cases hs : f.start = g.start
  · rw [← hw hs, State.rd_wr_same, Nat.zero_mod]
  · rw [State.rd_wr_start hs, h]

theorem State.rd_clears (hm : f ∈ L) (hL : ∀ g ∈ L, f.start = g.start → f = g) : (s.clears b L).rd b f = 0 := by
  have hstays : ∀ (l : List Fld) (u : State), (∀ g ∈ l, f.start = g.start → f = g) → u.rd b f = 0 →
      (u.clears b l).rd b f = 0 := by
    intro l
    induction l with
    | nil => exact fun u _ h => h
    | cons g l ih =>
      exact fun u hl h => ih _ (fun c hc => hl c (List.mem_cons_of_mem g hc)) (State.rd_wr_zero h (hl g List.mem_cons_self))
  induction L generalizing s with
  | nil => simp at hm
  | cons g l ih =>
    have hl : ∀ c ∈ l, f.start = c.start → f = c := fun c hc => hL c (List.mem_cons_of_mem g hc)
    by_cases hfg : f = g
    · subst hfg
      exact hstays l _ hl (by rw [State.rd_wr_same, Nat.zero_mod])
    · exact ih ((List.mem_cons.1 hm).resolve_left hfg) hl

theorem eng_clears : (s.clears b L).eng n = s.eng n := 
  State.each_keeps_mem (F := fun s f => s.wr b f 0) (·.eng n) (fun _ _ _ => rfl) s

theorem State.rd_store_clears (hL : ∀ g ∈ L, g.start < 0x8000) (hn : n < 16) (hf : f.start < 0x8000) :
    (s.clears (pgTONG n) L).rd pgTONGS f = s.rd pgTONGS f :=
  State.each_keeps_mem (F := fun s f => s.wr (pgTONG n) f 0) (·.rd pgTONGS f)
    (fun _ g hg => State.rd_wr_ne _ (fldKey_store_ne hn hf (hL g hg))) s

theorem rd_placedAt_apart (hf : f.start ∉ (TONG_PC :: TONG_BANK :: clearFlds).map Fld.start) :
    (placedAt s n).rd (pgTONG n) f = s.rd (pgTONG n) f := by
  simp only [List.map_cons, List.mem_cons, not_or] at hf
  obtain ⟨hpc, hbank, hclear⟩ := hf
  rw [placedAt, State.rd_wr_start hbank, State.rd_wr_start hpc, clearedAt, State.rd_clears_apart hclear, State.rd_setEng]

theorem rd_startedAt_apart (hf : f.start ∉ (TONG_STALL :: TONG_PC :: TONG_BANK :: clearFlds).map Fld.start) :
    (startedAt s n).rd (pgTONG n) f = s.rd (pgTONG n) f := by
  rw [List.map_cons, List.mem_cons, not_or] at hf
  rw [startedAt, State.rd_wr_start hf.1, rd_placedAt_apart hf.2]

theorem State.tongStart_eq (s : State) (n : Nat) : s.tongStart n = if s.tongInside n (s.rd (pgTONG n) TONG_ENTRY) = true
    then startedAt s n else (startedAt s n).tongFault n 2 := by
  have hlast : s.tongStart n = if (startedAt s n).tongInside n ((startedAt s n).rd (pgTONG n) TONG_ENTRY) = true
      then startedAt s n else (startedAt s n).tongFault n 2 := by
    unfold State.tongStart startedAt placedAt clearedAt State.clears clearFlds startedEng
    rfl
  rw [hlast, rd_startedAt_apart (by decide),
    State.tongInside_congr (s := s) (rd_startedAt_apart (by decide)) (rd_startedAt_apart (by decide))]

/-- What a start leaves: cleared registers, and the engine at ENTRY on the live bank. -/
structure Started (s u : State) (n : Nat) : Prop where
  pc : u.rd (pgTONG n) TONG_PC = s.rd (pgTONG n) TONG_ENTRY
  stall : u.rd (pgTONG n) TONG_STALL = if s.on (pgTONG n) PG_FREEZE then 4 else 0
  bank : u.rd (pgTONG n) TONG_BANK = s.rd pgTONGS TONGS_LIVE_BANK
  clear : ∀ f ∈ [TONG_W0, TONG_W3, TONG_ST], u.rd (pgTONG n) f = 0
  eng : u.eng n = startedEng s n
  frame : TongFrame (onPage (pgTONG n) startFlds) [] s u

theorem rd_startedAt_clear (hf : f ∈ clearFlds) (hout : f.start ∉ [TONG_STALL, TONG_PC, TONG_BANK].map Fld.start)
    (hL : ∀ g ∈ clearFlds, f.start = g.start → f = g) : (startedAt s n).rd (pgTONG n) f = 0 := by
  simp only [List.map_cons, List.map_nil, List.mem_cons, List.not_mem_nil, or_false, not_or] at hout
  obtain ⟨hstall, hpc, hbank⟩ := hout
  rw [startedAt, State.rd_wr_start hstall, placedAt, State.rd_wr_start hbank, State.rd_wr_start hpc, clearedAt,
    State.rd_clears hf hL]

theorem tongFrame_startedAt (s : State) (n : Nat) : TongFrame (onPage (pgTONG n) startFlds) [] s (startedAt s n) := by
  have hclear : TongFrame (onPage (pgTONG n) startFlds) [] s (clearedAt s n) :=
    (tongFrame_setEng (tongFrame_refl s)).trans
      (tongFrame_clears fun f hf => mem_onPage.2 ⟨rfl, List.mem_append_left _ hf⟩)
  exact tongFrame_wr (tongFrame_wr (tongFrame_wr hclear (by simp [startFlds])) (by simp [startFlds])) (by simp [startFlds])

theorem started_startedAt (hn : n < 16) : Started s (startedAt s n) n := by
  have hentry : (clearedAt s n).rd (pgTONG n) TONG_ENTRY = s.rd (pgTONG n) TONG_ENTRY :=
    State.rd_clears_apart (by decide)
  have hbank : (clearedAt s n).rd pgTONGS TONGS_LIVE_BANK = s.rd pgTONGS TONGS_LIVE_BANK :=
    State.rd_store_clears (by decide) hn (by decide)
  refine ⟨?_, ?_, ?_, ?_, ?_, tongFrame_startedAt s n⟩
  · rw [startedAt, State.rd_wr_start (by decide), placedAt, State.rd_wr_start (by decide), State.rd_wr_same, hentry]
    exact Nat.mod_eq_of_lt (s.rd_lt _ _)
  · rw [startedAt, State.rd_wr_same, State.on, rd_placedAt_apart (by decide), ← State.on]
    cases s.on (pgTONG n) PG_FREEZE <;> rfl
  · rw [startedAt, State.rd_wr_start (by decide), placedAt, State.rd_wr_same, hbank]
    exact Nat.mod_eq_of_lt (s.rd_lt _ _)
  · simp only [List.forall_mem_cons]
    exact ⟨rd_startedAt_clear (by decide) (by decide) (by decide), rd_startedAt_clear (by decide) (by decide) (by decide),
      rd_startedAt_clear (by decide) (by decide) (by decide), by simp⟩
  · rw [startedAt, State.eng_wr, placedAt, State.eng_wr, State.eng_wr, clearedAt, eng_clears, State.eng_setEng_same]

/-- Whatever enabling an engine can write of its page beside ENABLE: a start, a fault at once, a hold. -/
def beginFlds : List Fld := startFlds ++ TONG_C_STALL_CLOCKS :: TONG_FAULT :: moveFlds

theorem tongFrame_tongFault (s : State) (n code : Nat) :
    TongFrame (onTongs n beginFlds unwaitFlds) [0x60 + n] s (s.tongFault n code) := by
  have hsettle : TongFrame (onTongs n beginFlds unwaitFlds) [0x60 + n] s (s.tongSettle n) :=
    (tongFrame_tongSettle s n).mono (by
      simp only [List.forall_mem_cons]
      exact ⟨mem_onTongs (by decide), by simp⟩) (by simp)
  have hleave : ∀ u : State, TongFrame (onTongs n beginFlds unwaitFlds) [0x60 + n] u (u.tongLeave n) := fun u =>
    (tongFrame_tongLeave u n).mono (onTongs_mono (by decide) (fun _ h => h)) (by simp)
  exact (tongFrame_raise (tongFrame_wr (tongFrame_wr hsettle (mem_onTongs (by decide))) (mem_onTongs (by decide)))
    List.mem_cons_self).trans (hleave _)

theorem tongFrame_tongStart (s : State) (n : Nat) :
    TongFrame (onTongs n beginFlds unwaitFlds) [0x60 + n] s (s.tongStart n) := by
  have hstart : TongFrame (onTongs n beginFlds unwaitFlds) [0x60 + n] s (startedAt s n) :=
    (tongFrame_startedAt s n).mono (fun x hx => onTongs_engine x (onPage_mono (List.subset_append_left _ _) x hx)) (by simp)
  rw [State.tongStart_eq]
  split
  · exact hstart
  · exact hstart.trans (tongFrame_tongFault _ n 2)

/-- What holding an engine at ENTRY writes of its page. -/
def holdFlds : List Fld := [TONG_HELD, TONG_PC, TONG_BANK, TONG_STALL]

theorem tongFrame_tongHold (s : State) (n : Nat) : TongFrame (onPage (pgTONG n) holdFlds) [] s (s.tongHold n) :=
  tongFrame_wr (tongFrame_wr (tongFrame_wr (tongFrame_wr (tongFrame_setEng (tongFrame_refl s)) (by simp [holdFlds]))
    (by simp [holdFlds])) (by simp [holdFlds])) (by simp [holdFlds])

theorem tongFrame_tongBegin (s : State) (n : Nat) :
    TongFrame (onTongs n beginFlds unwaitFlds) [0x60 + n] s (s.tongBegin n) := by
  unfold State.tongBegin
  split
  · exact (tongFrame_tongHold s n).mono (fun x hx => onTongs_engine x (onPage_mono (by decide) x hx)) (by simp)
  · exact tongFrame_tongStart s n

theorem State.tongEnable_on (h : s.on (pgTONG n) PG_ENABLE = true) : s.tongEnable n = s := by
  rw [State.tongEnable, if_pos h]

theorem State.tongEnable_off (h : s.on (pgTONG n) PG_ENABLE = false) : s.tongEnable n =
    (s.wr (pgTONG n) PG_ENABLE 1).when (s.tongAwake n) (·.tongBegin n) := by
  rw [State.tongEnable, h, if_neg Bool.false_ne_true]

theorem tongFrame_tongEnable (s : State) (n : Nat) :
    TongFrame (onTongs n (PG_ENABLE :: beginFlds) unwaitFlds) [0x60 + n] s (s.tongEnable n) := by
  have hset : TongFrame (onTongs n (PG_ENABLE :: beginFlds) unwaitFlds) [0x60 + n] s (s.wr (pgTONG n) PG_ENABLE 1) :=
    tongFrame_wr (tongFrame_refl s) (mem_onTongs List.mem_cons_self)
  unfold State.tongEnable
  split
  · exact tongFrame_refl s
  · exact tongFrame_when hset (hset.trans ((tongFrame_tongBegin _ n).mono
      (onTongs_mono (List.subset_cons_self _ _) (fun _ h => h)) (fun _ h => h)))

end Sys2Proof.Machine
end

section
/-! SUPPORT. What stopping an engine discards and writes, for O49 (R313, R317, R318). -/

namespace Sys2Proof.Machine

variable {fs gs : List (Nat × Fld)} {ps : List Nat} {s u v : State} {b n m a k t w i x p q code : Nat} {f g : Fld} {L M : List Fld}

/-! ### Discards (R313) -/

/-- What discarding an engine's work writes of its page. -/
def rewindFlds : List Fld := [TONG_C_CAND_REWOUND]
def srDropFlds : List Fld := [TONG_C_BITS_LOST, TONG_SR_CNT, TONG_SHIFTING]
def txDropFlds : List Fld := [TONG_C_TX_FLUSHED]
def discardFlds : List Fld := rewindFlds ++ srDropFlds ++ txDropFlds

theorem TongsBut.add (h : TongsBut fs s u) (hm : (b, f) ∈ fs) : TongsBut fs s (u.add b f x) := h.wr hm
theorem TongsBut.inc (h : TongsBut fs s u) (hm : (b, f) ∈ fs) : TongsBut fs s (u.inc b f) := h.wr hm

theorem TongsBut.when {c : Bool} {F : State → State} (h : TongsBut fs s u) (hF : TongsBut fs s (F u)) :
    TongsBut fs s (u.when c F) := by
  unfold State.when
  split
  exacts [hF, h]

theorem TongsKept.tongsBut (h : TongsKept s u) : TongsBut fs s u := h.toTongsBut.mono (by simp)

/-- A drop of transmit words counts them, and beyond that leaves the tongs alone. -/
theorem State.tongTxDrop_cases (s : State) (n : Nat) : s.tongTxDrop n = s ∨
    ∃ x, TongsKept (s.wr (pgTONG n) TONG_C_TX_FLUSHED x) (s.tongTxDrop n) := by
  unfold State.tongTxDrop
  dsimp only
  split
  · exact Or.inl rfl
  · exact Or.inr ⟨_, (tongsKept_refl _).txPop.wireLost⟩

theorem tongsBut_tongTxDrop (s : State) (n : Nat) : TongsBut (onPage (pgTONG n) txDropFlds) s (s.tongTxDrop n) := by
  obtain hsame | ⟨x, hkept⟩ := s.tongTxDrop_cases n
  · rw [hsame]
    exact tongsBut_refl s
  · exact ((tongsBut_refl s).wr (mem_onPage.2 ⟨rfl, List.mem_cons_self⟩)).trans hkept.tongsBut

theorem tong_tongTxDrop (s : State) (n : Nat) : (s.tongTxDrop n).tong = s.tong := by
  obtain hsame | ⟨x, hkept⟩ := s.tongTxDrop_cases n
  exacts [congrArg (·.tong) hsame, hkept.tong]

theorem rx_tongTxDrop (s : State) (n : Nat) : (s.tongTxDrop n).rx = s.rx := by
  obtain hsame | ⟨x, hkept⟩ := s.tongTxDrop_cases n
  exacts [congrArg (·.rx) hsame, hkept.rx]

theorem tongsBut_tongSrDrop (s : State) (n : Nat) : TongsBut (onPage (pgTONG n) srDropFlds) s (s.tongSrDrop n) :=
  ((((tongsBut_refl s).add (by simp [srDropFlds])).wr (by simp [srDropFlds])).wr (by simp [srDropFlds])).setEng

theorem sr_tongSrDrop (s : State) (n : Nat) : ((s.tongSrDrop n).eng n).sr = [] := by
  rw [State.tongSrDrop, State.eng_setEng_same]

theorem rd_srCnt_tongSrDrop (s : State) (n : Nat) : (s.tongSrDrop n).rd (pgTONG n) TONG_SR_CNT = 0 := by
  rw [State.tongSrDrop, State.rd_setEng, State.rd_wr_start (by decide), State.rd_wr_same, Nat.zero_mod]

/-- Tables above the pages hold no cell of the tongs. -/
theorem TongsBut.wrFar (h : TongsBut fs s u) (hb : 0x71000 ≤ b) : TongsBut fs s (u.wr b f x) :=
  h.trans ⟨fun _ hk _ => State.regLook_wr_ne u fun he => notTongCell_of_ge hb (he ▸ hk), rfl, rfl, rfl⟩

theorem tongsBut_setRx {r : RxPort} (s : State) (p : Nat) : TongsBut fs s (s.setRx p r) := by
  have hput : TongsBut fs s { s with rx := tabPut s.rx p r } := ⟨fun _ _ _ => rfl, rfl, rfl, rfl⟩
  have hfifo : 0x71000 ≤ fifoAt p := by unfold fifoAt; omega
  have hcand : 0x71000 ≤ ingestAt p := by unfold ingestAt; omega
  exact (((hput.wrFar hfifo).wrFar hfifo).wrFar hfifo).wrFar hcand

theorem tongsBut_tongRewind (s : State) (n : Nat) : TongsBut (onPage (pgTONG n) rewindFlds) s (s.tongRewind n) := by
  have hset : TongsBut (onPage (pgTONG n) rewindFlds) s (s.setEng n { s.eng n with skip := false, candMark := none }) :=
    (tongsBut_refl s).setEng
  unfold State.tongRewind
  dsimp only
  split
  · exact (hset.trans (tongsBut_setRx _ _)).inc (by simp [rewindFlds])
  · exact hset

theorem openC_tongRewind (s : State) (n : Nat) : ((s.tongRewind n).rxOf (tongPort n)).openC = none := by
  unfold State.tongRewind
  dsimp only
  split
  · show ((State.setRx _ _ _).rxOf _).openC = none
    rw [State.rxOf_setRx]
    rfl
  · rename_i hclosed
    rwa [Bool.not_eq_true, Option.isSome_eq_false_iff, Option.isNone_iff_eq_none] at hclosed

/-- What a discard leaves: an empty SR and no open candidate. -/
structure Discarded (s u : State) (n : Nat) : Prop where
  but : TongsBut (onPage (pgTONG n) discardFlds) s u
  sr : (u.eng n).sr = []
  count : u.rd (pgTONG n) TONG_SR_CNT = 0
  closed : (u.rxOf (tongPort n)).openC = none
  held : u.tong.held = s.tong.held

theorem tongRewind_held (s : State) (n : Nat) : (s.tongRewind n).tong.held = s.tong.held := by
  unfold State.tongRewind
  dsimp only
  split <;> rfl

theorem discarded_tongDiscard (hn : n < 16) (s : State) : Discarded s (s.tongDiscard n) n := by
  have htong : (s.tongDiscard n).tong = ((s.tongRewind n).tongSrDrop n).tong := tong_tongTxDrop _ n
  have hrx : (s.tongDiscard n).rx = ((s.tongRewind n).tongSrDrop n).rx := rx_tongTxDrop _ n
  refine ⟨?_, ?_, ?_, ?_, ?_⟩
  · exact (((tongsBut_tongRewind s n).mono (onPage_mono (by decide))).trans
      ((tongsBut_tongSrDrop _ n).mono (onPage_mono (by decide)))).trans
      ((tongsBut_tongTxDrop _ n).mono (onPage_mono (by decide)))
  · rw [State.eng_congr htong]
    exact sr_tongSrDrop _ n
  · rw [State.tongDiscard, (tongsBut_tongTxDrop _ n).rd (by omega) (by decide)
      (onPage_apart (by decide) (by decide) (Or.inr (by decide)))]
    exact rd_srCnt_tongSrDrop _ n
  · rw [State.rxOf, hrx]
    exact openC_tongRewind s n
  · rw [htong]
    exact tongRewind_held s n

/-! ### Stopping (R313, R317) -/

/-- What stopping an engine can write of its page, and with it disabling one. -/
def haltFlds : List Fld := TONG_C_STALL_CLOCKS :: discardFlds ++ moveFlds
def disableFlds : List Fld := PG_ENABLE :: TONG_FAULT :: TONG_HELD :: TONG_STALL :: haltFlds

theorem tongsBut_tongSettle (s : State) (n : Nat) :
    TongsBut (onPage (pgTONG n) [TONG_C_STALL_CLOCKS]) s (s.tongSettle n) :=
  (tongFrame_tongSettle s n).tongsBut (fun _ h => h) (by simp)

theorem tongsBut_tongHalt (hn : n < 16) (s : State) : TongsBut (onTongs n haltFlds unwaitFlds) s (s.tongHalt n) :=
  (((tongsBut_tongSettle s n).mono (fun x hx => onTongs_engine x (onPage_mono (by decide) x hx))).trans
    ((discarded_tongDiscard hn _).but.mono (fun x hx => onTongs_engine x (onPage_mono (by decide) x hx)))).trans
    ((tongFrame_tongLeave _ n).tongsBut (onTongs_mono (by decide) (fun _ h => h)) (by simp))

/-- The four fields that a disabled engine shows. -/
def disabledAt (s : State) (n : Nat) : State :=
  ((((s.tongHalt n).wr (pgTONG n) PG_ENABLE 0).wr (pgTONG n) TONG_FAULT 0).wr (pgTONG n) TONG_HELD 0).wr (pgTONG n) TONG_STALL 7

theorem State.tongDisable_on (h : s.on (pgTONG n) PG_ENABLE = true) : s.tongDisable n = disabledAt s n := by
  unfold State.tongDisable
  simp only [h, Bool.not_true, Bool.false_eq_true, if_false]
  rfl

theorem State.tongDisable_off (h : s.on (pgTONG n) PG_ENABLE = false) : s.tongDisable n = s := by
  unfold State.tongDisable
  simp only [h, Bool.not_false, if_true]

theorem tongsBut_disabledAt (hn : n < 16) (s : State) : TongsBut (onTongs n disableFlds unwaitFlds) s (disabledAt s n) := by
  have hhalt : TongsBut (onTongs n disableFlds unwaitFlds) s (s.tongHalt n) :=
    (tongsBut_tongHalt hn s).mono (onTongs_mono (by decide) (fun _ h => h))
  exact (((hhalt.wr (mem_onTongs (by decide))).wr (mem_onTongs (by decide))).wr (mem_onTongs (by decide))).wr
    (mem_onTongs (by decide))

theorem tongsBut_tongDisable (hn : n < 16) (s : State) :
    TongsBut (onTongs n disableFlds unwaitFlds) s (s.tongDisable n) := by
  cases henable : s.on (pgTONG n) PG_ENABLE
  · rw [State.tongDisable_off henable]
    exact tongsBut_refl s
  · rw [State.tongDisable_on henable]
    exact tongsBut_disabledAt hn s

theorem on_enable_disabledAt (s : State) (n : Nat) : (disabledAt s n).on (pgTONG n) PG_ENABLE = false := by
  rw [disabledAt, State.on, State.rd_wr_start (by decide), State.rd_wr_start (by decide), State.rd_wr_start (by decide),
    State.rd_wr_same]
  rfl

/-- An engine that waits for no boundary only discards when it stops. -/
theorem State.tongHalt_stays (hn : n < 16) (hwait : s.tongWaits n = false) :
    s.tongHalt n = (s.tongSettle n).tongDiscard n := by
  have hbut := ((tongsBut_tongSettle s n).mono (fun x hx => onTongs_engine (L := haltFlds) (M := []) x
    (onPage_mono (by decide) x hx))).trans ((discarded_tongDiscard hn (s.tongSettle n)).but.mono
    (fun x hx => onTongs_engine x (onPage_mono (by decide) x hx)))
  have hstays : ((s.tongSettle n).tongDiscard n).tongWaits n = false := by
    rw [State.tongWaits, pgTONGS_eq, hbut.rd (by decide) (by decide)
      (onTongs_apart (by decide) (by decide) (by simp) (Or.inl (by omega)) (Or.inr (by simp)))]
    exact hwait
  exact State.tongLeave_stays hstays

end Sys2Proof.Machine
end

section
/-! SUPPORT. Engines enabled and disabled, one by one and in groups, for O49 (R313, R314, R315). -/

namespace Sys2Proof.Machine

variable {fs : List (Nat × Fld)} {s u v : State} {n m t : Nat} {mask : BitVec 16}

/-- A command of a program store or an engine whose effect stays by these fields answers that effect. -/
theorem State.happen_tongsBut {a : State → State} (ha : a (s.at t) = u) (h : TongsBut fs (s.at t) u) :
    s.happen t a = .next u := State.happen_eq s ha h.pending h.time

theorem State.happen_same {a : State → State} (ha : a (s.at t) = s.at t) : ∃ u, s.happen t a = .next u ∧ u = s.at t :=
  ⟨_, State.happen_eq s ha rfl rfl, rfl⟩

/-! ### Enabling one engine (R313, R315) -/

/-- An engine just enabled, before it begins. -/
def enabledAt (s : State) (t n : Nat) : State := (s.at t).wr (pgTONG n) PG_ENABLE 1

theorem State.role_enabledAt : (enabledAt s t n).active = s.active := by
  have hrole : fldKey pgTWIN TWIN_ROLE ≠ fldKey (pgTONG n) PG_ENABLE := by simp only [fldKey, pgTWIN, pgTONG]; omega
  rw [State.active, State.role, enabledAt, State.rd_wr_ne _ hrole]
  rfl

theorem State.tongMustHold_enabledAt : (enabledAt s t n).tongMustHold n = s.tongMustHold n := by
  rw [State.tongMustHold, State.role_enabledAt, enabledAt, State.on, State.rd_wr_start (by decide)]
  rfl

theorem exec_engineEnable_awake (hn : n < 16) (hreach : s.reachesCtrl (0x60 + n) false)
    (hoff : s.on (pgTONG n) PG_ENABLE = false) (hawake : s.tongAwake n = true)
    (hu : TongFrame fs [] (s.at t) ((enabledAt s t n).tongBegin n)) :
    exec (.engineEnable t n) s = .next ((enabledAt s t n).tongBegin n) := by
  rw [exec_engineEnable, execEngineEnable, Nat.mod_eq_of_lt hn]
  refine State.happen_tongFrame ?_ hu
  have hon : (s.at t).tongAwake n = true := hawake
  rw [State.ctrlGuard_reaches (State.reachesCtrl_at.2 hreach), State.tongEnable_off (s := s.at t) hoff, hon, State.when_true]
  rfl

theorem exec_engineEnable_starts (hn : n < 16) (hreach : s.reachesCtrl (0x60 + n) false)
    (hoff : s.on (pgTONG n) PG_ENABLE = false) (hawake : s.tongAwake n = true) (hfree : s.tongMustHold n = false)
    (hin : s.tongInside n (s.rd (pgTONG n) TONG_ENTRY) = true) : ∃ u, exec (.engineEnable t n) s = .next u ∧
      u.on (pgTONG n) PG_ENABLE = true ∧ u.rd (pgTONG n) TONG_PC = s.rd (pgTONG n) TONG_ENTRY ∧
      u.rd (pgTONG n) TONG_STALL = (if s.on (pgTONG n) PG_FREEZE then 4 else 0) ∧
      u.rd (pgTONG n) TONG_BANK = s.rd pgTONGS TONGS_LIVE_BANK ∧ u.rd (pgTONG n) TONG_W0 = 0 ∧
      u.rd (pgTONG n) TONG_W3 = 0 ∧ u.rd (pgTONG n) TONG_ST = 0 ∧ (u.eng n).sr = [] ∧
      (u.eng n).divAt = max s.time.clk t ∧ (u.eng n).tmr = 0 ∧ Frame ([TONG_W0, TONG_W1, TONG_W2, TONG_W3, TONG_ST,
        TONG_SR_CNT, TONG_SHIFTING, TONG_LASTF, TONG_HELD, TONG_PC, TONG_BANK, TONG_STALL, PG_ENABLE].map
        (fun f => (pgTONG n, f))) [] (s.at t) { u with tong := s.tong } := by
  have hrd : ∀ {f : Fld}, f.start ≠ PG_ENABLE.start → (enabledAt s t n).rd (pgTONG n) f = s.rd (pgTONG n) f :=
    fun hf => State.rd_wr_start hf
  have hstore : (enabledAt s t n).rd pgTONGS TONGS_LIVE_BANK = s.rd pgTONGS TONGS_LIVE_BANK :=
    State.rd_wr_ne _ (fldKey_store_ne hn (by decide) (by decide))
  have hbegin : (enabledAt s t n).tongBegin n = startedAt (enabledAt s t n) n := by
    rw [State.tongBegin, State.tongMustHold_enabledAt, hfree, if_neg Bool.false_ne_true, State.tongStart_eq, hrd (by decide),
      State.tongInside_congr (s := s) (hrd (by decide)) (hrd (by decide)), if_pos hin]
  obtain ⟨hpc, hstall, hbank, hclear, heng, hframe⟩ := started_startedAt (s := enabledAt s t n) hn
  have hall : TongFrame (onPage (pgTONG n) (startFlds ++ [PG_ENABLE])) [] (s.at t) (startedAt (enabledAt s t n) n) :=
    TongFrame.trans (u := enabledAt s t n) (tongFrame_wr (tongFrame_refl _) (by simp))
      (hframe.mono (onPage_mono (List.subset_append_left _ _)) (by simp))
  simp only [List.forall_mem_cons] at hclear
  obtain ⟨hw0, hw3, hst, -⟩ := hclear
  refine ⟨_, exec_engineEnable_awake hn hreach hoff hawake (hbegin ▸ hall), ?_⟩
  rw [hbegin]
  refine ⟨?_, hpc.trans (hrd (by decide)), ?_, hbank.trans hstore, hw0, hw3, hst, ?_, ?_, ?_, hall⟩
  · rw [State.on, rd_startedAt_apart (by decide), enabledAt, State.rd_wr_same]
    rfl
  · rw [hstall, State.on, hrd (by decide), ← State.on]
  · rw [heng, startedEng]
  · rw [heng, startedEng]
    exact State.at_clk s t
  · rw [heng, startedEng]

theorem exec_engineEnable_holds (hn : n < 16) (hreach : s.reachesCtrl (0x60 + n) false)
    (hoff : s.on (pgTONG n) PG_ENABLE = false) (hawake : s.tongAwake n = true) (hhold : s.tongMustHold n = true) :
    ∃ u, exec (.engineEnable t n) s = .next u ∧ u.on (pgTONG n) PG_ENABLE = true ∧ u.on (pgTONG n) TONG_HELD = true ∧
      u.rd (pgTONG n) TONG_STALL = 5 ∧ u.rd (pgTONG n) TONG_PC = s.rd (pgTONG n) TONG_ENTRY ∧
      Frame ([TONG_HELD, TONG_PC, TONG_BANK, TONG_STALL, PG_ENABLE].map (fun f => (pgTONG n, f))) [] (s.at t)
        { u with tong := s.tong } := by
  have hbegin : (enabledAt s t n).tongBegin n = (enabledAt s t n).tongHold n := by
    rw [State.tongBegin, State.tongMustHold_enabledAt, hhold, if_pos rfl]
  have hall : TongFrame (onPage (pgTONG n) (holdFlds ++ [PG_ENABLE])) [] (s.at t) ((enabledAt s t n).tongHold n) :=
    TongFrame.trans (u := enabledAt s t n) (tongFrame_wr (tongFrame_refl _) (by simp))
      ((tongFrame_tongHold _ n).mono (onPage_mono (List.subset_append_left _ _)) (by simp))
  refine ⟨_, exec_engineEnable_awake hn hreach hoff hawake (hbegin ▸ hall), ?_⟩
  rw [hbegin]
  refine ⟨?_, ?_, ?_, ?_, hall⟩
  · rw [State.on, (tongFrame_tongHold _ n).rd_page (by decide) (by decide) (Or.inr (by decide)), enabledAt, State.rd_wr_same]
    rfl
  all_goals unfold State.tongHold
  · rw [State.on, State.rd_wr_start (by decide), State.rd_wr_start (by decide), State.rd_wr_start (by decide),
      State.rd_wr_same]
    rfl
  · rw [State.rd_wr_start (by decide), State.rd_wr_start (by decide), State.rd_wr_same]
    rfl
  · rw [State.rd_wr_start (by decide), State.rd_wr_same, State.rd_setEng, enabledAt, State.rd_wr_start (by decide),
      State.rd_at]
    exact Nat.mod_eq_of_lt (s.rd_lt _ _)

theorem exec_engineEnable_enabled (hn : n < 16) (hreach : s.reachesCtrl (0x60 + n) false)
    (hon : s.on (pgTONG n) PG_ENABLE = true) : ∃ u, exec (.engineEnable t n) s = .next u ∧ u = s.at t := by
  rw [exec_engineEnable, execEngineEnable, Nat.mod_eq_of_lt hn]
  refine State.happen_same ?_
  rw [State.ctrlGuard_reaches (State.reachesCtrl_at.2 hreach)]
  exact State.tongEnable_on (s := s.at t) hon

/-! ### Disabling one engine (R313) -/

theorem exec_engineDisable_stops (hn : n < 16) (hreach : s.reachesCtrl (0x60 + n) false)
    (hon : s.on (pgTONG n) PG_ENABLE = true) (hwait : s.tongWaits n = false) :
    ∃ u, exec (.engineDisable t n) s = .next u ∧ u.on (pgTONG n) PG_ENABLE = false ∧ u.rd (pgTONG n) TONG_STALL = 7 ∧
      u.rd (pgTONG n) TONG_FAULT = 0 ∧ u.on (pgTONG n) TONG_HELD = false ∧ (u.eng n).sr = [] ∧
      u.rd (pgTONG n) TONG_SR_CNT = 0 ∧ (u.rxOf (tongPort n)).openC = none := by
  have hhalt : (s.at t).tongHalt n = ((s.at t).tongSettle n).tongDiscard n := State.tongHalt_stays hn hwait
  obtain ⟨-, hsr, hcount, hclosed, -⟩ := discarded_tongDiscard hn ((s.at t).tongSettle n)
  rw [← hhalt] at hsr hcount hclosed
  rw [exec_engineDisable, execEngineDisable, Nat.mod_eq_of_lt hn]
  refine ⟨_, State.happen_tongsBut ?_ (tongsBut_disabledAt hn (s.at t)), on_enable_disabledAt _ n, ?_, ?_, ?_, hsr, ?_,
    hclosed⟩
  · rw [State.ctrlGuard_reaches (State.reachesCtrl_at.2 hreach)]
    exact State.tongDisable_on (s := s.at t) hon
  all_goals rw [disabledAt]
  · rw [State.rd_wr_same]
    rfl
  · rw [State.rd_wr_start (by decide), State.rd_wr_start (by decide), State.rd_wr_same]
    rfl
  · rw [State.on, State.rd_wr_start (by decide), State.rd_wr_same]
    rfl
  · rw [State.rd_wr_start (by decide), State.rd_wr_start (by decide), State.rd_wr_start (by decide),
      State.rd_wr_start (by decide), hcount]

theorem exec_engineDisable_disabled (hn : n < 16) (hreach : s.reachesCtrl (0x60 + n) false)
    (hoff : s.on (pgTONG n) PG_ENABLE = false) : ∃ u, exec (.engineDisable t n) s = .next u ∧ u = s.at t := by
  rw [exec_engineDisable, execEngineDisable, Nat.mod_eq_of_lt hn]
  refine State.happen_same ?_
  rw [State.ctrlGuard_reaches (State.reachesCtrl_at.2 hreach)]
  exact State.tongDisable_off (s := s.at t) hoff

/-! ### Groups of engines (R314) -/

/-- Enabling an engine and disabling one leave ENABLE of the others. -/
theorem on_enable_tongEnable_other (hn : n < 16) (hm : m < 16) (hne : m ≠ n) :
    (s.tongEnable m).on (pgTONG n) PG_ENABLE = s.on (pgTONG n) PG_ENABLE := by
  have hbut := (tongFrame_tongEnable s m).tongsBut (fs := onTongs m (PG_PG_EVT :: PG_ENABLE :: beginFlds) unwaitFlds)
    (onTongs_mono (List.subset_cons_self _ _) (fun _ h => h))
    (by simp only [List.forall_mem_singleton]; exact ⟨by omega, by rw [pgAt_tong]; exact mem_onTongs List.mem_cons_self⟩)
  rw [State.on, hbut.rd (by omega) (by decide) (onTongs_apart (by decide) (by decide) unwaitFlds_small (Or.inl hne.symm)
    (Or.inl (by omega))), ← State.on]

theorem on_enable_tongDisable_other (hn : n < 16) (hm : m < 16) (hne : m ≠ n) :
    (s.tongDisable m).on (pgTONG n) PG_ENABLE = s.on (pgTONG n) PG_ENABLE := by
  rw [State.on, (tongsBut_tongDisable hm s).rd (by omega) (by decide) (onTongs_apart (by decide) (by decide)
    unwaitFlds_small (Or.inl hne.symm) (Or.inl (by omega))), ← State.on]

theorem on_enable_tongEnable (hn : n < 16) : (s.tongEnable n).on (pgTONG n) PG_ENABLE = true := by
  cases hoff : s.on (pgTONG n) PG_ENABLE
  · have hset : (s.wr (pgTONG n) PG_ENABLE 1).on (pgTONG n) PG_ENABLE = true := by rw [State.on_wr_same]; rfl
    have hbut := (tongFrame_tongBegin (s.wr (pgTONG n) PG_ENABLE 1) n).tongsBut
      (fs := onTongs n (PG_PG_EVT :: beginFlds) unwaitFlds) (onTongs_mono (List.subset_cons_self _ _) (fun _ h => h))
      (by simp only [List.forall_mem_singleton]; exact ⟨by omega, by rw [pgAt_tong]; exact mem_onTongs List.mem_cons_self⟩)
    have hbegin : ((s.wr (pgTONG n) PG_ENABLE 1).tongBegin n).on (pgTONG n) PG_ENABLE = true := by
      rw [State.on, hbut.rd (by omega) (by decide) (onTongs_apart (by decide) (by decide) unwaitFlds_small
        (Or.inr (by decide)) (Or.inl (by omega))), ← State.on, hset]
    rw [State.tongEnable_off hoff]
    unfold State.when
    split
    exacts [hbegin, hset]
  · rw [State.tongEnable_on hoff, hoff]

theorem on_enable_tongDisable : (s.tongDisable n).on (pgTONG n) PG_ENABLE = false := by
  cases hon : s.on (pgTONG n) PG_ENABLE
  · rw [State.tongDisable_off hon, hon]
  · rw [State.tongDisable_on hon, on_enable_disabledAt]

theorem on_enable_tongGrpSet (s : State) (w : Nat) (hn : n < 16) :
    (s.tongGrpSet w).on (pgTONG n) PG_ENABLE = (s.on (pgTONG n) PG_ENABLE || w.testBit n) := by
  have hother : ∀ (u : State), ∀ a ∈ List.range 16, a ≠ n →
      (u.when (w.testBit a) (·.tongEnable a)).on (pgTONG n) PG_ENABLE = u.on (pgTONG n) PG_ENABLE := fun u a ha hne =>
    State.when_keeps (·.on (pgTONG n) PG_ENABLE) (on_enable_tongEnable_other hn (List.mem_range.1 ha) hne)
  refine State.each_turn (g := (·.on (pgTONG n) PG_ENABLE)) (r := (·.on (pgTONG n) PG_ENABLE)) List.nodup_range
    (List.mem_range.2 hn) hother hother fun u hu => ?_
  cases hbit : w.testBit n
  · rw [State.when_false, Bool.or_false, hu]
  · rw [State.when_true, Bool.or_true]
    exact on_enable_tongEnable hn

theorem on_enable_tongGrpClr (s : State) (w : Nat) (hn : n < 16) :
    (s.tongGrpClr w).on (pgTONG n) PG_ENABLE = (s.on (pgTONG n) PG_ENABLE && !w.testBit n) := by
  have hother : ∀ (u : State), ∀ a ∈ List.range 16, a ≠ n →
      (u.when (w.testBit a) (·.tongDisable a)).on (pgTONG n) PG_ENABLE = u.on (pgTONG n) PG_ENABLE := fun u a ha hne =>
    State.when_keeps (·.on (pgTONG n) PG_ENABLE) (on_enable_tongDisable_other hn (List.mem_range.1 ha) hne)
  refine State.each_turn (g := (·.on (pgTONG n) PG_ENABLE)) (r := (·.on (pgTONG n) PG_ENABLE)) List.nodup_range
    (List.mem_range.2 hn) hother hother fun u hu => ?_
  cases hbit : w.testBit n
  · rw [State.when_false, Bool.not_false, Bool.and_true, hu]
  · rw [State.when_true, Bool.not_true, Bool.and_false]
    exact on_enable_tongDisable

theorem exec_grpEnSet_sets (hreach : s.reaches 0x60 false) : ∃ u, exec (.grpEnSet t mask) s = .next u ∧
    (∀ n : Nat, n < 16 → u.on (pgTONG n) PG_ENABLE = (s.on (pgTONG n) PG_ENABLE || mask.toNat.testBit n)) ∧
    u.del = s.del ∧ u.rx = s.rx ∧ u.time = (s.at t).time := by
  have hframe := tongFrame_eachOwn (s := s.at t) (l := List.range 16)
    (F := fun s n => s.when (mask.toNat.testBit n) (·.tongEnable n))
    fun u a _ => tongFrame_when (tongFrame_refl u) (tongFrame_tongEnable u a)
  rw [exec_grpEnSet, execGrpEnSet]
  exact ⟨_, State.happen_tongFrame (State.blkGuard_reaches (State.reaches_at.2 hreach)) hframe,
    fun n hn => on_enable_tongGrpSet (s.at t) _ hn, hframe.del, hframe.rx, hframe.time⟩

theorem exec_grpEnClr_clears (hreach : s.reaches 0x60 false) : ∃ u, exec (.grpEnClr t mask) s = .next u ∧
    (∀ n : Nat, n < 16 → u.on (pgTONG n) PG_ENABLE = (s.on (pgTONG n) PG_ENABLE && !mask.toNat.testBit n)) ∧
    u.time = (s.at t).time ∧ u.twin = s.twin := by
  have hbut := TongsBut.each (s := s.at t) (l := List.range 16)
    (F := fun s n => s.when (mask.toNat.testBit n) (·.tongDisable n))
    fun u a ha => (tongsBut_refl u).when (tongsBut_tongDisable (List.mem_range.1 ha) u)
  rw [exec_grpEnClr, execGrpEnClr]
  exact ⟨_, State.happen_tongsBut (State.blkGuard_reaches (State.reaches_at.2 hreach)) hbut,
    fun n hn => on_enable_tongGrpClr (s.at t) _ hn, hbut.time, hbut.twin⟩

/-- The dividers of other engines run on. -/
theorem eng_tongClkrst_other (hne : m ≠ n) : (s.tongClkrst m).eng n = s.eng n := by
  rw [State.tongClkrst, State.eng_setEng_ne hne.symm, State.tongSettle_eq, State.when_keeps (State.eng · n) rfl,
    State.eng_setEng_ne hne.symm]

theorem tongFrame_tongClkrst (s : State) (n : Nat) :
    TongFrame [(pgTONG n, TONG_C_STALL_CLOCKS)] [] s (s.tongClkrst n) := tongFrame_setEng (tongFrame_tongSettle s n)

theorem divAt_tongClkrst (s : State) (n : Nat) : ((s.tongClkrst n).eng n).divAt = s.time.clk := by
  rw [State.tongClkrst, State.eng_setEng_same, (tongFrame_tongSettle s n).time]

/-- What restarting the divider of an engine depends on: its ENABLE, the engine, and the clock. -/
def clkrstReads (n : Nat) (s : State) : Bool × TongEng × TimeBase := (s.on (pgTONG n) PG_ENABLE, s.eng n, s.time)

theorem on_enable_tongClkrst (s : State) (m n : Nat) :
    (s.tongClkrst m).on (pgTONG n) PG_ENABLE = s.on (pgTONG n) PG_ENABLE := by
  have hapart : fldKey (pgTONG n) PG_ENABLE ≠ fldKey (pgTONG m) TONG_C_STALL_CLOCKS :=
    fldKey_tong_ne (by decide) (by decide) (by decide)
  rw [State.on, (tongFrame_tongClkrst s m).rd (by simpa using hapart) (by simp), ← State.on]

theorem divAt_tongGrpClkrst (s : State) (w : Nat) (hn : n < 16) : ((s.tongGrpClkrst w).eng n).divAt =
    if w.testBit n && s.on (pgTONG n) PG_ENABLE then s.time.clk else (s.eng n).divAt := by
  have hreads : ∀ (u : State), ∀ a ∈ List.range 16, a ≠ n → clkrstReads n (u.when (w.testBit a && u.on (pgTONG a) PG_ENABLE)
      (·.tongClkrst a)) = clkrstReads n u := fun u a _ hne => State.when_keeps (clkrstReads n) (by
    rw [clkrstReads, clkrstReads, on_enable_tongClkrst, eng_tongClkrst_other hne, (tongFrame_tongClkrst u a).time])
  refine State.each_turn (g := fun u => (u.eng n).divAt) (r := clkrstReads n) List.nodup_range (List.mem_range.2 hn)
    (fun u a ha hne => congrArg (fun y => y.2.1.divAt) (hreads u a ha hne)) hreads fun u hu => ?_
  simp only [clkrstReads, Prod.mk.injEq] at hu
  obtain ⟨hon, heng, htime⟩ := hu
  cases hturn : w.testBit n && s.on (pgTONG n) PG_ENABLE
  · rw [hon, hturn, State.when_false, heng]
    rfl
  · rw [hon, hturn, State.when_true, divAt_tongClkrst, htime]
    rfl

theorem exec_grpClkrst_restarts (hreach : s.reaches 0x60 false) : ∃ u, exec (.grpClkrst t mask) s = .next u ∧
    (∀ n : Nat, n < 16 → (u.eng n).divAt =
      (if mask.toNat.testBit n && s.on (pgTONG n) PG_ENABLE then max s.time.clk t else (s.eng n).divAt)) ∧
    u.del = s.del ∧ u.rx = s.rx ∧ u.out = s.out := by
  have hframe := tongFrame_eachOwn (s := s.at t) (l := List.range 16)
    (F := fun s n => s.when (mask.toNat.testBit n && s.on (pgTONG n) PG_ENABLE) (·.tongClkrst n))
    fun u a _ => tongFrame_when (tongFrame_refl u) (tongFrame_tongClkrst u a)
  rw [exec_grpClkrst, execGrpClkrst]
  refine ⟨_, State.happen_tongFrame (State.blkGuard_reaches (State.reaches_at.2 hreach)) hframe, fun n hn => ?_,
    hframe.del, hframe.rx, (hframe.2.2.2 rfl).2⟩
  rw [divAt_tongGrpClkrst _ _ hn, State.at_clk, State.on_at, State.eng_at]

end Sys2Proof.Machine
end

section
/-! SUPPORT. The banks of the program store exchanged, engines that move to the live bank and the end of a swap, for O49
(R316, R317, R318). -/

namespace Sys2Proof.Machine

variable {fs gs : List (Nat × Fld)} {ps : List Nat} {s u v : State} {b n m a k t w i x p q : Nat} {f g : Fld} {L M : List Fld}
  {runs : Nat → Bool}

theorem TongFrame.append (hu : TongFrame fs ps s u) (hv : TongFrame gs ps u v) : TongFrame (fs ++ gs) ps s v :=
  (hu.mono (fun _ => List.mem_append_left _) fun _ h => h).trans (hv.mono (fun _ => List.mem_append_right _) fun _ h => h)

/-- A field of the program store's page that is none of a list's. -/
theorem TongFrame.rd_store (h : TongFrame (onPage pgTONGS M) [] s u) (hf : f.start < 0x8000)
    (hM : ∀ g ∈ M, g.start < 0x8000) (hout : f.start ∉ M.map Fld.start) : u.rd pgTONGS f = s.rd pgTONGS f :=
  h.rd_page (m := 16) (n := 16) hf hM (Or.inr hout)

/-- A field of an engine's page through writes of the program store's. -/
theorem TongFrame.rd_engine (h : TongFrame (onPage pgTONGS M) [] s u) (hn : n < 16) (hf : f.start < 0x8000)
    (hM : ∀ g ∈ M, g.start < 0x8000) : u.rd (pgTONG n) f = s.rd (pgTONG n) f :=
  h.rd_page (m := 16) hf hM (Or.inl (by omega))

/-! ### Sets of engines as bits -/

/-- The sum of the powers of the numbers below `N` that satisfy `p` has the bits of those numbers. -/
theorem bits_sum_two_pow (p : Nat → Bool) (N : Nat) : (((List.range N).filter p).map (2 ^ ·)).sum < 2 ^ N ∧
    ∀ n < N, (((List.range N).filter p).map (2 ^ ·)).sum.testBit n = p n := by
  induction N with
  | zero => exact ⟨Nat.one_pos, fun n hn => absurd hn (Nat.not_lt_zero n)⟩
  | succ N ih =>
    obtain ⟨hlt, hbits⟩ := ih
    rw [List.range_succ, List.filter_append, List.map_append, List.sum_append]
    have htop := Nat.testBit_lt_two_pow hlt
    cases hp : p N
    · have hnil : [N].filter p = [] := by simp [hp]
      rw [hnil, List.map_nil, List.sum_nil, Nat.add_zero]
      refine ⟨Nat.lt_of_lt_of_le hlt (Nat.pow_le_pow_right (by decide) (Nat.le_succ N)), fun n hn => ?_⟩
      obtain hbelow | rfl := Nat.lt_succ_iff_lt_or_eq.1 hn
      · exact hbits n hbelow
      · rw [htop, hp]
    · have hone : [N].filter p = [N] := by simp [hp]
      rw [hone, List.map_singleton, List.sum_singleton, Nat.add_comm]
      refine ⟨by rw [Nat.pow_succ]; omega, fun n hn => ?_⟩
      obtain hbelow | rfl := Nat.lt_succ_iff_lt_or_eq.1 hn
      · rw [Nat.testBit_two_pow_add_gt hbelow]
        exact hbits n hbelow
      · rw [Nat.testBit_two_pow_add_eq, htop, hp]
        rfl

/-! ### The exchange (R317) -/

def liveWords : List Fld := (List.range 64).map fun a => TONGS_LIVE.at a 4

/-- What a swap's start writes of the program store's page. -/
def swapBeginFlds : List Fld := PG_SHADOW_SWAP :: TONGS_LIVE_BANK :: TONGS_WAITING :: (shadowWords ++ liveWords)

theorem bankWords_small : ∀ g ∈ shadowWords ++ liveWords, g.start < 0x8000 := by
  intro g hg
  simp only [shadowWords, liveWords, List.mem_append, List.mem_map, List.mem_range] at hg
  obtain ⟨a, ha, rfl⟩ | ⟨a, ha, rfl⟩ := hg
  · rw [shadowWord_start]; omega
  · rw [liveWord_start]; omega

theorem swapBeginFlds_small : ∀ g ∈ swapBeginFlds, g.start < 0x8000 := by
  simp only [swapBeginFlds, List.forall_mem_cons]
  exact ⟨by decide, by decide, by decide, bankWords_small⟩

/-- Fields in front of the banks and behind them are none of their words. -/
theorem bankWords_apart (hf : f.start < 0x800 ∨ 0x1800 ≤ f.start) : f.start ∉ (shadowWords ++ liveWords).map Fld.start := by
  intro hm
  obtain ⟨g, hg, hstart⟩ := List.mem_map.1 hm
  simp only [shadowWords, liveWords, List.mem_append, List.mem_map, List.mem_range] at hg
  obtain ⟨a, ha, rfl⟩ | ⟨a, ha, rfl⟩ := hg
  · rw [shadowWord_start] at hstart; omega
  · rw [liveWord_start] at hstart; omega

/-- One word of the banks exchanged, and all of them. -/
def wordSwapped (s : State) (a : Nat) : State :=
  (s.wr pgTONGS (TONGS_LIVE.at a 4) (s.rd pgTONGS (TONGS_SHADOW.at a 4))).wr pgTONGS (TONGS_SHADOW.at a 4)
    (s.rd pgTONGS (TONGS_LIVE.at a 4))
def banksSwapped (s : State) : State := s.each (List.range 64) wordSwapped

/-- The swap begun: the live bank's number changes with the banks. -/
def swapRaised (s : State) : State :=
  ((banksSwapped s).wr pgTONGS PG_SHADOW_SWAP 1).wr pgTONGS TONGS_LIVE_BANK (1 - (banksSwapped s).rd pgTONGS TONGS_LIVE_BANK)

/-- Does an engine run, so that it moves at a boundary only? -/
def engineRuns (s : State) (n : Nat) : Bool :=
  s.on (pgTONG n) PG_ENABLE && !s.on (pgTONG n) TONG_HELD && s.rd (pgTONG n) TONG_FAULT == 0

/-- The engines that run wait. -/
def swapWaits (s : State) (runs : Nat → Bool) : State :=
  s.wr pgTONGS TONGS_WAITING (((List.range 16).filter runs).map (2 ^ ·)).sum

/-- The instant of the swap, for its time-out. -/
def swapStamped (s : State) : State := { s with tong := { s.tong with swapAt := s.time.clk } }

/-- The swap as it stands before the engines that do not run have moved. -/
def swapBegun (s : State) : State := swapStamped (swapWaits (swapRaised s) (engineRuns (swapRaised s)))

/-- An engine that does not run moves at once; a held one to its new ENTRY. -/
def stillMoved (s : State) (n : Nat) : State :=
  (s.tongMove n).when ((s.tongMove n).on (pgTONG n) TONG_HELD)
    (fun s => s.wr (pgTONG n) TONG_PC (s.rd (pgTONG n) TONG_ENTRY))
def restMoved (s : State) (runs : Nat → Bool) : State := s.each ((List.range 16).filter fun n => !runs n) stillMoved

/-- TONG_SHADOW_SWAP done. -/
def shadowSwapped (s : State) : State := (restMoved (swapBegun s) (engineRuns (swapRaised s))).tongSwapEnd

theorem tongFrame_banksSwapped (s : State) : TongFrame (onPage pgTONGS (shadowWords ++ liveWords)) [] s (banksSwapped s) :=
  tongFrame_each fun u _ ha => tongFrame_wr (tongFrame_wr (tongFrame_refl u)
    (mem_onPage.2 ⟨rfl, List.mem_append_right _ (List.mem_map_of_mem ha)⟩))
    (mem_onPage.2 ⟨rfl, List.mem_append_left _ (List.mem_map_of_mem ha)⟩)

theorem tong_banksSwapped (s : State) : (banksSwapped s).tong = s.tong := by
  have hword : ∀ (u : State) (a : Nat), (wordSwapped u a).tong = u.tong := fun _ _ => rfl
  exact State.each_keeps (·.tong) wordSwapped hword _ s

/-- The live bank holds what the shadow bank held. -/
theorem rd_live_banksSwapped (ha : a < 64) :
    (banksSwapped s).rd pgTONGS (TONGS_LIVE.at a 4) = s.rd pgTONGS (TONGS_SHADOW.at a 4) := by
  refine State.each_turn (i := a) (g := (·.rd pgTONGS (TONGS_LIVE.at a 4))) (r := (·.rd pgTONGS (TONGS_SHADOW.at a 4)))
    List.nodup_range (List.mem_range.2 ha) (fun u c hc hca => ?_) (fun u c hc hca => ?_) fun u hu => ?_
  all_goals dsimp only [wordSwapped]
  · have hlt := List.mem_range.1 hc
    rw [State.rd_wr_start (by rw [liveWord_start, shadowWord_start]; omega),
      State.rd_wr_start (by rw [liveWord_start, liveWord_start]; omega)]
  · have hlt := List.mem_range.1 hc
    rw [State.rd_wr_start (by rw [shadowWord_start, shadowWord_start]; omega),
      State.rd_wr_start (by rw [liveWord_start, shadowWord_start]; omega)]
  · rw [State.rd_wr_start (by rw [liveWord_start, shadowWord_start]; omega), State.rd_wr_same, hu]
    exact Nat.mod_eq_of_lt (s.rd_lt _ _)

theorem tongFrame_swapRaised (s : State) : TongFrame (onPage pgTONGS swapBeginFlds) [] s (swapRaised s) := by
  have hbanks : TongFrame (onPage pgTONGS swapBeginFlds) [] s (banksSwapped s) :=
    (tongFrame_banksSwapped s).mono (onPage_mono fun _ h => List.mem_cons_of_mem _ (List.mem_cons_of_mem _
      (List.mem_cons_of_mem _ h))) (by simp)
  exact tongFrame_wr (tongFrame_wr hbanks (mem_onPage.2 ⟨rfl, List.mem_cons_self⟩))
    (mem_onPage.2 ⟨rfl, List.mem_cons_of_mem _ List.mem_cons_self⟩)

@[simp] theorem rd_swapStamped : (swapStamped s).rd b f = s.rd b f := rfl

theorem tongFrame_swapStamped (h : TongFrame fs ps s u) : TongFrame fs ps s (swapStamped u) := h

theorem tongFrame_swapBegun (s : State) : TongFrame (onPage pgTONGS swapBeginFlds) [] s (swapBegun s) :=
  tongFrame_swapStamped (tongFrame_wr (tongFrame_swapRaised s)
    (mem_onPage.2 ⟨rfl, List.mem_cons_of_mem _ (List.mem_cons_of_mem _ List.mem_cons_self)⟩))

theorem engineRuns_swapRaised (hn : n < 16) : engineRuns (swapRaised s) n = engineRuns s n := by
  have hrd : ∀ {f : Fld}, f.start < 0x8000 → (swapRaised s).rd (pgTONG n) f = s.rd (pgTONG n) f := fun hf =>
    (tongFrame_swapRaised s).rd_engine hn hf swapBeginFlds_small
  rw [engineRuns, State.on, State.on, hrd (by decide), hrd (by decide), hrd (by decide)]
  rfl

/-- A field of the program store's page in the begun swap. -/
theorem rd_swapBegun (hf : f.start ≠ TONGS_WAITING.start) :
    (swapBegun s).rd pgTONGS f = (swapRaised s).rd pgTONGS f := by
  rw [swapBegun, rd_swapStamped, swapWaits, State.rd_wr_start hf]

theorem on_swap_swapBegun (s : State) : (swapBegun s).on pgTONGS PG_SHADOW_SWAP = true := by
  rw [State.on, rd_swapBegun (by decide), swapRaised, State.rd_wr_start (by decide), State.rd_wr_same]
  rfl

theorem rd_liveBank_swapBegun (s : State) :
    (swapBegun s).rd pgTONGS TONGS_LIVE_BANK = (1 - s.rd pgTONGS TONGS_LIVE_BANK) % 2 := by
  rw [rd_swapBegun (by decide), swapRaised, State.rd_wr_same,
    (tongFrame_banksSwapped s).rd_store (by decide) bankWords_small (bankWords_apart (Or.inl (by decide)))]
  rfl

theorem rd_live_swapBegun (ha : a < 64) :
    (swapBegun s).rd pgTONGS (TONGS_LIVE.at a 4) = s.rd pgTONGS (TONGS_SHADOW.at a 4) := by
  have hapart : ∀ {f : Fld}, f.start < 0x1000 → (TONGS_LIVE.at a 4).start ≠ f.start := fun hf => by
    rw [liveWord_start]; omega
  rw [rd_swapBegun (hapart (by decide)), swapRaised, State.rd_wr_start (hapart (by decide)),
    State.rd_wr_start (hapart (by decide)), rd_live_banksSwapped ha]

/-- WAITING shows the engines that ran when the swap began. -/
theorem rd_waiting_swapBegun (s : State) : (swapBegun s).rd pgTONGS TONGS_WAITING =
    (((List.range 16).filter (engineRuns (swapRaised s))).map (2 ^ ·)).sum := by
  rw [swapBegun, rd_swapStamped, swapWaits, State.rd_wr_same]
  exact Nat.mod_eq_of_lt (bits_sum_two_pow _ 16).1

theorem tongWaits_swapBegun (hn : n < 16) : (swapBegun s).tongWaits n = engineRuns s n := by
  rw [State.tongWaits, rd_waiting_swapBegun, (bits_sum_two_pow _ 16).2 n hn, engineRuns_swapRaised hn]

theorem tong_swapStamped : (swapStamped s).tong = { s.tong with swapAt := s.time.clk } := rfl
theorem tong_swapWaits : (swapWaits s runs).tong = s.tong := rfl

theorem tong_swapRaised (s : State) : (swapRaised s).tong = s.tong := by
  have hwrites : ∀ (u : State) (x y : Nat), ((u.wr pgTONGS PG_SHADOW_SWAP x).wr pgTONGS TONGS_LIVE_BANK y).tong = u.tong :=
    fun _ _ _ => rfl
  rw [swapRaised, hwrites, tong_banksSwapped]

theorem tong_swapBegun (s : State) : (swapBegun s).tong = { s.tong with swapAt := s.time.clk } := by
  have htime : ∀ (u : State) (p : Nat → Bool), (swapWaits u p).time = u.time := fun _ _ => rfl
  rw [swapBegun, tong_swapStamped, tong_swapWaits, tong_swapRaised, htime, (tongFrame_swapRaised s).time]

/-! ### Engines that do not run move at once (R317) -/

/-- What such a move writes of the engine's page. -/
def stillFlds : List Fld := TONG_PC :: moveFlds

theorem tongFrame_stillMoved (s : State) (n : Nat) : TongFrame (onPage (pgTONG n) stillFlds) [] s (stillMoved s n) := by
  have hmove : TongFrame (onPage (pgTONG n) stillFlds) [] s (s.tongMove n) :=
    (tongFrame_tongMove s n).mono (onPage_mono (List.subset_cons_self _ _)) (by simp)
  exact tongFrame_when hmove (tongFrame_wr hmove (by simp [stillFlds]))

theorem tongFrame_restMoved (s : State) (runs : Nat → Bool) : TongFrame (((List.range 16).filter fun n => !runs n).flatMap
    fun n => onPage (pgTONG n) stillFlds) [] s (restMoved s runs) :=
  (tongFrame_eachOwn (ps := fun _ => []) fun u a _ => tongFrame_stillMoved u a).mono (fun _ h => h) (by simp)

theorem tong_restMoved (s : State) (runs : Nat → Bool) : (restMoved s runs).tong = s.tong := by
  have hmove : ∀ (u : State) (n : Nat), (stillMoved u n).tong = u.tong := fun u n =>
    State.when_keeps (·.tong) rfl
  exact State.each_keeps (·.tong) stillMoved hmove _ s

theorem rd_store_restMoved (hf : f.start < 0x8000) : (restMoved s runs).rd pgTONGS f = s.rd pgTONGS f := by
  refine State.each_keeps_mem (·.rd pgTONGS f) (fun u a ha => ?_) s
  have hlt : a < 16 := List.mem_range.1 (List.mem_filter.1 ha).1
  exact (tongFrame_stillMoved u a).rd_page (n := 16) hf (by decide) (Or.inl (by omega))

/-- An engine that runs stays where it is. -/
theorem rd_running_restMoved (hrun : runs n = true) (hf : f.start < 0x8000) :
    (restMoved s runs).rd (pgTONG n) f = s.rd (pgTONG n) f := by
  refine State.each_keeps_mem (·.rd (pgTONG n) f) (fun u a ha => ?_) s
  have hother : n ≠ a := fun he => by
    have hstill := (List.mem_filter.1 ha).2
    rw [← he, hrun] at hstill
    exact absurd hstill (by decide)
  exact (tongFrame_stillMoved u a).rd_page hf (by decide) (Or.inl hother)

theorem tongFrame_shadowSwapped (s : State) : ∃ fs, TongFrame fs [] s (shadowSwapped s) :=
  ⟨_, ((tongFrame_swapBegun s).append (tongFrame_restMoved _ _)).append (tongFrame_tongSwapEnd _)⟩

/-! ### TONG_SHADOW_SWAP (R317) -/

theorem exec_tongShadowSwap_begins (hreach : s.reachesCtrl 0x70 false) (hno : s.on pgTONGS PG_SHADOW_SWAP = false) :
    exec (.tongShadowSwap t) s = .next (shadowSwapped (s.at t)) := by
  obtain ⟨fs, hframe⟩ := tongFrame_shadowSwapped (s.at t)
  have hnone : (s.at t).on pgTONGS PG_SHADOW_SWAP = false := hno
  rw [exec_tongShadowSwap, execTongShadowSwap]
  refine State.happen_tongFrame ?_ hframe
  rw [State.ctrlGuard_reaches (State.reachesCtrl_at.2 hreach), hnone, if_neg Bool.false_ne_true]
  rfl

theorem exec_tongShadowSwap_idle (hreach : s.reachesCtrl 0x70 false) (hno : s.on pgTONGS PG_SHADOW_SWAP = false)
    (hheld : s.tong.held = []) (hidle : ∀ n : Nat, n < 16 → s.on (pgTONG n) PG_ENABLE = false) :
    ∃ u, exec (.tongShadowSwap t) s = .next u ∧ (∀ a : Nat, a < 64 →
        u.rd pgTONGS (TONGS_LIVE.at a 4) = s.rd pgTONGS (TONGS_SHADOW.at a 4) ∧
        u.rd pgTONGS (TONGS_SHADOW.at a 4) = s.rd pgTONGS (TONGS_SHADOW.at a 4)) ∧
      u.rd pgTONGS TONGS_LIVE_BANK = (1 - s.rd pgTONGS TONGS_LIVE_BANK) % 2 ∧ u.on pgTONGS PG_SHADOW_SWAP = false ∧
      u.rd pgTONGS TONGS_WAITING = 0 ∧ u.rd pgTONGS TONGS_C_SWAPS = (s.rd pgTONGS TONGS_C_SWAPS + 1) % 2 ^ 64 := by
  have hruns : (List.range 16).filter (engineRuns (swapRaised (s.at t))) = [] := by
    refine List.filter_eq_nil_iff.2 fun n hn => ?_
    have hlt := List.mem_range.1 hn
    rw [engineRuns_swapRaised hlt, engineRuns, State.on_at, hidle n hlt, Bool.false_and, Bool.false_and]
    exact Bool.false_ne_true
  have hmoved : ∀ {f : Fld}, f.start < 0x8000 → (restMoved (swapBegun (s.at t)) (engineRuns (swapRaised (s.at t)))).rd pgTONGS f =
      (swapBegun (s.at t)).rd pgTONGS f := rd_store_restMoved
  have hwaiting : (swapBegun (s.at t)).rd pgTONGS TONGS_WAITING = 0 := by rw [rd_waiting_swapBegun, hruns]; rfl
  obtain ⟨hframe, hswap, hcount, hcopied⟩ := swapOver_tongSwapEnd
    (s := restMoved (swapBegun (s.at t)) (engineRuns (swapRaised (s.at t))))
    (by rw [State.on, hmoved (by decide)]; exact on_swap_swapBegun _) ((hmoved (by decide)).trans hwaiting)
    (by rw [tong_restMoved, tong_swapBegun]; exact hheld)
  have hlive : ∀ a < 64, (restMoved (swapBegun (s.at t)) (engineRuns (swapRaised (s.at t)))).rd pgTONGS (TONGS_LIVE.at a 4) =
      s.rd pgTONGS (TONGS_SHADOW.at a 4) := fun a ha =>
    (hmoved (by rw [liveWord_start]; omega)).trans (rd_live_swapBegun ha)
  have hflds : ∀ a < 64, (TONGS_LIVE.at a 4).start ∉ swapEndFlds.map Fld.start := by decide
  refine ⟨_, exec_tongShadowSwap_begins hreach hno, fun a ha => ⟨?_, (hcopied a ha).trans (hlive a ha)⟩, ?_, hswap, ?_, ?_⟩
  · exact (hframe.rd_store (by rw [liveWord_start]; omega) swapEndFlds_small (hflds a ha)).trans (hlive a ha)
  · exact (hframe.rd_store (by decide) swapEndFlds_small (by decide)).trans
      ((hmoved (by decide)).trans (rd_liveBank_swapBegun _))
  · exact (hframe.rd_store (by decide) swapEndFlds_small (by decide)).trans ((hmoved (by decide)).trans hwaiting)
  · rw [shadowSwapped, hcount, hmoved (by decide), rd_swapBegun (by decide), swapRaised, State.rd_wr_start (by decide),
      State.rd_wr_start (by decide), (tongFrame_banksSwapped (s.at t)).rd_store (by decide) bankWords_small
      (bankWords_apart (Or.inr (by decide)))]
    rfl

theorem exec_tongShadowSwap_waits (hreach : s.reachesCtrl 0x70 false) (hno : s.on pgTONGS PG_SHADOW_SWAP = false)
    (hn : n < 16) (hon : s.on (pgTONG n) PG_ENABLE = true) (hfree : s.on (pgTONG n) TONG_HELD = false)
    (hfine : s.rd (pgTONG n) TONG_FAULT = 0) : ∃ u, exec (.tongShadowSwap t) s = .next u ∧
      u.on pgTONGS PG_SHADOW_SWAP = true ∧ u.tongWaits n = true ∧
      u.rd (pgTONG n) TONG_BANK = s.rd (pgTONG n) TONG_BANK ∧ u.rd (pgTONG n) TONG_PC = s.rd (pgTONG n) TONG_PC ∧
      u.tong.swapAt = max s.time.clk t ∧ u.rd pgTONGS TONGS_LIVE_BANK = (1 - s.rd pgTONGS TONGS_LIVE_BANK) % 2 := by
  have hrun : engineRuns (s.at t) n = true := by
    rw [engineRuns, State.on_at, State.on_at, State.rd_at, hon, hfree, hfine]
    rfl
  have hmoved : ∀ {f : Fld}, f.start < 0x8000 → (restMoved (swapBegun (s.at t)) (engineRuns (swapRaised (s.at t)))).rd pgTONGS f =
      (swapBegun (s.at t)).rd pgTONGS f := rd_store_restMoved
  have hwaits : (restMoved (swapBegun (s.at t)) (engineRuns (swapRaised (s.at t)))).tongWaits n = true := by
    rw [State.tongWaits, hmoved (by decide), ← State.tongWaits, tongWaits_swapBegun hn, hrun]
  have hstays : shadowSwapped (s.at t) = restMoved (swapBegun (s.at t)) (engineRuns (swapRaised (s.at t))) := by
    refine State.tongSwapEnd_waits fun hzero => ?_
    rw [State.tongWaits, hzero, Nat.zero_testBit] at hwaits
    exact absurd hwaits (by decide)
  have hengine : ∀ {f : Fld}, f.start < 0x8000 →
      (restMoved (swapBegun (s.at t)) (engineRuns (swapRaised (s.at t)))).rd (pgTONG n) f = s.rd (pgTONG n) f := fun hf =>
    (rd_running_restMoved (by rw [engineRuns_swapRaised hn, hrun]) hf).trans
      ((tongFrame_swapBegun (s.at t)).rd_engine hn hf swapBeginFlds_small)
  refine ⟨_, exec_tongShadowSwap_begins hreach hno, ?_⟩
  rw [hstays]
  refine ⟨?_, hwaits, hengine (by decide), hengine (by decide), ?_, (hmoved (by decide)).trans (rd_liveBank_swapBegun _)⟩
  · rw [State.on, hmoved (by decide)]
    exact on_swap_swapBegun _
  · rw [tong_restMoved, tong_swapBegun]
    exact State.at_clk s t

end Sys2Proof.Machine
end

section
/-! SUPPORT. Waiting engines that move at a boundary, at a time-out or by force, for O49 (R317, R318). -/

namespace Sys2Proof.Machine

variable {s u v : State} {b n t : Nat} {f : Fld}

/-! ### A waiting engine moves (R317) -/

/-- What a move at a boundary writes of the engine's page. -/
def bankMoveFlds : List Fld := TONG_C_STALL_CLOCKS :: TONG_STALL :: TONG_PC :: moveFlds

/-- An engine that has taken the live bank, a stall ended. -/
def unstalledAt (s : State) (n : Nat) : State :=
  ((s.tongSettle n).tongMove n).when (((s.tongSettle n).tongMove n).tongStalled n) (·.wr (pgTONG n) TONG_STALL 0)

/-- The engine at its new ENTRY. -/
def bankTaken (s : State) (n : Nat) : State :=
  (unstalledAt s n).wr (pgTONG n) TONG_PC ((unstalledAt s n).rd (pgTONG n) TONG_ENTRY)

theorem State.bankMove_eq (s : State) (n : Nat) : s.bankMove n = (bankTaken s n).tongUnwait n := rfl

theorem tongFrame_bankTaken (s : State) (n : Nat) : TongFrame (onPage (pgTONG n) bankMoveFlds) [] s (bankTaken s n) := by
  have hsettle : TongFrame (onPage (pgTONG n) bankMoveFlds) [] s (s.tongSettle n) :=
    (tongFrame_tongSettle s n).mono (by simp [bankMoveFlds]) (by simp)
  have hmove := hsettle.trans ((tongFrame_tongMove (s.tongSettle n) n).mono (onPage_mono (by decide)) (by simp))
  exact tongFrame_wr (tongFrame_when hmove (tongFrame_wr hmove (by simp [bankMoveFlds]))) (by simp [bankMoveFlds])

theorem State.tongMove_entry (s : State) (n : Nat) :
    (s.tongMove n).rd (pgTONG n) TONG_ENTRY = bits (s.rd (pgTONG n) TONG_PROG_NEXT) 5 0 := by
  unfold State.tongMove
  dsimp only
  rw [State.rd_wr_start (by decide), State.rd_wr_start (by decide), State.rd_wr_start (by decide), State.rd_wr_same]
  exact Nat.mod_eq_of_lt (bits_lt _ 5 0)

theorem State.tongMove_bank (hn : n < 16) :
    (s.tongMove n).rd (pgTONG n) TONG_BANK = s.rd pgTONGS TONGS_LIVE_BANK := by
  have hstore : ∀ {g : Fld}, g.start < 0x8000 → fldKey pgTONGS TONGS_LIVE_BANK ≠ fldKey (pgTONG n) g :=
    fldKey_store_ne hn (by decide)
  unfold State.tongMove
  dsimp only
  rw [State.rd_wr_same, State.rd_wr_ne _ (hstore (by decide)), State.rd_wr_ne _ (hstore (by decide)),
    State.rd_wr_ne _ (hstore (by decide))]
  exact Nat.mod_eq_of_lt (s.rd_lt _ _)

/-- A stall's end leaves the fields of the page beside STALL. -/
theorem rd_unstalledAt (hf : f.start ≠ TONG_STALL.start) :
    (unstalledAt s n).rd (pgTONG n) f = ((s.tongSettle n).tongMove n).rd (pgTONG n) f :=
  State.when_keeps (·.rd (pgTONG n) f) (State.rd_wr_start hf)

theorem rd_settled (hf : f.start ≠ TONG_C_STALL_CLOCKS.start) :
    (s.tongSettle n).rd (pgTONG n) f = s.rd (pgTONG n) f :=
  (tongFrame_tongSettle s n).rd (by simpa using fldKey_ne_of_start hf) (by simp)

theorem rd_entry_unstalledAt (s : State) (n : Nat) :
    (unstalledAt s n).rd (pgTONG n) TONG_ENTRY = bits (s.rd (pgTONG n) TONG_PROG_NEXT) 5 0 := by
  rw [rd_unstalledAt (by decide), State.tongMove_entry, rd_settled (by decide)]

/-- What the engine shows on the live bank. -/
structure TookBank (s u : State) (n : Nat) : Prop where
  bank : u.rd (pgTONG n) TONG_BANK = s.rd pgTONGS TONGS_LIVE_BANK
  entry : u.rd (pgTONG n) TONG_ENTRY = bits (s.rd (pgTONG n) TONG_PROG_NEXT) 5 0
  pc : u.rd (pgTONG n) TONG_PC = bits (s.rd (pgTONG n) TONG_PROG_NEXT) 5 0

theorem tookBank_bankTaken (hn : n < 16) : TookBank s (bankTaken s n) n := by
  refine ⟨?_, ?_, ?_⟩
  · rw [bankTaken, State.rd_wr_start (by decide), rd_unstalledAt (by decide), State.tongMove_bank hn]
    have hapart : fldKey pgTONGS TONGS_LIVE_BANK ≠ fldKey (pgTONG n) TONG_C_STALL_CLOCKS :=
      fldKey_store_ne hn (by decide) (by decide)
    exact (tongFrame_tongSettle s n).rd (by simpa using hapart) (by simp)
  · rw [bankTaken, State.rd_wr_start (by decide), rd_entry_unstalledAt]
  · rw [bankTaken, State.rd_wr_same, rd_entry_unstalledAt]
    exact Nat.mod_eq_of_lt (bits_lt _ 5 0)

/-- A swap that ends with the move of the last engine that waited. -/
structure SwapEnded (s u : State) (n : Nat) : Prop extends TookBank s u n where
  waiting : u.rd pgTONGS TONGS_WAITING = 0
  swap : u.on pgTONGS PG_SHADOW_SWAP = false
  counted : u.rd pgTONGS TONGS_C_SWAPS = (s.rd pgTONGS TONGS_C_SWAPS + 1) % 2 ^ 64
  but : TongsBut (onTongs n bankMoveFlds unwaitFlds) s u

theorem held_bankTaken (s : State) (n : Nat) : (bankTaken s n).tong.held = s.tong.held := by
  have hsettle : (s.tongSettle n).tong.held = s.tong.held := by
    rw [State.tongSettle_eq, State.when_keeps (·.tong.held) rfl]
    rfl
  have hstall : (unstalledAt s n).tong.held = ((s.tongSettle n).tongMove n).tong.held :=
    State.when_keeps (·.tong.held) rfl
  exact hstall.trans hsettle

theorem State.tongUnwait_last (hwait : s.rd pgTONGS TONGS_WAITING = 2 ^ n) :
    s.tongUnwait n = (s.wr pgTONGS TONGS_WAITING 0).tongSwapEnd := by
  unfold State.tongUnwait
  dsimp only
  rw [hwait, Nat.testBit_two_pow_self, if_pos rfl, Nat.sub_self]

theorem swapEnded_bankMove (hn : n < 16) (hwait : s.rd pgTONGS TONGS_WAITING = 2 ^ n)
    (hswap : s.on pgTONGS PG_SHADOW_SWAP = true) (hheld : s.tong.held = []) : SwapEnded s (s.bankMove n) n := by
  have hstore : ∀ {f : Fld}, f.start < 0x8000 → (bankTaken s n).rd pgTONGS f = s.rd pgTONGS f := fun hf =>
    (tongFrame_bankTaken s n).rd_page (n := 16) hf (by decide) (Or.inl (by omega))
  have hlast : s.bankMove n = ((bankTaken s n).wr pgTONGS TONGS_WAITING 0).tongSwapEnd := by
    rw [State.bankMove_eq, State.tongUnwait_last ((hstore (by decide)).trans hwait)]
  obtain ⟨hframe, hover, hcount, -⟩ := swapOver_tongSwapEnd (s := (bankTaken s n).wr pgTONGS TONGS_WAITING 0)
    (by rw [State.on, State.rd_wr_start (by decide), hstore (by decide)]; exact hswap)
    (by rw [State.rd_wr_same, Nat.zero_mod]) ((held_bankTaken s n).trans hheld)
  have hengine : ∀ {f : Fld}, f.start < 0x8000 → (s.bankMove n).rd (pgTONG n) f = (bankTaken s n).rd (pgTONG n) f := by
    intro f hf
    rw [hlast, hframe.rd_engine hn hf swapEndFlds_small, State.rd_wr_ne _ (fldKey_store_ne hn (by decide) hf).symm]
  obtain ⟨hbank, hentry, hpc⟩ := tookBank_bankTaken (s := s) hn
  refine ⟨⟨(hengine (by decide)).trans hbank, (hengine (by decide)).trans hentry, (hengine (by decide)).trans hpc⟩,
    ?_, ?_, ?_, ?_⟩
  · rw [hlast, hframe.rd_store (by decide) swapEndFlds_small (by decide), State.rd_wr_same, Nat.zero_mod]
  · rw [hlast, hover]
  · rw [hlast, hcount, State.rd_wr_start (by decide), hstore (by decide)]
  · rw [State.bankMove_eq]
    exact ((tongFrame_bankTaken s n).tongsBut (fun _ => onTongs_engine _) (by simp)).trans
      ((tongFrame_tongUnwait _ n).tongsBut (fun _ => onTongs_store _) (by simp))

theorem exec_engineBankMove_moves (hn : n < 16) (hwait : s.rd pgTONGS TONGS_WAITING = 2 ^ n)
    (hbound : s.tongBoundary n = true) (hstall : s.rd (pgTONG n) TONG_STALL = 0)
    (hswap : s.on pgTONGS PG_SHADOW_SWAP = true) (hheld : s.tong.held = []) :
    ∃ u, exec (.engineBankMove t n) s = .next u ∧ u.rd (pgTONG n) TONG_BANK = s.rd pgTONGS TONGS_LIVE_BANK ∧
      u.rd (pgTONG n) TONG_ENTRY = bits (s.rd (pgTONG n) TONG_PROG_NEXT) 5 0 ∧
      u.rd (pgTONG n) TONG_PC = bits (s.rd (pgTONG n) TONG_PROG_NEXT) 5 0 ∧ u.rd pgTONGS TONGS_WAITING = 0 ∧
      u.on pgTONGS PG_SHADOW_SWAP = false ∧ u.rd pgTONGS TONGS_C_SWAPS = (s.rd pgTONGS TONGS_C_SWAPS + 1) % 2 ^ 64 := by
  obtain ⟨⟨hbank, hentry, hpc⟩, hnone, hover, hcount, hbut⟩ : SwapEnded (s.at t) ((s.at t).bankMove n) n :=
    swapEnded_bankMove hn hwait hswap hheld
  have hmoves : ((s.at t).tongWaits n && (s.at t).tongBoundary n && decide ((s.at t).rd (pgTONG n) TONG_STALL < 4)) = true := by
    have hwaits : (s.at t).tongWaits n = true := by
      rw [State.tongWaits, State.rd_at, hwait, Nat.testBit_two_pow_self]
    have hbound : (s.at t).tongBoundary n = true := hbound
    rw [hwaits, hbound, State.rd_at, hstall]
    rfl
  rw [exec_engineBankMove, execEngineBankMove]
  refine ⟨_, State.happen_tongsBut ?_ hbut, hbank, hentry, hpc, hnone, hover, hcount⟩
  rw [Nat.mod_eq_of_lt hn]
  exact if_pos hmoves

theorem exec_engineBankMove_stays (hn : n < 16) (h : s.tongWaits n = false ∨ s.tongBoundary n = false) :
    ∃ u, exec (.engineBankMove t n) s = .next u ∧ u = s.at t := by
  have hstays : ((s.at t).tongWaits n && (s.at t).tongBoundary n) = false := Bool.and_eq_false_iff.2 h
  rw [exec_engineBankMove, execEngineBankMove]
  refine State.happen_same ?_
  dsimp only
  rw [Nat.mod_eq_of_lt hn, hstays, Bool.false_and, if_neg Bool.false_ne_true]

/-! ### Forced moves (R318) -/

/-- What discarding an engine's work for a forced move writes of its page. -/
def forceFlds : List Fld := PG_PG_EVT :: TONG_C_FORCED_SWAPS :: TONG_C_STALL_CLOCKS :: discardFlds

/-- An engine whose work is discarded for a forced move. -/
def forceDiscarded (s : State) (n : Nat) : State := (s.tongSettle n).tongDiscard n

/-- The forced move counted and raised, before the engine moves. -/
def forceCounted (s : State) (n : Nat) : State :=
  (((forceDiscarded s n).inc (pgTONG n) TONG_C_FORCED_SWAPS).raise (0x60 + n) 3).inc pgTONGS TONGS_C_FORCED

theorem State.forceMove_eq (s : State) (n : Nat) : s.forceMove n = (forceCounted s n).bankMove n := rfl

theorem tongsBut_forceDiscarded (hn : n < 16) (s : State) :
    TongsBut (onPage (pgTONG n) (TONG_C_STALL_CLOCKS :: discardFlds)) s (forceDiscarded s n) :=
  ((tongsBut_tongSettle s n).mono (onPage_mono (by decide))).trans
    ((discarded_tongDiscard hn _).but.mono (onPage_mono (by decide)))

theorem tongsBut_forceCounted (hn : n < 16) (s : State) :
    TongsBut (onTongs n forceFlds [TONGS_C_FORCED]) s (forceCounted s n) := by
  have hdiscard : TongsBut (onTongs n forceFlds [TONGS_C_FORCED]) s (forceDiscarded s n) :=
    (tongsBut_forceDiscarded hn s).mono fun x hx => onTongs_engine x (onPage_mono (by decide) x hx)
  have hraise : ∀ u : State, TongsBut (onTongs n forceFlds [TONGS_C_FORCED]) u (u.raise (0x60 + n) 3) := fun u =>
    (tongFrame_raise (fs := []) (ps := [0x60 + n]) (tongFrame_refl u) List.mem_cons_self).tongsBut (by simp) (by
      simp only [List.forall_mem_singleton]
      exact ⟨by omega, by rw [pgAt_tong]; exact mem_onTongs List.mem_cons_self⟩)
  exact ((hdiscard.inc (mem_onTongs (by decide))).trans (hraise _)).inc (onTongs_store _ (mem_onPage.2 ⟨rfl, by simp⟩))

theorem held_forceCounted (hn : n < 16) (s : State) : (forceCounted s n).tong.held = s.tong.held := by
  have hraise : ∀ u : State, (u.raise (0x60 + n) 3).tong = u.tong := fun u =>
    (frame_raise (fs := []) (ps := [0x60 + n]) (frame_refl _ _ u) List.mem_cons_self).tong
  have hsettle : (s.tongSettle n).tong.held = s.tong.held := by
    rw [State.tongSettle_eq, State.when_keeps (·.tong.held) rfl]
    rfl
  have hcounted : (forceCounted s n).tong = (forceDiscarded s n).tong :=
    hraise ((forceDiscarded s n).inc (pgTONG n) TONG_C_FORCED_SWAPS)
  rw [hcounted, forceDiscarded, (discarded_tongDiscard hn _).held, hsettle]

/-- What a forced move of the last engine that waited leaves. -/
structure Forced (s u : State) (n : Nat) : Prop where
  pc : u.rd (pgTONG n) TONG_PC = bits (s.rd (pgTONG n) TONG_PROG_NEXT) 5 0
  waiting : u.rd pgTONGS TONGS_WAITING = 0
  swap : u.on pgTONGS PG_SHADOW_SWAP = false
  raised : u.pends (0x60 + n) 3 = true
  counted : u.rd (pgTONG n) TONG_C_FORCED_SWAPS = (s.rd (pgTONG n) TONG_C_FORCED_SWAPS + 1) % 2 ^ 64
  total : u.rd pgTONGS TONGS_C_FORCED = (s.rd pgTONGS TONGS_C_FORCED + 1) % 2 ^ 64
  but : ∃ fs, TongsBut fs s u

theorem forced_forceMove (hn : n < 16) (hwait : s.rd pgTONGS TONGS_WAITING = 2 ^ n)
    (hswap : s.on pgTONGS PG_SHADOW_SWAP = true) (hheld : s.tong.held = []) : Forced s (s.forceMove n) n := by
  have hbut := tongsBut_forceCounted hn s
  have hstore : ∀ {f : Fld}, f.start < 0x8000 → f.start ∉ [TONGS_C_FORCED].map Fld.start →
      (forceCounted s n).rd pgTONGS f = s.rd pgTONGS f := fun hf hout =>
    hbut.rd (n := 16) (by decide) hf (onTongs_apart hf (by decide) (by decide) (Or.inl (by omega)) (Or.inr hout))
  have hnext : (forceCounted s n).rd (pgTONG n) TONG_PROG_NEXT = s.rd (pgTONG n) TONG_PROG_NEXT :=
    hbut.rd (by omega) (by decide) (onTongs_apart (by decide) (by decide) (by decide) (Or.inr (by decide))
      (Or.inl (by omega)))
  obtain ⟨⟨-, -, hpc⟩, hnone, hover, -, hmove⟩ := swapEnded_bankMove (s := forceCounted s n) hn
    ((hstore (by decide) (by decide)).trans hwait) (by rw [State.on, hstore (by decide) (by decide)]; exact hswap)
    ((held_forceCounted hn s).trans hheld)
  rw [← State.forceMove_eq] at hpc hnone hover hmove
  have hengine : ∀ {f : Fld}, f.start < 0x8000 → f.start ∉ bankMoveFlds.map Fld.start →
      (s.forceMove n).rd (pgTONG n) f = (forceCounted s n).rd (pgTONG n) f := fun hf hout =>
    hmove.rd (by omega) hf (onTongs_apart hf (by decide) unwaitFlds_small (Or.inr hout) (Or.inl (by omega)))
  refine ⟨hpc.trans (by rw [hnext]), hnone, hover, ?_, ?_, ?_, ⟨_, (hbut.mono fun _ => List.mem_append_left _).trans
    (hmove.mono fun _ => List.mem_append_right _)⟩⟩
  · have hevt : fldKey (pgAt (0x60 + n)) PG_PG_EVT ≠ fldKey pgTONGS TONGS_C_FORCED := by
      rw [pgAt_tong]
      exact (fldKey_store_ne hn (by decide) (by decide)).symm
    rw [State.pends, pgAt_tong, hengine (by decide) (by decide), ← pgAt_tong]
    exact pends_wr hevt (pends_raise_self (by omega) (by decide))
  · rw [hengine (by decide) (by decide), forceCounted, State.rd_inc_ne (fldKey_store_ne hn (by decide) (by decide)).symm,
      State.rd_raise (evtKey_tong hn hn (by decide) (by decide) (by decide)), State.rd_inc_same,
      (tongsBut_forceDiscarded hn s).rd (by omega) (by decide) (onPage_apart (by decide) (by decide) (Or.inr (by decide)))]
  · rw [pgTONGS_eq, hmove.rd (by decide) (by decide) (onTongs_apart (by decide) (by decide) unwaitFlds_small
      (Or.inl (by omega)) (Or.inr (by decide))), ← pgTONGS_eq, forceCounted, State.rd_inc_same,
      State.rd_raise (evtKey_tongs hn (by decide) (by decide)),
      State.rd_inc_ne (fldKey_store_ne hn (by decide) (by decide)), pgTONGS_eq,
      (tongsBut_forceDiscarded hn s).rd (by decide) (by decide) (onPage_apart (by decide) (by decide) (Or.inl (by omega)))]

/-- With one engine that waits, forcing all forces that one. -/
theorem State.forceAll_one (hn : n < 16) (hwait : s.rd pgTONGS TONGS_WAITING = 2 ^ n) : s.forceAll = s.forceMove n := by
  have hbits : ∀ n < 16, (List.range 16).filter (fun m => (2 ^ n).testBit m) = [n] := by decide
  have hwaits : s.tongWaits = fun m => (2 ^ n).testBit m := funext fun m => by rw [State.tongWaits, hwait]
  rw [State.forceAll, hwaits, hbits n hn, State.each_cons, State.each_nil]

theorem exec_swapTimeout_early (h : s.on pgTONGS PG_SHADOW_SWAP = false ∨ s.on pgTONGS TONGS_AUTO_FORCE = false ∨
    max s.time.clk t < s.tong.swapAt + s.rd pgTONGS TONGS_SWAP_TO_US * usU) :
    ∃ u, exec (.swapTimeout t) s = .next u ∧ u = s.at t := by
  rw [exec_swapTimeout, execSwapTimeout]
  refine State.happen_same (if_neg fun hforce => ?_)
  simp only [Bool.and_eq_true, decide_eq_true_eq, State.on_at, State.rd_at, State.at_clk] at hforce
  obtain ⟨⟨⟨hswap, hauto⟩, -⟩, htime⟩ := hforce
  obtain hno | hno | hearly := h
  · rw [hno] at hswap
    exact Bool.false_ne_true hswap
  · rw [hno] at hauto
    exact Bool.false_ne_true hauto
  · exact absurd hearly (Nat.not_lt.2 htime)

theorem exec_swapTimeout_forces (hn : n < 16) (hwait : s.rd pgTONGS TONGS_WAITING = 2 ^ n)
    (hswap : s.on pgTONGS PG_SHADOW_SWAP = true) (hheld : s.tong.held = [])
    (hauto : s.on pgTONGS TONGS_AUTO_FORCE = true) (hus : s.rd pgTONGS TONGS_SWAP_TO_US ≠ 0)
    (hlate : s.tong.swapAt + s.rd pgTONGS TONGS_SWAP_TO_US * usU ≤ max s.time.clk t) :
    ∃ u, exec (.swapTimeout t) s = .next u ∧ u.rd (pgTONG n) TONG_PC = bits (s.rd (pgTONG n) TONG_PROG_NEXT) 5 0 ∧
      u.rd pgTONGS TONGS_WAITING = 0 ∧ u.on pgTONGS PG_SHADOW_SWAP = false ∧ u.pends (0x60 + n) 3 = true := by
  obtain ⟨hpc, hnone, hover, hraised, -, -, fs, hbut⟩ : Forced (s.at t) ((s.at t).forceMove n) n :=
    forced_forceMove hn hwait hswap hheld
  rw [exec_swapTimeout, execSwapTimeout]
  refine ⟨_, State.happen_tongsBut ?_ hbut, hpc, hnone, hover, hraised⟩
  rw [← State.forceAll_one (s := s.at t) hn hwait]
  refine if_pos ?_
  simp only [Bool.and_eq_true, decide_eq_true_eq, bne_iff_ne, State.on_at, State.rd_at, State.at_clk]
  exact ⟨⟨⟨hswap, hauto⟩, hus⟩, hlate⟩

theorem exec_tongForce_forces (hn : n < 16) (hreach : s.reaches 0x70 false)
    (hwait : s.rd pgTONGS TONGS_WAITING = 2 ^ n) (hswap : s.on pgTONGS PG_SHADOW_SWAP = true) (hheld : s.tong.held = []) :
    ∃ u, exec (.tongForce t) s = .next u ∧ u.rd (pgTONG n) TONG_PC = bits (s.rd (pgTONG n) TONG_PROG_NEXT) 5 0 ∧
      u.rd pgTONGS TONGS_WAITING = 0 ∧ u.on pgTONGS PG_SHADOW_SWAP = false ∧ u.pends (0x60 + n) 3 = true ∧
      u.rd (pgTONG n) TONG_C_FORCED_SWAPS = (s.rd (pgTONG n) TONG_C_FORCED_SWAPS + 1) % 2 ^ 64 ∧
      u.rd pgTONGS TONGS_C_FORCED = (s.rd pgTONGS TONGS_C_FORCED + 1) % 2 ^ 64 := by
  obtain ⟨hpc, hnone, hover, hraised, hcount, htotal, fs, hbut⟩ : Forced (s.at t) ((s.at t).forceMove n) n :=
    forced_forceMove hn hwait hswap hheld
  rw [exec_tongForce, execTongForce]
  refine ⟨_, State.happen_tongsBut ?_ hbut, hpc, hnone, hover, hraised, hcount, htotal⟩
  rw [State.blkGuard_reaches (State.reaches_at.2 hreach)]
  exact State.forceAll_one (s := s.at t) hn hwait

end Sys2Proof.Machine
end

section
/-! PROOF of O49: engines start, stop and act in groups, a swap exchanges the banks, and waiting engines move (R300, R313 to
R318). -/

namespace Sys2Proof.Machine

/-- Settles O49: one engine, a group or a swap at a time, each clause by the lemma about its command. -/
theorem enginesStartStopAndSwapPrograms : Obligations.EnginesStartStopAndSwapPrograms := by
  unfold Obligations.EnginesStartStopAndSwapPrograms
  exact ⟨fun s t n ⟨hn, hreach, hoff, hawake, hfree, hin⟩ => exec_engineEnable_starts hn hreach hoff hawake hfree hin,
    fun s t n ⟨hn, hreach, hoff, hawake, hhold⟩ => exec_engineEnable_holds hn hreach hoff hawake hhold,
    fun s t n ⟨hn, hreach, hon⟩ => exec_engineEnable_enabled hn hreach hon,
    fun s t n ⟨hn, hreach, hon, hwait⟩ => exec_engineDisable_stops hn hreach hon hwait,
    fun s t n ⟨hn, hreach, hoff⟩ => exec_engineDisable_disabled hn hreach hoff,
    fun s t mask hreach => exec_grpEnSet_sets hreach,
    fun s t mask ⟨hreach, _⟩ => exec_grpEnClr_clears hreach,
    fun s t mask hreach => exec_grpClkrst_restarts hreach,
    fun s t ⟨hreach, hno, hheld, hidle⟩ => exec_tongShadowSwap_idle hreach hno hheld hidle,
    fun s t n ⟨hreach, hno, hn, hon, hfree, hfine⟩ => exec_tongShadowSwap_waits hreach hno hn hon hfree hfine,
    fun s t n ⟨hn, hwait, hbound, hstall, hswap, hheld⟩ => exec_engineBankMove_moves hn hwait hbound hstall hswap hheld,
    fun s t n ⟨hn, h⟩ => exec_engineBankMove_stays hn h,
    fun s t h => exec_swapTimeout_early h,
    fun s t n ⟨hn, hwait, _, hswap, hheld⟩ ⟨hauto, hus, hlate⟩ =>
      exec_swapTimeout_forces hn hwait hswap hheld hauto hus hlate,
    fun s t n ⟨hn, hreach, hwait, _, hswap, hheld⟩ => exec_tongForce_forces hn hreach hwait hswap hheld⟩

end Sys2Proof.Machine
end
